-- ==== Sys2Proof/Word.lean ====
section
/-! DEFINITION. The word types of the TH9600: CSR words, bytes, and the registers of a Pozel core. -/

namespace Sys2Proof

/-- A CSR register or a message word: 32 bits (R7). -/
abbrev Word := BitVec 32

/-- The smallest addressable unit of the device address map (R17). -/
abbrev Byte := BitVec 8

/-- A Pozel D register: 32 bits and 8 guard bits (R118). -/
abbrev DReg := BitVec 40

/-- A Pozel A or B register: a 48-bit device address (R118). -/
abbrev AReg := BitVec 48

/-- A Pozel vector register (R118). -/
abbrev VReg := BitVec 1024

end Sys2Proof
end

