-- ==== Sys2Proof/Syntax.lean ====
section
/-! DEFINITION. The commands: one constructor per row of the table, with what the command carries. An operand is either
what the sender writes (an address, a value), or the unit at which an event happens, or what the event brings from outside
the device or leaves to the firmware (received bytes, a measured value, an address that the firmware chooses). -/

namespace Sys2Proof

/-- Who makes an access (R8, R22). -/
inductive Init
  | host
  | ctl (i : Nat)              -- logical control core 0 to 3
  | dsp (c k : Nat)            -- logical DSP core c.k
  | dct (ch : Nat)             -- Decant channel
  | trl                        -- Trellis
  | eng (e : Nat)              -- an engine
  | nwb                        -- the barrier block
  | cm                         -- Cellarmaster, for its own accesses
  deriving DecidableEq, Repr

/-- Where an address lies: the 48-bit device address map (R17), BAR4/5 (R27) or the function's configuration space (R25). -/
inductive Space | dev | bar45 | cfg
  deriving DecidableEq, Repr

/-- A submit port (R89). -/
inductive Port
  | core (c k : Nat) | ctl (i : Nat) | decant (ch : Nat) | engine (e : Nat) | burst (n ctx : Nat) | trellis | ring (h : Nat)
  deriving DecidableEq, Repr

/-- A unit that runs a task: a logical core, an engine, a burst context of an NFE or a Decant channel (R76). -/
inductive TUnit
  | core (c k : Nat) | engine (e : Nat) | burst (n ctx : Nat) | channel (ch : Nat)
  deriving DecidableEq, Repr

/-- A part of a Decant transfer: the channel, and how many reads, or list entries, of it are in flight together. -/
structure Part where
  ch : Nat
  n : Nat
  deriving DecidableEq, Repr

/-- A command to the TH9600. -/
inductive Instr
  /-- `REGISTER_WRITE` (R4). -/
  | registerWrite (i : Init) (sp : Space) (addr : Nat) (size : Nat) (v : Nat)
  /-- `RC_COUNTER_READ` (R4). -/
  | rcCounterRead (i : Init) (sp : Space) (addr : Nat) (size : Nat)
  /-- `LO_READ_LATCH` (R8). -/
  | loReadLatch (i : Init) (sp : Space) (addr : Nat) (size : Nat)
  /-- `HI_WRITE_COMMIT` (R8). -/
  | hiWriteCommit (i : Init) (sp : Space) (addr : Nat) (size : Nat) (v : Nat)
  /-- `HOST_CELLAR_WRITE` (R29). -/
  | hostCellarWrite (off : Nat) (data : List Byte)
  /-- `PCIE_FLR` (R41). -/
  | pcieFlr
  /-- `PCIE_CONVENTIONAL_RESET` (R41). -/
  | pcieConventionalReset
  /-- `PCIE_LINK_DOWN` (R277). -/
  | pcieLinkDown (kept : Nat)
  /-- `MBX_ENABLE` (R33). -/
  | mbxEnable (i : Init) (m : Nat) (v : Word)
  /-- `MBX_DISABLE` (R40). -/
  | mbxDisable (i : Init) (m : Nat) (v : Word)
  /-- `MBX_IDLE` (R40). -/
  | mbxIdle (m : Nat)
  /-- `MBX_REQ_PI_WRITE` (R36). -/
  | mbxReqPiWrite (i : Init) (m : Nat) (v : Word) (hostWrites : List (Nat × List Byte))
  /-- `MBX_RSP_CI_WRITE` (R39). -/
  | mbxRspCiWrite (i : Init) (m : Nat) (v : Word)
  /-- `MBX_LOCK_SET` (R32). -/
  | mbxLockSet (i : Init) (v : Word)
  /-- `MBX_FWCTRL_RELOAD` (R501). -/
  | mbxFwctrlReload (i : Init) (v : Word)
  /-- `REQUEST_CONSUME` (R37). -/
  | requestConsume (m : Nat) (ok : Bool)
  /-- `RESPONSE_COMMIT` (R39). -/
  | responseCommit (m : Nat) (k : Nat) (ok : Bool)
  /-- `RESPONSE_TIMEOUT` (R46). -/
  | responseTimeout (m : Nat) (k : Nat) (ok : Bool)
  /-- `NOTICE_DELIVER` (R51). -/
  | noticeDeliver (m : Nat) (ok : Bool)
  /-- `FW_WATCHDOG_EXPIRE` (R49). -/
  | fwWatchdogExpire
  /-- `CONTROL_CORE_EXCEPTION` (R49). -/
  | controlCoreException (i : Nat)
  /-- `FW_RESTART` (R49). -/
  | fwRestart
  /-- `FW_RUNNING` (R56). -/
  | fwRunning
  /-- `SYS_PING` (R54). -/
  | sysPing (m : Nat)
  /-- `SYS_INFO` (R54). -/
  | sysInfo (m : Nat)
  /-- `SYS_RESTART` (R55). -/
  | sysRestart (m : Nat)
  /-- `SYS_HEADROOM_MODE` (R443). -/
  | sysHeadroomMode (m : Nat)
  /-- `SYS_HEADROOM_VOLTAGE` (R443). -/
  | sysHeadroomVoltage (m : Nat)
  /-- `SYS_ERROR` (R57). -/
  | sysError (src : Nat) (unit : Nat)
  /-- `SYS_BOOTRUN` (R502). -/
  | sysBootrun (m : Nat)
  /-- `SYS_FLASHWR` (R502). -/
  | sysFlashwr (m : Nat) (verify : Bool)
  /-- `PWR_SET_DEVICE_RUN` (R453). -/
  | pwrSetDeviceRun (m : Nat)
  /-- `PWR_SET_DEVICE_DEEP` (R454). -/
  | pwrSetDeviceDeep (m : Nat)
  /-- `PWR_SET_DEVICE_OFF` (R454). -/
  | pwrSetDeviceOff (m : Nat)
  /-- `PWR_SET_CLUSTER_RUN` (R453). -/
  | pwrSetClusterRun (m : Nat)
  /-- `PWR_SET_CLUSTER_SLEEP` (R453). -/
  | pwrSetClusterSleep (m : Nat)
  /-- `PWR_SET_CLUSTER_OFF` (R453). -/
  | pwrSetClusterOff (m : Nat)
  /-- `PWR_SET_ENGINE_RUN` (R453). -/
  | pwrSetEngineRun (m : Nat)
  /-- `PWR_SET_ENGINE_SLEEP` (R453). -/
  | pwrSetEngineSleep (m : Nat)
  /-- `PWR_QUERY` (R456). -/
  | pwrQuery (m : Nat)
  /-- `CARRIER_CONFIG` (R57). -/
  | carrierConfig (m : Nat) (flowBase : Nat) (flowCount : Nat)
  /-- `CARRIER_START` (R58). -/
  | carrierStart (m : Nat)
  /-- `CARRIER_STOP` (R59). -/
  | carrierStop (m : Nat)
  /-- `CARRIER_STOP_DRAIN` (R59). -/
  | carrierStopDrain (m : Nat)
  /-- `CARRIER_QUERY` (R60). -/
  | carrierQuery (m : Nat)
  /-- `SLOT_PLAN` (R61). -/
  | slotPlan (m : Nat) (tasks : List (List Word)) (relGrp : Nat) (relFlag : Nat)
  /-- `PLAN_SUBMIT_LATE` (R61). -/
  | planSubmitLate (handle : Nat)
  /-- `SLOT_CANCEL` (R62). -/
  | slotCancel (m : Nat)
  /-- `SLOT_QUERY` (R63). -/
  | slotQuery (m : Nat)
  /-- `BLEND_LOAD` (R64). -/
  | blendLoad (m : Nat)
  /-- `BLEND_UNLOAD` (R65). -/
  | blendUnload (m : Nat)
  /-- `BLEND_QUERY` (R65). -/
  | blendQuery (m : Nat)
  /-- `FLOW_PIN` (R66). -/
  | flowPin (m : Nat)
  /-- `FLOW_NOTIFY_BIND` (R66). -/
  | flowNotifyBind (m : Nat)
  /-- `FLOW_NOTIFY_UNBIND` (R66). -/
  | flowNotifyUnbind (m : Nat)
  /-- `FLOW_QUERY` (R67). -/
  | flowQuery (m : Nat)
  /-- `MEM_ALLOC` (R316). -/
  | memAlloc (m : Nat) (addr : Nat)
  /-- `MEM_FREE` (R317). -/
  | memFree (m : Nat)
  /-- `MEM_GRANT` (R318). -/
  | memGrant (m : Nat)
  /-- `MEM_GRANT_REVOKE` (R318). -/
  | memGrantRevoke (m : Nat)
  /-- `LANE_CONFIG_LINK` (R356). -/
  | laneConfigLink (m : Nat)
  /-- `LANE_CONFIG_PORT` (R356). -/
  | laneConfigPort (m : Nat)
  /-- `LANE_CONFIG_STREAM` (R356). -/
  | laneConfigStream (m : Nat)
  /-- `LANE_STATUS` (R357). -/
  | laneStatus (m : Nat)
  /-- `LANE_EQ_TAPS` (R358). -/
  | laneEqTaps (m : Nat)
  /-- `LANE_EQ_FREEZE` (R358). -/
  | laneEqFreeze (m : Nat)
  /-- `LANE_EQ_RELEASE` (R358). -/
  | laneEqRelease (m : Nat)
  /-- `TIME_SET_ABSOLUTE` (R387). -/
  | timeSetAbsolute (m : Nat)
  /-- `TIME_SET_STEP` (R387). -/
  | timeSetStep (m : Nat)
  /-- `TIME_SET_SERVO` (R387). -/
  | timeSetServo (m : Nat)
  /-- `TIME_SET_OUTPUT` (R387). -/
  | timeSetOutput (m : Nat)
  /-- `TIME_SET_CAPTURE` (R387). -/
  | timeSetCapture (m : Nat)
  /-- `TIME_OFFSET` (R388). -/
  | timeOffset (m : Nat)
  /-- `TIME_QUERY` (R389). -/
  | timeQuery (m : Nat)
  /-- `FSK_PLAN` (R224). -/
  | fskPlan (m : Nat)
  /-- `FSK_PLAN_STOP` (R228). -/
  | fskPlanStop (m : Nat)
  /-- `FSK_TX` (R252). -/
  | fskTx (m : Nat) (flow : Nat) (job : Nat) (sl : Nat)
  /-- `FSK_TX_RESULT_WRITE` (R252). -/
  | fskTxResultWrite (handle : Nat) (ok : Bool)
  /-- `FSK_TXABORT` (R253). -/
  | fskTxabort (m : Nat)
  /-- `TRELLIS_LOAD` (R415). -/
  | trellisLoad (m : Nat)
  /-- `TRELLIS_RELEASE` (R416). -/
  | trellisRelease (m : Nat)
  /-- `TRELLIS_HOLD` (R416). -/
  | trellisHold (m : Nat)
  /-- `TRELLIS_UNLOAD` (R416). -/
  | trellisUnload (m : Nat)
  /-- `TRELLIS_QUERY` (R417). -/
  | trellisQuery (m : Nat)
  /-- `SPARE_QUERY` (R444). -/
  | spareQuery (m : Nat)
  /-- `SPARE_RETIRE` (R445). -/
  | spareRetire (m : Nat)
  /-- `CENSUS_CONFIG` (R520). -/
  | censusConfig (m : Nat) (addr : Nat)
  /-- `CENSUS_START` (R520). -/
  | censusStart (m : Nat)
  /-- `CENSUS_STOP` (R520). -/
  | censusStop (m : Nat)
  /-- `DEBUG_AUTH_CHALLENGE` (R505). -/
  | debugAuthChallenge (m : Nat)
  /-- `DEBUG_AUTH_VERIFY` (R505). -/
  | debugAuthVerify (m : Nat)
  /-- `DEBUG_AUTH_CLEAR` (R505). -/
  | debugAuthClear (m : Nat)
  /-- `DEBUG_READ` (R506). -/
  | debugRead (m : Nat)
  /-- `DEBUG_WRITE` (R506). -/
  | debugWrite (m : Nat)
  /-- `CP_SUBMIT` (R106). -/
  | cpSubmit (i : Nat) (v : Word)
  /-- `TASK_ADMIT` (R90). -/
  | taskAdmit (p : Port) (sl : Nat)
  /-- `EV_POST` (R72). -/
  | evPost (i : Nat) (v : Word)
  /-- `EV_CLR` (R72). -/
  | evClr (i : Nat) (v : Word)
  /-- `TASK_SELECT` (R81). -/
  | taskSelect (u : TUnit)
  /-- `CM_CANCEL` (R101). -/
  | cmCancel (i : Nat) (v : Word)
  /-- `CM_CANCEL_FLOW` (R101). -/
  | cmCancelFlow (i : Nat) (v : Word)
  /-- `FLOW_CFG_WRITE` (R80). -/
  | flowCfgWrite (i : Nat) (v : Word)
  /-- `DEADLINE_SWEEP` (R86). -/
  | deadlineSweep
  /-- `TASK_COMMIT` (R100). -/
  | taskCommit (sl : Nat)
  /-- `COMPLETION_RECORD_WRITE` (R97). -/
  | completionRecordWrite (q : Nat) (ok : Bool)
  /-- `UNIT_FAULT` (R104). -/
  | unitFault (u : TUnit) (shared : Bool)
  /-- `HOST_RING_SQ_PI_WRITE` (R93). -/
  | hostRingSqPiWrite (h : Nat) (v : Nat)
  /-- `HOST_RING_ENTRY` (R94). -/
  | hostRingEntry (h : Nat) (ok : Bool) (sl : Nat)
  /-- `HOST_RING_POST` (R98). -/
  | hostRingPost (h : Nat)
  /-- `BUNDLE_ISSUE` (R122). -/
  | bundleIssue (c : Nat) (k : Nat) (frozen : Nat) (ups : List (Nat × List Nat))
  /-- `WRITE_BUFFER_ACK` (R143). -/
  | writeBufferAck (c : Nat) (k : Nat) (ok : Bool)
  /-- `PM_MISS_FILL` (R113). -/
  | pmMissFill (c : Nat) (k : Nat) (ok : Bool)
  /-- `CANCEL_ACCEPT` (R137). -/
  | cancelAccept (c : Nat) (k : Nat)
  /-- `HALT_ACCEPT` (R137). -/
  | haltAccept (c : Nat) (k : Nat)
  /-- `PM_INV_WRITE` (R116). -/
  | pmInvWrite (i : Init) (c : Nat) (v : Word)
  /-- `PM_INV_DONE` (R116). -/
  | pmInvDone (c : Nat)
  /-- `CORE_CLEAR_DONE` (R112). -/
  | coreClearDone (c : Nat) (k : Nat)
  /-- `COV` (R192). -/
  | cov (e : Nat)
  /-- `CHOL` (R194). -/
  | chol (e : Nat)
  /-- `TRSOLVE` (R192). -/
  | trsolve (e : Nat)
  /-- `MMSE` (R193). -/
  | mmse (e : Nat)
  /-- `APPLY` (R194). -/
  | apply (e : Nat)
  /-- `DECODE` (R200). -/
  | decode (e : Nat)
  /-- `ENCODE` (R206). -/
  | encode (e : Nat)
  /-- `UCI_DECODE` (R210). -/
  | uciDecode (e : Nat)
  /-- `RM_DECODE` (R210). -/
  | rmDecode (e : Nat)
  /-- `DCI_ENCODE` (R209). -/
  | dciEncode (e : Nat)
  /-- `PBCH_ENCODE` (R209). -/
  | pbchEncode (e : Nat)
  /-- `TURBO_DECODE` (R213). -/
  | turboDecode (e : Nat)
  /-- `TURBO_ENCODE` (R213). -/
  | turboEncode (e : Nat)
  /-- `TBCC_DECODE` (R213). -/
  | tbccDecode (e : Nat)
  /-- `FFT` (R216). -/
  | fft (e : Nat)
  /-- `IFFT` (R216). -/
  | ifft (e : Nat)
  /-- `DFT` (R216). -/
  | dft (e : Nat)
  /-- `IDFT` (R216). -/
  | idft (e : Nat)
  /-- `ENGINE_JOB_END` (R188). -/
  | engineJobEnd (e : Nat) (ok : Bool)
  /-- `ENGINE_STOP` (R189). -/
  | engineStop (e : Nat) (done : Nat)
  /-- `BURST` (R244). -/
  | burst (n : Nat) (ctx : Nat)
  /-- `BURST_START` (R245). -/
  | burstStart (n : Nat) (ctx : Nat)
  /-- `BURST_END` (R249). -/
  | burstEnd (n : Nat) (ctx : Nat)
  /-- `BLANK_RESUME` (R248). -/
  | blankResume (n : Nat) (ch : Nat)
  /-- `STREAM_GAP` (R223). -/
  | streamGap (n : Nat) (lost : Nat)
  /-- `PREAMBLE_DETECT` (R233). -/
  | preambleDetect (n : Nat) (ch : Nat) (profs : List Nat) (corrs : List Nat) (sigs : List (Nat × Int))
  /-- `CAPTURE_DECISION` (R236). -/
  | captureDecision (n : Nat) (ch : Nat) (errs : List Int) (bits : List Bool)
  /-- `SYNC_TIMEOUT` (R234). -/
  | syncTimeout (n : Nat) (ch : Nat)
  /-- `SFD_FOUND` (R234). -/
  | sfdFound (n : Nat) (ch : Nat) (word : Nat) (bits : List Bool) (time : Nat)
  /-- `NCO_TRACK_UPDATE` (R238). -/
  | ncoTrackUpdate (n : Nat) (ch : Nat) (errs : List Int)
  /-- `PACKET_END` (R234). -/
  | packetEnd (n : Nat) (ch : Nat) (errs : List Int) (bits : List Bool)
  /-- `NFE_REPORT_WRITE` (R241). -/
  | nfeReportWrite (n : Nat)
  /-- `DCT_GO` (R258). -/
  | dctGo (ch : Nat) (v : Word)
  /-- `DCT_ABORT` (R284). -/
  | dctAbort (ch : Nat) (v : Word)
  /-- `LINEAR` (R264). -/
  | linear (p : Part)
  /-- `TWO_D` (R264). -/
  | twoD (p : Part)
  /-- `GATHER` (R265). -/
  | gather (p : Part)
  /-- `SCATTER` (R265). -/
  | scatter (p : Part)
  /-- `DCT_DESCRIPTOR_COMMIT` (R273). -/
  | dctDescriptorCommit (ch : Nat) (ok : Bool)
  /-- `DCT_TRANSFER_ERROR` (R282). -/
  | dctTransferError (ch : Nat)
  /-- `WALKER_VISIT` (R300). -/
  | walkerVisit (k : Nat) (ups : List (Nat × List Nat))
  /-- `BANK_COPY_DONE` (R289). -/
  | bankCopyDone (bank : Nat)
  /-- `VALID_MAP_FILL` (R297). -/
  | validMapFill (region : Nat)
  /-- `MEM_VCLR_GO` (R298). -/
  | memVclrGo (i : Nat) (v : Word)
  /-- `DMC_INIT` (R314). -/
  | dmcInit (n : Nat) (v : Word) (stuck : Nat)
  /-- `DMC_INIT_TIMEOUT` (R314). -/
  | dmcInitTimeout (n : Nat) (step : Nat)
  /-- `DMC_ENABLE` (R308). -/
  | dmcEnable (n : Nat) (v : Word)
  /-- `DMC_SR_ENTER` (R315). -/
  | dmcSrEnter (n : Nat) (v : Word)
  /-- `DMC_SR_EXIT` (R315). -/
  | dmcSrExit (n : Nat) (v : Word)
  /-- `DRAM_REFRESH` (R311). -/
  | dramRefresh (n : Nat)
  /-- `DRAM_AGE_PROMOTE` (R309). -/
  | dramAgePromote (n : Nat) (c : Nat) (line : Nat)
  /-- `DRAM_ALERT` (R312). -/
  | dramAlert (n : Nat)
  /-- `DRAM_REPLAY` (R312). -/
  | dramReplay (n : Nat) (ok : Bool)
  /-- `RETRAIN_DUE` (R313). -/
  | retrainDue (n : Nat)
  /-- `RETRAIN_FORCED` (R313). -/
  | retrainForced (n : Nat) (temp : Bool)
  /-- `LANE_STAGE_READY` (R324). -/
  | laneStageReady (g : Nat) (l : Nat) (inv : Bool) (order : Nat)
  /-- `LANE_STAGE_TIMEOUT` (R324). -/
  | laneStageTimeout (g : Nat) (l : Nat)
  /-- `LANE_LOCK_LOSS` (R324). -/
  | laneLockLoss (g : Nat) (l : Nat) (lost : Nat)
  /-- `LANE_RESTART` (R361). -/
  | laneRestart (g : Nat) (l : Nat) (v : Word)
  /-- `LANE_TXSLEEP` (R330). -/
  | laneTxsleep (g : Nat) (l : Nat) (v : Word)
  /-- `LANE_RXSLEEP` (R330). -/
  | laneRxsleep (g : Nat) (l : Nat) (v : Word)
  /-- `RAW_SLIP` (R329). -/
  | rawSlip (g : Nat) (l : Nat) (v : Word)
  /-- `RAW_SLIP_DONE` (R329). -/
  | rawSlipDone (g : Nat) (l : Nat)
  /-- `RAW_UP` (R329). -/
  | rawUp (g : Nat) (l : Nat) (v : Word)
  /-- `RAW_DOWN` (R329). -/
  | rawDown (g : Nat) (l : Nat) (v : Word)
  /-- `EYE_MEASURE` (R334). -/
  | eyeMeasure (g : Nat) (l : Nat) (h : Nat) (vv : Nat)
  /-- `ETH_FRAME_RX` (R336). -/
  | ethFrameRx (p : Nat) (mac : Nat) (bytes : List Byte) (fcsOk : Bool) (time : Nat) (errs : Nat) (fc : Nat) (fu : Nat)
  /-- `ETH_FRAME_TX_STAMP` (R379). -/
  | ethFrameTxStamp (p : Nat) (mac : Nat) (tag : Nat) (time : Nat)
  /-- `UPLANE_MESSAGE` (R340). -/
  | uplaneMessage (p : Nat) (id : Nat) (sym : Nat) (secs : List (Nat × Nat × List Byte))
  /-- `RX_WINDOW_OPEN` (R340). -/
  | rxWindowOpen (c : Nat) (sym : Nat)
  /-- `RX_WINDOW_CLOSE` (R340). -/
  | rxWindowClose (c : Nat) (sym : Nat)
  /-- `FH_EGRESS_START` (R341). -/
  | fhEgressStart (c : Nat) (sym : Nat)
  /-- `TD_STREAM_MESSAGE` (R342). -/
  | tdStreamMessage (st : Nat) (seq : Nat) (bytes : List Byte)
  /-- `TD_STREAM_SEND` (R342). -/
  | tdStreamSend (st : Nat)
  /-- `TETHER_WRITE_FRAME` (R348). -/
  | tetherWriteFrame (t : Nat) (bytes : List Byte)
  /-- `TETHER_POST_FRAME` (R348). -/
  | tetherPostFrame (t : Nat) (bytes : List Byte)
  /-- `TETHER_LINK_BLOCK` (R349). -/
  | tetherLinkBlock (t : Nat) (bytes : List Byte)
  /-- `TETHER_MARKER` (R351). -/
  | tetherMarker (t : Nat) (lane : Nat) (phys : Nat) (width : Nat) (bipOk : Bool)
  /-- `TETHER_LINK_SEND` (R349). -/
  | tetherLinkSend (t : Nat)
  /-- `TETHER_MARKER_SEND` (R351). -/
  | tetherMarkerSend (t : Nat)
  /-- `TETHER_REQ_PI_WRITE` (R354). -/
  | tetherReqPiWrite (t : Nat) (v : Word)
  /-- `TETHER_ENTRY_COMPLETE` (R354). -/
  | tetherEntryComplete (t : Nat)
  /-- `SERVO_SAMPLE` (R369). -/
  | servoSample (i : Nat) (v : Word)
  /-- `SAMPLE_TIMEOUT` (R372). -/
  | sampleTimeout
  /-- `MRD_TIME_READ` (R365). -/
  | mrdTimeRead (i : Init)
  /-- `TS_IN_EDGE` (R373). -/
  | tsInEdge (n : Nat) (rising : Bool)
  /-- `CAP_POP` (R373). -/
  | capPop (n : Nat)
  /-- `TS_OUT_EDGE` (R375). -/
  | tsOutEdge (n : Nat)
  /-- `TIMING_FRAME` (R384). -/
  | timingFrame
  /-- `TIMELINE_ARM` (R383). -/
  | timelineArm (c : Nat) (v : Word)
  /-- `TIMELINE_DISARM` (R383). -/
  | timelineDisarm (c : Nat) (v : Word)
  /-- `SYMBOL` (R382). -/
  | symbol (c : Nat) (r : Nat) (k : Nat)
  /-- `SLOT` (R382). -/
  | slot (c : Nat) (r : Nat) (k : Nat)
  /-- `FRAME` (R382). -/
  | frame (c : Nat) (r : Nat) (k : Nat)
  /-- `GAP` (R382). -/
  | gap (c : Nat) (r : Nat) (k : Nat)
  /-- `TRELLIS_CONFIG_WRITE` (R407). -/
  | trellisConfigWrite (i : Init) (addr : Nat) (size : Nat) (v : Nat)
  /-- `TRUNK_CONTENTION` (R398). -/
  | trunkContention (row : Nat) (trunk : Nat)
  /-- `CONFIG_STORE_UE` (R413). -/
  | configStoreUe (region : Nat) (addr : Nat)
  /-- `EVENT_PORT_STROBE` (R402). -/
  | eventPortStrobe (e : Nat) (ready : Bool)
  /-- `MEM_PORT_REQUEST` (R403). -/
  | memPortRequest (d : Nat) (ready : Bool)
  /-- `MEM_PORT_RESPONSE` (R403). -/
  | memPortResponse (d : Nat)
  /-- `SUBMIT_PORT_STROBE` (R404). -/
  | submitPortStrobe
  /-- `STREAM_WORD_RX` (R401). -/
  | streamWordRx (sp : Nat) (w : BitVec 64)
  /-- `VIO_MISMATCH` (R525). -/
  | vioMismatch (v : Nat)
  /-- `HCTRL_MODE_WRITE` (R422). -/
  | hctrlModeWrite (i : Nat) (v : Word)
  /-- `SHIELD_READY` (R422). -/
  | shieldReady
  /-- `EFF_EVALUATE` (R423). -/
  | effEvaluate (busy : List Nat)
  /-- `TASK_MOVE` (R425). -/
  | taskMove (sl : Nat) (cluster : Nat)
  /-- `PRESTAGE_END` (R428). -/
  | prestageEnd (sl : Nat)
  /-- `SLACK_REPORT` (R430). -/
  | slackReport (slack : List Int)
  /-- `VOLTAGE_STEP` (R430). -/
  | voltageStep
  /-- `CHOLD_CLEAR` (R436). -/
  | choldClear (i : Nat) (c : Nat) (v : Word)
  /-- `RETIRE_WEAR` (R435). -/
  | retireWear (kind : Nat) (unit : Nat)
  /-- `DRAIN_TIMEOUT` (R436). -/
  | drainTimeout (kind : Nat) (unit : Nat)
  /-- `REMAP` (R436). -/
  | remap (kind : Nat) (unit : Nat) (spare : Nat)
  /-- `SCHED_STORE_UE` (R440). -/
  | schedStoreUe (sl : Nat) (row : Nat) (both : Bool)
  /-- `CLUSTER_SLEEP_ENTER` (R450). -/
  | clusterSleepEnter (c : Nat)
  /-- `CLUSTER_WAKE` (R450). -/
  | clusterWake (c : Nat)
  /-- `ENGINE_SLEEP_ENTER` (R451). -/
  | engineSleepEnter (e : Nat)
  /-- `ENGINE_WAKE` (R451). -/
  | engineWake (e : Nat)
  /-- `WAKE_N_ASSERT` (R457). -/
  | wakeNAssert
  /-- `WSENSE_TRIP` (R457). -/
  | wsenseTrip (code : Nat)
  /-- `WAKE_TIMER` (R458). -/
  | wakeTimer
  /-- `WAKE_STAGE_READY` (R460). -/
  | wakeStageReady (us : Nat)
  /-- `WAKE_STAGE_TIMEOUT` (R460). -/
  | wakeStageTimeout (detail : Nat)
  /-- `REGULATOR_RETRY` (R460). -/
  | regulatorRetry
  /-- `POWER_GOOD_FALL` (R463). -/
  | powerGoodFall (n : Nat)
  /-- `PWR_RST_COLD` (R465). -/
  | pwrRstCold (i : Nat)
  /-- `PWR_RST_WARM` (R466). -/
  | pwrRstWarm (i : Nat)
  /-- `PWR_RST_CLUSTER` (R467). -/
  | pwrRstCluster (i : Nat) (c : Nat)
  /-- `PWR_RST_CORE` (R467). -/
  | pwrRstCore (i : Nat) (c : Nat) (k : Nat)
  /-- `PWR_RST_ENGINE` (R467). -/
  | pwrRstEngine (i : Nat) (e : Nat)
  /-- `VDD_CORE_UNDERVOLT` (R525). -/
  | vddCoreUndervolt
  /-- `TEMP_SAMPLE` (R532). -/
  | tempSample (temps : List Int)
  /-- `OVERTEMP_RESET` (R532). -/
  | overtempReset
  /-- `AVS_NO_ACK` (R524). -/
  | avsNoAck (second : Bool)
  /-- `SB_VIN_RISE` (R470). -/
  | sbVinRise (mv : Nat)
  /-- `SB_VIN_FALL` (R470). -/
  | sbVinFall (mv : Nat)
  /-- `SB_VIN_LOW` (R484). -/
  | sbVinLow (mv : Nat)
  /-- `STRAP_SAMPLE` (R475). -/
  | strapSample (a : Nat)
  /-- `KEEPALIVE_SEND` (R473). -/
  | keepaliveSend
  /-- `KEEPALIVE_LOSS` (R473). -/
  | keepaliveLoss
  /-- `NW_WATCHDOG_EXPIRE` (R474). -/
  | nwWatchdogExpire
  /-- `SMB_BLOCK_WRITE` (R476). -/
  | smbBlockWrite (p : Nat) (bytes : List Byte) (pec : Byte)
  /-- `SMB_BLOCK_READ` (R476). -/
  | smbBlockRead (p : Nat)
  /-- `SMB_TIMEOUT` (R475). -/
  | smbTimeout (p : Nat)
  /-- `SMB_ALERT_RESPONSE` (R486). -/
  | smbAlertResponse (p : Nat)
  /-- `UART_FRAME` (R477). -/
  | uartFrame (bytes : List Byte)
  /-- `NW_STATUS` (R479). -/
  | nwStatus
  /-- `NW_POWER_ON` (R480). -/
  | nwPowerOn
  /-- `NW_POWER_OFF` (R481). -/
  | nwPowerOff
  /-- `NW_POWER_OFF_FORCED` (R481). -/
  | nwPowerOffForced
  /-- `NW_POWER_OFF_NOW` (R480). -/
  | nwPowerOffNow
  /-- `NW_POWER_DEEP` (R480). -/
  | nwPowerDeep
  /-- `NW_POWER_COLD` (R480). -/
  | nwPowerCold
  /-- `NW_POWER_WARM` (R480). -/
  | nwPowerWarm
  /-- `NW_POWER_CLEAR_FAULT` (R480). -/
  | nwPowerClearFault
  /-- `OFF_GRACE_EXPIRE` (R481). -/
  | offGraceExpire
  /-- `NWB_OFF_ACK` (R481). -/
  | nwbOffAck (i : Nat) (v : Word)
  /-- `NW_WAKECFG_READ` (R482). -/
  | nwWakecfgRead
  /-- `NW_WAKECFG_WRITE` (R482). -/
  | nwWakecfgWrite
  /-- `NW_SENSOR` (R483). -/
  | nwSensor (vals : List Nat)
  /-- `NW_EVENT_READ` (R484). -/
  | nwEventRead
  /-- `NW_EVENT_REMOVE` (R484). -/
  | nwEventRemove
  /-- `EJECT_ASSERT` (R487). -/
  | ejectAssert
  /-- `EJECT_RELEASE` (R487). -/
  | ejectRelease
  /-- `VAUX_P_ARRIVE` (R488). -/
  | vauxPArrive
  /-- `VAUX_P_LOSS` (R488). -/
  | vauxPLoss (pgFirst : Bool)
  /-- `NWB_TXGO` (R491). -/
  | nwbTxgo (i : Nat) (v : Word)
  /-- `NWB_RX_MESSAGE` (R491). -/
  | nwbRxMessage (bytes : List Byte)
  /-- `NWB_RXLEN_READ` (R491). -/
  | nwbRxlenRead (i : Init)
  /-- `NWB_ALIVE` (R491). -/
  | nwbAlive (i : Nat) (v : Word)
  /-- `SPI_CMD_GO` (R508). -/
  | spiCmdGo (i : Nat) (v : Word)
  /-- `SPI_DONE` (R508). -/
  | spiDone (data : List Byte)
  /-- `CENSUS_TICK` (R510). -/
  | censusTick
  /-- `CEN_MANUAL_TICK` (R510). -/
  | cenManualTick (i : Nat)
  /-- `CENSUS_RECORD_WRITE` (R518). -/
  | censusRecordWrite (ok : Bool)
  /-- `PCIE_LINK_UP` (R277). -/
  | pcieLinkUp
  /-- `LOAD_DATA_RETURN` (R126). -/
  | loadDataReturn (c : Nat) (k : Nat) (ups : List (Nat × List Nat))
  /-- `HALT_RESUME` (R137). -/
  | haltResume (c : Nat) (k : Nat)
  /-- `FABRIC_CLOCK_EDGE` (R393). -/
  | fabricClockEdge (pins : Nat)
  /-- `STREAM_WORD_TX` (R401). -/
  | streamWordTx (sp : Nat)
  /-- `TRL_REL_GO` (R418). -/
  | trlRelGo (i : Nat) (v : Word)
  /-- `XTAL32_START` (R470). -/
  | xtal32Start
  /-- `ENTRY_RAILS_DOWN` (R454). -/
  | entryRailsDown
  /-- `REFCLK_A_LOSS` (R14). -/
  | refclkALoss
  /-- `VRET_LOW` (R460). -/
  | vretLow (mv : Nat)
  deriving DecidableEq, Repr

end Sys2Proof
end

