-- ==== Sys2Proof/Decode.lean ====
section
/-! DEFINITION. The command that a word spells. The command table gives no row any bits: the device takes its commands as accesses, frames
and events, not as encoded words. -/

namespace Sys2Proof

/-- The command that a word of the table's bits spells: none, for no row has bits. -/
def decodeTableWord (_nbits _w : Nat) : Option Instr := none

end Sys2Proof
end

