-- ==== Sys2Proof/Machine/Bits.lean ====
section
/-! DEFINITION. Bit fields, sign extension, byte order and the sparse maps in one canonical form that State uses. -/

namespace Sys2Proof.Machine

/-- Bits [hi:lo] of a number. -/
def fld (v hi lo : Nat) : Nat := (v >>> lo) % 2 ^ (hi + 1 - lo)

/-- Bit n of a number, as a Bool. -/
def tb (v n : Nat) : Bool := v.testBit n

/-- A number with its bits [hi:lo] replaced by the low bits of `x`. -/
def setFld (v hi lo x : Nat) : Nat :=
  v % 2 ^ lo + (x % 2 ^ (hi + 1 - lo)) <<< lo + ((v >>> (hi + 1)) <<< (hi + 1))

/-- The signed value of the low `w` bits. -/
def sx (w v : Nat) : Int :=
  let u := v % 2 ^ w
  if u < 2 ^ (w - 1) then (u : Int) else (u : Int) - (2 ^ w : Nat)

/-- The low `w` bits of an integer, as a natural number. -/
def wrap (w : Nat) (x : Int) : Nat := (x % ((2 ^ w : Nat) : Int)).toNat

/-- A flag as a number. -/
def bn (b : Bool) : Nat := if b then 1 else 0

/-- `n` little-endian bytes of a number. -/
def leBytes : Nat → Nat → List Byte
  | 0, _ => []
  | n + 1, v => BitVec.ofNat 8 v :: leBytes n (v / 256)

/-- The number that little-endian bytes spell. -/
def ofLe : List Byte → Nat
  | [] => 0
  | b :: bs => b.toNat + 256 * ofLe bs

/-- Bytes `off` to `off + n - 1` of a byte list as a little-endian number; absent bytes count as zero. -/
def leAt (bs : List Byte) (off n : Nat) : Nat := ofLe ((bs.drop off).take n)

/-- A byte list written with `new` from byte `off` on; a gap is filled with zeros. -/
def patch (bs : List Byte) (off : Nat) (new : List Byte) : List Byte :=
  bs.take off ++ List.replicate (off - bs.length) 0 ++ new ++ bs.drop (off + new.length)

/-! ### Sparse maps: keys strictly rising, no entry equal to what an unlisted key holds -/

/-- What key `k` holds: its entry, or the default of an unlisted key. -/
def mget {α : Type} (d : Nat → α) : List (Nat × α) → Nat → α
  | [], k => d k
  | (j, v) :: m, k => if j = k then v else if k < j then d k else mget d m k

/-- The map without key `k`. -/
def mdel {α : Type} : List (Nat × α) → Nat → List (Nat × α)
  | [], _ => []
  | (j, v) :: m, k => if j = k then m else if k < j then (j, v) :: m else (j, v) :: mdel m k

/-- The map with `v` at key `k`, whatever the default. -/
def mins {α : Type} : List (Nat × α) → Nat → α → List (Nat × α)
  | [], k, v => [(k, v)]
  | (j, w) :: m, k, v =>
    if j = k then (k, v) :: m else if k < j then (k, v) :: (j, w) :: m else (j, w) :: mins m k v

/-- A write: writing what an unlisted key holds removes the entry, so that equal maps are equal lists. -/
def mput {α : Type} [DecidableEq α] (d : Nat → α) (m : List (Nat × α)) (k : Nat) (v : α) : List (Nat × α) :=
  if v = d k then mdel m k else mins m k v

/-- The keys rise strictly and every key is at least `lo`. -/
def msorted {α : Type} (lo : Nat) : List (Nat × α) → Bool
  | [] => true
  | (j, _) :: m => decide (lo ≤ j) && msorted (j + 1) m

/-- The canonical form of a sparse map. -/
def mwf {α : Type} [DecidableEq α] (d : Nat → α) (m : List (Nat × α)) : Bool :=
  msorted 0 m && m.all fun e => decide (e.2 ≠ d e.1)

/-- An update of one key by a function. -/
def mmod {α : Type} [DecidableEq α] (d : Nat → α) (m : List (Nat × α)) (k : Nat) (f : α → α) : List (Nat × α) :=
  mput d m k (f (mget d m k))

/-- The entries whose key does not satisfy `p`: those keys return to the default. -/
def mdrop {α : Type} (p : Nat → Bool) (m : List (Nat × α)) : List (Nat × α) :=
  m.filter fun e => !p e.1

/-! ### Ordered sets of numbers -/

/-- A set of numbers in rising order, with `k` in it. -/
def sins : List Nat → Nat → List Nat
  | [], k => [k]
  | j :: m, k => if j = k then j :: m else if k < j then k :: j :: m else j :: sins m k

/-- A set of numbers without `k`. -/
def sdel (m : List Nat) (k : Nat) : List Nat := m.filter (· ≠ k)

/-- `a` rounded up to a multiple of `n`. -/
def alignUp (a n : Nat) : Nat := (a + n - 1) / n * n

/-- The `i`-th element, or a default. -/
def nth {α : Type} (d : α) (l : List α) (i : Nat) : α := l.getD i d

/-- The list with element `i` replaced. -/
def setNth {α : Type} (l : List α) (i : Nat) (v : α) : List α := l.set i v

/-- The index of the first element that satisfies `p`. -/
def firstIdx {α : Type} (p : α → Bool) (l : List α) : Option Nat := l.findIdx? p

/-- A number held at a ceiling. -/
def satAdd (ceil a b : Nat) : Nat := min ceil (a + b)

/-- The bits of a square root, the highest first: `r` so far. -/
def isqrtBits : Nat → Nat → Nat → Nat
  | 0, _, r => r
  | b + 1, n, r => if (r + 2 ^ b) * (r + 2 ^ b) ≤ n then isqrtBits b n (r + 2 ^ b) else isqrtBits b n r

/-- ⌊√n⌋. -/
def isqrt (n : Nat) : Nat := isqrtBits (Nat.log2 n / 2 + 1) n 0

end Sys2Proof.Machine
end

