-- ==== Sys2Proof/Machine/Crypto.lean ====
section
/-! DEFINITION. The checks that images and links rest on: SHA-384 (FIPS 180-4), ECDSA over P-384 (FIPS 186-5), CRC-32
(IEEE 802.3) and the CRC-8 of the SMBus PEC. PRESUMED: the specification names these standards, it does not restate them. -/

namespace Sys2Proof.Machine

/-! ### SHA-384 -/

/-- The round constants. -/
def shaK1 : List Nat := [
  0x428A2F98D728AE22, 0x7137449123EF65CD, 0xB5C0FBCFEC4D3B2F, 0xE9B5DBA58189DBBC,
  0x3956C25BF348B538, 0x59F111F1B605D019, 0x923F82A4AF194F9B, 0xAB1C5ED5DA6D8118,
  0xD807AA98A3030242, 0x12835B0145706FBE, 0x243185BE4EE4B28C, 0x550C7DC3D5FFB4E2,
  0x72BE5D74F27B896F, 0x80DEB1FE3B1696B1, 0x9BDC06A725C71235, 0xC19BF174CF692694,
  0xE49B69C19EF14AD2, 0xEFBE4786384F25E3, 0x0FC19DC68B8CD5B5, 0x240CA1CC77AC9C65]

/-- The round constants, continued. -/
def shaK2 : List Nat := [
  0x2DE92C6F592B0275, 0x4A7484AA6EA6E483, 0x5CB0A9DCBD41FBD4, 0x76F988DA831153B5,
  0x983E5152EE66DFAB, 0xA831C66D2DB43210, 0xB00327C898FB213F, 0xBF597FC7BEEF0EE4,
  0xC6E00BF33DA88FC2, 0xD5A79147930AA725, 0x06CA6351E003826F, 0x142929670A0E6E70,
  0x27B70A8546D22FFC, 0x2E1B21385C26C926, 0x4D2C6DFC5AC42AED, 0x53380D139D95B3DF,
  0x650A73548BAF63DE, 0x766A0ABB3C77B2A8, 0x81C2C92E47EDAEE6, 0x92722C851482353B]

/-- The round constants, continued. -/
def shaK3 : List Nat := [
  0xA2BFE8A14CF10364, 0xA81A664BBC423001, 0xC24B8B70D0F89791, 0xC76C51A30654BE30,
  0xD192E819D6EF5218, 0xD69906245565A910, 0xF40E35855771202A, 0x106AA07032BBD1B8,
  0x19A4C116B8D2D0C8, 0x1E376C085141AB53, 0x2748774CDF8EEB99, 0x34B0BCB5E19B48A8,
  0x391C0CB3C5C95A63, 0x4ED8AA4AE3418ACB, 0x5B9CCA4F7763E373, 0x682E6FF3D6B2B8A3,
  0x748F82EE5DEFB2FC, 0x78A5636F43172F60, 0x84C87814A1F0AB72, 0x8CC702081A6439EC]

/-- The round constants, continued. -/
def shaK4 : List Nat := [
  0x90BEFFFA23631E28, 0xA4506CEBDE82BDE9, 0xBEF9A3F7B2C67915, 0xC67178F2E372532B,
  0xCA273ECEEA26619C, 0xD186B8C721C0C207, 0xEADA7DD6CDE0EB1E, 0xF57D4F7FEE6ED178,
  0x06F067AA72176FBA, 0x0A637DC5A2C898A6, 0x113F9804BEF90DAE, 0x1B710B35131C471B,
  0x28DB77F523047D84, 0x32CAAB7B40C72493, 0x3C9EBE0A15C9BEBC, 0x431D67C49C100D4C,
  0x4CC5D4BECB3E42B6, 0x597F299CFC657E2A, 0x5FCB6FAB3AD6FAEC, 0x6C44198C4A475817]

/-- The eight chaining words. -/
structure Sha where
  a : Nat
  b : Nat
  c : Nat
  d : Nat
  e : Nat
  f : Nat
  g : Nat
  h : Nat
  deriving DecidableEq, Repr

/-- The initial value of SHA-384. -/
def shaInit : Sha :=
  ⟨0xCBBB9D5DC1059ED8, 0x629A292A367CD507, 0x9159015A3070DD17, 0x152FECD8F70E5939,
   0x67332667FFC00B31, 0x8EB44A8768581511, 0xDB0C2E0D64F98FA7, 0x47B5481DBEFA4FA4⟩

/-- A 64-bit rotation to the right. -/
def rotr64 (n x : Nat) : Nat := (x >>> n) ||| (x <<< (64 - n) % 2 ^ 64)

/-- One round. -/
def shaRound (s : Sha) (k w : Nat) : Sha :=
  let s1 := rotr64 14 s.e ^^^ rotr64 18 s.e ^^^ rotr64 41 s.e
  let ch := (s.e &&& s.f) ^^^ ((2 ^ 64 - 1 - s.e) &&& s.g)
  let t1 := s.h + s1 + ch + k + w
  let s0 := rotr64 28 s.a ^^^ rotr64 34 s.a ^^^ rotr64 39 s.a
  let mj := (s.a &&& s.b) ^^^ (s.a &&& s.c) ^^^ (s.b &&& s.c)
  ⟨(t1 + s0 + mj) % 2 ^ 64, s.a, s.b, s.c, (s.d + t1) % 2 ^ 64, s.e, s.f, s.g⟩

/-- The rounds over the constants left, with the schedule's last 16 words, oldest first. -/
def shaRounds : List Nat → Nat → Nat → Nat → Nat → Nat → Nat → Nat → Nat → Nat → Nat → Nat → Nat → Nat → Nat → Nat → Nat → Sha → Sha
  | [], _, _, _, _, _, _, _, _, _, _, _, _, _, _, _, _, s => s
  | k :: ks, w0, w1, w2, w3, w4, w5, w6, w7, w8, w9, w10, w11, w12, w13, w14, w15, s =>
    let s0 := rotr64 1 w1 ^^^ rotr64 8 w1 ^^^ (w1 >>> 7)
    let s1 := rotr64 19 w14 ^^^ rotr64 61 w14 ^^^ (w14 >>> 6)
    shaRounds ks w1 w2 w3 w4 w5 w6 w7 w8 w9 w10 w11 w12 w13 w14 w15 ((w0 + s0 + w9 + s1) % 2 ^ 64) (shaRound s k w0)

/-- The number that big-endian bytes spell. -/
def ofBe (bs : List Byte) : Nat := bs.foldl (fun v b => v * 256 + b.toNat) 0

/-- `n` big-endian bytes of a number. -/
def beBytes (n v : Nat) : List Byte := (leBytes n v).reverse

/-- A message as big-endian words of 64 bits. -/
def beWords : List Byte → List Nat
  | a :: b :: c :: d :: e :: f :: g :: h :: bs => ofBe [a, b, c, d, e, f, g, h] :: beWords bs
  | _ => []

/-- The blocks of a padded message, 16 words each. -/
def shaBlocks : Sha → List Nat → Sha
  | s, w0 :: w1 :: w2 :: w3 :: w4 :: w5 :: w6 :: w7 :: w8 :: w9 :: w10 :: w11 :: w12 :: w13 :: w14 :: w15 :: ws =>
    let t := shaRounds (shaK1 ++ shaK2 ++ shaK3 ++ shaK4) w0 w1 w2 w3 w4 w5 w6 w7 w8 w9 w10 w11 w12 w13 w14 w15 s
    let add := fun x y => (x + y) % 2 ^ 64
    shaBlocks ⟨add s.a t.a, add s.b t.b, add s.c t.c, add s.d t.d, add s.e t.e, add s.f t.f, add s.g t.g, add s.h t.h⟩ ws
  | s, _ => s

/-- SHA-384: 48 bytes. -/
def sha384 (bs : List Byte) : List Byte :=
  let pad := (128 - (bs.length + 17) % 128) % 128
  let s := shaBlocks shaInit (beWords (bs ++ [0x80] ++ List.replicate pad 0 ++ beBytes 16 (bs.length * 8)))
  beBytes 8 s.a ++ beBytes 8 s.b ++ beBytes 8 s.c ++ beBytes 8 s.d ++ beBytes 8 s.e ++ beBytes 8 s.f

/-! ### ECDSA over P-384 -/

/-- The field's prime. -/
def p384 : Nat := 2 ^ 384 - 2 ^ 128 - 2 ^ 96 + 2 ^ 32 - 1

/-- The order of the base point. -/
def n384 : Nat :=
  0xFFFFFFFFFFFFFFFFFFFFFFFFFFFFFFFFFFFFFFFFFFFFFFFFC7634D81F4372DDF581A0DB248B0A77AECEC196ACCC52973

/-- The curve's constant b. -/
def b384 : Nat :=
  0xB3312FA7E23EE7E4988E056BE3F82D19181D9C6EFE8141120314088F5013875AC656398D8A2ED19D2A85C8EDD3EC2AEF

/-- The base point. -/
def g384 : Nat × Nat :=
  (0xAA87CA22BE8B05378EB1C71EF320AD746E1D3B628BA79B9859F741E082542A385502F25DBF55296C3A545E3872760AB7,
   0x3617DE4A96262C6F5D9E98BF9292DC29F8F41DBD289A147CE9DA3113B5F0B8C00A60B1CE1D7E819D7A431D7C90EA0E5F)

/-- A point in Jacobian coordinates; Z = 0 is the point at infinity. -/
structure JPoint where
  x : Nat
  y : Nat
  z : Nat
  deriving DecidableEq, Repr

/-- Subtraction in the field. -/
def subP (a b : Nat) : Nat := (a + p384 - b % p384) % p384

/-- A point doubled. -/
def jDouble (q : JPoint) : JPoint :=
  let delta := q.z * q.z % p384
  let gamma := q.y * q.y % p384
  let beta := q.x * gamma % p384
  let alpha := 3 * (subP q.x delta) * (q.x + delta) % p384
  let x := subP (alpha * alpha) (8 * beta)
  ⟨x, subP (alpha * subP (4 * beta) x) (8 * gamma * gamma), 2 * q.y * q.z % p384⟩

/-- The sum of two points. -/
def jAdd (q r : JPoint) : JPoint :=
  if q.z = 0 then r
  else if r.z = 0 then q
  else
    let z1 := q.z * q.z % p384
    let z2 := r.z * r.z % p384
    let u1 := q.x * z2 % p384
    let u2 := r.x * z1 % p384
    let s1 := q.y * z2 % p384 * r.z % p384
    let s2 := r.y * z1 % p384 * q.z % p384
    if u1 = u2 then (if s1 = s2 then jDouble q else ⟨1, 1, 0⟩)
    else
      let h := subP u2 u1
      let w := subP s2 s1
      let hh := h * h % p384
      let hhh := h * hh % p384
      let v := u1 * hh % p384
      let x := subP (w * w) (hhh + 2 * v)
      ⟨x, subP (w * subP v x) (s1 * hhh), q.z * r.z % p384 * h % p384⟩

/-- u·G + v·Q over the bits from `n` down. -/
def jMul2 (u v : Nat) (g q gq : JPoint) : Nat → JPoint → JPoint
  | 0, acc => acc
  | n + 1, acc =>
    let d := jDouble acc
    jMul2 u v g q gq n
      (match tb u n, tb v n with
        | true, true => jAdd d gq
        | true, false => jAdd d g
        | false, true => jAdd d q
        | false, false => d)

/-- A power in a modulus. -/
def powMod (m b e : Nat) : Nat → Nat → Nat
  | 0, acc => acc
  | n + 1, acc => powMod m b e n (if tb e n then acc * acc % m * b % m else acc * acc % m)

/-- The signature (r, s) of a SHA-384 digest verifies under a public key: x, then y, each 48 bytes big-endian. -/
def ecdsaOk (pub sig digest : List Byte) : Bool :=
  let qx := ofBe (pub.take 48)
  let qy := ofBe ((pub.drop 48).take 48)
  let r := ofBe (sig.take 48)
  let s := ofBe ((sig.drop 48).take 48)
  if ¬(0 < r ∧ r < n384 ∧ 0 < s ∧ s < n384 ∧ qx < p384 ∧ qy < p384) then false
  else if qy * qy % p384 ≠ (qx * qx % p384 * qx + (p384 - 3) * qx + b384) % p384 then false
  else
    let w := powMod n384 s (n384 - 2) 384 1
    let g : JPoint := ⟨g384.1, g384.2, 1⟩
    let q : JPoint := ⟨qx, qy, 1⟩
    let t := jMul2 (ofBe digest * w % n384) (r * w % n384) g q (jAdd g q) 384 ⟨1, 1, 0⟩
    let zz := t.z * t.z % p384
    decide (t.z ≠ 0) && (decide (r * zz % p384 = t.x) || (decide (r + n384 < p384) && decide ((r + n384) * zz % p384 = t.x)))

/-! ### Cyclic redundancy checks -/

/-- One byte of a reflected CRC. -/
def crcByteR (poly : Nat) : Nat → Nat → Nat
  | 0, c => c
  | n + 1, c => crcByteR poly n (if tb c 0 then (c >>> 1) ^^^ poly else c >>> 1)

/-- CRC-32 of IEEE 802.3. -/
def crc32 (bs : List Byte) : Nat :=
  bs.foldl (fun c b => crcByteR 0xEDB88320 8 (c ^^^ b.toNat)) 0xFFFFFFFF ^^^ 0xFFFFFFFF

/-- Bits of a CRC taken most significant first. -/
def crcBits (w poly : Nat) : List Bool → Nat → Nat
  | [], c => c
  | b :: bs, c => crcBits w poly bs (if tb c (w - 1) != b then (c * 2 % 2 ^ w) ^^^ poly else c * 2 % 2 ^ w)

/-- The bits of bytes, most significant first. -/
def bitsMsb (bs : List Byte) : List Bool := bs.flatMap fun b => (List.range 8).map fun i => tb b.toNat (7 - i)

/-- The CRC-8 of the SMBus PEC: x^8 + x^2 + x + 1, from zero. -/
def crc8 (bs : List Byte) : Nat := crcBits 8 0x07 (bitsMsb bs) 0

end Sys2Proof.Machine
end

