-- ==== Sys2Proof/Config.lean ====
section
/-! DEFINITION. What an implementation fixes and what the specification leaves open: constants without a body, so that
no proof can see their value. Each is named in the assumption log. -/

namespace Sys2Proof.Config

/-- The values that nothing in the specification fixes, by the number of values taken so far (log entry 1). -/
opaque freeValue : Nat → Nat

/-- The unspecified value of a register at a task start (R83): by the task's own seed, the register file and the number. -/
opaque unspecReg : Nat → Nat → Nat → Nat

/-- `SYS.ID.GRADE`, fused (R2). -/
opaque grade : Bool

/-- `SEC.UID`, fused (R507). -/
opaque uid : BitVec 64

/-- NV of ∞ × 0 + NaN in a fused multiply-add: IEEE 754-2019 7.2 leaves it to the implementation. -/
opaque fmaInfZeroNaN : Bool

/-- The FRCP estimate of a word, by the format's fraction bits: free within the bound of R173. -/
opaque frcpEstimate : Nat → Nat → Nat

/-- The FRSQ estimate of a word, by the format's fraction bits: free within the bound of R173. -/
opaque frsqEstimate : Nat → Nat → Nat

/-- The constant latency of the resume frame of R385, in 2^-32 ns. -/
opaque resumeLatency : Nat

/-- The fused minimum voltage in mV of a cluster at a frequency in MHz (R430). -/
opaque fusedVmin : Nat → Nat → Nat

/-- The headroom in mV that the core regulator needs above the highest cluster target (R15). -/
opaque vddHeadroom : Nat

/-- Where the firmware lands a stream's symbol in cellar memory (R340, R360): by stream and symbol. -/
opaque landAddr : Nat → Nat → BitVec 26

/-- The arrival event that the firmware sets for a carrier (R340): group and flag, by carrier and symbol. -/
opaque arrivalEvent : Nat → Nat → BitVec 14 × BitVec 5

/-- Where the firmware has a stream's symbol for egress in cellar memory (R341, R360): by stream and symbol. -/
opaque egressAddr : Nat → Nat → BitVec 26

/-- What a signal of the fabric carries where the specification gives no value: an illegal operation, a closed loop, two drivers of
one trunk; by the number of the cell or trunk. -/
opaque fabricOpen : Nat → BitVec 16

/-- The SHA-384 hash of the Servoha key, fused (R496). -/
opaque servohaHash : List Byte

/-- A result word of a channel engine that the specification does not give: a coefficient table of a standard that it only names, a sum
whose order of rounding it leaves open, a decoder's decision. By TYPE × 256 + OP, descriptor, input bytes and place in the result. -/
opaque engineNum : Nat → List Byte → List Byte → Nat → Nat

/-- The payload bytes that the firmware's blend store holds beside one blend of the largest size that R494 allows (R64). DEDUCED: a blend of
any allowed size fits an empty store (log entry 41). -/
opaque blendStore : Nat

/-- Where the endpoint's power management, MSI-X and PCI Express capabilities stand in configuration space (R25). -/
opaque pmCap : Nat
opaque msixCap : Nat
opaque pcieCap : Nat

/-- A dword of configuration space that the specification gives no value. -/
opaque cfgWord : Nat → BitVec 32

/-- What the blends of a carrier program into its timeline (R58), which no rule gives: by the CARRIER.CONFIG fields, the versions of the
uplink and the downlink blend and the place in the page. -/
opaque blendTimeline : List Byte → Nat → Nat → Nat → Nat

/-- The TX_ADVANCE of an outbound time-domain stream, in 2^-32 ns, which the firmware sets (R342, R360). -/
opaque tdAdvance : Nat → Nat

/-- The scrambler of a Tether lane when it starts to send (R346): by link and lane. -/
opaque scrambler : Nat → Nat → BitVec 58

/-- Tables 5.3.2-2 and 5.3.2-3 of TS 38.212, which R197 names and does not restate: by base graph, set index, row and column, the shift of the
entry, where there is one. -/
opaque ldpcShift : Nat → Nat → Nat → Nat → Option (BitVec 9)

/-- A magnitude times 0.75, where R197 and R213 do not say how it is rounded. -/
opaque threeQuarters : Nat → Nat

/-- The two coefficients of the internal interleaver of TS 36.212 Table 5.1.3-3, by block size (R213). -/
opaque qpp : Nat → Nat × Nat

/-- The polar reliability sequence of TS 38.212 Table 5.3.1.2-1, from the least reliable on (R209). -/
opaque polarOrder : Nat → BitVec 10

/-- The interleaving pattern of TS 38.212 Table 5.3.1.1-1 (R209). -/
opaque polarPattern : Nat → BitVec 8

/-- The basis sequences of TS 38.212 Table 5.3.3.3-1: by position and message bit (R209). -/
opaque rmBasis : Nat → Nat → Bool

/-- The order in which an Array engine adds up a sum, which products it fuses and which quotients it takes over a reciprocal: by operation, the
descriptor's fields, and place (R194). -/
opaque sumOrder : Nat → List Byte → Nat → Nat → Nat → Nat

/-- The code bit, stream × K + index, that an input LLR of TBCC_DECODE belongs to, by K and its place: R213 names no order of the input. -/
opaque tbccPlace : Nat → Nat → Nat

/-- A step of the encoders of IEEE 802.15.4-2020 (R231), RSC or NRNSC: from the state and a bit, the two code bits and the next state. -/
opaque sunCode : Bool → BitVec 3 → Bool → Bool × Bool × BitVec 3

/-- The three tail bits of an encoder in a state, the first lowest. -/
opaque sunTail : Bool → BitVec 3 → BitVec 3

/-- The pad bits behind the tail. -/
opaque sunPad : Nat → Bool

/-- Where each of 16 pairs of code bits stands after interleaving. -/
opaque sunPlace : BitVec 4 → BitVec 4

/-- The bits decided from code bits that are no code word. -/
opaque fecGuess : List Bool → Nat → Bool

/-- The coder and the interleaving that a receiver takes a coded packet of a profile for (R231): RSC, interleaved. -/
opaque rxCoder : List Byte → Bool × Bool

/-- The second bit of a 4-FSK symbol whose packet has none for it (R230). -/
opaque padBit : Bool

end Sys2Proof.Config
end

