-- ==== Sys2Proof/Machine/Regs.lean ====
section
/-! DEFINITION. The register map: every CSR register of the specification with its offset, instances, fields, access types
and Reset values. A Reset value of 0 stands where the specification gives none (see the assumption log). -/

namespace Sys2Proof.Machine

/-- How a field is accessed (R4). -/
inductive Acc | rw | ro | w1c | w1s | wo | rc | rwl
  deriving DecidableEq, Repr

/-- A Reset value, which may depend on the instance indices. -/
inductive Rst
  | c (n : Nat)                      -- a constant
  | isZero (d : Nat)                 -- 1 where index d is 0
  | lin (a b : Nat)                  -- a + b × the first index
  | below (d lim a b : Nat)          -- a where index d is below lim, else b
  | equal (d x a b : Nat)            -- a where index d is x, else b
  | among (d : Nat) (l : List Nat)   -- chosen by index d
  deriving DecidableEq, Repr

/-- A field of a register. -/
structure RField where
  hi : Nat
  lo : Nat
  acc : Acc
  rst : Rst
  deriving DecidableEq, Repr

/-- A register: offset in CSR space, (count, stride) of each instance dimension, whether it is the LO (1) or HI (2)
register of a pair (R8), whether R29 lets the host write it, and its fields. -/
structure RegRow where
  base : Nat
  dims : List (Nat × Nat)
  pair : Nat
  host : Bool
  fields : List RField
  deriving DecidableEq, Repr

namespace Reg

/-- `SYS.ID` (R2). -/
abbrev sysId : Nat := 0x0

/-- `SYS.AERR_STAT` (R22). -/
abbrev sysAerrStat : Nat := 0x100

/-- `SYS.AERR_ADDR_LO` (R22). -/
abbrev sysAerrAddrLo : Nat := 0x104

/-- `SYS.AERR_ADDR_HI` (R22). -/
abbrev sysAerrAddrHi : Nat := 0x108

/-- `SYS.AERR_CNT` (R22). -/
abbrev sysAerrCnt : Nat := 0x10C

/-- `MBX.CTRL` (R32). -/
abbrev mbxCtrl (m : Nat) : Nat := 0x100000 + 0x1000 * m

/-- `MBX.STAT` (R32). -/
abbrev mbxStat (m : Nat) : Nat := 0x100004 + 0x1000 * m

/-- `MBX.REQ_BASE_LO` (R32). -/
abbrev mbxReqBaseLo (m : Nat) : Nat := 0x100008 + 0x1000 * m

/-- `MBX.REQ_BASE_HI` (R32). -/
abbrev mbxReqBaseHi (m : Nat) : Nat := 0x10000C + 0x1000 * m

/-- `MBX.RSP_BASE_LO` (R32). -/
abbrev mbxRspBaseLo (m : Nat) : Nat := 0x100010 + 0x1000 * m

/-- `MBX.RSP_BASE_HI` (R32). -/
abbrev mbxRspBaseHi (m : Nat) : Nat := 0x100014 + 0x1000 * m

/-- `MBX.SHADOW_LO` (R32). -/
abbrev mbxShadowLo (m : Nat) : Nat := 0x100018 + 0x1000 * m

/-- `MBX.SHADOW_HI` (R32). -/
abbrev mbxShadowHi (m : Nat) : Nat := 0x10001C + 0x1000 * m

/-- `MBX.SIZE` (R32). -/
abbrev mbxSize (m : Nat) : Nat := 0x100020 + 0x1000 * m

/-- `MBX.REQ_PI` (R32). -/
abbrev mbxReqPi (m : Nat) : Nat := 0x100024 + 0x1000 * m

/-- `MBX.REQ_CI` (R32). -/
abbrev mbxReqCi (m : Nat) : Nat := 0x100028 + 0x1000 * m

/-- `MBX.RSP_PI` (R32). -/
abbrev mbxRspPi (m : Nat) : Nat := 0x10002C + 0x1000 * m

/-- `MBX.RSP_CI` (R32). -/
abbrev mbxRspCi (m : Nat) : Nat := 0x100030 + 0x1000 * m

/-- `MBX.TMO` (R32). -/
abbrev mbxTmo (m : Nat) : Nat := 0x100034 + 0x1000 * m

/-- `MBX.NLOST` (R32). -/
abbrev mbxNlost (m : Nat) : Nat := 0x100038 + 0x1000 * m

/-- `MBX.NOTICE` (R32). -/
abbrev mbxNotice (m : Nat) : Nat := 0x10003C + 0x1000 * m

/-- `MBX.FWSTATE` (R48). -/
abbrev mbxFwstate : Nat := 0x140000

/-- `MBX.LOCK` (R32). -/
abbrev mbxLock : Nat := 0x140004

/-- `MBX.DEVERR` (R31). -/
abbrev mbxDeverr : Nat := 0x140008

/-- `MBX.FWCTRL` (R48). -/
abbrev mbxFwctrl : Nat := 0x14000C

/-- `PCIE.HWBASE_LO` (R28). -/
abbrev pcieHwbaseLo : Nat := 0x1600010

/-- `PCIE.HWBASE_HI` (R28). -/
abbrev pcieHwbaseHi : Nat := 0x1600014

/-- `CM.CTRL` (R106). -/
abbrev cmCtrl : Nat := 0x200000

/-- `CM.FREE` (R106). -/
abbrev cmFree : Nat := 0x200004

/-- `CM.NOW` (R106). -/
abbrev cmNow : Nat := 0x200008

/-- `CM.RES` (R106). -/
abbrev cmRes (p : Nat) : Nat := 0x200040 + 0x4 * p

/-- `CM.WM` (R106). -/
abbrev cmWm (p : Nat) : Nat := 0x200080 + 0x4 * p

/-- `CM.CNT` (R106). -/
abbrev cmCnt (n : Nat) : Nat := 0x200100 + 0x4 * n

/-- `CM.CP.SUB_D` (R106). -/
abbrev cmCpSubD (i w : Nat) : Nat := 0x201000 + 0x100 * i + 0x4 * w

/-- `CM.CP.HANDLE` (R106). -/
abbrev cmCpHandle (i : Nat) : Nat := 0x201020 + 0x100 * i

/-- `CM.CP.SUBSTAT` (R106). -/
abbrev cmCpSubstat (i : Nat) : Nat := 0x201024 + 0x100 * i

/-- `CM.CP.CANCEL` (R106). -/
abbrev cmCpCancel (i : Nat) : Nat := 0x201028 + 0x100 * i

/-- `CM.CP.CANCEL_FLOW` (R106). -/
abbrev cmCpCancelFlow (i : Nat) : Nat := 0x20102C + 0x100 * i

/-- `CM.CP.CANCEL_RES` (R106). -/
abbrev cmCpCancelRes (i : Nat) : Nat := 0x201030 + 0x100 * i

/-- `CM.CP.EV_GRP` (R106). -/
abbrev cmCpEvGrp (i : Nat) : Nat := 0x201034 + 0x100 * i

/-- `CM.CP.EV_POST` (R106). -/
abbrev cmCpEvPost (i : Nat) : Nat := 0x201038 + 0x100 * i

/-- `CM.CP.EV_CLR` (R106). -/
abbrev cmCpEvClr (i : Nat) : Nat := 0x20103C + 0x100 * i

/-- `CM.CP.EV_FLAGS` (R106). -/
abbrev cmCpEvFlags (i : Nat) : Nat := 0x201040 + 0x100 * i

/-- `CM.CP.FLOW_SEL` (R106). -/
abbrev cmCpFlowSel (i : Nat) : Nat := 0x201044 + 0x100 * i

/-- `CM.CP.FLOW_CFG` (R106). -/
abbrev cmCpFlowCfg (i : Nat) : Nat := 0x201048 + 0x100 * i

/-- `CM.CP.FLOW_STAT` (R106). -/
abbrev cmCpFlowStat (i : Nat) : Nat := 0x20104C + 0x100 * i

/-- `CM.HRING.CFG` (R106). -/
abbrev cmHringCfg (h : Nat) : Nat := 0x202000 + 0x40 * h

/-- `CM.HRING.SQBASE` (R106). -/
abbrev cmHringSqbase (h : Nat) : Nat := 0x202004 + 0x40 * h

/-- `CM.HRING.CQBASE_LO` (R106). -/
abbrev cmHringCqbaseLo (h : Nat) : Nat := 0x202008 + 0x40 * h

/-- `CM.HRING.CQBASE_HI` (R106). -/
abbrev cmHringCqbaseHi (h : Nat) : Nat := 0x20200C + 0x40 * h

/-- `CM.HRING.SHADOW_LO` (R106). -/
abbrev cmHringShadowLo (h : Nat) : Nat := 0x202010 + 0x40 * h

/-- `CM.HRING.SHADOW_HI` (R106). -/
abbrev cmHringShadowHi (h : Nat) : Nat := 0x202014 + 0x40 * h

/-- `CM.HRING.CREDIT` (R94). -/
abbrev cmHringCredit (h : Nat) : Nat := 0x202018 + 0x40 * h

/-- `CM.HRING.STAT` (R106). -/
abbrev cmHringStat (h : Nat) : Nat := 0x20201C + 0x40 * h

/-- `CM.FCQ.BASE` (R106). -/
abbrev cmFcqBase (q : Nat) : Nat := 0x203000 + 0x10 * q

/-- `CM.FCQ.LOG2` (R106). -/
abbrev cmFcqLog2 (q : Nat) : Nat := 0x203004 + 0x10 * q

/-- `CM.FCQ.PI` (R106). -/
abbrev cmFcqPi (q : Nat) : Nat := 0x203008 + 0x10 * q

/-- `CM.FCQ.CI` (R106). -/
abbrev cmFcqCi (q : Nat) : Nat := 0x20300C + 0x10 * q

/-- `DSPC.PM_INV` (R149). -/
abbrev dspcPmInv (c : Nat) : Nat := 0x400000 + 0x10000 * c

/-- `DSPC.CSTAT` (R149). -/
abbrev dspcCstat (c k : Nat) : Nat := 0x401000 + 0x10000 * c + 0x400 * k

/-- `DSPC.PM_LOCK` (R149). -/
abbrev dspcPmLock (c k : Nat) : Nat := 0x401004 + 0x10000 * c + 0x400 * k

/-- `DSPC.PM_LOCKBASE` (R149). -/
abbrev dspcPmLockbase (c k : Nat) : Nat := 0x401008 + 0x10000 * c + 0x400 * k

/-- `DSPC.FLT_STAT` (R149). -/
abbrev dspcFltStat (c k : Nat) : Nat := 0x401010 + 0x10000 * c + 0x400 * k

/-- `DSPC.FLT_ADDR_LO` (R149). -/
abbrev dspcFltAddrLo (c k : Nat) : Nat := 0x401014 + 0x10000 * c + 0x400 * k

/-- `DSPC.FLT_ADDR_HI` (R149). -/
abbrev dspcFltAddrHi (c k : Nat) : Nat := 0x401018 + 0x10000 * c + 0x400 * k

/-- `DSPC.FLT_PC_LO` (R149). -/
abbrev dspcFltPcLo (c k : Nat) : Nat := 0x40101C + 0x10000 * c + 0x400 * k

/-- `DSPC.FLT_PC_HI` (R149). -/
abbrev dspcFltPcHi (c k : Nat) : Nat := 0x401020 + 0x10000 * c + 0x400 * k

/-- `DSPC.FLT_HANDLE` (R149). -/
abbrev dspcFltHandle (c k : Nat) : Nat := 0x401024 + 0x10000 * c + 0x400 * k

/-- `DSPC.MPU_BASE` (R149). -/
abbrev dspcMpuBase (c k r : Nat) : Nat := 0x401040 + 0x10000 * c + 0x400 * k + 0x8 * r

/-- `DSPC.MPU_LIMIT` (R149). -/
abbrev dspcMpuLimit (c k r : Nat) : Nat := 0x401044 + 0x10000 * c + 0x400 * k + 0x8 * r

/-- `ENG.STAT` (R220). -/
abbrev engStat (e : Nat) : Nat := 0x601000 + 0x100 * e

/-- `ENG.JOBS` (R220). -/
abbrev engJobs (e : Nat) : Nat := 0x601004 + 0x100 * e

/-- `ENG.ERR_STAT` (R220). -/
abbrev engErrStat (e : Nat) : Nat := 0x601008 + 0x100 * e

/-- `ENG.ERR_ADDR_LO` (R220). -/
abbrev engErrAddrLo (e : Nat) : Nat := 0x60100C + 0x100 * e

/-- `ENG.ERR_ADDR_HI` (R220). -/
abbrev engErrAddrHi (e : Nat) : Nat := 0x601010 + 0x100 * e

/-- `NFE.CTRL` (R254). -/
abbrev nfeCtrl (n : Nat) : Nat := 0x700000 + 0x1000 * n

/-- `NFE.STAT` (R254). -/
abbrev nfeStat (n : Nat) : Nat := 0x700004 + 0x1000 * n

/-- `NFE.RX_PI` (R254). -/
abbrev nfeRxPi (n : Nat) : Nat := 0x700008 + 0x1000 * n

/-- `NFE.RX_CI` (R254). -/
abbrev nfeRxCi (n : Nat) : Nat := 0x70000C + 0x1000 * n

/-- `NFE.RXD_PI` (R254). -/
abbrev nfeRxdPi (n : Nat) : Nat := 0x700010 + 0x1000 * n

/-- `NFE.RXD_CI` (R254). -/
abbrev nfeRxdCi (n : Nat) : Nat := 0x700014 + 0x1000 * n

/-- `NFE.RX_LOST` (R254). -/
abbrev nfeRxLost (n : Nat) : Nat := 0x700018 + 0x1000 * n

/-- `NFE.CAPTURES` (R254). -/
abbrev nfeCaptures (n : Nat) : Nat := 0x70001C + 0x1000 * n

/-- `NFE.NOSYNC` (R254). -/
abbrev nfeNosync (n : Nat) : Nat := 0x700020 + 0x1000 * n

/-- `NFE.SAT` (R254). -/
abbrev nfeSat (n : Nat) : Nat := 0x700024 + 0x1000 * n

/-- `NFE.GAP` (R254). -/
abbrev nfeGap (n : Nat) : Nat := 0x700028 + 0x1000 * n

/-- `NFE.ERR_STAT` (R254). -/
abbrev nfeErrStat (n : Nat) : Nat := 0x700030 + 0x1000 * n

/-- `NFE.ERR_ADDR_LO` (R254). -/
abbrev nfeErrAddrLo (n : Nat) : Nat := 0x700034 + 0x1000 * n

/-- `NFE.ERR_ADDR_HI` (R254). -/
abbrev nfeErrAddrHi (n : Nat) : Nat := 0x700038 + 0x1000 * n

/-- `DCT.CTRL` (R287). -/
abbrev dctCtrl : Nat := 0x800000

/-- `DCT.ERR_STAT` (R287). -/
abbrev dctErrStat : Nat := 0x800010

/-- `DCT.ERR_ADDR_LO` (R287). -/
abbrev dctErrAddrLo : Nat := 0x800014

/-- `DCT.ERR_ADDR_HI` (R287). -/
abbrev dctErrAddrHi : Nat := 0x800018

/-- `DCT.ERR_CNT` (R287). -/
abbrev dctErrCnt : Nat := 0x80001C

/-- `DCT.ERR_INDEX` (R287). -/
abbrev dctErrIndex : Nat := 0x800020

/-- `DCT.CH.CFG` (R287). -/
abbrev dctChCfg (n : Nat) : Nat := 0x801000 + 0x40 * n

/-- `DCT.CH.CMD` (R287). -/
abbrev dctChCmd (n : Nat) : Nat := 0x801004 + 0x40 * n

/-- `DCT.CH.HEAD_LO` (R287). -/
abbrev dctChHeadLo (n : Nat) : Nat := 0x801008 + 0x40 * n

/-- `DCT.CH.HEAD_HI` (R287). -/
abbrev dctChHeadHi (n : Nat) : Nat := 0x80100C + 0x40 * n

/-- `DCT.CH.STAT` (R287). -/
abbrev dctChStat (n : Nat) : Nat := 0x801010 + 0x40 * n

/-- `DCT.CH.CUR_LO` (R287). -/
abbrev dctChCurLo (n : Nat) : Nat := 0x801014 + 0x40 * n

/-- `DCT.CH.CUR_HI` (R287). -/
abbrev dctChCurHi (n : Nat) : Nat := 0x801018 + 0x40 * n

/-- `DCT.CH.DONE` (R287). -/
abbrev dctChDone (n : Nat) : Nat := 0x80101C + 0x40 * n

/-- `DCT.CH.REMAIN` (R287). -/
abbrev dctChRemain (n : Nat) : Nat := 0x801020 + 0x40 * n

/-- `DCT.CH.ERRADDR_LO` (R287). -/
abbrev dctChErraddrLo (n : Nat) : Nat := 0x801024 + 0x40 * n

/-- `DCT.CH.ERRADDR_HI` (R287). -/
abbrev dctChErraddrHi (n : Nat) : Nat := 0x801028 + 0x40 * n

/-- `DCT.CH.INDEX` (R287). -/
abbrev dctChIndex (n : Nat) : Nat := 0x80102C + 0x40 * n

/-- `MEM.UE_STAT` (R319). -/
abbrev memUeStat : Nat := 0x900000

/-- `MEM.UE_ADDR_LO` (R319). -/
abbrev memUeAddrLo : Nat := 0x900004

/-- `MEM.UE_ADDR_HI` (R319). -/
abbrev memUeAddrHi : Nat := 0x900008

/-- `MEM.UE_CNT` (R319). -/
abbrev memUeCnt : Nat := 0x90000C

/-- `MEM.CE_CNT` (R319). -/
abbrev memCeCnt (k : Nat) : Nat := 0x900010 + 0x4 * k

/-- `MEM.DRAMCFG` (R319). -/
abbrev memDramcfg : Nat := 0x900030

/-- `MEM.VCLR_BASE_LO` (R319). -/
abbrev memVclrBaseLo : Nat := 0x900040

/-- `MEM.VCLR_BASE_HI` (R319). -/
abbrev memVclrBaseHi : Nat := 0x900044

/-- `MEM.VCLR_LIMIT_LO` (R319). -/
abbrev memVclrLimitLo : Nat := 0x900048

/-- `MEM.VCLR_LIMIT_HI` (R319). -/
abbrev memVclrLimitHi : Nat := 0x90004C

/-- `MEM.VCLR_CTRL` (R319). -/
abbrev memVclrCtrl : Nat := 0x900050

/-- `MEM.RID.CTRL` (R319). -/
abbrev memRidCtrl (k : Nat) : Nat := 0x900100 + 0x10 * k

/-- `MEM.RID.PASS` (R319). -/
abbrev memRidPass (k : Nat) : Nat := 0x900104 + 0x10 * k

/-- `MEM.RID.POS` (R319). -/
abbrev memRidPos (k : Nat) : Nat := 0x900108 + 0x10 * k

/-- `MEM.RID.CE` (R319). -/
abbrev memRidCe (k : Nat) : Nat := 0x90010C + 0x10 * k

/-- `MEM.GRANT.BASE` (R319). -/
abbrev memGrantBase (g : Nat) : Nat := 0x900200 + 0x10 * g

/-- `MEM.GRANT.LIMIT` (R319). -/
abbrev memGrantLimit (g : Nat) : Nat := 0x900204 + 0x10 * g

/-- `MEM.GRANT.CTRL` (R319). -/
abbrev memGrantCtrl (g : Nat) : Nat := 0x900208 + 0x10 * g

/-- `MEM.BANK_CE` (R319). -/
abbrev memBankCe (b : Nat) : Nat := 0x900300 + 0x4 * b

/-- `DMC.CTRL` (R320). -/
abbrev dmcCtrl (n : Nat) : Nat := 0xA00000 + 0x10000 * n

/-- `DMC.STAT` (R320). -/
abbrev dmcStat (n : Nat) : Nat := 0xA00004 + 0x10000 * n

/-- `DMC.CFG` (R320). -/
abbrev dmcCfg (n : Nat) : Nat := 0xA00008 + 0x10000 * n

/-- `DMC.MAPCFG` (R320). -/
abbrev dmcMapcfg (n : Nat) : Nat := 0xA0000C + 0x10000 * n

/-- `DMC.MASK_LO` (R320). -/
abbrev dmcMaskLo (n i : Nat) : Nat := 0xA00010 + 0x10000 * n + 0x8 * i

/-- `DMC.MASK_HI` (R320). -/
abbrev dmcMaskHi (n i : Nat) : Nat := 0xA00014 + 0x10000 * n + 0x8 * i

/-- `DMC.AGE` (R309). -/
abbrev dmcAge (n c : Nat) : Nat := 0xA00060 + 0x10000 * n + 0x4 * c

/-- `DMC.RTR` (R320). -/
abbrev dmcRtr (n : Nat) : Nat := 0xA00070 + 0x10000 * n

/-- `DMC.ALERT_T` (R320). -/
abbrev dmcAlertT (n : Nat) : Nat := 0xA00074 + 0x10000 * n

/-- `DMC.ALERT_W` (R320). -/
abbrev dmcAlertW (n : Nat) : Nat := 0xA00078 + 0x10000 * n

/-- `DMC.CE_CNT` (R320). -/
abbrev dmcCeCnt (n : Nat) : Nat := 0xA00080 + 0x10000 * n

/-- `DMC.UE_CNT` (R320). -/
abbrev dmcUeCnt (n : Nat) : Nat := 0xA00084 + 0x10000 * n

/-- `DMC.REPLAY_CNT` (R320). -/
abbrev dmcReplayCnt (n : Nat) : Nat := 0xA00088 + 0x10000 * n

/-- `DMC.RTR_FORCED` (R320). -/
abbrev dmcRtrForced (n : Nat) : Nat := 0xA0008C + 0x10000 * n

/-- `DMC.MR` (R320). -/
abbrev dmcMr (n m : Nat) : Nat := 0xA00100 + 0x10000 * n + 0x4 * m

/-- `LANE.CTRL` (R361). -/
abbrev laneCtrl (g l : Nat) : Nat := 0xC00000 + 0x20000 * g + 0x1000 * l

/-- `LANE.STAT` (R361). -/
abbrev laneStat (g l : Nat) : Nat := 0xC00004 + 0x20000 * g + 0x1000 * l

/-- `LANE.RATE` (R361). -/
abbrev laneRate (g l : Nat) : Nat := 0xC00008 + 0x20000 * g + 0x1000 * l

/-- `LANE.RETRY` (R361). -/
abbrev laneRetry (g l : Nat) : Nat := 0xC0000C + 0x20000 * g + 0x1000 * l

/-- `LANE.ERR_CNT` (R361). -/
abbrev laneErrCnt (g l : Nat) : Nat := 0xC00010 + 0x20000 * g + 0x1000 * l

/-- `LANE.FEC_CORR` (R361). -/
abbrev laneFecCorr (g l : Nat) : Nat := 0xC00014 + 0x20000 * g + 0x1000 * l

/-- `LANE.FEC_UNC` (R361). -/
abbrev laneFecUnc (g l : Nat) : Nat := 0xC00018 + 0x20000 * g + 0x1000 * l

/-- `LANE.TXEQ` (R361). -/
abbrev laneTxeq (g l : Nat) : Nat := 0xC00020 + 0x20000 * g + 0x1000 * l

/-- `LANE.RXEQ` (R361). -/
abbrev laneRxeq (g l : Nat) : Nat := 0xC00024 + 0x20000 * g + 0x1000 * l

/-- `LANE.EYE` (R361). -/
abbrev laneEye (g l : Nat) : Nat := 0xC00028 + 0x20000 * g + 0x1000 * l

/-- `LANE.RAWCTL` (R361). -/
abbrev laneRawctl (g l : Nat) : Nat := 0xC00030 + 0x20000 * g + 0x1000 * l

/-- `LANE.GBX` (R361). -/
abbrev laneGbx (g l : Nat) : Nat := 0xC00034 + 0x20000 * g + 0x1000 * l

/-- `FHM.PORT.RX_FRAMES` (R362). -/
abbrev fhmPortRxFrames (p : Nat) : Nat := 0xE01000 + 0x100 * p

/-- `FHM.PORT.FCS_DROP` (R362). -/
abbrev fhmPortFcsDrop (p : Nat) : Nat := 0xE01004 + 0x100 * p

/-- `FHM.PORT.UNKNOWN` (R362). -/
abbrev fhmPortUnknown (p : Nat) : Nat := 0xE01008 + 0x100 * p

/-- `FHM.PORT.EARLY` (R362). -/
abbrev fhmPortEarly (p : Nat) : Nat := 0xE0100C + 0x100 * p

/-- `FHM.PORT.LATE` (R362). -/
abbrev fhmPortLate (p : Nat) : Nat := 0xE01010 + 0x100 * p

/-- `FHM.PORT.MISSING` (R362). -/
abbrev fhmPortMissing (p : Nat) : Nat := 0xE01014 + 0x100 * p

/-- `FHM.PORT.TX_FRAMES` (R362). -/
abbrev fhmPortTxFrames (p : Nat) : Nat := 0xE01018 + 0x100 * p

/-- `FHM.PORT.TX_LATE` (R362). -/
abbrev fhmPortTxLate (p : Nat) : Nat := 0xE0101C + 0x100 * p

/-- `FHM.TL.RING_LO` (R362). -/
abbrev fhmTlRingLo (t : Nat) : Nat := 0xE08000 + 0x100 * t

/-- `FHM.TL.RING_HI` (R362). -/
abbrev fhmTlRingHi (t : Nat) : Nat := 0xE08004 + 0x100 * t

/-- `FHM.TL.LOG2` (R362). -/
abbrev fhmTlLog2 (t : Nat) : Nat := 0xE08008 + 0x100 * t

/-- `FHM.TL.PI` (R362). -/
abbrev fhmTlPi (t : Nat) : Nat := 0xE0800C + 0x100 * t

/-- `FHM.TL.CI` (R362). -/
abbrev fhmTlCi (t : Nat) : Nat := 0xE08010 + 0x100 * t

/-- `FHM.TL.REPLAY` (R362). -/
abbrev fhmTlReplay (t : Nat) : Nat := 0xE08014 + 0x100 * t

/-- `FHM.TL.REFUSED` (R362). -/
abbrev fhmTlRefused (t : Nat) : Nat := 0xE08018 + 0x100 * t

/-- `FHM.TL.CREDIT_STALL` (R362). -/
abbrev fhmTlCreditStall (t : Nat) : Nat := 0xE0801C + 0x100 * t

/-- `FHM.TL.TL_ID` (R362). -/
abbrev fhmTlTlId (t : Nat) : Nat := 0xE08020 + 0x100 * t

/-- `FHM.TWIN.BASE_LO` (R362). -/
abbrev fhmTwinBaseLo (t w : Nat) : Nat := 0xE09000 + 0x80 * t + 0x10 * w

/-- `FHM.TWIN.BASE_HI` (R362). -/
abbrev fhmTwinBaseHi (t w : Nat) : Nat := 0xE09004 + 0x80 * t + 0x10 * w

/-- `FHM.TWIN.LIMIT_LO` (R362). -/
abbrev fhmTwinLimitLo (t w : Nat) : Nat := 0xE09008 + 0x80 * t + 0x10 * w

/-- `FHM.TWIN.LIMIT_HI` (R362). -/
abbrev fhmTwinLimitHi (t w : Nat) : Nat := 0xE0900C + 0x80 * t + 0x10 * w

/-- `MRD.TIME_NS` (R390). -/
abbrev mrdTimeNs : Nat := 0x1000000

/-- `MRD.TIME_S_LO` (R390). -/
abbrev mrdTimeSLo : Nat := 0x1000004

/-- `MRD.TIME_S_HI` (R390). -/
abbrev mrdTimeSHi : Nat := 0x1000008

/-- `MRD.TIME_FR` (R390). -/
abbrev mrdTimeFr : Nat := 0x100000C

/-- `MRD.STATE` (R390). -/
abbrev mrdState : Nat := 0x1000010

/-- `MRD.ERRBOUND` (R390). -/
abbrev mrdErrbound : Nat := 0x1000014

/-- `MRD.STEPS` (R390). -/
abbrev mrdSteps : Nat := 0x1000018

/-- `MRD.SAMPLES` (R390). -/
abbrev mrdSamples : Nat := 0x100001C

/-- `MRD.SET_NS` (R390). -/
abbrev mrdSetNs : Nat := 0x1000020

/-- `MRD.SET_S_LO` (R390). -/
abbrev mrdSetSLo : Nat := 0x1000024

/-- `MRD.SET_S_HI` (R390). -/
abbrev mrdSetSHi : Nat := 0x1000028

/-- `MRD.SET_CTRL` (R390). -/
abbrev mrdSetCtrl : Nat := 0x100002C

/-- `MRD.STEP_LO` (R390). -/
abbrev mrdStepLo : Nat := 0x1000030

/-- `MRD.STEP_HI` (R390). -/
abbrev mrdStepHi : Nat := 0x1000034

/-- `MRD.SERVO` (R390). -/
abbrev mrdServo : Nat := 0x1000040

/-- `MRD.KP` (R390). -/
abbrev mrdKp : Nat := 0x1000044

/-- `MRD.KI` (R390). -/
abbrev mrdKi : Nat := 0x1000048

/-- `MRD.OFFSET_LO` (R390). -/
abbrev mrdOffsetLo : Nat := 0x100004C

/-- `MRD.OFFSET_HI` (R390). -/
abbrev mrdOffsetHi : Nat := 0x1000050

/-- `MRD.FREQ` (R390). -/
abbrev mrdFreq : Nat := 0x1000054

/-- `MRD.FAVG` (R390). -/
abbrev mrdFavg : Nat := 0x1000058

/-- `MRD.LOCK` (R390). -/
abbrev mrdLock : Nat := 0x100005C

/-- `MRD.UNLOCK_NS` (R390). -/
abbrev mrdUnlockNs : Nat := 0x1000060

/-- `MRD.STEP_NS` (R390). -/
abbrev mrdStepNs : Nat := 0x1000064

/-- `MRD.HOLD` (R390). -/
abbrev mrdHold : Nat := 0x1000068

/-- `MRD.TSR_BASE_LO` (R390). -/
abbrev mrdTsrBaseLo : Nat := 0x1000080

/-- `MRD.TSR_BASE_HI` (R390). -/
abbrev mrdTsrBaseHi : Nat := 0x1000084

/-- `MRD.TSR_LOG2` (R390). -/
abbrev mrdTsrLog2 : Nat := 0x1000088

/-- `MRD.TSR_PI` (R390). -/
abbrev mrdTsrPi : Nat := 0x100008C

/-- `MRD.TSR_CI` (R390). -/
abbrev mrdTsrCi : Nat := 0x1000090

/-- `MRD.TSR_LOST` (R390). -/
abbrev mrdTsrLost : Nat := 0x1000094

/-- `MRD.CAP.CTRL` (R390). -/
abbrev mrdCapCtrl (n : Nat) : Nat := 0x1000100 + 0x20 * n

/-- `MRD.CAP.OFS` (R390). -/
abbrev mrdCapOfs (n : Nat) : Nat := 0x1000104 + 0x20 * n

/-- `MRD.CAP.NS` (R390). -/
abbrev mrdCapNs (n : Nat) : Nat := 0x1000108 + 0x20 * n

/-- `MRD.CAP.S_LO` (R390). -/
abbrev mrdCapSLo (n : Nat) : Nat := 0x100010C + 0x20 * n

/-- `MRD.CAP.S_HI` (R390). -/
abbrev mrdCapSHi (n : Nat) : Nat := 0x1000110 + 0x20 * n

/-- `MRD.CAP.FR` (R390). -/
abbrev mrdCapFr (n : Nat) : Nat := 0x1000114 + 0x20 * n

/-- `MRD.CAP.POP` (R390). -/
abbrev mrdCapPop (n : Nat) : Nat := 0x1000118 + 0x20 * n

/-- `MRD.CAP.LOST` (R390). -/
abbrev mrdCapLost (n : Nat) : Nat := 0x100011C + 0x20 * n

/-- `MRD.OUT.CTRL` (R390). -/
abbrev mrdOutCtrl (m : Nat) : Nat := 0x1000200 + 0x20 * m

/-- `MRD.OUT.START_NS` (R390). -/
abbrev mrdOutStartNs (m : Nat) : Nat := 0x1000204 + 0x20 * m

/-- `MRD.OUT.START_S_LO` (R390). -/
abbrev mrdOutStartSLo (m : Nat) : Nat := 0x1000208 + 0x20 * m

/-- `MRD.OUT.START_S_HI` (R390). -/
abbrev mrdOutStartSHi (m : Nat) : Nat := 0x100020C + 0x20 * m

/-- `MRD.OUT.PERIOD_NS` (R390). -/
abbrev mrdOutPeriodNs (m : Nat) : Nat := 0x1000210 + 0x20 * m

/-- `MRD.OUT.PERIOD_FR` (R390). -/
abbrev mrdOutPeriodFr (m : Nat) : Nat := 0x1000214 + 0x20 * m

/-- `MRD.OUT.WIDTH_NS` (R390). -/
abbrev mrdOutWidthNs (m : Nat) : Nat := 0x1000218 + 0x20 * m

/-- `MRD.TL.CTRL` (R390). -/
abbrev mrdTlCtrl (c : Nat) : Nat := 0x1010000 + 0x100 * c

/-- `MRD.TL.AIR_OFS` (R390). -/
abbrev mrdTlAirOfs (c : Nat) : Nat := 0x1010004 + 0x100 * c

/-- `MRD.TL.RXWIN_OPEN` (R390). -/
abbrev mrdTlRxwinOpen (c : Nat) : Nat := 0x1010008 + 0x100 * c

/-- `MRD.TL.RXWIN_CLOSE` (R390). -/
abbrev mrdTlRxwinClose (c : Nat) : Nat := 0x101000C + 0x100 * c

/-- `MRD.TL.TX_ADVANCE` (R390). -/
abbrev mrdTlTxAdvance (c : Nat) : Nat := 0x1010010 + 0x100 * c

/-- `MRD.TL.UL_MASK_LO` (R390). -/
abbrev mrdTlUlMaskLo (c : Nat) : Nat := 0x1010018 + 0x100 * c

/-- `MRD.TL.UL_MASK_HI` (R390). -/
abbrev mrdTlUlMaskHi (c : Nat) : Nat := 0x101001C + 0x100 * c

/-- `MRD.TL.DL_MASK_LO` (R390). -/
abbrev mrdTlDlMaskLo (c : Nat) : Nat := 0x1010020 + 0x100 * c

/-- `MRD.TL.DL_MASK_HI` (R390). -/
abbrev mrdTlDlMaskHi (c : Nat) : Nat := 0x1010024 + 0x100 * c

/-- `MRD.TL.RULE.CFG` (R390). -/
abbrev mrdTlRuleCfg (c r : Nat) : Nat := 0x1010040 + 0x100 * c + 0x10 * r

/-- `MRD.TL.RULE.ADVANCE` (R390). -/
abbrev mrdTlRuleAdvance (c r : Nat) : Nat := 0x1010044 + 0x100 * c + 0x10 * r

/-- `MRD.TL.RULE.DMCMASK` (R390). -/
abbrev mrdTlRuleDmcmask (c r : Nat) : Nat := 0x1010048 + 0x100 * c + 0x10 * r

/-- `TRL.RSTAT` (R418). -/
abbrev trlRstat : Nat := 0x1100000

/-- `TRL.REL` (R418). -/
abbrev trlRel : Nat := 0x1100004

/-- `TRL.STAT` (R418). -/
abbrev trlStat : Nat := 0x1100008

/-- `TRL.GUARD` (R418). -/
abbrev trlGuard : Nat := 0x1100010

/-- `TRL.GUARD_CNT` (R418). -/
abbrev trlGuardCnt : Nat := 0x1100014

/-- `TRL.GUARD_TIME` (R418). -/
abbrev trlGuardTime : Nat := 0x1100018

/-- `TRL.EVDROP` (R418). -/
abbrev trlEvdrop : Nat := 0x110001C

/-- `TRL.EVP` (R418). -/
abbrev trlEvp (e : Nat) : Nat := 0x1100100 + 0x4 * e

/-- `TRL.DP.SC` (R418). -/
abbrev trlDpSc (d : Nat) : Nat := 0x1100200 + 0x10 * d

/-- `TRL.DP.ERR` (R418). -/
abbrev trlDpErr (d : Nat) : Nat := 0x1100204 + 0x10 * d

/-- `TRL.DP.ERRADDR_LO` (R418). -/
abbrev trlDpErraddrLo (d : Nat) : Nat := 0x1100208 + 0x10 * d

/-- `TRL.DP.ERRADDR_HI` (R418). -/
abbrev trlDpErraddrHi (d : Nat) : Nat := 0x110020C + 0x10 * d

/-- `TRL.SP` (R418). -/
abbrev trlSp (s : Nat) : Nat := 0x1100300 + 0x8 * s

/-- `TRL.SP.OVF` (R418). -/
abbrev trlSpOvf (s : Nat) : Nat := 0x1100304 + 0x8 * s

/-- `RSV.HCTRL` (R447). -/
abbrev rsvHctrl : Nat := 0x1300000

/-- `RSV.PLACE` (R447). -/
abbrev rsvPlace : Nat := 0x1300004

/-- `RSV.PTIME` (R447). -/
abbrev rsvPtime : Nat := 0x1300008

/-- `RSV.PSTG_LO` (R447). -/
abbrev rsvPstgLo : Nat := 0x1300010

/-- `RSV.PSTG_HI` (R447). -/
abbrev rsvPstgHi : Nat := 0x1300014

/-- `RSV.THR_AGE` (R447). -/
abbrev rsvThrAge : Nat := 0x1300020

/-- `RSV.THR_CE` (R447). -/
abbrev rsvThrCe : Nat := 0x1300024

/-- `RSV.THR_EYE` (R447). -/
abbrev rsvThrEye : Nat := 0x1300028

/-- `RSV.DRAIN` (R447). -/
abbrev rsvDrain : Nat := 0x130002C

/-- `RSV.LOAD` (R447). -/
abbrev rsvLoad (c : Nat) : Nat := 0x1300040 + 0x4 * c

/-- `RSV.CMAP` (R447). -/
abbrev rsvCmap (c : Nat) : Nat := 0x1300080 + 0x4 * c

/-- `RSV.CHOLD` (R447). -/
abbrev rsvChold (c : Nat) : Nat := 0x13000C0 + 0x4 * c

/-- `RSV.VL.VREQ` (R447). -/
abbrev rsvVlVreq (c : Nat) : Nat := 0x1300100 + 0x10 * c

/-- `RSV.VL.VSTAT` (R447). -/
abbrev rsvVlVstat (c : Nat) : Nat := 0x1300104 + 0x10 * c

/-- `RSV.VL.SLACK` (R447). -/
abbrev rsvVlSlack (c : Nat) : Nat := 0x1300108 + 0x10 * c

/-- `RSV.VL.EMERG` (R447). -/
abbrev rsvVlEmerg (c : Nat) : Nat := 0x130010C + 0x10 * c

/-- `RSV.EMAP` (R447). -/
abbrev rsvEmap (e : Nat) : Nat := 0x1300200 + 0x4 * e

/-- `RSV.CONF_CNT` (R447). -/
abbrev rsvConfCnt (l : Nat) : Nat := 0x1300400 + 0x4 * l

/-- `RSV.CONF_LAST` (R447). -/
abbrev rsvConfLast : Nat := 0x1300410

/-- `RSV.CONF_TIME` (R447). -/
abbrev rsvConfTime : Nat := 0x1300414

/-- `RSV.AGE` (R447). -/
abbrev rsvAge (u : Nat) : Nat := 0x1300800 + 0x4 * u

/-- `PWR.RST` (R468). -/
abbrev pwrRst : Nat := 0x1200000

/-- `PWR.WAKE_STAT` (R468). -/
abbrev pwrWakeStat : Nat := 0x1200004

/-- `PWR.ESLEEP` (R468). -/
abbrev pwrEsleep : Nat := 0x1200008

/-- `PWR.AVS` (R468). -/
abbrev pwrAvs : Nat := 0x120000C

/-- `PWR.CL` (R468). -/
abbrev pwrCl (c : Nat) : Nat := 0x1200040 + 0x4 * c

/-- `PWR.ENG` (R468). -/
abbrev pwrEng (e : Nat) : Nat := 0x1200100 + 0x4 * e

/-- `NWB.STAT` (R491). -/
abbrev nwbStat : Nat := 0x1700000

/-- `NWB.CTRL` (R491). -/
abbrev nwbCtrl : Nat := 0x1700004

/-- `NWB.IRQ` (R491). -/
abbrev nwbIrq : Nat := 0x1700008

/-- `NWB.TXGO` (R491). -/
abbrev nwbTxgo : Nat := 0x1700010

/-- `NWB.RXLEN` (R491). -/
abbrev nwbRxlen : Nat := 0x1700014

/-- `NWB.TXBUF` (R491). -/
abbrev nwbTxbuf (w : Nat) : Nat := 0x1700100 + 0x4 * w

/-- `NWB.RXBUF` (R491). -/
abbrev nwbRxbuf (w : Nat) : Nat := 0x1700200 + 0x4 * w

/-- `SEC.STAT` (R507). -/
abbrev secStat : Nat := 0x1500000

/-- `SEC.UID_LO` (R507). -/
abbrev secUidLo : Nat := 0x1500008

/-- `SEC.UID_HI` (R507). -/
abbrev secUidHi : Nat := 0x150000C

/-- `SEC.SVN` (R507). -/
abbrev secSvn : Nat := 0x1500010

/-- `SEC.DBG` (R507). -/
abbrev secDbg : Nat := 0x1500014

/-- `SEC.KEY.ID` (R507). -/
abbrev secKeyId (s : Nat) : Nat := 0x1500040 + 0x40 * s

/-- `SEC.KEY.FLAGS` (R507). -/
abbrev secKeyFlags (s : Nat) : Nat := 0x1500044 + 0x40 * s

/-- `SEC.KEY.HASH` (R507). -/
abbrev secKeyHash (s w : Nat) : Nat := 0x1500048 + 0x40 * s + 0x4 * w

/-- `SEC.SPI_CTRL` (R507). -/
abbrev secSpiCtrl : Nat := 0x1500300

/-- `SEC.SPI_CMD` (R507). -/
abbrev secSpiCmd : Nat := 0x1500304

/-- `SEC.SPI_ADDR` (R507). -/
abbrev secSpiAddr : Nat := 0x1500308

/-- `SEC.SPI_STAT` (R507). -/
abbrev secSpiStat : Nat := 0x150030C

/-- `SEC.SPI_BUF` (R507). -/
abbrev secSpiBuf (w : Nat) : Nat := 0x1500400 + 0x4 * w

/-- `CEN.CTRL` (R521). -/
abbrev cenCtrl : Nat := 0x1400000

/-- `CEN.PERIOD` (R521). -/
abbrev cenPeriod : Nat := 0x1400004

/-- `CEN.RING_LO` (R521). -/
abbrev cenRingLo : Nat := 0x1400008

/-- `CEN.RING_HI` (R521). -/
abbrev cenRingHi : Nat := 0x140000C

/-- `CEN.RING_LOG2` (R521). -/
abbrev cenRingLog2 : Nat := 0x1400010

/-- `CEN.PI` (R521). -/
abbrev cenPi : Nat := 0x1400014

/-- `CEN.CI` (R521). -/
abbrev cenCi : Nat := 0x1400018

/-- `CEN.SKIPPED` (R521). -/
abbrev cenSkipped : Nat := 0x140001C

/-- `CEN.LOST` (R521). -/
abbrev cenLost : Nat := 0x1400020

/-- `CEN.STAT` (R521). -/
abbrev cenStat : Nat := 0x1400024

/-- `SYS.TEMP` (R532). -/
abbrev sysTemp : Nat := 0x200

end Reg

/-- Registers of the SYS block. -/
def rowsSys : List RegRow := [
  ⟨0x0, [], 0, false, [⟨31, 16, .ro, .c 0x9600⟩, ⟨15, 8, .ro, .c 0xB0⟩, ⟨0, 0, .ro, .c 0⟩]⟩,
  ⟨0x100, [], 0, true, [⟨31, 31, .w1c, .c 0⟩, ⟨30, 30, .w1c, .c 0⟩, ⟨23, 16, .ro, .c 0⟩, ⟨11, 8, .ro, .c 0⟩, ⟨0, 0, .ro, .c 0⟩]⟩,
  ⟨0x104, [], 1, false, [⟨31, 0, .ro, .c 0⟩]⟩,
  ⟨0x108, [], 2, false, [⟨31, 31, .ro, .c 0⟩, ⟨15, 0, .ro, .c 0⟩]⟩,
  ⟨0x10C, [], 0, true, [⟨31, 0, .rc, .c 0⟩]⟩,
  ⟨0x200, [], 0, false, [⟨31, 31, .ro, .c 0⟩, ⟨20, 16, .ro, .c 0⟩, ⟨15, 0, .ro, .c 0⟩]⟩]

/-- Registers of the MBX block. -/
def rowsMbx : List RegRow := [
  ⟨0x100000, [(0x40, 0x1000)], 0, true, [⟨31, 31, .rw, .c 0⟩, ⟨30, 30, .rwl, .isZero 0⟩, ⟨12, 12, .rw, .c 1⟩, ⟨10, 0, .rw, .lin 2 1⟩]⟩,
  ⟨0x100004, [(0x40, 0x1000)], 0, true, [⟨31, 31, .ro, .c 1⟩, ⟨4, 4, .w1c, .c 0⟩, ⟨3, 3, .w1c, .c 0⟩, ⟨2, 2, .w1c, .c 0⟩, ⟨1, 1, .w1c, .c 0⟩]⟩,
  ⟨0x100008, [(0x40, 0x1000)], 1, true, [⟨31, 0, .rw, .c 0⟩]⟩,
  ⟨0x10000C, [(0x40, 0x1000)], 2, true, [⟨31, 0, .rw, .c 0⟩]⟩,
  ⟨0x100010, [(0x40, 0x1000)], 1, true, [⟨31, 0, .rw, .c 0⟩]⟩,
  ⟨0x100014, [(0x40, 0x1000)], 2, true, [⟨31, 0, .rw, .c 0⟩]⟩,
  ⟨0x100018, [(0x40, 0x1000)], 1, true, [⟨31, 0, .rw, .c 0⟩]⟩,
  ⟨0x10001C, [(0x40, 0x1000)], 2, true, [⟨31, 0, .rw, .c 0⟩]⟩,
  ⟨0x100020, [(0x40, 0x1000)], 0, true, [⟨19, 16, .rw, .c 0⟩, ⟨3, 0, .rw, .c 0⟩]⟩,
  ⟨0x100024, [(0x40, 0x1000)], 0, true, [⟨15, 0, .rw, .c 0⟩]⟩,
  ⟨0x100028, [(0x40, 0x1000)], 0, true, [⟨15, 0, .ro, .c 0⟩]⟩,
  ⟨0x10002C, [(0x40, 0x1000)], 0, true, [⟨15, 0, .ro, .c 0⟩]⟩,
  ⟨0x100030, [(0x40, 0x1000)], 0, true, [⟨15, 0, .rw, .c 0⟩]⟩,
  ⟨0x100034, [(0x40, 0x1000)], 0, true, [⟨15, 0, .rw, .c 1000⟩]⟩,
  ⟨0x100038, [(0x40, 0x1000)], 0, true, [⟨31, 0, .rc, .c 0⟩]⟩,
  ⟨0x10003C, [(0x40, 0x1000)], 0, true, [⟨31, 0, .rw, .c 0⟩]⟩,
  ⟨0x140000, [], 0, false, [⟨15, 8, .ro, .c 0⟩, ⟨3, 0, .ro, .c 0⟩]⟩,
  ⟨0x140004, [], 0, true, [⟨0, 0, .w1s, .c 0⟩]⟩,
  ⟨0x140008, [], 0, true, [⟨4, 4, .w1c, .c 0⟩, ⟨3, 3, .w1c, .c 0⟩, ⟨2, 2, .w1c, .c 0⟩, ⟨1, 1, .w1c, .c 0⟩, ⟨0, 0, .w1c, .c 0⟩]⟩,
  ⟨0x14000C, [], 0, true, [⟨0, 0, .wo, .c 0⟩]⟩]

/-- Registers of the CM block, part 1. -/
def rowsCm1 : List RegRow := [
  ⟨0x200000, [], 0, false, [⟨8, 8, .rw, .c 0⟩, ⟨5, 4, .rw, .c 2⟩, ⟨0, 0, .rw, .c 0⟩]⟩,
  ⟨0x200004, [], 0, false, [⟨17, 0, .ro, .c 131072⟩]⟩,
  ⟨0x200008, [], 0, false, [⟨31, 0, .ro, .c 0⟩]⟩,
  ⟨0x200040, [(0x10, 0x4)], 0, false, [⟨17, 0, .rw, .c 4096⟩]⟩,
  ⟨0x200080, [(0x10, 0x4)], 0, false, [⟨17, 0, .ro, .lin 0 4096⟩]⟩,
  ⟨0x200100, [(0x9, 0x4)], 0, false, [⟨31, 0, .rc, .c 0⟩]⟩,
  ⟨0x201000, [(0x4, 0x100), (0x8, 0x4)], 0, false, [⟨31, 0, .rw, .c 0⟩]⟩,
  ⟨0x201020, [(0x4, 0x100)], 0, false, [⟨31, 0, .ro, .c 0⟩]⟩,
  ⟨0x201024, [(0x4, 0x100)], 0, false, [⟨0, 0, .ro, .c 0⟩]⟩,
  ⟨0x201028, [(0x4, 0x100)], 0, false, [⟨31, 0, .wo, .c 0⟩]⟩,
  ⟨0x20102C, [(0x4, 0x100)], 0, false, [⟨15, 0, .wo, .c 0⟩]⟩,
  ⟨0x201030, [(0x4, 0x100)], 0, false, [⟨31, 31, .ro, .c 0⟩, ⟨30, 28, .ro, .c 0⟩, ⟨17, 0, .ro, .c 0⟩]⟩,
  ⟨0x201034, [(0x4, 0x100)], 0, false, [⟨13, 0, .rw, .c 0⟩]⟩,
  ⟨0x201038, [(0x4, 0x100)], 0, false, [⟨31, 0, .wo, .c 0⟩]⟩,
  ⟨0x20103C, [(0x4, 0x100)], 0, false, [⟨31, 0, .wo, .c 0⟩]⟩,
  ⟨0x201040, [(0x4, 0x100)], 0, false, [⟨31, 0, .ro, .c 0⟩]⟩,
  ⟨0x201044, [(0x4, 0x100)], 0, false, [⟨15, 0, .rw, .c 0⟩]⟩,
  ⟨0x201048, [(0x4, 0x100)], 0, false, [⟨31, 31, .rw, .c 0⟩, ⟨27, 24, .rw, .c 0xF⟩, ⟨23, 23, .rw, .c 0⟩, ⟨20, 20, .rw, .c 0⟩, ⟨19, 18, .rw, .c 1⟩, ⟨6, 0, .rw, .c 0⟩]⟩,
  ⟨0x20104C, [(0x4, 0x100)], 0, false, [⟨31, 31, .ro, .c 0⟩, ⟨30, 30, .ro, .c 0⟩, ⟨17, 0, .ro, .c 0⟩]⟩,
  ⟨0x202000, [(0x40, 0x40)], 0, false, [⟨31, 31, .rw, .c 0⟩, ⟨19, 16, .rw, .c 4⟩, ⟨3, 0, .rw, .c 0xF⟩]⟩,
  ⟨0x202004, [(0x40, 0x40)], 0, false, [⟨25, 6, .rw, .c 0⟩]⟩,
  ⟨0x202008, [(0x40, 0x40)], 1, false, [⟨31, 0, .rw, .c 0⟩]⟩,
  ⟨0x20200C, [(0x40, 0x40)], 2, false, [⟨31, 0, .rw, .c 0⟩]⟩,
  ⟨0x202010, [(0x40, 0x40)], 1, false, [⟨31, 0, .rw, .c 0⟩]⟩]

/-- Registers of the CM block, part 2. -/
def rowsCm2 : List RegRow := [
  ⟨0x202014, [(0x40, 0x40)], 2, false, [⟨31, 0, .rw, .c 0⟩]⟩,
  ⟨0x202018, [(0x40, 0x40)], 0, false, [⟨15, 0, .ro, .c 0⟩]⟩,
  ⟨0x20201C, [(0x40, 0x40)], 0, false, [⟨31, 31, .ro, .c 1⟩, ⟨1, 1, .w1c, .c 0⟩, ⟨0, 0, .w1c, .c 0⟩]⟩,
  ⟨0x203000, [(0x8, 0x10)], 0, false, [⟨25, 4, .rw, .c 0⟩]⟩,
  ⟨0x203004, [(0x8, 0x10)], 0, false, [⟨3, 0, .rw, .c 4⟩]⟩,
  ⟨0x203008, [(0x8, 0x10)], 0, false, [⟨15, 0, .ro, .c 0⟩]⟩,
  ⟨0x20300C, [(0x8, 0x10)], 0, false, [⟨15, 0, .rw, .c 0⟩]⟩]

/-- Registers of the CM block. -/
def rowsCm : List RegRow := rowsCm1 ++ rowsCm2

/-- Registers of the DSPC block. -/
def rowsDspc : List RegRow := [
  ⟨0x400000, [(0xC, 0x10000)], 0, false, [⟨31, 31, .ro, .c 0⟩, ⟨7, 0, .wo, .c 0⟩]⟩,
  ⟨0x401000, [(0xC, 0x10000), (0x8, 0x400)], 0, false, [⟨31, 28, .ro, .c 4⟩, ⟨16, 0, .ro, .c 0⟩]⟩,
  ⟨0x401004, [(0xC, 0x10000), (0x8, 0x400)], 0, false, [⟨1, 0, .rw, .c 0⟩]⟩,
  ⟨0x401008, [(0xC, 0x10000), (0x8, 0x400)], 0, false, [⟨23, 0, .rw, .c 0⟩]⟩,
  ⟨0x401010, [(0xC, 0x10000), (0x8, 0x400)], 0, false, [⟨31, 31, .w1c, .c 0⟩, ⟨30, 30, .w1c, .c 0⟩, ⟨29, 29, .ro, .c 0⟩, ⟨28, 28, .ro, .c 0⟩, ⟨21, 20, .ro, .c 0⟩, ⟨18, 16, .ro, .c 0⟩, ⟨11, 8, .ro, .c 0⟩]⟩,
  ⟨0x401014, [(0xC, 0x10000), (0x8, 0x400)], 1, false, [⟨31, 0, .ro, .c 0⟩]⟩,
  ⟨0x401018, [(0xC, 0x10000), (0x8, 0x400)], 2, false, [⟨15, 0, .ro, .c 0⟩]⟩,
  ⟨0x40101C, [(0xC, 0x10000), (0x8, 0x400)], 1, false, [⟨31, 0, .ro, .c 0⟩]⟩,
  ⟨0x401020, [(0xC, 0x10000), (0x8, 0x400)], 2, false, [⟨15, 0, .ro, .c 0⟩]⟩,
  ⟨0x401024, [(0xC, 0x10000), (0x8, 0x400)], 0, false, [⟨31, 0, .ro, .c 0⟩]⟩,
  ⟨0x401040, [(0xC, 0x10000), (0x8, 0x400), (0x8, 0x8)], 0, false, [⟨31, 31, .rw, .c 0⟩, ⟨30, 30, .rw, .c 0⟩, ⟨29, 29, .rw, .c 0⟩, ⟨28, 28, .rw, .c 0⟩, ⟨27, 0, .rw, .c 0⟩]⟩,
  ⟨0x401044, [(0xC, 0x10000), (0x8, 0x400), (0x8, 0x8)], 0, false, [⟨27, 0, .rw, .c 0⟩]⟩]

/-- Registers of the ENG block. -/
def rowsEng : List RegRow := [
  ⟨0x601000, [(0x4C, 0x100)], 0, false, [⟨31, 28, .ro, .c 0⟩, ⟨16, 0, .ro, .c 0⟩]⟩,
  ⟨0x601004, [(0x4C, 0x100)], 0, false, [⟨31, 0, .rc, .c 0⟩]⟩,
  ⟨0x601008, [(0x4C, 0x100)], 0, false, [⟨31, 31, .w1c, .c 0⟩, ⟨30, 30, .w1c, .c 0⟩, ⟨23, 16, .ro, .c 0⟩, ⟨15, 8, .ro, .c 0⟩]⟩,
  ⟨0x60100C, [(0x4C, 0x100)], 1, false, [⟨31, 0, .ro, .c 0⟩]⟩,
  ⟨0x601010, [(0x4C, 0x100)], 2, false, [⟨15, 0, .ro, .c 0⟩]⟩]

/-- Registers of the NFE block. -/
def rowsNfe : List RegRow := [
  ⟨0x700000, [(0x4, 0x1000)], 0, false, [⟨31, 31, .rw, .c 0⟩, ⟨11, 8, .rw, .c 6⟩, ⟨1, 1, .rw, .c 0⟩, ⟨0, 0, .rw, .c 0⟩]⟩,
  ⟨0x700004, [(0x4, 0x1000)], 0, false, [⟨31, 28, .ro, .c 0⟩, ⟨22, 16, .ro, .c 0⟩, ⟨7, 0, .ro, .c 0⟩]⟩,
  ⟨0x700008, [(0x4, 0x1000)], 0, false, [⟨15, 0, .ro, .c 0⟩]⟩,
  ⟨0x70000C, [(0x4, 0x1000)], 0, false, [⟨15, 0, .rw, .c 0⟩]⟩,
  ⟨0x700010, [(0x4, 0x1000)], 0, false, [⟨31, 0, .ro, .c 0⟩]⟩,
  ⟨0x700014, [(0x4, 0x1000)], 0, false, [⟨31, 0, .rw, .c 0⟩]⟩,
  ⟨0x700018, [(0x4, 0x1000)], 0, false, [⟨31, 0, .rc, .c 0⟩]⟩,
  ⟨0x70001C, [(0x4, 0x1000)], 0, false, [⟨31, 0, .rc, .c 0⟩]⟩,
  ⟨0x700020, [(0x4, 0x1000)], 0, false, [⟨31, 0, .rc, .c 0⟩]⟩,
  ⟨0x700024, [(0x4, 0x1000)], 0, false, [⟨31, 0, .rc, .c 0⟩]⟩,
  ⟨0x700028, [(0x4, 0x1000)], 0, false, [⟨31, 0, .rc, .c 0⟩]⟩,
  ⟨0x700030, [(0x4, 0x1000)], 0, false, [⟨31, 31, .w1c, .c 0⟩, ⟨30, 30, .w1c, .c 0⟩, ⟨23, 16, .ro, .c 0⟩, ⟨15, 8, .ro, .c 0⟩]⟩,
  ⟨0x700034, [(0x4, 0x1000)], 1, false, [⟨31, 0, .ro, .c 0⟩]⟩,
  ⟨0x700038, [(0x4, 0x1000)], 2, false, [⟨15, 0, .ro, .c 0⟩]⟩]

/-- Registers of the DCT block. -/
def rowsDct : List RegRow := [
  ⟨0x800000, [], 0, false, [⟨0, 0, .rw, .c 0⟩]⟩,
  ⟨0x800010, [], 0, false, [⟨31, 31, .w1c, .c 0⟩, ⟨30, 30, .w1c, .c 0⟩, ⟨29, 24, .ro, .c 0⟩, ⟨23, 16, .ro, .c 0⟩, ⟨15, 12, .ro, .c 0⟩]⟩,
  ⟨0x800014, [], 1, false, [⟨31, 0, .ro, .c 0⟩]⟩,
  ⟨0x800018, [], 2, false, [⟨15, 0, .ro, .c 0⟩]⟩,
  ⟨0x80001C, [], 0, false, [⟨31, 0, .rc, .c 0⟩]⟩,
  ⟨0x800020, [], 0, false, [⟨15, 0, .ro, .c 0⟩]⟩,
  ⟨0x801000, [(0x40, 0x40)], 0, false, [⟨31, 31, .rw, .c 0⟩, ⟨25, 24, .rw, .c 0⟩, ⟨1, 0, .rw, .below 0 4 0 2⟩]⟩,
  ⟨0x801004, [(0x40, 0x40)], 0, false, [⟨1, 1, .wo, .c 0⟩, ⟨0, 0, .wo, .c 0⟩]⟩,
  ⟨0x801008, [(0x40, 0x40)], 1, false, [⟨31, 6, .rw, .c 0⟩]⟩,
  ⟨0x80100C, [(0x40, 0x40)], 2, false, [⟨15, 0, .rw, .c 0⟩]⟩,
  ⟨0x801010, [(0x40, 0x40)], 0, false, [⟨31, 28, .ro, .c 0⟩, ⟨27, 26, .ro, .c 0⟩, ⟨25, 25, .ro, .c 0⟩, ⟨24, 24, .ro, .c 0⟩, ⟨23, 16, .ro, .c 0⟩, ⟨15, 12, .ro, .c 0⟩, ⟨7, 0, .ro, .c 0⟩]⟩,
  ⟨0x801014, [(0x40, 0x40)], 1, false, [⟨31, 0, .ro, .c 0⟩]⟩,
  ⟨0x801018, [(0x40, 0x40)], 2, false, [⟨15, 0, .ro, .c 0⟩]⟩,
  ⟨0x80101C, [(0x40, 0x40)], 0, false, [⟨31, 0, .ro, .c 0⟩]⟩,
  ⟨0x801020, [(0x40, 0x40)], 0, false, [⟨31, 0, .ro, .c 0⟩]⟩,
  ⟨0x801024, [(0x40, 0x40)], 1, false, [⟨31, 0, .ro, .c 0⟩]⟩,
  ⟨0x801028, [(0x40, 0x40)], 2, false, [⟨15, 0, .ro, .c 0⟩]⟩,
  ⟨0x80102C, [(0x40, 0x40)], 0, false, [⟨15, 0, .ro, .c 0⟩]⟩]

/-- Registers of the MEM block. -/
def rowsMem : List RegRow := [
  ⟨0x900000, [], 0, false, [⟨31, 31, .w1c, .c 0⟩, ⟨30, 30, .w1c, .c 0⟩, ⟨27, 27, .ro, .c 0⟩, ⟨23, 20, .ro, .c 0⟩, ⟨15, 8, .ro, .c 0⟩]⟩,
  ⟨0x900004, [], 1, false, [⟨31, 0, .ro, .c 0⟩]⟩,
  ⟨0x900008, [], 2, false, [⟨15, 0, .ro, .c 0⟩]⟩,
  ⟨0x90000C, [], 0, false, [⟨31, 0, .rc, .c 0⟩]⟩,
  ⟨0x900010, [(0x5, 0x4)], 0, false, [⟨31, 0, .rc, .c 0⟩]⟩,
  ⟨0x900030, [], 0, false, [⟨2, 0, .rw, .c 1⟩]⟩,
  ⟨0x900040, [], 1, false, [⟨31, 0, .rw, .c 0⟩]⟩,
  ⟨0x900044, [], 2, false, [⟨31, 0, .rw, .c 0⟩]⟩,
  ⟨0x900048, [], 1, false, [⟨31, 0, .rw, .c 0⟩]⟩,
  ⟨0x90004C, [], 2, false, [⟨31, 0, .rw, .c 0⟩]⟩,
  ⟨0x900050, [], 0, false, [⟨31, 31, .ro, .c 0⟩, ⟨1, 1, .w1c, .c 0⟩, ⟨0, 0, .wo, .c 0⟩]⟩,
  ⟨0x900100, [(0xA, 0x10)], 0, false, [⟨31, 31, .rw, .c 1⟩, ⟨15, 0, .rw, .below 0 4 1000 8000⟩]⟩,
  ⟨0x900104, [(0xA, 0x10)], 0, false, [⟨31, 0, .rc, .c 0⟩]⟩,
  ⟨0x900108, [(0xA, 0x10)], 0, false, [⟨31, 0, .ro, .c 0⟩]⟩,
  ⟨0x90010C, [(0xA, 0x10)], 0, false, [⟨31, 0, .rc, .c 0⟩]⟩,
  ⟨0x900200, [(0x8, 0x10)], 0, false, [⟨25, 12, .ro, .c 0⟩]⟩,
  ⟨0x900204, [(0x8, 0x10)], 0, false, [⟨25, 12, .ro, .c 0⟩]⟩,
  ⟨0x900208, [(0x8, 0x10)], 0, false, [⟨31, 31, .ro, .c 0⟩]⟩,
  ⟨0x900300, [(0x22, 0x4)], 0, false, [⟨31, 0, .rc, .c 0⟩]⟩]

/-- Registers of the DMC block. -/
def rowsDmc : List RegRow := [
  ⟨0xA00000, [(0x6, 0x10000)], 0, false, [⟨31, 31, .rw, .c 0⟩, ⟨4, 4, .rw, .c 0⟩, ⟨0, 0, .wo, .c 0⟩]⟩,
  ⟨0xA00004, [(0x6, 0x10000)], 0, false, [⟨31, 28, .ro, .c 0⟩, ⟨19, 16, .ro, .c 0⟩, ⟨8, 8, .ro, .c 0⟩]⟩,
  ⟨0xA00008, [(0x6, 0x10000)], 0, false, [⟨31, 28, .rw, .c 0⟩, ⟨24, 24, .rw, .c 0⟩, ⟨20, 20, .rw, .c 0⟩, ⟨16, 16, .rw, .c 0⟩, ⟨12, 12, .rw, .c 0⟩]⟩,
  ⟨0xA0000C, [(0x6, 0x10000)], 0, false, [⟨29, 24, .rw, .c 0x13⟩, ⟨13, 8, .rw, .c 6⟩]⟩,
  ⟨0xA00010, [(0x6, 0x10000), (0x7, 0x8)], 1, false, [⟨31, 0, .rw, .c 0⟩]⟩,
  ⟨0xA00014, [(0x6, 0x10000), (0x7, 0x8)], 2, false, [⟨3, 0, .rw, .c 0⟩]⟩,
  ⟨0xA00060, [(0x6, 0x10000), (0x4, 0x4)], 0, false, [⟨15, 0, .rw, .among 1 [500, 2000, 5000, 20000]⟩]⟩,
  ⟨0xA00070, [(0x6, 0x10000)], 0, false, [⟨31, 31, .rw, .c 1⟩, ⟨30, 30, .rw, .c 0⟩, ⟨23, 8, .rw, .c 100⟩, ⟨7, 0, .rw, .c 20⟩]⟩,
  ⟨0xA00074, [(0x6, 0x10000)], 0, false, [⟨15, 0, .rw, .c 2000⟩]⟩,
  ⟨0xA00078, [(0x6, 0x10000)], 0, false, [⟨15, 0, .rw, .c 200⟩]⟩,
  ⟨0xA00080, [(0x6, 0x10000)], 0, false, [⟨31, 0, .rc, .c 0⟩]⟩,
  ⟨0xA00084, [(0x6, 0x10000)], 0, false, [⟨31, 0, .rc, .c 0⟩]⟩,
  ⟨0xA00088, [(0x6, 0x10000)], 0, false, [⟨31, 0, .rc, .c 0⟩]⟩,
  ⟨0xA0008C, [(0x6, 0x10000)], 0, false, [⟨31, 0, .rc, .c 0⟩]⟩,
  ⟨0xA00100, [(0x6, 0x10000), (0x40, 0x4)], 0, false, [⟨7, 0, .rw, .c 0⟩]⟩]

/-- Registers of the LANE block. -/
def rowsLane : List RegRow := [
  ⟨0xC00000, [(0x10, 0x20000), (0x11, 0x1000)], 0, false, [⟨31, 28, .rw, .equal 0 15 7 0⟩, ⟨7, 7, .wo, .c 0⟩, ⟨4, 4, .rw, .c 0⟩, ⟨3, 3, .rw, .c 0⟩, ⟨1, 1, .rw, .c 0⟩, ⟨0, 0, .rw, .c 0⟩]⟩,
  ⟨0xC00004, [(0x10, 0x20000), (0x11, 0x1000)], 0, false, [⟨31, 28, .ro, .c 0⟩, ⟨27, 24, .ro, .c 0⟩, ⟨7, 7, .ro, .c 0⟩, ⟨6, 6, .ro, .c 0⟩, ⟨5, 2, .ro, .c 0⟩, ⟨1, 1, .ro, .c 0⟩, ⟨0, 0, .ro, .c 0⟩]⟩,
  ⟨0xC00008, [(0x10, 0x20000), (0x11, 0x1000)], 0, false, [⟨9, 8, .rw, .c 0⟩, ⟨7, 0, .rw, .c 0⟩]⟩,
  ⟨0xC0000C, [(0x10, 0x20000), (0x11, 0x1000)], 0, false, [⟨31, 0, .rc, .c 0⟩]⟩,
  ⟨0xC00010, [(0x10, 0x20000), (0x11, 0x1000)], 0, false, [⟨31, 0, .rc, .c 0⟩]⟩,
  ⟨0xC00014, [(0x10, 0x20000), (0x11, 0x1000)], 0, false, [⟨31, 0, .rc, .c 0⟩]⟩,
  ⟨0xC00018, [(0x10, 0x20000), (0x11, 0x1000)], 0, false, [⟨31, 0, .rc, .c 0⟩]⟩,
  ⟨0xC00020, [(0x10, 0x20000), (0x11, 0x1000)], 0, false, [⟨31, 31, .w1c, .c 0⟩, ⟨20, 16, .rw, .c 8⟩, ⟨13, 8, .rw, .c 51⟩, ⟨4, 0, .rw, .c 4⟩]⟩,
  ⟨0xC00024, [(0x10, 0x20000), (0x11, 0x1000)], 0, false, [⟨31, 31, .rw, .c 0⟩, ⟨11, 8, .ro, .c 0⟩, ⟨3, 0, .ro, .c 0⟩]⟩,
  ⟨0xC00028, [(0x10, 0x20000), (0x11, 0x1000)], 0, false, [⟨27, 16, .ro, .c 0⟩, ⟨7, 0, .ro, .c 0⟩]⟩,
  ⟨0xC00030, [(0x10, 0x20000), (0x11, 0x1000)], 0, false, [⟨31, 31, .ro, .c 0⟩, ⟨1, 1, .rw, .c 0⟩, ⟨0, 0, .wo, .c 0⟩]⟩,
  ⟨0xC00034, [(0x10, 0x20000), (0x11, 0x1000)], 0, false, [⟨31, 16, .ro, .c 0⟩, ⟨15, 0, .ro, .c 0⟩]⟩]

/-- Registers of the FHM block. -/
def rowsFhm : List RegRow := [
  ⟨0xE01000, [(0x40, 0x100)], 0, false, [⟨31, 0, .rc, .c 0⟩]⟩,
  ⟨0xE01004, [(0x40, 0x100)], 0, false, [⟨31, 0, .rc, .c 0⟩]⟩,
  ⟨0xE01008, [(0x40, 0x100)], 0, false, [⟨31, 0, .rc, .c 0⟩]⟩,
  ⟨0xE0100C, [(0x40, 0x100)], 0, false, [⟨31, 0, .rc, .c 0⟩]⟩,
  ⟨0xE01010, [(0x40, 0x100)], 0, false, [⟨31, 0, .rc, .c 0⟩]⟩,
  ⟨0xE01014, [(0x40, 0x100)], 0, false, [⟨31, 0, .rc, .c 0⟩]⟩,
  ⟨0xE01018, [(0x40, 0x100)], 0, false, [⟨31, 0, .rc, .c 0⟩]⟩,
  ⟨0xE0101C, [(0x40, 0x100)], 0, false, [⟨31, 0, .rc, .c 0⟩]⟩,
  ⟨0xE08000, [(0x3, 0x100)], 1, false, [⟨31, 0, .rw, .c 0⟩]⟩,
  ⟨0xE08004, [(0x3, 0x100)], 2, false, [⟨31, 0, .rw, .c 0⟩]⟩,
  ⟨0xE08008, [(0x3, 0x100)], 0, false, [⟨3, 0, .rw, .c 0⟩]⟩,
  ⟨0xE0800C, [(0x3, 0x100)], 0, false, [⟨15, 0, .rw, .c 0⟩]⟩,
  ⟨0xE08010, [(0x3, 0x100)], 0, false, [⟨15, 0, .ro, .c 0⟩]⟩,
  ⟨0xE08014, [(0x3, 0x100)], 0, false, [⟨31, 0, .rc, .c 0⟩]⟩,
  ⟨0xE08018, [(0x3, 0x100)], 0, false, [⟨31, 0, .rc, .c 0⟩]⟩,
  ⟨0xE0801C, [(0x3, 0x100)], 0, false, [⟨31, 0, .rc, .c 0⟩]⟩,
  ⟨0xE08020, [(0x3, 0x100)], 0, false, [⟨15, 0, .rw, .c 0⟩]⟩,
  ⟨0xE09000, [(0x3, 0x80), (0x8, 0x10)], 1, false, [⟨31, 0, .rw, .c 0⟩]⟩,
  ⟨0xE09004, [(0x3, 0x80), (0x8, 0x10)], 2, false, [⟨31, 0, .rw, .c 0⟩]⟩,
  ⟨0xE09008, [(0x3, 0x80), (0x8, 0x10)], 1, false, [⟨31, 0, .rw, .c 0⟩]⟩,
  ⟨0xE0900C, [(0x3, 0x80), (0x8, 0x10)], 2, false, [⟨31, 0, .rw, .c 0⟩]⟩]

/-- Registers of the MRD block, part 1. -/
def rowsMrd1 : List RegRow := [
  ⟨0x1000000, [], 0, false, [⟨31, 0, .ro, .c 0⟩]⟩,
  ⟨0x1000004, [], 0, false, [⟨31, 0, .ro, .c 0⟩]⟩,
  ⟨0x1000008, [], 0, false, [⟨15, 0, .ro, .c 0⟩]⟩,
  ⟨0x100000C, [], 0, false, [⟨15, 0, .ro, .c 0⟩]⟩,
  ⟨0x1000010, [], 0, false, [⟨24, 24, .ro, .c 0⟩, ⟨15, 8, .ro, .c 0⟩, ⟨3, 0, .ro, .c 0⟩]⟩,
  ⟨0x1000014, [], 0, false, [⟨31, 0, .ro, .c 0⟩]⟩,
  ⟨0x1000018, [], 0, false, [⟨31, 0, .rc, .c 0⟩]⟩,
  ⟨0x100001C, [], 0, false, [⟨31, 0, .rc, .c 0⟩]⟩,
  ⟨0x1000020, [], 0, false, [⟨31, 0, .rw, .c 0⟩]⟩,
  ⟨0x1000024, [], 1, false, [⟨31, 0, .rw, .c 0⟩]⟩,
  ⟨0x1000028, [], 2, false, [⟨15, 0, .rw, .c 0⟩]⟩,
  ⟨0x100002C, [], 0, false, [⟨1, 1, .wo, .c 0⟩, ⟨0, 0, .wo, .c 0⟩]⟩,
  ⟨0x1000030, [], 1, false, [⟨31, 0, .rw, .c 0⟩]⟩,
  ⟨0x1000034, [], 2, false, [⟨31, 0, .rw, .c 0⟩]⟩,
  ⟨0x1000040, [], 0, false, [⟨31, 31, .rw, .c 0⟩, ⟨30, 30, .wo, .c 0⟩, ⟨3, 0, .rw, .c 0⟩]⟩,
  ⟨0x1000044, [], 0, false, [⟨31, 0, .rw, .c 29113⟩]⟩,
  ⟨0x1000048, [], 0, false, [⟨31, 0, .rw, .c 404⟩]⟩,
  ⟨0x100004C, [], 1, false, [⟨31, 0, .wo, .c 0⟩]⟩,
  ⟨0x1000050, [], 2, false, [⟨31, 0, .wo, .c 0⟩]⟩,
  ⟨0x1000054, [], 0, false, [⟨31, 0, .rw, .c 0⟩]⟩,
  ⟨0x1000058, [], 0, false, [⟨31, 0, .ro, .c 0⟩]⟩,
  ⟨0x100005C, [], 0, false, [⟨23, 16, .rw, .c 16⟩, ⟨15, 0, .rw, .c 100⟩]⟩,
  ⟨0x1000060, [], 0, false, [⟨31, 0, .rw, .c 1000⟩]⟩,
  ⟨0x1000064, [], 0, false, [⟨31, 0, .rw, .c 100000⟩]⟩]

/-- Registers of the MRD block, part 2. -/
def rowsMrd2 : List RegRow := [
  ⟨0x1000068, [], 0, false, [⟨31, 16, .rw, .c 60⟩, ⟨15, 0, .rw, .c 1000⟩]⟩,
  ⟨0x1000080, [], 1, false, [⟨31, 0, .rw, .c 0⟩]⟩,
  ⟨0x1000084, [], 2, false, [⟨31, 0, .rw, .c 0⟩]⟩,
  ⟨0x1000088, [], 0, false, [⟨3, 0, .rw, .c 8⟩]⟩,
  ⟨0x100008C, [], 0, false, [⟨15, 0, .ro, .c 0⟩]⟩,
  ⟨0x1000090, [], 0, false, [⟨15, 0, .rw, .c 0⟩]⟩,
  ⟨0x1000094, [], 0, false, [⟨31, 0, .rc, .c 0⟩]⟩,
  ⟨0x1000100, [(0x8, 0x20)], 0, false, [⟨31, 30, .rw, .c 0⟩, ⟨29, 29, .rw, .c 0⟩, ⟨28, 24, .rw, .c 0⟩, ⟨21, 8, .rw, .c 0⟩, ⟨4, 0, .ro, .c 0⟩]⟩,
  ⟨0x1000104, [(0x8, 0x20)], 0, false, [⟨31, 0, .rw, .c 0⟩]⟩,
  ⟨0x1000108, [(0x8, 0x20)], 0, false, [⟨31, 0, .ro, .c 0⟩]⟩,
  ⟨0x100010C, [(0x8, 0x20)], 1, false, [⟨31, 0, .ro, .c 0⟩]⟩,
  ⟨0x1000110, [(0x8, 0x20)], 2, false, [⟨15, 0, .ro, .c 0⟩]⟩,
  ⟨0x1000114, [(0x8, 0x20)], 0, false, [⟨15, 0, .ro, .c 0⟩]⟩,
  ⟨0x1000118, [(0x8, 0x20)], 0, false, [⟨31, 0, .wo, .c 0⟩]⟩,
  ⟨0x100011C, [(0x8, 0x20)], 0, false, [⟨31, 16, .rc, .c 0⟩, ⟨15, 0, .rc, .c 0⟩]⟩,
  ⟨0x1000200, [(0x4, 0x20)], 0, false, [⟨3, 3, .rw, .c 0⟩, ⟨2, 2, .rw, .c 0⟩, ⟨1, 0, .rw, .c 0⟩]⟩,
  ⟨0x1000204, [(0x4, 0x20)], 0, false, [⟨31, 0, .rw, .c 0⟩]⟩,
  ⟨0x1000208, [(0x4, 0x20)], 1, false, [⟨31, 0, .rw, .c 0⟩]⟩,
  ⟨0x100020C, [(0x4, 0x20)], 2, false, [⟨15, 0, .rw, .c 0⟩]⟩,
  ⟨0x1000210, [(0x4, 0x20)], 0, false, [⟨31, 0, .rw, .c 0⟩]⟩,
  ⟨0x1000214, [(0x4, 0x20)], 0, false, [⟨15, 0, .rw, .c 0⟩]⟩,
  ⟨0x1000218, [(0x4, 0x20)], 0, false, [⟨31, 0, .rw, .c 0⟩]⟩,
  ⟨0x1010000, [(0x180, 0x100)], 0, false, [⟨31, 31, .wo, .c 0⟩, ⟨30, 30, .w1c, .c 0⟩, ⟨29, 29, .ro, .c 0⟩, ⟨14, 8, .rw, .c 1⟩, ⟨1, 0, .rw, .c 0⟩]⟩,
  ⟨0x1010004, [(0x180, 0x100)], 0, false, [⟨31, 0, .rw, .c 0⟩]⟩]

/-- Registers of the MRD block, part 3. -/
def rowsMrd3 : List RegRow := [
  ⟨0x1010008, [(0x180, 0x100)], 0, false, [⟨31, 0, .rw, .c 0⟩]⟩,
  ⟨0x101000C, [(0x180, 0x100)], 0, false, [⟨31, 0, .rw, .c 0⟩]⟩,
  ⟨0x1010010, [(0x180, 0x100)], 0, false, [⟨31, 0, .rw, .c 0⟩]⟩,
  ⟨0x1010018, [(0x180, 0x100)], 1, false, [⟨31, 0, .rw, .c 0xFFFFFFFF⟩]⟩,
  ⟨0x101001C, [(0x180, 0x100)], 2, false, [⟨31, 0, .rw, .c 0xFFFFFFFF⟩]⟩,
  ⟨0x1010020, [(0x180, 0x100)], 1, false, [⟨31, 0, .rw, .c 0xFFFFFFFF⟩]⟩,
  ⟨0x1010024, [(0x180, 0x100)], 2, false, [⟨31, 0, .rw, .c 0xFFFFFFFF⟩]⟩,
  ⟨0x1010040, [(0x180, 0x100), (0x8, 0x10)], 0, false, [⟨31, 29, .rw, .c 0⟩, ⟨28, 27, .rw, .c 0⟩, ⟨26, 24, .rw, .c 0⟩, ⟨21, 8, .rw, .c 0⟩, ⟨4, 0, .rw, .c 0⟩]⟩,
  ⟨0x1010044, [(0x180, 0x100), (0x8, 0x10)], 0, false, [⟨31, 0, .rw, .c 0⟩]⟩,
  ⟨0x1010048, [(0x180, 0x100), (0x8, 0x10)], 0, false, [⟨5, 0, .rw, .c 0⟩]⟩]

/-- Registers of the MRD block. -/
def rowsMrd : List RegRow := rowsMrd1 ++ rowsMrd2 ++ rowsMrd3

/-- Registers of the TRL block. -/
def rowsTrl : List RegRow := [
  ⟨0x1100000, [], 0, false, [⟨31, 0, .ro, .c 0⟩]⟩,
  ⟨0x1100004, [], 0, false, [⟨31, 31, .wo, .c 0⟩, ⟨30, 30, .ro, .c 0⟩, ⟨29, 29, .rw, .c 0⟩, ⟨23, 16, .rw, .c 0⟩, ⟨15, 0, .rw, .c 8⟩]⟩,
  ⟨0x1100008, [], 0, false, [⟨31, 31, .ro, .c 0⟩, ⟨30, 30, .w1c, .c 0⟩, ⟨29, 29, .w1c, .c 0⟩, ⟨25, 24, .ro, .c 0⟩, ⟨15, 0, .ro, .c 0⟩]⟩,
  ⟨0x1100010, [], 0, false, [⟨31, 31, .w1c, .c 0⟩, ⟨30, 30, .w1c, .c 0⟩, ⟨15, 8, .ro, .c 0⟩, ⟨4, 0, .ro, .c 0⟩]⟩,
  ⟨0x1100014, [], 0, false, [⟨31, 0, .rc, .c 0⟩]⟩,
  ⟨0x1100018, [], 0, false, [⟨31, 0, .ro, .c 0⟩]⟩,
  ⟨0x110001C, [], 0, false, [⟨31, 0, .rc, .c 0⟩]⟩,
  ⟨0x1100100, [(0x8, 0x4)], 0, false, [⟨13, 0, .rw, .c 0⟩]⟩,
  ⟨0x1100200, [(0x4, 0x10)], 0, false, [⟨1, 0, .rw, .c 2⟩]⟩,
  ⟨0x1100204, [(0x4, 0x10)], 0, false, [⟨31, 31, .w1c, .c 0⟩]⟩,
  ⟨0x1100208, [(0x4, 0x10)], 1, false, [⟨31, 0, .ro, .c 0⟩]⟩,
  ⟨0x110020C, [(0x4, 0x10)], 2, false, [⟨15, 0, .ro, .c 0⟩]⟩,
  ⟨0x1100300, [(0x20, 0x8)], 0, false, [⟨31, 31, .rw, .c 0⟩, ⟨8, 0, .rw, .c 0⟩]⟩,
  ⟨0x1100304, [(0x20, 0x8)], 0, false, [⟨31, 0, .rc, .c 0⟩]⟩]

/-- Registers of the PWR block. -/
def rowsPwr : List RegRow := [
  ⟨0x1200000, [], 0, false, [⟨31, 31, .wo, .c 0⟩, ⟨30, 30, .ro, .c 0⟩, ⟨27, 24, .rw, .c 0⟩, ⟨15, 0, .rw, .c 0⟩]⟩,
  ⟨0x1200004, [], 0, false, [⟨31, 28, .ro, .c 0⟩, ⟨23, 20, .ro, .c 0⟩, ⟨19, 19, .ro, .c 0⟩, ⟨18, 18, .ro, .c 0⟩, ⟨15, 0, .ro, .c 0⟩]⟩,
  ⟨0x1200008, [], 0, false, [⟨15, 0, .rw, .c 10⟩]⟩,
  ⟨0x120000C, [], 0, false, [⟨9, 0, .ro, .c 880⟩]⟩,
  ⟨0x1200040, [(0xC, 0x4)], 0, false, [⟨31, 31, .rw, .c 0⟩, ⟨3, 0, .ro, .c 0⟩]⟩,
  ⟨0x1200100, [(0x50, 0x4)], 0, false, [⟨31, 31, .rw, .c 0⟩, ⟨3, 0, .ro, .c 1⟩]⟩]

/-- Registers of the RSV block. -/
def rowsRsv : List RegRow := [
  ⟨0x1300000, [], 0, false, [⟨31, 31, .ro, .c 0⟩, ⟨30, 30, .ro, .c 0⟩, ⟨0, 0, .rw, .c 0⟩]⟩,
  ⟨0x1300004, [], 0, false, [⟨31, 24, .rw, .c 64⟩, ⟨23, 16, .rw, .c 218⟩, ⟨15, 8, .rw, .c 51⟩, ⟨7, 0, .rw, .c 192⟩]⟩,
  ⟨0x1300008, [], 0, false, [⟨31, 16, .rw, .c 50⟩, ⟨15, 0, .rw, .c 20⟩]⟩,
  ⟨0x1300010, [], 1, false, [⟨31, 19, .rw, .c 0⟩, ⟨0, 0, .rw, .c 0⟩]⟩,
  ⟨0x1300014, [], 2, false, [⟨15, 0, .rw, .c 0⟩]⟩,
  ⟨0x1300020, [], 0, false, [⟨9, 0, .rw, .c 60⟩]⟩,
  ⟨0x1300024, [], 0, false, [⟨31, 16, .rw, .c 64⟩, ⟨15, 0, .rw, .c 16⟩]⟩,
  ⟨0x1300028, [], 0, false, [⟨27, 16, .rw, .c 25⟩, ⟨7, 0, .rw, .c 10⟩]⟩,
  ⟨0x130002C, [], 0, false, [⟨15, 0, .rw, .c 500⟩]⟩,
  ⟨0x1300040, [(0xC, 0x4)], 0, false, [⟨31, 31, .ro, .c 1⟩, ⟨30, 30, .ro, .c 0⟩, ⟨7, 0, .ro, .c 0⟩]⟩,
  ⟨0x1300080, [(0xC, 0x4)], 0, false, [⟨31, 0, .ro, .c 0x76543210⟩]⟩,
  ⟨0x13000C0, [(0xC, 0x4)], 0, false, [⟨7, 0, .w1c, .c 0⟩]⟩,
  ⟨0x1300100, [(0xC, 0x10)], 0, false, [⟨26, 16, .rw, .c 1600⟩, ⟨9, 0, .rw, .c 0⟩]⟩,
  ⟨0x1300104, [(0xC, 0x10)], 0, false, [⟨31, 31, .ro, .c 0⟩, ⟨30, 30, .ro, .c 0⟩, ⟨25, 16, .ro, .c 620⟩, ⟨9, 0, .ro, .c 880⟩]⟩,
  ⟨0x1300108, [(0xC, 0x10)], 0, false, [⟨7, 0, .ro, .c 0⟩]⟩,
  ⟨0x130010C, [(0xC, 0x10)], 0, false, [⟨31, 0, .rc, .c 0⟩]⟩,
  ⟨0x1300200, [(0x50, 0x4)], 0, false, [⟨31, 31, .ro, .c 0⟩, ⟨7, 0, .ro, .lin 0 1⟩]⟩,
  ⟨0x1300400, [(0x4, 0x4)], 0, false, [⟨31, 0, .rc, .c 0⟩]⟩,
  ⟨0x1300410, [], 0, false, [⟨31, 31, .ro, .c 0⟩, ⟨24, 16, .ro, .c 0⟩, ⟨7, 4, .ro, .c 0⟩, ⟨3, 0, .ro, .c 0⟩]⟩,
  ⟨0x1300414, [], 0, false, [⟨31, 0, .ro, .c 0⟩]⟩,
  ⟨0x1300800, [(0x117, 0x4)], 0, false, [⟨9, 0, .ro, .c 0⟩]⟩]

/-- Registers of the CEN block. -/
def rowsCen : List RegRow := [
  ⟨0x1400000, [], 0, false, [⟨31, 31, .rw, .c 0⟩, ⟨30, 30, .wo, .c 0⟩, ⟨16, 16, .rw, .c 0⟩, ⟨9, 0, .rw, .c 0⟩]⟩,
  ⟨0x1400004, [], 0, false, [⟨23, 0, .rw, .c 1000⟩]⟩,
  ⟨0x1400008, [], 1, false, [⟨31, 0, .rw, .c 0⟩]⟩,
  ⟨0x140000C, [], 2, false, [⟨31, 0, .rw, .c 0⟩]⟩,
  ⟨0x1400010, [], 0, false, [⟨5, 0, .rw, .c 16⟩]⟩,
  ⟨0x1400014, [], 0, false, [⟨31, 0, .ro, .c 0⟩]⟩,
  ⟨0x1400018, [], 0, false, [⟨31, 0, .rw, .c 0⟩]⟩,
  ⟨0x140001C, [], 0, false, [⟨31, 0, .rc, .c 0⟩]⟩,
  ⟨0x1400020, [], 0, false, [⟨31, 0, .rc, .c 0⟩]⟩,
  ⟨0x1400024, [], 0, false, [⟨31, 31, .ro, .c 0⟩, ⟨30, 0, .ro, .c 0⟩]⟩]

/-- Registers of the SEC block. -/
def rowsSec : List RegRow := [
  ⟨0x1500000, [], 0, false, [⟨31, 31, .ro, .c 0⟩, ⟨30, 30, .w1c, .c 0⟩, ⟨29, 29, .ro, .c 0⟩, ⟨19, 16, .ro, .c 0⟩, ⟨7, 0, .ro, .c 0⟩]⟩,
  ⟨0x1500008, [], 1, false, [⟨31, 0, .ro, .c 0⟩]⟩,
  ⟨0x150000C, [], 2, false, [⟨31, 0, .ro, .c 0⟩]⟩,
  ⟨0x1500010, [], 0, false, [⟨5, 0, .ro, .c 0⟩]⟩,
  ⟨0x1500014, [], 0, false, [⟨3, 0, .ro, .c 0⟩]⟩,
  ⟨0x1500040, [(0x8, 0x40)], 0, false, [⟨31, 0, .ro, .c 0⟩]⟩,
  ⟨0x1500044, [(0x8, 0x40)], 0, false, [⟨2, 2, .ro, .c 0⟩, ⟨1, 1, .ro, .c 0⟩, ⟨0, 0, .ro, .c 0⟩]⟩,
  ⟨0x1500048, [(0x8, 0x40), (0xC, 0x4)], 0, false, [⟨31, 0, .ro, .c 0⟩]⟩,
  ⟨0x1500300, [], 0, false, [⟨31, 31, .ro, .c 0⟩, ⟨1, 0, .rw, .c 0⟩]⟩,
  ⟨0x1500304, [], 0, false, [⟨31, 31, .wo, .c 0⟩, ⟨30, 30, .wo, .c 0⟩, ⟨29, 29, .wo, .c 0⟩, ⟨28, 27, .wo, .c 0⟩, ⟨26, 23, .wo, .c 0⟩, ⟨17, 8, .wo, .c 0⟩, ⟨7, 0, .wo, .c 0⟩]⟩,
  ⟨0x1500308, [], 0, false, [⟨31, 0, .rw, .c 0⟩]⟩,
  ⟨0x150030C, [], 0, false, [⟨31, 31, .ro, .c 0⟩]⟩,
  ⟨0x1500400, [(0x40, 0x4)], 0, false, [⟨31, 0, .rw, .c 0⟩]⟩]

/-- Registers of the PCIE block. -/
def rowsPcie : List RegRow := [
  ⟨0x1600010, [], 1, true, [⟨31, 12, .rw, .c 0⟩]⟩,
  ⟨0x1600014, [], 2, true, [⟨31, 0, .rw, .c 0⟩]⟩]

/-- Registers of the NWB block. -/
def rowsNwb : List RegRow := [
  ⟨0x1700000, [], 0, false, [⟨31, 31, .ro, .c 0⟩, ⟨30, 30, .ro, .c 0⟩, ⟨29, 29, .ro, .c 0⟩, ⟨28, 28, .ro, .c 0⟩, ⟨15, 0, .ro, .c 0⟩]⟩,
  ⟨0x1700004, [], 0, false, [⟨1, 1, .w1s, .c 0⟩, ⟨0, 0, .rw, .c 0⟩]⟩,
  ⟨0x1700008, [], 0, false, [⟨3, 3, .w1c, .c 0⟩, ⟨2, 2, .w1c, .c 0⟩, ⟨1, 1, .w1c, .c 0⟩, ⟨0, 0, .w1c, .c 0⟩]⟩,
  ⟨0x1700010, [], 0, false, [⟨5, 0, .wo, .c 0⟩]⟩,
  ⟨0x1700014, [], 0, false, [⟨5, 0, .rc, .c 0⟩]⟩,
  ⟨0x1700100, [(0x10, 0x4)], 0, false, [⟨31, 0, .rw, .c 0⟩]⟩,
  ⟨0x1700200, [(0x10, 0x4)], 0, false, [⟨31, 0, .ro, .c 0⟩]⟩]

/-- The registers of the block in which an offset of CSR space lies (R19). -/
def rowsAt (off : Nat) : List RegRow :=
  match off / 0x100000 with
  | 0 => rowsSys
  | 1 => rowsMbx
  | 2 => rowsCm
  | 4 => rowsDspc
  | 6 => rowsEng
  | 7 => rowsNfe
  | 8 => rowsDct
  | 9 => rowsMem
  | 10 => rowsDmc
  | 12 => rowsLane
  | 14 => rowsFhm
  | 16 => rowsMrd
  | 17 => rowsTrl
  | 18 => rowsPwr
  | 19 => rowsRsv
  | 20 => rowsCen
  | 21 => rowsSec
  | 22 => rowsPcie
  | 23 => rowsNwb
  | 13 => rowsLane
  | _ => []

/-- The instance indices of an offset within a register's dimensions, or none where it lies between instances. -/
def instIdx : List (Nat × Nat) → Nat → Option (List Nat)
  | [], r => if r = 0 then some [] else none
  | (n, st) :: ds, r =>
    let i := r / st
    if i < n then
      match instIdx ds (r - i * st) with
      | some l => some (i :: l)
      | none => none
    else none

/-- The register and instance at an offset among given rows. -/
def findIn : List RegRow → Nat → Option (RegRow × List Nat)
  | [], _ => none
  | row :: rs, off =>
    if off < row.base then findIn rs off
    else
      match instIdx row.dims (off - row.base) with
      | some ix => some (row, ix)
      | none => findIn rs off

/-- The register and instance at an offset of CSR space. The slot of PG15.L16 is a reserved offset (R19). -/
def findReg (off : Nat) : Option (RegRow × List Nat) :=
  if 0xDF0000 ≤ off ∧ off < 0xDF1000 then none else findIn (rowsAt off) off

/-- A Reset value for given instance indices. -/
def Rst.val (ix : List Nat) : Rst → Nat
  | .c n => n
  | .isZero d => bn (nth 0 ix d == 0)
  | .lin a b => a + b * nth 0 ix 0
  | .below d lim a b => if nth 0 ix d < lim then a else b
  | .equal d x a b => if nth 0 ix d = x then a else b
  | .among d l => nth 0 l (nth 0 ix d)

/-- The Reset value of a register. -/
def RegRow.reset (row : RegRow) (ix : List Nat) : Nat :=
  row.fields.foldl (fun v f => setFld v f.hi f.lo (f.rst.val ix)) 0

/-- What an unlisted register holds: its Reset value; an offset without a register holds zero (R5). -/
def regDefault (off : Nat) : Word :=
  match findReg off with
  | some (row, ix) => BitVec.ofNat 32 (row.reset ix)
  | none => 0

end Sys2Proof.Machine
end

