-- ==== Sys2Proof/Machine/State.lean ====
section
/-! DEFINITION. The state of the TH9600 as plain data: every register, buffer, queue, counter and mode the specification
gives it, the queue of waiting commands, and the state right after reset. -/

namespace Sys2Proof.Machine

/-- Why a command stops the machine. -/
inductive Fault
  /-- A command names a unit, ring or field value that the device does not have (WellFormed refuses it). Raised by every
  meaning with operands of limited range; safe: no such command can reach the hardware. -/
  | noSuchUnit
  deriving DecidableEq, Repr

/-- Why a command has no meaning. -/
inductive Refusal
  /-- The command has no meaning yet; raised by the arms of `exec` that name their mnemonic. Safe. -/
  | notModelled (mnemonic : String)
  deriving DecidableEq, Repr

/-! ### Memory (chapter 9) -/

/-- Every byte the device keeps, and what protects it. -/
structure MemState where
  dev : List (Nat × Byte)          -- device addresses (R17); an unlisted byte is zero (R296, R297, R112)
  host : List (Nat × Byte)         -- host memory as the device meets it on PCIe; an unlisted byte is zero
  valid : List Nat                 -- valid 64-byte lines of cellar and cluster-shared memory, by line number (R296)
  vmap : List Nat                  -- DRAM regions of 64 KiB whose bit is 1 (R297)
  err : List (Nat × List Nat)      -- words (SRAM) or lines (DRAM) in error, by address: the flipped bits of the code word (R290, R295)
  bank : List (Nat × Nat)          -- address bank to physical bank, where a spare serves (R289)
  copy : List (Nat × Nat)          -- bank copies under way: old bank, spare (R289); the spare's poison list is the uncorrectable words of `err` that lie in the bank it serves
  saved : Option (List Nat × Nat)  -- the valid map saved for DEEP or a warm reset, and its CRC-32 (R297)
  deriving DecidableEq, Repr

/-- Memory after payload cold reset: nothing listed. -/
def MemState.reset : MemState :=
  { dev := [], host := [], valid := [], vmap := [], err := [], bank := [], copy := [],
    saved := none }

/-- A write that waits in a DRAM channel's queue (R309, R310). -/
structure QWrite where
  line : Nat                       -- the line's device address
  cls : Nat                        -- its service class
  since : Nat                      -- when it entered, in counter-clock time
  whole : Bool                     -- it covers the line
  passed : Nat                     -- requests to open rows that have been issued past it
  deriving DecidableEq, Repr

/-- A DRAM channel's state beside its registers. -/
structure DmcState where
  due : Bool                       -- a retraining is due and awaits a gap (R313)
  fails : Nat                      -- replays in a row that have failed (R312)
  trained : Bool                   -- training values are held in retention flops (R315)
  refreshes : Nat                  -- refreshes issued (R311)
  retrains : Nat                   -- retraining pauses made
  pause : Nat                      -- the counter-clock time at which the last pause ends (R313)
  writes : List QWrite             -- the write queues of both subchannels, oldest first (R309)
  rows : List (List Bool × Nat)    -- the open row of each bank, by its selectors (R308)
  retry : List (Nat × Nat × Bool)  -- the retry buffer: time, line, and whether a write, latest first (R312)
  alert : Nat                      -- when the alert came
  deriving DecidableEq, Repr

/-- A DRAM channel after payload cold reset. -/
def DmcState.reset : DmcState :=
  { due := false, fails := 0, trained := false, refreshes := 0, retrains := 0, pause := 0, writes := [], rows := [], retry := [],
    alert := 0 }

/-! ### A Pozel core (chapters 4 and 5) -/

/-- `CSTAT.STATE` (R149). -/
inductive CoreSt | waiting | running | stopping | halted | clearing | off
  deriving DecidableEq, Repr

/-- A register a Pozel operation writes, by physical number. -/
inductive PReg
  | d (n : Nat) | a (n : Nat) | b (n : Nat) | l (n : Nat) | m (n : Nat) | p (n : Nat) | v (n : Nat)
  | cr (n : Nat)            -- a control register written by MVC, by CR number (R159)
  | flags                   -- flags to OR into SR (R160)
  | hr                      -- a headroom to merge into BXR.HR (R178)
  | bscale                  -- the BXR value that BSCALE computed (R179)
  deriving DecidableEq, Repr

/-- A result on its way to a register: it lands so that bundle `land` and later read it (R122). -/
structure Flight where
  land : Nat
  seq : Nat                 -- the bundle that issued it (R123)
  mac : Option Nat          -- the slot, for a MAC result (R125)
  reg : PReg
  val : Nat
  deriving DecidableEq, Repr

/-- A write-buffer entry: bytes within one aligned 128-byte block (R143). -/
structure WbEntry where
  block : Nat
  bytes : List (Nat × Byte)     -- by address, rising
  csr : Bool                    -- a store to CSR space, which never merges
  issued : Bool                 -- has begun to issue
  addr : Nat                    -- its first store's address, for a DEFERRED record
  esz : Nat
  merged : List (Nat × Nat × Nat)   -- the stores that it holds, oldest first: address, bytes here, element size
  deriving DecidableEq, Repr

/-- Why a core is frozen (R126, R143 to R145). -/
inductive Freeze
  | none
  | pmMiss (addr : Nat)         -- the word that missed, until PM_MISS_FILL (R113)
  | load (words : List (Nat × Nat))     -- the bundle's words and their addresses, until LOAD_DATA_RETURN (R126)
  | wbOverlap                   -- a load overlaps a buffered store (R144)
  | wbFull                      -- the write buffer is full (R143)
  | preDrain (submit : Bool)    -- drains before a POST or a SUBMIT issues
  | drainSync | drainPost (grp flags : Nat) | drainSubmit (dreg : Nat) (words : List Word) | drainDone (ust : Nat)
  | drainUnit                   -- drains before its unit fault is told (R141)
  | submitHeld (dreg : Nat)     -- the descriptor is held at the core's submit port (R89)
  deriving DecidableEq, Repr

/-- What the MACs of a slot see in a register as their accumulator: the last write to it, with those MACs taken as of latency 1;
`land` and `seq` order it among the writes (R123, R125). -/
structure Chain where
  slot : Nat
  reg : PReg
  val : Nat
  land : Nat
  seq : Nat
  deriving DecidableEq, Repr

/-- A core fault on its way to the fault registers (R140, R149). -/
structure CoreFault where
  kind : Nat
  slot : Nat
  addr : Nat
  esz : Nat
  write : Bool
  deferred : Bool
  deriving DecidableEq, Repr

/-- One logical core: CSTAT, the registers of R118, the pipeline, the write buffer and PM. -/
structure CoreState where
  st : CoreSt
  slot : Nat                        -- slot of the running task
  pc : Nat
  d : List (Nat × DReg)             -- physical registers
  a : List (Nat × AReg)
  b : List (Nat × AReg)
  l : List (Nat × BitVec 24)
  m : List (Nat × BitVec 32)
  p : BitVec 8                      -- P1 to P7 in bits 1 to 7
  v : List (Nat × VReg)             -- F registers are their low 64 bits (R120)
  sr : Word
  rrb : BitVec 4
  bxr : Word
  amode : BitVec 16
  ls : List (Nat × AReg)
  le : List (Nat × AReg)
  lc : List (Nat × Word)
  rot : List Nat                    -- the levels that LOOP.ROT pushed (R132)
  ldepth : Nat
  cyc : Nat
  cycHi : Option Word               -- latched by a read of CYC_LO (R159)
  n : Nat                           -- bundles issued in the task
  flight : List Flight
  chain : List Chain
  ds : Nat                          -- delay slots still to issue (R128)
  target : Nat
  rpt : Nat                         -- repetitions of the next bundle still to issue (R129)
  lend : Option (Nat × Nat)         -- the words of an RPT bundle that ends a loop body: the loop goes on after the repetitions (R130)
  dint : Nat                        -- bundles left in the DINT window (R134)
  dintRpt : Bool                    -- the window has held an RPT
  freeze : Freeze
  wb : List WbEntry                 -- oldest first
  wbPend : Option (Nat × Nat)       -- a failed store awaiting its DEFERRED fault: address, element size (R142)
  cancel : Bool                     -- CANCEL raised (R133)
  stall : Nat                       -- the Census counter of the frozen cycles before the next bundle (R513)
  mpu : List (Nat × Nat)            -- base and limit words in force since the task start (R149)
  pmWays : Nat                      -- locked ways in force (R114)
  pmBase : Nat
  pm : List (Nat × List Byte)       -- lines present in unlocked ways, oldest first (R113)
  lost : List Nat                   -- DRAM channels that failed while the loads of a frozen bundle waited (R312)
  deriving DecidableEq, Repr

/-- A core at payload reset: X and Y are being cleared, and every register without a reset value is zero. -/
def CoreState.reset : CoreState :=
  { st := .clearing, slot := 0, pc := 0, d := [], a := [], b := [], l := [], m := [], p := 1, v := [], sr := 0, rrb := 0,
    bxr := 0x1F, amode := 0, ls := [], le := [], lc := [], rot := [], ldepth := 0, cyc := 0, cycHi := none, n := 0,
    flight := [], chain := [], ds := 0, target := 0, rpt := 0, lend := none, dint := 0, dintRpt := false, freeze := .none, wb := [],
    wbPend := none, cancel := false, stall := 11, mpu := [], pmWays := 0, pmBase := 0, pm := [], lost := [] }

/-! ### A channel engine or FSK engine as a task's unit (chapters 6 and 7) -/

/-- `ENG[e].STAT.STATE` (R220). -/
inductive EngSt | idle | running | stopping | sleep | off | isolated
  deriving DecidableEq, Repr

/-- A job from its descriptor read to the hand-over of its end (R182 to R189). -/
structure EngJob where
  ran : Bool                 -- inputs read, outputs written
  summary : Nat              -- R186
  detail : Nat
  progress : Nat
  r0 : Nat
  r1 : Nat
  r2 : Nat
  faultAddr : Nat
  statusAddr : Nat
  next : Option Nat          -- address of the follow-on task descriptor
  nextHandle : Nat
  held : Bool                -- the follow-on submission is held at the engine port (R89)
  submitted : Bool
  start : Nat                -- counter-clock time of the job start, in 2^-32 ns
  out : Option (Nat × List Byte × Bool)   -- output written when the job finishes: where, what, and whether RESULT0[11] shows it (R200, R201)
  deriving DecidableEq, Repr

/-- A job of which nothing is known yet. -/
def EngJob.reset : EngJob :=
  { ran := false, summary := 0, detail := 0, progress := 0, r0 := 0, r1 := 0, r2 := 0, faultAddr := 0, statusAddr := 0, next := none,
    nextHandle := 0xFFFFFFFF, held := false, submitted := false, start := 0, out := none }

/-- One logical engine, numbered as R181 numbers them. -/
structure EngState where
  st : EngSt
  slot : Nat
  job : Option EngJob
  deriving DecidableEq, Repr

/-- An engine after payload reset: idle. -/
def EngState.reset : EngState := { st := .idle, slot := 0, job := none }

/-! ### The narrowband FSK engines (chapter 7) -/

/-- Where a burst stands (R245, R250). -/
inductive BurstPhase | fresh | scheduled | up | ended
  deriving DecidableEq, Repr

/-- One of the 64 burst contexts of an NFE (R221, R244). -/
structure BurstCtx where
  slot : Nat
  job : EngJob
  phase : BurstPhase
  disp : Nat                -- its dispatch, in Meridian ns
  desc : List Byte          -- the descriptor as read, ARG added; empty before its read
  prof : List Byte          -- the profile record in force at its dispatch
  start : Nat               -- START in Meridian ns
  stop : Nat                -- the end of its interval in ns
  stopAt : Option Nat       -- a cancel has committed: when, in ns
  sat : Bool                -- an output sample to which it contributed has saturated (R246)
  turn0 : Nat               -- its phase at START, in 2^-32 turns, which nothing states
  data : List Byte
  deriving DecidableEq, Repr

/-- The state of a receive channel (R233). -/
inductive RxPhase | search | sync | receive
  deriving DecidableEq, Repr

/-- A detection: its profile, its RSSI in 0.5 dB and the NCO's total in 2^-20 Hz (R237, R239). -/
structure Detect where
  profile : Nat
  rssi : Int
  nco : Int
  deriving DecidableEq, Repr

/-- One receive channel. -/
structure RxChan where
  phase : RxPhase
  det : Detect              -- of the packet held
  second : List Detect      -- second preambles awaiting their decision, oldest first (R235)
  trkLimit : Bool
  fec : Bool
  time : Nat                -- of the end of the SFD or sync, in ns
  hdr : Nat                 -- the PHR or the length field as decided; 2^16 = not decided yet
  bits : List Bool          -- decided behind the SFD or sync word, as far as the header was looked for in them
  errs : List Int           -- frequency errors since the last tracking update, in 1/1024 Hz (R238)
  errSq : Nat               -- the sum of the squares of every error of the packet (R240)
  errN : Nat                -- how many there are
  off : Nat                 -- data-ring offset reserved (R241)
  res : Nat                 -- bytes reserved
  noRoom : Bool             -- the data ring had no room for the reservation
  blanked : Bool            -- bursts suspend the channel (R248)
  resume : Nat              -- the end of the suspension in ns, once no burst is up; 0 while one is
  deriving DecidableEq, Repr

/-- A reception that has ended and awaits its report (R241, R242). -/
structure RxPkt where
  status : Nat
  channel : Nat
  rflags : Nat
  lqi : Nat
  rssi : Int
  fev : Nat
  fofs : Int
  length : Nat
  data : List Byte
  off : Nat                 -- data-ring offset reserved
  res : Nat                 -- bytes reserved
  time : Nat
  deriving DecidableEq, Repr

/-- One logical NFE. -/
structure NfeState where
  st : EngSt                -- idle, running, sleep, off or isolated
  plan : List Byte          -- the plan block in force; empty = none
  ctx : List (Nat × Option BurstCtx)
  chans : List (Nat × RxChan)
  done : List RxPkt         -- oldest first
  seq : Nat
  rxdRes : Nat              -- data-ring bytes reserved so far, modulo 2^32
  deriving DecidableEq, Repr

/-- An NFE after payload reset: no plan. -/
def NfeState.reset : NfeState :=
  { st := .idle, plan := [], ctx := [], chans := [], done := [], seq := 0, rxdRes := 0 }

/-- A channel that searches. -/
def RxChan.reset : RxChan :=
  { phase := .search, det := ⟨0, 0, 0⟩, second := [], trkLimit := false, fec := false, time := 0, hdr := 0, bits := [], errs := [],
    errSq := 0, errN := 0, off := 0, res := 0, noRoom := false,
    blanked := false, resume := 0 }

/-! ### A Decant channel (chapter 8): what its registers do not show -/

/-- How far the descriptor in service has come (R273): `ready` once it has been read and until its transfer is whole. -/
inductive DctPhase
  | idle | fetch | ready | moved | failed | held | submitted | isolated
  deriving DecidableEq, Repr

/-- A channel's hidden state; its STAT, CUR, DONE, REMAIN, ERRADDR and INDEX are registers. -/
structure DctChan where
  phase : DctPhase
  slot : Option Nat          -- the class 43 task in service (R258)
  arg : Nat                  -- ARG of the task; zero in firmware chains (R260)
  desc : List Byte           -- the descriptor in service as read, ARG added (R260); empty before its read
  eng : Bool                 -- it holds a read engine, and a write engine with it (R257)
  run : Nat                  -- source bytes since its read engine was given to it, modulo 64 KiB (R286)
  issued : Nat               -- source reads issued, or list entries processed
  passed : Nat               -- source bytes whose destination writes have been issued (R284)
  staged : List (Option Byte) -- source bytes behind them in staging (R257), none where a read failed
  wrote : Nat                -- destination bytes written
  last : Option Nat          -- the last destination byte written (R275)
  summary : Nat              -- how the descriptor in service will end (R281)
  cause : Nat
  dofs : Nat
  errAddr : Nat
  start : Nat                -- counter-clock ns of the descriptor's fetch (R512)
  warn : Bool                -- some descriptor of the chain ended OK_WARN
  abort : Bool               -- an abort has committed first (R284)
  deriving DecidableEq, Repr

/-- A channel after payload reset. -/
def DctChan.reset : DctChan :=
  { phase := .idle, slot := none, arg := 0, desc := [], eng := false, run := 0, issued := 0, passed := 0, staged := [], wrote := 0, last := none,
    summary := 0, cause := 0, dofs := 0, errAddr := 0, start := 0, warn := false,
    abort := false }

/-! ### Serial lanes, fronthaul and Tether (chapter 10) -/

/-- A link of one or more lanes, as LANE.CONFIG KIND 0 made it (R356). -/
structure LinkCfg where
  group : Nat
  first : Nat
  lanes : Nat
  mode : Nat
  port : Nat                 -- port, or Tether link 0 to 2; 0xFF = none
  mult : Nat
  div : Nat
  trate : Nat
  tlId : Nat
  deriving DecidableEq, Repr

/-- A lane beside its registers. -/
structure LaneState where
  own : Nat                  -- the stage the lane works on; 10 once the condition of stage 9 is met (R324)
  timeouts4 : Nat            -- stage-4 timeouts in a row while frozen (R333)
  slip : Nat                 -- the raw word boundary, in UI from where CDR lock left it (R329)
  skip : Bool                -- the word that contains a shift has not come yet: it is discarded (R329)
  cdr : Bool                 -- clock and data recovery locked (R324)
  marked : Option Nat        -- Tether: the peer lane that a marker named in stage 7 or since (R326)
  eyeN : Nat                 -- eye measures of the hour, their sums, and low hourly means in a row (R334, R435)
  eyeH : Nat
  eyeV : Nat
  eyeLow : Nat
  retry : Nat                -- counts since the previous LANE.STATUS (R357)
  errs : Nat
  fecC : Nat
  fecU : Nat
  deriving DecidableEq, Repr

/-- A lane that is OFF. -/
def LaneState.reset : LaneState :=
  { own := 0, timeouts4 := 0, slip := 0, skip := false, cdr := false, marked := none, eyeN := 0, eyeH := 0, eyeV := 0, eyeLow := 0,
    retry := 0, errs := 0, fecC := 0, fecU := 0 }

/-- A fronthaul port, as LANE.CONFIG KIND 1 made it (R337, R356). -/
structure PortCfg where
  transport : Nat
  vlan : Nat
  staticW : Nat
  localMac : Nat
  peerMac : Nat
  udp : Nat
  localIp : Nat
  peerIp : Nat
  deriving DecidableEq, Repr

/-- A fronthaul stream, as LANE.CONFIG KIND 2 bound it (R339, R356). -/
structure StreamCfg where
  port : Nat
  dir : Nat
  ident : Nat
  use : Nat
  carrier : Nat              -- the carrier, or the FS code
  ant : Nat                  -- the antenna, or SPM
  mac : Nat
  offset : Int
  deriving DecidableEq, Repr

/-- A receive window of a carrier's symbol (R340): what has landed. -/
structure RxWindow where
  carrier : Nat
  symbol : Nat               -- symbol count of the carrier, as the timeline numbers it
  landed : List (Nat × Nat)  -- (stream, PRB) landed, without repeats
  posted : Bool              -- complete: the arrival flag has been posted
  deriving DecidableEq, Repr

/-- A Tether frame sent and not yet acknowledged (R348). -/
structure TFrame where
  seq : Nat
  ftype : Nat
  addr : Nat                 -- remote address, or event group
  bytes : List Byte          -- written data, or the flags
  entry : Nat                -- the request entry it belongs to, by ring index
  off : Nat                  -- its offset in the entry
  resends : Nat
  deriving DecidableEq, Repr

/-- A Tether request entry under way (R354). -/
structure TEntry where
  idx : Nat
  op : Nat
  len : Nat
  src : Nat
  dst : Nat
  rgrp : Nat
  rflags : Nat
  lgrp : Nat
  lflag : Nat
  sent : Nat                 -- bytes sent in frames
  done : Nat                 -- bytes acknowledged
  posted : Bool              -- the POST frame has been sent
  status : Nat               -- 0 while under way
  deriving DecidableEq, Repr

/-- What a Tether transmitter's line coding keeps (R346, R351). -/
structure LineSt where
  blk : Nat                  -- the lane of the next block
  scr : List (Nat × BitVec 58)   -- the scrambler of each lane
  bip : List (Nat × BitVec 8)    -- BIP-8 of each lane since its previous marker
  deriving DecidableEq, Repr

/-- Nothing sent yet. -/
def LineSt.reset : LineSt := { blk := 0, scr := [], bip := [] }

/-- One Tether link (R346 to R354). -/
structure TetherState where
  up : Bool
  initRx : Bool              -- INIT received
  initTx : Bool              -- INIT sent
  rxNext : Nat               -- SEQ expected
  nak : Bool                 -- a NAK is owed
  refused : Option Nat       -- a refusal to report
  wFreed : Nat               -- credits this end has given, cumulative
  eFreed : Nat
  txNext : Nat
  wGiven : Nat               -- credits the peer has given, cumulative
  eGiven : Nat
  wSpent : Nat
  eSpent : Nat
  flight : List TFrame       -- the replay buffer, oldest first
  entries : List TEntry      -- oldest first
  taken : Nat                -- ring index of the next entry to read
  stall : Nat                -- ticks stalled for credits since CREDIT_STALL was last read
  line : LineSt
  deriving DecidableEq, Repr

/-- A Tether link that is down. -/
def TetherState.reset : TetherState :=
  { up := false, initRx := false, initTx := false, rxNext := 0, nak := false, refused := none, wFreed := 0, eFreed := 0,
    txNext := 0, wGiven := 0, eGiven := 0, wSpent := 0, eSpent := 0, flight := [], entries := [], taken := 0, stall := 0, line := .reset }

/-- Where an inbound time-domain stream stands (R342). -/
structure TdIn where
  frame : Nat                -- the 10 ms frame of Meridian time to which the last message belongs
  seq : Nat                  -- its number in that frame
  lost : Nat                 -- samples lost before it and not yet reported to the NFE (R223)
  samples : List (BitVec 32) -- its samples, C16
  deriving DecidableEq, Repr

/-- Lanes, ports, streams, windows, Tether links and the frames handed to firmware. -/
structure FrontState where
  lanes : List (Nat × LaneState)            -- by group × 17 + lane
  links : List LinkCfg
  ports : List (Nat × Option PortCfg)
  streams : List (Nat × Option StreamCfg)
  windows : List RxWindow                   -- open windows
  missing : List (Nat × Nat)                -- PRBs zero-filled per carrier since its start (R60)
  tdNext : List (Nat × Nat)                 -- per outbound time-domain stream: the next message, frame × messages per frame + number
  td : List (Nat × Option TdIn)             -- per inbound time-domain stream
  inbox : List (Nat × List Byte)            -- frames and messages passed to firmware: port, bytes
  tether : List (Nat × TetherState)
  deriving DecidableEq, Repr

/-- The fronthaul side after payload reset. -/
def FrontState.reset : FrontState :=
  { lanes := [], links := [], ports := [], streams := [], windows := [], missing := [], tdNext := [], td := [],
    inbox := [], tether := [] }

/-! ### Meridian time (chapter 11) -/

/-- A pulse output as its last commit left it (R375, R376). -/
structure PulseOut where
  mode : Nat
  pol : Bool
  qual : Bool
  start : Nat                 -- in 2^-16 ns
  period : Nat                -- in 2^-16 ns
  width : Nat                 -- in ns
  next : Nat                  -- k of the next edge
  fall : Option (Nat × Bool)  -- a pulse in progress: when it ends, in 2^-16 ns, and the level it falls to
  deriving DecidableEq, Repr

/-- An output that is OFF. -/
def PulseOut.reset : PulseOut :=
  { mode := 0, pol := false, qual := false, start := 0, period := 0, width := 0, next := 0, fall := none }

/-- A timeline beside its page (R380 to R383). -/
structure TlState where
  fromFrame : Nat             -- the first carrier frame whose events it drives
  versions : List (Nat × List (Nat × Word))  -- settings in force before a frame: frame, register values by page offset
  fired : List (Nat × Nat)    -- per rule, one more than the last event fired (its boundary index)
  last : Nat × Nat            -- when the last event of any rule fell, in 2^-32 ns, and the rule
  deriving DecidableEq, Repr

/-- A timeline that has never been armed. -/
def TlState.reset : TlState := { fromFrame := 0, versions := [], fired := [], last := (0, 0) }

/-- The servo settings that a timing frame carries (R384). -/
structure ServoSet where
  servo : Word
  kp : Word
  ki : Word
  lock : Word
  unlock : Word
  stepNs : Word
  hold : Word
  favg : Word
  freq : Word
  deriving DecidableEq, Repr

/-- Meridian beside its registers. -/
structure MrdState where
  time : Nat                  -- the counter, in 2^-32 ns (R363)
  run : Bool                  -- stopped only in DEEP and OFF (R364)
  integ : Int                 -- the integrator I, in 2^-32 ppb (R369)
  window : List (Nat × Int)   -- LOCKED samples: time in ns and FREQ, newest first (R371)
  theta : Int                 -- the last θ, in 2^-16 ns
  hostSrc : Bool              -- TIME.SET chose the host as source (R387, R388)
  lastCap : List (Nat × Nat)  -- per input, time in ns of its last sample plus one (R374)
  lastEdge : List (Nat × Nat) -- per input, time in ns of its last edge plus one (R373)
  caps : List (Nat × List Nat)-- per input, the stamps held, oldest first, in 2^-16 ns
  outs : List (Nat × PulseOut)
  tl : List (Nat × TlState)
  deriving DecidableEq, Repr

/-- Meridian after payload cold reset: time zero, FREQ zero, FREE (R370). -/
def MrdState.reset : MrdState :=
  { time := 0, run := true, integ := 0, window := [], theta := 0, hostSrc := false, lastCap := [], lastEdge := [],
    caps := [], outs := [], tl := [] }

/-! ### Trellis (chapter 12) -/

/-- A memory-port read waiting for its response, or a response waiting to be shown (R403). -/
structure MemPortReq where
  addr : Nat
  size : Nat                  -- 4 or 8 bytes
  discard : Bool              -- its region was held: the response is discarded (R411)
  write : Bool
  data : List Byte
  deriving DecidableEq, Repr

/-- A release or a hold in progress, stepped by the fabric clock (R411), and the load that it belongs to (R415). -/
structure TrlJob where
  mask : Nat
  hold : Bool
  gap : Nat
  count : Nat                 -- edges until the next step
  image : List Byte           -- the image to load once the regions are held; empty = none
  loading : Bool              -- its frames are written: HELD follows
  autorel : Option Nat        -- release afterwards, with this GAP
  unload : Bool               -- unload to EMPTY once held (R416)
  deriving DecidableEq, Repr

/-- The fabric beside its registers. -/
structure TrlState where
  frames : List (Nat × Word)           -- configuration words by offset / 4 (R391)
  u0 : List (Nat × BitVec 16)          -- per cell, column × 256 + row
  u1 : List (Nat × BitVec 16)
  q : List (Nat × BitVec 16)           -- registered Q
  seq : List (Nat × Nat)               -- sequencers (R393)
  trunk : List (Nat × BitVec 16)       -- last value of each trunk, row × 32 + index (R397)
  fenced : List (Nat × BitVec 16)      -- values held by HOLD fences, per wire or trunk key (R412)
  tapsOff : List Nat                   -- trunks the guard has disabled (R398)
  fence : List Nat                     -- regions whose fence value is HOLD
  bmRead : List (Nat × BitVec 16)      -- read data of block memory ports: memory × 2 + port (R399)
  pins : Nat                           -- levels at TR_IO0 to TR_IO95
  fmax : Nat                           -- FMAX of the image in force
  vioReq : Nat                         -- VIO of the image in force
  rx : List (Nat × List (BitVec 64))   -- receive FIFOs of the streaming ports (R401)
  tx : List (Nat × List (BitVec 64))
  rxOut : List (Nat × Option (BitVec 64)) -- the word a port shows the fabric in this cycle
  reqs : List (Nat × List MemPortReq)  -- per memory port, oldest first
  resp : List (Nat × Option (Nat × Bool)) -- per memory port: read data shown in this cycle, and its error bit
  subHeld : Bool                       -- the submit port holds a submission (R404)
  subAck : Option Nat                  -- the handle acknowledged in this cycle
  notReady : List Nat                  -- ports whose ready input is 0 in this cycle: event port e, memory port 8 + d
  job : Option TrlJob                  -- a release, a hold or a load in progress
  forced : List (Nat × Nat)            -- regions that the device holds of itself: edges until the next step (R413, R525)
  cfgBad : List Nat                    -- regions held by their configuration store until they are loaded again (R413)
  colMap : List (Nat × Nat)            -- logical to physical column, where not the same (R408)
  deriving DecidableEq, Repr

/-- The fabric after payload reset: every region EMPTY (R414). -/
def TrlState.reset : TrlState :=
  { frames := [], u0 := [], u1 := [], q := [], seq := [], trunk := [], fenced := [], tapsOff := [], fence := [],
    bmRead := [], pins := 0, fmax := 0, vioReq := 0, rx := [], tx := [], rxOut := [], reqs := [], resp := [],
    subHeld := false, subAck := none, notReady := [], job := none, forced := [], cfgBad := [], colMap := [] }

/-! ### Headroom and the Reserve (chapter 13) -/

/-- A retirement under way or pending: SPARE KIND, logical unit, reason (R436 to R440). -/
structure Retire where
  kind : Nat
  unit : Nat
  reason : Nat                -- 0 wear, 1 fault, 2 SPARE.RETIRE
  degrade : Bool              -- take the unit out of service if no spare is free
  redisp : Nat                -- tasks re-dispatched (R436)
  deriving DecidableEq, Repr

/-- A prestage chain of a flow's working set (R427). -/
structure Prestage where
  slot : Nat                  -- the held task
  flow : Nat
  cluster : Nat
  chain : Nat                 -- address of the Decant chain
  prio : Nat                  -- the held task's priority, and the chain's own place in the class 43 FIFO
  stamp : Nat
  channel : Option Nat        -- the channel that runs it, once one was free
  result : Option Bool        -- how the chain has ended: true is DONE
  deriving DecidableEq, Repr

/-- An error that counts as wear of a physical unit (R435): of a core (0), a control core (1), a bank (2), an engine (4), a DRAM line (12) or
a row of the scheduler store (13). -/
structure Wear where
  kind : Nat
  unit : Nat
  time : Nat                  -- Meridian time in ns
  ue : Bool                   -- uncorrectable, found by the Riddler
  deriving DecidableEq, Repr

/-- The adaptive loops and the Reserve beside their registers. -/
structure RsvState where
  forced : Option Nat         -- headroom mode forced by SYS.HEADROOM (R421)
  target : Option Nat         -- the mode a change in progress leads to (R422)
  next : List Nat             -- mode changes waiting for the one in progress
  active : List Nat           -- the active set (R424)
  lowSince : List (Nat × Nat) -- consecutive evaluations with EFF below PACK_LO, per cluster (R423, R424)
  busyFrac : List (Nat × Nat) -- B of each cluster as last measured
  freq : List (Nat × Nat)     -- running frequency per cluster in MHz; unlisted 1,600
  staged : List (Nat × Nat)   -- (flow, cluster) whose working set is staged (R427)
  prestage : List Prestage
  retiring : List Retire
  out : List (Nat × Nat)      -- (KIND, unit) out of service
  usedSpares : List (Nat × Nat)  -- (KIND, spare index) in use
  degraded : List (Nat × Nat) -- (KIND, unit) kept in service past its threshold
  rowsOut : List Nat          -- scheduler-store rows withdrawn (R440)
  rowsMarked : List Nat       -- rows marked for retirement
  wear : List Wear            -- errors of the last 24 hours, newest first (R434, R435)
  storeOut : Bool             -- the scheduler store is out of use until payload cold reset
  dramRows : List Nat         -- DRAM lines of rows listed for hard repair (R439)
  ctlMap : List (Nat × Nat)   -- control core to physical core, where not the same (R437)
  ctlOut : List Nat           -- control cores out of service
  rated : Nat                 -- RATED as last reported (R442)
  fskCh : Nat
  taskSlots : Nat
  deriving DecidableEq, Repr

/-- The Reserve on a device with no unit out of service. -/
def RsvState.reset : RsvState :=
  { forced := none, target := none, next := [], active := [0], lowSince := [], busyFrac := [], freq := [],
    staged := [], prestage := [], retiring := [], out := [], usedSpares := [], degraded := [], rowsOut := [],
    rowsMarked := [], wear := [], storeOut := false, dramRows := [], ctlMap := [], ctlOut := [], rated := 2048, fskCh := 512,
    taskSlots := 131072 }

/-! ### Cellarmaster (chapter 3) -/

/-- Where a task stands in R100. Two states follow its commit: `stopping` while its unit still writes for it (R99), and
`recorded` while its record awaits its queue (R97). -/
inductive TaskSt | waiting | held | queued | running | ending | stopping | recorded
  deriving DecidableEq, Repr

/-- A task slot in use. -/
structure Task where
  words : List Word          -- the retained descriptor, words 0 to 7 (R69)
  order : Nat                -- admission order (R79)
  st : TaskSt
  unit : Option TUnit        -- the unit that runs it
  rd : Nat                   -- re-dispatches so far (R104)
  late : Bool                -- R87
  stamp : Nat                -- eligibility stamp (R81)
  ahead : Nat                -- 0 = in the order of its stamp; a re-dispatched task goes to its FIFO's head, the latest first (R104)
  cluster : Nat              -- the cluster a class 12 task is placed on (R77)
  since : Nat                -- Meridian time at which it was queued, in 2^-32 ns (R425)
  ring : Option Nat          -- the host ring it was admitted from (R95)
  prestage : Bool            -- held until its flow's prestage chain has ended (R428)
  ust : Nat                  -- USTATUS
  code : Nat                 -- completion code, once committed (R96)
  progress : Nat             -- PROGRESS, once committed (R97)
  time : Nat                 -- NOW32 at the commit point
  deriving DecidableEq, Repr

/-- An open or closed flow (R80): the fields of FLOW_CFG. -/
structure Flow where
  opened : Bool
  home : Nat
  pin : Bool
  dlpol : Bool
  recp : Nat
  cq : Nat
  deriving DecidableEq, Repr

/-- A closed flow with the Reset values of FLOW_CFG. -/
def Flow.reset : Flow := { opened := false, home := 15, pin := false, dlpol := false, recp := 1, cq := 0 }

/-- A submission that a port holds (R89). -/
structure Sub where
  words : List Word
  idem : Bool                -- the submitting task has IDEM = 1 (R105)
  bp : Bool                  -- its onset of back-pressure has been counted
  since : Nat                -- counter-clock ns at which it reached the port (R512)
  deriving DecidableEq, Repr

/-- A completion record on its way to its queue (R97). -/
structure CRec where
  q : Nat                    -- 0 to 7 firmware queue; 8 + h host ring h
  slot : Option Nat          -- the slot it keeps in use
  bytes : List Byte
  counted : Bool             -- counted as held by a full queue
  deriving DecidableEq, Repr

/-- A host ring beside its registers (R92 to R95). -/
structure RingSt where
  sqPi : Nat                 -- the last SQ_PI accepted
  sqCi : Nat
  cqPi : Nat
  discarded : Nat            -- entries discarded by the revoke in progress (R318)
  deriving DecidableEq, Repr

/-- A ring whose four indices are zero. -/
def RingSt.reset : RingSt := { sqPi := 0, sqCi := 0, cqPi := 0, discarded := 0 }

/-- Cellarmaster beside its registers. -/
structure CmState where
  tasks : List (Nat × Option Task)
  gens : List (Nat × Nat)            -- generation of each slot (R71)
  flows : List (Nat × Flow)
  groups : List (Nat × Word)         -- event flags (R72)
  stamp : Nat                        -- the next eligibility stamp
  order : Nat                        -- the next admission number
  subs : List (Port × Sub)           -- submissions held, oldest first
  records : List CRec                -- oldest first
  rings : List (Nat × RingSt)
  deriving DecidableEq, Repr

/-- Cellarmaster after payload cold reset: every slot free, every flow closed, every flag 0. -/
def CmState.reset : CmState :=
  { tasks := [], gens := [], flows := [], groups := [], stamp := 0, order := 0, subs := [], records := [], rings := [] }

/-! ### Mailboxes (chapter 2) -/

/-- A response: status, header flags and payload (R42, R43). -/
structure Resp where
  status : Nat
  flags : Nat
  payload : List Byte        -- at most 48 bytes
  deriving DecidableEq, Repr

/-- What a started request still waits for before its response can be given. -/
inductive Wait
  | stop (carrier : Nat) (remove : Bool)      -- CARRIER.STOP: every task of the plans committed (R59)
  | census                                    -- CENSUS.STOP: the last record in the ring (R520)
  | headroom (left : Nat)                     -- SYS.HEADROOM: so many mode changes still to end (R422, R443)
  | revoke (grant : Nat)                      -- MEM.GRANT with REVOKE (R318)
  | plan (handle : Nat)                       -- SLOT.PLAN: every task of the plan submitted (R61)
  | trellis (mask : Nat)                      -- TRELLIS.LOAD and TRELLIS.RELEASE: the last step done (R415, R416)
  | burst (handle status : Nat)                -- FSK.TXABORT: the unit has stopped; where its status record lies (R253)
  | blend (id : Nat)                          -- a blend takes force with the response (R64)
  | restart                                   -- a restart follows the response (R55)
  | power (deep : Bool)                       -- the entry follows the response (R68)
  deriving DecidableEq, Repr

/-- How far the handling of a consumed request has come. -/
inductive Ans
  | none                                      -- not started
  | wait (w : Wait)
  | ready (r : Resp)
  | thenDo (r : Resp) (w : Wait)              -- a response that an effect follows
  deriving DecidableEq, Repr

/-- A request consumed whose handling has not ended (R37, R38). -/
structure MbxReq where
  bytes : List Byte          -- header and payload
  time : Nat                 -- Meridian counter time of its consumption, in 2^-32 ns (R46)
  tmo : Nat                  -- TMO in force for it, in ms (R33)
  ans : Ans
  gone : Bool                -- its response has been committed by the deadline, or was discarded, while it is still handled (R40, R46)
  deriving DecidableEq, Repr

/-- A mailbox beside its page. -/
structure MbxState where
  reqs : List MbxReq                 -- in consumption order
  notices : List (List Byte)         -- notices waiting, oldest first: 64-byte slots (R51)
  lost : Bool                        -- the next notice carries LOST
  readySent : Bool                   -- SYS.READY delivered or queued in this session (R56)
  deriving DecidableEq, Repr

/-- A mailbox with nothing in hand. -/
def MbxState.reset : MbxState := { reqs := [], notices := [], lost := false, readySent := false }

/-! ### The control firmware and the boot ROM (chapters 2, 16 and the message sections of the others) -/

/-- A configured carrier's state (R58, R59); whether its timeline is armed stands in `TL[c].CTRL`. -/
inductive CarrierSt | stopped | started | draining
  deriving DecidableEq, Repr

/-- A configured carrier. -/
structure Carrier where
  cfg : List Byte            -- bytes 16 to 43 of the CARRIER.CONFIG message
  flowBase : Nat
  flowCount : Nat
  st : CarrierSt
  plans : Nat
  late : Nat
  expired : Nat
  cancelled : Nat            -- tasks of its plans since the STOP (R59)
  completed : Nat
  deriving DecidableEq, Repr

/-- A plan that SLOT.PLAN accepted (R61 to R63). -/
structure Plan where
  handle : Nat
  carrier : Nat
  blend : Nat
  blendVer : Nat
  start : Nat                -- the slot's start at the antenna, Meridian ns
  slotNs : Nat               -- its length in ns
  todo : List (List Word)    -- descriptors not yet submitted
  tasks : List Nat           -- handles of the tasks submitted
  total : Nat
  relGrps : List Nat         -- the groups in which the plan-release event is posted
  relFlag : Nat              -- its flag
  released : Bool
  done : Nat
  fault : Nat
  expired : Nat
  cancelled : Nat
  started : Bool
  killed : Bool              -- ended by a cancel
  doneAddr : Nat
  doneValue : Nat
  doneWritten : Bool
  ended : Option Nat         -- ns at which the last task committed; none while tasks remain
  deriving DecidableEq, Repr

/-- A loaded blend (R64, R65). -/
structure Blend where
  id : Nat
  ver : Nat
  templates : Nat
  idem : Nat
  planLen : Nat
  len : Nat                  -- payload bytes
  keyId : Nat
  svn : Nat
  deriving DecidableEq, Repr

/-- An allocation of MEM.ALLOC (R316). -/
structure Alloc where
  handle : Nat
  addr : Nat
  len : Nat
  deriving DecidableEq, Repr

/-- A grant of MEM.GRANT (R318): which ring it opened and whether it is being revoked. -/
structure Grant where
  ring : Option Nat
  revoking : Bool
  deriving DecidableEq, Repr

/-- A binding of FLOW.NOTIFY (R66). -/
structure Bind where
  vector : Nat
  any : Bool
  rep : Bool
  grp : Nat
  mask : Nat
  deriving DecidableEq, Repr

/-- A burst that FSK.TX submitted, until its result is written (R252). -/
structure FskTx where
  handle : Nat
  result : Nat               -- RESULT_ADDR
  status : Nat               -- device address of its status record
  record : Option (List Byte)-- its completion record, once committed
  deriving DecidableEq, Repr

/-- What the control firmware keeps. -/
structure FwState where
  keyId : Nat                        -- of the running image
  svn : Nat
  digest : List Byte
  wdog : Nat                         -- ms (R494)
  limit : Nat                        -- restarts within 10 minutes before FAILED
  restarts : List Nat                -- Meridian ns of recent restarts, newest first (R49)
  restarted : Bool                   -- the start in force follows a firmware restart (R56)
  ready : List Byte                  -- bytes 16 on of its SYS.READY (R56)
  imageLen : Nat                     -- PAYLOAD_LEN of the resident copy (R500)
  resident : List Byte               -- digest of the resident copy, held in retention flops
  carriers : List (Nat × Option Carrier)
  plans : List Plan
  nextPlan : Nat
  blends : List Blend
  blendVer : Nat
  allocs : List Alloc
  nextAlloc : Nat
  grants : List (Nat × Option Grant)
  loading : List Blend       -- loads handled whose response is not committed yet (R64)
  closing : List Nat         -- flows to be closed once their last task commits (R50, R80)
  binds : List Bind
  errTime : List (Nat × Nat)         -- per SOURCE, ns of its last SYS.ERROR plus one (R57)
  errMore : List Nat                 -- sources with a further error since
  fskTx : List FskTx
  cenHost : Nat                      -- HOST_ADDR of CENSUS.CONFIG; 0 = none
  cenHostLog2 : Nat
  cenHostShadow : Nat
  cenHostPi : Nat
  cenCopied : Nat                    -- ring offset up to which records have been copied to the host
  cenCfg : Bool                      -- a CENSUS.CONFIG is in force
  offHost : Bool                     -- the firmware works on an OFF_REQ
  deriving DecidableEq, Repr

/-- The firmware before any image has run. -/
def FwState.reset : FwState :=
  { keyId := 0, svn := 0, digest := [], wdog := 500, limit := 3, restarts := [], restarted := false, ready := [], imageLen := 0,
    resident := [], carriers := [], plans := [], nextPlan := 1, blends := [], blendVer := 0, allocs := [], nextAlloc := 1,
    grants := [], loading := [], closing := [], binds := [], errTime := [], errMore := [], fskTx := [], cenHost := 0, cenHostLog2 := 0,
    cenHostShadow := 0, cenHostPi := 0, cenCopied := 0, cenCfg := false, offHost := false }

/-! ### Power, clocks and Nightwatch (chapters 14 and 15) -/

/-- `PSTATE` (R479). -/
inductive PState | off | waking | run | deep | entering | absent
  deriving DecidableEq, Repr

/-- Which wake or reset is in progress (R460, R465). -/
inductive WakeKind | fromOff | fromDeep | warm | cold
  deriving DecidableEq, Repr

/-- An entry to DEEP or OFF under way (R454, R481). -/
inductive Entry
  | none
  | prep (deep : Bool)           -- steps 1 to 5, by the firmware
  | ack (deep : Bool)            -- the firmware's part is done
  | rails (deep : Bool) (forced : Bool)   -- step 6: the rails are falling
  deriving DecidableEq, Repr

/-- Payload power and clocks beside the PWR registers. -/
structure PwrState where
  up : Bool                      -- the payload logic is powered and out of reset
  refA : Bool                    -- REFCLK_A is present
  refb : Bool                    -- the main PLL runs from REFCLK_B (R14)
  entry : Entry
  wsrc : Nat                     -- wake sources of the last wake (R456)
  asked : List Nat               -- SLEEP asked for and not yet in effect: cluster c as c, engine e as 12 + e (R456)
  accounted : Bool               -- the entry sent the last timing frame (R464)
  vdd : Nat                      -- VDD_CORE setting in mV (R456)
  avsFail : Bool                 -- the last AVSBus command failed twice (R524)
  cooling : List Nat             -- clusters whose frequency throttling has lowered, until the reading is at or below 100 °C (R532)
  temps : List Nat               -- the 24 sensors, as signed 0.5 °C in 16 bits (R532)
  vioV : Nat                     -- VDD_TRIO as TRL.STAT.VIO codes it
  deriving DecidableEq, Repr

/-- An event of the Nightwatch queue (R484). -/
structure NwEvent where
  code : Nat
  lost : Bool
  eseq : Nat
  uptime : Nat
  data : Nat
  deriving DecidableEq, Repr

/-- A shelf port: two SMBus targets and the UART (R476, R477). -/
structure ShelfPort where
  req : Option (List Byte)       -- a request delivered and not yet committed
  resp : List Byte               -- the response held; empty = none
  bad : Nat                      -- requests discarded for their PEC or CRC (R475)
  deriving DecidableEq, Repr

/-- A port with nothing in it. -/
def ShelfPort.reset : ShelfPort := { req := none, resp := [], bad := 0 }

/-- Nightwatch. -/
structure NwState where
  on : Bool                      -- shelf power-on reset is released (R470)
  xtal : Bool                    -- XTAL32 runs
  sbVin : Nat                    -- mV
  uptime : Nat                   -- s
  ticks : Nat                    -- XTAL32 ticks since it started
  sub : Nat                      -- the part of the next tick that has passed, in 1/(1.25 × 10^9) of a second × 32,768
  strapA : Nat                   -- A of R475
  sampled : Bool                 -- the straps have been sampled: the ports answer
  pstate : PState
  stage : Nat                    -- 0, or the wake stage in progress
  kind : WakeKind
  tries : Nat                    -- regulator attempts made in this wake
  wait : Bool                    -- the regulator stage waits its 100 ms before the next attempt
  offReq : Bool                  -- a power-off request to be taken at the next stage boundary (R462)
  latched : Nat                  -- wake sources latched during an entry (R455)
  wsrc : Nat                     -- sources of the last wake
  faults : Nat                   -- FAULTS
  fstage : Nat
  fdetail : Nat
  ftime : Nat
  disarmed : Bool                -- WAKE_N, WSENSE and the timer are disarmed (R461)
  en : Nat                       -- PSEQ_EN0 to PSEQ_EN7
  pg : Nat                       -- PSEQ_PG0 to PSEQ_PG7 as last seen
  vauxp : Bool
  link : Bool                    -- the barrier link is up
  rstReq : Bool                  -- the payload reset request is asserted
  eject : Bool
  grace : Nat                    -- ms of GRACE of the orderly OFF in progress
  graceFrom : Nat                -- the crystal's count when it began, as ticks and `sub` together
  forced : Bool                  -- the forced path is in progress
  wakecfg : List Byte            -- bytes 4 to 15 of NW.WAKECFG
  wakeTick : Option Nat          -- tick count of the timer wake
  wakeAt : Option Nat            -- WAKE_AT of the PWR.SET whose entry is under way, in ns; 0 = no timed wake
  inbox : List Byte              -- the last message from NWB.TXBUF
  wsArmed : Bool                 -- the WSENSE comparator is armed (R457)
  wsense : Nat                   -- comparator input, as a threshold code
  vretLow : Bool                 -- VRET below 0.55 V since entry (R460)
  vret : Nat                     -- mV, as last measured
  flopCrc : Nat                  -- CRC-32 of the retention flops recorded at entry
  flops : List Byte              -- the retention flops, as they are now
  plTemp : Nat                   -- the hottest junction as last relayed
  tstop : Nat                    -- last timing frame: Meridian time in 2^-32 ns (R384)
  tstopTick : Nat                -- the crystal tick it was recorded at
  tstopSub : Nat                 -- its phase in that tick, as `sub`
  period : Nat                   -- P of R384, in 2^-32 ns per tick
  servo : Option ServoSet        -- the servo settings that the frame carried
  events : List NwEvent          -- oldest first
  eseq : Nat                     -- ESEQ of the next event
  evLost : Bool                  -- the next event queued carries LOST
  ports : List (Nat × ShelfPort) -- 0 SB_SMB0, 1 SB_SMB1, 2 SB_UART
  order : List Nat               -- ports with a request waiting, in order of arrival (R478)
  keepalives : Nat               -- keepalives sent (R473)
  deriving DecidableEq, Repr

/-- Payload power right after shelf power-on reset: everything off. -/
def PwrState.reset : PwrState :=
  { up := false, refA := true, refb := false, entry := .none, wsrc := 0, asked := [], accounted := false, vdd := 880, avsFail := false,
    cooling := [], temps := [], vioV := 0 }

/-- Nightwatch right after shelf power-on reset: the payload is absent until VAUX_P arrives (R488). -/
def NwState.reset : NwState :=
  { on := false, xtal := false, sbVin := 0, uptime := 0, ticks := 0, sub := 0, strapA := 0, sampled := false, pstate := .absent,
    stage := 0, kind := .fromOff, tries := 0, wait := false, offReq := false, latched := 0, wsrc := 0, faults := 0, fstage := 0,
    fdetail := 0, ftime := 0, disarmed := false, en := 0, pg := 0, vauxp := false, link := false, rstReq := false,
    eject := false, grace := 0, graceFrom := 0, forced := false, wakecfg := [4, 0, 0, 0, 0, 0, 0, 0, 0, 0, 0, 0], wakeTick := none, wakeAt := none, inbox := [],
    wsArmed := true, wsense := 0, vretLow := false, vret := 0, flopCrc := 0, flops := [], plTemp := 0x8000,
    tstop := 0, tstopTick := 0, tstopSub := 0, period := 0, servo := none, events := [], eseq := 0, evLost := false, ports := [], order := [],
    keepalives := 0 }

/-! ### Security and boot flash (chapter 16) -/

/-- An owner key slot of the OTP (R496). -/
structure KeySlot where
  id : Nat
  hash : List Byte
  enrolled : Bool
  revoked : Bool
  debug : Bool
  deriving DecidableEq, Repr

/-- An empty key slot. -/
def KeySlot.reset : KeySlot := { id := 0, hash := [], enrolled := false, revoked := false, debug := false }

/-- A flash transaction in progress (R508). -/
structure SpiTxn where
  write : Bool
  quad : Bool
  alen : Nat
  addr : Nat
  dummy : Nat
  len : Nat
  opcode : Nat
  deriving DecidableEq, Repr

/-- The OTP, the SEC block's hidden state and the boot flash. -/
structure SecState where
  keys : List (Nat × KeySlot)
  owned : Bool
  counter : Nat                      -- bits set in the firmware counter
  otpErr : Bool
  lastCheck : Nat
  hold : Bool                        -- ROM hold (R501)
  challenge : Option (List Byte)     -- R505
  flash : List (Nat × Byte)          -- an unlisted byte is 0xFF, as an erased NOR device reads
  spi : Option SpiTxn
  wel : Bool                         -- write enable latch of the flash device
  deriving DecidableEq, Repr

/-- A new device: no owner key, counter zero, erased flash. -/
def SecState.reset : SecState :=
  { keys := [], owned := false, counter := 0, otpErr := false, lastCheck := 0, hold := false, challenge := none,
    flash := [], spi := none, wel := false }

/-! ### Census (chapter 17) -/

/-- A census record latched and not yet written (R511, R516). -/
structure CenRec where
  bytes : List Byte
  deriving DecidableEq, Repr

/-- Census beside its registers. -/
structure CenState where
  vals : List (Nat × Nat)      -- counters, and the extremes of gauges since the previous latch, by group × 2^24 + unit × 2^12 + index
  hists : List (Nat × Nat)     -- histogram bins, by group × 2^24 + unit × 2^12 + histogram × 32 + bin
  record : Option CenRec       -- the record in the reader, its LOST and LOSTCNT still open
  seq : Nat                    -- records latched since START
  first : Bool                 -- the next record is the first after a START
  stepped : Bool               -- a step since the previous record
  remapped : List (Nat × Nat)  -- (group, unit) whose mapping changed since the previous record
  skipped : Nat                -- ticks skipped since the previous record
  lost : Nat                   -- records lost since the previous record
  lostFlag : Bool
  last : Nat                   -- counter-clock time of the previous latch, in 2^-32 ns
  clock : Nat                  -- counter-clock time, which no step changes (R509)
  next : Nat                   -- Meridian ns of the next tick
  deriving DecidableEq, Repr

/-- Census after a payload start: every counter zero. -/
def CenState.reset : CenState :=
  { vals := [], hists := [], record := none, seq := 0, first := true, stepped := false, remapped := [], skipped := 0, lost := 0,
    lostFlag := false, last := 0, clock := 0, next := 0 }

/-! ### The PCIe endpoint (chapter 2) and what leaves the device -/

/-- An MSI-X table entry. -/
structure MsixEntry where
  addr : Nat
  data : Word
  masked : Bool
  deriving DecidableEq, Repr

/-- An entry after a conventional reset: masked. -/
def MsixEntry.reset : MsixEntry := { addr := 0, data := 0, masked := true }

/-- The endpoint beside its registers. -/
structure PcieState where
  link : Bool                        -- the data link is up (R277)
  subsys : Nat                       -- Subsystem ID and Vendor ID of the boot image (R25, R499)
  msix : List (Nat × MsixEntry)
  pba : List Nat                     -- vectors pending, rising
  posted : List (Nat × List Byte)    -- writes accepted in this command, newest first: bus address, the bytes they replaced
  pmcsr : Nat                        -- configuration space: PowerState in [1:0], 0 = D0, 3 = D3hot (R25)
  msixCtl : Nat                      -- Message Control of the MSI-X capability: Enable in [15], Function Mask in [14]
  devCtl : Nat                       -- Device Control: Max_Payload_Size in [7:5]
  deriving DecidableEq, Repr

/-- The endpoint before the link comes up. -/
def PcieState.reset : PcieState :=
  { link := false, subsys := 0, msix := [], pba := [], posted := [],
    pmcsr := 0, msixCtl := 0, devCtl := 0 }

/-- What a command gives to the outside. -/
inductive Out
  | value (v : Nat)                              -- the data of a register or memory read
  | error                                        -- an access error told to the initiator (R21)
  | memError                                     -- the memory-error interrupt of a control core (R293)
  | msix (vector addr data : Nat)                -- an MSI-X message (R31)
  | smbus (port : Nat) (bytes : List Byte)       -- a Block Read's bytes, or an ARA answer
  | uart (bytes : List Byte)
  | keepalive
  | rails (enables : List Nat) (on : Bool)       -- PSEQ_ENn raised or dropped one after another (R459)
  | tsOut (n : Nat) (level : Bool) (time : Nat)  -- an edge of TS_OUTn
  | burst (engine channel : Nat) (start : Nat) (symbols : List Int)   -- a burst begins its ramp: the symbols that it will send
  | uplane (stream sym : Nat) (prbs : List Byte) -- the U-plane data of a stream's symbol begins to be sent
  | td (stream k : Nat) (samples : List (BitVec 32))   -- message k of an outbound time-domain stream is sent
  | frame (port mac : Nat) (bytes : List Byte)   -- an Ethernet frame of the fronthaul block, from its addresses to its FCS
  | tether (link : Nat) (bytes : List Byte) (line : List (Nat × Nat × BitVec 64))
      -- a Tether frame or control block, and on the line, idle blocks before it included: lane, sync header, scrambled block
  | rawWord (stream : Nat) (word : BitVec 64)    -- a streaming word handed to the raw lane
  | pins (level enable : Nat)                    -- the levels and output enables that Trellis drives after an edge
  | gap (mask : Nat)                             -- a retraining gap offered (R382)
  | replay (channel : Nat) (cmds : List (Nat × Bool))   -- the commands that a DRAM channel re-issues: line, and whether a write
  | reset (kind unit : Nat)                      -- a payload, cluster or unit reset performed
  deriving DecidableEq, Repr

/-! ### The whole block -/

/-- The two halves of a 64-bit register pair that one initiator keeps (R8). -/
structure PairSt where
  latch : Option (Nat × Word)        -- the HI register latched by a read of its LO: HI offset and value
  held : Option (Nat × Word)         -- the LO value held for a pair: LO offset and value
  time : List (Nat × Word)           -- the halves of a Meridian time latched by a read of TIME_NS (R365), by offset
  deriving DecidableEq, Repr

/-- An initiator that keeps nothing. -/
def PairSt.reset : PairSt := { latch := none, held := none, time := [] }

/-- The TH9600 and the commands that wait for it. -/
structure State where
  pending : List Instr               -- commands waiting, first in, first out
  out : List Out                     -- what the last command gave to the outside, oldest first
  fresh : Nat                        -- the model's own: how many free values have been taken
  csr : List (Nat × Word)            -- registers by CSR offset; an unlisted one holds its Reset value
  pairs : List (Nat × PairSt)        -- per initiator, those that keep something
  pcie : PcieState
  mbx : List (Nat × MbxState)
  fw : FwState
  cm : CmState
  cores : List (Nat × CoreState)     -- logical core c.k as c × 8 + k
  engs : List (Nat × EngState)       -- logical engines 0 to 75 (R181)
  nfes : List (Nat × NfeState)
  dct : List (Nat × DctChan)
  dctTurn : Nat                      -- the channel after the one to which a read engine was last given (R286)
  mem : MemState
  dmc : List (Nat × DmcState)
  front : FrontState
  mrd : MrdState
  trl : TrlState
  rsv : RsvState
  pwr : PwrState
  nw : NwState
  sec : SecState
  cen : CenState
  deriving DecidableEq, Repr

/-- The machine right after shelf power-on reset (R465): Nightwatch starts, the payload is unpowered, and every payload
register holds the value that the payload cold reset of a wake from OFF gives it. -/
def State.reset : State :=
  { pending := [], out := [], fresh := 0, csr := [], pairs := [], pcie := .reset, mbx := [], fw := .reset, cm := .reset,
    cores := [], engs := [], nfes := [], dct := [], dctTurn := 0, mem := .reset, dmc := [], front := .reset, mrd := .reset, trl := .reset,
    rsv := .reset, pwr := .reset, nw := .reset, sec := .reset, cen := .reset }

end Sys2Proof.Machine
end

