-- ==== Sys2Proof/WellFormed.lean ====
section
/-! DEFINITION. Well-formed commands: every operand within the range that the specification gives the thing it names. -/

namespace Sys2Proof

/-- The initiator exists. -/
def Init.wf : Init → Bool
  | .ctl i => decide (i < 4)
  | .dsp c k => decide (c < 12) && decide (k < 8)
  | .dct ch => decide (ch < 64)
  | .eng e => decide (e < 80)
  | _ => true

/-- The initiator is the host or a control core. -/
def Init.hostOrCtl : Init → Bool
  | .host => true
  | .ctl i => decide (i < 4)
  | _ => false

/-- The port exists. -/
def Port.wf : Port → Bool
  | .core c k => decide (c < 12) && decide (k < 8)
  | .ctl i => decide (i < 4)
  | .decant ch => decide (ch < 64)
  | .engine e => decide (e < 76)
  | .burst n ctx => decide (n < 4) && decide (ctx < 64)
  | .trellis => true
  | .ring h => decide (h < 64)

/-- The unit exists. -/
def TUnit.wf : TUnit → Bool
  | .core c k => decide (c < 12) && decide (k < 8)
  | .engine e => decide (e < 76)
  | .burst n ctx => decide (n < 4) && decide (ctx < 64)
  | .channel ch => decide (ch < 64)

/-- The channel exists (R256). -/
def Part.wf (p : Part) : Bool := decide (p.ch < 64)

/-- Every operand names a unit, a ring, a group or a field value that the specification gives the device. -/
def Instr.wf : Instr → Bool
  | .registerWrite i _ _ _ _ => i.wf
  | .rcCounterRead i _ _ _ => i.wf
  | .loReadLatch i _ _ _ => i.wf
  | .hiWriteCommit i _ _ _ _ => i.wf
  | .hostCellarWrite _ _ => true
  | .pcieFlr => true
  | .pcieConventionalReset => true
  | .pcieLinkDown _ => true
  | .mbxEnable i m _ => i.hostOrCtl && decide (m < 64)
  | .mbxDisable i m _ => i.hostOrCtl && decide (m < 64)
  | .mbxIdle m => decide (m < 64)
  | .mbxReqPiWrite i m _ _ => i.hostOrCtl && decide (m < 64)
  | .mbxRspCiWrite i m _ => i.hostOrCtl && decide (m < 64)
  | .mbxLockSet i _ => i.hostOrCtl
  | .mbxFwctrlReload i _ => i.hostOrCtl
  | .requestConsume m _ => decide (m < 64)
  | .responseCommit m _ _ => decide (m < 64)
  | .responseTimeout m _ _ => decide (m < 64)
  | .noticeDeliver m _ => decide (m < 64)
  | .fwWatchdogExpire => true
  | .controlCoreException i => decide (i < 4)
  | .fwRestart => true
  | .fwRunning => true
  | .sysPing m => decide (m < 64)
  | .sysInfo m => decide (m < 64)
  | .sysRestart m => decide (m < 64)
  | .sysHeadroomMode m => decide (m < 64)
  | .sysHeadroomVoltage m => decide (m < 64)
  | .sysError src _ => decide (src < 7)
  | .sysBootrun m => decide (m < 64)
  | .sysFlashwr m _ => decide (m < 64)
  | .pwrSetDeviceRun m => decide (m < 64)
  | .pwrSetDeviceDeep m => decide (m < 64)
  | .pwrSetDeviceOff m => decide (m < 64)
  | .pwrSetClusterRun m => decide (m < 64)
  | .pwrSetClusterSleep m => decide (m < 64)
  | .pwrSetClusterOff m => decide (m < 64)
  | .pwrSetEngineRun m => decide (m < 64)
  | .pwrSetEngineSleep m => decide (m < 64)
  | .pwrQuery m => decide (m < 64)
  | .carrierConfig m _ _ => decide (m < 64)
  | .carrierStart m => decide (m < 64)
  | .carrierStop m => decide (m < 64)
  | .carrierStopDrain m => decide (m < 64)
  | .carrierQuery m => decide (m < 64)
  | .slotPlan m _ relGrp relFlag => decide (m < 64) && decide (relGrp < 16384) && decide (relFlag < 32)
  | .planSubmitLate _ => true
  | .slotCancel m => decide (m < 64)
  | .slotQuery m => decide (m < 64)
  | .blendLoad m => decide (m < 64)
  | .blendUnload m => decide (m < 64)
  | .blendQuery m => decide (m < 64)
  | .flowPin m => decide (m < 64)
  | .flowNotifyBind m => decide (m < 64)
  | .flowNotifyUnbind m => decide (m < 64)
  | .flowQuery m => decide (m < 64)
  | .memAlloc m _ => decide (m < 64)
  | .memFree m => decide (m < 64)
  | .memGrant m => decide (m < 64)
  | .memGrantRevoke m => decide (m < 64)
  | .laneConfigLink m => decide (m < 64)
  | .laneConfigPort m => decide (m < 64)
  | .laneConfigStream m => decide (m < 64)
  | .laneStatus m => decide (m < 64)
  | .laneEqTaps m => decide (m < 64)
  | .laneEqFreeze m => decide (m < 64)
  | .laneEqRelease m => decide (m < 64)
  | .timeSetAbsolute m => decide (m < 64)
  | .timeSetStep m => decide (m < 64)
  | .timeSetServo m => decide (m < 64)
  | .timeSetOutput m => decide (m < 64)
  | .timeSetCapture m => decide (m < 64)
  | .timeOffset m => decide (m < 64)
  | .timeQuery m => decide (m < 64)
  | .fskPlan m => decide (m < 64)
  | .fskPlanStop m => decide (m < 64)
  | .fskTx m flow _ sl => decide (m < 64) && decide (flow < 65536) && decide (sl < 131072)
  | .fskTxResultWrite _ _ => true
  | .fskTxabort m => decide (m < 64)
  | .trellisLoad m => decide (m < 64)
  | .trellisRelease m => decide (m < 64)
  | .trellisHold m => decide (m < 64)
  | .trellisUnload m => decide (m < 64)
  | .trellisQuery m => decide (m < 64)
  | .spareQuery m => decide (m < 64)
  | .spareRetire m => decide (m < 64)
  | .censusConfig m _ => decide (m < 64)
  | .censusStart m => decide (m < 64)
  | .censusStop m => decide (m < 64)
  | .debugAuthChallenge m => decide (m < 64)
  | .debugAuthVerify m => decide (m < 64)
  | .debugAuthClear m => decide (m < 64)
  | .debugRead m => decide (m < 64)
  | .debugWrite m => decide (m < 64)
  | .cpSubmit i _ => decide (i < 4)
  | .taskAdmit p sl => p.wf && decide (sl < 131072)
  | .evPost i _ => decide (i < 4)
  | .evClr i _ => decide (i < 4)
  | .taskSelect u => u.wf
  | .cmCancel i _ => decide (i < 4)
  | .cmCancelFlow i _ => decide (i < 4)
  | .flowCfgWrite i _ => decide (i < 4)
  | .deadlineSweep => true
  | .taskCommit sl => decide (sl < 131072)
  | .completionRecordWrite q _ => decide (q < 72)
  | .unitFault u _ => u.wf
  | .hostRingSqPiWrite h v => decide (h < 64) && decide (v < 65536)
  | .hostRingEntry h _ sl => decide (h < 64) && decide (sl < 131072)
  | .hostRingPost h => decide (h < 64)
  | .bundleIssue c k _ _ => decide (c < 12) && decide (k < 8)
  | .writeBufferAck c k _ => decide (c < 12) && decide (k < 8)
  | .pmMissFill c k _ => decide (c < 12) && decide (k < 8)
  | .cancelAccept c k => decide (c < 12) && decide (k < 8)
  | .haltAccept c k => decide (c < 12) && decide (k < 8)
  | .pmInvWrite i c _ => i.wf && decide (c < 12)
  | .pmInvDone c => decide (c < 12)
  | .coreClearDone c k => decide (c < 12) && decide (k < 8)
  | .cov e => decide (e < 76)
  | .chol e => decide (e < 76)
  | .trsolve e => decide (e < 76)
  | .mmse e => decide (e < 76)
  | .apply e => decide (e < 76)
  | .decode e => decide (e < 76)
  | .encode e => decide (e < 76)
  | .uciDecode e => decide (e < 76)
  | .rmDecode e => decide (e < 76)
  | .dciEncode e => decide (e < 76)
  | .pbchEncode e => decide (e < 76)
  | .turboDecode e => decide (e < 76)
  | .turboEncode e => decide (e < 76)
  | .tbccDecode e => decide (e < 76)
  | .fft e => decide (e < 76)
  | .ifft e => decide (e < 76)
  | .dft e => decide (e < 76)
  | .idft e => decide (e < 76)
  | .engineJobEnd e _ => decide (e < 76)
  | .engineStop e _ => decide (e < 76)
  | .burst n ctx => decide (n < 4) && decide (ctx < 64)
  | .burstStart n ctx => decide (n < 4) && decide (ctx < 64)
  | .burstEnd n ctx => decide (n < 4) && decide (ctx < 64)
  | .blankResume n ch => decide (n < 4) && decide (ch < 128)
  | .streamGap n _ => decide (n < 4)
  | .preambleDetect n ch _ _ _ => decide (n < 4) && decide (ch < 128)
  | .captureDecision n ch _ _ => decide (n < 4) && decide (ch < 128)
  | .syncTimeout n ch => decide (n < 4) && decide (ch < 128)
  | .sfdFound n ch _ _ _ => decide (n < 4) && decide (ch < 128)
  | .ncoTrackUpdate n ch _ => decide (n < 4) && decide (ch < 128)
  | .packetEnd n ch _ _ => decide (n < 4) && decide (ch < 128)
  | .nfeReportWrite n => decide (n < 4)
  | .dctGo ch _ => decide (ch < 64)
  | .dctAbort ch _ => decide (ch < 64)
  | .linear p => p.wf
  | .twoD p => p.wf
  | .gather p => p.wf
  | .scatter p => p.wf
  | .dctDescriptorCommit ch _ => decide (ch < 64)
  | .dctTransferError ch => decide (ch < 64)
  | .walkerVisit k _ => decide (k < 10)
  | .bankCopyDone bank => decide (bank < 34)
  | .validMapFill _ => true
  | .memVclrGo i _ => decide (i < 4)
  | .dmcInit n _ stuck => decide (n < 6) && decide (stuck < 10)
  | .dmcInitTimeout n step => decide (n < 6) && decide (step < 10)
  | .dmcEnable n _ => decide (n < 6)
  | .dmcSrEnter n _ => decide (n < 6)
  | .dmcSrExit n _ => decide (n < 6)
  | .dramRefresh n => decide (n < 6)
  | .dramAgePromote n c _ => decide (n < 6) && decide (c < 4)
  | .dramAlert n => decide (n < 6)
  | .dramReplay n _ => decide (n < 6)
  | .retrainDue n => decide (n < 6)
  | .retrainForced n _ => decide (n < 6)
  | .laneStageReady g l _ order => decide (g < 16) && decide (l < 17) && decide (order < 16)
  | .laneStageTimeout g l => decide (g < 16) && decide (l < 17)
  | .laneLockLoss g l lost => decide (g < 16) && decide (l < 17) && decide (lost < 6)
  | .laneRestart g l _ => decide (g < 16) && decide (l < 17)
  | .laneTxsleep g l _ => decide (g < 16) && decide (l < 17)
  | .laneRxsleep g l _ => decide (g < 16) && decide (l < 17)
  | .rawSlip g l _ => decide (g < 16) && decide (l < 17)
  | .rawSlipDone g l => decide (g < 16) && decide (l < 17)
  | .rawUp g l _ => decide (g < 16) && decide (l < 17)
  | .rawDown g l _ => decide (g < 16) && decide (l < 17)
  | .eyeMeasure g l h vv => decide (g < 16) && decide (l < 17) && decide (h < 256) && decide (vv < 4096)
  | .ethFrameRx p mac _ _ _ _ _ _ => decide (p < 64) && decide (mac < 16)
  | .ethFrameTxStamp p mac _ _ => decide (p < 64) && decide (mac < 16)
  | .uplaneMessage p _ _ _ => decide (p < 64)
  | .rxWindowOpen c _ => decide (c < 384)
  | .rxWindowClose c _ => decide (c < 384)
  | .fhEgressStart c _ => decide (c < 384)
  | .tdStreamMessage st _ _ => decide (st < 4096)
  | .tdStreamSend st => decide (st < 4096)
  | .tetherWriteFrame t _ => decide (t < 3)
  | .tetherPostFrame t _ => decide (t < 3)
  | .tetherLinkBlock t _ => decide (t < 3)
  | .tetherMarker t _ phys width _ => decide (t < 3) && decide (phys < 16) && decide (width < 4)
  | .tetherLinkSend t => decide (t < 3)
  | .tetherMarkerSend t => decide (t < 3)
  | .tetherReqPiWrite t _ => decide (t < 3)
  | .tetherEntryComplete t => decide (t < 3)
  | .servoSample i _ => decide (i < 4)
  | .sampleTimeout => true
  | .mrdTimeRead i => i.wf
  | .tsInEdge n _ => decide (n < 8)
  | .capPop n => decide (n < 8)
  | .tsOutEdge n => decide (n < 4)
  | .timingFrame => true
  | .timelineArm c _ => decide (c < 384)
  | .timelineDisarm c _ => decide (c < 384)
  | .symbol c r _ => decide (c < 384) && decide (r < 8)
  | .slot c r _ => decide (c < 384) && decide (r < 8)
  | .frame c r _ => decide (c < 384) && decide (r < 8)
  | .gap c r _ => decide (c < 384) && decide (r < 8)
  | .trellisConfigWrite i _ _ _ => i.wf
  | .trunkContention row trunk => decide (row < 256) && decide (trunk < 32)
  | .configStoreUe region _ => decide (region < 8)
  | .eventPortStrobe e _ => decide (e < 8)
  | .memPortRequest d _ => decide (d < 4)
  | .memPortResponse d => decide (d < 4)
  | .submitPortStrobe => true
  | .streamWordRx sp _ => decide (sp < 32)
  | .vioMismatch v => decide (v < 3)
  | .hctrlModeWrite i _ => decide (i < 4)
  | .shieldReady => true
  | .effEvaluate _ => true
  | .taskMove sl cluster => decide (sl < 131072) && decide (cluster < 12)
  | .prestageEnd sl => decide (sl < 131072)
  | .slackReport _ => true
  | .voltageStep => true
  | .choldClear i c _ => decide (i < 4) && decide (c < 12)
  | .retireWear kind _ => decide (kind < 14)
  | .drainTimeout kind _ => decide (kind < 14)
  | .remap kind _ _ => decide (kind < 14)
  | .schedStoreUe sl _ _ => decide (sl < 131072)
  | .clusterSleepEnter c => decide (c < 12)
  | .clusterWake c => decide (c < 12)
  | .engineSleepEnter e => decide (e < 80)
  | .engineWake e => decide (e < 80)
  | .wakeNAssert => true
  | .wsenseTrip code => decide (code < 256)
  | .wakeTimer => true
  | .wakeStageReady _ => true
  | .wakeStageTimeout _ => true
  | .regulatorRetry => true
  | .powerGoodFall n => decide (n < 8)
  | .pwrRstCold i => decide (i < 4)
  | .pwrRstWarm i => decide (i < 4)
  | .pwrRstCluster i c => decide (i < 4) && decide (c < 12)
  | .pwrRstCore i c k => decide (i < 4) && decide (c < 12) && decide (k < 8)
  | .pwrRstEngine i e => decide (i < 4) && decide (e < 80)
  | .vddCoreUndervolt => true
  | .tempSample _ => true
  | .overtempReset => true
  | .avsNoAck _ => true
  | .sbVinRise _ => true
  | .sbVinFall _ => true
  | .sbVinLow _ => true
  | .strapSample a => decide (a < 8)
  | .keepaliveSend => true
  | .keepaliveLoss => true
  | .nwWatchdogExpire => true
  | .smbBlockWrite p _ _ => decide (p < 2)
  | .smbBlockRead p => decide (p < 2)
  | .smbTimeout p => decide (p < 2)
  | .smbAlertResponse p => decide (p < 2)
  | .uartFrame _ => true
  | .nwStatus => true
  | .nwPowerOn => true
  | .nwPowerOff => true
  | .nwPowerOffForced => true
  | .nwPowerOffNow => true
  | .nwPowerDeep => true
  | .nwPowerCold => true
  | .nwPowerWarm => true
  | .nwPowerClearFault => true
  | .offGraceExpire => true
  | .nwbOffAck i _ => decide (i < 4)
  | .nwWakecfgRead => true
  | .nwWakecfgWrite => true
  | .nwSensor _ => true
  | .nwEventRead => true
  | .nwEventRemove => true
  | .ejectAssert => true
  | .ejectRelease => true
  | .vauxPArrive => true
  | .vauxPLoss _ => true
  | .nwbTxgo i _ => decide (i < 4)
  | .nwbRxMessage _ => true
  | .nwbRxlenRead i => i.wf
  | .nwbAlive i _ => decide (i < 4)
  | .spiCmdGo i _ => decide (i < 4)
  | .spiDone _ => true
  | .censusTick => true
  | .cenManualTick i => decide (i < 4)
  | .censusRecordWrite _ => true
  | .pcieLinkUp => true
  | .loadDataReturn c k _ => decide (c < 12) && decide (k < 8)
  | .haltResume c k => decide (c < 12) && decide (k < 8)
  | .fabricClockEdge _ => true
  | .streamWordTx sp => decide (sp < 32)
  | .trlRelGo i _ => decide (i < 4)
  | .xtal32Start => true
  | .entryRailsDown => true
  | .refclkALoss => true
  | .vretLow _ => true

end Sys2Proof
end

