-- ==== Sys2Proof/Machine/Ops.lean ====
section
/-! DEFINITION. The operations every family shares: how a command runs, registers and their counters, free values, Meridian
time, Census values, device errors, MSI-X messages and the raw bytes of memory. -/

namespace Sys2Proof.Machine

/-- The answer of a step. -/
abbrev Answer := Host.Outcome State Fault Refusal

/-- The one-time-programmable bits of `t` put back as `s` has them: only the boot ROM changes them (R496, R498). -/
def keepOtp (s t : State) : State :=
  { t with sec := { t.sec with keys := s.sec.keys, owned := s.sec.owned, counter := s.sec.counter } }

/-- The state as a command finds it: nothing given to the outside yet, and the posted writes of the command before are on the
link (R26, R277). -/
def begin (s : State) : State := { s with out := [], pcie := { s.pcie with posted := [] } }

/-- A command: with operands that name what the device has (`ok`, the same test as `Instr.wf`), its effect; the queue and the
OTP stay as they are. -/
def cmd (ok : Bool) (s : State) (f : State → State) : Answer :=
  if ok then .next { keepOtp s (f (begin s)) with pending := s.pending } else .fault .noSuchUnit

/-- A command that may start the boot ROM, which may change the OTP. -/
def otpCmd (ok : Bool) (s : State) (f : State → State) : Answer :=
  if ok then .next { f (begin s) with pending := s.pending } else .fault .noSuchUnit

/-- An effect of the payload: it happens only while the payload is powered and out of reset (R465). -/
def live (s : State) (f : State → State) : State := if s.pwr.up then f s else s

/-- A command whose effect is the payload's. -/
def pcmd (ok : Bool) (s : State) (f : State → State) : Answer := cmd ok s fun s => live s f

/-! ### Registers -/

/-- The value a register holds. -/
def State.rd (s : State) (off : Nat) : Nat := (mget regDefault s.csr off).toNat

/-- Bits [hi:lo] of a register. -/
def State.rdF (s : State) (off hi lo : Nat) : Nat := fld (s.rd off) hi lo

/-- One bit of a register. -/
def State.rdB (s : State) (off n : Nat) : Bool := tb (s.rd off) n

/-- A register set to a value. -/
def State.wr (s : State) (off v : Nat) : State :=
  { s with csr := mput regDefault s.csr off (BitVec.ofNat 32 v) }

/-- Bits [hi:lo] of a register set. -/
def State.wrF (s : State) (off hi lo v : Nat) : State := s.wr off (setFld (s.rd off) hi lo v)

/-- A counter register advanced by `n`; it holds at 0xFFFF_FFFF. -/
def State.count (s : State) (off n : Nat) : State := s.wr off (satAdd 0xFFFFFFFF (s.rd off) n)

/-- A LO/HI pair as one number. -/
def State.rdPair (s : State) (lo hi : Nat) : Nat := s.rd lo + s.rd hi * 0x100000000

/-- A LO/HI pair set from one number, its upper half cut to `w` bits. -/
def State.wrPair (s : State) (lo hi w v : Nat) : State :=
  (s.wr lo (v % 0x100000000)).wr hi (v / 0x100000000 % 2 ^ w)

/-- Registers that satisfy `p` return to their Reset values. -/
def State.resetRegs (s : State) (p : Nat → Bool) : State := { s with csr := mdrop p s.csr }

/-! ### Free values -/

/-- A free value below `n`: nothing constrains it, and no two calls give the same one (log entry 1). -/
def State.free (s : State) (n : Nat) : Nat × State :=
  (Config.freeValue s.fresh % n, { s with fresh := s.fresh + 1 })

/-- `n` free bytes. -/
def State.freeBytes (s : State) (n : Nat) : List Byte × State :=
  ((List.range n).map fun i => BitVec.ofNat 8 (Config.freeValue (s.fresh + i)), { s with fresh := s.fresh + n })

/-! ### Meridian time (R363, R85) -/

/-- Whole nanoseconds since the epoch. -/
def State.ns (s : State) : Nat := s.mrd.time / 2 ^ 32

/-- TAI seconds. -/
def State.taiS (s : State) : Nat := s.ns / 1000000000

/-- The ns field. -/
def State.taiN (s : State) : Nat := s.ns % 1000000000

/-- NOW32 (R85). -/
def State.now32 (s : State) : Nat := s.ns / 32 % 2 ^ 32

/-- A time in ns as messages carry it: the low 32 bits of the seconds, then the ns. -/
def taiBytes (ns : Nat) : List Byte := leBytes 4 (ns / 1000000000) ++ leBytes 4 (ns % 1000000000)

/-- The full time that the low 32 bits of seconds and the ns field name, by the seconds now. -/
def State.fullNs (s : State) (sec n : Nat) : Nat :=
  let base := s.taiS
  let near := base / 2 ^ 32 * 2 ^ 32 + sec
  let sec48 :=
    if near + 2 ^ 31 < base then near + 2 ^ 32
    else if base + 2 ^ 31 < near ∧ 2 ^ 32 ≤ near then near - 2 ^ 32
    else near
  sec48 * 1000000000 + n

/-- A deadline has passed (R85). -/
def State.passed (s : State) (deadline : Nat) : Bool :=
  let d := (s.now32 + 2 ^ 32 - deadline % 2 ^ 32) % 2 ^ 32
  decide (1 ≤ d ∧ d ≤ 2 ^ 31 - 1)

/-- Counter ticks that the crystal's 32,768 Hz divide: a crystal tick passes each time the phase, advanced by 32,768 at every
1.25 GHz tick, reaches this number. -/
def xtalUnit : Nat := 1250000000

/-- Counter-clock time in ns, which no step changes (R509). -/
def State.clockNs (s : State) : Nat := s.cen.clock / 2 ^ 32

/-! ### The two halves of a 64-bit register pair (R8) -/

/-- Where an initiator's latch and held value are kept; each Decant channel has its own. -/
def pairKey : Init → Nat
  | .dct ch => 0x100 + ch
  | .dsp c k => c * 8 + k
  | .ctl i => 0x60 + i
  | .eng e => 0x200 + e
  | .trl => 0x66
  | .host => 0x67
  | .nwb => 0x68
  | .cm => 0x69

def State.pair (s : State) (i : Init) : PairSt := mget (fun _ => .reset) s.pairs (pairKey i)
def State.setPair (s : State) (i : Init) (x : PairSt) : State :=
  { s with pairs := mput (fun _ => .reset) s.pairs (pairKey i) x }

/-- The registers as a write of HI finds them: the LO value that the initiator holds for this pair is committed with it; where it holds
none, the LO half keeps its value. -/
def State.takeLo (s : State) (i : Init) (lo : Nat) : State :=
  match (s.pair i).held with
  | some (o, v) => if o = lo then (s.setPair i { s.pair i with held := none }).wr lo v.toNat else s
  | none => s

/-! ### What leaves the device -/

/-- One more thing given to the outside. -/
def State.emit (s : State) (o : Out) : State := { s with out := s.out ++ [o] }

/-! ### Census values (R509, R512, R515) -/

/-- A counter's key. -/
def cenKey (g u i : Nat) : Nat := g * 2 ^ 24 + u * 2 ^ 12 + i

/-- A 48-bit counter advanced. -/
def State.tally (s : State) (g u i n : Nat) : State :=
  { s with cen := { s.cen with vals := mmod (fun _ => 0) s.cen.vals (cenKey g u i) fun v => (v + n) % 2 ^ 48 } }

/-- A gauge set. -/
def State.gauge (s : State) (g u i n : Nat) : State :=
  { s with cen := { s.cen with vals := mput (fun _ => 0) s.cen.vals (cenKey g u i) (n % 2 ^ 48) } }

/-- A gauge that holds an extreme since the previous latch (R509): `old` was its level at that latch if nothing has been recorded
since. It is kept as one more than its value; zero says that the present level is the extreme. -/
def State.extreme (s : State) (g u i : Nat) (pick : Nat → Nat → Nat) (old new : Nat) : State :=
  let f := fun v : Nat => pick (if v = 0 then old else v - 1) new + 1
  { s with cen := { s.cen with vals := mmod (fun _ => 0) s.cen.vals (cenKey g u i) f } }

/-- KiB of staging in use, where a channel's share is `n` bytes (R257, R512). -/
def State.stagingKib (s : State) (ch n : Nat) : Nat :=
  ((s.dct.map fun e => if e.1 = ch then 0 else e.2.staged.length).sum + n + 1023) / 1024

/-- The bin of a latency of `x` ns (R515). -/
def histBin (x : Nat) : Nat := if x < 2 then 0 else if x ≥ 2 ^ 31 then 31 else Nat.log2 x

/-- A latency recorded in a histogram. -/
def State.hist (s : State) (g u h x : Nat) : State :=
  let k := cenKey g u (h * 32 + histBin x)
  { s with cen := { s.cen with hists := mmod (fun _ => 0) s.cen.hists k fun v => (v + 1) % 2 ^ 48 } }

/-! ### MSI-X and device errors (R30, R31) -/

/-- A vector's table entry. -/
def State.msixAt (s : State) (v : Nat) : MsixEntry := mget (fun _ => .reset) s.pcie.msix v

/-- The function is in D3hot (R25): it answers configuration accesses alone, and sends no message. -/
def State.d3hot (s : State) : Bool := decide (s.pcie.pmcsr % 4 = 3)

/-- A vector is masked by its own bit, by the Function Mask or because MSI-X is not enabled. PRESUMED (log entry 49): the PCI Express
rules that R31 names hold such a message as pending. -/
def State.vecMasked (s : State) (e : MsixEntry) : Bool :=
  e.masked || tb s.pcie.msixCtl 14 || !tb s.pcie.msixCtl 15 || s.d3hot

/-- An event of vector `v`: a message, a pending bit if it is masked, nothing while the link is down. -/
def State.vector (s : State) (v : Nat) : State :=
  if !s.pcie.link then s
  else
    let e := s.msixAt v
    if s.vecMasked e then { s with pcie := { s.pcie with pba := sins s.pcie.pba v } }
    else s.emit (.msix v e.addr e.data.toNat)

/-- A `MBX.DEVERR` bit set; vector 0 when it changes from 0 to 1. -/
def State.devErr (s : State) (bit : Nat) : State :=
  if s.rdB Reg.mbxDeverr bit then s else (s.wrF Reg.mbxDeverr bit bit 1).vector 0

/-! ### Access errors (R20 to R22) -/

/-- How `SYS.AERR_STAT` names an initiator. -/
def initCode : Init → Nat
  | .dsp c k => c * 8 + k
  | .ctl i => 0x60 + i
  | .dct _ => 0x64
  | .eng _ => 0x65
  | .trl => 0x66
  | .host => 0x67
  | .nwb => 0x68
  | .cm => 0x69

/-- An access error recorded and counted, MORE as it stands until its own W1C (R22); the host's raises the device-error interrupt. -/
def State.aerr (s : State) (i : Init) (kind : Nat) (write bar45 : Bool) (addr : Nat) : State :=
  let s := (s.count Reg.sysAerrCnt 1).tally 9 0 11 1
  let s :=
    if s.rdB Reg.sysAerrStat 31 then s.wrF Reg.sysAerrStat 30 30 1
    else
      let s := s.wr Reg.sysAerrStat (2 ^ 31 + s.rdF Reg.sysAerrStat 30 30 * 2 ^ 30 + initCode i * 2 ^ 16 + kind * 2 ^ 8 + bn write)
      let s := s.wr Reg.sysAerrAddrLo (addr % 2 ^ 32)
      s.wr Reg.sysAerrAddrHi (if bar45 then 2 ^ 31 else addr / 2 ^ 32 % 2 ^ 16)
  if i = .host then s.devErr 0 else s

/-- A conflict of adaptive loop `l` logged (R432). -/
def State.conflict (s : State) (l kind unit : Nat) : State :=
  let s := (s.count (Reg.rsvConfCnt l) 1).tally 9 0 (6 + l) 1
  (s.wr Reg.rsvConfLast (2 ^ 31 + unit * 2 ^ 16 + kind * 2 ^ 4 + l)).wr Reg.rsvConfTime s.now32

/-! ### Raw bytes -/

/-- A byte of host memory as the device reads it. -/
def State.hostByte (s : State) (a : Nat) : Byte := mget (fun _ => 0) s.mem.host a

/-- Bytes of host memory. -/
def State.hostBytes (s : State) (a n : Nat) : List Byte := (List.range n).map fun i => s.hostByte (a + i)

/-- A byte that the device keeps, whatever protects it. -/
def State.devByte (s : State) (a : Nat) : Byte := mget (fun _ => 0) s.mem.dev a

/-- Bytes that the device keeps. -/
def State.devBytes (s : State) (a n : Nat) : List Byte := (List.range n).map fun i => s.devByte (a + i)

/-- A byte list written into a sparse memory. -/
def putBytes (m : List (Nat × Byte)) (a : Nat) : List Byte → List (Nat × Byte)
  | [] => m
  | b :: bs => putBytes (mput (fun _ => 0) m a b) (a + 1) bs

/-- Host memory written, whoever writes it. -/
def State.putHost (s : State) (a : Nat) (bs : List Byte) : State :=
  { s with mem := { s.mem with host := putBytes s.mem.host a bs } }

/-- Device memory written without any check. -/
def State.putDev (s : State) (a : Nat) (bs : List Byte) : State :=
  { s with mem := { s.mem with dev := putBytes s.mem.dev a bs } }

/-- Memory is in its canonical form: rising addresses, no byte listed that an unlisted address reads as. -/
def Memory.wf (m : MemState) : Bool := mwf (fun _ => (0 : Byte)) m.dev && mwf (fun _ => (0 : Byte)) m.host

/-- A write that the endpoint has accepted into its posted-write queue (R277). -/
def State.post1 (s : State) (a : Nat) (bs : List Byte) : State :=
  { s.putHost a bs with pcie := { s.pcie with posted := (a, s.hostBytes a bs.length) :: s.pcie.posted } }

/-- A write of the device to host memory at a bus address: not accepted while the link is down. -/
def State.toHost (s : State) (a : Nat) (bs : List Byte) : State := if s.pcie.link then s.post1 a bs else s

/-- The bus address lies in the host window (R28). -/
def State.inWindow (s : State) (a n : Nat) : Bool :=
  let base := s.rdPair Reg.pcieHwbaseLo Reg.pcieHwbaseHi
  decide (base ≤ a ∧ a + n ≤ base + 2 ^ 39)

/-! ### Reads of the sparse parts -/

def State.mbxAt (s : State) (m : Nat) : MbxState := mget (fun _ => .reset) s.mbx m
def State.setMbx (s : State) (m : Nat) (x : MbxState) : State := { s with mbx := mput (fun _ => .reset) s.mbx m x }
def State.core (s : State) (c k : Nat) : CoreState := mget (fun _ => .reset) s.cores (c * 8 + k)
def State.setCore (s : State) (c k : Nat) (x : CoreState) : State :=
  { s with cores := mput (fun _ => .reset) s.cores (c * 8 + k) x }
def State.engAt (s : State) (e : Nat) : EngState := mget (fun _ => .reset) s.engs e
def State.setEng (s : State) (e : Nat) (x : EngState) : State := { s with engs := mput (fun _ => .reset) s.engs e x }
def State.nfeAt (s : State) (n : Nat) : NfeState := mget (fun _ => .reset) s.nfes n
def State.setNfe (s : State) (n : Nat) (x : NfeState) : State := { s with nfes := mput (fun _ => .reset) s.nfes n x }
def State.dctAt (s : State) (ch : Nat) : DctChan := mget (fun _ => .reset) s.dct ch
def State.setDct (s : State) (ch : Nat) (x : DctChan) : State := { s with dct := mput (fun _ => .reset) s.dct ch x }
def State.dmcAt (s : State) (n : Nat) : DmcState := mget (fun _ => .reset) s.dmc n
def State.setDmc (s : State) (n : Nat) (x : DmcState) : State := { s with dmc := mput (fun _ => .reset) s.dmc n x }
def State.task? (s : State) (sl : Nat) : Option Task := mget (fun _ => none) s.cm.tasks sl
def State.setTask (s : State) (sl : Nat) (t : Option Task) : State :=
  { s with cm := { s.cm with tasks := mput (fun _ => none) s.cm.tasks sl t } }
def State.flow (s : State) (f : Nat) : Flow := mget (fun _ => .reset) s.cm.flows f
def State.setFlow (s : State) (f : Nat) (x : Flow) : State :=
  { s with cm := { s.cm with flows := mput (fun _ => .reset) s.cm.flows f x } }
def State.ringAt (s : State) (h : Nat) : RingSt := mget (fun _ => .reset) s.cm.rings h
def State.setRing (s : State) (h : Nat) (x : RingSt) : State :=
  { s with cm := { s.cm with rings := mput (fun _ => .reset) s.cm.rings h x } }
def State.flags (s : State) (g : Nat) : Word := mget (fun _ => 0) s.cm.groups g
def State.carrier? (s : State) (c : Nat) : Option Carrier := mget (fun _ => none) s.fw.carriers c
def State.setCarrier (s : State) (c : Nat) (x : Option Carrier) : State :=
  { s with fw := { s.fw with carriers := mput (fun _ => none) s.fw.carriers c x } }

/-- A carrier is started. -/
def started (c : Carrier) : Bool := c.st != .stopped

end Sys2Proof.Machine
end

