-- ==== Sys2Proof/Machine/Memory.lean ====
section
/-! DEFINITION. The device address map and one access to memory: what is mapped (R17, R18), what an access error is (R20),
valid bits and the valid map (R296 to R298), the codes (R290 to R294) and the host window (R277). -/

namespace Sys2Proof.Machine

/-- What an address of the map reaches. -/
inductive Loc
  | cellar | shared (c : Nat) | pm (c k : Nat) | xy (c k : Nat) | csr (off : Nat) | trlCfg (off : Nat) | trlBm (b : Nat)
  | dram | host (off : Nat) | none
  deriving DecidableEq, Repr

/-- R17 and R18. -/
def locate (a : Nat) : Loc :=
  if a < 0x04000000 then .cellar
  else if a < 0x10000000 then .none
  else if a < 0x1C000000 then
    let c := (a - 0x10000000) / 0x01000000
    let o := a % 0x01000000
    if o < 0x00800000 then
      let k := o / 0x00100000
      let p := o % 0x00100000
      if p < 0x20000 then .pm c k
      else if p < 0x40000 then .none
      else if p < 0xC0000 then .xy c k
      else .none
    else if 0x00C00000 ≤ o ∧ o < 0x00E00000 then .shared c
    else .none
  else if a < 0x20000000 then .none
  else if a < 0x30000000 then .csr (a - 0x20000000)
  else if a < 0x30100000 then .trlCfg (a - 0x30000000)
  else if a < 0x30200000 then .trlBm ((a - 0x30100000) / 0x1000)
  else if a < 0x1000000000 then .none
  else if a < 0x7000000000 then .dram
  else if a < 0x8000000000 then .none
  else if a < 0x10000000000 then .host (a - 0x8000000000)
  else .none

/-- The populated channels (R305). -/
def State.nch (s : State) : Nat :=
  match s.rdF Reg.memDramcfg 2 0 with
  | 2 => 2
  | 3 => 3
  | 6 => 6
  | _ => 1

/-- The capacity of one channel in bytes, by `DMC[0].CFG` (R304); 0 for a configuration that is not supported. -/
def State.chanCap (s : State) : Nat :=
  let gib := 2 ^ 30
  match s.rdF (Reg.dmcCfg 0) 24 24, s.rdF (Reg.dmcCfg 0) 20 20, s.rdF (Reg.dmcCfg 0) 16 16 with
  | 0, 0, 0 => 32 * gib
  | 0, 0, _ => 64 * gib
  | 0, _, 0 => 64 * gib
  | 0, _, _ => 0
  | _, 0, 0 => 16 * gib
  | _, 0, _ => 32 * gib
  | _, _, 0 => 32 * gib
  | _, _, _ => 64 * gib

/-- The populated DRAM in bytes (R305). -/
def State.dramCap (s : State) : Nat := s.nch * s.chanCap

/-- The first address of DRAM. -/
def dramBase : Nat := 0x1000000000

/-- The channel of a DRAM address and its channel address (R306). -/
def State.dramPlace (s : State) (a : Nat) : Nat × Nat :=
  let off := a - dramBase
  let q := off / 4096
  (q % s.nch, q / s.nch * 4096 + off % 4096)

/-- The parity of a number's bits. -/
def parity (n : Nat) : Nat → Bool
  | 0 => false
  | w + 1 => (tb n w) != parity n w

/-- Where a line lies within its channel (R308): the column C[10:4] or C[9:4], the row, and the seven selectors. -/
structure DramLoc where
  chan : Nat
  col : Nat
  row : Nat
  sel : List Bool
  deriving DecidableEq, Repr

/-- The seven selectors of a channel address: subchannel, BG0 to BG2, BA0, BA1, rank. -/
def State.selectors (s : State) (n ca : Nat) : List Bool :=
  (List.range 7).map fun i => parity (ca &&& s.rdPair (Reg.dmcMaskLo n i) (Reg.dmcMaskHi n i)) 36

/-- R308. -/
def State.dramLoc (s : State) (a : Nat) : DramLoc :=
  let (n, ca) := s.dramPlace a
  { chan := n
    col := ca / 2 ^ s.rdF (Reg.dmcMapcfg n) 13 8 % 2 ^ (if s.rdB (Reg.dmcCfg n) 24 then 6 else 7) * 16
    row := ca / 2 ^ s.rdF (Reg.dmcMapcfg n) 29 24 % 2 ^ (if s.rdB (Reg.dmcCfg n) 20 then 17 else 16)
    sel := s.selectors n ca }

/-- The row of a DRAM address: channel, row, and the seven selectors. -/
def State.dramRow (s : State) (a : Nat) : Nat × Nat × List Bool :=
  let l := s.dramLoc a
  (l.chan, l.row, l.sel)

/-- The subchannel of a DRAM address. -/
def State.subchannel (s : State) (a : Nat) : Nat := bn ((s.dramLoc a).sel.headD false)

/-- The state of a DRAM channel: RETRAIN while a pause lasts (R313, R320). -/
def State.dmcState (s : State) (n : Nat) : Nat :=
  let st := s.rdF (Reg.dmcStat n) 31 28
  if st = 2 ∧ s.cen.clock < (s.dmcAt n).pause then 5 else st

/-- Some channel in use has failed: accesses to its addresses are refused (R312). -/
def State.chanFailed (s : State) (a : Nat) : Bool := decide (s.dmcState (s.dramPlace a).1 = 6)

/-- The KIND of the access error that a DRAM range meets, or none (R20, R307, R312). -/
def State.dramErr (s : State) (a n : Nat) : Option Nat :=
  let fin := a + n - dramBase
  if s.dramCap < fin then some 3
  else if s.dramCap < fin + 0x200000 then some 4
  else if s.chanFailed a || s.chanFailed (a + n - 1) then some 4
  else none

/-- A region's state in `TRL.RSTAT`. -/
def State.regionSt (s : State) (r : Nat) : Nat := s.rdF Reg.trlRstat (4 * r + 3) (4 * r)

/-- The KIND of the access error that a range of memory meets, or none. CSR space is not memory: R7 governs it. -/
def State.rangeErr (s : State) (a n : Nat) : Option Nat :=
  let last := a + n - 1
  match locate a, locate last with
  | .none, _ => some 1
  | _, .none => some 1
  | .csr _, _ => some 2
  | _, .csr _ => some 2
  | .dram, .dram => s.dramErr a n
  | .host _, .host _ => if s.pcie.link then none else some 4
  | .pm c k, _ => if s.rdF (Reg.rsvCmap c) (4 * k + 3) (4 * k) = 15 then some 1 else none
  | .xy c k, _ => if s.rdF (Reg.rsvCmap c) (4 * k + 3) (4 * k) = 15 then some 1 else none
  | .trlBm b, .trlBm b' => if s.regionSt (b / 32) = 1 ∨ s.regionSt (b' / 32) = 1 then some 4 else none
  | _, _ => none

/-! ### Protection units and the records of errors -/

/-- The bytes that one code covers at an address: an aligned 64-bit word of SRAM or a 64-byte line of DRAM (R290, R295). -/
def unitBytes (a : Nat) : Nat :=
  match locate a with
  | .dram => 64
  | _ => 8

/-- The protected units that a range touches, by their first addresses. -/
def unitsOf (a n : Nat) : List Nat :=
  let u := unitBytes a
  (List.range ((a + n - 1) / u - a / u + 1)).map fun i => (a / u + i) * u

/-- The address bank of a cellar address and the offset in it (R288). -/
def bankPlace (a : Nat) : Nat × Nat :=
  let g := a / 256
  if a < 0x03800000 then (g % 28, g / 28 * 256 + a % 256) else (28 + g % 4, (g - 229376) / 4 * 256 + a % 256)

/-- The physical bank that serves a cellar address, a spare where one has taken over (R289). -/
def State.bankOf (s : State) (a : Nat) : Nat := mget id s.mem.bank (bankPlace a).1

/-- The physical core that a logical core is mapped to, as c × 9 + k′. -/
def State.physCore (s : State) (c k : Nat) : Nat := c * 9 + s.rdF (Reg.rsvCmap c) (4 * k + 3) (4 * k)

/-! Memories that have no device address are named beyond the map: the scheduler store by its lines, the valid map by its words, Decant
staging by channel and place in its data, engine buffers by engine and place, control-core caches by core and place (log entry 53). -/

/-- A line of the scheduler store. -/
def schedErr (row : Nat) : Nat := 2 ^ 48 + row * 64

/-- A word of the valid map: that of 64 regions (R297). -/
def mapErr (w : Nat) : Nat := 2 ^ 48 + 2 ^ 32 + w * 8

/-- A byte of a channel's staged data (R257). -/
def stagingErr (ch off : Nat) : Nat := 2 ^ 48 + 2 * 2 ^ 32 + ch * 2 ^ 18 + off

/-- A byte of a physical engine's buffers. -/
def bufferErr (p off : Nat) : Nat := 2 ^ 48 + 3 * 2 ^ 32 + p * 2 ^ 24 + off

/-- A byte of a control core's caches. -/
def cacheErr (i off : Nat) : Nat := 2 ^ 48 + 4 * 2 ^ 32 + i * 2 ^ 24 + off

/-- KIND and UNIT of an error in them. -/
def hiddenWhere (a : Nat) : Nat × Nat :=
  let o := a - 2 ^ 48
  match o / 2 ^ 32 with
  | 0 => (4, 0)
  | 1 => (10, 0)
  | 2 => (5, 0)
  | 3 => (6, o % 2 ^ 32 / 2 ^ 24)
  | _ => (7, 0)

/-- What `MEM.UE_ADDR` shows of an address: beyond the map, the offset within the memory. -/
def shownAddr (a : Nat) : Nat :=
  if a < 2 ^ 48 then a
  else
    let o := a - 2 ^ 48
    if o / 2 ^ 32 < 3 then o % 2 ^ 32 else o % 2 ^ 24

/-- KIND and UNIT of an error at an address, as `MEM.UE_STAT` codes them (R319). -/
def State.ueWhere (s : State) (a : Nat) : Nat × Nat :=
  match locate a with
  | .cellar => (0, s.bankOf a)
  | .shared c => (1, c)
  | .xy c k => (2, s.physCore c k)
  | .pm c k => (3, s.physCore c k)
  | .trlBm _ => (8, 0)
  | .dram => (9, (s.dramPlace a).1 * 2 + s.subchannel a)
  | _ => hiddenWhere a

/-- An uncorrectable error recorded, MORE as it stands until its own W1C (R294, R319). -/
def State.ueRecord (s : State) (walker : Bool) (kind unit a : Nat) : State :=
  let s := (s.count Reg.memUeCnt 1).tally 9 0 5 1
  let s :=
    if s.rdB Reg.memUeStat 31 then s.wrF Reg.memUeStat 30 30 1
    else
      let s := s.wr Reg.memUeStat (2 ^ 31 + s.rdF Reg.memUeStat 30 30 * 2 ^ 30 + bn walker * 2 ^ 27 + kind * 2 ^ 20 + unit * 2 ^ 8)
      s.wrPair Reg.memUeAddrLo Reg.memUeAddrHi 16 a
  s.devErr 2

/-- 24 hours in ns. -/
def dayNs : Nat := 86400000000000

/-- The unit whose wear an error at an address counts for, as `Wear` names it. -/
def State.wearAt (s : State) (a : Nat) : Option (Nat × Nat) :=
  let o := a - 2 ^ 48
  match locate a, s.ueWhere a with
  | .dram, _ => some (12, a)
  | _, (0, b) => some (2, b)
  | _, (2, p) => some (0, p)
  | _, (3, p) => some (0, p)
  | _, (4, _) => some (13, o / 4096)
  | _, (6, p) => some (4, p)
  | _, (7, _) => some (1, o % 2 ^ 32 / 2 ^ 24)
  | _, _ => none

/-- An error counted as wear, over a rolling window of 24 hours (R434, R435). -/
def State.addWear (s : State) (a : Nat) (ue : Bool) : State :=
  match s.wearAt a with
  | none => s
  | some (kind, unit) =>
    let w := s.rsv.wear.filter fun w => decide (s.ns < w.time + dayNs)
    { s with rsv := { s.rsv with wear := { kind := kind, unit := unit, time := s.ns, ue := ue } :: w } }

/-- The correctable errors of a unit in the last 24 hours, and whether the Riddler has found an uncorrectable one. -/
def State.wearOf (s : State) (kind unit : Nat) : Nat × Bool :=
  let w := s.rsv.wear.filter fun w => w.kind == kind && w.unit == unit && decide (s.ns < w.time + dayNs)
  ((w.filter fun w => !w.ue).length, w.any fun w => w.ue)

/-- The correctable lines of the row of `a` in the last 24 hours. -/
def State.wornLines (s : State) (a : Nat) : Nat :=
  (((s.rsv.wear.filter fun w => w.kind == 12 && s.dramRow w.unit == s.dramRow a && decide (s.ns < w.time + dayNs)).map fun w => w.unit).eraseDups).length

/-- An uncorrectable error at an address recorded; a DRAM channel counts its own too. -/
def State.ueAt (s : State) (walker : Bool) (a : Nat) : State :=
  let (kind, unit) := s.ueWhere a
  let s := s.ueRecord walker kind unit (shownAddr a)
  let s := if (walker && kind == 0) || kind == 4 then s.addWear a true else s
  if kind = 9 then (s.count (Reg.dmcUeCnt (unit / 2)) 1).tally 5 (unit / 2) 8 1 else s

/-- Uncorrectable errors recorded one after another. -/
def State.uesAt (s : State) (us : List Nat) : State := us.foldl (fun s u => s.ueAt false u) s

/-- A correctable error counted (R294). -/
def State.ceAt (s : State) (a : Nat) : State :=
  let (kind, unit) := s.ueWhere a
  let s := s.addWear a false
  match kind with
  | 0 => ((s.count (Reg.memCeCnt 0) 1).count (Reg.memBankCe unit) 1).tally 9 0 0 1
  | 1 => (s.count (Reg.memCeCnt 1) 1).tally 9 0 1 1
  | 2 => (s.count (Reg.memCeCnt 2) 1).tally 9 0 2 1
  | 4 => (s.count (Reg.memCeCnt 3) 1).tally 9 0 3 1
  | 9 => (s.count (Reg.dmcCeCnt (unit / 2)) 1).tally 5 (unit / 2) 7 1
  | _ => (s.count (Reg.memCeCnt 4) 1).tally 9 0 4 1

/-- The symbol of the DRAM code that a bit of a line lies in: bit 16 p + b travels on DQ pin p in beat b (R295). -/
def symbolOf (bit : Nat) : Nat := bit / 16 * 2 + bit % 16 / 8

/-- How many of its code's symbols an error covers: bits of a 72-bit word (R290), symbols of a 640-bit DRAM line (R295). -/
def errWeight (u : Nat) (flips : List Nat) : Nat :=
  if locate u = .dram then ((List.range 80).filter fun y => flips.any fun b => symbolOf b == y).length else flips.length

/-- The flipped bits of a protected unit. -/
def State.flipsAt (s : State) (u : Nat) : List Nat := mget (fun _ => []) s.mem.err u

/-- The error that a protected unit holds, if any: true is uncorrectable, which two symbols in error are. -/
def State.errAt (s : State) (u : Nat) : Option Bool :=
  match s.flipsAt u with
  | [] => none
  | f => some (decide (2 ≤ errWeight u f))

/-- A unit's flipped bits set. -/
def State.setFlips (s : State) (u : Nat) (f : List Nat) : State := { s with mem := { s.mem with err := mput (fun _ => []) s.mem.err u f } }

/-- A unit's error removed. -/
def State.clearErr (s : State) (u : Nat) : State := { s with mem := { s.mem with err := mdel s.mem.err u } }

/-- A DRAM address of the valid map as it is saved, with its CRC-32 behind it (R297, R307). -/
def State.inSavedMap (s : State) (a : Nat) : Bool :=
  let base := dramBase + s.dramCap - 0x100000
  s.mem.saved.isSome && decide (base ≤ a ∧ a < base + 786436)

/-- Whether the memory of a unit has ever been written: an invalid line or region is never checked (R296, R297). -/
def State.written (s : State) (a : Nat) : Bool :=
  match locate a with
  | .cellar => s.mem.valid.contains (a / 64)
  | .shared _ => s.mem.valid.contains (a / 64)
  | .dram => s.mem.vmap.contains ((a - dramBase) / 65536) || s.inSavedMap a
  | _ => true

/-- A unit checked on a read (R291, R292): a correctable one is counted and written back, an uncorrectable one recorded. -/
def State.checkUnit (s : State) (u : Nat) : Option Nat × State :=
  if !s.written u then (none, s)
  else
    match s.errAt u with
    | some true => (some u, s.ueAt false u)
    | some false => (none, (s.ceAt u).clearErr u)
    | none => (none, s)

/-- The units of a range checked: the first uncorrectable one, if any. -/
def State.checkUnits (s : State) : List Nat → Option Nat × State
  | [] => (none, s)
  | u :: us =>
    let r := s.checkUnit u
    let rest := r.2.checkUnits us
    (r.1.or rest.1, rest.2)

/-- Bits of a unit flip. Memory that has never been written holds nothing to flip (R296). What more symbols in error than two do, the codes do
not say but for their likelihood: they are detected, or form another codeword, or in a word look like one bit (R290, R295). -/
def State.setErr (s : State) (u : Nat) (flips : List Nat) : State :=
  if !s.written u then s
  else
    let f := (flips.filter fun b => decide (b < 9 * unitBytes u ∨ (locate u = .dram ∧ b < 640))).foldl
      (fun f b => if f.contains b then sdel f b else sins f b) (s.flipsAt u)
    if errWeight u f < 3 ∨ 2 ^ 48 ≤ u ∨ s.inSavedMap u then s.setFlips u f
    else
      let (r, s) := s.free (if locate u = .dram then 2 else 3)
      if r = 0 then s.setFlips u f
      else
        let b := s.freeBytes (unitBytes u)
        (b.2.setFlips u (if r = 1 then [] else [0])).putDev u b.1

/-- Buffered data of `n` bytes used: the words in error among them checked, and whether one is uncorrectable (R292). -/
def State.bufferUse (s : State) (base n : Nat) : Bool × State :=
  ((s.mem.err.map (·.1)).filter fun u => decide (base ≤ u ∧ u < base + n)).foldl (fun (r : Bool × State) u =>
    let (b, t) := r.2.checkUnit u
    (r.1 || b.isSome, t)) (false, s)

/-- Buffer words that new data has replaced, or that hold none. -/
def State.bufferClear (s : State) (base n : Nat) : State :=
  { s with mem := { s.mem with err := mdrop (fun u => decide (base ≤ u ∧ u < base + n)) s.mem.err } }

/-! ### Never-written memory -/

/-- The first write to a region of DRAM: it is zero-filled and its bit set (R297). -/
def State.fillRegion (s : State) (r : Nat) : State :=
  if s.mem.vmap.contains r then s
  else
    let n := (s.dramPlace (dramBase + r * 65536)).1
    ({ s with mem := { s.mem with
        vmap := sins s.mem.vmap r
        err := mdrop (fun a => decide (dramBase + r * 65536 ≤ a ∧ a < dramBase + (r + 1) * 65536)) s.mem.err
        dev := mdrop (fun a => decide (dramBase + r * 65536 ≤ a ∧ a < dramBase + (r + 1) * 65536)) s.mem.dev } }).tally 5 n 10 1

/-- The numbers of the aligned blocks of `u` bytes that a range touches. -/
def blocksOf (u a n : Nat) : List Nat := (List.range ((a + n - 1) / u - a / u + 1)).map fun i => a / u + i

/-- Lines made valid: those that were not hold zeros, with their check bits (R296). -/
def State.validLines (s : State) (ls : List Nat) : State :=
  let new := ls.filter fun l => !s.mem.valid.contains l
  { s with mem := { s.mem with valid := new.foldl sins s.mem.valid, err := mdrop (fun u => new.contains (u / 64)) s.mem.err } }

/-- What a write makes valid before it lands (R296, R297). -/
def State.validate (s : State) (a n : Nat) : State :=
  match locate a with
  | .cellar => s.validLines (blocksOf 64 a n)
  | .shared _ => s.validLines (blocksOf 64 a n)
  | .dram => (blocksOf 65536 (a - dramBase) n).foldl (fun s r => s.fillRegion r) s
  | _ => s

/-- A region of DRAM that an uncorrectable word of the valid map makes count as written (R292): if it never was, its bytes and its checks are
open. -/
def State.rawRegion (s : State) (r : Nat) : State :=
  if s.mem.vmap.contains r || decide (s.dramCap < (r + 1) * 65536) then s
  else
    let (bs, s) := s.freeBytes 65536
    let (es, s) := s.freeBytes 1024
    let base := dramBase + r * 65536
    let s := ({ s with mem := { s.mem with vmap := sins s.mem.vmap r } } : State).putDev base bs
    es.zipIdx.foldl (fun s e => if tb e.1.toNat 0 then s.setFlips (base + 64 * e.2) [0, 16] else s) s

/-- A word of the valid map read: where it is uncorrectable, its 64 regions count as written (R290, R292). -/
def State.mapWord (s : State) (w : Nat) : State :=
  match s.checkUnit (mapErr w) with
  | (none, s) => s
  | (some _, s) => ((List.range 64).map fun i => w * 64 + i).foldl (fun s r => s.rawRegion r) s

/-- The words of the valid map read for a range of DRAM (R297). -/
def State.mapRead (s : State) (a n : Nat) : State :=
  match locate a with
  | .dram => (blocksOf (64 * 65536) (a - dramBase) n).foldl (fun s w => s.mapWord w) s
  | _ => s

/-- The valid map as bytes: region 8 i + b in bit b of byte i (log entry 53). -/
def mapBytes (m : List Nat) : List Byte :=
  (List.range 786432).map fun i => BitVec.ofNat 8 (((List.range 8).filter fun b => m.contains (8 * i + b)).foldl (fun v b => v + 2 ^ b) 0)

/-- The valid map saved with its CRC-32, where the DRAM is there to hold it (R297, R454): the words in error count as they are read. -/
def State.saveMap (s : State) : State :=
  let s := ((s.mem.err.map (·.1)).filter fun u => decide (mapErr 0 ≤ u ∧ u < mapErr 98304)).foldl (fun s u => s.mapWord ((u - mapErr 0) / 8)) s
  if (List.range s.nch).all fun n => (s.dmcAt n).trained then
    { s with mem := { s.mem with saved := some (s.mem.vmap, crc32 (mapBytes s.mem.vmap)) } }
  else s

/-- The saved map passes its check: its lines can be read, and the CRC-32 is that of its bytes (R297). -/
def State.savedOk (s : State) : Bool :=
  match s.mem.saved with
  | none => true
  | some (m, c) => !(s.mem.err.any fun e => s.inSavedMap e.1 && s.errAt e.1 == some true) && decide (crc32 (mapBytes m) = c)

/-- Memory forgotten at the addresses that satisfy `p`: its bytes read zero and are not checked. -/
def State.forgetIf (s : State) (p : Nat → Bool) : State :=
  { s with mem := { s.mem with
      dev := mdrop p s.mem.dev
      err := mdrop p s.mem.err
      valid := s.mem.valid.filter fun l => !p (l * 64)
      vmap := s.mem.vmap.filter fun r => !p (dramBase + r * 65536) } }

/-- Memory forgotten over a range of addresses. -/
def State.forget (s : State) (lo hi : Nat) : State := s.forgetIf fun a => decide (lo ≤ a ∧ a < hi)

/-- The words of the valid map that clearing the regions from `lo` to below `hi` covers only in part and that are uncorrectable. -/
def State.mapStuck (s : State) (lo hi : Nat) : List Nat :=
  (s.mem.err.map (·.1)).filter fun u =>
    let w := (u - mapErr 0) / 8
    decide (mapErr 0 ≤ u ∧ u < mapErr 98304) && decide (lo < (w + 1) * 64 ∧ w * 64 < hi) && !decide (lo ≤ w * 64 ∧ (w + 1) * 64 ≤ hi) &&
      s.errAt u == some true

/-- The bits of DRAM regions cleared: an uncorrectable word of the map keeps its other bits only if it is not written (R293). -/
def State.forgetRegions (s : State) (lo hi : Nat) : State :=
  let stuck := s.mapStuck lo hi
  let at' := fun a => (a - dramBase) / 65536
  let s := (s.uesAt stuck).forgetIf fun a => decide (dramBase ≤ a) && decide (lo ≤ at' a ∧ at' a < hi) && !stuck.contains (mapErr (at' a / 64))
  { s with mem := { s.mem with err := mdrop (fun u => decide (mapErr 0 ≤ u ∧ u < mapErr 98304) && decide (lo ≤ (u - mapErr 0) / 8 * 64 ∧
    ((u - mapErr 0) / 8 + 1) * 64 ≤ hi)) s.mem.err } }

/-- MEM.VCLR over a range, both ends included: none where the range is ignored and sets ERR (R298). -/
def State.vclr (s : State) (base limit : Nat) : Option State :=
  if limit < base then none
  else
    match locate base, locate limit with
    | .cellar, .cellar => some (s.forget (base / 64 * 64) (limit / 64 * 64 + 64))
    | .dram, .dram =>
      let lo := (alignUp base 65536 - dramBase) / 65536
      let hi := (limit + 1 - dramBase) / 65536
      some (if lo < hi then s.forgetRegions lo hi else s)
    | _, _ => none

/-! ### One access -/

/-- How a read ends. -/
inductive RdRes
  | ok (bytes : List Byte)
  | err (kind : Nat)         -- an access error, to be recorded for its initiator
  | ue (addr : Nat)          -- uncorrectable data, already recorded
  deriving DecidableEq, Repr

/-- How a write ends. -/
inductive WrRes
  | ok
  | err (kind : Nat)
  | ue (addr : Nat)
  deriving DecidableEq, Repr

/-- The bus address of a host-window offset (R28). -/
def State.busAddr (s : State) (off : Nat) : Nat := s.rdPair Reg.pcieHwbaseLo Reg.pcieHwbaseHi + off

/-- A byte of a configuration frame: the frame of a loaded region, zero for an EMPTY one (R407). -/
def State.cfgByte (s : State) (off : Nat) : Byte :=
  if s.regionSt (off / 0x20000) = 0 then 0
  else
    let w : Word := mget (fun _ => 0) s.trl.frames (off / 4)
    BitVec.ofNat 8 (w.toNat / 256 ^ (off % 4))

/-- A range of PM lies in the ways that are locked (R115). -/
def State.pmLocked (s : State) (c k a n : Nat) : Bool := decide ((a + n - 1) % 0x20000 < min 2 (s.rdF (Reg.dspcPmLock c k) 1 0) * 0x8000)

/-- A read of protected memory, each unit checked. -/
def State.checkedRead (s : State) (a n : Nat) : RdRes × State :=
  match (s.mapRead a n).checkUnits (unitsOf a n) with
  | (some u, s') => (.ue u, s')
  | (none, s') => (.ok (s'.devBytes a n), s')

/-- A read of memory, without the record of an access error. -/
def State.memRead (s : State) (a n : Nat) : RdRes × State :=
  if n = 0 then (.ok [], s)
  else
    match s.rangeErr a n with
    | some k => (.err k, s)
    | none =>
      match locate a with
      | .host off => (.ok (s.hostBytes (s.busAddr off) n), s)
      | .trlCfg off => (.ok ((List.range n).map fun i => s.cfgByte (off + i)), s)
      | .pm c k => if s.pmLocked c k a n then s.checkedRead a n else (.err 4, s)
      | .trlBm _ =>
        match s.checkUnits (unitsOf a n) with
        | (some _, s') => (.ok (s.devBytes a n), s'.wrF Reg.trlStat 29 29 1)
        | (none, s') => (.ok (s.devBytes a n), s')
      | _ => s.checkedRead a n

/-- The units that a write covers in part and that are uncorrectable (R293). -/
def State.partialUes (s : State) (a n : Nat) (us : List Nat) : List Nat :=
  us.filter fun u => !decide (a ≤ u ∧ u + unitBytes u ≤ a + n) && s.written u && s.errAt u == some true

/-- The errors of a range after a write over it: a unit covered whole is replaced; a partial write corrects a correctable one. -/
def State.overwrite (s : State) (a n : Nat) : List Nat → State
  | [] => s
  | u :: us =>
    let full := decide (a ≤ u ∧ u + unitBytes u ≤ a + n)
    match s.errAt u with
    | none => s.overwrite a n us
    | some false => ((if full || !s.written u then s else s.ceAt u).clearErr u).overwrite a n us
    | some true => (s.clearErr u).overwrite a n us

/-- A write of protected memory: a unit covered in part is read first (R293, R299). -/
def State.checkedWrite (s : State) (a : Nat) (bs : List Byte) : WrRes × State :=
  let n := bs.length
  let s := s.mapRead a n
  match s.partialUes a n (unitsOf a n) with
  | u :: us => (.ue u, s.uesAt (u :: us))
  | [] => (.ok, ((s.overwrite a n (unitsOf a n)).validate a n).putDev a bs)

/-- A write to memory, without the record of an access error. Configuration frames accept no write here (R407). -/
def State.memWrite (s : State) (a : Nat) (bs : List Byte) : WrRes × State :=
  let n := bs.length
  if n = 0 then (.ok, s)
  else
    match s.rangeErr a n with
    | some k => (.err k, s)
    | none =>
      match locate a with
      | .host off => (.ok, s.post1 (s.busAddr off) bs)
      | .trlCfg _ => (.err 4, s)
      | .pm c k => if s.pmLocked c k a n then s.checkedWrite a bs else (.err 4, s)
      | _ => s.checkedWrite a bs

end Sys2Proof.Machine
end

