-- ==== Sys2Proof/Machine/DramQueue.lean ====
section
/-! DEFINITION. Accesses by an initiator: what refuses it, the service class it carries (R13), and the queues of the DRAM controllers
(R309, R310). Reads are served within the command that makes them; the write queue holds which lines wait, with the newest data in
memory already, as every read finds it (log entry 25). -/

namespace Sys2Proof.Machine

/-! ### Service classes (R13, R263) -/

/-- The class that a descriptor's traffic carries: not below the channel's SCMIN, but for a channel of the fronthaul block; that of a prestage
is SC2 (R427). -/
def State.dctClass (s : State) (ch : Nat) : Nat :=
  if s.rsv.prestage.any fun p => p.channel = some ch ∧ p.result.isNone then 2
  else
  let sc := fld (leAt (s.dctAt ch).desc 32 4) 9 8
  if s.rdF (Reg.dctChCfg ch) 25 24 = 2 then sc else max sc (s.rdF (Reg.dctChCfg ch) 1 0)

/-- The class of an initiator's requests. R13 names none for Trellis: PRESUMED that of bulk traffic (log entry 53). -/
def State.initClass (s : State) : Init → Nat
  | .dct ch => s.dctClass ch
  | .eng _ => 1
  | .dsp _ _ => 2
  | .trl => 2
  | _ => 3

/-! ### The controllers -/

/-- A channel serves requests (R320). -/
def State.dramServes (s : State) (n : Nat) : Bool := s.rdB (Reg.dmcCtrl n) 31 && s.dmcState n == 2

/-- The device address of a line of a channel (R306). -/
def State.lineAddr (s : State) (n line : Nat) : Nat := dramBase + (line / 64 * s.nch + n) * 4096 + line % 64 * 64

/-- A row is open in its bank. -/
def DmcState.opens (d : DmcState) (l : DramLoc) : Bool := d.rows.any fun r => r.1 == l.sel && r.2 == l.row

/-- A command to a line issued: an activation counted where its row was not open. The retry buffer holds the last 64, latest first (R312). -/
def State.dramIssue (s : State) (n line : Nat) (write : Bool) : State :=
  let l := s.dramLoc line
  let s := if (s.dmcAt n).opens l then s else s.tally 5 n 3 1
  let d := s.dmcAt n
  s.setDmc n { d with
    rows := (l.sel, l.row) :: d.rows.filter fun r => r.1 ≠ l.sel
    retry := ((s.cen.clock, line, write) :: d.retry).take 64 }

/-- A queued write issued: one that does not cover its line is one read-modify-write (R299, R310). Older ones of its class have been passed
once more. -/
def State.issueWrite (s : State) (n : Nat) (w : QWrite) : State :=
  let d := s.dmcAt n
  let older := d.writes.takeWhile fun x => x.line ≠ w.line
  let rest := (d.writes.drop older.length).filter fun x => x.line ≠ w.line
  let s := s.setDmc n { d with writes := (older.map fun x => if x.cls = w.cls then { x with passed := x.passed + 1 } else x) ++ rest }
  let s := if w.whole then s else (s.tally 5 n 2 1).dramIssue n w.line false
  (s.tally 5 n 1 1).dramIssue n w.line true

/-- The writes queued at a subchannel, oldest first. -/
def State.queued (s : State) (n sub : Nat) : List QWrite := (s.dmcAt n).writes.filter fun w => s.subchannel w.line == sub

/-- The write that comes next (R309): the oldest that has waited longer than AGE, else of the lowest class one to an open row, which passes an
older one no more than 16 times. -/
def State.nextWrite (s : State) (n sub : Nat) : Option QWrite :=
  let q := s.queued n sub
  (q.find? fun w => decide (s.rdF (Reg.dmcAge n w.cls) 15 0 * 2 ^ 32 < s.cen.clock - w.since)).or
    ((List.range 4).findSome? fun c =>
      match q.filter fun w => w.cls == c with
      | [] => none
      | o :: l => if o.passed < 16 then ((o :: l).find? fun w => (s.dmcAt n).opens (s.dramLoc w.line)).or (some o) else some o)

/-- A batch of writes, until 8 remain (R309). -/
def State.writeBatch : Nat → State → Nat → Nat → State
  | 0, s, _, _ => s
  | f + 1, s, n, sub =>
    if (s.queued n sub).length ≤ 8 then s
    else
      match s.nextWrite n sub with
      | none => s
      | some w => State.writeBatch f (s.issueWrite n w) n sub

/-- A write enters its queue: it merges into one to the same line; the 24th begins a batch. -/
def State.queueWrite (s : State) (cls line : Nat) (whole : Bool) : State :=
  let n := (s.dramPlace line).1
  let d := s.dmcAt n
  if d.writes.any fun w => w.line == line then
    s.setDmc n { d with writes := d.writes.map fun w => if w.line = line then { w with whole := w.whole || whole } else w }
  else
    let s := s.setDmc n { d with writes := d.writes ++ [{ line := line, cls := cls, since := s.cen.clock, whole := whole, passed := 0 }] }
    let sub := s.subchannel line
    if 24 ≤ (s.queued n sub).length ∧ s.dramServes n then s.writeBatch 64 n sub else s

/-- A read of a line: a queued write to it is issued first (R310). How long the read takes is not stated (R512, log entry 1). -/
def State.queueRead (s : State) (cls line : Nat) : State :=
  let n := (s.dramPlace line).1
  let s := match (s.dmcAt n).writes.find? fun w => w.line == line with
    | some w => s.issueWrite n w
    | none => s
  let r := s.free (2 ^ 32)
  ((r.2.tally 5 n 0 1).hist 5 n cls r.1).dramIssue n line false

/-- The reads that an access to DRAM makes: none of a region never written (R297). -/
def State.dramReads (s : State) (cls a n : Nat) : State :=
  match locate a with
  | .dram => (unitsOf a n).foldl (fun s l => if s.written l then s.queueRead cls l else s) s
  | _ => s

/-- The regions of a range of DRAM that have never been written. -/
def State.freshRegions (s : State) (a n : Nat) : List Nat :=
  match locate a with
  | .dram => (blocksOf 65536 (a - dramBase) n).filter fun r => !s.mem.vmap.contains r
  | _ => []

/-- The 1,024 writes that fill a region, in the class of the write that triggers them (R297). -/
def State.fillWrites (s : State) (cls r : Nat) : State :=
  (List.range 1024).foldl (fun s i => s.queueWrite cls (dramBase + r * 65536 + i * 64) true) s

/-- The writes that an access to DRAM makes, after the fills of `new` regions. -/
def State.dramWrites (s : State) (cls a n : Nat) (new : List Nat) : State :=
  match locate a with
  | .dram =>
    let s := new.foldl (fun s r => s.fillWrites cls r) s
    (unitsOf a n).foldl (fun s l => s.queueWrite cls l (decide (a ≤ l ∧ l + 64 ≤ a + n))) s
  | _ => s

/-- An access to DRAM waits: a read whose channel does not serve requests, and a write that finds no room there in the queue of 32 (R309,
R313, R320). -/
def State.dramWaits (s : State) (write : Bool) (a n : Nat) : Bool :=
  match locate a, s.rangeErr a n with
  | .dram, none =>
    (unitsOf a n).any fun l =>
      let c := (s.dramPlace l).1
      !s.dramServes c && (if write then !s.written l || decide (32 ≤ (s.queued c (s.subchannel l)).length) else s.written l)
  | _, _ => false

/-- A cluster awake again. -/
def State.wakeCluster (s : State) (c : Nat) : State :=
  if s.rdF (Reg.pwrCl c) 3 0 = 2 then ((s.wrF (Reg.pwrCl c) 3 0 0).wrF (Reg.rsvLoad c) 31 31 1).tally 1 c 3 1 else s

/-- An access from outside a sleeping cluster wakes its memories and crossbar (R450); the cluster may sleep again afterwards. -/
def State.wakeAt (s : State) (a : Nat) : State :=
  match locate a with
  | .shared c => s.wakeCluster c
  | .pm c _ => s.wakeCluster c
  | .xy c _ => s.wakeCluster c
  | _ => s

/-! ### Accesses -/

/-- Memory that refuses an initiator: a PM window serves control cores and Decant only (R109, R115); engines reach neither
configuration space nor CSR space (R184). -/
def refusedTo (i : Init) (a : Nat) : Bool :=
  match locate a, i with
  | .pm _ _, .ctl _ => false
  | .pm _ _, .dct _ => false
  | .pm _ _, _ => true
  | .trlCfg _, .eng _ => true
  | .csr _, .eng _ => true
  | _, _ => false

/-- A read for an initiator: an access error is recorded (R21, R22) and gives none. -/
def State.busRead (s : State) (i : Init) (a n : Nat) : RdRes × State :=
  match if refusedTo i a then (.err 4, s) else (s.wakeAt a).memRead a n with
  | (.err k, s) => (.err k, s.aerr i k false false a)
  | (r, s) => (r, s.dramReads (s.initClass i) a n)

/-- A write for an initiator: an access error is recorded. -/
def State.busWrite (s : State) (i : Init) (a : Nat) (bs : List Byte) : WrRes × State :=
  let new := s.freshRegions a bs.length
  match if refusedTo i a then (.err 4, s) else (s.wakeAt a).memWrite a bs with
  | (.err k, s) => (.err k, s.aerr i k true false a)
  | (.ok, s) => (.ok, s.dramWrites (s.initClass i) a bs.length new)
  | (.ue u, s) => (.ue u, s)

end Sys2Proof.Machine
end

