-- ==== Sys2Proof/Machine/Clock.lean ====
section
/-! DEFINITION. The passing of time: ticks of the Meridian counter clock (R364), of XTAL32 (R470), and what Census counts in time
(R509, R512, R514). A command that the specification places at a time carries the clock on to that time (`State.until`), exactly as
so many idle steps would. -/

namespace Sys2Proof.Machine

/-- `x / d` rounded to the nearest whole number, ties towards plus infinity (R168); `d` is positive. -/
def roundHalfUp (x : Int) (d : Nat) : Int := (2 * x + d) / (2 * d : Nat)

/-- HWIN in seconds, held to 1 to 1,024 (R390). -/
def State.hwin (s : State) : Nat := max 1 (min 1024 (s.rdF Reg.mrdHold 31 16))

/-- The LOCKED samples of the last HWIN seconds (R371). -/
def State.lockedSamples (s : State) : List (Nat × Int) :=
  s.mrd.window.filter fun e => decide (s.clockNs < e.1 + s.hwin * 1000000000)

/-- FAVG as it reads: while LOCKED, the mean of FREQ over those samples if there are any (R371); otherwise as it stood. -/
def State.favgNow (s : State) : Nat :=
  let w := s.lockedSamples
  if s.rdF Reg.mrdState 3 0 = 2 ∧ !w.isEmpty then wrap 32 (roundHalfUp (w.map (·.2)).sum w.length) else s.rd Reg.mrdFavg

/-- INCR_NOM of R364. -/
def incrNom : Nat := 0xCCCCCCCD

/-- A frequency word held within ±500,000 ppb (R364). -/
def freqHeld (f : Int) : Int := max (-512000000) (min 512000000 f)

/-- INCR for a frequency word, in 2^-32 ns (R364). -/
def incrOf (freq : Int) : Nat := (incrNom + roundHalfUp (incrNom * freqHeld freq) (1024 * 10 ^ 9)).toNat

/-- INCR in force. -/
def State.incr (s : State) : Nat := incrOf (sx 32 (s.rd Reg.mrdFreq))

/-- Where the 96-bit time wraps, in 2^-32 ns. -/
def timeWrap : Nat := 2 ^ 48 * 10 ^ 9 * 2 ^ 32

/-! ### What Census counts in time -/

/-- The time counters of CORE: GATED_NS of every physical core of cluster `c` whose clock is stopped (R148, R514). -/
def State.coreTime (s : State) (c : Nat) : List Nat :=
  let map := s.rd (Reg.rsvCmap c)
  let asleep := s.rdF (Reg.pwrCl c) 3 0 ≠ 0
  (List.range 9).filterMap fun p =>
    match (List.range 8).find? fun k => fld map (4 * k + 3) (4 * k) = p with
    | some k =>
      let st := (s.core c k).st
      if asleep ∨ st = .waiting ∨ st = .off then some (cenKey 0 (c * 9 + p) 2) else none
    | none => some (cenKey 0 (c * 9 + p) 2)

/-- AWAKE_NS, SLEEP_NS or OFF_NS of a cluster. -/
def State.clusterTime (s : State) (c : Nat) : Nat :=
  cenKey 1 c (match s.rdF (Reg.pwrCl c) 3 0 with | 0 => 0 | 2 => 1 | _ => 2)

/-- BUSY_NS, IDLE_NS or SLEEP_NS of an engine in service, by its physical number. -/
def State.engineTime (s : State) (e : Nat) : Option (Nat × Nat) :=
  let st := if e < 76 then (s.engAt e).st else (s.nfeAt (e - 76)).st
  let phys := s.rdF (Reg.rsvEmap e) 7 0
  match st with
  | .running | .stopping => some (phys, cenKey 2 phys 0)
  | .idle => some (phys, cenKey 2 phys 1)
  | .sleep => some (phys, cenKey 2 phys 2)
  | .off | .isolated => none

/-- A key put into a rising list. -/
def insertKey (k : Nat) : List Nat → List Nat
  | [] => [k]
  | j :: m => if k ≤ j then k :: j :: m else j :: insertKey k m

/-- UP_NS of each lane whose stage is 9. -/
def State.laneTime (s : State) : List Nat :=
  s.csr.filterMap fun e =>
    if 0xC00000 ≤ e.1 ∧ e.1 < 0xE00000 ∧ e.1 % 0x1000 = 4 ∧ fld e.2.toNat 31 28 = 9 then
      some (cenKey 6 ((e.1 - 0xC00000) / 0x20000 * 17 + (e.1 - 0xC00000) % 0x20000 / 0x1000) 1)
    else none

/-- A Tether link whose next frame waits for credits (R350). -/
def stalled (t : TetherState) : Bool :=
  t.up && t.entries.any fun e => e.status == 0 && !e.posted &&
    (if e.sent < e.len then decide ((t.wGiven + 65536 - t.wSpent) % 65536 < (min (256 - (e.dst + e.sent) % 256) (e.len - e.sent) + 63) / 64)
     else decide ((t.eGiven + 256 - t.eSpent) % 256 = 0))

/-- The time counters that count now, in rising order. -/
def State.timeKeys (s : State) : List Nat :=
  (List.range 12).flatMap s.coreTime ++ (List.range 12).map s.clusterTime ++
  ((List.range 80).filterMap s.engineTime).foldr (fun e m => insertKey e.2 m) [] ++
  (if s.cm.subs.isEmpty then [] else [cenKey 3 0 8]) ++ s.laneTime ++
  (List.range 3).filterMap fun t =>
    if stalled (mget (fun _ => .reset) s.front.tether t) then some (cenKey 7 (64 + t) 5) else none

/-- Time counters are kept in ticks of 0.8 ns and read in ns (R509); this many ticks are 2^48 ns. -/
def tickWrap : Nat := 5 * 2 ^ 46

/-- `n` added at each key of a rising list. -/
def addAll (n : Nat) : Nat → List (Nat × Nat) → List Nat → List (Nat × Nat)
  | 0, m, _ => m
  | _ + 1, m, [] => m
  | f + 1, [], k :: ks => (k, n % tickWrap) :: addAll n f [] ks
  | f + 1, (j, v) :: m, k :: ks =>
    if j < k then (j, v) :: addAll n f m (k :: ks)
    else if k < j then (k, n % tickWrap) :: addAll n f ((j, v) :: m) ks
    else (j, (v + n) % tickWrap) :: addAll n f m ks

/-- `n` ticks in every time counter that counts now. -/
def State.countTime (s : State) (n : Nat) : State :=
  let ks := s.timeKeys
  let vals := addAll n (s.cen.vals.length + ks.length) s.cen.vals ks
  { s with cen := { s.cen with vals := vals.filter fun e => e.2 ≠ 0 } }

/-- A time counter advanced by `n` ticks. -/
def State.tallyTime (s : State) (g u i n : Nat) : State :=
  { s with cen := { s.cen with vals := mmod (fun _ => 0) s.cen.vals (cenKey g u i) fun v => (v + n) % tickWrap } }

/-- The stall time of each Tether link that waits for credits, since `CREDIT_STALL` was last read (R362). -/
def State.stallTime (s : State) (n : Nat) : State :=
  { s with front := { s.front with
      tether := s.front.tether.map fun e => (e.1, if stalled e.2 then { e.2 with stall := e.2.stall + n } else e.2) } }

/-! ### Ticks -/

/-- XTAL32 over `n` ticks of the counter clock: its count and the uptime, once the crystal runs. -/
def State.xtalRun (s : State) (n : Nat) : State :=
  if !s.nw.on || !s.nw.xtal then s
  else
    let u := s.nw.sub + n * 32768
    let ticks := s.nw.ticks + u / xtalUnit
    { s with nw := { s.nw with
      sub := u % xtalUnit, ticks := ticks, uptime := s.nw.uptime + (ticks / 32768 - s.nw.ticks / 32768) } }

/-- Meridian's counter over `n` ticks: it runs while the payload does (R364). -/
def State.counterRun (s : State) (n : Nat) : State :=
  if !s.pwr.up || !s.mrd.run then s
  else
    { s with
      mrd := { s.mrd with time := (s.mrd.time + n * s.incr) % timeWrap }
      cen := { s.cen with clock := s.cen.clock + n * s.incr } }

/-- `n` ticks of the 1.25 GHz counter clock in which nothing else happens. -/
def State.elapse (s : State) (n : Nat) : State :=
  let s := (s.xtalRun n).counterRun n
  if s.pwr.up then (s.countTime n).stallTime n else s

/-- Time runs on to the first tick at or after `t`, in 2^-32 ns; nothing where that has passed or the counter stands. -/
def State.until (s : State) (t : Nat) : State :=
  if t ≤ s.mrd.time || s.incr = 0 || !s.pwr.up || !s.mrd.run then s
  else s.elapse ((t - s.mrd.time + s.incr - 1) / s.incr)

end Sys2Proof.Machine
end

