-- ==== Sys2Proof/Machine/Cellarmaster.lean ====
section
/-! DEFINITION. Cellarmaster (chapter 3): descriptors, admission, event groups, flows, placement, selection, the commit point,
completion records, cancels and re-dispatch. -/

namespace Sys2Proof.Machine

/-! ### The task descriptor (R69) -/

/-- Word `w` of a descriptor. -/
def dw (words : List Word) (w : Nat) : Nat := (nth 0 words w).toNat

def dEntry (ws : List Word) : Nat := dw ws 0 / 4 * 4 + fld (dw ws 1) 15 0 * 2 ^ 32
def dFlow (ws : List Word) : Nat := fld (dw ws 1) 31 16
def dArg (ws : List Word) : Nat := dw ws 2 / 8 * 8 + fld (dw ws 3) 15 0 * 2 ^ 32
def dPrio (ws : List Word) : Nat := fld (dw ws 3) 19 16
def dClass (ws : List Word) : Nat := fld (dw ws 3) 25 20
def dMask (ws : List Word) : Nat := dw ws 4
def dWaitGrp (ws : List Word) : Nat := fld (dw ws 5) 13 0
def dAny (ws : List Word) : Bool := tb (dw ws 5) 14
def dDlEn (ws : List Word) : Bool := tb (dw ws 5) 15
def dIdem (ws : List Word) : Bool := tb (dw ws 5) 16
def dPostAlways (ws : List Word) : Bool := tb (dw ws 5) 17
def dDoneEn (ws : List Word) : Bool := tb (dw ws 5) 18
def dDoneFlag (ws : List Word) : Nat := fld (dw ws 5) 23 19
def dDeadline (ws : List Word) : Nat := dw ws 6
def dDoneGrp (ws : List Word) : Nat := fld (dw ws 7) 13 0
def dTag (ws : List Word) : Nat := fld (dw ws 7) 31 16

/-- A reserved bit of the descriptor is 1. -/
def dReserved (ws : List Word) : Bool :=
  decide (fld (dw ws 0) 1 0 ≠ 0 ∨ fld (dw ws 2) 2 0 ≠ 0 ∨ fld (dw ws 3) 31 26 ≠ 0 ∨ fld (dw ws 5) 31 24 ≠ 0 ∨ fld (dw ws 7) 15 14 ≠ 0)

/-- Eight words from 32 bytes. -/
def wordsOf (bs : List Byte) : List Word := (List.range 8).map fun w => BitVec.ofNat 32 (leAt bs (4 * w) 4)

/-! ### Units and classes (R76, R181) -/

/-- The engine types in number order: class of the type, first engine number, engines, class of the first group. -/
def engTypes : List (Nat × Nat × Nat × Nat) :=
  [(13, 0, 16, 20), (14, 16, 24, 24), (15, 40, 12, 30), (16, 52, 8, 33), (17, 60, 8, 35), (18, 68, 8, 37)]

/-- The two classes that an engine serves. -/
def engClasses (e : Nat) : Nat × Nat :=
  match engTypes.find? fun t => decide (t.2.1 ≤ e ∧ e < t.2.1 + t.2.2.1) with
  | some t => (t.1, t.2.2.2 + (e - t.2.1) / 4)
  | none => (19, 39 + (e - 76))

/-- A unit serves a task of class `cls` placed on cluster `cl`. -/
def serves (u : TUnit) (cls cl : Nat) : Bool :=
  match u with
  | .core c _ => decide (cls = c) || (decide (cls = 12) && decide (cl = c))
  | .engine e => decide (cls = (engClasses e).1) || decide (cls = (engClasses e).2)
  | .burst n _ => decide (cls = 19) || decide (cls = 39 + n)
  | .channel _ => decide (cls = 43)

/-- A logical core is in service: its nibble of `RSV.CMAP` is not 0xF (R441). -/
def State.coreIn (s : State) (c k : Nat) : Bool := decide (s.rdF (Reg.rsvCmap c) (4 * k + 3) (4 * k) ≠ 15)

/-- A cluster has a core in service. -/
def State.clusterIn (s : State) (c : Nat) : Bool := (List.range 8).any fun k => s.coreIn c k

/-- A logical engine is in service (R441) and not isolated after a unit fault. -/
def State.engIn (s : State) (e : Nat) : Bool := !s.rdB (Reg.rsvEmap e) 31

/-- A Decant channel belongs to the scheduler pool (R256). -/
def State.poolCh (s : State) (ch : Nat) : Bool :=
  decide (4 ≤ ch) && s.rdB (Reg.dctChCfg ch) 31 && decide (s.rdF (Reg.dctChCfg ch) 25 24 = 1)

/-- Some unit of a class is in service (R70). -/
def State.classIn (s : State) (cls : Nat) : Bool :=
  if cls < 12 then s.clusterIn cls
  else if cls = 12 then (List.range 12).any s.clusterIn
  else if cls = 43 then (List.range 64).any s.poolCh
  else if cls < 43 then (List.range 80).any fun e =>
    s.engIn e && (decide ((engClasses e).1 = cls) || decide ((engClasses e).2 = cls))
  else false

/-- The unit is being retired, so that no task is selected for it (R436). SPARE KIND 0 names cores, 4 to 10 engines. -/
def State.quiescing (s : State) (u : TUnit) : Bool :=
  s.rsv.retiring.any fun r =>
    match u with
    | .core c k => decide (r.kind = 0 ∧ r.unit = c * 8 + k)
    | .engine e => decide (4 ≤ r.kind ∧ r.kind ≤ 9 ∧ r.unit = e)
    | .burst n _ => decide (r.kind = 10 ∧ r.unit = 76 + n)
    | .channel _ => false

/-- A unit is free: in service, holding no task, awake and not held from dispatch (R81, R78). -/
def State.unitFree (s : State) (u : TUnit) : Bool :=
  if s.quiescing u then false
  else
    match u with
    | .core c k =>
      decide ((s.core c k).st = .waiting) && s.coreIn c k && !s.rdB (Reg.rsvChold c) k && decide (s.rdF (Reg.pwrCl c) 3 0 = 0)
    | .engine e => decide ((s.engAt e).st = .idle) && s.engIn e
    | .burst n ctx =>
      let f := s.nfeAt n
      decide (f.st = .running) && s.engIn (76 + n) && s.rdB (Reg.nfeCtrl n) 1 && (mget (fun _ => none) f.ctx ctx).isNone
    | .channel ch => s.poolCh ch && s.rdB Reg.dctCtrl 0 && decide ((s.dctAt ch).phase = .idle)

/-! ### Slots, flows and admission -/

/-- The tasks in slot order. -/
def State.taskList (s : State) : List (Nat × Task) := s.cm.tasks.filterMap fun e => e.2.map fun t => (e.1, t)

/-- Slots in use in a row of the scheduler store. -/
def State.rowUse (s : State) (r : Nat) : Nat := (s.cm.tasks.filter fun e => decide (e.1 / 64 = r)).length

/-- FREE: the slots that the store gives out, less those in use and those free in rows marked for retirement (R90, R440, R442). -/
def State.freeSlots (s : State) : Nat :=
  s.rsv.taskSlots - s.cm.tasks.length - (s.rsv.rowsMarked.map fun r => 64 - s.rowUse r).foldl (· + ·) 0

/-- The watermark of priority p (R90). -/
def State.watermark (s : State) (p : Nat) : Nat := ((List.range p).map fun q => s.rdF (Reg.cmRes q) 17 0).foldl (· + ·) 0

/-- The handle of the task in a slot (R71). -/
def State.handleOf (s : State) (sl : Nat) : Nat := mget (fun _ => 0) s.cm.gens sl * 2 ^ 17 + sl

/-- The slot that a handle names, while its task holds it. -/
def State.slotOf (s : State) (h : Nat) : Option Nat :=
  let sl := h % 2 ^ 17
  if h < 2 ^ 31 ∧ s.handleOf sl = h ∧ (s.task? sl).isSome then some sl else none

/-- The row of a slot gives out free slots (R440). -/
def State.rowIn (s : State) (sl : Nat) : Bool := !(s.rsv.rowsOut.contains (sl / 64) || s.rsv.rowsMarked.contains (sl / 64))

/-- A free slot: the proposed one, or else the lowest. -/
def State.pickSlot (s : State) (sl : Nat) : Option Nat :=
  let ok := fun i => (s.task? i).isNone && s.rowIn i && decide (i < 131072)
  if ok sl then some sl
  else (List.range (s.cm.tasks.length + 64 * (s.rsv.rowsOut.length + s.rsv.rowsMarked.length) + 1)).find? ok

/-- A task that has not committed. -/
def uncommitted (t : Task) : Bool :=
  match t.st with
  | .stopping => false
  | .recorded => false
  | _ => true

/-- A task is in service: from its start to its commit point, a re-dispatch included (R79, R104). -/
def inService (t : Task) : Bool :=
  match t.st with
  | .running => true
  | .ending => true
  | .queued => decide (0 < t.rd)
  | _ => false

/-- A task put into a list that stands in admission order. -/
def insertTask (e : Nat × Task) : List (Nat × Task) → List (Nat × Task)
  | [] => [e]
  | x :: m => if e.2.order < x.2.order then e :: x :: m else x :: insertTask e m

/-- The uncommitted tasks of a flow, oldest first. -/
def State.flowTasks (s : State) (f : Nat) : List (Nat × Task) :=
  (s.taskList.filter fun e => uncommitted e.2 && decide (dFlow e.2.words = f)).foldr insertTask []

/-- The condition of R73. -/
def State.ready (s : State) (ws : List Word) : Bool :=
  let m := dMask ws
  let x := (s.flags (dWaitGrp ws)).toNat &&& m
  decide (m = 0) || (if dAny ws then decide (x ≠ 0) else decide (x = m))

/-! ### Placement (R423 to R428) -/

/-- EFF of a cluster as last evaluated. -/
def State.eff (s : State) (c : Nat) : Nat := s.rdF (Reg.rsvLoad c) 7 0

/-- The clusters with a core in service. -/
def State.clusters (s : State) : List Nat := (List.range 12).filter s.clusterIn

/-- The cluster of least EFF, the lower number on a tie. -/
def State.leastEff (s : State) : List Nat → Option Nat
  | [] => none
  | c :: cs =>
    match s.leastEff cs with
    | some d => if s.eff d < s.eff c then some d else some c
    | none => some c

/-- The new home that the current mode chooses (R424). -/
def State.newHome (s : State) : Option Nat :=
  if s.rdB Reg.rsvHctrl 0 then s.leastEff s.clusters
  else
    let hi := s.rdF Reg.rsvPlace 7 0
    match s.clusters.find? fun c => s.rsv.active.contains c && decide (s.eff c < hi) with
    | some c => some c
    | none =>
      match s.clusters.find? fun c => !s.rsv.active.contains c with
      | some c => some c
      | none => s.leastEff s.clusters

/-- The home that the current mode keeps (R424). -/
def State.keepsHome (s : State) (c : Nat) : Bool :=
  decide (c < 12) && s.clusterIn c &&
  (if s.rdB Reg.rsvHctrl 0 then
    decide (s.eff c ≤ s.rdF Reg.rsvPlace 23 16) ||
      !(s.clusters.any fun d => decide (d ≠ c ∧ s.eff d + s.rdF Reg.rsvPlace 31 24 ≤ s.eff c))
  else s.rsv.active.contains c && decide (s.eff c < s.rdF Reg.rsvPlace 7 0))

/-- A flow's home changed: its working set is no longer staged (R427). -/
def State.setHome (s : State) (f home : Nat) : State :=
  let s := s.setFlow f { s.flow f with home := home }
  { s with rsv := { s.rsv with staged := s.rsv.staged.filter fun e => decide (e.1 ≠ f) } }

/-- The cluster a class 12 task of flow `f` is placed on, its home written if it is a new one; a new cluster joins the active
set. None where no cluster can take it. -/
def State.place (s : State) (f : Nat) : Option Nat × State :=
  let fl := s.flow f
  if fl.pin then
    if fl.home < 12 ∧ s.clusterIn fl.home then (some fl.home, s) else (none, s.conflict 1 2 fl.home)
  else if s.keepsHome fl.home then (some fl.home, s)
  else
    match s.newHome with
    | none => (none, s)
    | some c =>
      let s := if fl.home = c then s else s.setHome f c
      let s := if s.rdB Reg.rsvHctrl 0 then s else { s with rsv := { s.rsv with active := sins s.rsv.active c } }
      (some c, s)

/-- A flow's prestage-table entry: none where EN = 0 or the entry is not enabled, an error where its read fails (R427, R428). -/
def State.prestageEntry (s : State) (f : Nat) : Option (Option Nat) × State :=
  if !s.rdB Reg.rsvPstgLo 0 then (none, s)
  else
    let base := s.rdF Reg.rsvPstgLo 31 19 * 2 ^ 19 + s.rdF Reg.rsvPstgHi 15 0 * 2 ^ 32
    match s.busRead .cm (base + f * 8) 8 with
    | (.ok bs, s) =>
      let v := ofLe bs
      (if tb v 0 then some (some (fld v 47 6 * 64)) else none, s)
    | (_, s) => (some none, s)

/-! ### Committing -/

/-- The queue of a flow's records (R106). -/
def cqOf (cq : Nat) : Nat := if cq ≤ 71 then cq else 0

/-- A slot freed: its generation advances (R71). A withdrawn row's slots do not return (R440). -/
def State.freeSlot (s : State) (sl : Nat) : State :=
  let s := s.setTask sl none
  { s with cm := { s.cm with gens := mmod (fun _ => 0) s.cm.gens sl fun g => (g + 1) % 2 ^ 14 } }

/-- A completion record's bytes (R97). -/
def recordBytes (handle tag code flags flow ust time : Nat) : List Byte :=
  leBytes 4 handle ++ leBytes 2 tag ++ leBytes 1 code ++ leBytes 1 flags ++ leBytes 2 flow ++ leBytes 1 ust ++ [0] ++ leBytes 4 time

/-- The ring size of a host ring or firmware queue: LOG2 held between 4 and 12. -/
def ringSize (log2 : Nat) : Nat := 2 ^ max 4 (min 12 log2)

/-- A completion queue has no room. -/
def State.cqFull (s : State) (q : Nat) : Bool :=
  if q < 8 then
    decide (ringSize (s.rdF (Reg.cmFcqLog2 q) 3 0) ≤ (s.rd (Reg.cmFcqPi q) + 65536 - s.rd (Reg.cmFcqCi q)) % 65536)
  else
    let h := q - 8
    let ci := ofLe (s.devBytes (s.rdF (Reg.cmHringSqbase h) 25 6 * 64 + 4) 2)
    decide (ringSize (s.rdF (Reg.cmHringCfg h) 19 16) ≤ ((s.ringAt h).cqPi + 65536 - ci) % 65536)

/-- The records of a queue that is full are held: each is counted once (R106). -/
def State.heldRecords (s : State) (q : Nat) : State :=
  let fresh := s.cm.records.filter fun r => decide (r.q = q) && !r.counted
  if fresh.isEmpty then s
  else
    { s.count (Reg.cmCnt 7) fresh.length with cm := { s.cm with records := s.cm.records.map fun r =>
      if r.q = q then { r with counted := true } else r } }

/-- A completion record queued for writing; behind records that a full queue holds it is held as well. -/
def State.pushRecord (s : State) (q : Nat) (slot : Option Nat) (bytes : List Byte) : State :=
  let held := (s.cm.records.any fun r => decide (r.q = q) && r.counted) && s.cqFull q
  let s := { s with cm := { s.cm with records := s.cm.records ++ [{ q := q, slot := slot, bytes := bytes, counted := false }] } }
  if held then s.heldRecords q else s

/-- The firmware's plan that a task belongs to counts its outcome, and whether the task has been in service (R60, R62, R63). When the last task has committed and no
cancel ended the plan, the flag is written to DONE_ADDR behind the results. -/
def State.notePlan (s : State) (handle code : Nat) (ran : Bool) : State :=
  match s.fw.plans.find? fun p => p.tasks.contains handle with
  | none => s
  | some p =>
    let p' := { p with
      done := p.done + bn (code == 0 || code == 4), fault := p.fault + bn (code == 1),
      cancelled := p.cancelled + bn (code == 2), expired := p.expired + bn (code == 3), started := p.started || ran }
    let n := p'.done + p'.fault + p'.expired + p'.cancelled
    let last := p'.todo.isEmpty && decide (n = p'.total)
    let flag := last && !p'.killed && decide (p'.doneAddr ≠ 0)
    let p' := { p' with ended := if last then some s.ns else none, doneWritten := p'.doneWritten || flag }
    let s := if flag then s.toHost p'.doneAddr (leBytes 4 p'.doneValue) else s
    let s := { s with fw := { s.fw with plans := s.fw.plans.map fun (q : Plan) => if q.handle = p.handle then p' else q } }
    match s.carrier? p.carrier with
    | some c =>
      s.setCarrier p.carrier (some { c with
        expired := c.expired + bn (code == 3), cancelled := c.cancelled + bn (code == 2),
        completed := c.completed + bn (code != 2) })
    | none => s

/-- The counters of a commit: `CM.CNT` and the Census values (R106, R512). -/
def State.noteCode (s : State) (code : Nat) : State :=
  match code with
  | 0 => s.tally 3 0 1 1
  | 1 => (s.count (Reg.cmCnt 4) 1).tally 3 0 2 1
  | 2 => (s.count (Reg.cmCnt 3) 1).tally 3 0 3 1
  | 3 => (s.count (Reg.cmCnt 0) 1).tally 3 0 4 1
  | _ => s.tally 3 0 5 1

/-- A flow that the firmware is to close closes with the commit of its last task (R50, R80). -/
def State.closeFlow (s : State) (f : Nat) : State :=
  if s.fw.closing.contains f && (s.flowTasks f).isEmpty then
    { s.setFlow f { s.flow f with opened := false } with fw := { s.fw with closing := sdel s.fw.closing f } }
  else s

/-- The commit point: the code is fixed (R100). The flag and the record follow in `finish`. -/
def State.fixCode (s : State) (sl : Nat) (t : Task) (code progress ust : Nat) : State :=
  let s := s.setTask sl (some { t with st := .stopping, code := code, progress := progress, ust := ust, time := s.now32 })
  ((s.noteCode code).notePlan (s.handleOf sl) code (inService t || t.unit.isSome)).closeFlow (dFlow t.words)

/-- A post to a group's flags, without the tests that follow it (R72). -/
def State.orFlags (s : State) (g v : Nat) : State :=
  { s with cm := { s.cm with groups := mmod (fun _ => 0) s.cm.groups g fun w => w ||| BitVec.ofNat 32 v } }

/-- Flags of a group cleared (R72). -/
def State.clearFlags (s : State) (g v : Nat) : State :=
  { s with cm := { s.cm with groups := mmod (fun _ => 0) s.cm.groups g fun w => w &&& ~~~(BitVec.ofNat 32 v) } }

/-- A binding of FLOW.NOTIFY tested (R66): its vector is sent once when the flags meet its test; with REPEAT the flags are
cleared, otherwise the binding ends. DESIGN CHOICE (log entry 49): the device goes on testing the bindings of a firmware that is not
RUNNING, until the firmware that starts next has cleared them. -/
def State.testBind (s : State) (b : Bind) : State :=
  let x := (s.flags b.grp).toNat &&& b.mask
  if (if b.any then decide (x ≠ 0) else decide (x = b.mask)) then
    let s := s.vector b.vector
    if b.rep then s.clearFlags b.grp b.mask
    else { s with fw := { s.fw with binds := s.fw.binds.filter fun c => decide (c.vector ≠ b.vector) } }
  else s

/-- Every binding on a group tested, in the order in which they were bound. DESIGN CHOICE (log entry 49): the flags that a REPEAT binding
clears are not seen by the bindings after it. -/
def State.testBinds (s : State) (g : Nat) : State :=
  (s.fw.binds.filter fun b => decide (b.grp = g)).foldl (fun s b => s.testBind b) s

/-- Waiting tasks of a group that have become ready are held behind their flows (R73, R100). Answers their flows. -/
def State.wakeTasks (s : State) (g : Nat) : List Nat × State :=
  let sel := s.taskList.filter fun e => e.2.st == .waiting && decide (dWaitGrp e.2.words = g) && s.ready e.2.words
  (sel.map fun e => dFlow e.2.words, sel.foldl (fun s e => s.setTask e.1 (some { e.2 with st := .held })) s)

/-- A record for a committed task, if its flow's policy asks for one (R97); otherwise its slot is freed. -/
def State.finishRecord (s : State) (sl : Nat) (t : Task) (posted : Bool) : State :=
  let fl := s.flow (dFlow t.words)
  let want := match fl.recp with
    | 0 => false
    | 2 => true
    | _ => decide (t.code ≠ 0)
  let flags := bn t.late + t.progress * 2 + bn posted * 8 + t.rd * 16
  let bytes := recordBytes (s.handleOf sl) (dTag t.words) t.code flags (dFlow t.words) t.ust t.time
  let h := s.handleOf sl
  let note := fun (x : FskTx) => if x.handle = h then { x with record := some bytes } else x
  let s := { s with fw := { s.fw with fskTx := s.fw.fskTx.map note } }
  if want then
    let q := match t.ring with
      | some h => 8 + h
      | none => cqOf fl.cq
    (s.setTask sl (some { t with st := .recorded })).pushRecord q (some sl) bytes
  else s.freeSlot sl

/-- Eligible: ready, the oldest uncommitted task of its flow, and no task of the flow in service (R79). -/
def State.eligible? (s : State) (f : Nat) : Option (Nat × Task) :=
  match s.flowTasks f with
  | [] => none
  | (sl, t) :: rest => if t.st == .held && !t.prestage && !(rest.any fun e => inService e.2) then some (sl, t) else none

/-- An engine out of SLEEP: IDLE again, and an NFE with a plan runs it again (R255). -/
def State.engineWake (s : State) (e : Nat) : State :=
  if e < 76 then
    if (s.engAt e).st = .sleep then (s.setEng e { s.engAt e with st := .idle }).wrF (Reg.pwrEng e) 3 0 1 else s
  else
    let f := s.nfeAt (e - 76)
    if f.st = .sleep then (s.setNfe (e - 76) { f with st := if f.plan.isEmpty then .idle else .running }).wrF (Reg.pwrEng e) 3 0 1 else s

/-- What a task is queued for is awake (R78): its cluster, or every engine that serves its class. DEDUCED (log entry 49): the task is queued
for each of those engines, and the wake, which takes up to 2 µs, is done when the queueing is. -/
def State.wakeFor (s : State) (cls cluster : Nat) : State :=
  if cls ≤ 12 then s.wakeCluster cluster
  else if 43 ≤ cls then s
  else (List.range 80).foldl (fun (s : State) e =>
    if (decide ((engClasses e).1 = cls) || decide ((engClasses e).2 = cls)) && s.engIn e then s.engineWake e else s) s

/-- A task enters the FIFO of its class and priority, with the next eligibility stamp (R81), and wakes what sleeps there (R78). -/
def State.enqueue (s : State) (sl : Nat) (t : Task) (cluster : Nat) : State :=
  let s := s.wakeFor (dClass t.words) cluster
  let s := s.setTask sl (some { t with st := .queued, stamp := s.cm.stamp, ahead := 0, cluster := cluster, since := s.cen.clock, prestage := false })
  { s with cm := { s.cm with stamp := s.cm.stamp + 1 } }

/-- Whether a commit posts its completion flag (R99). -/
def postsFlag (t : Task) : Bool := dDoneEn t.words && (t.code == 0 || t.code == 4 || dPostAlways t.words)

/-- A slot among others that stand in slot order. -/
def insertSlot (e : Nat × Nat) : List (Nat × Nat) → List (Nat × Nat)
  | [] => [e]
  | x :: m => if e.1 < x.1 then e :: x :: m else if e.1 = x.1 then x :: m else x :: insertSlot e m

/-- The flows whose heads have become eligible, in the order of the heads' slots (R81). -/
def State.heads (s : State) (fs : List Nat) : List Nat :=
  ((fs.filterMap fun f => (s.eligible? f).map fun e => (e.1, f)).foldr insertSlot []).map (·.2)

/-- A post: one atomic OR, then the tests of the tasks that wait on the group, and of the bindings (R72, R73); `adv` queues the head of a
flow. -/
def State.postBy (adv : State → Nat → State) (s : State) (g v : Nat) : State :=
  let s := s.orFlags g v
  let (fs, s) := s.wakeTasks g
  ((s.heads fs).foldl adv s).testBinds g

/-- Whether a commit or a post released something, with fuel for the chain of commits that failed prestages can make. -/
def State.advance : Nat → State → Nat → State
  | 0, s, _ => s
  | n + 1, s, f =>
    match s.eligible? f with
    | none => s
    | some (sl, t) =>
      if dClass t.words ≠ 12 then s.enqueue sl t (dClass t.words)
      else
        match s.place f with
        | (none, s) => s
        | (some c, s) =>
          if s.rsv.staged.contains (f, c) then s.enqueue sl t c
          else
            match s.prestageEntry f with
            | (none, s) => s.enqueue sl t c
            | (some (some chain), s) =>
              let s := s.setTask sl (some { t with prestage := true, cluster := c })
              { s with
                rsv := { s.rsv with prestage := s.rsv.prestage ++
                  [{ slot := sl, flow := f, cluster := c, chain := chain, prio := dPrio t.words, stamp := s.cm.stamp, channel := none, result := none }] }
                cm := { s.cm with stamp := s.cm.stamp + 1 } }
            | (some none, s) =>
              let s := (s.fixCode sl t 1 0 0xFE).setHome f 15
              match s.task? sl with
              | some t =>
                let s := if postsFlag t then s.postBy (State.advance n) (dDoneGrp t.words) (2 ^ dDoneFlag t.words) else s
                State.advance n (s.finishRecord sl t (postsFlag t)) f
              | none => s

/-- The oldest uncommitted task of a flow enters its FIFO if it has become eligible. -/
def State.advanceFlow (s : State) (f : Nat) : State := s.advance (s.cm.tasks.length + 1) f

/-- A post. -/
def State.post (s : State) (g v : Nat) : State := s.postBy (fun s f => s.advanceFlow f) g v

/-- What follows the commit point once the unit has stopped writing for the task: the completion flag, then the record (R99). -/
def State.finish (s : State) (sl : Nat) : State :=
  match s.task? sl with
  | none => s
  | some t =>
    let s := if postsFlag t then s.post (dDoneGrp t.words) (2 ^ dDoneFlag t.words) else s
    s.finishRecord sl t (postsFlag t)

/-- A commit of a task that holds no unit: code, flag, record and the flow's next task. -/
def State.commit (s : State) (sl : Nat) (code progress ust : Nat) : State :=
  match s.task? sl with
  | none => s
  | some t => ((s.fixCode sl t code progress ust).advanceFlow (dFlow t.words)).finish sl

/-- A commit of a task whose unit still writes on its behalf: the flow goes on at once; flag and record wait (R99). -/
def State.commitRunning (s : State) (sl : Nat) (code progress ust : Nat) : State :=
  match s.task? sl with
  | none => s
  | some t => (s.fixCode sl t code progress ust).advanceFlow (dFlow t.words)

/-- A task that committed while its unit still worked, at the unit's end: the unit's status summary is its USTATUS, but for a lost
descriptor's 0xFD (R97, R440). -/
def Task.ends (t : Task) (summary : Nat) : Task := if t.code = 1 ∧ t.ust = 0xFD then t else { t with ust := summary }

/-- The unit of a task has stopped writing on its behalf. -/
def State.unitQuiet (s : State) (sl : Nat) (t : Task) : Bool :=
  match t.unit with
  | some (.core c k) =>
    let x := s.core c k
    !(decide (x.slot = sl) && (x.st == .running || x.st == .stopping || x.st == .halted))
  | some (.engine e) => !(decide ((s.engAt e).slot = sl) && ((s.engAt e).st == .running || (s.engAt e).st == .stopping))
  | some (.burst n ctx) =>
    match mget (fun _ => none) (s.nfeAt n).ctx ctx with
    | some b => decide (b.slot ≠ sl)
    | none => true
  | some (.channel ch) => decide ((s.dctAt ch).slot ≠ some sl)
  | none => true

/-- `TASK_COMMIT` (R100): a task in ENDING whose writes have drained commits DONE, or REDISPATCHED after a re-dispatch; a task
that committed while its unit still wrote gets its flag and record. -/
def State.taskCommit (s : State) (sl : Nat) : State :=
  match s.task? sl with
  | none => s
  | some t =>
    if !s.unitQuiet sl t then s
    else
      match t.st with
      | .ending => s.commit sl (if 0 < t.rd then 4 else 0) 2 t.ust
      | .stopping => s.finish sl
      | _ => s

def execTaskCommit (sl : Nat) (s : State) : Answer := pcmd (decide (sl < 131072)) s fun s => s.taskCommit sl

/-! ### Submission, rejection and admission (R70, R89, R90) -/

/-- The reason a submission is rejected for, by the order of R70. DESIGN CHOICE (log entry 49): ENTRY [1:0] and ARG [2:0] that are not zero
are reserved bits of R69 and answer RESERVED; ALIGN is ENTRY [5:2] of an engine or Decant class. -/
def State.rejects (s : State) (ring idem : Bool) (ws : List Word) : Option Nat :=
  let cls := dClass ws
  if !s.rdB Reg.cmCtrl 0 then some 6
  else if idem then some 5
  else if (44 ≤ cls ∧ cls ≤ 62) ∨ (cls = 63 ∧ !ring) ∨ (cls < 44 ∧ !s.classIn cls) then some 1
  else if !(s.flow (dFlow ws)).opened then some 2
  else if (if cls ≤ 12 then False else fld (dw ws 0) 5 2 ≠ 0) then some 3
  else if dReserved ws then some 4
  else none

/-- A task admitted to a slot (R90): waiting, or ready at once (R73). -/
def State.admitTask (s : State) (sl : Nat) (ws : List Word) (ring : Option Nat) : State :=
  let st := if s.ready ws then TaskSt.held else .waiting
  let s := s.setTask sl (some
    { words := ws, order := s.cm.order, st := st, unit := none, rd := 0, late := false, stamp := 0, ahead := 0, cluster := 0, since := 0,
      ring := ring, prestage := false, ust := 0, code := 0, progress := 0, time := 0 })
  let s := { s with cm := { s.cm with order := s.cm.order + 1 } }
  let s := s.tally 3 0 0 1
  let s := s.extreme 3 0 10 min (s.freeSlots + 1) s.freeSlots
  s.advanceFlow (dFlow ws)

/-- A submission put at its port; a port that holds one passes nothing behind it (R89). -/
def State.hold (s : State) (p : Port) (ws : List Word) (idem : Bool) : State :=
  { s with cm := { s.cm with subs := s.cm.subs ++ [(p, { words := ws, idem := idem, bp := false, since := s.clockNs })] } }

/-- All Decant channels share one port, and so do all engines (R89). -/
def sharePort : Port → Port → Bool
  | .decant _, .decant _ => true
  | .engine _, .engine _ => true
  | .engine _, .burst _ _ => true
  | .burst _ _, .engine _ => true
  | .burst _ _, .burst _ _ => true
  | p, q => decide (p = q)

/-- The submission that a port holds, if `p` made it: a port that holds one passes nothing behind it (R89). -/
def State.held? (s : State) (p : Port) : Option Sub :=
  match s.cm.subs.find? fun e => sharePort e.1 p with
  | some e => if e.1 = p then some e.2 else none
  | none => none

/-- A port's submission withdrawn. -/
def State.withdraw (s : State) (p : Port) : State :=
  { s with cm := { s.cm with subs := s.cm.subs.filter fun e => decide (e.1 ≠ p) } }

/-- A handle as a submission returns it: bit 31 says rejected (R71). -/
def rejectHandle (reason : Nat) : Nat := 2 ^ 31 + reason

/-- A host-ring rejection's record: CODE FAULT, NOT_STARTED, whatever the record policy (R98). DESIGN CHOICE (log entry 49): it counts as a
rejection in CNT[5] alone, not as a FAULT in CNT[4]. -/
def State.ringReject (s : State) (h : Nat) (ws : List Word) (reason : Nat) : State :=
  s.pushRecord (8 + h) none (recordBytes (rejectHandle reason) (dTag ws) 1 0 (dFlow ws) reason s.now32)

/-- The handle given back at the port (R89, R106). -/
def State.deliver (s : State) (p : Port) (h : Nat) : State :=
  match p with
  | .ctl i => (s.wr (Reg.cmCpHandle i) h).wr (Reg.cmCpSubstat i) 0
  | .core c k =>
    let x := s.core c k
    match x.freeze with
    | .submitHeld d =>
      s.setCore c k { x with
        freeze := .none, flight := x.flight ++ [{ land := x.n, seq := x.n - 1, mac := none, reg := .d d, val := h % 2 ^ 40 }] }
    | _ => s
  | .engine e =>
    let x := s.engAt e
    match x.job with
    | some j => s.setEng e { x with job := some { j with held := false, submitted := true, nextHandle := h } }
    | none => s
  | .burst n ctx =>
    let f := s.nfeAt n
    match mget (fun _ => none) f.ctx ctx with
    | some b =>
      let b := { b with job := { b.job with held := false, submitted := true, nextHandle := h } }
      s.setNfe n { f with ctx := mput (fun _ => none) f.ctx ctx (some b) }
    | none => s
  | .decant ch =>
    let x := s.dctAt ch
    let bad := decide (2 ^ 31 ≤ h)
    let s := s.setDct ch { x with phase := .submitted, summary := if bad then 1 else x.summary }
    let s := s.wrF (Reg.dctChStat ch) 31 28 1
    if bad then s.wrF (Reg.dctChStat ch) 25 25 1 else s
  | .trellis => { s with trl := { s.trl with subHeld := false, subAck := some h } }
  | .ring _ => s

/-- `TASK_ADMIT`: the submission that a port holds is rejected, admitted once FREE exceeds its priority's watermark, or goes on
being held; each onset of back-pressure is counted. -/
def State.taskAdmit (s : State) (p : Port) (sl : Nat) : State :=
  match s.held? p with
  | none => s
  | some sub =>
    let ring := match p with
      | .ring h => some h
      | _ => none
    match s.rejects ring.isSome sub.idem sub.words with
    | some r =>
      let s := ((s.count (Reg.cmCnt 5) 1).tally 3 0 7 1).withdraw p
      match ring with
      | some h => s.ringReject h sub.words r
      | none => s.deliver p (rejectHandle r)
    | none =>
      if s.watermark (dPrio sub.words) < s.freeSlots ∧ !s.rsv.storeOut then
        match s.pickSlot sl with
        | none => s
        | some sl =>
          let s := s.hist 3 0 3 (s.clockNs - sub.since)
          (((s.withdraw p).admitTask sl sub.words ring).deliver p (s.handleOf sl))
      else if sub.bp then s
      else
        let s := s.count (Reg.cmCnt 6) 1
        { s with cm := { s.cm with subs := s.cm.subs.map fun (e : Port × Sub) => if e.1 = p then (e.1, { e.2 with bp := true }) else e } }

def execTaskAdmit (p : Port) (sl : Nat) (s : State) : Answer := pcmd (p.wf && decide (sl < 131072)) s fun s => s.taskAdmit p sl

/-- A submission by the firmware that is rejected or admitted at once: the handle it would read, and none where its priority is
not admitted. -/
def State.submitNow (s : State) (ws : List Word) (sl : Nat) : Option Nat × State :=
  match s.rejects false false ws with
  | some r => (some (rejectHandle r), (s.count (Reg.cmCnt 5) 1).tally 3 0 7 1)
  | none =>
    if s.watermark (dPrio ws) < s.freeSlots ∧ !s.rsv.storeOut then
      match s.pickSlot sl with
      | none => (none, s)
      | some sl => (some (s.handleOf sl), s.admitTask sl ws none)
    else (none, s.count (Reg.cmCnt 6) 1)

/-! ### Control-core ports (R106) -/

/-- A write of `SUB_D7` submits the eight words; ignored while BUSY. -/
def State.cpSubmit (s : State) (i : Nat) (v : Word) : State :=
  if s.rdB (Reg.cmCpSubstat i) 0 then s
  else
    let s := s.wr (Reg.cmCpSubD i 7) v.toNat
    let ws := (List.range 8).map fun w => BitVec.ofNat 32 (s.rd (Reg.cmCpSubD i w))
    (s.wr (Reg.cmCpSubstat i) 1).hold (.ctl i) ws false

def execCpSubmit (i : Nat) (v : Word) (s : State) : Answer := pcmd (decide (i < 4)) s fun s => s.cpSubmit i v

/-- A write of `EV_POST` (R72, R106). -/
def State.evPost (s : State) (i : Nat) (v : Word) : State := s.post (s.rdF (Reg.cmCpEvGrp i) 13 0) v.toNat

def execEvPost (i : Nat) (v : Word) (s : State) : Answer := pcmd (decide (i < 4)) s fun s => s.evPost i v

/-- A write of `EV_CLR` (R72, R106). -/
def State.evClr (s : State) (i : Nat) (v : Word) : State := s.clearFlags (s.rdF (Reg.cmCpEvGrp i) 13 0) v.toNat

def execEvClr (i : Nat) (v : Word) (s : State) : Answer := pcmd (decide (i < 4)) s fun s => s.evClr i v

/-- A write of `FLOW_CFG` for flow `FLOW_SEL`: a close waits for no task, it is ignored while one is uncommitted (R80). A new
HOME forgets the flow's staged working set (R427). -/
def State.flowCfgWrite (s : State) (i : Nat) (v : Word) : State :=
  let f := s.rdF (Reg.cmCpFlowSel i) 15 0
  let old := s.flow f
  let w := v.toNat
  if !tb w 31 && old.opened && !(s.flowTasks f).isEmpty then s
  else
    let new : Flow := {
      opened := tb w 31, home := fld w 27 24, pin := tb w 23, dlpol := tb w 20, recp := fld w 19 18, cq := fld w 6 0 }
    let s := if new.home ≠ old.home then s.setHome f new.home else s
    (s.setFlow f new).advanceFlow f

def execFlowCfgWrite (i : Nat) (v : Word) (s : State) : Answer := pcmd (decide (i < 4)) s fun s => s.flowCfgWrite i v

/-! ### Selection and dispatch (R81 to R87) -/

/-- `a` goes before `b`: higher priority, then the earlier stamp. -/
def before (a b : Nat × Nat) : Bool := decide (a.1 < b.1) || (decide (a.1 = b.1) && decide (a.2 < b.2))

/-- The FIFOs that a queued task stands in: those of a cluster, or of its class (R77, R81). -/
def fifoOf (t : Task) : Nat := if dClass t.words ≤ 12 then t.cluster else dClass t.words

/-- The FIFOs that a unit serves. -/
def unitFifos (u : TUnit) : List Nat :=
  match u with
  | .core c _ => [c]
  | .engine e => [(engClasses e).1, (engClasses e).2]
  | .burst n _ => [19, 39 + n]
  | .channel _ => [43]

/-- `a` stands before `b` in one set of FIFOs: its priority is higher, or both have one and `a` is nearer to its head (R104). -/
def fifoBefore (a b : Task) : Bool :=
  decide (dPrio a.words < dPrio b.words) || (decide (dPrio a.words = dPrio b.words) &&
    (decide (b.ahead < a.ahead) || (decide (b.ahead = a.ahead) && decide (a.stamp < b.stamp))))

/-- The head of the first of a set of FIFOs that is not empty. -/
def State.fifoHead (s : State) (q : Nat) : Option (Nat × Task) :=
  (s.taskList.filter fun e => e.2.st == .queued && decide (fifoOf e.2 = q)).foldl
    (fun b e => match b with
      | none => some e
      | some x => if fifoBefore e.2 x.2 then some e else b) none

/-- The best queued task for a unit: of the heads of the FIFOs that it serves, the highest priority and then the earliest stamp (R81). -/
def State.best (s : State) (u : TUnit) : Option (Nat × Task) :=
  ((unitFifos u).filterMap s.fifoHead).foldl
    (fun b e => match b with
      | none => some e
      | some x => if before (dPrio e.2.words, e.2.stamp) (dPrio x.2.words, x.2.stamp) then some e else b) none

/-- The units of the kind of `u` in number order. -/
def unitsLike (u : TUnit) : List TUnit :=
  match u with
  | .core c _ => (List.range 8).map fun k => .core c k
  | .engine _ => (List.range 76).map fun e => .engine e
  | .burst _ _ => (List.range 256).map fun i => .burst (i / 64) (i % 64)
  | .channel _ => (List.range 64).map fun ch => .channel ch

/-- The free unit of the lowest logical number that serves a task, where `u` is one of them (R81). -/
def State.lowestFree (s : State) (u : TUnit) (t : Task) : TUnit :=
  ((unitsLike u).find? fun v => serves v (dClass t.words) t.cluster && s.unitFree v).getD u

/-- The prestage chain next in line for a channel (R427). -/
def State.bestChain (s : State) : Option Prestage :=
  (s.rsv.prestage.filter fun p => p.channel.isNone).foldl
    (fun b e => match b with
      | none => some e
      | some x => if before (e.prio, e.stamp) (x.prio, x.stamp) then some e else b) none

/-- The unlocked lines that stay when a task start leaves fewer ways to them (R114): of a set with too many, which ones go is not stated. -/
def trimSet : Nat → Nat → List (Nat × List Byte) → Nat → List (Nat × List Byte)
  | 0, _, l, _ => l
  | f + 1, ways, l, seed => if l.length ≤ ways then l else trimSet f ways (l.eraseIdx (Config.freeValue seed % l.length)) (seed + 1)

def State.pmTrim (s : State) (c k ways : Nat) : List (Nat × List Byte) :=
  let pm := (s.core c k).pm
  if (List.range 256).all fun i => decide ((pm.filter fun e => e.1 % 256 == i).length ≤ 4 - ways) then pm
  else (List.range 256).flatMap fun i => trimSet 4 (4 - ways) (pm.filter fun e => e.1 % 256 == i) (s.fresh + 4 * i)

/-- A core's registers at a task start: PC, A0, D0 and D1 are set, every other register is unspecified (R83), the control
registers take their start values and the MPU and PM_LOCK registers in force are taken (R114, R138). -/
def State.startCore (s : State) (c k sl : Nat) (t : Task) : State :=
  let x := s.core c k
  let (seed, s) := (s.tally 0 (s.physCore c k) 3 1).free (2 ^ 64)
  let r := fun file n => Config.unspecReg (seed + 1) file n
  s.setCore c k { x with
    st := .running, slot := sl, pc := dEntry t.words
    d := (0, BitVec.ofNat 40 (s.handleOf sl)) :: (1, BitVec.ofNat 40 (bn (0 < t.rd) + 2 * bn t.late)) ::
      (List.range 30).map fun i => (i + 2, BitVec.ofNat 40 (r 0 (i + 2)))
    a := (0, BitVec.ofNat 48 (dArg t.words)) :: (List.range 15).map fun i => (i + 1, BitVec.ofNat 48 (r 1 (i + 1)))
    b := (List.range 16).map fun i => (i, BitVec.ofNat 48 (r 2 i))
    l := (List.range 16).map fun i => (i, BitVec.ofNat 24 (r 3 i))
    m := (List.range 16).map fun i => (i, BitVec.ofNat 32 (r 4 i))
    p := BitVec.ofNat 8 (r 5 0) ||| 1
    v := (List.range 32).map fun i => (i, BitVec.ofNat 1024 (r 6 i))
    sr := BitVec.ofNat 32 (r 7 0 % 64), rrb := BitVec.ofNat 4 (r 8 0)
    bxr := BitVec.ofNat 32 (r 9 0) &&& 0x00FF1F1F
    amode := BitVec.ofNat 16 (r 10 0)
    ls := (List.range 3).map fun i => (i, BitVec.ofNat 48 (r 11 i))
    le := (List.range 3).map fun i => (i, BitVec.ofNat 48 (r 12 i))
    lc := (List.range 3).map fun i => (i, BitVec.ofNat 32 (r 13 i))
    flight := [], chain := [], ds := 0, rpt := 0, lend := none, cycHi := none, dint := 0, dintRpt := false
    freeze := .none, wb := [], wbPend := none
    cancel := false, stall := 11, n := 0, rot := [], ldepth := 0
    mpu := (List.range 8).map fun i => (s.rd (Reg.dspcMpuBase c k i), s.rd (Reg.dspcMpuLimit c k i))
    pm := s.pmTrim c k (min 2 (s.rdF (Reg.dspcPmLock c k) 1 0))
    pmWays := min 2 (s.rdF (Reg.dspcPmLock c k) 1 0), pmBase := s.rdF (Reg.dspcPmLockbase c k) 23 0 }

/-- A chain starts on a channel (R258, R260). -/
def State.startChain (s : State) (ch : Nat) (slot : Option Nat) (entry arg : Nat) : State :=
  let s := s.setDct ch { DctChan.reset with phase := .fetch, slot := slot, arg := arg, start := s.clockNs }
  let s := s.wrPair (Reg.dctChCurLo ch) (Reg.dctChCurHi ch) 16 entry
  s.wr (Reg.dctChStat ch) (2 ^ 28 + s.rdF (Reg.dctChStat ch) 23 0)

/-- A task starts on a unit: the core's first fetch, or the engine's or Decant's first read (R82, R83). -/
def State.startTask (s : State) (u : TUnit) (sl : Nat) (t : Task) : State :=
  let t := { t with st := .running, unit := some u }
  let s := s.setTask sl (some t)
  let ns := (s.cen.clock - t.since) / 2 ^ 32
  match u with
  | .core c k => (s.hist 3 0 0 ns).startCore c k sl t
  | .engine e => (s.hist 3 0 1 ns).setEng e { st := .running, slot := sl, job := none }
  | .burst n ctx =>
    let f := s.nfeAt n
    let b : BurstCtx := {
      slot := sl, job := { EngJob.reset with start := s.cen.clock }, phase := .fresh, disp := s.ns, desc := [], prof := [], start := 0, stop := 0,
      stopAt := none, sat := false, turn0 := 0, data := [] }
    (s.hist 3 0 1 ns).setNfe n { f with ctx := mput (fun _ => none) f.ctx ctx (some b) }
  | .channel ch => (s.hist 3 0 2 ns).startChain ch (some sl) (dEntry t.words) (dArg t.words)

/-- The chain of a held task starts on the free pool channel of the lowest number, with ARG the base of its home cluster's shared memory (R427). -/
def State.startPrestage (s : State) (ch : Nat) (p : Prestage) : State :=
  let ch := ((List.range 64).find? fun n => s.unitFree (.channel n)).getD ch
  let s := { s with rsv := { s.rsv with prestage := s.rsv.prestage.map fun (q : Prestage) =>
    if q.slot = p.slot then { q with channel := some ch } else q } }
  (s.tally 1 p.cluster 5 1).startChain ch none p.chain (0x10C00000 + p.cluster * 0x01000000)

/-- `TASK_SELECT`: the best task of a free unit's FIFOs is taken; its deadline decides whether it starts (R81, R86, R87), on the free unit of
the lowest number that serves it. A channel may take a prestage chain instead (R427). -/
def State.taskSelect (s : State) (u : TUnit) : State :=
  if !s.unitFree u then s
  else
    let run := fun (sl : Nat) (t : Task) =>
      if 0 < t.rd || !dDlEn t.words || !s.passed (dDeadline t.words) then s.startTask (s.lowestFree u t) sl t
      else if (s.flow (dFlow t.words)).dlpol then
        (((s.count (Reg.cmCnt 1) 1).tally 3 0 6 1).startTask (s.lowestFree u t) sl { t with late := true })
      else s.commit sl 3 0 0
    match u with
    | .channel ch =>
      match s.bestChain, s.best u with
      | some p, some (sl, t) =>
        if before (p.prio, p.stamp) (dPrio t.words, t.stamp) then s.startPrestage ch p else run sl t
      | some p, none => s.startPrestage ch p
      | none, some (sl, t) => run sl t
      | none, none => s
    | _ =>
      match s.best u with
      | some (sl, t) => run sl t
      | none => s
def execTaskSelect (u : TUnit) (s : State) : Answer := pcmd u.wf s fun s => s.taskSelect u

/-- `DEADLINE_SWEEP`: every task that has not started and whose deadline has passed under EXPIRE commits EXPIRED (R86, R87). -/
def State.deadlineSweep (s : State) : State :=
  s.taskList.foldl (fun s e =>
    match s.task? e.1 with
    | some t =>
      if (t.st == .waiting || t.st == .held || (t.st == .queued && t.rd == 0)) && dDlEn t.words && s.passed (dDeadline t.words)
          && !(s.flow (dFlow t.words)).dlpol && decide (t.order = e.2.order)
      then s.commit e.1 3 0 0 else s
    | none => s) s

def execDeadlineSweep (s : State) : Answer := pcmd true s State.deadlineSweep

/-! ### Cancels (R100, R101) -/

/-- A unit told to stop (R100): a core gets CANCEL, or its held submission is withdrawn; an engine, a burst and a channel stop at
their next boundary. -/
def State.stopUnit (s : State) (sl : Nat) (u : TUnit) : State :=
  match u with
  | .core c k =>
    let x := s.core c k
    if x.slot ≠ sl then s
    else
      match x.freeze with
      | .submitHeld _ => (s.withdraw (.core c k)).setCore c k { x with cancel := true, freeze := .none, dint := 0 }
      | _ => s.setCore c k { x with cancel := true }
  | .engine e =>
    let x := s.engAt e
    if x.slot = sl ∧ x.st = .running then (s.withdraw (.engine e)).setEng e { x with st := .stopping } else s
  | .burst n ctx =>
    let f := s.nfeAt n
    match mget (fun _ => none) f.ctx ctx with
    | some b =>
      if b.slot = sl then
        (s.withdraw (.burst n ctx)).setNfe n { f with ctx := mput (fun _ => none) f.ctx ctx (some { b with stopAt := some s.ns, job := { b.job with held := false } }) }
      else s
    | none => s
  | .channel ch =>
    let x := s.dctAt ch
    if x.slot = some sl then
      (((s.withdraw (.decant ch)).setDct ch { x with abort := true }).wrF (Reg.dctChStat ch) 31 28 3).wrF (Reg.dctChStat ch) 27 26 1
    else s

/-- A cancel of one task under the commit rule: true if it ends CANCELLED. -/
def State.cancelTask (s : State) (sl : Nat) : Bool × State :=
  match s.task? sl with
  | none => (false, s)
  | some t =>
    match t.st with
    | .waiting => (true, s.commit sl 2 0 0)
    | .held => (true, { s with rsv := { s.rsv with prestage := s.rsv.prestage.filter fun p => decide (p.slot ≠ sl) || p.channel.isSome } }.commit sl 2 0 0)
    | .queued => (true, s.commit sl 2 0 0)
    | .running =>
      match t.unit with
      | some u => (true, (s.commitRunning sl 2 1 0).stopUnit sl u)
      | none => (true, s.commit sl 2 1 0)
    | .ending => (true, s.commitRunning sl 2 2 t.ust)
    | .stopping => (false, s)
    | .recorded => (false, s)

/-- A cancel by handle: a stale handle belongs to a task that has committed (R101). -/
def State.cancelHandle (s : State) (h : Nat) : Bool × State :=
  match s.slotOf h with
  | some sl => s.cancelTask sl
  | none => (false, s)

/-- A flow cancel: every uncommitted task in flow order, counting those that end CANCELLED. -/
def State.cancelFlow (s : State) (f : Nat) : Nat × State :=
  (s.flowTasks f).foldl (fun r e =>
    let (b, s) := r.2.cancelTask e.1
    (r.1 + bn b, s)) (0, s)

/-- A write of `CANCEL`; the result stands in CANCEL_RES. -/
def State.cmCancel (s : State) (i : Nat) (v : Word) : State :=
  let (b, s) := s.cancelHandle v.toNat
  s.wr (Reg.cmCpCancelRes i) (if b then 1 else 2 ^ 28)

def execCmCancel (i : Nat) (v : Word) (s : State) : Answer := pcmd (decide (i < 4)) s fun s => s.cmCancel i v

/-- A write of `CANCEL_FLOW`. -/
def State.cmCancelFlow (s : State) (i : Nat) (v : Word) : State :=
  let (n, s) := s.cancelFlow (v.toNat % 65536)
  s.wr (Reg.cmCpCancelRes i) (if n = 0 then 2 ^ 28 else n)

def execCmCancelFlow (i : Nat) (v : Word) (s : State) : Answer := pcmd (decide (i < 4)) s fun s => s.cmCancelFlow i v

/-! ### Unit faults and re-dispatch (R102 to R104) -/

/-- Another unit of the task's class is in service. A burst is never re-dispatched (R251), so none counts for it. -/
def State.otherUnit (s : State) (u : TUnit) (t : Task) : Bool :=
  let cls := dClass t.words
  match u with
  | .core c k =>
    if cls = 12 then (List.range 12).any fun d => (List.range 8).any fun j => decide (¬(d = c ∧ j = k)) && s.coreIn d j
    else (List.range 8).any fun j => decide (j ≠ k) && s.coreIn c j
  | .engine e => (List.range 76).any fun f => decide (f ≠ e) && s.engIn f && serves (.engine f) cls 0
  | .burst _ _ => false
  | .channel ch => (List.range 64).any fun d => decide (d ≠ ch) && s.poolCh d

/-- A plan that the task belongs to has started (R63). -/
def State.planRan (s : State) (handle : Nat) : State :=
  { s with fw := { s.fw with plans := s.fw.plans.map fun (p : Plan) => if p.tasks.contains handle then { p with started := true } else p } }

/-- The task goes back to the head of its FIFO with its retained descriptor (R104); class 12 may be placed afresh. -/
def State.redispatch (s : State) (sl : Nat) (t : Task) : State :=
  let s := (s.count (Reg.cmCnt 2) 1).planRan (s.handleOf sl)
  let t := { t with st := .queued, unit := none, rd := t.rd + 1, ahead := s.cm.stamp + 1, since := s.cen.clock }
  let s := { s with cm := { s.cm with stamp := s.cm.stamp + 1 } }
  let (cl, s) := if dClass t.words = 12 then s.place (dFlow t.words) else (none, s)
  let t := { t with cluster := cl.getD t.cluster }
  (s.wakeFor (dClass t.words) t.cluster).setTask sl (some t)

/-- How a unit fault ends the task that the unit runs (R100, R104): true if it is re-dispatched. -/
def State.faultTask (s : State) (u : TUnit) (sl ust : Nat) : Bool × State :=
  match s.task? sl with
  | none => (false, s)
  | some t =>
    if t.st ≠ .running ∧ t.st ≠ .ending then (false, if t.st = .stopping then s.finish sl else s)
    else if s.rdB Reg.cmCtrl 8 && dIdem t.words && decide (t.rd < s.rdF Reg.cmCtrl 5 4) && s.otherUnit u t then
      (true, s.redispatch sl t)
    else (false, s.commit sl 1 (if t.st = .ending then 2 else 1) ust)

/-- The slot of the task that a unit holds. -/
def State.taskOn (s : State) (u : TUnit) : Option Nat :=
  match s.taskList.find? fun e => decide (e.2.unit = some u) && (e.2.st == .running || e.2.st == .ending || e.2.st == .stopping) with
  | some e => some e.1
  | none => none

/-! ### Completion records (R95, R97) -/

/-- A record's bytes go to its slot of a queue; the slot of its task is freed. -/
def State.dropRecord (s : State) (r : CRec) : State :=
  let s := { s with cm := { s.cm with records := s.cm.records.erase r } }
  match r.slot with
  | some sl => s.freeSlot sl
  | none => s

/-- A host ring disabled by an error, whose bit of STAT is set (R93): an entry held for admission is withdrawn. -/
def State.ringStop (s : State) (h bit : Nat) : State :=
  let s := (s.wrF (Reg.cmHringCfg h) 31 31 0).wrF (Reg.cmHringStat h) bit bit 1
  s.withdraw (.ring h)

/-- The shadow of a host ring: SQ_CI, CQ_PI and zeros (R92). A write of it that fails sets DMA_ERR and disables the ring (R106). -/
def State.ringShadow (s : State) (h : Nat) : State :=
  let x := s.ringAt h
  if s.pcie.link then
    s.post1 (s.rdPair (Reg.cmHringShadowLo h) (Reg.cmHringShadowHi h)) (leBytes 2 x.sqCi ++ leBytes 2 x.cqPi ++ [0, 0, 0, 0])
  else s.ringStop h 0

/-- An index in the control block of a host ring as Cellarmaster reads it: none where the read fails, which disables the ring (R93). -/
def State.ringIndex (s : State) (h off : Nat) : Option Nat × State :=
  match s.busRead .cm (s.rdF (Reg.cmHringSqbase h) 25 6 * 64 + off) 2 with
  | (.ok bs, s) => (some (ofLe bs), s)
  | (_, s) => (none, s.ringStop h 0)

/-- `COMPLETION_RECORD_WRITE`: the oldest record of a queue is written once there is room, then the shadow and the vector of a
host ring; a record that cannot be written is discarded and counted (R95, R97). -/
def State.recordWrite (s : State) (q : Nat) (ok : Bool) : State :=
  match s.cm.records.find? fun r => decide (r.q = q) with
  | none => s
  | some r =>
    if q < 8 then
      let size := ringSize (s.rdF (Reg.cmFcqLog2 q) 3 0)
      let pi := s.rd (Reg.cmFcqPi q)
      if s.cqFull q then s.heldRecords q
      else
        let a := s.rdF (Reg.cmFcqBase q) 25 4 * 16 + pi % size * 16
        match s.busWrite .cm a r.bytes with
        | (.ok, s) => (s.wr (Reg.cmFcqPi q) ((pi + 1) % 65536)).dropRecord r
        | (_, s) => (s.count (Reg.cmCnt 8) 1).dropRecord r
    else
      let h := q - 8
      let x := s.ringAt h
      let size := ringSize (s.rdF (Reg.cmHringCfg h) 19 16)
      let revoking := s.fw.grants.any fun g => match g.2 with
        | some g => g.revoking && decide (g.ring = some h)
        | none => false
      if !s.rdB (Reg.cmHringCfg h) 31 && !revoking then (s.count (Reg.cmCnt 8) 1).dropRecord r
      else
        match s.ringIndex h 4 with
        | (none, s) => (s.count (Reg.cmCnt 8) 1).dropRecord r
        | (some _, s) =>
        if s.cqFull q then s.heldRecords q
        else if !ok || !s.pcie.link then ((s.ringStop h 0).count (Reg.cmCnt 8) 1).dropRecord r
        else
          let base := s.rdPair (Reg.cmHringCqbaseLo h) (Reg.cmHringCqbaseHi h)
          let s := s.post1 (base + x.cqPi % size * 16) r.bytes
          let s := s.setRing h { x with cqPi := (x.cqPi + 1) % 65536 }
          ((s.ringShadow h).vector (66 + h)).dropRecord r

def execCompletionRecordWrite (q : Nat) (ok : Bool) (s : State) : Answer :=
  pcmd (decide (q < 72)) s fun s => s.recordWrite q ok

/-! ### Host rings (R92 to R98) -/

/-- The size of host ring h in entries. -/
def State.hringSize (s : State) (h : Nat) : Nat := ringSize (s.rdF (Reg.cmHringCfg h) 19 16)

/-- `STAT.IDLE` of a host ring: no entry, task or record of it is in hand. -/
def State.ringIdle (s : State) (h : Nat) : Bool :=
  (s.held? (.ring h)).isNone && !(s.taskList.any fun e => decide (e.2.ring = some h)) &&
    !(s.cm.records.any fun r => decide (r.q = 8 + h))

/-- `CREDIT` (R94). DESIGN CHOICE (log entry 49): 0 while the ring is disabled. -/
def State.credit (s : State) (h : Nat) : Nat :=
  let x := s.ringAt h
  if !s.rdB (Reg.cmHringCfg h) 31 then 0
  else
    min 65535 (min (s.hringSize h - (x.sqPi + 65536 - x.sqCi) % 65536)
      (s.freeSlots - s.watermark (s.rdF (Reg.cmHringCfg h) 3 0)))

/-- SQ_PI as Cellarmaster detects and reads it: new entries, or an overrun that disables the ring (R93). -/
def State.sqPiSeen (s : State) (h : Nat) : State :=
  match s.ringIndex h 0 with
  | (none, s) => s
  | (some v, s) =>
  let x := s.ringAt h
  if s.hringSize h < (v + 65536 - x.sqCi) % 65536 then s.ringStop h 1
  else s.setRing h { x with sqPi := v }

/-- The entry next in ring order, if the device may take one; a read that fails, as it does with `ok` = false on a word that is found
uncorrectable, disables the ring (R93, R294). -/
def State.ringEntry (s : State) (h : Nat) (ok : Bool) : Option (List Word) × State :=
  let x := s.ringAt h
  if !s.rdB (Reg.cmHringCfg h) 31 || x.sqPi == x.sqCi || (s.held? (.ring h)).isSome then (none, s)
  else
    let a := s.rdF (Reg.cmHringSqbase h) 25 6 * 64 + 64 + x.sqCi % s.hringSize h * 32
    match s.busRead .cm a 32 with
    | (.ok bs, s) => if ok then (some (wordsOf bs), s) else (none, (s.ueAt false a).ringStop h 0)
    | (_, s) => (none, s.ringStop h 0)

/-- An entry taken: SQ_CI advances and the shadow follows. DESIGN CHOICE (log entry 49): both when the entry is taken to the ring's port,
before its admission. -/
def State.takeEntry (s : State) (h : Nat) : State :=
  let x := s.ringAt h
  (s.setRing h { x with sqCi := (x.sqCi + 1) % 65536 }).ringShadow h

/-- A descriptor with its PRIO field replaced (R94). -/
def withPrio (ws : List Word) (p : Nat) : List Word := setNth ws 3 (BitVec.ofNat 32 (setFld (dw ws 3) 19 16 p))

/-- `HOST_RING_ENTRY`: an entry that is no POST entry is taken, its PRIO replaced by BAND, and submitted (R94). -/
def State.hostRingEntry (s : State) (h : Nat) (ok : Bool) (sl : Nat) : State :=
  match s.ringEntry h ok with
  | (none, s) => s
  | (some ws, s) =>
    if dClass ws = 63 then s
    else ((s.takeEntry h).hold (.ring h) (withPrio ws (s.rdF (Reg.cmHringCfg h) 3 0)) false).taskAdmit (.ring h) sl

def execHostRingEntry (h : Nat) (ok : Bool) (sl : Nat) (s : State) : Answer :=
  pcmd (decide (h < 64) && decide (sl < 131072)) s fun s => s.hostRingEntry h ok sl

/-- A POST entry breaks R98: a field other than CLASS, PRIO, EVMASK and WAIT_GRP is not zero. -/
def postReserved (ws : List Word) : Bool :=
  decide (dw ws 0 ≠ 0 ∨ dw ws 1 ≠ 0 ∨ dw ws 2 ≠ 0 ∨ fld (dw ws 3) 15 0 ≠ 0 ∨ fld (dw ws 3) 31 26 ≠ 0 ∨ fld (dw ws 5) 31 14 ≠ 0 ∨
    dw ws 6 ≠ 0 ∨ dw ws 7 ≠ 0)

/-- `HOST_RING_POST`: a class 63 entry posts EVMASK to WAIT_GRP, or is rejected with DISABLED or RESERVED (R98). -/
def State.hostRingPost (s : State) (h : Nat) : State :=
  match s.ringEntry h true with
  | (none, s) => s
  | (some ws, s) =>
    if dClass ws ≠ 63 then s
    else
      let s := s.takeEntry h
      let bad := fun r => ((s.count (Reg.cmCnt 5) 1).tally 3 0 7 1).ringReject h ws r
      if !s.rdB Reg.cmCtrl 0 then bad 6
      else if postReserved ws then bad 4
      else s.post (dWaitGrp ws) (dMask ws)

def execHostRingPost (h : Nat) (s : State) : Answer := pcmd (decide (h < 64)) s fun s => s.hostRingPost h

end Sys2Proof.Machine
end

