-- ==== Sys2Proof/Machine/Mailbox.lean ====
section
/-! DEFINITION. The PCIe endpoint and the mailboxes as hardware (chapter 2): enable, rings, responses, deadlines, notices and
resets of the function; what every message handler shares. -/

namespace Sys2Proof.Machine

/-! ### Messages (R42, R43) -/

def stOk : Nat := 0x0000
def stAccepted : Nat := 0x0001
def stBusy : Nat := 0x0101
def stNoResource : Nat := 0x0102
def stBadParam : Nat := 0x0201
def stBadState : Nat := 0x0202
def stBadImage : Nat := 0x0203
def stDenied : Nat := 0x0301
def stClamped : Nat := 0x0302
def stLate : Nat := 0x0401
def stAlreadyDone : Nat := 0x0402
def stFault : Nat := 0x0501

/-- A response without payload. -/
def Resp.st (status : Nat) : Resp := { status := status, flags := 0, payload := [] }

/-- An OK response with a payload. -/
def Resp.ok (payload : List Byte) : Resp := { status := stOk, flags := 0, payload := payload }

/-- A request's opcode. -/
def mOp (bs : List Byte) : Nat := leAt bs 0 2

/-- A request's FENCE flag. -/
def mFence (bs : List Byte) : Bool := tb (leAt bs 2 2) 8

/-- A request header that the firmware answers BAD_PARAM (R42). -/
def badHeader (bs : List Byte) : Bool :=
  decide (leAt bs 10 2 ≠ 0 ∨ leAt bs 12 4 ≠ 0 ∨ fld (leAt bs 2 2) 7 0 ≠ 0 ∨ fld (leAt bs 2 2) 15 9 ≠ 0)

/-- The privileged messages (R45, R53). -/
def privOps : List Nat :=
  [0x0103, 0x0104, 0x0201, 0x0202, 0x0703, 0x0B01, 0x0501, 0x0502, 0x0E01, 0x0E02, 0x0E03]

/-- The 64 bytes of a response or notice slot. -/
def slotBytes (opcode flags seq status : Nat) (payload : List Byte) : List Byte :=
  leBytes 2 opcode ++ leBytes 2 flags ++ leBytes 4 seq ++ leBytes 2 payload.length ++ leBytes 2 status ++ leBytes 4 0 ++
    (payload ++ List.replicate 48 0).take 48

/-! ### Rings and shadow -/

/-- Mailbox m is enabled. -/
def State.mbxOn (s : State) (m : Nat) : Bool := s.rdB (Reg.mbxCtrl m) 31

/-- Slots of the request ring. -/
def State.reqSize (s : State) (m : Nat) : Nat := 2 ^ s.rdF (Reg.mbxSize m) 3 0

/-- Slots of the response ring. -/
def State.rspSize (s : State) (m : Nat) : Nat := 2 ^ s.rdF (Reg.mbxSize m) 19 16

/-- `MBX.FWSTATE.STATE`. -/
def State.fwSt (s : State) : Nat := s.rdF Reg.mbxFwstate 3 0

/-- Requests consumed and not yet answered. -/
def MbxState.open (x : MbxState) : Nat := (x.reqs.filter fun q => !q.gone).length

/-- A session's end: what was consumed is handled on, its responses discarded. Notices discarded with it, or lost before, leave their mark for
the next notice that is delivered (R51). -/
def MbxState.close (x : MbxState) : MbxState :=
  { MbxState.reset with reqs := x.reqs.map (fun q => { q with gone := true }), lost := x.lost || !x.notices.isEmpty }

/-- Consumption stops: unwritten responses and held notices are discarded, the notices counted in NLOST (R40). -/
def State.mbxStop (s : State) (m : Nat) : State :=
  let x := s.mbxAt m
  let s := (s.wrF (Reg.mbxCtrl m) 31 31 0).count (Reg.mbxNlost m) x.notices.length
  s.setMbx m x.close

/-- A mailbox error: its bit of STAT, the disabling of the mailbox and `MBX.DEVERR.MBX_ERR`. -/
def State.mbxError (s : State) (m bit : Nat) : State := ((s.mbxStop m).wrF (Reg.mbxStat m) bit bit 1).devErr 1

/-- The shadow written (R34). A write of it that fails on PCIe disables the mailbox (R32). -/
def State.shadow (s : State) (m : Nat) : State :=
  if !s.pcie.link then s.mbxError m 3
  else s.post1 (s.rdPair (Reg.mbxShadowLo m) (Reg.mbxShadowHi m))
    (leBytes 2 (s.rd (Reg.mbxReqCi m)) ++ leBytes 2 (s.rd (Reg.mbxRspPi m)) ++ leBytes 1 s.fwSt ++ [0, 0, 0])

/-- The response vector of a mailbox, where IRQ_EN is set (R30, R32, R39). -/
def State.mbxVector (s : State) (m : Nat) : State :=
  if s.rdB (Reg.mbxCtrl m) 12 then
    let v := s.rdF (Reg.mbxCtrl m) 10 0
    s.vector (if 2 ≤ v then v else 2 + m)
  else s

/-- `STATE` changes: vector 1, the shadows of the enabled mailboxes and, for FAILED, `MBX.DEVERR.FW_FAILED` (R30, R31, R34). -/
def State.setFwSt (s : State) (st : Nat) : State :=
  if s.fwSt = st then s
  else
    let s := (s.wrF Reg.mbxFwstate 3 0 st)
    let s := (List.range 64).foldl (fun s m => if s.mbxOn m then s.shadow m else s) s
    let s := s.vector 1
    if st = 5 then s.devErr 3 else s

/-! ### Notices (R51, R56) -/

/-- A notice held for one mailbox; one that finds the queue of 1,024 full is lost. -/
def State.noticeTo (s : State) (m opcode flags : Nat) (payload : List Byte) : State :=
  let x := s.mbxAt m
  if 1024 ≤ x.notices.length then (s.count (Reg.mbxNlost m) 1).setMbx m { x with lost := true }
  else s.setMbx m { x with notices := x.notices ++ [slotBytes opcode (flags ||| 1) 0 0 payload] }

/-- A notice raised by the running firmware: to every enabled mailbox whose NOTICE bit for the family is set. -/
def State.notice (s : State) (opcode flags : Nat) (payload : List Byte) : State :=
  if s.fwSt ≠ 3 then s
  else (List.range 64).foldl (fun s m =>
    if s.mbxOn m && s.rdB (Reg.mbxNotice m) (opcode / 256) then s.noticeTo m opcode flags payload else s) s

/-- The payload of SYS.READY, as the firmware reaches RUNNING (R56). -/
def State.readyPayload (s : State) : List Byte :=
  leBytes 1 3 ++ leBytes 1 (s.rdF Reg.mbxFwstate 15 8) ++
  leBytes 1 (if s.fw.restarted then 15 else s.rdF Reg.pwrWakeStat 31 28) ++
  leBytes 1 (s.rdF Reg.pwrWakeStat 18 18 + 2 * bn s.pwr.refb) ++
  leBytes 4 s.fw.keyId ++ leBytes 1 s.fw.svn ++ leBytes 1 (s.rdF Reg.mrdState 3 0) ++ leBytes 2 s.rsv.rated ++
  leBytes 4 (s.rd Reg.mrdErrbound) ++ taiBytes s.ns

/-- SYS.READY for one session: once for a start, as soon as the mailbox is enabled with family SYS while the firmware is RUNNING, with the
fields of the start in force. -/
def State.readyTo (s : State) (m : Nat) : State :=
  if s.mbxOn m && s.rdB (Reg.mbxNotice m) 1 && decide (s.fwSt = 3) && !(s.mbxAt m).readySent then
    let s := s.noticeTo m 0x0105 (if s.fw.restarted then 4 else 0) s.fw.ready
    s.setMbx m { s.mbxAt m with readySent := true }
  else s

/-- A notice is written once the sum of R37, with one slot for it, is less than the response ring size (R51). -/
def State.noticeDeliver (s : State) (m : Nat) (ok : Bool) : State :=
  let x := s.mbxAt m
  match x.notices with
  | [] => s
  | b :: rest =>
    let pi := s.rd (Reg.mbxRspPi m)
    let size := s.rspSize m
    if !s.mbxOn m || size ≤ x.open + (pi + 65536 - s.rd (Reg.mbxRspCi m)) % 65536 + 1 then s
    else if !ok || !s.pcie.link then s.mbxError m 3
    else
      let b := if x.lost then patch b 2 (leBytes 2 (leAt b 2 2 ||| 8)) else b
      let s := s.post1 (s.rdPair (Reg.mbxRspBaseLo m) (Reg.mbxRspBaseHi m) + pi % size * 64) b
      let s := s.wr (Reg.mbxRspPi m) ((pi + 1) % 65536)
      ((s.setMbx m { x with notices := rest, lost := false }).shadow m).mbxVector m

def execNoticeDeliver (m : Nat) (ok : Bool) (s : State) : Answer := pcmd (decide (m < 64)) s fun s => s.noticeDeliver m ok

/-! ### Enable, disable and the doorbells (R33, R36, R39, R40) -/

/-- PRIV as a write leaves it: frozen while LOCK is set (R32). -/
def State.privOf (s : State) (m v : Nat) : Nat := if s.rdB Reg.mbxLock 0 then s.rdF (Reg.mbxCtrl m) 30 30 else fld v 30 30

/-- CTRL written but for EN. -/
def State.ctrlFields (s : State) (m v : Nat) : State :=
  s.wr (Reg.mbxCtrl m) (s.rdF (Reg.mbxCtrl m) 31 31 * 2 ^ 31 + s.privOf m v * 2 ^ 30 + fld v 12 12 * 2 ^ 12 + fld v 10 0)

/-- SIZE, the bases and the shadow are what an enable asks for (R32, R33). -/
def State.mbxCfgOk (s : State) (m : Nat) : Bool :=
  let a := s.rdF (Reg.mbxSize m) 3 0
  let b := s.rdF (Reg.mbxSize m) 19 16
  let req := s.rdPair (Reg.mbxReqBaseLo m) (Reg.mbxReqBaseHi m)
  let rsp := s.rdPair (Reg.mbxRspBaseLo m) (Reg.mbxRspBaseHi m)
  let sh := s.rdPair (Reg.mbxShadowLo m) (Reg.mbxShadowHi m)
  decide (4 ≤ a ∧ a ≤ 10 ∧ 4 ≤ b ∧ b ≤ 10) && decide (req % (64 * 2 ^ a) = 0 ∧ rsp % (64 * 2 ^ b) = 0 ∧ sh % 8 = 0) &&
    s.inWindow req (64 * 2 ^ a) && s.inWindow rsp (64 * 2 ^ b) && s.inWindow sh 8

/-- A write of CTRL (R32, R33, R40). -/
def State.mbxCtrlWrite (s : State) (m v : Nat) : State :=
  let on := s.mbxOn m
  let s := s.ctrlFields m v
  if on && !tb v 31 then s.mbxStop m
  else if !on && tb v 31 then
    if s.mbxCfgOk m then
      let s := (((s.wr (Reg.mbxReqPi m) 0).wr (Reg.mbxReqCi m) 0).wr (Reg.mbxRspPi m) 0).wr (Reg.mbxRspCi m) 0
      let s := ((s.setMbx m (s.mbxAt m).close).wrF (Reg.mbxStat m) 31 31 0).wrF (Reg.mbxCtrl m) 31 31 1
      (s.shadow m).readyTo m
    else (s.wrF (Reg.mbxStat m) 2 2 1).devErr 1
  else s

/-- A write of NOTICE: a session of the running firmware that asks for the family SYS receives its SYS.READY (R51, R56). -/
def State.noticeWrite (s : State) (m v : Nat) : State := (s.wr (Reg.mbxNotice m) v).readyTo m

/-- `MBX_ENABLE`: EN written from 0 to 1. -/
def execMbxEnable (i : Init) (m : Nat) (v : Word) (s : State) : Answer :=
  pcmd (i.hostOrCtl && decide (m < 64)) s fun s => if s.mbxOn m then s else s.mbxCtrlWrite m (v.toNat ||| 2 ^ 31)

/-- `MBX_DISABLE`: EN written from 1 to 0. -/
def execMbxDisable (i : Init) (m : Nat) (v : Word) (s : State) : Answer :=
  pcmd (i.hostOrCtl && decide (m < 64)) s fun s => if s.mbxOn m then s.mbxCtrlWrite m (setFld v.toNat 31 31 0) else s

/-- `MBX_IDLE`: every ring and shadow write in flight has been acknowledged. -/
def execMbxIdle (m : Nat) (s : State) : Answer :=
  pcmd (decide (m < 64)) s fun s => if s.mbxOn m then s else s.wrF (Reg.mbxStat m) 31 31 1

/-- The doorbell (R36). -/
def State.reqPiWrite (s : State) (m v : Nat) : State :=
  if !s.mbxOn m then s
  else if s.reqSize m < (v % 65536 + 65536 - s.rd (Reg.mbxReqCi m)) % 65536 then s.mbxError m 1
  else s.wr (Reg.mbxReqPi m) (v % 65536)

/-- `MBX_REQ_PI_WRITE`: what the host has written to its memory by then, then the doorbell. -/
def execMbxReqPiWrite (i : Init) (m : Nat) (v : Word) (hostWrites : List (Nat × List Byte)) (s : State) : Answer :=
  cmd (i.hostOrCtl && decide (m < 64)) s fun s =>
    live (hostWrites.foldl (fun s w => s.putHost w.1 w.2) s) fun s => s.reqPiWrite m v.toNat

/-- A write of RSP_CI (R39). -/
def State.rspCiWrite (s : State) (m v : Nat) : State :=
  if !s.mbxOn m then s
  else
    let ci := s.rd (Reg.mbxRspCi m)
    if (s.rd (Reg.mbxRspPi m) + 65536 - ci) % 65536 < (v % 65536 + 65536 - ci) % 65536 then s.mbxError m 1
    else s.wr (Reg.mbxRspCi m) (v % 65536)

def execMbxRspCiWrite (i : Init) (m : Nat) (v : Word) (s : State) : Answer :=
  pcmd (i.hostOrCtl && decide (m < 64)) s fun s => s.rspCiWrite m v.toNat

/-- `MBX_LOCK_SET`: a 1 sets LOCK (W1S). -/
def execMbxLockSet (i : Init) (v : Word) (s : State) : Answer :=
  pcmd i.hostOrCtl s fun s => if tb v.toNat 0 then s.wrF Reg.mbxLock 0 0 1 else s

/-! ### Resets of the function (R41, R277) -/

/-- Every mailbox closes, the MBX pages, LOCK, HWBASE and configuration space return to their Reset values and `MBX.DEVERR.FLR` is set
(R25, R41). The firmware abandons the requests it has not answered. -/
def State.functionReset (s : State) : State :=
  let mbx := (s.mbx.map fun e => (e.1, { e.2.close with reqs := [] })).filter fun e => decide (e.2 ≠ MbxState.reset)
  let s := { s with mbx := mbx, fw := { s.fw with loading := [] }, pcie := { s.pcie with msix := [], pba := [], pmcsr := 0, msixCtl := 0, devCtl := 0 } }
  let s := s.resetRegs fun o => decide (0x100000 ≤ o ∧ o < 0x140000) || o == Reg.mbxLock || o == Reg.pcieHwbaseLo || o == Reg.pcieHwbaseHi
  s.devErr 4

def execPcieFlr (s : State) : Answer := pcmd true s State.functionReset

def execPcieConventionalReset (s : State) : Answer := pcmd true s State.functionReset

/-- The posted writes that had not reached the link put back: all but the oldest `kept` (R277). -/
def State.unpost (s : State) (kept : Nat) : State :=
  let lost := s.pcie.posted.take (s.pcie.posted.length - kept)
  { lost.foldl (fun s w => s.putHost w.1 w.2) s with pcie := { s.pcie with posted := [] } }

/-- Loss of the data link: queued posted writes are discarded, the link is down, the function is reset. -/
def State.linkDown (s : State) : State := { s with pcie := { s.pcie with link := false } }.functionReset

/-- `PCIE_LINK_DOWN`: of the writes that the command before posted, the oldest `kept` had reached the link. -/
def execPcieLinkDown (kept : Nat) (s : State) : Answer :=
  cmd true s fun t =>
    live t fun t => if s.pcie.link then (State.unpost { t with pcie := { t.pcie with posted := s.pcie.posted } } kept).linkDown else t

/-- `PCIE_LINK_UP`. -/
def execPcieLinkUp (s : State) : Answer := pcmd true s fun s => { s with pcie := { s.pcie with link := true } }

/-! ### Consumption and responses (R35 to R39, R46, R48) -/

/-- Bytes of a ring from a slot index on, wrapping at the end of the ring. -/
def State.ringBytes (s : State) (base size idx n : Nat) : List Byte :=
  (List.range n).flatMap fun j => s.hostBytes (base + (idx + j) % size * 64) 64

/-- The slots of a message of payload length `len` (R35): L counts the payload. -/
def slotsFor (len : Nat) : Nat := if len ≤ 48 then 1 else 1 + (len - 48 + 63) / 64

/-- The answer that the hardware itself gives in a firmware state (R48). -/
def hwAnswer (st m : Nat) : Ans :=
  match st with
  | 1 => if m = 0 then .none else .ready (.st stBusy)
  | 3 => .none
  | 4 => .ready { status := stBusy, flags := 4, payload := [] }
  | 5 => .ready (.st stFault)
  | _ => .ready (.st stBusy)

/-- `REQUEST_CONSUME`. -/
def State.requestConsume (s : State) (m : Nat) (ok : Bool) : State :=
  let x := s.mbxAt m
  let ci := s.rd (Reg.mbxReqCi m)
  let occ := (s.rd (Reg.mbxReqPi m) + 65536 - ci) % 65536
  let used := (s.rd (Reg.mbxRspPi m) + 65536 - s.rd (Reg.mbxRspCi m)) % 65536
  if !s.mbxOn m || occ == 0 || decide (s.rspSize m ≤ x.open + used + 1) then s
  else if !ok || !s.pcie.link then s.mbxError m 3
  else
    let base := s.rdPair (Reg.mbxReqBaseLo m) (Reg.mbxReqBaseHi m)
    let len := leAt (s.ringBytes base (s.reqSize m) ci 1) 8 2
    if 224 < len then s.mbxError m 4
    else
      let n := slotsFor len
      if occ < n then s
      else
        let bytes := (s.ringBytes base (s.reqSize m) ci n).take (16 + len)
        let r : MbxReq := { bytes := bytes, time := s.mrd.time, tmo := s.rdF (Reg.mbxTmo m) 15 0, ans := hwAnswer s.fwSt m, gone := false }
        let s := s.wr (Reg.mbxReqCi m) ((ci + n) % 65536)
        (s.setMbx m { x with reqs := x.reqs ++ [r] }).shadow m

def execRequestConsume (m : Nat) (ok : Bool) (s : State) : Answer :=
  pcmd (decide (m < 64)) s fun s => s.requestConsume m ok

/-- A response written to the ring: the slot, then the shadow, then the vector (R39). A write that fails on PCIe disables the
mailbox (R32). -/
def State.writeResponse (s : State) (m : Nat) (q : MbxReq) (r : Resp) (ok : Bool) : State :=
  if !ok || !s.pcie.link then s.mbxError m 3
  else
    let pi := s.rd (Reg.mbxRspPi m)
    let a := s.rdPair (Reg.mbxRspBaseLo m) (Reg.mbxRspBaseHi m) + pi % s.rspSize m * 64
    let s := s.post1 a (slotBytes (mOp q.bytes) r.flags (leAt q.bytes 4 4) r.status r.payload)
    ((s.wr (Reg.mbxRspPi m) ((pi + 1) % 65536)).shadow m).mbxVector m

/-- The firmware's response to request `k`, which ends its handling: written, unless the deadline's response came first (R46) or its
session has ended (R40). -/
def State.respond (s : State) (m k : Nat) (r : Resp) (ok : Bool) : State :=
  let x := s.mbxAt m
  match x.reqs[k]? with
  | none => s
  | some q =>
    let s := s.setMbx m { x with reqs := x.reqs.eraseIdx k }
    if q.gone then s else s.writeResponse m q r ok

/-- `RESPONSE_TIMEOUT`: the hardware commits BUSY with TIMED_OUT (R46). -/
def execResponseTimeout (m k : Nat) (ok : Bool) (s : State) : Answer :=
  pcmd (decide (m < 64)) s fun s =>
    match (s.mbxAt m).reqs[k]? with
    | some q =>
      if q.tmo = 0 || q.gone then s
      else
        let s := s.until (q.time + q.tmo * 1000000 * 2 ^ 32)
        let x := s.mbxAt m
        let s := s.setMbx m { x with reqs := x.reqs.set k { q with gone := true } }
        s.writeResponse m q { status := stBusy, flags := 2, payload := [] } ok
    | none => s

/-! ### What every message handler shares -/

/-- A request's answer set. -/
def State.setAns (s : State) (m k : Nat) (a : Ans) : State :=
  let x := s.mbxAt m
  match x.reqs[k]? with
  | some q => s.setMbx m { x with reqs := x.reqs.set k { q with ans := a } }
  | none => s

/-- The request that starts next on a mailbox: requests start in consumption order, and one with FENCE only once every earlier
one has been answered (R38). -/
def State.nextReq (s : State) (m : Nat) : Option (Nat × List Byte) :=
  let qs := (s.mbxAt m).reqs
  match qs.findIdx? fun q => decide (q.ans = .none) with
  | none => none
  | some k =>
    match qs[k]? with
    | some q => if mFence q.bytes && (qs.take k).any fun q => !q.gone then none else some (k, q.bytes)
    | none => none

/-- When the request that starts next was consumed, in ns. -/
def State.consumed (s : State) (m : Nat) : Nat :=
  match s.nextReq m with
  | some (k, _) => ((s.mbxAt m).reqs[k]?.map fun q => q.time / 2 ^ 32).getD s.ns
  | none => s.ns

/-- The refusal that every firmware request meets first: a header that breaks R42, or a privileged message on a mailbox with
PRIV = 0 (R45). -/
def State.refuse (s : State) (m : Nat) (bs : List Byte) : Option Resp :=
  if badHeader bs then some (.st stBadParam)
  else if privOps.contains (mOp bs) && !s.rdB (Reg.mbxCtrl m) 30 then some (.st stDenied)
  else none

/-- Who answers requests handles the next request of a mailbox if it is the message `op` in the form `form`. -/
def State.handleIf (s : State) (ok : Bool) (m op : Nat) (form : List Byte → Bool) (f : List Byte → State → Ans × State) :
    State :=
  if !ok then s
  else
    match s.nextReq m with
    | none => s
    | some (k, bs) =>
      if mOp bs ≠ op || !form bs then s
      else
        match s.refuse m bs with
        | some r => s.setAns m k (.ready r)
        | none =>
          let (a, s) := f bs s
          s.setAns m k a

/-- The firmware handles a request (R48: RUNNING). -/
def State.handle (s : State) (m op : Nat) (form : List Byte → Bool) (f : List Byte → State → Ans × State) : State :=
  s.handleIf (decide (s.fwSt = 3)) m op form f

/-- The boot ROM in ROM hold serves mailbox 0 (R502). -/
def State.romServes (s : State) (m : Nat) : Bool := decide (s.fwSt = 1 ∧ m = 0) && s.sec.hold

end Sys2Proof.Machine
end

