-- ==== Sys2Proof/Machine/Power.lean ====
section
/-! DEFINITION. What a reset of the payload, of a cluster or of a unit does and keeps (R465 to R467), Meridian across a power
state (R384, R385), automatic SLEEP (R450, R451) and the supply and temperature events of the payload (R524, R525, R532). -/

namespace Sys2Proof.Machine

/-! ### Meridian across a power state -/

/-- The nominal period of XTAL32 in 2^-32 ns. -/
def nominalP : Nat := 30517578125 * 2 ^ 32 / 1000000

/-- The last timing frame before Meridian stops (R384): T_stop, the crystal tick and the servo settings. -/
def State.lastFrame (s : State) : State :=
  { s with
    pwr := { s.pwr with accounted := s.nw.xtal }
    nw := { s.nw with
      tstop := s.mrd.time, tstopTick := s.nw.ticks, tstopSub := s.nw.sub
      servo := some
        { servo := BitVec.ofNat 32 (s.rd Reg.mrdServo), kp := BitVec.ofNat 32 (s.rd Reg.mrdKp), ki := BitVec.ofNat 32 (s.rd Reg.mrdKi),
          lock := BitVec.ofNat 32 (s.rd Reg.mrdLock), unlock := BitVec.ofNat 32 (s.rd Reg.mrdUnlockNs),
          stepNs := BitVec.ofNat 32 (s.rd Reg.mrdStepNs), hold := BitVec.ofNat 32 (s.rd Reg.mrdHold),
          favg := BitVec.ofNat 32 s.favgNow, freq := BitVec.ofNat 32 (s.rd Reg.mrdFreq) } } }

/-- The resume frame (R385): the time restored, the servo settings with FREQ := FAVG and I := −FAVG, UNCERTAIN, ERRBOUND. -/
def State.resume (s : State) : State :=
  match s.nw.servo with
  | none => s
  | some v =>
    let p := if s.nw.period = 0 then nominalP else s.nw.period
    let dur := (s.nw.ticks * xtalUnit + s.nw.sub - (s.nw.tstopTick * xtalUnit + s.nw.tstopSub)) * p / xtalUnit
    let s := { s with mrd := { s.mrd with
      time := s.nw.tstop + dur + Config.resumeLatency, integ := -(sx 32 v.favg.toNat) * 2 ^ 22, run := true } }
    let s := ((s.wr Reg.mrdServo (setFld v.servo.toNat 30 30 0)).wr Reg.mrdKp v.kp.toNat).wr Reg.mrdKi v.ki.toNat
    let s := ((s.wr Reg.mrdLock v.lock.toNat).wr Reg.mrdUnlockNs v.unlock.toNat).wr Reg.mrdStepNs v.stepNs.toNat
    let s := ((s.wr Reg.mrdHold v.hold.toNat).wr Reg.mrdFavg v.favg.toNat).wr Reg.mrdFreq v.favg.toNat
    let s := s.wr Reg.mrdErrbound (min 0xFFFFFFFF (30500 + (dur * 25 + (1000000 * 2 ^ 32 - 1)) / (1000000 * 2 ^ 32)))
    let s := s.count Reg.mrdSteps 1
    s.wr Reg.mrdState 4

/-! ### Reset of the payload -/

/-- A CSR offset whose field values a warm reset and a wake from DEEP keep (R466), with the bits kept. -/
def keptBits (o : Nat) : Nat :=
  if o = Reg.memDramcfg then 2 ^ 32 - 1
  else if 0xA00000 ≤ o ∧ o < 0xA60000 then
    let p := o % 0x10000
    if p = 8 ∨ p = 0xC ∨ (0x10 ≤ p ∧ p < 0x48) ∨ (0x60 ≤ p ∧ p < 0x74) ∨ (0x100 ≤ p ∧ p < 0x200) then 2 ^ 32 - 1 else 0
  else if o = Reg.rsvThrAge ∨ o = Reg.rsvThrCe ∨ o = Reg.rsvThrEye ∨ (0x1300080 ≤ o ∧ o < 0x13000B0) ∨ (0x1300200 ≤ o ∧ o < 0x1300340) ∨
      0x1300800 ≤ o ∧ o < 0x1300C5C then 2 ^ 32 - 1
  else if o = Reg.mbxFwstate then 0xFF00
  else if 0xC00000 ≤ o ∧ o < 0xE00000 then
    match o % 0x1000 with
    | 0x00 => 0xF000001B
    | 0x04 => 0xFC
    | 0x08 => 2 ^ 32 - 1
    | 0x20 => 0x7FFFFFFF
    | 0x24 => 0x80000000
    | _ => 0
  else 0

/-- The NWB block and Nightwatch belong to the shelf side; every payload reset clears `NWB.CTRL` (R491). -/
def shelfReg (o : Nat) : Bool := decide (0x1700000 ≤ o ∧ o < 0x1800000 ∧ o ≠ Reg.nwbCtrl)

/-- The registers after a payload reset: shelf-side ones as they are, the kept bits where `keep`, Reset values elsewhere. -/
def State.regsAfter (s : State) (keep : Bool) : State :=
  let shelf := mdrop (fun o => !shelfReg o) s.csr
  let base := { s with csr := shelf }
  if !keep then base
  else
    s.csr.foldl (fun t e =>
      let k := keptBits e.1
      if k = 0 then t else t.wr e.1 ((e.2.toNat &&& k) + (t.rd e.1 &&& (2 ^ 32 - 1 - k)))) base

/-- The first and last addresses of the retention region (R16). -/
def inRetention (a : Nat) : Bool := decide (0x03800000 ≤ a ∧ a < 0x04000000)

/-- Memory after a payload reset: a cold reset leaves nothing valid; a warm one keeps the retention region and DRAM (R296,
R297, R466). X and Y are cleared in both (R112). -/
def State.memAfter (s : State) (keep : Bool) : State :=
  let lost := fun a => !(keep && (inRetention a || locate a == .dram))
  { s with mem := { s.mem with
      dev := mdrop lost s.mem.dev
      err := mdrop lost s.mem.err
      valid := s.mem.valid.filter fun l => !lost (l * 64)
      vmap := if keep then s.mem.saved.elim [] (·.1) else []
      bank := if keep then s.mem.bank else []
      copy := if keep then s.mem.copy else [], saved := none } }

/-- The Reserve after a payload reset: its map and wear counts are kept by a warm reset (R434, R466). -/
def rsvAfter (r : RsvState) (keep : Bool) : RsvState :=
  if keep then
    { RsvState.reset with
      retiring := r.retiring, rowsMarked := r.rowsMarked, out := r.out, usedSpares := r.usedSpares, degraded := r.degraded, rowsOut := r.rowsOut, wear := r.wear, storeOut := r.storeOut
      dramRows := r.dramRows, ctlMap := r.ctlMap, ctlOut := r.ctlOut, rated := r.rated, fskCh := r.fskCh, taskSlots := r.taskSlots }
  else { RsvState.reset with dramRows := r.dramRows }

/-- Lanes, ports and streams after a payload reset: their configuration is kept by a warm reset (R466). -/
def frontAfter (f : FrontState) (keep : Bool) : FrontState :=
  if keep then { FrontState.reset with links := f.links, ports := f.ports, streams := f.streams } else .reset

/-- What the firmware keeps through a payload reset: of a warm one, the resident copy and what its image says (R500). -/
def fwAfter (f : FwState) (keep : Bool) : FwState :=
  if keep then
    { FwState.reset with
      resident := f.resident, imageLen := f.imageLen, keyId := f.keyId, svn := f.svn, digest := f.digest, wdog := f.wdog
      limit := f.limit }
  else .reset

/-- Lanes that keep a mode through a payload reset run bring-up from stage 1 (R331); a spared lane stays out. -/
def State.lanesUp (s : State) : State :=
  s.csr.foldl (fun t e =>
    let o := e.1 - 0xC00000
    let g := o / 0x20000
    let l := o % 0x20000 / 0x1000
    let mode := fld e.2.toNat 31 28
    if 0xC00000 ≤ e.1 ∧ e.1 < 0xDE0000 ∧ e.1 % 0x1000 = 0 ∧ 1 ≤ mode ∧ mode ≤ 6 ∧ !t.rdB (Reg.laneStat g l) 7 then
      let t := t.wrF (Reg.laneStat g l) 31 28 1
      { t with front := { t.front with lanes := mput (fun _ => .reset) t.front.lanes (g * 17 + l) { LaneState.reset with own := 1 } } }
    else t) s

/-- A payload reset of either kind (R465, R466). The fabric image, the tasks, the mailboxes and the firmware's own data are
lost; OTP, boot flash and the shelf side stay. -/
def State.payloadReset (s : State) (keep : Bool) : State :=
  let s := (s.regsAfter keep).memAfter keep
  let dmc := if keep then s.dmc.map fun e => (e.1, { DmcState.reset with trained := e.2.trained }) else []
  let dmc := dmc.filter fun e => decide (e.2 ≠ DmcState.reset)
  let s : State := { s with
    pairs := [], mbx := [], cm := .reset, cores := [], engs := [], nfes := [], dct := [], dctTurn := 0, dmc := dmc
    front := frontAfter s.front keep, mrd := .reset, trl := { TrlState.reset with pins := s.trl.pins, colMap := if keep then s.trl.colMap else [] }
    rsv := rsvAfter s.rsv keep, cen := .reset
    fw := fwAfter s.fw keep
    sec := { s.sec with otpErr := false, lastCheck := 0, hold := false, challenge := none, spi := none }
    pcie := { s.pcie with link := false, msix := [], pba := [], pmcsr := 0, msixCtl := 0, devCtl := 0 }
    pwr := { s.pwr with entry := .none, asked := [], avsFail := false, cooling := [], vdd := 880 } }
  s.lanesUp

/-- The payload loses power or is held in reset: nothing of it runs, and its PCIe link is down. -/
def State.payloadDown (s : State) : State :=
  { s with pwr := { s.pwr with up := false, entry := .none }, mrd := { s.mrd with run := false },
           pcie := { s.pcie with link := false, msix := [], pba := [], pmcsr := 0, msixCtl := 0, devCtl := 0 } }

/-! ### Cluster and unit resets (R467) -/

/-- A core is cleared (R112): X and Y read zero, nothing of the task stays; MPU regions are registers and keep their values. -/
def State.clearCore (s : State) (c k : Nat) : State :=
  let base := 0x10000000 + c * 0x01000000 + k * 0x00100000
  (s.forget (base + 0x40000) (base + 0xC0000)).setCore c k { CoreState.reset with pm := (s.core c k).pm }

/-- A core's running task ends as on a unit fault, with USTATUS 0x20 where it is not re-dispatched. -/
def State.dropCoreTask (s : State) (c k : Nat) : State :=
  let s := s.withdraw (.core c k)
  match s.taskOn (.core c k) with
  | some sl => ((s.setCore c k { s.core c k with st := .clearing }).faultTask (.core c k) sl 0x20).2
  | none => s

/-- A unit reset of a core: ignored for a core out of service. -/
def State.resetCore (s : State) (c k : Nat) : State :=
  if !s.coreIn c k then s
  else
    let s := (s.dropCoreTask c k).clearCore c k
    (s.setCore c k { s.core c k with pm := [] }).wrF Reg.pwrRst 30 30 1

/-- What a cluster's cores share is lost: no valid bit is left in its memory, and no working set is staged there (R427, R467). -/
def State.clearShared (s : State) (c : Nat) : State :=
  let base := 0x10C00000 + c * 0x01000000
  let s := s.forget base (base + 0x200000)
  { s with rsv := { s.rsv with staged := s.rsv.staged.filter fun e => decide (e.2 ≠ c) } }

/-- A cluster reset. -/
def State.resetCluster (s : State) (c : Nat) : State :=
  let s := s.wrF (Reg.pwrCl c) 3 0 0
  let s := (List.range 8).foldl (fun s k => if s.coreIn c k then s.dropCoreTask c k else s) s
  let s := (List.range 8).foldl (fun s k =>
    if !s.coreIn c k then s
    else
      let s := s.clearCore c k
      let s := s.setCore c k { s.core c k with pm := [] }
      if s.rdF (Reg.dspcPmLock c k) 1 0 = 0 then s else (s.wrF (Reg.rsvChold c) k k 1).wrF (Reg.dspcPmLock c k) 1 0 0) s
  let s := s.clearShared c
  if (List.range 8).any fun k => s.coreIn c k && (s.core c k).st == .clearing then s.wrF Reg.pwrRst 30 30 1 else s

/-- An engine's running task ends as on a unit fault and the engine returns to IDLE, in which an NFE has no plan (R252); ignored for an engine
out of service or ISOLATED. -/
def State.resetEngine (s : State) (e : Nat) : State :=
  if !s.engIn e then s
  else if e < 76 then
    let x := s.engAt e
    if x.st = .isolated ∨ x.st = .off then s
    else
      let s := (s.withdraw (.engine e)).setEng e .reset
      match s.taskOn (.engine e) with
      | some sl => (s.faultTask (.engine e) sl 0x20).2
      | none => s
  else
    let n := e - 76
    let f := s.nfeAt n
    if f.st = .isolated ∨ f.st = .off then s
    else
      let slots := f.ctx.filterMap fun c => c.2.map fun b => (c.1, b.slot)
      let s := slots.foldl (fun s c => s.withdraw (.burst n c.1)) s
      let s := s.setNfe n { f with st := .idle, plan := [], ctx := [], chans := [], done := [], rxdRes := s.rd (Reg.nfeRxdPi n) }
      slots.foldl (fun s c => (s.faultTask (.burst n c.1) c.2 0x20).2) s

/-- A write of `PWR.RST` with GO (R468): KIND and UNIT are taken, and the reset is performed unless one is in progress. -/
def State.rstGo (s : State) (kind unit : Nat) (act : State → State) : State :=
  let busy := s.rdB Reg.pwrRst 30
  let s := s.wr Reg.pwrRst (bn busy * 2 ^ 30 + kind * 2 ^ 24 + unit)
  if busy then s else (act s).emit (.reset kind unit)

/-- `PWR_RST_CLUSTER`: KIND 3 for cluster c. -/
def execPwrRstCluster (i c : Nat) (s : State) : Answer :=
  pcmd (decide (i < 4) && decide (c < 12)) s fun s => s.rstGo 3 c fun s => s.resetCluster c

/-- `PWR_RST_CORE`: KIND 4 for core c.k. -/
def execPwrRstCore (i c k : Nat) (s : State) : Answer :=
  pcmd (decide (i < 4) && decide (c < 12) && decide (k < 8)) s fun s => s.rstGo 4 (c * 8 + k) fun s => s.resetCore c k

/-- `PWR_RST_ENGINE`: KIND 5 for logical engine e. -/
def execPwrRstEngine (i e : Nat) (s : State) : Answer :=
  pcmd (decide (i < 4) && decide (e < 80)) s fun s => s.rstGo 5 e fun s => s.resetEngine e

/-- `CORE_CLEAR_DONE`: the clearing of X and Y ends and the core accepts tasks; a reset in progress ends with the last one. -/
def State.coreClearDone (s : State) (c k : Nat) : State :=
  let x := s.core c k
  if x.st ≠ .clearing then s
  else
    let s := s.setCore c k { x with st := .waiting }
    if (List.range 96).any fun n => decide ((s.core (n / 8) (n % 8)).st = .clearing) && s.coreIn (n / 8) (n % 8) then s
    else s.wrF Reg.pwrRst 30 30 0

def execCoreClearDone (c k : Nat) (s : State) : Answer := pcmd (decide (c < 12) && decide (k < 8)) s fun s => s.coreClearDone c k

/-! ### Automatic SLEEP and its exits (R78, R450, R451) -/

/-- A cluster's FIFOs hold no task. -/
def State.fifosEmpty (s : State) (c : Nat) : Bool :=
  !(s.taskList.any fun e => e.2.st == .queued && decide (dClass e.2.words = c ∨ (dClass e.2.words = 12 ∧ e.2.cluster = c)))

/-- The conditions under which a cluster enters SLEEP (R450). -/
def State.clusterMaySleep (s : State) (c : Nat) : Bool :=
  !s.rdB Reg.rsvHctrl 0 && !s.rsv.active.contains c && s.fifosEmpty c && !s.rdB (Reg.pwrCl c) 31 &&
    decide (s.rdF (Reg.pwrCl c) 3 0 = 0) && (List.range 8).all fun k => !s.coreIn c k || (s.core c k).st == .waiting

/-- The notice PWR.STATE (R456). -/
def State.pwrNotice (s : State) (scope unit old new : Nat) : State :=
  s.notice 0x0203 0 (leBytes 1 scope ++ [0] ++ leBytes 2 unit ++ leBytes 1 old ++ leBytes 1 new ++ leBytes 1 s.pwr.wsrc ++
    leBytes 1 (bn s.pwr.refb) ++ taiBytes s.ns)

/-- A request for SLEEP is open for a unit, or no longer. -/
def State.askSleep (s : State) (key : Nat) : State := { s with pwr := { s.pwr with asked := sins s.pwr.asked key } }
def State.unaskSleep (s : State) (key : Nat) : State := { s with pwr := { s.pwr with asked := sdel s.pwr.asked key } }

/-- A unit has entered SLEEP from state `old`: where a request asked for it, it has taken effect (R456). -/
def State.sleepTaken (s : State) (key scope unit old : Nat) : State :=
  if s.pwr.asked.contains key then (s.unaskSleep key).pwrNotice scope unit old 2 else s

/-- A cluster in SLEEP: the DPLL stops; EFF of a sleeping cluster is 0 (R423). -/
def State.clusterDown (s : State) (c : Nat) : State :=
  ((s.wrF (Reg.pwrCl c) 3 0 2).wrF (Reg.rsvLoad c) 31 31 0).wrF (Reg.rsvLoad c) 7 0 0

/-- `CLUSTER_SLEEP_ENTER`. -/
def execClusterSleepEnter (c : Nat) (s : State) : Answer :=
  pcmd (decide (c < 12)) s fun s => if s.clusterMaySleep c then (s.clusterDown c).sleepTaken c 1 c 0 else s

/-- `CLUSTER_WAKE`: a queued task or an access from outside wakes it. -/
def execClusterWake (c : Nat) (s : State) : Answer := pcmd (decide (c < 12)) s fun s => s.wakeCluster c

/-- `ENGINE_SLEEP_ENTER`: an engine that has been IDLE for ESLEEP µs (0 = never); HOLD and an NFE with RX_EN = 1 keep it out. -/
def State.engineSleep (s : State) (e : Nat) : State :=
  if s.rdF Reg.pwrEsleep 15 0 = 0 || s.rdB (Reg.pwrEng e) 31 then s
  else if e < 76 then
    if (s.engAt e).st = .idle then ((s.setEng e { s.engAt e with st := .sleep }).wrF (Reg.pwrEng e) 3 0 2).sleepTaken (12 + e) 2 e 1 else s
  else
    let f := s.nfeAt (e - 76)
    if (f.st = .idle ∨ f.st = .running) ∧ !s.rdB (Reg.nfeCtrl (e - 76)) 0 ∧ f.ctx.all (fun c => c.2.isNone) then ((s.setNfe (e - 76) { f with st := .sleep }).wrF (Reg.pwrEng e) 3 0 2).sleepTaken (12 + e) 2 e 1
    else s

def execEngineSleepEnter (e : Nat) (s : State) : Answer := pcmd (decide (e < 80)) s fun s => s.engineSleep e

def execEngineWake (e : Nat) (s : State) : Answer := pcmd (decide (e < 80)) s fun s => s.engineWake e

/-! ### Clocks, AVSBus and temperature -/

/-- The main PLL runs: from the end of a wake's oscillator stage to the fall of the rails (R14, R460). -/
def State.pllRuns (s : State) : Bool := s.pwr.up || (s.nw.pstate == .waking && decide (3 ≤ s.nw.stage))

/-- `REFCLK_A_LOSS`: the main PLL, where it runs, falls back to REFCLK_B (R14). -/
def execRefclkALoss (s : State) : Answer :=
  cmd true s fun s => { s with pwr := { s.pwr with refA := false, refb := s.pwr.refb || s.pllRuns } }

/-- The frequency at which a cluster runs, in MHz. -/
def State.freqOf (s : State) (c : Nat) : Nat := mget (fun _ => 1600) s.rsv.freq c

/-- A cluster's frequency set. -/
def State.setFreq (s : State) (c f : Nat) : State := { s with rsv := { s.rsv with freq := mput (fun _ => 1600) s.rsv.freq c f } }

/-- A cluster's frequency lowered by 100 MHz, as far as it goes (R430). -/
def State.slower (s : State) (c : Nat) : State := s.setFreq c (max 100 (s.freqOf c - 100))

/-- The clusters that are awake. -/
def State.awake (s : State) : List Nat := s.clusters.filter fun c => decide (s.rdF (Reg.pwrCl c) 3 0 = 0)

/-- `AVS_NO_ACK`: the first failure is repeated after 100 µs; the second is a conflict of loop 0, KIND 3, and lowers frequency as
at the ceiling (R524). -/
def State.avsNoAck (s : State) (second : Bool) : State :=
  if !second then s
  else
    let u : State := { s.conflict 0 3 0 with pwr := { s.pwr with avsFail := true } }
    u.awake.foldl (fun s c => s.slower c) u

def execAvsNoAck (second : Bool) (s : State) : Answer := pcmd true s fun s => s.avsNoAck second

/-- The hottest of the sensors: index and signed value in 0.5 °C. -/
def hottest (l : List Int) : Nat × Int :=
  (l.foldl (fun (r : Nat × Nat × Int) t => if r.1 = 0 ∨ r.2.2 < t then (r.1 + 1, r.1, t) else (r.1 + 1, r.2)) (0, 0, 0)).2

/-- Throttling with a hottest reading `t`: from 108 °C on until the reading has fallen to 105 °C (R532). -/
def State.throttles (s : State) (t : Int) : Bool := decide (216 ≤ t) || (s.rdB Reg.sysTemp 31 && decide (210 < t))

/-- The 24 sensors read: the hottest in `SYS.TEMP`, relayed by the firmware to Nightwatch. -/
def State.showTemps (s : State) (temps : List Int) (i : Nat) (t : Int) : State :=
  let u := s.wr Reg.sysTemp (bn (s.throttles t) * 2 ^ 31 + i * 2 ^ 16 + wrap 16 t)
  { u with pwr := { u.pwr with temps := temps.map (wrap 16) }, nw := { u.nw with plTemp := wrap 16 t } }

/-- A cluster throttled: 100 MHz less, a conflict; its frequency may return once the reading is at or below 100 °C. -/
def State.throttle (s : State) (c : Nat) : State :=
  let s := (s.slower c).conflict 0 3 c
  { s with pwr := { s.pwr with cooling := sins s.pwr.cooling c } }

/-- `TEMP_SAMPLE` (R532); where throttled frequencies may return, they do so under R431. -/
def State.tempSample (s : State) (temps : List Int) : State :=
  let h := hottest (temps.take 24)
  let u := s.showTemps (temps.take 24) h.1 h.2
  if s.throttles h.2 then u.awake.foldl (fun s c => s.throttle c) u
  else if h.2 ≤ 200 then { u with pwr := { u.pwr with cooling := [] } }
  else u

def execTempSample (temps : List Int) (s : State) : Answer := pcmd true s fun s => s.tempSample temps

end Sys2Proof.Machine
end

