-- ==== Sys2Proof/Machine/Headroom.lean ====
section
/-! DEFINITION. Headroom (chapter 13): the two modes and their changes (R419 to R422), EFF and the active set (R423, R424), moves
(R425), prestages (R427, R428) and the voltage loop (R430, R431). -/

namespace Sys2Proof.Machine

/-! ### Load and mode (R420 to R422) -/

/-- A carrier's load in 1/546 of a stream-equivalent: ANT × N_PRB × 2^MU (R420). -/
def carrierLoad (c : Carrier) : Nat := leAt c.cfg 6 2 * leAt c.cfg 4 2 * 2 ^ leAt c.cfg 3 1

/-- The configured load of the started carriers, in 1/546. -/
def State.load (s : State) : Nat :=
  (s.fw.carriers.map fun e => match e.2 with
    | some c => if started c then carrierLoad c else 0
    | none => 0).foldl (· + ·) 0

/-- The mode in force: 0 CONSOLIDATE, 1 SHIELD. -/
def State.mode (s : State) : Nat := s.rdF Reg.rsvHctrl 0 0

/-- What a SYS.HEADROOM response carries in bytes 16 to 21 (R443): LOAD in whole stream-equivalents. -/
def State.headroomPayload (s : State) : List Byte :=
  leBytes 1 s.mode ++ leBytes 1 (bn s.rsv.forced.isSome) ++ leBytes 2 (min 65535 (s.load / 546)) ++ leBytes 2 s.rsv.rated

/-- The mode that the last change waiting or in progress leads to. -/
def State.planned (s : State) : Nat :=
  match s.rsv.next.getLast?, s.rsv.target with
  | some m, _ => m
  | none, some m => m
  | none, none => s.mode

/-- Changes of mode still to end. -/
def State.changes (s : State) : Nat := bn s.rsv.target.isSome + s.rsv.next.length

/-- The next change of mode starts when none is in progress; to CONSOLIDATE, its first step clears REDISP (R422). -/
def State.startChange (s : State) : State :=
  match s.rsv.target, s.rsv.next with
  | none, m :: rest =>
    let s := { s with rsv := { s.rsv with target := some m, next := rest } }
    if m = 0 then s.wrF Reg.cmCtrl 8 8 0 else s
  | _, _ => s

/-- A change to a mode becomes due. -/
def State.wantMode (s : State) (m : Nat) : State :=
  if s.planned = m then s else { s with rsv := { s.rsv with next := s.rsv.next ++ [m] } }.startChange

/-- The mode that the load asks for (R421). -/
def State.autoMode (s : State) : Nat :=
  if 4 * 546 * s.rsv.rated < 10 * s.load then 1
  else if 20 * s.load ≤ 7 * 546 * s.rsv.rated then 0
  else s.planned

/-- The evaluation that R421 asks for while the mode is automatic. -/
def State.evalMode (s : State) : State := if s.rsv.forced.isSome then s else s.wantMode s.autoMode

/-- One change fewer for the requests that wait for one; those whose change has ended are answered. -/
def headroomStep (r : Resp) (q : MbxReq) : MbxReq :=
  match q.ans with
  | .wait (.headroom n) => { q with ans := if n ≤ 1 then .ready r else .wait (.headroom (n - 1)) }
  | _ => q

/-- The change in progress has ended, both of its steps included. -/
def State.endChange (s : State) : State :=
  let s := { s with rsv := { s.rsv with target := none } }
  let r := Resp.ok s.headroomPayload
  let mbx := s.mbx.map fun e => (e.1, { e.2 with reqs := e.2.reqs.map (headroomStep r) })
  { s with mbx := mbx }.startChange

/-- The clusters that are HOME of a pinned flow with uncommitted tasks. -/
def State.pinnedHome (s : State) (c : Nat) : Bool :=
  s.taskList.any fun e =>
    let f := s.flow (dFlow e.2.words)
    uncommitted e.2 && f.pin && decide (f.home = c)

/-- A write of HCTRL.MODE as the hardware takes it (R422, R424). -/
def State.setMode (s : State) (m : Nat) : State :=
  if s.mode = m then s
  else if m = 1 then
    let s := (s.wrF Reg.rsvHctrl 0 0 1).wrF Reg.rsvHctrl 30 30 1
    s.clusters.foldl (fun s c => s.wakeCluster c) s
  else
    let s := ((s.wrF Reg.rsvHctrl 0 0 0).wrF Reg.rsvHctrl 30 30 0).wrF Reg.rsvHctrl 31 31 0
    { s with rsv := { s.rsv with
        active := 0 :: ((List.range 11).map (· + 1)).filter s.pinnedHome
        lowSince := [] } }

/-- `HCTRL_MODE_WRITE`: the firmware's write; it ends a change to CONSOLIDATE. -/
def State.hctrlWrite (s : State) (v : Nat) : State :=
  let s := s.setMode (v % 2)
  if s.rsv.target = some 0 ∧ s.mode = 0 then s.endChange else s

def execHctrlModeWrite (i : Nat) (v : Word) (s : State) : Answer := pcmd (decide (i < 4)) s fun s => s.hctrlWrite v.toNat

/-- `SHIELD_READY`: READY is set and the firmware sets REDISP, which ends a change to SHIELD. -/
def State.shieldReady (s : State) : State :=
  if s.mode = 1 ∧ s.rdB Reg.rsvHctrl 30 then
    let s := (s.wrF Reg.rsvHctrl 30 30 0).wrF Reg.rsvHctrl 31 31 1
    if s.rsv.target = some 1 then (s.wrF Reg.cmCtrl 8 8 1).endChange else s
  else s

def execShieldReady (s : State) : Answer := pcmd true s State.shieldReady

/-! ### EFF and the active set (R423, R424, R426) -/

/-- Tasks queued in a cluster's FIFOs. -/
def State.queuedIn (s : State) (c : Nat) : Nat :=
  (s.taskList.filter fun e => e.2.st == .queued && decide (dClass e.2.words = c ∨ (dClass e.2.words = 12 ∧ e.2.cluster = c))).length

/-- EFF of a cluster from its B (R423); a cluster that does not run has none. -/
def State.effOf (s : State) (c b : Nat) : Nat := if s.rdF (Reg.pwrCl c) 3 0 = 0 then min 255 (b + 32 * s.queuedIn c) else 0

/-- EFF of a cluster shown. -/
def State.showEff (s : State) (c b eff : Nat) : State :=
  let s := (s.wrF (Reg.rsvLoad c) 7 0 eff).gauge 1 c 8 eff
  { s with rsv := { s.rsv with busyFrac := mput (fun _ => 0) s.rsv.busyFrac c b } }

/-- How often in a row the EFF of a cluster has been below PACK_LO, this time included. -/
def State.lowCount (s : State) (c eff : Nat) : Nat :=
  if eff < s.rdF Reg.rsvPlace 15 8 then mget (fun _ => 0) s.rsv.lowSince c + 1 else 0

/-- A cluster of the active set in CONSOLIDATE: once its EFF has stayed below PACK_LO for IDLE_US it leaves the set, unless a pin keeps it,
which is a conflict (R424, R426). -/
def State.packCluster (s : State) (c eff : Nat) : State :=
  let idle := s.rdF Reg.rsvPtime 31 16
  let low := s.lowCount c eff
  let t : State := { s with rsv := { s.rsv with lowSince := mput (fun _ => 0) s.rsv.lowSince c (min low (idle + 1)) } }
  if low ≤ idle then t
  else if t.pinnedHome c then (if mget (fun _ => 0) s.rsv.lowSince c ≤ idle then t.conflict 1 1 c else t)
  else { t with rsv := { t.rsv with active := sdel t.rsv.active c, lowSince := mput (fun _ => 0) t.rsv.lowSince c 0 } }

/-- EFF of one cluster evaluated from B. -/
def State.evalCluster (s : State) (c b : Nat) : State :=
  let eff := s.effOf c b
  let t := s.showEff c b eff
  if t.mode = 1 ∨ c = 0 ∨ !t.rsv.active.contains c then t else t.packCluster c eff

/-- `EFF_EVALUATE`: `busy` gives B of each cluster. -/
def State.effEvaluate (s : State) (busy : List Nat) : State :=
  (List.range 12).foldl (fun s c => s.evalCluster c (busy.getD c 0)) s

def execEffEvaluate (busy : List Nat) (s : State) : Answer := pcmd true s fun s => s.effEvaluate busy

/-- The conditions of R425 for a task to move to another cluster. -/
def State.mayMove (s : State) (t : Task) (d : Nat) : Bool :=
  let f := dFlow t.words
  t.st == .queued && decide (dClass t.words = 12 ∧ t.cluster ≠ d) && !(s.flow f).pin &&
    decide ((s.prestageEntry f).1 = none) && decide (t.since + s.rdF Reg.rsvPtime 15 0 * 1000 * 2 ^ 32 < s.cen.clock) &&
    (if s.mode = 0 then s.rsv.active.contains d else true) && decide (s.rdF (Reg.pwrCl d) 3 0 = 0) &&
    ((List.range 8).any fun k => s.coreIn d k && (s.core d k).st == .waiting) &&
    !(s.taskList.any fun e => e.2.st == .queued && decide (dPrio e.2.words ≤ dPrio t.words) &&
        decide (dClass e.2.words = d ∨ (dClass e.2.words = 12 ∧ e.2.cluster = d)))

/-- `TASK_MOVE`: the task keeps its stamp and the flow's HOME becomes the new cluster. -/
def State.taskMove (s : State) (sl d : Nat) : State :=
  match s.task? sl with
  | none => s
  | some t =>
    if !s.mayMove t d then s
    else ((s.setTask sl (some { t with cluster := d })).setHome (dFlow t.words) d).tally 1 d 4 1

def execTaskMove (sl cluster : Nat) (s : State) : Answer := pcmd (decide (sl < 131072) && decide (cluster < 12)) s fun s => s.taskMove sl cluster

/-! ### Prestages (R427, R428) -/

/-- A prestage that has ended leaves the list: the flow counts as staged in its cluster, or loses its HOME. -/
def State.prestageOver (s : State) (p : Prestage) : State :=
  let s : State := { s with rsv := { s.rsv with prestage := s.rsv.prestage.filter fun q => decide (q ≠ p) } }
  if p.result = some true then
    if (s.flow p.flow).home = p.cluster then { s with rsv := { s.rsv with staged := s.rsv.staged ++ [(p.flow, p.cluster)] } } else s
  else (s.setHome p.flow 15).tally 1 p.cluster 6 1

/-- The task waits for this prestage. -/
def prestageFor (p : Prestage) (t : Task) : Bool := t.prestage && t.st == .held && decide (dFlow t.words = p.flow)

/-- `PRESTAGE_END`: the chain of a held task has ended; the task enters its FIFO, or commits FAULT with 0xFE. -/
def State.prestageEnd (s : State) (sl : Nat) : State :=
  match s.rsv.prestage.find? fun p => decide (p.slot = sl) && p.result.isSome with
  | none => s
  | some p =>
    let s := s.prestageOver p
    match s.task? sl with
    | some t => if !prestageFor p t then s else if p.result = some true then s.enqueue sl t p.cluster else s.commit sl 1 0 0xFE
    | none => s

def execPrestageEnd (sl : Nat) (s : State) : Answer := pcmd (decide (sl < 131072)) s fun s => s.prestageEnd sl

/-! ### The voltage loop (R430, R431) -/

/-- The worst path-delay aging of a cluster, in 0.1 %. -/
def State.worstAge (s : State) (c : Nat) : Nat :=
  ((List.range 9).map fun k => s.rdF (Reg.rsvAge (c * 9 + k)) 9 0).foldl max (s.rdF (Reg.rsvAge (267 + c)) 9 0)

/-- FLOOR in mV; no target passes the ceiling of 880 mV. -/
def State.floorOf (s : State) (c : Nat) : Nat :=
  min 880 (max 620 (Config.fusedVmin c (s.freqOf c) + s.worstAge c + 10))

/-- The fixed voltage that VREQ asks for; 0 where the loop is adaptive. -/
def State.fixedV (s : State) (c : Nat) : Nat := min 880 (s.rdF (Reg.rsvVlVreq c) 9 0)

/-- The frequency that VREQ asks for. -/
def State.wantFreq (s : State) (c : Nat) : Nat :=
  let f := s.rdF (Reg.rsvVlVreq c) 26 16
  if 400 ≤ f ∧ f ≤ 1600 ∧ f % 100 = 0 then f else 1600

/-- The target voltage of a cluster. -/
def State.targetV (s : State) (c : Nat) : Nat := s.rdF (Reg.rsvVlVstat c) 9 0

/-- VDD_CORE follows the highest target of the clusters that are awake (R15). A change is an AVSBus command, and so is the repeat of one that
failed; it counts as acknowledged unless `AVS_NO_ACK` follows (R524). -/
def State.followV (s : State) : State :=
  let v := (s.awake.map s.targetV).foldl max 0 + Config.vddHeadroom
  { s.wrF Reg.pwrAvs 9 0 v with pwr := { s.pwr with vdd := v, avsFail := false } }

/-- A target set; a rise above the fixed voltage in force is a conflict. -/
def State.setTarget (s : State) (c v : Nat) : State :=
  let old := s.targetV c
  let f := s.fixedV c
  let s := (s.wrF (Reg.rsvVlVstat c) 9 0 v).gauge 1 c 9 v
  if f ≠ 0 ∧ f < v ∧ old < v then s.conflict 0 2 c else s

/-- A request in VREQ applied (R431): true if it was held at FLOOR. -/
def State.applyVreq (s : State) (c : Nat) : Bool × State :=
  let s := s.setFreq c (s.wantFreq c)
  let fl := s.floorOf c
  let s := s.wrF (Reg.rsvVlVstat c) 25 16 fl
  let f := s.fixedV c
  if f = 0 then (false, (s.wrF (Reg.rsvVlVstat c) 31 31 0).followV)
  else if f < fl then
    (true, (((s.wrF (Reg.rsvVlVstat c) 31 31 1).wrF (Reg.rsvVlVstat c) 9 0 fl).gauge 1 c 9 fl |>.conflict 0 1 c).followV)
  else (false, (((s.wrF (Reg.rsvVlVstat c) 31 31 0).wrF (Reg.rsvVlVstat c) 9 0 f).gauge 1 c 9 f).followV)

/-- SLACK of one cluster reported: below 10 ps the clock stretches by 1/8 and the target rises by 25 mV; from 40 ps on the
stretch ends. -/
def State.slackOne (s : State) (c : Nat) (x : Int) : State :=
  let s := s.wr (Reg.rsvVlSlack c) (min 255 x.toNat)
  if s.rdB (Reg.rsvVlVstat c) 30 then (if 40 ≤ x then s.wrF (Reg.rsvVlVstat c) 30 30 0 else s)
  else if x < 10 then
    let s := ((s.wrF (Reg.rsvVlVstat c) 30 30 1).count (Reg.rsvVlEmerg c) 1).tally 1 c 7 1
    s.setTarget c (min 880 (s.targetV c + 25))
  else s

/-- `SLACK_REPORT`: `slack` gives SLACK of each cluster; a cluster that does not run reports none. -/
def State.slackReport (s : State) (slack : List Int) : State :=
  (s.awake.foldl (fun s c => match slack[c]? with
    | some x => s.slackOne c x
    | none => s) s).followV

def execSlackReport (slack : List Int) (s : State) : Answer := pcmd true s fun s => s.slackReport slack

/-- The monitors of a cluster measure the aging of its nine physical cores and of what they share; what they read is free. -/
def State.ageCluster (s : State) (c : Nat) : State :=
  ((267 + c) :: (List.range 9).map fun k => c * 9 + k).foldl (fun s u => let r := s.free 1024; r.2.wr (Reg.rsvAge u) r.1) s

/-- A lowered frequency may return: nothing throttles it (R532), and the regulator has acknowledged a command since the last that failed
(R524). -/
def State.mayRaise (s : State) (c : Nat) : Bool := !s.rdB Reg.sysTemp 31 && !s.pwr.cooling.contains c && !s.pwr.avsFail

/-- One step of 100 µs for one cluster. -/
def State.voltageOne (s : State) (c : Nat) : State :=
  let s := s.ageCluster c
  let slack := s.rdF (Reg.rsvVlSlack c) 7 0
  let t := s.targetV c
  let fl := s.floorOf c
  let s := s.wrF (Reg.rsvVlVstat c) 25 16 fl
  if slack < 40 then
    if t < 880 then s.setTarget c (max fl (min 880 (t + 5)))
    else
      let s := s.slower c
      if s.freqOf c < s.wantFreq c then s.conflict 0 3 c else s
  else if t < fl then s.setTarget c fl
  else if 70 < slack then
    let s := if s.freqOf c < s.wantFreq c ∧ s.mayRaise c then s.setFreq c (min (s.wantFreq c) (s.freqOf c + 100)) else s
    if s.fixedV c = 0 ∧ fl < t then s.setTarget c (max fl (t - 5)) else s
  else s

/-- `VOLTAGE_STEP`. -/
def State.voltageStep (s : State) : State := (s.awake.foldl (fun s c => s.voltageOne c) s).followV

def execVoltageStep (s : State) : Answer := pcmd true s State.voltageStep

/-! ### Dispatch held for locked code (R436) -/

/-- `CHOLD_CLEAR`: a 1 clears the bit, and dispatch to that core resumes. -/
def execCholdClear (i c : Nat) (v : Word) (s : State) : Answer :=
  pcmd (decide (i < 4) && decide (c < 12)) s fun s => s.wr (Reg.rsvChold c) (fld (s.rd (Reg.rsvChold c) &&& (2 ^ 32 - 1 - v.toNat)) 7 0)

end Sys2Proof.Machine
end

