-- ==== Sys2Proof/Machine/Shelf.lean ====
section
/-! DEFINITION. What Nightwatch records for the shelf: events (R484), faults (R485), payload alive (R472) and the state of the
payload as it shows it (R479). -/

namespace Sys2Proof.Machine

/-- `PSTATE` as NW.STATUS codes it (R479). -/
def pcode : PState → Nat
  | .off => 0
  | .waking => 1
  | .run => 2
  | .deep => 3
  | .entering => 4
  | .absent => 5

/-- An event queued; one that finds the queue of 32 full is discarded and the next one queued carries LOST (R484). -/
def State.nwEvent (s : State) (code data : Nat) : State :=
  let n := s.nw
  let eseq := (n.eseq + 1) % 65536
  if 32 ≤ n.events.length then { s with nw := { n with evLost := true, eseq := eseq } }
  else
    let e : NwEvent := { code := code, lost := n.evLost, eseq := n.eseq, uptime := n.uptime % 2 ^ 32, data := data % 2 ^ 32 }
    { s with nw := { n with events := n.events ++ [e], evLost := false, eseq := eseq } }

/-- The bit of FAULTS that a stage code sets (R485). -/
def faultBit (code : Nat) : Nat :=
  match code with
  | 5 => 2
  | 6 => 4
  | 7 => 8
  | _ => 1

/-- A fault recorded: an event always, held only if none is held since the last CLEAR_FAULT (R485). A wake fault disarms
WAKE_N, WSENSE and the timer (R461). -/
def State.nwFault (s : State) (code detail : Nat) : State :=
  let s := s.nwEvent 5 (code + detail % 65536 * 65536)
  let s := if code ≤ 4 then { s with nw := { s.nw with disarmed := true } } else s
  if s.nw.fstage ≠ 0 then s
  else { s with nw := { s.nw with
    faults := faultBit code, fstage := code, fdetail := detail % 65536, ftime := s.nw.uptime % 2 ^ 32 } }

/-- The payload's state changes; EXTRACT_SAFE is an event as it becomes 1 (R479, R484). -/
def State.toPstate (s : State) (p : PState) : State :=
  let low := fun (q : PState) => q == .off || q == .absent
  let was := low s.nw.pstate
  let s := { s with nw := { s.nw with pstate := p } }
  if s.nw.eject && low p && !was then s.nwEvent 9 0 else s

/-- Payload alive driven (R472). Where it falls in RUN and Nightwatch has asked for no change, that is a fault with a cause
(R485). -/
def State.setAlive (s : State) (b : Bool) (cause : Nat) : State :=
  let was := s.rdB Reg.nwbCtrl 0
  let s := s.wrF Reg.nwbCtrl 0 0 (bn b)
  if was && !b && s.nw.pstate == .run then s.nwFault 6 cause else s

/-- `STATE` becomes FAILED: the firmware clears ALIVE (R49, R491). -/
def State.fwFailed (s : State) : State := (s.setFwSt 5).setAlive false 1

end Sys2Proof.Machine
end

