-- ==== Sys2Proof/Machine/Boot.lean ====
section
/-! DEFINITION. Boot flash and its controller, KRV images and their checks, owner keys, how the boot ROM starts the firmware,
ROM hold, and firmware restarts (R49, R492 to R502, R508). -/

namespace Sys2Proof.Machine

/-! ### The flash (R492, R508) -/

/-- A byte of the boot flash. -/
def State.flashByte (s : State) (a : Nat) : Byte := mget (fun _ => 0xFF) s.sec.flash a

/-- Bytes of the boot flash. -/
def State.flashBytes (s : State) (a n : Nat) : List Byte := (List.range n).map fun i => s.flashByte (a + i)

/-- A byte list put into a flash. -/
def putFlash (m : List (Nat × Byte)) (a : Nat) : List Byte → List (Nat × Byte)
  | [] => m
  | b :: bs => putFlash (mput (fun _ => 0xFF) m a b) (a + 1) bs

/-- A range of the flash erased. -/
def State.eraseFlash (s : State) (a n : Nat) : State :=
  { s with sec := { s.sec with flash := mdrop (fun x => decide (a ≤ x ∧ x < a + n)) s.sec.flash } }

/-- Bytes programmed into the flash: a bit goes from 1 to 0 only. -/
def State.programFlash (s : State) (a : Nat) (bs : List Byte) : State :=
  let old := s.flashBytes a bs.length
  { s with sec := { s.sec with flash := putFlash s.sec.flash a (List.zipWith (· &&& ·) old bs) } }

/-- The bytes of `SEC.SPI_BUF`. -/
def State.spiBuf (s : State) : List Byte := (List.range 64).flatMap fun w => leBytes 4 (s.rd (Reg.secSpiBuf w))

/-- Bytes put into `SEC.SPI_BUF` from its first byte. -/
def State.setSpiBuf (s : State) (bs : List Byte) : State :=
  let all := (bs ++ s.spiBuf.drop bs.length).take 256
  (List.range 64).foldl (fun s w => s.wr (Reg.secSpiBuf w) (leAt all (4 * w) 4)) s

/-- A write of `SEC.SPI_CMD` by the control firmware (R508): ignored while a transaction runs. -/
def State.spiCmd (s : State) (v : Nat) : State :=
  if s.sec.spi.isSome || !tb v 31 then s
  else
    let alen := match fld v 28 27 with
      | 1 => 3
      | 2 => 4
      | _ => 0
    let t : SpiTxn := {
      write := tb v 30, quad := tb v 29, alen := alen, addr := s.rd Reg.secSpiAddr, dummy := fld v 26 23
      len := min 256 (fld v 17 8), opcode := fld v 7 0 }
    { s with sec := { s.sec with spi := some t } }.wrF Reg.secSpiStat 31 31 1

/-- `SPI_CMD_GO`: refused while the boot ROM owns the controller. -/
def execSpiCmdGo (i : Nat) (v : Word) (s : State) : Answer :=
  pcmd (decide (i < 4)) s fun s =>
    if s.fwSt = 1 then (s.aerr (.ctl i) 4 true false (0x20000000 + Reg.secSpiCmd)).emit .error
    else s.spiCmd (v.toNat ||| 2 ^ 31)

/-- What a transaction does at the flash. PRESUMED, as SPI NOR devices define it: 0x06 and 0x04 set and clear the write enable
latch; with the latch set, 0x02 programs, 0x20 erases 4 KiB, 0xD8 erases 64 KiB and 0xC7 the whole device. -/
def State.flashOp (s : State) (t : SpiTxn) : State :=
  let a := if t.alen = 0 then 0 else t.addr % 256 ^ t.alen
  let wel := fun (s : State) b => { s with sec := { s.sec with wel := b } }
  match t.opcode with
  | 0x06 => wel s true
  | 0x04 => wel s false
  | 0x02 => if s.sec.wel then wel (if t.write then s.programFlash a (s.spiBuf.take t.len) else s) false else s
  | 0x20 => if s.sec.wel then wel (s.eraseFlash (a / 4096 * 4096) 4096) false else s
  | 0xD8 => if s.sec.wel then wel (s.eraseFlash (a / 65536 * 65536) 65536) false else s
  | 0xC7 => if s.sec.wel then wel (s.eraseFlash 0 (2 ^ 32)) false else s
  | _ => s

/-- `SPI_DONE`: the transaction's last clock. The Read commands give the contents; any other read gives what the flash
answers, `data`. -/
def State.spiDone (s : State) (data : List Byte) : State :=
  match s.sec.spi with
  | none => s
  | some t =>
    let s := { s with sec := { s.sec with spi := none } }.wrF Reg.secSpiStat 31 31 0
    let s := s.flashOp t
    if t.write then s
    else
      let read := t.opcode == 0x03 || t.opcode == 0x13 || t.opcode == 0xEB
      s.setSpiBuf (if read then s.flashBytes (t.addr % 256 ^ (max 1 t.alen)) t.len else (data ++ List.replicate t.len 0).take t.len)

def execSpiDone (data : List Byte) (s : State) : Answer := pcmd true s fun s => s.spiDone data

/-! ### The KRV image (R494, R495) -/

/-- The key ID of the Servoha key. -/
def servohaId : Nat := 0x53A00001

/-- An owner key slot. -/
def State.keySlot (s : State) (n : Nat) : KeySlot := mget (fun _ => .reset) s.sec.keys n

/-- The hash held for an accepted key (R497). -/
def State.keyHash (s : State) (id : Nat) : Option (List Byte) :=
  if id = servohaId ∧ !s.sec.owned then some Config.servohaHash
  else
    match (List.range 8).find? fun n => (s.keySlot n).enrolled && !(s.keySlot n).revoked && decide ((s.keySlot n).id = id) with
    | some n => some (s.keySlot n).hash
    | none => none

/-- The PAYLOAD_LEN that a kind allows. -/
def payloadLenOk (kind n : Nat) : Bool :=
  match kind with
  | 1 => decide (4096 ≤ n ∧ n ≤ 4194304)
  | 2 => decide (n ≤ 16777216)
  | 4 => decide (n = 64)
  | _ => true

/-- Every byte of a range of a header is zero. -/
def zeroBytes (bs : List Byte) (off n : Nat) : Bool := ((bs.drop off).take n).all (· == 0)

/-- Checks 1 to 5 of R495 on a header, for an image of `len` bytes that its loader expects to be of `kind`; 0 = none fails. -/
def State.checkHeader (s : State) (kind len : Nat) (h : List Byte) : Nat :=
  let n := leAt h 16 4
  if h.take 4 ≠ [0x4B, 0x52, 0x56, 0x31] || decide (leAt h 4 2 ≠ 512) || !payloadLenOk (leAt h 6 1) n || !zeroBytes h 13 3 ||
      !zeroBytes h 31 1 || !zeroBytes h 272 240 || decide (len < 512 + n) then 1
  else if leAt h 6 1 ≠ kind then 2
  else
    match s.keyHash (leAt h 8 4) with
    | none => 3
    | some hash =>
      let pub := (h.drop 80).take 96
      if sha384 pub ≠ hash then 4
      else if !ecdsaOk pub ((h.drop 176).take 96) (sha384 (h.take 176)) then 5
      else 0

/-- One section of a blend payload (R503): its type, the offset of its body, the length of its body, and the offset after it. -/
def blendSection (p : List Byte) (off : Nat) : Option (Nat × Nat × Nat × Nat) :=
  let len := leAt p (off + 4) 4
  let fin := off + 8 + alignUp len 64
  if off + 8 ≤ p.length ∧ fin ≤ p.length ∧ 1 ≤ leAt p off 2 ∧ leAt p off 2 ≤ 4 then some (leAt p off 2, off + 8, len, fin) else none

/-- The sections of a blend payload, with fuel; none where one is malformed. -/
def blendSections (p : List Byte) : Nat → Nat → Option (List (Nat × Nat × Nat))
  | 0, _ => none
  | n + 1, off =>
    if off = p.length then some []
    else
      match blendSection p off with
      | none => none
      | some (t, body, len, fin) => (blendSections p n fin).map ((t, body, len) :: ·)

/-- A blend payload has exactly one PLANDESC and at least one TEMPLATE. -/
def blendOk (p : List Byte) : Bool :=
  match blendSections p (p.length / 8 + 2) 0 with
  | none => false
  | some l => decide ((l.filter fun x => x.1 == 4).length = 1) && l.any fun x => x.1 == 1

/-- An enrolment payload names an operation, a slot and, for ENROL, a key ID that an owner key may have (R497, R498). -/
def enrolOk (p : List Byte) : Bool :=
  let id := leAt p 4 4
  decide (1 ≤ leAt p 0 1 ∧ leAt p 0 1 ≤ 3 ∧ leAt p 1 1 < 8) &&
    (decide (leAt p 0 1 ≠ 1) || decide (id ≠ servohaId ∧ id ≠ 0 ∧ id ≠ 0xFFFFFFFF))

/-- Checks 6 to 8 of R495. The structure of a Trellis payload has checks of its own (R406). -/
def State.checkPayload (s : State) (h p : List Byte) : Nat :=
  let kind := leAt h 6 1
  if sha384 p ≠ (h.drop 32).take 48 then 6
  else if kind = 1 ∧ leAt h 12 1 < s.sec.counter then 7
  else if (kind = 2 && !blendOk p) || (kind = 4 && !enrolOk p) then 8
  else 0

/-- The payload of an image. -/
def krvPayload (img : List Byte) : List Byte := (img.drop 512).take (leAt img 16 4)

/-- R495 on an image that is at hand whole. -/
def State.checkImage (s : State) (kind : Nat) (img : List Byte) : Nat :=
  if img.length < 512 then 1
  else
    match s.checkHeader kind img.length (img.take 512) with
    | 0 => s.checkPayload (img.take 512) (krvPayload img)
    | c => c

/-! ### Enrolment (R496, R498) -/

/-- An owner key is enrolled and not revoked, slot `but` left out. -/
def State.ownerLeft (s : State) (but : Option Nat) : Bool :=
  (List.range 8).any fun n => (s.keySlot n).enrolled && !(s.keySlot n).revoked && decide (some n ≠ but)

/-- A slot's OTP bits changed. -/
def State.setKey (s : State) (n : Nat) (k : KeySlot) : State :=
  { s with sec := { s.sec with keys := mput (fun _ => .reset) s.sec.keys n k } }

/-- The change that a record makes to the OTP; none where it is skipped (R498). -/
def State.enrolEffect (s : State) (p : List Byte) : Option State :=
  let n := leAt p 1 1
  let k := s.keySlot n
  match leAt p 0 1 with
  | 1 =>
    if k.enrolled then none
    else
      some (s.setKey n { id := leAt p 4 4, hash := (p.drop 16).take 48, enrolled := true, revoked := false, debug := tb (leAt p 2 1) 0 })
  | 2 =>
    if !k.enrolled || k.revoked || decide (k.id ≠ leAt p 4 4) || (s.sec.owned && !s.ownerLeft (some n)) then none
    else some (s.setKey n { k with revoked := true })
  | 3 => if s.sec.owned || !s.ownerLeft none then none else some { s with sec := { s.sec with owned := true } }
  | _ => none

/-- `LAST_CHECK` set. -/
def State.lastCheck (s : State) (c : Nat) : State := { s with sec := { s.sec with lastCheck := c } }

/-- The flash directory: the first copy whose CRC-32 is correct (R493). -/
def State.directory (s : State) : Option (List Byte) :=
  let ok := fun (d : List Byte) => decide (d.take 4 = [0x4B, 0x44, 0x49, 0x52]) && decide (crc32 (d.take 60) = leAt d 60 4)
  let a := s.flashBytes 0 64
  let b := s.flashBytes 0x10000 64
  if ok a then some a else if ok b then some b else none

/-- Bytes of the flash as the ROM reads them in the addressing that the directory names: 3-byte addresses reach 16 MiB (R493). -/
def State.romBytes (s : State) (d : List Byte) (a n : Nat) : List Byte :=
  if leAt d 5 1 = 1 then s.flashBytes a n else (List.range n).map fun i => s.flashByte ((a + i) % 2 ^ 24)

/-- One enrolment record at a flash offset; false where the ROM applies no further record. The code that a record skipped after
R495 leaves in LAST_CHECK, and whether an OTP write verifies, are free values (log entry 1). -/
def State.enrolOne (s : State) (d : List Byte) (off : Nat) : Bool × State :=
  let img := s.romBytes d off 576
  if img.take 4 = [0xFF, 0xFF, 0xFF, 0xFF] then (true, s)
  else
    match s.checkImage 4 img with
    | 0 =>
      let p := krvPayload img
      let uid := leAt p 8 8
      if uid ≠ 0 ∧ uid ≠ Config.uid.toNat then (true, s)
      else
        match s.enrolEffect p with
        | none =>
          let (c, s) := s.free 16
          (true, s.lastCheck c)
        | some t =>
          let (bad, s) := s.free 2
          if bad = 0 then (true, { t with fresh := s.fresh })
          else (false, { s with sec := { s.sec with otpErr := true } })
    | c => (true, s.lastCheck c)

/-- The records of the area in order. -/
def State.enrolAll (s : State) (d : List Byte) (base : Nat) : Nat → Nat → State
  | 0, _ => s
  | n + 1, i =>
    match s.enrolOne d (base + 1024 * i) with
    | (true, s) => s.enrolAll d base n (i + 1)
    | (false, s) => s

/-! ### Starting the firmware (R493, R499, R500) -/

/-- The first address of the resident area. -/
def residentBase : Nat := 0x03C00000

/-- A payload placed in the resident area, as the ROM reads it in. -/
def State.placeResident (s : State) (p : List Byte) : State :=
  let s := { s with mem := { s.mem with err := mdrop (fun a => decide (residentBase ≤ a ∧ a < residentBase + p.length)) s.mem.err } }
  (s.validate residentBase p.length).putDev residentBase p

/-- Every control core starts at ENTRY: STATE = STARTING. -/
def State.starting (s : State) (resident : Bool) : State :=
  ({ s with sec := { s.sec with hold := false } }.wrF Reg.pwrWakeStat 18 18 (bn resident)).setFwSt 2

/-- Steps 4 and 5 of R499 for an image that has passed, its payload in place: the digest, the Subsystem IDs, the firmware counter
(R496) and the start. -/
def State.startImage (s : State) (h p : List Byte) : State :=
  let svn := leAt h 12 1
  let counter := if tb (leAt h 7 1) 0 then max s.sec.counter (min 63 svn) else s.sec.counter
  let wdog := leAt h 28 2
  let limit := leAt h 30 1
  let s := { s with
    sec := { s.sec with counter := counter }
    pcie := { s.pcie with subsys := leAt h 26 2 * 65536 + leAt h 24 2 }
    fw := { s.fw with
      keyId := leAt h 8 4, svn := svn, digest := (h.drop 32).take 48, resident := sha384 p, imageLen := p.length
      wdog := if wdog = 0 then 500 else wdog, limit := if limit = 0 then 3 else limit } }
  s.starting false

/-- One slot of the directory tried; true if its image starts. The header is checked before the payload is read. -/
def State.trySlot (s : State) (d : List Byte) (off : Nat) : Bool × State :=
  let h := s.romBytes d off 512
  match s.checkHeader 1 (2 ^ 32 - off) h with
  | 0 =>
    let p := s.romBytes d (off + 512) (leAt h 16 4)
    let s := s.placeResident p
    match s.checkPayload h p with
    | 0 => (true, s.startImage h p)
    | c => (false, s.lastCheck c)
  | c => (false, s.lastCheck c)

/-- A load from flash: the directory, the enrolment records, SLOT_A and then SLOT_B. -/
def State.romLoad (s : State) : Bool × State :=
  match s.directory with
  | none => (false, s)
  | some d =>
    let s := if leAt d 16 4 = 0xFFFFFFFF then s else s.enrolAll d (leAt d 16 4) 16 0
    match s.trySlot d (leAt d 8 4) with
    | (true, s) => (true, s)
    | (false, s) => if leAt d 12 4 = 0xFFFFFFFF then (false, s) else s.trySlot d (leAt d 12 4)

/-- The resident copy has the digest that was recorded (R500). -/
def State.residentOk (s : State) : Bool :=
  decide (s.fw.imageLen ≠ 0) && decide (sha384 (s.devBytes residentBase s.fw.imageLen) = s.fw.resident)

/-- The physical control core of a logical one. -/
def State.ctlPhys (s : State) (i : Nat) : Nat := mget id s.rsv.ctlMap i

/-- A pending control-core remap performed by the ROM (R437). -/
def State.romRemap (s : State) : State :=
  match s.rsv.retiring.find? fun r => decide (r.kind = 1 ∧ s.ctlPhys r.unit ≠ 4) with
  | some r =>
    if s.rsv.usedSpares.contains (1, 4) then s
    else { s with rsv := { s.rsv with ctlMap := mput id s.rsv.ctlMap r.unit 4, usedSpares := s.rsv.usedSpares ++ [(1, 4)] } }
  | none => s

/-- The boot ROM: the resident copy where that path allows it and its digest matches, boot flash otherwise. -/
def State.romBoot (s : State) (residentPath : Bool) : Bool × State :=
  let s := s.romRemap
  if residentPath && s.residentOk then (true, s.starting true) else s.romLoad

/-! ### Firmware restarts (R49, R501) -/

/-- The restarts of the last 10 minutes. -/
def State.recentRestarts (s : State) : Nat := (s.fw.restarts.filter fun t => decide (s.ns < t + 600000000000)).length

/-- RESTARTING is entered: every request consumed and not yet answered gets FAULT with RESTART, and the instance's own work in
hand ends. -/
def State.enterRestarting (s : State) : State :=
  let r : Resp := { status := stFault, flags := 4, payload := [] }
  let mbx := s.mbx.map fun e => (e.1, { e.2 with
    reqs := (e.2.reqs.filter fun (q : MbxReq) => !q.gone).map fun (q : MbxReq) => { q with ans := .ready r } })
  let s := { s with
    mbx := mbx, fw := { s.fw with restarts := s.ns :: s.fw.restarts, restarted := true }
    rsv := { s.rsv with target := none, next := [] } }
  (s.wrF Reg.mbxFwstate 15 8 (min 255 (s.rdF Reg.mbxFwstate 15 8 + 1))).setFwSt 4

/-- The firmware runs or is starting. -/
def State.fwUp (s : State) : Bool := decide (s.fwSt = 2 ∨ s.fwSt = 3)

/-- `FW_WATCHDOG_EXPIRE`. -/
def execFwWatchdogExpire (s : State) : Answer := pcmd true s fun s => if s.fwUp then s.enterRestarting else s

/-- `CONTROL_CORE_EXCEPTION`. -/
def execControlCoreException (i : Nat) (s : State) : Answer :=
  pcmd (decide (i < 4)) s fun s => if s.fwUp then s.enterRestarting else s

/-- The ROM reloads a restarting firmware, or STATE becomes FAILED; a load that no image passes is one more failed restart. -/
def State.fwReload (s : State) : State :=
  if s.fw.limit ≤ s.recentRestarts then s.fwFailed
  else
    match s.romBoot true with
    | (true, s) => s
    | (false, s) =>
      let s := { s with fw := { s.fw with restarts := s.ns :: s.fw.restarts } }
      if s.fw.limit ≤ s.recentRestarts then s.fwFailed else s

/-- `FW_RESTART`. -/
def State.fwRestart (s : State) : State :=
  if s.fwSt = 4 then s.fwReload
  else if s.fwUp then s.enterRestarting.fwReload
  else s

def execFwRestart (s : State) : Answer := otpCmd true s fun s => live s State.fwRestart

/-- `MBX_FWCTRL_RELOAD`: while FAILED, STATE = ROM and a new load from boot flash; where no image is accepted, ROM hold. -/
def State.fwctrlReload (s : State) : State :=
  if s.fwSt ≠ 5 then s
  else
    match (s.setFwSt 1).romRemap.romLoad with
    | (true, s) => { s with fw := { s.fw with restarted := true } }
    | (false, s) => { s with sec := { s.sec with hold := true } }

def execMbxFwctrlReload (i : Init) (v : Word) (s : State) : Answer :=
  otpCmd i.hostOrCtl s fun s => live s fun s => if tb v.toNat 0 then s.fwctrlReload else s

/-! ### ROM hold (R502) -/

/-- `SEC.STAT` (R507). -/
def State.secStat (s : State) : Nat :=
  let slots := ((List.range 8).map fun n => bn (s.keySlot n).enrolled * 2 ^ n).foldl (· + ·) 0
  bn s.sec.owned * 2 ^ 31 + bn s.sec.otpErr * 2 ^ 30 + bn s.sec.hold * 2 ^ 29 + s.sec.lastCheck % 16 * 2 ^ 16 + slots

/-- An image in the host window, or none where its bytes cannot be read. -/
def State.hostImage (s : State) (addr len : Nat) : Option (List Byte) :=
  if s.pcie.link && s.inWindow addr len then some (s.hostBytes addr len) else none

/-- A BAD_IMAGE answer with its CHECK code. -/
def badImage (check : Nat) : Resp := { status := stBadImage, flags := 0, payload := leBytes 1 check }

/-- `SYS.BOOTRUN`. -/
def State.bootrun (bs : List Byte) (s : State) : Ans × State :=
  match s.hostImage (leAt bs 24 8) (leAt bs 32 4) with
  | none => (.ready (.st stBadParam), s)
  | some img =>
    match s.checkImage 1 img with
    | 0 => (.ready (.st stOk), { (s.placeResident (krvPayload img)) with
        fw := { s.fw with restarted := true } }.startImage (img.take 512) (krvPayload img))
    | c => (.ready (badImage c), s.lastCheck c)

def execSysBootrun (m : Nat) (s : State) : Answer :=
  otpCmd (decide (m < 64)) s fun s => live s fun s =>
    s.handleIf (s.romServes m) m 0x0180 (fun _ => true) fun bs s => s.bootrun bs

/-- `SYS.FLASHWR`: a firmware image or an enrolment record; `verify` says whether the flash then holds what was written. What a
flash that failed its verification holds is free (log entry 1). -/
def State.flashwr (verify : Bool) (bs : List Byte) (s : State) : Ans × State :=
  let off := leAt bs 36 4
  if off % 4096 ≠ 0 then (.ready (.st stBadParam), s)
  else
    match s.hostImage (leAt bs 24 8) (leAt bs 32 4) with
    | none => (.ready (.st stBadParam), s)
    | some img =>
      match s.checkImage (if leAt img 6 1 = 4 then 4 else 1) img with
      | 0 =>
        let s := s.eraseFlash off (alignUp img.length 4096)
        if verify then (.ready (.st stOk), s.programFlash off img)
        else
          let (junk, s) := s.freeBytes img.length
          (.ready (.st stFault), s.programFlash off junk)
      | c => (.ready (badImage c), s.lastCheck c)

def execSysFlashwr (m : Nat) (verify : Bool) (s : State) : Answer :=
  pcmd (decide (m < 64)) s fun s =>
    s.handleIf (s.romServes m) m 0x0181 (fun _ => true) fun bs s => s.flashwr verify bs

/-- `SYS.PING` (R54). -/
def execSysPing (m : Nat) (s : State) : Answer :=
  pcmd (decide (m < 64)) s fun s =>
    s.handleIf (decide (s.fwSt = 3) || s.romServes m) m 0x0101 (fun _ => true) fun _ s =>
      (.ready (.ok (leBytes 4 (s.rd Reg.mbxFwstate) ++ leBytes 4 s.now32)), s)

/-- `SYS.ID` (R2). -/
def State.sysId (s : State) : Nat := s.rd Reg.sysId + bn Config.grade

/-- `SYS.INFO` (R54), LENGTH 48: the ROM writes bytes 32 on as zero. -/
def State.sysInfo (s : State) : List Byte :=
  let head := leBytes 4 s.sysId ++ leBytes 4 s.secStat ++ leBytes 8 Config.uid.toNat
  if s.fwSt ≠ 3 then head ++ List.replicate 32 0
  else
    head ++ leBytes 4 s.fw.keyId ++ leBytes 1 s.fw.svn ++ leBytes 1 (s.rdF Reg.mbxFwstate 15 8) ++
      leBytes 1 (s.mode + 128 * bn s.rsv.forced.isSome) ++ leBytes 1 (s.rdF Reg.mrdState 3 0) ++ leBytes 2 s.rsv.rated ++
      leBytes 2 s.rsv.fskCh ++ leBytes 4 s.rsv.taskSlots ++ (s.fw.digest ++ List.replicate 8 0).take 8 ++ List.replicate 8 0

def execSysInfo (m : Nat) (s : State) : Answer :=
  pcmd (decide (m < 64)) s fun s =>
    s.handleIf (decide (s.fwSt = 3) || s.romServes m) m 0x0102 (fun _ => true) fun _ s => (.ready (.ok s.sysInfo), s)

end Sys2Proof.Machine
end

