-- ==== Sys2Proof/Machine/Reserve.lean ====
section
/-! DEFINITION. The Reserve's books (R433, R434, R441, R442, R444 to R446, R504): which spares there are, what is in service, the rated
figures, the notices, and the repair record. -/

namespace Sys2Proof.Machine

/-! ### Kinds and spares (R433, R289) -/

/-- Units in service by design, by KIND. -/
def kindNominal : List Nat := [96, 4, 32, 240, 16, 24, 12, 8, 8, 8, 4, 64, 0, 2048]

/-- Spares as built, by KIND; those of DRAM rows are the devices'. -/
def kindSpares : List Nat := [12, 1, 2, 15, 1, 2, 1, 1, 1, 1, 1, 2, 0, 32]

/-- KIND of an engine. -/
def engKind (e : Nat) : Nat := if e < 16 then 4 else if e < 40 then 5 else if e < 52 then 6 else if e < 60 then 7 else if e < 68 then 8 else if e < 76 then 9 else 10

/-- KIND names an engine type. -/
def isEngKind (kind : Nat) : Bool := decide (4 ≤ kind ∧ kind ≤ 10)

/-- LOGICAL names a unit of its KIND. -/
def kindHas (kind unit : Nat) : Bool :=
  match kind with
  | 0 => decide (unit < 96)
  | 1 => decide (unit < 4)
  | 2 => decide (unit < 32)
  | 3 => decide (unit < 255 ∧ unit % 17 ≠ 16)
  | 11 => decide (unit < 64)
  | 12 => false
  | 13 => decide (unit < 2048)
  | k => decide (k ≤ 10 ∧ unit < 80 ∧ engKind unit = k)

/-- The spares that may replace a unit, by their numbers, in the order in which the Reserve takes them: bank 33 may serve a retention bank
and is taken last for any other. -/
def sparesFor (kind unit : Nat) : List Nat :=
  match kind with
  | 0 => [unit / 8 * 9 + 8]
  | 1 => [4]
  | 2 => if unit < 28 then [32, 33] else [33]
  | 3 => [unit / 17 * 17 + 16]
  | 4 => [80]
  | 5 => [81, 82]
  | 6 => [83]
  | 7 => [84]
  | 8 => [85]
  | 9 => [86]
  | 10 => [87]
  | 11 => [64, 65]
  | 13 => (List.range 32).map (· + 2048)
  | _ => []

/-- A spare is free. -/
def State.spareFree (s : State) (kind sp : Nat) : Bool :=
  !s.rsv.usedSpares.contains (kind, sp) && (decide (kind ≠ 2) || !s.mem.copy.any fun e => e.2 == sp)

/-- The spare that would replace a unit. -/
def State.spareFor (s : State) (kind unit : Nat) : Option Nat := (sparesFor kind unit).find? fun sp => s.spareFree kind sp

/-- SPARES_LEFT of a kind; of DRAM rows the specification gives no number. -/
def State.sparesLeft (s : State) (kind : Nat) : Nat := nth 0 kindSpares kind - (s.rsv.usedSpares.filter fun e => e.1 == kind).length

/-- The physical number of a unit, as OLD_PHYS. -/
def State.physOf (s : State) (kind unit : Nat) : Nat :=
  match kind with
  | 0 => s.physCore (unit / 8) (unit % 8)
  | 1 => s.ctlPhys unit
  | 2 => mget id s.mem.bank unit
  | 3 => if s.rdB (Reg.laneStat (unit / 17) (unit % 17)) 7 then unit / 17 * 17 + 16 else unit
  | 11 => mget id s.trl.colMap unit
  | k => if isEngKind k then s.rdF (Reg.rsvEmap unit) 7 0 else unit

/-- A unit is out of service. -/
def State.unitOut (s : State) (kind unit : Nat) : Bool :=
  s.rsv.out.contains (kind, unit) || (decide (kind = 13) && s.rsv.rowsOut.contains unit)

/-- A unit awaits its retirement. -/
def State.unitPending (s : State) (kind unit : Nat) : Bool := s.rsv.retiring.any fun r => r.kind == kind && r.unit == unit

/-! ### Figures and notices (R442, R446) -/

/-- Units of a kind in service. -/
def State.inService (s : State) (kind : Nat) : Nat :=
  nth 0 kindNominal kind - if kind = 13 then s.rsv.rowsOut.length else (s.rsv.out.filter fun e => e.1 == kind).length

/-- The fractions of R442: KIND, units in service, nominal. Lanes count in FG00 to FG11. -/
def State.fractions (s : State) : List (Nat × Nat × Nat) :=
  ([0, 4, 5, 6, 7, 8, 9].map fun k => (k, s.inService k, nth 0 kindNominal k)) ++
    [(3, 192 - (s.rsv.out.filter fun e => e.1 == 3 && decide (e.2 < 204)).length, 192)]

/-- RATED and the KIND that sets it, the lowest where several do. -/
def State.ratedNow (s : State) : Nat × Nat :=
  s.fractions.foldl (fun b f => if 2048 * f.2.1 / f.2.2 < b.1 then (2048 * f.2.1 / f.2.2, f.1) else b) (2048, 0)

/-- FSK channels and task slots (R442). -/
def State.fskNow (s : State) : Nat := 128 * s.inService 10
def State.slotsNow (s : State) : Nat := 131072 - 64 * s.rsv.rowsOut.length

/-- The rated figures computed anew: a change is reported by SPARE.RATING, and the mode evaluated (R421). -/
def State.rerate (s : State) (kind phys : Nat) : State :=
  let rated := s.ratedNow.1
  let old := s.rsv.rated
  if rated = old ∧ s.fskNow = s.rsv.fskCh ∧ s.slotsNow = s.rsv.taskSlots then s
  else
    let s := { s with rsv := { s.rsv with rated := rated, fskCh := s.fskNow, taskSlots := s.slotsNow } }
    let s := s.notice 0x0C04 0 (leBytes 1 kind ++ leBytes 1 (bn !s.rsv.degraded.isEmpty) ++ leBytes 2 rated ++ leBytes 2 old ++
      leBytes 2 s.rsv.fskCh ++ leBytes 4 s.rsv.taskSlots ++ taiBytes s.ns ++ leBytes 2 phys)
    s.evalMode

/-! ### The repair record (R434, R504) -/

/-- An entry: what its flags say is open (log entry 1); NEW_PHYS 0xFFFF says out of service. -/
def repairEntry (kind flags logical new : Nat) : List Byte :=
  let b := leBytes 1 kind ++ leBytes 1 flags ++ leBytes 2 logical ++ leBytes 2 new ++ List.replicate 6 0
  b ++ leBytes 4 (crc32 b)

/-- An entry with a correct CRC: KIND, LOGICAL, NEW_PHYS. -/
def repairRead (b : List Byte) : Option (Nat × Nat × Nat) :=
  if b.all (· == 0xFF) || crc32 (b.take 12) ≠ leAt b 12 4 then none else some (leAt b 0 1, leAt b 2 2, leAt b 4 2)

/-- Offset of the repair record area, where the flash has a directory. -/
def State.repairArea (s : State) : Option Nat := s.directory.map fun d => leAt d 20 4

/-- The entry at an index of the area. -/
def State.repairAt (s : State) (base i : Nat) : List Byte := s.flashBytes (base + 16 * i) 16

/-- The indices whose entries are not erased, rising. -/
def State.repairUsed (s : State) (base : Nat) : List Nat :=
  match s.sec.flash.filterMap fun e => if base ≤ e.1 ∧ e.1 < base + 65536 ∧ e.2 ≠ 0xFF then some ((e.1 - base) / 16) else none with
  | [] => []
  | u => (List.range 4096).filter u.contains

/-- The live entries: those with a correct CRC, the last one of each unit. -/
def State.repairLive (s : State) (base : Nat) : List (List Byte) :=
  let all := (s.repairUsed base).map fun i => s.repairAt base i
  (all.foldr (fun b (m : List (List Byte)) => if (repairRead b).isSome && !m.any (fun c => c.take 1 == b.take 1 && (c.drop 2).take 2 == (b.drop 2).take 2) then b :: m else m) [])

/-- The firmware appends an entry; a full area is erased and the live entries rewritten. -/
def State.repairAppend (s : State) (kind logical new : Nat) : State :=
  match if s.fwSt = 3 then s.repairArea else none with
  | none => s
  | some base =>
    let (flags, s) := s.free 256
    let e := repairEntry kind flags logical new
    let used := s.repairUsed base
    match (List.range 4096).find? fun i => !used.contains i with
    | some i => s.programFlash (base + 16 * i) e
    | none =>
      let live := s.repairLive base
      (s.eraseFlash base 65536).programFlash base ((live ++ [e]).flatten)

/-! ### A unit replaced, out of service, degraded (R436, R441) -/

/-- `SPARE.USED`. -/
def State.spareUsed (s : State) (kind reason unit old new redisp : Nat) : State :=
  s.notice 0x0C01 0 (leBytes 1 kind ++ leBytes 1 reason ++ leBytes 2 unit ++ leBytes 2 old ++ leBytes 2 new ++ taiBytes s.ns ++
    leBytes 2 (s.sparesLeft kind) ++ [0, 0] ++ leBytes 4 redisp)

/-- A unit's retirement leaves the list. -/
def State.unpend (s : State) (kind unit : Nat) : State :=
  { s with rsv := { s.rsv with retiring := s.rsv.retiring.filter fun r => !(r.kind == kind && r.unit == unit) } }

/-- A spare taken into use for a unit whose physical number was `old`: counted, recorded and reported; the retirement has ended. -/
def State.spareTaken (s : State) (kind reason unit old sp redisp : Nat) : State :=
  let s := { s with rsv := { s.rsv with usedSpares := s.rsv.usedSpares ++ [(kind, sp)] } }
  let s := ((s.unpend kind unit).tally 9 0 10 1).repairAppend kind unit sp
  (s.spareUsed kind reason unit old sp redisp).rerate kind old

/-- The map shows a unit out of service. -/
def State.mapOut (s : State) (kind unit : Nat) : State :=
  let s := { s with rsv := { s.rsv with
    out := s.rsv.out ++ [(kind, unit)]
    ctlOut := if kind = 1 then sins s.rsv.ctlOut unit else s.rsv.ctlOut } }
  if kind = 0 then s.wrF (Reg.rsvCmap (unit / 8)) (4 * (unit % 8) + 3) (4 * (unit % 8)) 15
  else if isEngKind kind then s.wrF (Reg.rsvEmap unit) 31 31 1
  else s

/-- A unit that no spare can replace leaves service (R441). -/
def State.takeOut (s : State) (kind unit : Nat) : State :=
  if s.unitOut kind unit then s.unpend kind unit
  else
    let old := s.physOf kind unit
    (((s.mapOut kind unit).unpend kind unit).repairAppend kind unit 0xFFFF).rerate kind old

/-- A unit stays in service past its threshold. -/
def State.degrade (s : State) (kind unit : Nat) : State :=
  let s := s.unpend kind unit
  if s.rsv.degraded.contains (kind, unit) then s else { s with rsv := { s.rsv with degraded := s.rsv.degraded ++ [(kind, unit)] } }

/-- A retirement begins. -/
def State.pend (s : State) (r : Retire) : State := { s with rsv := { s.rsv with retiring := s.rsv.retiring ++ [r] } }

/-! ### Trellis columns (R408, R438, R441) -/

/-- Pending columns that `p` selects are mapped onto spares, whose regions are EMPTY or LOADING. -/
def State.mapColumns (s : State) (p : Nat → Bool) : State :=
  (s.rsv.retiring.filter fun r => r.kind == 11 && p r.unit).foldl (fun s r =>
    let old := s.physOf 11 r.unit
    match s.spareFor 11 r.unit with
    | some sp => ({ s with trl := { s.trl with colMap := mput id s.trl.colMap r.unit sp } } : State).spareTaken 11 r.reason r.unit old sp 0
    | none => if r.reason = 1 ∨ r.degrade then s.takeOut 11 r.unit else s.degrade 11 r.unit) s

end Sys2Proof.Machine
end

