-- ==== Sys2Proof/Machine/Dram.lean ====
section
/-! DEFINITION. The scrubbers (R300, R301), MEM.VCLR and the valid map (R297, R298), and the DRAM channels: initialisation,
self-refresh, refresh, promotion, ALERT_n and retraining (R303 to R315). -/

namespace Sys2Proof.Machine

/-! ### The walkers (R300, R301) -/

/-- The lines that walker `k` covers. -/
def State.walkLines (s : State) : Nat → Nat
  | 0 => 1048576
  | 1 => 393216
  | 2 => 884736
  | 3 => 131072
  | _ => max 1 (s.chanCap / 64)

/-- The logical core that a physical core serves. -/
def State.logCore (s : State) (p : Nat) : Option Nat :=
  (List.range 8).find? fun k => s.rdF (Reg.rsvCmap (p / 9)) (4 * k + 3) (4 * k) = p % 9

/-- A physical core is powered: its cluster is not OFF, and it serves a logical core, or it is a free spare that SHIELD keeps powered (R107,
R419, R433). -/
def State.corePowered (s : State) (p : Nat) : Bool :=
  ((s.logCore p).isSome ||
    (p % 9 == 8 && !s.rsv.usedSpares.contains (0, p) && s.rdB Reg.rsvHctrl 0 && s.rdB Reg.rsvHctrl 31)) && (s.rdF (Reg.pwrCl (p / 9)) 3 0 == 0 || s.rdF (Reg.pwrCl (p / 9)) 3 0 == 2)

/-- Walker 2's next position: unpowered cores are skipped when the walker reaches their first line; the answer is also whether a pass
ended on the way. -/
def State.skipCores (s : State) : Nat → Nat → Bool → Nat × Bool
  | 0, pos, pass => (pos, pass)
  | f + 1, pos, pass =>
    if pos = 884736 then s.skipCores f 0 true
    else if pos % 8192 = 0 ∧ !s.corePowered (pos / 8192) then s.skipCores f (pos + 8192) pass
    else (pos, pass)

/-- The device address of the line at a walker's position; none where the visit makes no read. -/
def State.walkAddr (s : State) (k pos : Nat) : Option Nat :=
  match k with
  | 0 => some (pos * 64)
  | 1 => if s.rdF (Reg.pwrCl (pos / 32768)) 3 0 = 0 then some (0x10C00000 + pos / 32768 * 0x1000000 + pos % 32768 * 64) else none
  | 2 =>
    let p := pos / 8192
    if s.rdF (Reg.pwrCl (p / 9)) 3 0 ≠ 0 then none
    else (s.logCore p).map fun l => 0x10000000 + p / 9 * 0x1000000 + l * 0x100000 + 0x40000 + pos % 8192 * 64
  | 3 => some (schedErr pos)
  | _ =>
    let n := k - 4
    let a := s.lineAddr n pos
    if n < s.nch ∧ s.dmcState n = 2 ∧ s.mem.vmap.contains ((a - dramBase) / 65536) then some a else none

/-- The position after a visit: a DRAM region never written is passed over as a whole. -/
def State.walkNext (s : State) (k pos : Nat) : Nat :=
  if k < 4 then pos + 1
  else
    let n := k - 4
    let q := pos / 64 * s.nch + n
    if s.mem.vmap.contains (q / 16) then pos + 1 else ((q / 16 + 1) * 16 - n + s.nch - 1) / s.nch * 64

/-- A unit met by a walker: a correctable error is corrected and counted, an uncorrectable one recorded with SRC = 1. -/
def State.walkUnit (s : State) (k u : Nat) : State :=
  if !s.written u then s
  else
    match s.errAt u with
    | none => s
    | some true => s.ueAt true u
    | some false => ((s.ceAt u).count (Reg.memRidCe k) 1).clearErr u

/-- A word of a control core's caches in error. Which word a control core meets, in a line clean or dirty, the specification of no program here
says (log entry 53): a corrected word is counted, an uncorrectable one recorded; in a clean line it is fetched again (R292). The answer says
whether it is an unrecoverable exception. -/
def State.cacheStrike (s : State) (u : Nat) (flips : List Nat) : Bool × State :=
  let (met, s) := s.free 3
  if met = 0 ∨ flips.isEmpty then (false, s)
  else if flips.length < 2 then (false, s.ceAt u)
  else (decide (met = 2), s.ueAt false u)

/-- Upsets strike protected units; whether a control core takes an unrecoverable exception. -/
def State.strike (s : State) (ups : List (Nat × List Nat)) : Bool × State :=
  ups.foldl (fun (r : Bool × State) u =>
    if cacheErr 0 0 ≤ u.1 then
      let (x, t) := r.2.cacheStrike (u.1 / 8 * 8) u.2
      (r.1 || x, t)
    else
      let a := if decide (2 ^ 48 ≤ u.1) && decide (u.1 < mapErr 0) then u.1 / 64 * 64 else u.1 / unitBytes u.1 * unitBytes u.1
      (r.1, r.2.setErr a u.2)) (false, s)

/-- Upsets, and what a control core does that meets one it cannot survive (R49, R292). -/
def State.struck (s : State) (ups : List (Nat × List Nat)) : State :=
  let (x, s) := s.strike ups
  if x && s.fwUp then s.enterRestarting else s

/-- A visit of walker `k` to position `pos`: its line, if it has one to read, met unit by unit; a DRAM line is read in class SC3 (R301). -/
def State.walkVisit (s : State) (k pos : Nat) : State :=
  match s.walkAddr k pos with
  | none => s
  | some a => if k = 3 then s.walkUnit k a else (unitsOf a 64).foldl (fun s u => s.walkUnit k u) (if 4 ≤ k then s.queueRead 3 a else s)

/-- One visit of walker `k` at its position, and its step to the next. -/
def State.walk (s : State) (k : Nat) : State :=
  if !s.rdB (Reg.memRidCtrl k) 31 then s
  else
    let (pos, early) := if k = 2 then s.skipCores 256 (s.rd (Reg.memRidPos k)) false else (s.rd (Reg.memRidPos k), false)
    let s := if early then s.count (Reg.memRidPass k) 1 else s
    let s := s.walkVisit k pos
    let next := s.walkNext k pos
    if next < s.walkLines k then s.wr (Reg.memRidPos k) next
    else (s.wr (Reg.memRidPos k) 0).count (Reg.memRidPass k) 1

/-- `WALKER_VISIT`, after the upsets `ups` have struck: the bits that flip in protected units of any memory. -/
def execWalkerVisit (k : Nat) (ups : List (Nat × List Nat)) (s : State) : Answer := pcmd (decide (k < 10)) s fun s => (s.struck ups).walk k

/-! ### Never-written memory (R297, R298) -/

/-- `VALID_MAP_FILL`: a region of populated DRAM is zero-filled and its bit set, once; the class of the write that triggers it is not an
operand. -/
def execValidMapFill (region : Nat) (s : State) : Answer :=
  pcmd true s fun s =>
    if s.mem.vmap.contains region ∨ s.dramCap < (region + 1) * 65536 then s
    else
      let r := s.free 4
      (r.2.fillRegion region).fillWrites r.1 region

/-- A write of `VCLR_CTRL`: ERR is cleared by writing 1; GO clears the range, or sets ERR. -/
def State.vclrWrite (s : State) (v : Nat) : State :=
  let s := if tb v 1 then s.wrF Reg.memVclrCtrl 1 1 0 else s
  if !tb v 0 then s
  else
    match s.vclr (s.rdPair Reg.memVclrBaseLo Reg.memVclrBaseHi) (s.rdPair Reg.memVclrLimitLo Reg.memVclrLimitHi) with
    | some t => t
    | none => s.wrF Reg.memVclrCtrl 1 1 1

def execMemVclrGo (i : Nat) (v : Word) (s : State) : Answer := pcmd (decide (i < 4)) s fun s => s.vclrWrite v.toNat

/-! ### The address masks (R308) -/

/-- Capacity of channel `n` by its own CFG, as a power of two; none where R304 has no such channel. -/
def State.capLog2 (s : State) (n : Nat) : Option Nat :=
  match s.rdB (Reg.dmcCfg n) 24, s.rdB (Reg.dmcCfg n) 20, s.rdB (Reg.dmcCfg n) 16 with
  | false, false, false => some 35
  | false, false, true => some 36
  | false, true, false => some 36
  | false, true, true => none
  | true, false, false => some 34
  | true, false, true => some 35
  | true, true, false => some 35
  | true, true, true => some 36

/-- Every exclusive-or of one or more of the masks. -/
def maskSums : List Nat → List Nat
  | [] => []
  | m :: ms => m :: maskSums ms ++ (maskSums ms).map fun x => m ^^^ x

/-- The masks of channel `n` satisfy R308. -/
def State.masksOk (s : State) (n : Nat) : Bool :=
  match s.capLog2 n with
  | none => false
  | some cap =>
    let col := (2 ^ (if s.rdB (Reg.dmcCfg n) 24 then 6 else 7) - 1) <<< s.rdF (Reg.dmcMapcfg n) 13 8
    let row := (2 ^ (if s.rdB (Reg.dmcCfg n) 20 then 17 else 16) - 1) <<< s.rdF (Reg.dmcMapcfg n) 29 24
    let used := col ||| row
    let mask := fun i => s.rdPair (Reg.dmcMaskLo n i) (Reg.dmcMaskHi n i)
    let free := fun m => m ^^^ (m &&& used)
    let two := s.rdB (Reg.dmcCfg n) 16
    (List.range 7).all (fun i => mask i % 64 == 0 && decide (mask i < 2 ^ cap)) && (two || mask 6 == 0) &&
      (maskSums ((List.range (if two then 7 else 6)).map fun i => free (mask i))).all fun x => x ≠ 0

/-! ### CTRL: enable, initialisation, self-refresh (R314, R315) -/

/-- The content of channel `n` is lost: every byte of it that had been written becomes a free value (R312, log entry 1). -/
def State.loseChannel (s : State) (n : Nat) : State :=
  s.mem.vmap.foldl (fun s r =>
    (List.range 16).foldl (fun s p =>
      let q := r * 16 + p
      if q % s.nch = n then
        let b := s.freeBytes 4096
        b.2.putDev (dramBase + q * 4096) b.1
      else s) s) s

/-- Initialisation to READY: RESET_n and training leave nothing of what the channel held (R312, R314); the Reserve's repairs are applied at
step 9, but for one after FAILED (R439). -/
def State.dmcReady (s : State) (n : Nat) (lost : Bool) : State :=
  let s := s.loseChannel n
  let s := s.wr (Reg.dmcStat n) (setFld (setFld (s.rd (Reg.dmcStat n)) 31 28 2) 19 16 0)
  let d := s.dmcAt n
  let s := s.setDmc n { DmcState.reset with trained := true, refreshes := d.refreshes, retrains := d.retrains }
  if lost then s
  else { s with rsv := { s.rsv with dramRows := s.rsv.dramRows.filter fun a => (s.dramPlace a).1 ≠ n } }

/-- A write of `DMC[n].CTRL`: INIT runs the steps to READY, or as far as the first one that does not become ready; EN is checked
against R308; SR enters or leaves self-refresh. -/
def State.dmcCtrl (s : State) (n v stuck : Nat) : State :=
  let st := s.dmcState n
  let s :=
    if tb v 0 && (st == 0 || st == 6) then
      if stuck = 0 then s.dmcReady n (st == 6) else (s.wrF (Reg.dmcStat n) 31 28 1).wrF (Reg.dmcStat n) 19 16 0
    else s
  let bad := tb v 31 && !s.masksOk n
  let s := s.wrF (Reg.dmcStat n) 8 8 (bn bad)
  let s := s.wr (Reg.dmcCtrl n) (bn (tb v 31 && !bad) * 2 ^ 31 + bn (tb v 4) * 16)
  let now := s.dmcState n
  if tb v 4 && now == 2 then s.wrF (Reg.dmcStat n) 31 28 3
  else if !tb v 4 && now == 3 then s.wrF (Reg.dmcStat n) 31 28 2
  else s

def execDmcInit (n : Nat) (v : Word) (stuck : Nat) (s : State) : Answer := pcmd (decide (n < 6) && decide (stuck < 10)) s fun s => s.dmcCtrl n v.toNat stuck

def execDmcEnable (n : Nat) (v : Word) (s : State) : Answer := pcmd (decide (n < 6)) s fun s => s.dmcCtrl n v.toNat 0

def execDmcSrEnter (n : Nat) (v : Word) (s : State) : Answer := pcmd (decide (n < 6)) s fun s => s.dmcCtrl n v.toNat 0

def execDmcSrExit (n : Nat) (v : Word) (s : State) : Answer := pcmd (decide (n < 6)) s fun s => s.dmcCtrl n v.toNat 0

/-- `DMC_INIT_TIMEOUT`: a step was not ready 50 ms after the write of INIT. -/
def execDmcInitTimeout (n step : Nat) (s : State) : Answer :=
  pcmd (decide (n < 6) && decide (step < 10)) s fun s =>
    if s.dmcState n = 1 ∧ step ≠ 0 then s.wr (Reg.dmcStat n) (setFld (setFld (s.rd (Reg.dmcStat n)) 31 28 6) 19 16 step) else s

/-! ### Refresh, promotion, ALERT_n (R309, R311, R312) -/

/-- `DRAM_REFRESH`: it comes before any request; how long it takes is not stated (log entry 1). -/
def execDramRefresh (n : Nat) (s : State) : Answer :=
  pcmd (decide (n < 6)) s fun s =>
    if s.dmcState n = 2 then
      let r := s.free (2 ^ 32)
      (r.2.setDmc n { r.2.dmcAt n with refreshes := (r.2.dmcAt n).refreshes + 1 }).tallyTime 5 n 5 r.1
    else s

/-- A promoted request is issued before all others: a queued write of its line and class, once it has waited longer than AGE. A read is issued by
the command that makes it. -/
def State.promote (s : State) (n c line : Nat) : State :=
  let s := s.tally 5 n 4 1
  match (s.dmcAt n).writes.find? fun w => w.line == s.lineAddr n line && w.cls == c with
  | some w =>
    let s := s.until ((w.since + s.rdF (Reg.dmcAge n c) 15 0 * 2 ^ 32 + s.mrd.time) - s.cen.clock)
    if s.dramServes n then s.issueWrite n w else s
  | none => s

/-- `DRAM_AGE_PROMOTE`. -/
def execDramAgePromote (n c line : Nat) (s : State) : Answer :=
  pcmd (decide (n < 6) && decide (c < 4)) s fun s => if s.dmcState n = 2 ∧ line < s.chanCap / 64 then s.promote n c line else s

def execDramAlert (n : Nat) (s : State) : Answer :=
  pcmd (decide (n < 6)) s fun s =>
    if s.dmcState n = 2 ∨ s.dmcState n = 5 then (s.wrF (Reg.dmcStat n) 31 28 4).setDmc n { s.dmcAt n with fails := 0, pause := 0, alert := s.cen.clock }
    else s

/-- The commands of the retry buffer issued within the alert window, in their original order (R312). -/
def State.retried (s : State) (n : Nat) : List (Nat × Bool) :=
  let d := s.dmcAt n
  ((d.retry.filter fun c => decide (d.alert ≤ c.1 + s.rdF (Reg.dmcAlertW n) 15 0 * 2 ^ 32)).map (·.2)).reverse

/-- A channel fails: the command error is recorded, every queued write is lost and recorded (R294), and the reads that wait are told of
uncorrectable data (R312). Refused from then on, it holds no training. -/
def State.failChannel (s : State) (n : Nat) : State :=
  let d := s.dmcAt n
  let s := ((s.wrF (Reg.dmcStat n) 31 28 6).setDmc n { DmcState.reset with refreshes := d.refreshes, retrains := d.retrains }).ueRecord false 11 (n * 2) 0
  let s := s.uesAt (d.writes.map (·.line))
  { s with cores := s.cores.map fun e => (e.1, match e.2.freeze with
      | .load _ => { e.2 with lost := e.2.lost ++ [n] }
      | _ => e.2) }

/-- A replay: every bank precharged, the commands of the alert window issued again. Without a further alert the event is over; the third failure in a row fails the channel. -/
def State.replay (s : State) (n : Nat) (ok : Bool) : State :=
  if s.dmcState n ≠ 4 then s
  else
    let s := ((s.count (Reg.dmcReplayCnt n) 1).tally 5 n 9 1).tallyTime 5 n 6 (s.rdF (Reg.dmcAlertT n) 15 0 * 5 / 4)
    let d := s.dmcAt n
    let s := (s.setDmc n { d with rows := [] }).emit (.replay n (s.retried n))
    let d := s.dmcAt n
    if ok then (s.wrF (Reg.dmcStat n) 31 28 2).setDmc n { d with fails := 0 }
    else if d.fails + 1 < 3 then s.setDmc n { d with fails := d.fails + 1 }
    else s.failChannel n

def execDramReplay (n : Nat) (ok : Bool) (s : State) : Answer := pcmd (decide (n < 6)) s fun s => s.replay n ok

/-! ### Retraining (R313) -/

/-- The lines in error that lie in the row of `a`, with whether each is uncorrectable. -/
def State.rowErrs (s : State) (a : Nat) : List (Nat × Bool) :=
  (s.mem.err.filter fun e => locate e.1 == .dram && s.dramRow e.1 == s.dramRow a).map fun e => (e.1, s.errAt e.1 == some true)

/-- The soft repairs of channel `n` made in a pause (R439): the lines are read, the row repaired, the lines written back. Which numbers
name a row in SPARE.USED, and how many repairs are left, is open (log entry 1). -/
def State.softRepair (s : State) (n : Nat) : State :=
  (s.rsv.retiring.filter fun r => r.kind == 12 && decide ((s.dramPlace r.unit).1 = n)).foldl (fun s r =>
    let s := (s.rowErrs r.unit).foldl (fun s e => if e.2 then s else s.clearErr e.1) s
    let (x, s) := (s.unpend 12 r.unit).freeBytes 8
    s.notice 0x0C01 0 (leBytes 1 12 ++ leBytes 1 r.reason ++ x.take 6 ++ taiBytes s.ns ++ x.drop 6 ++ [0, 0] ++ leBytes 4 0)) s

/-- One pause: of at most 1.5 µs, or 20 µs with a soft repair, its length not stated. STATE shows RETRAIN for as long. -/
def State.retrain (s : State) (n : Nat) : State :=
  let rep := s.rsv.retiring.any fun r => r.kind == 12 && decide ((s.dramPlace r.unit).1 = n)
  let r := s.free (if rep then 25001 else 1876)
  let d := r.2.dmcAt n
  ((r.2.setDmc n { d with due := false, retrains := d.retrains + 1, pause := s.cen.clock + r.1 * 2 ^ 32 * 4 / 5 }).tallyTime 5 n 6 r.1).softRepair n

/-- A retraining gap offered to the channels in `mask`: those that are due, and whose EN still asks for timed pauses, pause; one of them only
unless PAR allows more. -/
def State.offerGap (s : State) (mask : Nat) : State :=
  let want := (List.range 6).filter fun n => tb mask n && s.dmcState n == 2 && s.rdB (Reg.dmcRtr n) 31 && (s.dmcAt n).due
  match want with
  | [] => s
  | n :: rest => (rest.filter fun m => s.rdB (Reg.dmcRtr m) 30).foldl (fun s m => s.retrain m) (s.retrain n)

/-- `RETRAIN_DUE`: PERIOD has passed; a pause awaits a gap. -/
def execRetrainDue (n : Nat) (s : State) : Answer :=
  pcmd (decide (n < 6)) s fun s =>
    if s.rdB (Reg.dmcRtr n) 31 ∧ s.dmcState n = 2 then s.setDmc n { s.dmcAt n with due := true } else s

/-- `RETRAIN_FORCED`: by a temperature change, or because no gap came within MAXWAIT of the due time. -/
def execRetrainForced (n : Nat) (temp : Bool) (s : State) : Answer :=
  pcmd (decide (n < 6)) s fun s =>
    if s.dmcState n = 2 ∧ (temp ∨ (s.dmcAt n).due) then
      let kind := if !s.rdB (Reg.dmcRtr n) 31 then 3 else if temp then 2 else 1
      ((s.count (Reg.dmcRtrForced n) 1).conflict 3 kind n).retrain n
    else s

end Sys2Proof.Machine
end

