-- ==== Sys2Proof/Machine/Meridian.lean ====
section
/-! DEFINITION. Meridian time (chapter 11): steps, the servo and its states, captures, pulse outputs and timing frames. -/

namespace Sys2Proof.Machine

/-! ### What messages carry of it -/

/-- The time state (R370). -/
def State.mrdState (s : State) : Nat := s.rdF Reg.mrdState 3 0

/-- A timeline is armed (R383). -/
def State.armed (s : State) (c : Nat) : Bool := s.rdB (Reg.mrdTlCtrl c) 29

/-- SRC as `TIME.SET` codes it: the hardware's OFFSET source is 1 or 2 by who chose it (R387). -/
def State.timeSrc (s : State) : Nat :=
  match s.rdF Reg.mrdServo 3 0 with
  | 1 => if s.mrd.hostSrc then 2 else 1
  | n => if 8 ≤ n then n else 0

/-- The last θ in ns, held at ±(2^31 − 1) (R389). -/
def State.thetaNs (s : State) : Int := max (-2147483647) (min 2147483647 (roundHalfUp s.mrd.theta 65536))

/-- The fields of R389 from byte 20 on. -/
def State.timeTail (s : State) : List Byte :=
  taiBytes s.ns ++ leBytes 4 (s.rd Reg.mrdFreq) ++ leBytes 4 (wrap 32 s.thetaNs) ++ leBytes 4 (s.rd Reg.mrdErrbound)

/-- The payload of `TIME.QUERY` (R389). -/
def State.timeQuery (s : State) : List Byte :=
  leBytes 1 s.mrdState ++ leBytes 1 s.timeSrc ++ leBytes 2 ((List.range 384).countP s.armed) ++ s.timeTail

/-- The notice `TIME.STATE` (R389). -/
def State.timeNotice (s : State) (old reason : Nat) : State :=
  s.notice 0x0904 0 (leBytes 1 old ++ leBytes 1 s.mrdState ++ leBytes 2 reason ++ s.timeTail)

/-! ### Timelines disarmed, and steps (R367, R377, R383) -/

/-- A timeline disarmed: an open window is abandoned and egress stops; the settings last written are in force. -/
def State.disarm (s : State) (c : Nat) : State :=
  let s := s.wrF (Reg.mrdTlCtrl c) 29 29 0
  { s with
    mrd := { s.mrd with tl := mput (fun _ => .reset) s.mrd.tl c .reset }
    front := { s.front with
      windows := s.front.windows.filter fun w => w.carrier ≠ c } }

/-- Every timeline disarmed. -/
def State.disarmAll (s : State) : State :=
  (List.range 384).foldl (fun s c => if s.armed c then s.disarm c else s) s

def State.pulse (s : State) (m : Nat) : PulseOut := mget (fun _ => .reset) s.mrd.outs m
def State.setPulse (s : State) (m : Nat) (x : PulseOut) : State :=
  { s with mrd := { s.mrd with outs := mput (fun _ => .reset) s.mrd.outs m x } }

/-- The time of the edge k of an output, in 2^-32 ns. -/
def PulseOut.edge (p : PulseOut) (k : Nat) : Nat := (p.start + k * p.period) * 65536

/-- The k of the first edge of an output at or after `t`, in 2^-32 ns. -/
def PulseOut.from (p : PulseOut) (t : Nat) : Nat :=
  let u := (t + 65535) / 65536
  if u ≤ p.start then 0 else if p.period = 0 then 1 else (u - p.start + p.period - 1) / p.period

/-- An output after a step (R377): the pulse in progress ends at once, or at its end where that is past; the next edge is the first that
lies after the new time. -/
def State.stepPulse (s : State) (old m : Nat) : State :=
  let p := s.pulse m
  if p.mode = 0 && p.fall.isNone then s
  else
    let s := match p.fall with
      | some (t, level) => s.emit (.tsOut m level (min t (old / 65536)))
      | none => s
    s.setPulse m { p with fall := none, next := p.from (s.mrd.time + 1) }

/-- CEN.PERIOD in ns; values outside 1 to 10,000,000 µs act as the greatest. -/
def State.cenPeriod (s : State) : Nat :=
  let p := s.rdF Reg.cenPeriod 23 0
  (if 1 ≤ p ∧ p ≤ 10000000 then p else 10000000) * 1000

/-- The next Census tick: the first multiple of the period after the present time (R510). -/
def State.cenAlign (s : State) : State :=
  { s with cen := { s.cen with next := (s.ns / s.cenPeriod + 1) * s.cenPeriod } }

/-- A step to a time (R367): timelines are disarmed, the step counts, the outputs and Census recompute
their next edges and tick. -/
def State.stepTo (s : State) (t : Nat) : State :=
  let old := s.mrd.time
  let s := { s with mrd := { s.mrd with time := t % timeWrap }, cen := { s.cen with stepped := true } }
  let s := ((s.disarmAll.count Reg.mrdSteps 1).tally 8 0 1 1).cenAlign
  (List.range 4).foldl (fun s m => s.stepPulse old m) s

/-- A step by a signed amount in 2^-16 ns. -/
def State.stepBy (s : State) (d : Int) : State := s.stepTo (((s.mrd.time : Int) + d * 65536) % (timeWrap : Int)).toNat

/-! ### The servo (R368 to R372) -/

/-- The servo runs: EN = 1 with a source (R372); other values of SRC act as NONE. -/
def State.servoOn (s : State) : Bool := s.rdB Reg.mrdServo 31 && decide (s.timeSrc ≠ 0)

/-- FREQ set. -/
def State.setFreqWord (s : State) (f : Int) : State := s.wr Reg.mrdFreq (wrap 32 (freqHeld f))

/-- FAVG brought up to date: the mean of FREQ over the LOCKED samples of the last HWIN seconds (R371); the answer is whether any
fell in the window. -/
def State.favg (s : State) : Bool × State :=
  let w := s.lockedSamples
  let s := { s with mrd := { s.mrd with window := w } }
  if w.isEmpty then (false, s)
  else (true, s.wr Reg.mrdFavg (wrap 32 (roundHalfUp (w.map (·.2)).sum w.length)))

/-! ### Timelines armed (R380, R383) -/

/-- The GPS epoch on the PTP timescale, in seconds. -/
def gpsEpoch : Nat := 315964819

/-- Carrier frames are numbered from so many before the epoch, which is before any time the counter holds; it is a multiple of 1,024,
so that SFN is the frame number mod 1,024. -/
def framesBefore : Nat := 31596544000

/-- The start of a frame with AIR_OFS = 0, in ns. -/
def frameStart (k : Nat) : Int := gpsEpoch * 1000000000 + ((k : Int) - framesBefore) * 10000000

/-- The start of a carrier frame, in ns. -/
def State.frameNs (s : State) (c k : Nat) : Int :=
  frameStart k + sx 32 (s.rd (Reg.mrdTlAirOfs c))

/-- The first carrier frame whose start is at least 2 ms from now. -/
def State.farFrame (s : State) (c : Nat) : Nat :=
  let first := ((s.mrd.time + 2 ^ 32 - 1) / 2 ^ 32 : Nat) + (2000000 : Int) - s.frameNs c 0
  if first ≤ 0 then 0 else ((first + 9999999) / 10000000).toNat

def State.tl (s : State) (c : Nat) : TlState := mget (fun _ => .reset) s.mrd.tl c
def State.setTl (s : State) (c : Nat) (x : TlState) : State :=
  { s with mrd := { s.mrd with tl := mput (fun _ => .reset) s.mrd.tl c x } }

/-- A timeline armed. -/
def State.armTl (s : State) (c : Nat) : State :=
  (s.wrF (Reg.mrdTlCtrl c) 29 29 1).setTl c { fromFrame := s.farFrame c, versions := [], fired := [], last := (0, 0) }

/-- LOCKED has returned: the running firmware arms the timelines of its started carriers (R58, R383). -/
def State.rearm (s : State) : State :=
  if s.fwSt ≠ 3 then s
  else s.fw.carriers.foldl (fun (s : State) e => match e.2 with
    | some k => if started k && !s.armed e.1 then s.armTl e.1 else s
    | none => s) s

/-- A change of the time state: ERRBOUND reads 0 once LOCKED (R385), HOLDOVER runs at FAVG (R371), `TIME.STATE` is raised. -/
def State.toTime (s : State) (new reason : Nat) : State :=
  let old := s.mrdState
  let s := s.wrF Reg.mrdState 3 0 new
  let s := if new = 2 then s.wr Reg.mrdErrbound 0 else s
  let s :=
    if new = 3 then
      let r := s.favg
      if r.1 then r.2.setFreqWord (sx 32 (r.2.rd Reg.mrdFavg)) else r.2
    else s
  let s := s.timeNotice old reason
  if new = 2 ∧ old ≠ 2 then s.rearm else s

/-- GOOD set. -/
def State.setGood (s : State) (n : Nat) : State := s.wrF Reg.mrdState 15 8 n

/-- A sample that steers (R369): the integrator, FREQ, FREQ_CLAMP and GOOD. -/
def State.steer (s : State) (θ : Int) : State :=
  let integ := if s.mrdState = 3 then -(sx 32 (s.rd Reg.mrdFreq)) * 2 ^ 22 else s.mrd.integ
  let inew := integ + s.rd Reg.mrdKi * θ
  let f := -(s.rd Reg.mrdKp * θ + inew)
  let lim : Int := 500000 * 2 ^ 32
  let clamp := decide (lim < (f.natAbs : Int))
  let s := { s with mrd := { s.mrd with integ := if clamp then integ else inew } }
  let s := s.wrF Reg.mrdState 24 24 (bn clamp)
  let s := s.setFreqWord (roundHalfUp (if clamp then (if f < 0 then -lim else lim) else f) (2 ^ 22))
  s.setGood (if θ.natAbs ≤ s.rdF Reg.mrdLock 15 0 * 65536 then min 255 (s.rdF Reg.mrdState 15 8 + 1) else 0)

/-- The transition of R372 that a sample makes, from the state before it. -/
def State.sampleState (s : State) (θ : Int) : State :=
  match s.mrdState with
  | 1 => if s.rdF Reg.mrdLock 23 16 ≤ s.rdF Reg.mrdState 15 8 then s.toTime 2 0 else s
  | 2 =>
    if s.rd Reg.mrdUnlockNs * 65536 < θ.natAbs then s.toTime 1 1
    else
      ({ s with mrd := { s.mrd with window := (s.clockNs, sx 32 (s.rd Reg.mrdFreq)) :: s.mrd.window } } : State).favg.2
  | 3 => s.toTime 1 7
  | 4 => s.toTime 1 7
  | _ => s

/-- One sample θ in 2^-16 ns (R369): ignored while the servo is off (R368). -/
def State.sample (s : State) (θ : Int) : State :=
  if !s.servoOn then s
  else
    let was := s.thetaNs.natAbs
    let s := (s.count Reg.mrdSamples 1).tally 8 0 0 1
    let s := { s with mrd := { s.mrd with theta := θ } }
    let s := s.extreme 8 0 2 max was s.thetaNs.natAbs
    if s.rd Reg.mrdStepNs * 65536 < θ.natAbs then ((s.stepBy (-θ)).setGood 0).toTime 1 2
    else (s.steer θ).sampleState θ

/-- A write of `MRD.SERVO` (R372): the servo started, stopped or told of a new master. -/
def State.servoWrite (s : State) (v : Nat) : State :=
  let was := s.servoOn
  let s := s.wr Reg.mrdServo (v % 16 + fld v 31 31 * 2 ^ 31)
  if was && !s.servoOn then
    let s := s.disarmAll
    if s.mrdState = 0 then s else s.toTime 0 6
  else
    let s := if s.servoOn && decide (s.mrdState = 0) then (s.setGood 0).toTime 1 8 else s
    if tb v 30 && (s.mrdState == 1 || s.mrdState == 2) then s.toTime 3 4 else s

/-- `MRD.SET_CTRL` (R390): LOAD, or ADD, and the state it leaves (R372). -/
def State.setTime (s : State) (v : Nat) : State :=
  let after := fun (s : State) => (s.setGood 0).toTime (if s.servoOn then 1 else 0) 2
  if tb v 0 then
    after (s.stepTo ((s.rdPair Reg.mrdSetSLo Reg.mrdSetSHi * 1000000000 + s.rd Reg.mrdSetNs) * 2 ^ 32))
  else if tb v 1 then after (s.stepBy (sx 64 (s.rdPair Reg.mrdStepLo Reg.mrdStepHi)))
  else s

/-- A write of `MRD.FREQ`: ignored while EN = 1. -/
def State.freqWrite (s : State) (v : Nat) : State :=
  if s.rdB Reg.mrdServo 31 then s else s.setFreqWord (sx 32 v)

/-- A write of `MRD.OFFSET_HI` commits a sample under R8, if the source is OFFSET (R368). -/
def State.offsetWrite (s : State) (i : Init) (v : Nat) : State :=
  let s := (s.takeLo i Reg.mrdOffsetLo).wr Reg.mrdOffsetHi v
  if s.rdF Reg.mrdServo 3 0 = 1 then s.sample (sx 64 (s.rdPair Reg.mrdOffsetLo Reg.mrdOffsetHi)) else s

def execServoSample (i : Nat) (v : Word) (s : State) : Answer := pcmd (decide (i < 4)) s fun s => s.offsetWrite (.ctl i) v.toNat

/-- `SAMPLE_TIMEOUT`: HOLDOVER; 0 = no timeout. -/
def execSampleTimeout (s : State) : Answer :=
  pcmd true s fun s =>
    if s.rdF Reg.mrdHold 15 0 ≠ 0 ∧ (s.mrdState = 1 ∨ s.mrdState = 2) then s.toTime 3 3 else s

/-! ### Reads of the time (R363, R365) -/

/-- The four registers of one instant: N, S[31:0], S[47:32], F. -/
def timeRegs (t : Nat) : Nat × Nat × Nat × Nat :=
  let ns := t / 2 ^ 32
  (ns % 1000000000, ns / 1000000000 % 2 ^ 32, ns / 1000000000 / 2 ^ 32 % 65536, t / 65536 % 65536)

/-- A read of `TIME_NS`: N, with the other three latched for the initiator. -/
def State.timeRead (s : State) (i : Init) : Nat × State :=
  let (n, lo, hi, f) := timeRegs s.mrd.time
  (n, s.setPair i { s.pair i with time :=
    [(Reg.mrdTimeSLo, BitVec.ofNat 32 lo), (Reg.mrdTimeSHi, BitVec.ofNat 32 hi), (Reg.mrdTimeFr, BitVec.ofNat 32 f)] })

/-- A read of one of the other three: the latched half, once, else the present one. -/
def State.timeHalf (s : State) (i : Init) (off : Nat) : Nat × State :=
  match (s.pair i).time.find? fun e => e.1 = off with
  | some e => (e.2.toNat, s.setPair i { s.pair i with time := (s.pair i).time.filter fun x => x.1 ≠ off })
  | none =>
    let (_, lo, hi, f) := timeRegs s.mrd.time
    (if off = Reg.mrdTimeSLo then lo else if off = Reg.mrdTimeSHi then hi else f, s)

def execMrdTimeRead (i : Init) (s : State) : Answer :=
  pcmd i.wf s fun s => let r := s.timeRead i; r.2.emit (.value r.1)

/-! ### Captures (R373, R374) -/

/-- The stamps an input holds. -/
def State.stamps (s : State) (n : Nat) : List Nat := mget (fun _ => []) s.mrd.caps n
def State.setStamps (s : State) (n : Nat) (l : List Nat) : State :=
  let s := { s with mrd := { s.mrd with caps := mput (fun _ => []) s.mrd.caps n l } }
  s.wrF (Reg.mrdCapCtrl n) 4 0 l.length

/-- One of the two 16-bit counters of `CAP[n].LOST`, which hold at 0xFFFF. -/
def State.capCount (s : State) (n hi lo : Nat) : State :=
  s.wrF (Reg.mrdCapLost n) hi lo (satAdd 0xFFFF (s.rdF (Reg.mrdCapLost n) hi lo) 1)

/-- The offset that a stamp gives the servo, in 2^-16 ns: its N less OFS, folded into half a second either way. -/
def foldSecond (n : Nat) (ofs : Int) : Int := ((n : Int) - ofs + 500000000) % 1000000000 - 500000000

/-- A stamp as a servo sample (R374): not within half a second of the input's previous one. -/
def State.stampSample (s : State) (n : Nat) : State :=
  let last := mget (fun _ => 0) s.mrd.lastCap n
  if s.rdF Reg.mrdServo 3 0 ≠ 8 + n ∨ (last ≠ 0 ∧ s.clockNs + 1 < last + 500000000) then s
  else
    let s := { s with mrd := { s.mrd with lastCap := mput (fun _ => 0) s.mrd.lastCap n (s.clockNs + 1) } }
    s.sample (foldSecond s.taiN (sx 32 (s.rd (Reg.mrdCapOfs n))) * 65536)

/-- An edge on TS_INn: stamped, or counted as ignored within 100 ns of the edge before; the stamp enters the FIFO or is lost, its
event is posted, and it may be a sample. -/
def State.capture (s : State) (n : Nat) (rising : Bool) : State :=
  if !s.rdB (Reg.mrdCapCtrl n) (if rising then 30 else 31) then s
  else
    let last := mget (fun _ => 0) s.mrd.lastEdge n
    let close := decide (last ≠ 0 ∧ s.clockNs + 1 < last + 100)
    let s := { s with mrd := { s.mrd with lastEdge := mput (fun _ => 0) s.mrd.lastEdge n (s.clockNs + 1) } }
    if close then s.capCount n 31 16
    else
      let l := s.stamps n
      let s := if l.length < 16 then s.setStamps n (l ++ [s.mrd.time / 65536]) else s.capCount n 15 0
      let s :=
        if l.length < 16 ∧ s.rdB (Reg.mrdCapCtrl n) 29 then
          s.post (s.rdF (Reg.mrdCapCtrl n) 21 8) (2 ^ s.rdF (Reg.mrdCapCtrl n) 28 24)
        else s
      s.stampSample n

def execTsInEdge (n : Nat) (rising : Bool) (s : State) : Answer := pcmd (decide (n < 8)) s fun s => s.capture n rising

/-- A write of `CAP[n].POP` removes the oldest stamp. -/
def execCapPop (n : Nat) (s : State) : Answer := pcmd (decide (n < 8)) s fun s => s.setStamps n ((s.stamps n).drop 1)

/-- A write of `CAP[n].CTRL`: DEPTH is read-only. -/
def State.capWrite (s : State) (n v : Nat) : State :=
  s.wr (Reg.mrdCapCtrl n) (v % 2 ^ 32 / 256 * 256 % 2 ^ 22 + fld v 31 24 * 2 ^ 24 + (s.stamps n).length)

/-! ### Pulse outputs (R375, R376) -/

/-- The ranges of R375 for PERIOD and WIDTH_NS. -/
def PulseOut.inRange (p : PulseOut) : Bool :=
  decide (100 * 65536 ≤ p.period ∧ p.period ≤ 4294967295 * 65536 + 65535 ∧ 8 ≤ p.width ∧ p.width * 65536 + 8 * 65536 ≤ p.period)

/-- A write of `OUT[m].CTRL`: the page is committed. A pulse in progress completes first, falling to the inactive level now in force; the
edges due before are left out (R376). With no pulse in progress the output takes that level at once. -/
def State.pulseWrite (s : State) (m v : Nat) : State :=
  let s := s.wr (Reg.mrdOutCtrl m) (v % 16)
  let mode := match v % 4 with | 1 => 1 | 2 => 2 | _ => 0
  let was := s.pulse m
  let fall := was.fall.map fun e => (e.1, tb v 2)
  let p : PulseOut :=
    { mode := mode, pol := tb v 2, qual := tb v 3
      start := (s.rdPair (Reg.mrdOutStartSLo m) (Reg.mrdOutStartSHi m) * 1000000000 + s.rd (Reg.mrdOutStartNs m)) * 65536
      period := s.rd (Reg.mrdOutPeriodNs m) * 65536 + s.rd (Reg.mrdOutPeriodFr m)
      width := s.rd (Reg.mrdOutWidthNs m), next := 0, fall := fall }
  let from' := match fall with
    | some e => max s.mrd.time (e.1 * 65536)
    | none => s.mrd.time
  let s := s.setPulse m { p with next := p.from from' }
  if fall.isNone && was.pol != p.pol then s.emit (.tsOut m p.pol (s.mrd.time / 65536)) else s

/-- The output's next edge. A pulse in progress ends WIDTH_NS after its start. Otherwise the next pulse starts at its time, unless QUAL
holds it back; settings outside R375 have no edge that the specification gives, so its time is a free value then (log entry 1). -/
def State.pulseEdge (s : State) (m : Nat) : State :=
  let p := s.pulse m
  match p.fall with
  | some (t, level) => ((s.until (t * 65536)).setPulse m { p with fall := none }).emit (.tsOut m level t)
  | none =>
    if p.mode = 0 ∨ (p.mode = 2 ∧ p.next ≠ 0) then s
    else
      let s := s.until (p.edge p.next)
      let q := { p with next := p.next + 1 }
      if p.qual && !(s.mrdState == 2 || s.mrdState == 3) then s.setPulse m q
      else
        let r := if p.inRange || (p.mode == 2 && decide (8 ≤ p.width)) then (p.edge p.next / 65536, s) else s.free (2 ^ 96)
        (r.2.setPulse m { q with fall := some (r.1 + p.width * 65536, p.pol) }).emit (.tsOut m (!p.pol) r.1)

def execTsOutEdge (m : Nat) (s : State) : Answer := pcmd (decide (m < 4)) s fun s => s.pulseEdge m

/-! ### Timing frames (R384) -/

/-- `TIMING_FRAME`: Nightwatch records the crystal tick and phase, and the period measured since the frame before. -/
def State.timingFrame (s : State) : State :=
  if !s.nw.link || !s.nw.xtal || !s.mrd.run then s
  else
    let u := s.nw.ticks * xtalUnit + s.nw.sub
    let v := s.nw.tstopTick * xtalUnit + s.nw.tstopSub
    let period := if v < u ∧ s.nw.tstop < s.mrd.time ∧ s.nw.tstop ≠ 0 then (s.mrd.time - s.nw.tstop) * xtalUnit / (u - v) else s.nw.period
    { s with nw := { s.nw with tstop := s.mrd.time, tstopTick := s.nw.ticks, tstopSub := s.nw.sub, period := period } }

def execTimingFrame (s : State) : Answer := pcmd true s State.timingFrame

end Sys2Proof.Machine
end

