-- ==== Sys2Proof/Machine/Census.lean ====
section
/-! DEFINITION. Census (chapter 17): ticks, the records of R516 and R517, and the reader with its rings. -/

namespace Sys2Proof.Machine

/-! ### Values (R509, R512) -/

/-- The counters that are kept in ticks and read in ns. -/
def inTicks (g u i : Nat) : Bool :=
  match g, i with
  | 0, 2 => true
  | 1, i => decide (i < 3)
  | 2, i => decide (i < 3)
  | 3, 8 => true
  | 5, i => i == 5 || i == 6
  | 6, 1 => true
  | 7, 5 => decide (64 ≤ u)
  | _, _ => false

/-- A counter as it stands. -/
def State.counter (s : State) (g u i : Nat) : Nat :=
  let v := mget (fun _ => 0) s.cen.vals (cenKey g u i)
  if inTicks g u i then v * 4 / 5 % 2 ^ 48 else v

/-- An extreme since the previous latch, or the present level. -/
def State.extremeOf (s : State) (g u i level : Nat) : Nat :=
  match mget (fun _ => 0) s.cen.vals (cenKey g u i) with
  | 0 => level
  | v + 1 => v

/-- The index of a value that is an extreme. -/
def isExtreme (g i : Nat) : Bool :=
  match g, i with
  | 3, 10 => true
  | 4, 5 => true
  | 6, 5 => true
  | 6, 6 => true
  | 8, 2 => true
  | _, _ => false

/-- STAT and EYE of a physical lane by its number g × 17 + l. -/
def State.laneReg (s : State) (u : Nat) : Nat × Nat := (s.rd (Reg.laneStat (u / 17) (u % 17)), s.rd (Reg.laneEye (u / 17) (u % 17)))

/-- A value as a record carries it: gauges hold the level, signed ones are sign-extended. -/
def State.cenValue (s : State) (g u i : Nat) : Nat :=
  match g, i with
  | 1, 8 => s.rdF (Reg.rsvLoad u) 7 0
  | 1, 9 => s.rdF (Reg.rsvVlVstat u) 9 0
  | 3, 9 => s.freeSlots
  | 3, 10 => s.extremeOf 3 0 10 s.freeSlots
  | 4, 5 => s.extremeOf 4 0 5 (s.stagingKib 64 0)
  | 6, 0 => fld (s.laneReg u).1 31 28
  | 6, 5 => s.extremeOf 6 u 5 (fld (s.laneReg u).2 7 0)
  | 6, 6 => s.extremeOf 6 u 6 (fld (s.laneReg u).2 27 16)
  | 8, 2 => s.extremeOf 8 0 2 s.thetaNs.natAbs
  | 8, 3 => s.mrdState
  | 8, 4 => wrap 64 (sx 32 (s.rd Reg.mrdFreq))
  | _, _ => s.counter g u i

/-- Values and histograms per unit of each group. -/
def groupShape : Nat → Nat × Nat
  | 0 => (14, 0)
  | 1 => (10, 0)
  | 2 => (9, 1)
  | 3 => (11, 4)
  | 4 => (7, 1)
  | 5 => (11, 4)
  | 6 => (8, 0)
  | 7 => (8, 0)
  | 8 => (6, 1)
  | 9 => (12, 0)
  | _ => (0, 0)

/-! ### Units (R517, R519) -/

/-- A unit of a section: its number in the record's view, the other identity, the physical unit that counts, and its flags. -/
structure CenUnit where
  id : Nat
  other : Nat
  phys : Nat
  remapped : Bool
  isOut : Bool
  deriving DecidableEq, Repr

/-- A logical core or engine. -/
def State.logicalUnit (s : State) (g u : Nat) : CenUnit :=
  let phys := if g = 0 then s.physCore (u / 8) (u % 8) else s.rdF (Reg.rsvEmap u) 7 0
  let gone := if g = 0 then s.rdF (Reg.rsvCmap (u / 8)) (4 * (u % 8) + 3) (4 * (u % 8)) == 15 else s.rdB (Reg.rsvEmap u) 31
  { id := u, other := if gone then 0xFFFF else phys, phys := if gone then 0xFFFF else phys
    remapped := s.cen.remapped.contains (g, u), isOut := gone }

/-- A physical core or engine: spares and unmapped units have no other identity; one that is neither mapped nor a free spare is out of
service. -/
def State.physicalUnit (s : State) (g u : Nat) : CenUnit :=
  let l := if g = 0 then (s.logCore u).map fun k => u / 9 * 8 + k
    else (List.range 80).find? fun e => s.rdF (Reg.rsvEmap e) 7 0 == u && !s.rdB (Reg.rsvEmap e) 31
  let spare := if g = 0 then u % 9 == 8 else decide (80 ≤ u)
  let used := s.rsv.usedSpares.any fun e => e.2 == u && (if g = 0 then e.1 == 0 else decide (4 ≤ e.1 ∧ e.1 ≤ 10))
  { id := u, other := l.getD 0xFFFF, phys := u
    remapped := match l with | some x => s.cen.remapped.contains (g, x) | none => false
    isOut := l.isNone && (!spare || used) }

/-- The units of a group in identity order. -/
def State.cenUnits (s : State) (physical : Bool) (g : Nat) : List CenUnit :=
  let plain := fun n => (List.range n).map fun u => ({ id := u, other := u, phys := u, remapped := false, isOut := false } : CenUnit)
  match g with
  | 0 => if physical then (List.range 108).map fun u => s.physicalUnit 0 u else (List.range 96).map fun u => s.logicalUnit 0 u
  | 1 => plain 12
  | 2 => if physical then (List.range 88).map fun u => s.physicalUnit 2 u else (List.range 80).map fun u => s.logicalUnit 2 u
  | 5 => plain 6
  | 6 => (List.range 271).map fun u =>
      { id := u, other := u, phys := u, remapped := false, isOut := tb (s.laneReg u).1 7 }
  | 7 => plain 67
  | _ => plain 1

/-! ### Records (R516, R517) -/

/-- One unit of a section. -/
def State.unitBlock (s : State) (g : Nat) (u : CenUnit) : List Byte :=
  let (nv, nh) := groupShape g
  leBytes 2 u.id ++ leBytes 2 u.other ++ leBytes 4 (bn u.remapped + 2 * bn u.isOut) ++
    (List.range nv).flatMap (fun i => leBytes 8 (s.cenValue g u.phys i)) ++
    (List.range (nh * 32)).flatMap fun b => leBytes 8 (mget (fun _ => 0) s.cen.hists (cenKey g u.phys b))

/-- One section. -/
def State.section (s : State) (physical : Bool) (g : Nat) : List Byte :=
  let us := s.cenUnits physical g
  let (nv, nh) := groupShape g
  let body := us.flatMap fun u => s.unitBlock g u
  leBytes 1 g ++ [0] ++ leBytes 2 us.length ++ leBytes 1 nv ++ leBytes 1 nh ++ [0, 0] ++ leBytes 4 (16 + body.length) ++
    leBytes 4 0 ++ body

/-- The record that a tick latches. -/
def State.cenRecord (s : State) (manual : Bool) (tick : Nat) : List Byte :=
  let groups := s.rdF Reg.cenCtrl 9 0
  let physical := s.rdB Reg.cenCtrl 16
  let gs := (List.range 10).filter fun g => tb groups g
  let body := gs.flatMap fun g => s.section physical g
  let len := alignUp (64 + body.length) 64
  let remap := !physical && ((tb groups 0 && s.cen.remapped.any fun e => e.1 == 0) || (tb groups 2 && s.cen.remapped.any fun e => e.1 == 2))
  let flags := bn s.cen.first + 4 * bn s.cen.stepped + 8 * bn remap + 16 * bn manual + 32 * bn !(s.mrdState == 2 || s.mrdState == 3)
  let elapsed := if s.cen.first then 0 else (s.cen.clock - s.cen.last) / 2 ^ 32
  [0x43, 0x45, 0x4E, 0x53] ++ leBytes 4 len ++ leBytes 4 s.cen.seq ++ leBytes 2 flags ++ leBytes 1 (bn physical) ++
    leBytes 1 gs.length ++ leBytes 4 s.cen.skipped ++ leBytes 4 0 ++ taiBytes tick ++ leBytes 8 elapsed ++ leBytes 2 groups ++
    List.replicate 22 0 ++ body ++ List.replicate (len - 64 - body.length) 0

/-! ### Ticks (R510, R511) -/

/-- The key of a value that restarts at each latch. -/
def extremeKey (k : Nat) : Bool := isExtreme (k / 2 ^ 24) (k % 2 ^ 12)

/-- The extremes restart from the present levels (R509); a lane's level is its EYE register until it is measured anew. -/
def State.extremesRestart (s : State) : State :=
  let put := fun (l : List (Nat × Nat)) g i v => mput (fun _ => 0) l (cenKey g 0 i) (v + 1)
  let vals := put (mdrop extremeKey s.cen.vals) 3 10 s.freeSlots
  { s with cen := { s.cen with vals := put (put vals 4 5 (s.stagingKib 64 0)) 8 2 s.thetaNs.natAbs } }

/-- A tick: every shadow latches, or the tick is skipped while the reader still has a record. -/
def State.cenTick (s : State) (manual : Bool) (tick : Nat) : State :=
  if s.cen.record.isSome then
    let s := s.count Reg.cenSkipped 1
    { s with cen := { s.cen with skipped := s.cen.skipped + 1 } }
  else
    let r := s.cenRecord manual tick
    let s := s.wrF Reg.cenStat 31 31 1
    State.extremesRestart { s with cen := { s.cen with
        record := some ⟨r⟩, seq := s.cen.seq + 1, first := false, stepped := false, remapped := [], skipped := 0, last := s.cen.clock } }

/-- `CENSUS_TICK`: the next multiple of the period is reached. -/
def execCensusTick (s : State) : Answer :=
  pcmd true s fun s =>
    if !s.rdB Reg.cenCtrl 31 then s
    else
      let t := s.cen.next
      ((s.until (t * 2 ^ 32)).cenTick false t).cenAlign

/-- `CEN_MANUAL_TICK`: one more tick, while Census runs. -/
def execCenManualTick (i : Nat) (s : State) : Answer :=
  pcmd (decide (i < 4)) s fun s => if s.rdB Reg.cenCtrl 31 then s.cenTick true s.ns else s

/-- A write of `CEN.CTRL`: VIEW and GROUPS are ignored while EN = 1; EN set starts the records anew. -/
def State.cenCtrlWrite (s : State) (v : Nat) : State :=
  let was := s.rdB Reg.cenCtrl 31
  let s := if was then s else (s.wrF Reg.cenCtrl 16 16 (fld v 16 16)).wrF Reg.cenCtrl 9 0 (v % 1024)
  let s := s.wrF Reg.cenCtrl 31 31 (fld v 31 31)
  let s := if tb v 31 && !was then ({ s with cen := { s.cen with seq := 0, first := true } } : State).cenAlign else s
  if tb v 30 && s.rdB Reg.cenCtrl 31 then s.cenTick true s.ns else s

/-! ### The reader and its rings (R518, R520) -/

/-- Bytes of a ring as spans that do not wrap: offset in the ring and bytes. -/
def ringSpans (size off : Nat) (bs : List Byte) : List (Nat × List Byte) :=
  let o := off % size
  if o + bs.length ≤ size then [(o, bs)] else [(o, bs.take (size - o)), (0, bs.drop (size - o))]

/-- The DRAM ring: its base and size; LOG2 is held to 16 to 32. -/
def State.cenRing (s : State) : Nat × Nat :=
  (s.rdPair Reg.cenRingLo Reg.cenRingHi, 2 ^ max 16 (min 32 (s.rdF Reg.cenRingLog2 5 0)))

/-- The firmware copies whole records into the host ring while they fit, and writes its producer offset (R520). -/
def State.cenCopy : Nat → State → State
  | 0, s => s
  | f + 1, s =>
    let (base, size) := s.cenRing
    let pos := s.fw.cenCopied
    if pos = s.rd Reg.cenPi then s
    else
      let len := ofLe (s.devBytes (base + (pos + 4) % size) 4)
      let hostSize := 2 ^ s.fw.cenHostLog2
      let hostCi := ofLe (s.hostBytes (s.fw.cenHostShadow + 8) 8)
      if len = 0 ∨ hostSize < s.fw.cenHostPi - hostCi + len then s
      else
        let bytes := (List.range len).map fun i => s.devByte (base + (pos + i) % size)
        let s := (ringSpans hostSize s.fw.cenHostPi bytes).foldl (fun s p => s.toHost (s.fw.cenHost + p.1) p.2) s
        let s := { s with fw := { s.fw with cenCopied := (pos + len) % 2 ^ 32, cenHostPi := s.fw.cenHostPi + len } }
        let s := s.wr Reg.cenCi s.fw.cenCopied
        State.cenCopy f (s.toHost s.fw.cenHostShadow (leBytes 8 s.fw.cenHostPi))

/-- The record is lost, and counted; the next one says so. -/
def State.cenLose (s : State) : State :=
  let s := (s.count Reg.cenLost 1).wrF Reg.cenStat 31 31 0
  { s with cen := { s.cen with record := none, lost := s.cen.lost + 1, lostFlag := true } }

/-- The record does not fit into the ring beside what the reader still has. -/
def State.cenFull (s : State) (len : Nat) : Bool :=
  decide (s.cenRing.2 < (s.rd Reg.cenPi + 2 ^ 32 - s.rd Reg.cenCi) % 2 ^ 32 + len)

/-- The bytes of a record as it enters the ring: after lost ones, with LOST and their count. -/
def State.cenBytes (s : State) (bs : List Byte) : List Byte :=
  if s.cen.lostFlag then patch (patch bs 12 [(bs.getD 12 0) ||| 2]) 20 (leBytes 4 s.cen.lost) else bs

/-- One span of the ring written; false where the write fails. -/
def State.cenSpan (s : State) (a : Nat) (bs : List Byte) : Bool × State :=
  match s.memWrite a bs with
  | (.ok, t) => (true, t)
  | (_, t) => (false, t)

/-- Bytes written into the ring at PI; false where a write fails. -/
def State.cenPut (s : State) (bs : List Byte) : Bool × State :=
  (ringSpans s.cenRing.2 (s.rd Reg.cenPi) bs).foldl (fun w p =>
    let r := w.2.cenSpan (s.cenRing.1 + p.1) p.2
    (r.1 && w.1, r.2)) (true, s)

/-- PI passes the record, and `CEN.STAT` shows its SEQ. -/
def State.cenPass (s : State) (pi : Nat) (bs : List Byte) : State :=
  let s := (s.wr Reg.cenPi ((pi + bs.length) % 2 ^ 32)).wr Reg.cenStat (leAt bs 8 4 % 2 ^ 31)
  { s with cen := { s.cen with record := none, lost := 0, lostFlag := false } }

/-- The firmware, where it runs, copies what the ring holds to the host. -/
def State.cenForHost (s : State) : State := if s.fw.cenHost ≠ 0 ∧ s.fwSt = 3 then State.cenCopy 4096 s else s

/-- `CENSUS_RECORD_WRITE`: the latched record enters the ring and PI passes it, or it is lost. -/
def State.recordOut (s : State) (ok : Bool) : State :=
  match s.cen.record with
  | none => s
  | some r =>
    if s.cenFull r.bytes.length || !ok then s.cenLose
    else
      let w := s.cenPut (s.cenBytes r.bytes)
      if !w.1 then w.2.cenLose else (w.2.cenPass (s.rd Reg.cenPi) r.bytes).cenForHost

def execCensusRecordWrite (ok : Bool) (s : State) : Answer := pcmd true s fun s => s.recordOut ok

end Sys2Proof.Machine
end

