-- ==== Sys2Proof/Machine/Bfp.lean ====
section
/-! DEFINITION. Rounding and saturation (R168), and block floating point compression (R270, R271). -/

namespace Sys2Proof.Machine

/-- `round(x, s)`; a negative `s` multiplies (R271). -/
def rndShift (x s : Int) : Int :=
  if s = 0 then x
  else if s < 0 then x * 2 ^ s.natAbs
  else (x + 2 ^ (s.natAbs - 1)) / 2 ^ s.natAbs

/-- `sat(y, w)`, and whether it saturated. -/
def satTo (w : Nat) (y : Int) : Int × Bool :=
  let hi : Int := 2 ^ (w - 1) - 1
  let lo : Int := -(2 ^ (w - 1))
  if hi < y then (hi, true) else if y < lo then (lo, true) else (y, false)

/-- The bits of a field of `w` bits, most significant first. -/
def bitsOf (w v : Nat) : List Bool := (List.range w).map fun i => v.testBit (w - 1 - i)

/-- Bytes packed from bits, most significant first. -/
def packMsb : Nat → List Bool → List Byte
  | 0, _ => []
  | n + 1, bs => BitVec.ofNat 8 ((bs.take 8).foldl (fun v b => 2 * v + bn b) 0) :: packMsb n (bs.drop 8)

/-- Fields of `w` bits, most significant first, from a number of 8 × `nbytes` bits. -/
def fieldsMsb (w nbytes v : Nat) : List Nat := (List.range (nbytes * 8 / w)).map fun i => (v >>> (nbytes * 8 - w * (i + 1))) % 2 ^ w

/-- The exponent that BFP_COMP chooses for 24 components: the smallest that fits, or 15. -/
def bfpExp (w : Nat) (gain : Int) (xs : List Int) : Nat :=
  ((List.range 16).find? fun (e : Nat) => xs.all fun x => !(satTo w (rndShift x ((e : Int) + gain))).2).getD 15

/-- One PRB compressed (R270, R271): 1 + 3W bytes, and whether a component saturated. -/
def bfpComp (w : Nat) (gain : Int) (xs : List Int) : List Byte × Bool :=
  let e := bfpExp w gain xs
  let ms := xs.map fun x => satTo w (rndShift x (e + gain))
  (BitVec.ofNat 8 e :: packMsb (3 * w) (ms.flatMap fun m => bitsOf w (wrap w m.1)), ms.any (·.2))

/-- One PRB decompressed: its 24 components, and whether one saturated. -/
def bfpDecomp (w : Nat) (gain : Int) (bs : List Byte) : List Int × Bool :=
  let e : Int := ((bs.headD 0).toNat % 16 : Nat)
  let v := (bs.drop 1).foldl (fun v b => v * 256 + b.toNat) 0
  let ys := (fieldsMsb w (3 * w) v).map fun m => satTo 16 (rndShift (sx w m) (-(e + gain)))
  (ys.map (·.1), ys.any (·.2))

/-- 16-bit components from little-endian bytes. -/
def compsOf : List Byte → List Int
  | lo :: hi :: bs => sx 16 (lo.toNat + 256 * hi.toNat) :: compsOf bs
  | _ => []

/-- Little-endian bytes of 16-bit components. -/
def bytesOfComps (xs : List Int) : List Byte := xs.flatMap fun x => leBytes 2 (wrap 16 x)

end Sys2Proof.Machine
end

