-- ==== Sys2Proof/Machine/Coding.lean ====
section
/-! DEFINITION. The parts of TS 38.211, TS 38.212 and TS 36.212 that chapter 6 names and that are arithmetic on sizes and positions:
CRCs, lifting sizes, segmentation, circular buffers, bit interleaving, scrambling, and the soft buffers of R203 to R205. PRESUMED from
those standards (log entry 30); their coefficient tables are not restated here, nor in the specification. -/

namespace Sys2Proof.Machine

/-! ### Bits -/

/-- Bits packed into bytes, first bit most significant, the last byte padded with zeros (R200). -/
def packBits (bs : List Bool) : List Byte := packMsb ((bs.length + 7) / 8) (bs ++ List.replicate (7 - (bs.length + 7) % 8) false)

/-- The CRC of a descriptor's CRC field on bits: 1 CRC24B, 2 CRC24A, 3 CRC16, 4 CRC8. Length and value. -/
def crcField (kind : Nat) (bs : List Bool) : Nat × Nat :=
  match kind with
  | 1 => (24, crcBits 24 0x800063 bs 0)
  | 2 => (24, crcBits 24 0x864CFB bs 0)
  | 3 => (16, crcBits 16 0x1021 bs 0)
  | 4 => (8, crcBits 8 0x9B bs 0)
  | _ => (0, 0)

/-- Bits that end with the CRC of what precedes it. -/
def crcHolds (kind : Nat) (bs : List Bool) : Bool := decide ((crcField kind bs).2 = 0)

/-- Bits with their CRC attached. -/
def withCrc (kind : Nat) (bs : List Bool) : List Bool :=
  let (n, c) := crcField kind bs
  bs ++ bitsOf n c

/-! ### LDPC sizes (TS 38.212 5.2.2, 5.3.2) -/

/-- A lifting size a × 2^j ≤ 384. -/
def liftOk (z : Nat) : Bool :=
  decide (2 ≤ z ∧ z ≤ 384) && [2, 3, 5, 7, 9, 11, 13, 15].any fun a => (List.range 8).any fun j => decide (z = a * 2 ^ j)

/-- K and N of a base graph. -/
def ldpcK (bg z : Nat) : Nat := (if bg = 1 then 22 else 10) * z
def ldpcN (bg z : Nat) : Nat := (if bg = 1 then 66 else 50) * z

/-- Where redundancy version `rv` starts in the circular buffer (Table 5.4.2.1-2). -/
def ldpcK0 (bg z ncb rv : Nat) : Nat :=
  let num := match bg, rv with
    | 1, 1 => 17
    | 1, 2 => 33
    | 1, 3 => 56
    | _, 1 => 13
    | _, 2 => 25
    | _, 3 => 43
    | _, _ => 0
  num * ncb / (if bg = 1 then 66 * z else 50 * z) * z

/-- A position of the circular buffer holds a filler bit. -/
def ldpcFill (bg z f p : Nat) : Bool := decide (ldpcK bg z - f - 2 * z ≤ p ∧ p < ldpcK bg z - 2 * z)

/-- Code blocks, bits per block with CRC, and lifting size of a transport block of `b` bits. -/
def segment (bg b : Nat) : Nat × Nat × Nat :=
  let kcb := if bg = 1 then 8448 else 3840
  let c := if b ≤ kcb then 1 else (b + kcb - 25) / (kcb - 24)
  let b' := if b ≤ kcb then b else b + c * 24
  let k' := (b' + c - 1) / c
  let kb := if bg = 1 then 22 else if 640 < b then 10 else if 560 < b then 9 else if 192 < b then 8 else 6
  (c, k', ((List.range 385).find? fun z => liftOk z && decide (k' ≤ kb * z)).getD 384)

/-! ### Circular buffers (R199, R203; TS 36.212 5.1.4.1) -/

/-- The positions of a circular buffer in the order they are read, from `k0` on, skipping those that carry nothing. -/
def circular (ncb k0 : Nat) (skip : Nat → Bool) : List Nat :=
  ((List.range ncb).map fun j => (k0 + j) % ncb).filter fun p => !skip p

/-- The column permutation of the sub-block interleaver. -/
def subCols : List Nat :=
  [0, 16, 8, 24, 4, 20, 12, 28, 2, 18, 10, 26, 6, 22, 14, 30, 1, 17, 9, 25, 5, 21, 13, 29, 3, 19, 11, 27, 7, 23, 15, 31]

/-- Rows of the sub-block interleaver for code-block size K. -/
def turboR (k : Nat) : Nat := (k + 4 + 31) / 32

/-- A turbo code-block size of Table 5.1.3-3. -/
def turboK (k : Nat) : Bool :=
  decide ((40 ≤ k ∧ k ≤ 512 ∧ k % 8 = 0) ∨ (512 < k ∧ k ≤ 1024 ∧ k % 16 = 0) ∨ (1024 < k ∧ k ≤ 2048 ∧ k % 32 = 0) ∨
    (2048 < k ∧ k ≤ 6144 ∧ k % 64 = 0))

/-- A position of w_k holds NULL: a dummy bit of the interleaver, or a filler bit of the first two streams. -/
def turboNull (k f p : Nat) : Bool :=
  let r := turboR k
  let kpi := 32 * r
  let nd := kpi - (k + 4)
  let src := fun i => nth 0 subCols (i / r) + 32 * (i % r)
  if p < kpi then decide (src p < nd + f)
  else
    let i := (p - kpi) / 2
    if (p - kpi) % 2 = 0 then decide (src i < nd + f) else decide ((src i + 1) % kpi < nd)

/-- Where redundancy version `rv` starts in w_k. -/
def turboK0 (k ncb rv : Nat) : Nat :=
  let r := turboR k
  r * (2 * ((ncb + 8 * r - 1) / (8 * r)) * rv + 2)

/-! ### LLRs and soft buffers -/

/-- A byte as an LLR: −128 is read as −127 (R199). -/
def llrOf (b : Byte) : Int := max (-127) (sx 8 b.toNat)

/-- The E input LLRs before bit interleaving of order `qm`: LLR k is byte i + j × Qm with i = k / (E / Qm), j = k mod (E / Qm). -/
def deinterleave (qm : Nat) (bs : List Byte) : List Int :=
  let rows := bs.length / qm
  (List.range bs.length).map fun k => llrOf (nth 0 bs (k / rows + k % rows * qm))

/-- Entry `i` of a soft buffer, expanded (R204). -/
def softEntry (shift : Nat) (bs : List Byte) (i : Nat) : Int :=
  let n := (nth 0 bs (i / 2)).toNat / 16 ^ (i % 2) % 16
  (if n = 8 then -7 else sx 4 n) * 2 ^ shift

/-- The combined input of the circular buffer (R199): the old entries and every LLR that falls on a position, saturated to ±127. -/
def combineLlr (ncb k0 : Nat) (skip : Nat → Bool) (old : Nat → Int) (llrs : List Int) : List Int :=
  let order := circular ncb k0 skip
  let m := order.length
  (List.range ncb).map fun p =>
    match order.findIdx? fun q => q == p with
    | none => 0
    | some q =>
      let sum := (llrs.zipIdx.map fun (e : Int × Nat) => if e.2 % m = q then e.1 else 0).foldl (· + ·) (old p)
      max (-127) (min 127 sum)

/-- The soft buffer written from combined LLRs (R203, R204): two entries a byte, padded with zeros to 64 bytes. -/
def softBytes (shift : Nat) (skip : Nat → Bool) (ls : List Int) : List Byte :=
  let ent := ls.zipIdx.map fun (e : Int × Nat) => if skip e.2 then 0 else wrap 4 (max (-7) (min 7 (rndShift e.1 shift)))
  (List.range (alignUp ((ls.length + 1) / 2) 64)).map fun i => BitVec.ofNat 8 (nth 0 ent (2 * i) + 16 * nth 0 ent (2 * i + 1))

/-! ### Encoding of a transport block (R206) -/

/-- E_r of each code block (5.4.2.1). -/
def blockSizes (g nl qm c : Nat) : List Nat :=
  let s := g / (nl * qm)
  (List.range c).map fun r => nl * qm * (if r < c - s % c then s / c else (s + c - 1) / c)

/-- Bit interleaving (5.4.2.2): output bit i + j × Qm is input bit i × E / Qm + j. -/
def bitInterleave (qm : Nat) (e : List Bool) : List Bool :=
  let rows := e.length / qm
  (List.range e.length).map fun k => nth false e (k % qm * rows + k / qm)

/-- The Gold sequence of TS 38.211 5.2.1, of `n` bits. -/
def goldBits (cinit n : Nat) : List Bool :=
  let step := fun (x : Nat × Nat) =>
    (x.1 / 2 + bn (tb x.1 3 != tb x.1 0) * 2 ^ 30, x.2 / 2 + bn ((tb x.2 3 != tb x.2 2) != (tb x.2 1 != tb x.2 0)) * 2 ^ 30)
  let start := (List.range 1600).foldl (fun x _ => step x) ((1 : Nat), cinit % 2 ^ 31)
  ((List.range n).foldl (fun (r : (Nat × Nat) × List Bool) _ => (step r.1, (tb r.1.1 0 != tb r.1.2 0) :: r.2)) (start, [])).2.reverse

/-- The sum of two words. -/
def xorBits (a b : List Bool) : List Bool := a.zipWith (fun x y => x != y) b

end Sys2Proof.Machine
end

