-- ==== Sys2Proof/Machine/PozelDecode.lean ====
section
/-! DEFINITION. Pozel operation words (R150 to R158): the operations by name, and the decoder, which answers none
where R153, R154 or R162 make the word ILLEGAL. Register fields stay names; R121 maps them at issue. -/

namespace Sys2Proof.Machine

/-- The scalar ALU, in the order of opcodes 0x01 to 0x11 (R156). -/
inductive SOp | add | sub | and | or | xor | andn | shl | shr | shra | min | max | abs | neg | mov | cmp | plog | norm
  deriving DecidableEq, Repr

/-- The scalar multiply and round operations, 0x20 to 0x24 (R156). -/
inductive MOp | mpy | mac | msu | rndH | rndW
  deriving DecidableEq, Repr

/-- Scalar floating point, 0x30 to 0x3B (R156). -/
inductive FOp | fadd | fsub | fmul | fma | fmin | fmax | fcmp | fcvt | frcp | frsq | fneg | fabs
  deriving DecidableEq, Repr

/-- The vector operations of format V (R156). -/
inductive VOp
  | vadd | vsub | vadds | vsubs | vmul | vmulr | vcmpyc | vmac | vmacS | vfma | vand | vor | vxor | vandn | vsel | vmov
  | vshl | vshls | vshr | vshra | vshrr | vshrb | vmin | vmax | vabs | vneg | vmulj | vcmpeq | vcmplt | vcmple
  | vbcast | vext | vintlL | vintlH | vdintlE | vdintlO | vpack | vwiden | vradd | bexp
  deriving DecidableEq, Repr

/-- Loads and stores, 0x01 to 0x0B and 0x10 to 0x17 (R157). -/
inductive LOp
  | ldB | ldBU | ldH | ldHU | ldW | ldWU | ldD | ldfW | ldfH | lda | vld | stB | stH | stW | stD | stfW | stfH | sta | vst
  deriving DecidableEq, Repr

/-- Lane types (R155). -/
inductive Ty | h | w | c | l | f | hf
  deriving DecidableEq, Repr

/-- One decoded operation. `dr`, `sa`, `sb` are names 0 to 31 as the word holds them. -/
inductive Oper
  | nop
  | salu (op : SOp) (dr sa : Nat) (imm : Bool) (sb cc : Nat)
  | smac (op : MOp) (dr sa : Nat) (imm : Bool) (sb : Nat)
  | sfp (op : FOp) (dr sa sb : Nat) (ty : Ty)
  | vec (op : VOp) (dr sa sb : Nat) (ty : Ty) (x : Bool)
  | vmovi (dr imm : Nat)
  | mem (op : LOp) (reg an am esz mn imm : Nat)
  | addaL (an am mn imm : Nat)
  | br (disp : Nat) | call (disp : Nat) | brr (an : Nat)
  | rpt (rg : Bool) (dr imm : Nat)
  | loop (rot rg : Bool) (dr imm8 imm10 : Nat)
  | lpop | dint (n : Nat)
  | mvc (w : Bool) (dr cr : Nat)
  | mva (dr kind n : Nat) | mvd (dr kind n : Nat)
  | addaC (an : Nat) (imm : Bool) (mn imm9 : Nat)
  | sync | getw | submit (dr an : Nat) | post (dr df : Nat) | done (rg : Bool) (dr imm : Nat)
  | bscale (g : Nat) | seta (part an imm : Nat) | movi (dr imm : Nat) | movh (dr imm : Nat)
  deriving DecidableEq, Repr

/-- The class of a word (R150): M, L or C. -/
inductive OpCls | m | l | c
  deriving DecidableEq, Repr

/-- A decoded word: its class, its guard, its operation, and its own address. -/
structure OpWord where
  cls : OpCls
  pg : Nat
  op : Oper
  addr : Nat
  deriving DecidableEq, Repr

/-- TY [3:1] of formats F and V (R155). -/
def tyOf : Nat → Option Ty
  | 0 => some .h | 1 => some .w | 2 => some .c | 3 => some .l | 4 => some .f | 5 => some .hf | _ => none

/-- The scalar ALU opcodes, the same in the M and C classes (R156, R158). -/
def sopOf : Nat → Option SOp
  | 0x01 => some .add | 0x02 => some .sub | 0x03 => some .and | 0x04 => some .or | 0x05 => some .xor
  | 0x06 => some .andn | 0x07 => some .shl | 0x08 => some .shr | 0x09 => some .shra | 0x0A => some .min
  | 0x0B => some .max | 0x0C => some .abs | 0x0D => some .neg | 0x0E => some .mov | 0x0F => some .cmp
  | 0x10 => some .plog | 0x11 => some .norm | _ => none

/-- The scalar multiply opcodes (R156). -/
def mopOf : Nat → Option MOp
  | 0x20 => some .mpy | 0x21 => some .mac | 0x22 => some .msu | 0x23 => some .rndH | 0x24 => some .rndW | _ => none

/-- The scalar floating-point opcodes (R156). -/
def fopOf : Nat → Option FOp
  | 0x30 => some .fadd | 0x31 => some .fsub | 0x32 => some .fmul | 0x33 => some .fma | 0x34 => some .fmin
  | 0x35 => some .fmax | 0x36 => some .fcmp | 0x37 => some .fcvt | 0x38 => some .frcp | 0x39 => some .frsq
  | 0x3A => some .fneg | 0x3B => some .fabs | _ => none

/-- The vector opcodes of format V (R156). -/
def vopOf : Nat → Option VOp
  | 0x40 => some .vadd | 0x41 => some .vsub | 0x42 => some .vadds | 0x43 => some .vsubs | 0x44 => some .vmul
  | 0x45 => some .vmulr | 0x46 => some .vcmpyc | 0x47 => some .vmac | 0x48 => some .vmacS | 0x49 => some .vfma
  | 0x4A => some .vand | 0x4B => some .vor | 0x4C => some .vxor | 0x4D => some .vandn | 0x4E => some .vsel
  | 0x4F => some .vmov | 0x50 => some .vshl | 0x51 => some .vshls | 0x52 => some .vshr | 0x53 => some .vshra
  | 0x54 => some .vshrr | 0x55 => some .vshrb | 0x56 => some .vmin | 0x57 => some .vmax | 0x58 => some .vabs
  | 0x59 => some .vneg | 0x5A => some .vmulj | 0x5B => some .vcmpeq | 0x5C => some .vcmplt | 0x5D => some .vcmple
  | 0x60 => some .vbcast | 0x61 => some .vext | 0x62 => some .vintlL | 0x63 => some .vintlH | 0x64 => some .vdintlE
  | 0x65 => some .vdintlO | 0x66 => some .vpack | 0x67 => some .vwiden | 0x68 => some .vradd | 0x69 => some .bexp
  | _ => none

/-- The load and store opcodes (R157). -/
def lopOf : Nat → Option LOp
  | 0x01 => some .ldB | 0x02 => some .ldBU | 0x03 => some .ldH | 0x04 => some .ldHU | 0x05 => some .ldW
  | 0x06 => some .ldWU | 0x07 => some .ldD | 0x08 => some .ldfW | 0x09 => some .ldfH | 0x0A => some .lda
  | 0x0B => some .vld | 0x10 => some .stB | 0x11 => some .stH | 0x12 => some .stW | 0x13 => some .stD
  | 0x14 => some .stfW | 0x15 => some .stfH | 0x16 => some .sta | 0x17 => some .vst | _ => none

/-- The lane types an operation allows (R174). -/
def VOp.tyOk (op : VOp) (t : Ty) : Bool :=
  match op with
  | .vadd | .vsub => true
  | .vadds | .vsubs | .vmulr | .vmac | .vmacS | .vpack | .vwiden | .bexp => t == .h || t == .w || t == .c
  | .vmul => t == .h || t == .w || t == .f || t == .hf
  | .vcmpyc | .vmulj => t == .c
  | .vfma => t == .f || t == .hf
  | .vand | .vor | .vxor | .vandn | .vext => t == .w
  | .vsel | .vmov => true
  | .vshl | .vshls | .vshr | .vshra | .vshrr | .vshrb => t == .h || t == .w || t == .l || t == .c
  | .vmin | .vmax | .vcmpeq | .vcmplt | .vcmple => t != .c
  | .vabs | .vneg => true
  | .vbcast => t != .hf
  | .vintlL | .vintlH | .vdintlE | .vdintlO => true
  | .vradd => t == .h || t == .w

/-- The operations that accept X = 1 (R174, R178). -/
def VOp.xOk (op : VOp) : Bool :=
  match op with
  | .vadd | .vsub | .vadds | .vsubs | .vmulr | .vcmpyc | .vshrr | .vshrb | .vmulj | .vpack => true
  | _ => false

/-- The operations whose DR names a register pair (R162). -/
def VOp.pairDst (op : VOp) : Bool :=
  match op with
  | .vmac | .vmacS | .vwiden => true
  | _ => false

/-- Format S (R154): [8] I, [7:3] SB or IMM5, [2:0] CC for CMP, FN for PLOG, otherwise zero. -/
def decodeS (op : SOp) (w : Nat) : Option Oper :=
  let cc := fld w 2 0
  let ok := match op with
    | .cmp => decide (cc ≤ 5)
    | .plog => decide (cc ≤ 4) && !tb w 8 && decide (fld w 18 14 < 8) && decide (fld w 13 9 < 8) && decide (fld w 7 3 < 8)
    | _ => cc == 0
  let ok := ok && (match op with | .cmp => decide (fld w 18 14 < 8) | _ => true)
  if ok then some (.salu op (fld w 18 14) (fld w 13 9) (tb w 8) (fld w 7 3) cc) else none

/-- Format F (R154): the types are .F and .HF; FCVT takes its kind in SB[2:0]; FCMP writes P[DR[2:0]] and takes its CC
from DR[4:3], the only bits of the format left for it (DEDUCED). -/
def decodeF (op : FOp) (w : Nat) : Option Oper :=
  let dr := fld w 18 14
  let sb := fld w 8 4
  match tyOf (fld w 3 1) with
  | none => none
  | some ty =>
    let ok := !tb w 0 && (ty == .f || ty == .hf) &&
      (match op with
        | .fcvt => decide (fld sb 2 0 ≤ 5)
        | _ => true)
    if ok then some (.sfp op dr (fld w 13 9) sb ty) else none

/-- Format V (R154). A pair operation needs an even register; VPACK's source is a pair (R162); VSHRB's SB is zero. -/
def decodeV (op : VOp) (w : Nat) : Option Oper :=
  let dr := fld w 18 14
  let sa := fld w 13 9
  let sb := fld w 8 4
  match tyOf (fld w 3 1) with
  | none => none
  | some ty =>
    let ok := op.tyOk ty && (!tb w 0 || op.xOk) && (!op.pairDst || dr % 2 == 0)
      && (op != .vpack || sa % 2 == 0) && (op != .vshrb || sb == 0)
    if ok then some (.vec op dr sa sb ty (tb w 0)) else none

/-- The M class (R156). -/
def decodeM (w : Nat) : Option Oper :=
  let op := fld w 25 19
  if op = 0 then (if w % 2 ^ 19 = 0 then some .nop else none)
  else if op = 0x6A then some (.vmovi (fld w 18 14) (fld w 13 0))
  else match sopOf op with
  | some o => decodeS o w
  | none => match mopOf op with
    | some o => if fld w 2 0 = 0 then some (.smac o (fld w 18 14) (fld w 13 9) (tb w 8) (fld w 7 3)) else none
    | none => match fopOf op with
      | some o => decodeF o w
      | none => match vopOf op with
        | some o => decodeV o w
        | none => none

/-- The L class (R157): the modifier fields that AM does not use are zero (R154). -/
def decodeL (w : Nat) : Option Oper :=
  let op := fld w 25 20
  let reg := fld w 19 15
  let an := fld w 14 11
  let am := fld w 10 9
  let esz := fld w 8 7
  let modOk := (am != 0 || fld w 6 0 == 0) && (am != 1 || fld w 2 0 == 0)
  if op = 0 then (if w % 2 ^ 20 = 0 then some .nop else none)
  else if op = 0x20 then
    if modOk && (am == 1 || am == 3) && reg == 0 then some (.addaL an am (fld w 6 3) (fld w 6 0)) else none
  else match lopOf op with
  | some o =>
    let ok := modOk && (match o with
      | .lda | .sta => decide (reg < 16)
      | _ => true)
    if ok then some (.mem o reg an am esz (fld w 6 3) (fld w 6 0)) else none
  | none => none

/-- The control registers that exist (R159). -/
def crOk (cr : Nat) : Bool := decide (cr ≤ 0x10)

/-- The C class (R158). -/
def decodeC (w : Nat) : Option Oper :=
  let op := fld w 25 19
  let dr := fld w 18 14
  let rg := tb w 18
  let i10 := fld w 9 0
  let caOk := tb w 9 || fld w 4 0 == 0                                  -- format CA: [4:0] zero when I = 0
  let cnOk := if rg then fld w 17 15 == 0 else fld w 17 10 == 0         -- format CN: bits no field holds
  if op = 0 then (if w % 2 ^ 19 = 0 then some .nop else none)
  else match sopOf op with
  | some o => decodeS o w
  | none =>
    if op = 0x20 then some (.br (fld w 18 0))
    else if op = 0x21 then some (.call (fld w 18 0))
    else if op = 0x22 then (if caOk then some (.brr (fld w 13 10)) else none)
    else if op = 0x28 then
      (if cnOk then some (.rpt rg (fld w 14 10) i10) else none)
    else if op = 0x29 ∨ op = 0x2A then
      (if i10 = 0 ∨ (rg && fld w 17 15 != 0) = true then none
       else some (.loop (op == 0x2A) rg (fld w 14 10) (fld w 17 10) i10))
    else if op = 0x2B then (if w % 2 ^ 19 = 0 then some .lpop else none)
    else if op = 0x2C then
      (if cnOk && decide (0 < i10) && decide (i10 < 63) then some (.dint i10) else none)
    else if op = 0x30 then
      (if w % 2 ^ 7 = 0 ∧ crOk (fld w 13 8) = true ∧ ¬(tb w 7 = true ∧ 0x0E ≤ fld w 13 8) then
        some (.mvc (tb w 7) dr (fld w 13 8)) else none)
    else if op = 0x31 then (if w % 2 ^ 8 = 0 then some (.mva dr (fld w 13 12) (fld w 11 8)) else none)
    else if op = 0x32 then (if w % 2 ^ 8 = 0 then some (.mvd dr (fld w 13 12) (fld w 11 8)) else none)
    else if op = 0x33 then
      (if caOk then some (.addaC (fld w 13 10) (tb w 9) (fld w 8 5) (fld w 8 0)) else none)
    else if op = 0x38 then (if w % 2 ^ 19 = 0 then some .sync else none)
    else if op = 0x39 then (if w % 2 ^ 19 = 0 then some .getw else none)
    else if op = 0x3A then (if caOk then some (.submit dr (fld w 13 10)) else none)
    else if op = 0x3B then (if w % 2 ^ 9 = 0 then some (.post dr (fld w 13 9)) else none)
    else if op = 0x3C then
      (if cnOk then some (.done rg (fld w 14 10) (fld i10 7 0)) else none)
    else if op = 0x40 then
      (if cnOk then some (.bscale (fld i10 4 0)) else none)
    else if 0x70 ≤ op ∧ op ≤ 0x77 then
      (if fld w 21 20 = 3 then none else some (.seta (fld w 21 20) (fld w 19 16) (fld w 15 0)))
    else if 0x78 ≤ op ∧ op ≤ 0x7F then
      some (if tb w 21 then .movh (fld w 20 16) (fld w 15 0) else .movi (fld w 20 16) (fld w 15 0))
    else none

/-- RPT, LOOP, LOOP.ROT, LPOP and DINT must have PG = 0 (R152). -/
def Oper.needsP0 : Oper → Bool
  | .rpt .. | .loop .. | .lpop | .dint _ => true
  | _ => false

/-- One operation word (R150). -/
def decodeWord (addr w : Nat) : Option OpWord :=
  let pg := fld w 28 26
  let mk (c : OpCls) (o : Option Oper) : Option OpWord :=
    match o with
    | some op => if op.needsP0 && pg != 0 then none else some ⟨c, pg, op, addr⟩
    | none => none
  match fld w 30 29 with
  | 0 => mk .m (decodeM w)
  | 1 => mk .l (decodeL w)
  | 2 => mk .c (decodeC w)
  | _ => none

/-- The last operation of its bundle (R150). -/
def wordEnds (w : Nat) : Bool := tb w 31

/-- The slots of a bundle (R151), numbered as `FLT_STAT.SLOT` numbers them: 0 MA, 1 MB, 2 LX, 3 LY, 4 CB.
None where a class has too many operations. -/
def assignSlots : List OpWord → Nat → Nat → Nat → Option (List (Nat × OpWord))
  | [], _, _, _ => some []
  | o :: os, m, l, c =>
    let go (slot : Nat) (r : Option (List (Nat × OpWord))) := r.map fun t => (slot, o) :: t
    match o.cls with
    | .m => if m < 2 then go m (assignSlots os (m + 1) l c) else none
    | .l => if l < 2 then go (2 + l) (assignSlots os m (l + 1) c) else none
    | .c => if c < 1 then go 4 (assignSlots os m l (c + 1)) else none

/-- The slots of a bundle's words by their classes, none for a word that has none (R150, R151). -/
def wordSlots : List Nat → Nat → Nat → Nat → List (Option Nat)
  | [], _, _, _ => []
  | w :: ws, m, l, n =>
    match fld w 30 29 with
    | 0 => (if m < 2 then some m else none) :: wordSlots ws (m + 1) l n
    | 1 => (if l < 2 then some (2 + l) else none) :: wordSlots ws m (l + 1) n
    | 2 => (if n < 1 then some 4 else none) :: wordSlots ws m l (n + 1)
    | _ => none :: wordSlots ws m l n

/-- A bundle's words as operations in their slots, or none where the bundle is ILLEGAL in itself (R151, R153). -/
def decodeBundle (words : List (Nat × Nat)) : Option (List (Nat × OpWord)) :=
  if 5 < words.length then none
  else match words.mapM fun p => decodeWord p.1 p.2 with
    | none => none
    | some ops => assignSlots ops 0 0 0

end Sys2Proof.Machine
end

