-- ==== Sys2Proof/Machine/SoftFloat.lean ====
section
/-! DEFINITION. IEEE 754 binary16 and binary32 as R171 to R173 use them: round to nearest even, subnormals kept,
one default quiet NaN, flags returned with each result. Exact values are an integer significand and a power of two. -/

namespace Sys2Proof.Machine

/-- The sticky flags one operation raises, in the order of SR (R159). -/
structure FFlags where
  nv : Bool := false
  dz : Bool := false
  of : Bool := false
  uf : Bool := false
  nx : Bool := false
  deriving DecidableEq, Repr

/-- The OR of two sets of flags (R171: a vector's flag is the OR over its lanes). -/
def FFlags.or (a b : FFlags) : FFlags :=
  ⟨a.nv || b.nv, a.dz || b.dz, a.of || b.of, a.uf || b.uf, a.nx || b.nx⟩

/-- The flags as bits [5:1] of SR (R159). -/
def FFlags.sr (f : FFlags) : Nat := bn f.nv * 32 + bn f.dz * 16 + bn f.of * 8 + bn f.uf * 4 + bn f.nx * 2

/-- A floating-point format: exponent bits and fraction bits. -/
structure FFmt where
  eb : Nat
  mb : Nat
  deriving DecidableEq, Repr

/-- IEEE 754 binary32. -/
def f32 : FFmt := ⟨8, 23⟩
/-- IEEE 754 binary16. -/
def f16 : FFmt := ⟨5, 10⟩

namespace FFmt

/-- Width in bits. -/
def width (f : FFmt) : Nat := 1 + f.eb + f.mb
/-- Exponent bias. -/
def bias (f : FFmt) : Nat := 2 ^ (f.eb - 1) - 1
/-- The biased exponent of infinities and NaNs. -/
def emax (f : FFmt) : Nat := 2 ^ f.eb - 1
/-- The power of two of the last bit of a subnormal. -/
def qmin (f : FFmt) : Int := 1 - (f.bias : Int) - (f.mb : Int)
/-- Sign, biased exponent and fraction of a word. -/
def sign (f : FFmt) (v : Nat) : Bool := tb v (f.eb + f.mb)
/-- The biased exponent. -/
def expo (f : FFmt) (v : Nat) : Nat := fld v (f.eb + f.mb - 1) f.mb
/-- The fraction. -/
def frac (f : FFmt) (v : Nat) : Nat := v % 2 ^ f.mb
/-- A word from its parts. -/
def mk' (f : FFmt) (s : Bool) (e m : Nat) : Nat := bn s * 2 ^ (f.eb + f.mb) + e * 2 ^ f.mb + m
/-- The default quiet NaN (R172). -/
def qnan (f : FFmt) : Nat := f.mk' false f.emax (2 ^ (f.mb - 1))
/-- An infinity. -/
def inf (f : FFmt) (s : Bool) : Nat := f.mk' s f.emax 0
/-- A zero. -/
def zero (f : FFmt) (s : Bool) : Nat := f.mk' s 0 0
/-- Any NaN. -/
def isNaN (f : FFmt) (v : Nat) : Bool := f.expo v == f.emax && f.frac v != 0
/-- A signalling NaN: the top fraction bit is 0. -/
def isSNaN (f : FFmt) (v : Nat) : Bool := f.isNaN v && !tb v (f.mb - 1)
/-- An infinity of either sign. -/
def isInf (f : FFmt) (v : Nat) : Bool := f.expo v == f.emax && f.frac v == 0
/-- A zero of either sign. -/
def isZero (f : FFmt) (v : Nat) : Bool := f.expo v == 0 && f.frac v == 0
/-- The magnitude of a finite word as significand × 2^power: the significand. -/
def sig (f : FFmt) (v : Nat) : Nat := if f.expo v = 0 then f.frac v else 2 ^ f.mb + f.frac v
/-- The magnitude of a finite word as significand × 2^power: the power. -/
def pow (f : FFmt) (v : Nat) : Int := f.qmin + ((max (f.expo v) 1 : Nat) : Int) - 1

/-- `m / 2^s` rounded to nearest, ties to even; whether it was inexact. -/
def rne (m s : Nat) : Nat × Bool :=
  let q := m >>> s
  let r := m % 2 ^ s
  let up := decide (2 ^ s < 2 * r) || (decide (2 ^ s = 2 * r) && s != 0 && tb q 0)
  (q + bn up, r != 0)

/-- The exact magnitude m × 2^e with sign `s`, rounded once to the format (R171). -/
def round (f : FFmt) (s : Bool) (m : Nat) (e : Int) : Nat × FFlags :=
  if m = 0 then (f.zero s, {}) else
  let len : Int := ((Nat.log2 m + 1 : Nat) : Int)
  let p : Int := ((f.mb + 1 : Nat) : Int)
  let free := e + len - p                       -- last-bit power with an unbounded exponent range
  let q := max free f.qmin
  let (r, nx) := if q ≤ e then (m <<< (e - q).toNat, false) else rne m (q - e).toNat
  let (r, q) := if r = 2 ^ (f.mb + 1) then (2 ^ f.mb, q + 1) else (r, q)
  let be := if r < 2 ^ f.mb then 0 else (q - f.qmin + 1).toNat
  if f.emax ≤ be then (f.inf s, { of := true, nx := true }) else
  let unb := if free ≤ e then m <<< (e - free).toNat else (rne m (free - e).toNat).1
  let tiny := decide (free < f.qmin) && !(decide (free + 1 = f.qmin) && unb == 2 ^ (f.mb + 1))
  (f.mk' s be (if be = 0 then r else r - 2 ^ f.mb), { uf := tiny && nx, nx := nx })

/-- The signed exact value of a finite word, over the power `e` that must not exceed its own. -/
def scaled (f : FFmt) (v : Nat) (e : Int) : Int :=
  let m : Int := ((f.sig v <<< (f.pow v - e).toNat : Nat) : Int)
  if f.sign v then -m else m

/-- The sign of an exact zero sum of two addends: minus only if both are minus (round to nearest). -/
def zsign (a b : Bool) : Bool := a && b

/-- Addition. -/
def add (f : FFmt) (a b : Nat) : Nat × FFlags :=
  if f.isNaN a || f.isNaN b then (f.qnan, { nv := f.isSNaN a || f.isSNaN b })
  else if f.isInf a then
    if f.isInf b && f.sign a != f.sign b then (f.qnan, { nv := true }) else (f.inf (f.sign a), {})
  else if f.isInf b then (f.inf (f.sign b), {})
  else
    let e := min (f.pow a) (f.pow b)
    let t := f.scaled a e + f.scaled b e
    if t = 0 then (f.zero (zsign (f.sign a) (f.sign b)), {}) else f.round (decide (t < 0)) t.natAbs e

/-- A word with its sign bit changed. -/
def neg (f : FFmt) (a : Nat) : Nat := f.mk' (!f.sign a) (f.expo a) (f.frac a)
/-- A word with its sign bit cleared. -/
def abs (f : FFmt) (a : Nat) : Nat := f.mk' false (f.expo a) (f.frac a)

/-- Subtraction: a + (−b), with b's NaN kept a NaN. -/
def sub (f : FFmt) (a b : Nat) : Nat × FFlags := f.add a (f.neg b)

/-- Multiplication. -/
def mul (f : FFmt) (a b : Nat) : Nat × FFlags :=
  let s := f.sign a != f.sign b
  if f.isNaN a || f.isNaN b then (f.qnan, { nv := f.isSNaN a || f.isSNaN b })
  else if (f.isInf a && f.isZero b) || (f.isZero a && f.isInf b) then (f.qnan, { nv := true })
  else if f.isInf a || f.isInf b then (f.inf s, {})
  else if f.isZero a || f.isZero b then (f.zero s, {})
  else f.round s (f.sig a * f.sig b) (f.pow a + f.pow b)

/-- c + a × b with one rounding. ∞ × 0 + NaN: IEEE 754 leaves NV to the implementation (`Config.fmaInfZeroNaN`). -/
def fma (f : FFmt) (c a b : Nat) : Nat × FFlags :=
  let bad := (f.isInf a && f.isZero b) || (f.isZero a && f.isInf b)
  let ps := f.sign a != f.sign b
  if f.isNaN a || f.isNaN b || f.isNaN c then
    (f.qnan, { nv := f.isSNaN a || f.isSNaN b || f.isSNaN c || (bad && Config.fmaInfZeroNaN) })
  else if bad then (f.qnan, { nv := true })
  else if f.isInf a || f.isInf b then
    if f.isInf c && f.sign c != ps then (f.qnan, { nv := true }) else (f.inf ps, {})
  else if f.isInf c then (f.inf (f.sign c), {})
  else
    let pe := f.pow a + f.pow b
    let e := min pe (f.pow c)
    let pm : Int := (((f.sig a * f.sig b) <<< (pe - e).toNat : Nat) : Int)
    let t := f.scaled c e + (if ps then -pm else pm)
    if t = 0 then (f.zero (zsign (f.sign c) ps), {}) else f.round (decide (t < 0)) t.natAbs e

/-- A finite or infinite word as an integer that orders it; −0 lies just below +0 (R172). -/
def key (f : FFmt) (v : Nat) : Int :=
  let m : Int := ((v % 2 ^ (f.eb + f.mb) : Nat) : Int)
  if f.sign v then -m - 1 else m

/-- Equality of numbers: the two zeros are equal. -/
def eqv (f : FFmt) (a b : Nat) : Bool := (f.isZero a && f.isZero b) || f.key a == f.key b
/-- Less-than of numbers. -/
def ltv (f : FFmt) (a b : Nat) : Bool := !(f.isZero a && f.isZero b) && decide (f.key a < f.key b)

/-- minimumNumber and maximumNumber (R172). -/
def minmax (f : FFmt) (mx : Bool) (a b : Nat) : Nat × FFlags :=
  let fl : FFlags := { nv := f.isSNaN a || f.isSNaN b }
  if f.isNaN a then (if f.isNaN b then f.qnan else b, fl)
  else if f.isNaN b then (a, fl)
  else (if decide (f.key a < f.key b) != mx then a else b, fl)

/-- FCMP and the vector compares (R173): cc 0 EQ, 1 LT, 2 LE, 3 UN. -/
def cmp (f : FFmt) (cc a b : Nat) : Bool × FFlags :=
  let un := f.isNaN a || f.isNaN b
  let sn := f.isSNaN a || f.isSNaN b
  match cc with
  | 0 => (!un && f.eqv a b, { nv := sn })
  | 1 => (!un && f.ltv a b, { nv := un })
  | 2 => (!un && (f.ltv a b || f.eqv a b), { nv := un })
  | _ => (un, { nv := sn })

/-- A conversion between formats. -/
def conv (f g : FFmt) (a : Nat) : Nat × FFlags :=
  if f.isNaN a then (g.qnan, { nv := f.isSNaN a })
  else if f.isInf a then (g.inf (f.sign a), {})
  else if f.isZero a then (g.zero (f.sign a), {})
  else g.round (f.sign a) (f.sig a) (f.pow a)

/-- A signed integer as a floating-point number. -/
def ofInt (f : FFmt) (x : Int) : Nat × FFlags := f.round (decide (x < 0)) x.natAbs 0

/-- A conversion to D: nearest even, saturated to 32 bits with NV if out of range; a NaN gives 0 with NV (R173). -/
def toInt (f : FFmt) (a : Nat) : Int × FFlags :=
  if f.isNaN a then (0, { nv := true })
  else if f.isInf a then (if f.sign a then -2147483648 else 2147483647, { nv := true })
  else
    let e := f.pow a
    let (m, nx) := if 0 ≤ e then (f.sig a <<< e.toNat, false) else rne (f.sig a) (-e).toNat
    let x : Int := if f.sign a then -(m : Int) else (m : Int)
    if x < -2147483648 then (-2147483648, { nv := true })
    else if 2147483647 < x then (2147483647, { nv := true })
    else (x, { nx := nx })

/-- An exact product c × a compared with 1: |c·a − 1| < num × 2^−14. Both words finite. -/
def nearOne (num m : Nat) (e : Int) (sq : Bool) : Bool :=
  -- m × 2^e against (1 ± d)^k, d = num / 2^14, k = 2 for a square
  let k := if sq then 2 else 1
  let lo := (2 ^ 14 - num) ^ k
  let hi := (2 ^ 14 + num) ^ k
  let e' := e + ((14 * k : Nat) : Int)
  if 0 ≤ e' then decide (lo < m <<< e'.toNat) && decide (m <<< e'.toNat < hi)
  else decide (lo <<< (-e').toNat < m) && decide (m < hi <<< (-e').toNat)

/-- A candidate estimate of 1/a: finite, of a's sign, and with a relative error below num × 2^−14. -/
def rcpOk (f : FFmt) (num a c : Nat) : Bool :=
  decide (c < 2 ^ f.width) && f.expo c != f.emax && f.sign c == f.sign a &&
    nearOne num (f.sig c * f.sig a) (f.pow c + f.pow a) false

/-- A candidate estimate of 1/√a: finite, positive, and with a relative error below num × 2^−14. -/
def rsqOk (f : FFmt) (num a c : Nat) : Bool :=
  decide (c < 2 ^ f.width) && f.expo c != f.emax && !f.sign c &&
    nearOne num (f.sig c * f.sig c * f.sig a) (2 * f.pow c + f.pow a) true

/-- 1/a rounded to the last place: what the model falls back to where the free estimate breaks its bound. -/
def rcpNear (f : FFmt) (a : Nat) : Nat :=
  let n := 2 ^ (3 * f.mb)
  (f.round (f.sign a) (n / f.sig a) (-((3 * f.mb : Nat) : Int) - f.pow a)).1

/-- 1/√a to about twice the format's precision, rounded. -/
def rsqNear (f : FFmt) (a : Nat) : Nat :=
  let odd := (f.pow a) % 2 = 1
  let m := if odd then 2 * f.sig a else f.sig a
  let e := if odd then f.pow a - 1 else f.pow a
  let k := 3 * f.mb
  (f.round false (Nat.sqrt (2 ^ (2 * k) / m)) (-((k : Nat) : Int) - e / 2)).1

/-- The bound of R173 in units of 2^−14: 1 where some value of the format meets it; else half a last place more (DEDUCED, log entry 49). -/
def estimateBound (f : FFmt) (met : Bool) : Nat := if met || 14 ≤ f.mb then 1 else 1 + 2 ^ (14 - f.mb - 1)

/-- FRCP (R173): an estimate with relative error below 2^−14. Its value within that bound is free
(`Config.frcpEstimate`); below the smallest normal it is a zero of a's sign. -/
def rcp (f : FFmt) (a : Nat) : Nat × FFlags :=
  if f.isNaN a then (f.qnan, { nv := f.isSNaN a })
  else if f.isZero a then (f.inf (f.sign a), { dz := true })
  else if f.isInf a then (f.zero (f.sign a), {})
  else
    let n := f.rcpNear a
    if f.expo n = 0 then (f.zero (f.sign a), {})
    else
      let c := Config.frcpEstimate f.mb a
      if f.isInf n then (c % 2 ^ f.width, {})           -- beyond the format: the manual states no result
      else (if f.rcpOk (f.estimateBound (f.rcpOk 1 a n)) a c && f.expo c != 0 then c else n, {})

/-- FRSQ (R173): as FRCP, for 1/√a. -/
def rsq (f : FFmt) (a : Nat) : Nat × FFlags :=
  if f.isNaN a then (f.qnan, { nv := f.isSNaN a })
  else if f.isZero a then (f.inf (f.sign a), { dz := true })
  else if f.sign a then (f.qnan, { nv := true })
  else if f.isInf a then (f.zero false, {})
  else
    let c := Config.frsqEstimate f.mb a
    let n := f.rsqNear a
    (if f.rsqOk (f.estimateBound (f.rsqOk 1 a n)) a c then c else n, {})

end FFmt

end Sys2Proof.Machine
end

