-- ==== Sys2Proof/Machine/PozelAlu.lean ====
section
/-! DEFINITION. The arithmetic of the Pozel operations on values alone: scalar ALU, fixed-point rounding and saturation
(R168, R169), complex products (R170), floating point (R171 to R173), vector lanes (R161, R162) and headroom (R177). -/

namespace Sys2Proof.Machine

/-! ### Scalar -/

/-- A 40-bit result, wrapping. -/
def d40 (x : Int) : DReg := BitVec.ofInt 40 x

/-- NORM: the bits below bit 39 equal to bit 39 (R174); also the headroom of a value of width `w` (R177). -/
def headroom (w v : Nat) : Nat :=
  let x := v % 2 ^ w
  let y := if tb x (w - 1) then 2 ^ w - 1 - x else x      -- sign bits read as zeros
  if y = 0 then w - 1 else w - 2 - Nat.log2 y

/-- The scalar ALU (R174) but for CMP and PLOG, which write predicates. `b` is Db or the immediate. -/
def scalarAlu (op : SOp) (a b : DReg) (shiftBy : Nat) : DReg :=
  match op with
  | .add => a + b
  | .sub => a - b
  | .and => a &&& b
  | .or => a ||| b
  | .xor => a ^^^ b
  | .andn => a &&& ~~~b
  | .shl => if 40 ≤ shiftBy then 0 else a <<< shiftBy
  | .shr => if 40 ≤ shiftBy then 0 else a >>> shiftBy
  | .shra => if 40 ≤ shiftBy then (if a.msb then BitVec.allOnes 40 else 0) else a.sshiftRight shiftBy
  | .min => if a.sle b then a else b
  | .max => if a.sle b then b else a
  | .abs => if a.msb then -a else a
  | .neg => -a
  | .mov => a
  | .norm => BitVec.ofNat 40 (headroom 40 a.toNat)
  | .cmp | .plog => a

/-- CMP.cc (R174). -/
def scalarCmp (cc : Nat) (a b : DReg) : Bool :=
  match cc with
  | 0 => a == b
  | 1 => a != b
  | 2 => a.slt b
  | 3 => a.sle b
  | 4 => a.ult b
  | _ => a.ule b

/-- PLOG.fn (R174). -/
def predLogic (fn : Nat) (a b : Bool) : Bool :=
  match fn with
  | 0 => a && b
  | 1 => a || b
  | 2 => a != b
  | 3 => a && !b
  | _ => !a

/-- round(x, s) of R168: half a last place added, then truncated towards minus infinity. -/
def fxRound (x : Int) (s : Nat) : Int :=
  if s = 0 then x else (x + ((2 ^ (s - 1) : Nat) : Int)) / ((2 ^ s : Nat) : Int)

/-- sat(y, w) of R168, and whether it set SR.SAT. -/
def fxSat (y : Int) (w : Nat) : Int × Bool :=
  let hi : Int := ((2 ^ (w - 1) : Nat) : Int) - 1
  if hi < y then (hi, true) else if y < -hi - 1 then (-hi - 1, true) else (y, false)

/-- MPY, MAC, MSU, RND (R169). `acc` is the accumulator, `b` the second operand, `s` the rounding shift. -/
def scalarMul (op : MOp) (acc a b : DReg) (s : Nat) : DReg × Bool :=
  let p := sx 16 a.toNat * sx 16 b.toNat
  match op with
  | .mpy => (d40 p, false)
  | .mac => let r := fxSat (acc.toInt + p) 40; (d40 r.1, r.2)
  | .msu => let r := fxSat (acc.toInt - p) 40; (d40 r.1, r.2)
  | .rndH => let r := fxSat (fxRound a.toInt s) 16; (d40 r.1, r.2)
  | .rndW => let r := fxSat (fxRound a.toInt s) 32; (d40 r.1, r.2)

/-- The format a scalar or vector floating-point type names. -/
def Ty.fmt : Ty → FFmt
  | .hf => f16
  | _ => f32

/-- A binary floating-point operation that writes F (R171, R172). -/
def fpBin (op : FOp) (f : FFmt) (d a b : Nat) : Nat × FFlags :=
  match op with
  | .fadd => f.add a b
  | .fsub => f.sub a b
  | .fmul => f.mul a b
  | .fma => f.fma d a b
  | .fmin => f.minmax false a b
  | .fmax => f.minmax true a b
  | .frcp => f.rcp a
  | .frsq => f.rsq a
  | .fneg => (f.neg a, {})
  | .fabs => (f.abs a, {})
  | .fcmp | .fcvt => (a, {})

/-! ### Vectors -/

/-- The lane width of a type (R155). -/
def Ty.lane : Ty → Nat
  | .h => 16 | .w => 32 | .c => 32 | .l => 64 | .f => 32 | .hf => 16

/-- The component width: a complex lane holds two 16-bit components (R161). -/
def Ty.comp : Ty → Nat
  | .h => 16 | .w => 32 | .c => 16 | .l => 64 | .f => 32 | .hf => 16

/-- Floating-point lanes. -/
def Ty.isFp : Ty → Bool
  | .f | .hf => true
  | _ => false

/-- The fields of a vector, `w` bits each, lane 0 first (R161). -/
def lanesOf (w : Nat) (v : VReg) : List Nat :=
  (List.range (1024 / w)).map fun i => fld v.toNat (w * i + w - 1) (w * i)

/-- A vector from its fields, lane 0 first. -/
def ofLanes (w : Nat) (l : List Nat) : VReg :=
  BitVec.ofNat 1024 (l.foldr (fun x acc => x % 2 ^ w + acc * 2 ^ w) 0)

/-- What a vector operation yields: a register or a pair, or a D result, and its flags. -/
structure VRes where
  lo : VReg := 0
  hi : Option VReg := none          -- the second register of a pair (R162)
  d : Option DReg := none           -- VEXT and VRADD write D
  sat : Bool := false
  fl : FFlags := {}
  hr : Nat := 31                    -- the least headroom of the result (R178)
  deriving DecidableEq, Repr

/-- Integer results of width `w` from exact values, saturated. -/
def satLanes (w : Nat) (xs : List Int) : VRes :=
  let r := xs.map fun x => fxSat x w
  { lo := ofLanes w (r.map fun p => wrap w p.1), sat := r.any (·.2) }

/-- Integer results of width `w` from exact values, wrapping. -/
def wrapLanes (w : Nat) (xs : List Int) : VRes := { lo := ofLanes w (xs.map (wrap w)) }

/-- Pair results (R162) of width `w` from exact values, saturated. -/
def satPair (w : Nat) (xs : List Int) : VRes :=
  let r := xs.map fun x => fxSat x w
  let l := r.map fun p => wrap w p.1
  let n := 1024 / w
  { lo := ofLanes w (l.take n), hi := some (ofLanes w (l.drop n)), sat := r.any (·.2) }

/-- Floating-point results lane by lane; a flag is the OR over the lanes (R171). -/
def fpLanes (f : FFmt) (rs : List (Nat × FFlags)) : VRes :=
  { lo := ofLanes f.width (rs.map (·.1)), fl := rs.foldl (fun a r => a.or r.2) {} }

/-- The signed fields of a vector. -/
def sLanes (w : Nat) (v : VReg) : List Int := (lanesOf w v).map (sx w)

/-- The pair's fields in order (R162). -/
def pairLanes (w : Nat) (lo hi : VReg) : List Int := sLanes w lo ++ sLanes w hi

/-- Complex lanes as (real, imaginary). -/
def cpxLanes (v : VReg) : List (Int × Int) :=
  (lanesOf 32 v).map fun x => (sx 16 (x % 65536), sx 16 (x / 65536))

/-- The exact complex product, with the conjugate of b where `cj` (R170). -/
def cmul (cj : Bool) (a b : Int × Int) : Int × Int :=
  if cj then (a.1 * b.1 + a.2 * b.2, a.2 * b.1 - a.1 * b.2)
  else (a.1 * b.1 - a.2 * b.2, a.1 * b.2 + a.2 * b.1)

/-- Complex values as a list of components, real first. -/
def flat (l : List (Int × Int)) : List Int := l.flatMap fun p => [p.1, p.2]

/-- Multiplication by a power of j (VMULJ). -/
def mulJ (k : Nat) (p : Int × Int) : Int × Int :=
  match k % 4 with
  | 0 => p
  | 1 => (-p.2, p.1)
  | 2 => (-p.1, -p.2)
  | _ => (p.2, -p.1)

/-- The operands of a vector operation: registers Va, Vb, Vd and its pair partner, the pair partner of SA, the
scalar D operand, and BXR.SH. -/
structure VArgs where
  a : VReg
  a1 : VReg
  b : VReg
  d : VReg
  d1 : VReg
  s : DReg
  sb : Nat
  sh : Nat
  deriving DecidableEq, Repr

/-- The multiplier fields of VMAC: a vector operand, or D[SB] broadcast (R170, R174). -/
def macOperand (op : VOp) (ty : Ty) (x : VArgs) : VReg :=
  if op = .vmacS then
    match ty with
    | .h => ofLanes 16 (List.replicate 64 (x.s.toNat % 65536))
    | _ => ofLanes 32 (List.replicate 32 (x.s.toNat % 2 ^ 32))
  else x.b

/-- Every vector operation of R174 on its operands. -/
def vecOp (op : VOp) (ty : Ty) (x : VArgs) : VRes :=
  let cw := ty.comp
  let lw := ty.lane
  let za := sLanes cw x.a
  let zb := sLanes cw x.b
  let f := ty.fmt
  let fa := lanesOf lw x.a
  let fb := lanesOf lw x.b
  match op with
  | .vadd => if ty.isFp then fpLanes f (List.zipWith f.add fa fb) else wrapLanes cw (List.zipWith (· + ·) za zb)
  | .vsub => if ty.isFp then fpLanes f (List.zipWith f.sub fa fb) else wrapLanes cw (List.zipWith (· - ·) za zb)
  | .vadds => satLanes cw (List.zipWith (· + ·) za zb)
  | .vsubs => satLanes cw (List.zipWith (· - ·) za zb)
  | .vmul => if ty.isFp then fpLanes f (List.zipWith f.mul fa fb) else wrapLanes cw (List.zipWith (· * ·) za zb)
  | .vmulr =>
    if ty = .c then satLanes 16 ((flat (List.zipWith (cmul false) (cpxLanes x.a) (cpxLanes x.b))).map fun y => fxRound y 15)
    else satLanes cw (List.zipWith (fun a b => fxRound (a * b) (cw - 1)) za zb)
  | .vcmpyc => satLanes 16 ((flat (List.zipWith (cmul true) (cpxLanes x.a) (cpxLanes x.b))).map fun y => fxRound y 15)
  | .vmac | .vmacS =>
    let m := macOperand op ty x
    if ty = .c then
      satPair 32 (List.zipWith (· + ·) (pairLanes 32 x.d x.d1)
        (flat (List.zipWith (cmul false) (cpxLanes x.a) (cpxLanes m))))
    else satPair (2 * cw) (List.zipWith (· + ·) (pairLanes (2 * cw) x.d x.d1) (List.zipWith (· * ·) za (sLanes cw m)))
  | .vfma => fpLanes f (List.zipWith (fun d (p : Nat × Nat) => f.fma d p.1 p.2) (lanesOf lw x.d) (List.zip fa fb))
  | .vand => { lo := x.a &&& x.b }
  | .vor => { lo := x.a ||| x.b }
  | .vxor => { lo := x.a ^^^ x.b }
  | .vandn => { lo := x.a &&& ~~~x.b }
  | .vsel => { lo := (x.d &&& x.a) ||| (~~~x.d &&& x.b) }
  | .vmov => { lo := x.a }
  | .vshl => wrapLanes cw (za.map fun a => a * ((2 ^ x.sb : Nat) : Int))
  | .vshls => satLanes cw (za.map fun a => a * ((2 ^ x.sb : Nat) : Int))
  | .vshr => { lo := ofLanes cw ((lanesOf cw x.a).map fun a => a >>> x.sb) }
  | .vshra => wrapLanes cw (za.map fun a => a / ((2 ^ x.sb : Nat) : Int))
  | .vshrr => wrapLanes cw (za.map fun a => fxRound a x.sb)
  | .vshrb => wrapLanes cw (za.map fun a => fxRound a x.sh)
  | .vmin => if ty.isFp then fpLanes f (List.zipWith (f.minmax false) fa fb) else wrapLanes cw (List.zipWith min za zb)
  | .vmax => if ty.isFp then fpLanes f (List.zipWith (f.minmax true) fa fb) else wrapLanes cw (List.zipWith max za zb)
  | .vabs => if ty.isFp then { lo := ofLanes lw (fa.map f.abs) } else satLanes cw (za.map fun a => if a < 0 then -a else a)
  | .vneg => if ty.isFp then { lo := ofLanes lw (fa.map f.neg) } else satLanes cw (za.map fun a => -a)
  | .vmulj => satLanes 16 (flat ((cpxLanes x.a).map fun p => mulJ (x.sb % 4) (if tb x.sb 2 then (p.1, -p.2) else p)))
  | .vcmpeq | .vcmplt | .vcmple =>
    let cc := match op with | .vcmpeq => 0 | .vcmplt => 1 | _ => 2
    if ty.isFp then
      let rs := List.zipWith (f.cmp cc) fa fb
      { lo := ofLanes lw (rs.map fun r => if r.1 then 2 ^ lw - 1 else 0), fl := rs.foldl (fun a r => a.or r.2) {} }
    else
      let t (a b : Int) : Bool := match cc with | 0 => a == b | 1 => decide (a < b) | _ => decide (a ≤ b)
      { lo := ofLanes cw (List.zipWith (fun a b => if t a b then 2 ^ cw - 1 else 0) za zb) }
  | .vbcast =>
    { lo := if ty = .l then ofLanes 64 (List.replicate 16 (wrap 64 x.s.toInt))
            else ofLanes lw (List.replicate (1024 / lw) (x.s.toNat % 2 ^ lw)) }
  | .vext => { d := some (d40 (sx 32 (fld x.a.toNat (32 * x.sb + 31) (32 * x.sb)))) }
  | .vintlL | .vintlH =>
    let n := 1024 / lw / 2
    let half (l : List Nat) := if op = .vintlL then l.take n else l.drop n
    { lo := ofLanes lw ((List.zip (half fa) (half fb)).flatMap fun p => [p.1, p.2]) }
  | .vdintlE | .vdintlO =>
    let off := if op = .vdintlE then 0 else 1
    let pick (l : List Nat) := (List.range (1024 / lw / 2)).map fun i => l.getD (2 * i + off) 0
    { lo := ofLanes lw (pick fa ++ pick fb) }
  | .vpack => satLanes cw ((pairLanes (2 * cw) x.a x.a1).map fun y => fxRound y x.sb)
  | .vwiden =>
    let l := za.map (wrap (2 * cw))
    let n := 1024 / (2 * cw)
    { lo := ofLanes (2 * cw) (l.take n), hi := some (ofLanes (2 * cw) (l.drop n)) }
  | .vradd => let r := fxSat (za.foldl (· + ·) 0) 40; { d := some (d40 r.1), sat := r.2 }
  | .bexp => { hr := ((lanesOf cw x.a).map (headroom cw)).foldl min 31 }

/-- The least headroom over the lanes of a result, as words of their width (R177, R178). -/
def resultHeadroom (ty : Ty) (v : VReg) : Nat := ((lanesOf ty.comp v).map (headroom ty.comp)).foldl min 31

end Sys2Proof.Machine
end

