-- ==== Sys2Proof/Machine/Trig.lean ====
section
/-! DEFINITION. Sines, cosines and exponentials in fixed point, exact enough that a sample rounded from them is the one that the real value
rounds to: 64 bits after the point and more. Chapters 6 and 7 name these functions and no width for their tables. -/

namespace Sys2Proof.Machine

/-- One in the fixed point of this file. -/
def fixOne : Nat := 2 ^ 64

/-- π. -/
def fixPi : Nat := 57952155664616982739

/-- Terms of Σ ± x^k / k! for k = i, i + 2, …, from the term `t` on; `xx` is x². -/
def sinTerms : Nat → Nat → Int → Int → Int
  | 0, _, _, _ => 0
  | n + 1, i, xx, t => t + sinTerms n (i + 2) xx (-(t * xx / (fixOne : Int)) / ((i + 1) * (i + 2) : Nat))

/-- A value that differs from 0, 1/2 or 1 by rounding alone is that value. -/
def fixSnap (x : Int) : Int :=
  match [0, (fixOne : Int) / 2, (fixOne : Int)].find? fun y => decide ((x - y).natAbs < 4096) with
  | some y => y
  | none => x

/-- Cosine and sine of 2π a / b for an angle of at most an eighth of a turn. -/
def cosSinSmall (a b : Nat) : Int × Int :=
  let x : Int := (2 * fixPi * a / b : Nat)
  let xx := x * x / (fixOne : Int)
  (fixSnap (sinTerms 14 0 xx fixOne), fixSnap (sinTerms 14 1 xx x))

/-- Cosine and sine of 2π n / d, `d` not zero. -/
def cosSin (n d : Nat) : Int × Int :=
  let u := n % d
  let o := 8 * u / d
  let a := cosSinSmall (if o % 2 = 0 then 4 * u - o / 2 * d else (o + 1) / 2 * d - 4 * u) (4 * d)
  match o with
  | 0 => (a.1, a.2)
  | 1 => (a.2, a.1)
  | 2 => (-a.2, a.1)
  | 3 => (-a.1, a.2)
  | 4 => (-a.1, -a.2)
  | 5 => (-a.2, -a.1)
  | 6 => (a.2, -a.1)
  | _ => (a.1, -a.2)

/-- The cosine and sine of n / d turns for a whole number n. -/
def turn (n : Int) (d : Nat) : Int × Int := cosSin (n % (d : Int)).toNat d

/-- Terms of Σ x^k / k!. -/
def expTerms : Nat → Nat → Nat → Nat → Nat
  | 0, _, _, _ => 0
  | n + 1, k, x, t => t + expTerms n (k + 1) x (t * x / fixOne / (k + 1))

/-- e^−x: of x / 2^10 by its series, then squared ten times. -/
def expNeg (x : Nat) : Nat :=
  let y := fixOne * fixOne / expTerms 12 0 (x / 2 ^ 10) fixOne
  (List.range 10).foldl (fun v _ => v * v / fixOne) y

/-- A real value of this fixed point times an integer, rounded as R168 rounds with a further shift of `s`: half an LSB added, then truncated
toward minus infinity. -/
def fixRound (x : Int) (s : Nat) : Int := (x + (2 ^ (63 + s) : Nat)) / ((2 ^ (64 + s) : Nat) : Int)

end Sys2Proof.Machine
end

