-- ==== Sys2Proof/Machine/Fourier.lean ====
section
/-! DEFINITION. The transforms of R216 and R218 in stages: each butterfly with its twiddles exactly, its output rounded under R168 and
saturated, with the shift of the schedule or that of block floating point. The stages divide the frequencies (decimation in frequency, as
the example of R180), in the order in which R218 counts them (DEDUCED, log entry 50). -/

namespace Sys2Proof.Machine

/-- A complex sample. -/
abbrev Cplx := Int × Int

/-- How often a prime divides a number. -/
def timesDivides (p : Nat) : Nat → Nat → Nat
  | 0, _ => 0
  | f + 1, n => if n % p = 0 ∧ n ≠ 0 then timesDivides p f (n / p) + 1 else 0

/-- The radices of a transform's stages (R218). -/
def radices (n : Nat) : List Nat :=
  let a := timesDivides 2 13 n
  (if a % 2 = 1 then [2] else []) ++ List.replicate (a / 2) 4 ++ List.replicate (timesDivides 3 8 n) 3 ++ List.replicate (timesDivides 5 6 n) 5

/-- Output `m`, `i` of a radix-r stage over a block of n samples, exact: Σ x[i + j n/r] · e^(∓j2π m (i + j n/r) / n), in fixed point. -/
def butterfly (inverse : Bool) (r m i : Nat) (x : List Cplx) : Cplx :=
  let n := x.length
  (List.range r).foldl (fun (a : Cplx) j =>
    let p := i + j * (n / r)
    let v := nth (0, 0) x p
    let w := cosSin (m * p) n
    let s := if inverse then w.2 else -w.2
    (a.1 + v.1 * w.1 - v.2 * s, a.2 + v.1 * s + v.2 * w.1)) (0, 0)

/-- A stage over every block: each gives r blocks, of the frequencies that leave m. -/
def stageExact (inverse : Bool) (r : Nat) (blocks : List (List Cplx)) : List (List Cplx) :=
  blocks.flatMap fun x => (List.range r).map fun m => (List.range (x.length / r)).map fun i => butterfly inverse r m i x

/-- The samples of a stage rounded with a shift and saturated; how many components saturated. -/
def stageRound (s : Nat) (blocks : List (List Cplx)) : List (List Cplx) × Nat :=
  let ys := blocks.map fun b => b.map fun v => (fxSat (fixRound v.1 s) 16, fxSat (fixRound v.2 s) 16)
  (ys.map fun b => b.map fun v => (v.1.1, v.2.1), (ys.map fun b => (b.map fun v => bn v.1.2 + bn v.2.2).sum).sum)

/-- The stages of a transform: `shift` gives the shift after stage i, none the least that avoids saturation. The blocks at the end, the total
shift and the saturations. -/
def stagesOf (inverse : Bool) (shift : Option (Nat → Nat)) : List Nat → Nat → List (List Cplx) → List (List Cplx) × Nat × Nat
  | [], _, x => (x, 0, 0)
  | r :: rs, i, x =>
    let y := stageExact inverse r x
    let s := match shift with
      | some f => f i
      | none => ((List.range 24).find? fun s => decide ((stageRound s y).2 = 0)).getD 24
    let q := stageRound s y
    let t := stagesOf inverse shift rs (i + 1) q.1
    (t.1, s + t.2.1, q.2 + t.2.2)

/-- r lists interleaved: element k r + m is element k of list m. -/
def interleaveLists (r : Nat) (l : List (List Cplx)) : List Cplx :=
  (List.range (r * ((l.headD []).length))).map fun p => nth (0, 0) (nth [] l (p % r)) (p / r)

/-- The blocks of the last stage put back into natural order, stage by stage. -/
def naturalOrder : List Nat → List (List Cplx) → List Cplx
  | [], bs => bs.headD []
  | r :: rs, bs => naturalOrder rs ((List.range (bs.length / r)).map fun g => interleaveLists r ((bs.drop (g * r)).take r))

/-- A transform: its samples, e and the saturations. -/
def transform (inverse : Bool) (shift : Option (Nat → Nat)) (x : List Cplx) : List Cplx × Nat × Nat :=
  let rs := radices x.length
  let r := stagesOf inverse shift rs 0 [x]
  (naturalOrder rs.reverse r.1, r.2)

end Sys2Proof.Machine
end

