-- ==== Sys2Proof/Machine/Matrix.lean ====
section
/-! DEFINITION. Complex binary32 matrices as the Array engines use them (R192 to R194): sums of products, the Cholesky factor, triangular
solutions and the MMSE weights. Every operation is a binary32 operation of R171; in which order a sum is added up, which products are fused
into it and whether a quotient goes over a reciprocal the specification does not say: an uninterpreted order decides. The formulas of R193
are evaluated by way of the two factorisations that R194 and R196 name (DEDUCED, log entry 50). -/

namespace Sys2Proof.Machine

/-! ### Sums in an order that is not stated -/

/-- A term of a sum: a word, or a product of two. -/
inductive Term
  | val (w : Nat)
  | prod (neg : Bool) (a b : Nat)
  deriving DecidableEq, Repr

/-- A term rounded to a word. -/
def Term.word : Term → Nat
  | .val w => w
  | .prod neg a b => let p := (f32.mul a b).1; if neg then f32.neg p else p

/-- Two terms added: a product into a word with one rounding where it is fused. -/
def Term.plus (fused : Bool) (x y : Term) : Nat :=
  match fused, x, y with
  | true, .val c, .prod neg a b => (f32.fma c (if neg then f32.neg a else a) b).1
  | true, .prod neg a b, .val c => (f32.fma c (if neg then f32.neg a else a) b).1
  | _, _, _ => (f32.add x.word y.word).1

/-- A sum: two terms taken and added until one is left, in the order that `key` gives. -/
def sumTerms (key : Nat → Nat) : Nat → Nat → List Term → Nat
  | 0, _, ts => ((ts.headD (.val 0))).word
  | f + 1, i, ts =>
    match ts with
    | [] => 0
    | [t] => t.word
    | t :: u :: rest =>
      let all := t :: u :: rest
      let a := key i % all.length
      let less := all.eraseIdx a
      let b := key (i + 1) % less.length
      sumTerms key f (i + 3) (.val ((nth t all a).plus (key (i + 2) % 2 == 1) (nth u less b)) :: less.eraseIdx b)

/-- A sum whose place in the computation is `place`. -/
def sum32At (key : Nat → Nat → Nat) (place : Nat) (ts : List Term) : Nat := sumTerms (key place) ts.length 0 ts

/-! ### Division and square root of R171 -/

/-- a / b, rounded once. -/
def FFmt.div (f : FFmt) (a b : Nat) : Nat :=
  let s := f.sign a != f.sign b
  if f.isNaN a || f.isNaN b || (f.isInf a && f.isInf b) || (f.isZero a && f.isZero b) then f.qnan
  else if f.isInf a || f.isZero b then f.inf s
  else if f.isInf b || f.isZero a then f.zero s
  else
    let k := 2 * f.mb + 4
    let n := f.sig a * 2 ^ k
    let q := n / f.sig b
    (f.round s (2 * q + bn (decide (n % f.sig b ≠ 0))) (f.pow a - f.pow b - ((k + 1 : Nat) : Int))).1

/-- √a, rounded once. -/
def FFmt.sqrt (f : FFmt) (a : Nat) : Nat :=
  if f.isNaN a then f.qnan
  else if f.isZero a then a
  else if f.sign a then f.qnan
  else if f.isInf a then a
  else
    let odd := f.pow a % 2 = 1
    let m := (if odd then 2 * f.sig a else f.sig a) * 2 ^ (2 * f.mb + 8)
    let e := (if odd then f.pow a - 1 else f.pow a) / 2 - ((f.mb + 4 : Nat) : Int)
    let r := isqrt m
    (f.round false (2 * r + bn (decide (r * r ≠ m))) (e - 1)).1

/-- A quotient, direct or over the reciprocal. -/
def quot (recip : Bool) (a b : Nat) : Nat := if recip then (f32.mul a (f32.div 0x3F800000 b)).1 else f32.div a b

/-! ### Complex words and matrices -/

/-- A complex binary32 value: real and imaginary words. -/
abbrev C32 := Nat × Nat

/-- A matrix by rows. -/
abbrev CMat := List (List C32)

def CMat.at' (m : CMat) (i j : Nat) : C32 := nth (0, 0) (nth [] m i) j

def C32.conj (a : C32) : C32 := (a.1, f32.neg a.2)

/-- The conjugate transpose of a matrix with `n` columns. -/
def CMat.herm (m : CMat) (n : Nat) : CMat := (List.range n).map fun j => m.map fun r => C32.conj (nth (0, 0) r j)

/-- a·b as terms of the real and the imaginary part, subtracted where `neg`. -/
def mulTerms (neg : Bool) (a b : C32) : List Term × List Term :=
  ([.prod neg a.1 b.1, .prod (!neg) a.2 b.2], [.prod neg a.1 b.2, .prod neg a.2 b.1])

/-- A complex value, plus or minus Σ a·b. -/
def mulSum (key : Nat → Nat → Nat) (place : Nat) (neg : Bool) (c : Option C32) (ps : List (C32 × C32)) : C32 :=
  let ts := ps.map fun p => mulTerms neg p.1 p.2
  let re := (match c with | some c => [Term.val c.1] | none => []) ++ ts.flatMap (·.1)
  let im := (match c with | some c => [Term.val c.2] | none => []) ++ ts.flatMap (·.2)
  (sum32At key (2 * place) re, sum32At key (2 * place + 1) im)

/-- A complex value divided by a complex one; a real divisor divides both parts. -/
def cquot (key : Nat → Nat → Nat) (place : Nat) (a b : C32) : C32 :=
  let recip := key (2 * place) 999 % 2 == 1
  if f32.isZero b.2 then (quot recip a.1 b.1, quot recip a.2 b.1)
  else
    let den := sum32At key (2 * place + 1) [.prod false b.1 b.1, .prod false b.2 b.2]
    let num := mulSum key place false none [(a, b.conj)]
    (quot recip num.1 den, quot recip num.2 den)

/-- Row `i` of the lower factor from the rows before, or none where its pivot is not positive or a NaN (R194). -/
def cholRow (key : Nat → Nat → Nat) (n noise : Nat) (q : CMat) (rows : CMat) (i : Nat) : Option (List C32) :=
  let row := (List.range i).foldl (fun (r : List C32) j =>
    let v := mulSum key (i * n + j) true (some (q.at' i j)) ((List.range j).map fun k => (nth (0, 0) r k, (rows.at' j k).conj))
    r ++ [cquot key (i * n + j) v (rows.at' j j)]) []
  let p := sum32At key (2 * (i * n + i))
    ([Term.val (q.at' i i).1, .val noise] ++ row.flatMap fun v => [Term.prod true v.1 v.1, .prod true v.2 v.2])
  if f32.isNaN p || !f32.ltv 0 p then none
  else some (row ++ [(f32.sqrt p, 0)] ++ List.replicate (n - i - 1) (0, 0))

/-- The lower factor G with G·Gᴴ = Q + noise·I. -/
def chol (key : Nat → Nat → Nat) (n noise : Nat) (q : CMat) : Option CMat :=
  (List.range n).foldl (fun (g : Option CMat) i => g.bind fun rows => (cholRow key n noise q rows i).map fun r => rows ++ [r]) (some [])

/-- X with G·X = B, for a lower G. -/
def solveLower (key : Nat → Nat → Nat) (n l : Nat) (g b : CMat) : CMat :=
  (List.range n).foldl (fun (x : CMat) i => x ++ [(List.range l).map fun c =>
    cquot key (i * l + c)
      (mulSum key (i * l + c) true (some (b.at' i c)) ((List.range i).map fun k => (g.at' i k, x.at' k c))) (g.at' i i)]) []

/-- X with Gᴴ·X = B, for a lower G. -/
def solveUpper (key : Nat → Nat → Nat) (n l : Nat) (g b : CMat) : CMat :=
  (List.range n).foldl (fun (x : CMat) t =>
    let i := n - 1 - t
    -- the rows found so far are i + 1, …, n − 1
    ((List.range l).map fun c =>
      cquot key (i * l + c)
        (mulSum key (i * l + c) true (some (b.at' i c)) ((List.range (n - 1 - i)).map fun k => ((g.at' (i + 1 + k) i).conj, x.at' k c)))
        (g.at' i i).conj) :: x) []

/-- A·B for A of `n` rows, B of `l` columns. -/
def matMul (key : Nat → Nat → Nat) (inner l : Nat) (a b : CMat) : CMat :=
  a.zipIdx.map fun r => (List.range l).map fun c =>
    mulSum key (r.2 * l + c) false none ((List.range inner).map fun k => (nth (0, 0) r.1 k, b.at' k c))

/-- Matrix with 1 added along its diagonal. -/
def plusOne (key : Nat → Nat → Nat) (l : Nat) (m : CMat) : CMat :=
  m.zipIdx.map fun r => r.1.zipIdx.map fun v =>
    if r.2 = v.2 then (sum32At key (r.2 * l + v.2) [.val v.1.1, .val 0x3F800000], v.1.2) else v.1

/-- W and the SINRs of R193, or none where a factorisation fails: with Z = G⁻¹H, HᴴQ⁻¹H = ZᴴZ, and W = (ZᴴZ + I)⁻¹·Zᴴ·G⁻¹. -/
def mmse (key : Nat → Nat → Nat → Nat) (n l noise : Nat) (q h : CMat) : Option (CMat × List Nat) :=
  match chol (key 0) n noise q with
  | none => none
  | some g =>
    let z := solveLower (key 1) n l g h
    let m := plusOne (key 2) l (matMul (key 3) n l (z.herm l) z)
    match chol (key 4) l 0 m with
    | none => none
    | some r =>
      let y := solveUpper (key 5) n l g z                                     -- Q⁻¹H
      let w := solveUpper (key 7) l n r (solveLower (key 6) l n r (y.herm l))
      let ri := solveLower (key 8) l l r ((List.range l).map fun i => (List.range l).map fun j => (if i = j then 0x3F800000 else 0, 0))
      let sinr := (List.range l).map fun c =>
        let d := sum32At (key 9) c ((List.range l).flatMap fun k => [Term.prod false (ri.at' k c).1 (ri.at' k c).1, .prod false (ri.at' k c).2 (ri.at' k c).2])
        (f32.sub (f32.div 0x3F800000 d) 0x3F800000).1
      some (w, sinr)

/-- A matrix read row by row as CF32. -/
def readC32 (rows cols : Nat) (bs : List Byte) : CMat :=
  (List.range rows).map fun i => (List.range cols).map fun j => (leAt bs ((i * cols + j) * 8) 4, leAt bs ((i * cols + j) * 8 + 4) 4)

/-- A matrix read column by column. -/
def readC32Cols (rows cols : Nat) (bs : List Byte) : CMat :=
  (List.range rows).map fun i => (List.range cols).map fun j => (leAt bs ((j * rows + i) * 8) 4, leAt bs ((j * rows + i) * 8 + 4) 4)

/-- A matrix as CF32, row by row. -/
def bytesC32 (m : CMat) : List Byte := m.flatMap fun r => r.flatMap fun v => leBytes 4 v.1 ++ leBytes 4 v.2

/-- A matrix as CF16, row by row. -/
def bytesC16f (m : CMat) : List Byte := m.flatMap fun r => r.flatMap fun v => leBytes 2 (f32.conv f16 v.1).1 ++ leBytes 2 (f32.conv f16 v.2).1

end Sys2Proof.Machine
end

