-- ==== Sys2Proof/Machine/Ldpc.lean ====
section
/-! DEFINITION. The LDPC code of TS 38.212 5.3.2 over its two base graphs, encoded and decoded as R197, R200, R201 and R206 say. The shifts of
the graphs' entries are constants of the standard that the specification does not restate (`Config.ldpcShift`); the shape of the parity
part is PRESUMED from it (log entry 50). -/

namespace Sys2Proof.Machine

/-- The set index of a lifting size: its odd factor (Table 5.3.2-1). -/
def ldpcSet (z : Nat) : Nat :=
  ([2, 3, 5, 7, 9, 11, 13, 15].findIdx? fun a => (List.range 8).any fun j => decide (z = a * 2 ^ j)).getD 0

/-- Rows of a base graph. -/
def ldpcRows (bg : Nat) : Nat := if bg = 1 then 46 else 42

/-- Systematic columns of a base graph. -/
def ldpcCols (bg : Nat) : Nat := if bg = 1 then 22 else 10

/-- The entries of a row: column and shift. -/
def ldpcRow (bg z r : Nat) : List (Nat × Nat) :=
  (List.range (ldpcCols bg + ldpcRows bg)).filterMap fun c => (Config.ldpcShift bg (ldpcSet z) r c).map fun v => (c, v.toNat % z)

/-! ### Encoding -/

/-- A column block as an entry of a row sees it: rotated by the shift. -/
def rotBits (p : Nat) (x : List Bool) : List Bool := x.drop p ++ x.take p

/-- The sum of a row over the columns known so far. -/
def rowSum (z : Nat) (row : List (Nat × Nat)) (cols : List (List Bool)) : List Bool :=
  row.foldl (fun acc e => match cols[e.1]? with | some x => xorBits acc (rotBits e.2 x) | none => acc) (List.replicate z false)

/-- The first parity column: in the sum of the four core rows the other three cancel, and of its own entries all but one do. -/
def firstParity (bg z : Nat) (sys : List (List Bool)) : List Bool :=
  let rows := (List.range 4).map (ldpcRow bg z)
  let total := rows.foldl (fun acc r => xorBits acc (rowSum z r sys)) (List.replicate z false)
  let shifts := rows.filterMap fun r => (r.find? fun e => e.1 == ldpcCols bg).map (·.2)
  let p := (shifts.find? fun v => (shifts.filter (· == v)).length % 2 == 1).getD 0
  rotBits ((z - p) % z) total

/-- The columns of the code word of a message of whole systematic columns: each further parity column is the sum of its row. -/
def ldpcEncode (bg z : Nat) (sys : List (List Bool)) : List (List Bool) :=
  let core := (List.range 3).foldl (fun cols r => cols ++ [rowSum z (ldpcRow bg z r) cols]) (sys ++ [firstParity bg z sys])
  (List.range (ldpcRows bg - 4)).foldl (fun cols r => cols ++ [rowSum z (ldpcRow bg z (r + 4)) cols]) core

/-- A block's bits as systematic columns, filler bits zero. -/
def sysColumns (bg z : Nat) (msg : List Bool) : List (List Bool) :=
  (List.range (ldpcCols bg)).map fun c => (List.range z).map fun i => nth false msg (c * z + i)

/-- The code word as the circular buffer sees it: without its first two columns. -/
def ldpcWord (bg z : Nat) (msg : List Bool) : List Bool := ((ldpcEncode bg z (sysColumns bg z msg)).drop 2).flatten

/-! ### Decoding: layered normalised min-sum -/

/-- A message held to 8 bits. -/
def msg8 (x : Int) : Int := max (-127) (min 127 x)

/-- A magnitude normalised by 0.75; whether it is rounded down or up is not stated. -/
def norm34 (m : Nat) : Nat :=
  let c := Config.threeQuarters m
  if c = 3 * m / 4 ∨ c = (3 * m + 3) / 4 then c else 3 * m / 4

/-- The messages back from one check: each gets the product of the other signs and the least of the other magnitudes, normalised. -/
def checkNode (qs : List Int) : List Int :=
  qs.zipIdx.map fun q =>
    let others := qs.eraseIdx q.2
    let neg := others.foldl (fun (b : Bool) x => b != decide (x < 0)) false
    let m := norm34 (others.foldl (fun m x => min m x.natAbs) 127)
    if neg then -(m : Int) else m

/-- The values of a decoder: a posteriori by column, and the messages of each row by entry. -/
structure LdpcSt where
  post : List (List Int)
  msgs : List (List (List Int))
  deriving DecidableEq, Repr

/-- One layer: every check of a row of the base graph. -/
def ldpcLayer (bg z : Nat) (x : LdpcSt) (r : Nat) : LdpcSt :=
  let row := ldpcRow bg z r
  let old := nth [] x.msgs r
  let qs := (List.range z).map fun i => row.zipIdx.map fun e =>
    msg8 (nth 0 (nth [] x.post e.1.1) ((i + e.1.2) % z) - nth 0 (nth [] old e.2) i)
  let rs := qs.map checkNode
  let new := row.zipIdx.map fun e => rs.map fun v => nth 0 v e.2
  let post := row.zipIdx.foldl (fun (p : List (List Int)) e =>
    p.set e.1.1 ((List.range z).map fun c => let i := (c + z - e.1.2) % z; nth 0 (nth [] qs i) e.2 + nth 0 (nth [] rs i) e.2)) x.post
  { post := post, msgs := x.msgs.set r new }

/-- Unsatisfied parity checks of the hard decisions. -/
def ldpcUnsat (bg z : Nat) (post : List (List Int)) : Nat :=
  let hard := post.map fun c => c.map fun v => decide (v < 0)
  (((List.range (ldpcRows bg)).map fun r => ((rowSum z (ldpcRow bg z r) hard).filter id).length)).sum

/-- What a decoder ends with: decisions on the block, CRC, checks left, iterations. -/
structure Decoded where
  bits : List Bool
  crc : Bool
  unsat : Nat
  iters : Nat
  deriving DecidableEq, Repr

/-- The CRC of the decisions passes. -/
def crcPass (crc : Nat) (bits : List Bool) : Bool := decide (crc ≠ 0) && crcHolds crc bits

/-- Iterations until ET or the limit ends them (R200). -/
def ldpcIterate (bg z crc et k : Nat) : Nat → Nat → LdpcSt → Decoded
  | 0, n, x =>
    let bits := (x.post.flatten.map fun v => decide (v < 0)).take k
    { bits := bits, crc := crcPass crc bits, unsat := ldpcUnsat bg z x.post, iters := n }
  | f + 1, n, x =>
    let y := (List.range (ldpcRows bg)).foldl (ldpcLayer bg z) x
    let bits := (y.post.flatten.map fun v => decide (v < 0)).take k
    let u := ldpcUnsat bg z y.post
    if (tb et 0 && decide (u = 0)) || (tb et 1 && crcPass crc bits) then { bits := bits, crc := crcPass crc bits, unsat := u, iters := n + 1 }
    else ldpcIterate bg z crc et k f (n + 1) y

/-- A decode from the combined LLRs of the circular buffer: the two columns that are never sent start at 0, and filler bits as known zeros of
the greatest magnitude. `fuel` iterations at most. -/
def ldpcDecode (bg z f crc et fuel : Nat) (comb : List Int) : Decoded :=
  let k := ldpcK bg z
  let llr := fun p => if k - f ≤ p ∧ p < k then 127 else if p < 2 * z then 0 else nth 0 comb (p - 2 * z)
  let post := (List.range (ldpcCols bg + ldpcRows bg)).map fun c => (List.range z).map fun i => llr (c * z + i)
  let msgs := (List.range (ldpcRows bg)).map fun r => (ldpcRow bg z r).map fun _ => List.replicate z 0
  ldpcIterate bg z crc et (k - f) fuel 0 { post := post, msgs := msgs }

end Sys2Proof.Machine
end

