-- ==== Sys2Proof/Machine/Polar.lean ====
section
/-! DEFINITION. The polar code and the small block code of TS 38.212 as R209 and R210 use them: code construction, encoding, rate matching,
list decoding and maximum-likelihood decoding. PRESUMED from that standard (log entry 50); its reliability sequence, its interleaving
pattern and its basis sequences are constants that the specification does not restate. -/

namespace Sys2Proof.Machine

/-! ### Construction (5.3.1, 5.4.1) -/

/-- The least n with 2^n ≥ x. -/
def log2Up (x : Nat) : Nat := ((List.range 32).find? fun n => decide (x ≤ 2 ^ n)).getD 32

/-- n of the mother code for K information bits, E coded bits and a limit (5.3.1.2). -/
def polarLog (k e nmax : Nat) : Nat :=
  let c := log2Up e
  let n1 := if 8 * e ≤ 9 * 2 ^ (c - 1) ∧ 16 * k < 9 * e then c - 1 else c
  max 5 (min (min n1 (log2Up (8 * k))) nmax)

/-- The sub-block interleaver's pattern (Table 5.4.1.1-1). -/
def polarSub : List Nat :=
  [0, 1, 2, 4, 3, 5, 6, 7, 8, 16, 9, 17, 10, 18, 11, 19, 12, 20, 13, 21, 14, 22, 15, 23, 24, 25, 26, 28, 27, 29, 30, 31]

/-- J(n) of the sub-block interleaver. -/
def polarJ (nn n : Nat) : Nat := nth 0 polarSub (32 * n / nn) * (nn / 32) + n % (nn / 32)

/-- Puncturing, not shortening: K / E ≤ 7 / 16. -/
def punctures (k e : Nat) : Bool := decide (16 * k ≤ 7 * e)

/-- Positions frozen by rate matching. -/
def polarBarred (nn k e i : Nat) : Bool :=
  if nn ≤ e then false
  else if punctures k e then
    ((List.range (nn - e)).any fun n => polarJ nn n == i) ||
      decide (i < if 3 * nn ≤ 4 * e then (3 * nn - 2 * e + 3) / 4 else (9 * nn - 4 * e + 15) / 16)
  else (List.range (nn - e)).any fun n => polarJ nn (e + n) == i

/-- The positions of a code of length N in falling reliability, those barred by rate matching left out. -/
def polarBest (nn k e : Nat) : List Nat :=
  (((List.range 1024).map fun r => (Config.polarOrder (1023 - r)).toNat).filter fun i => decide (i < nn)).filter fun i => !polarBarred nn k e i

/-- The information set and, within it, the parity-check set (5.3.1.2): the least reliable, and of the rest one of least row weight. -/
def polarSets (nn k e pc wm : Nat) : List Nat × List Nat :=
  let q := (polarBest nn k e).take (k + pc)
  let weight := fun (i : Nat) => ((List.range 10).filter fun b => tb i b).length
  let rest := q.take k
  let least := (rest.map weight).foldl min 10
  (q, q.drop (q.length - (pc - wm)) ++ (rest.filter fun i => weight i == least).take wm)

/-- The polar transform of a word: F ⊗ … ⊗ F. -/
def polarTransform : Nat → List Bool → List Bool
  | 0, u => u
  | n + 1, u =>
    let h := 2 ^ n
    let b := polarTransform n (u.drop h)
    (polarTransform n (u.take h)).zipWith (fun x y => x != y) b ++ b

/-- The parity-check register turned by one. -/
def turnPc (y : List Bool) : List Bool := y.drop 1 ++ y.take 1

/-- The word u of information bits: the sets' positions filled in order (5.3.1.2). -/
def polarFill (sets : List Nat × List Nat) : Nat → Nat → List Bool → List Bool → List Bool
  | 0, _, _, _ => []
  | f + 1, i, y, c =>
    let y := turnPc y
    if !sets.1.contains i then false :: polarFill sets f (i + 1) y c
    else
      let bit := if sets.2.contains i then y.headD false else c.headD false
      bit :: polarFill sets f (i + 1) (((y.headD false) != bit) :: y.drop 1) (if sets.2.contains i then c else c.drop 1)

/-- Rate matching of a code word (5.4.1.1, 5.4.1.2). -/
def polarMatch (nn k e : Nat) (d : List Bool) : List Bool :=
  let y := (List.range nn).map fun n => nth false d (polarJ nn n)
  (List.range e).map fun i => nth false y (if nn ≤ e then i % nn else if punctures k e then i + nn - e else i)

/-- A message encoded to E bits. -/
def polarEncode (nmax e : Nat) (c : List Bool) : List Bool :=
  let k := c.length
  let n := polarLog k e nmax
  let nn := 2 ^ n
  polarMatch nn k e (polarTransform n (polarFill (polarSets nn k e 0 0) nn 0 (List.replicate 5 false) c))

/-- The input interleaver of K bits (5.3.1.1). -/
def polarInterleave (bits : List Bool) : List Bool :=
  let k := bits.length
  ((List.range 164).map fun m => (Config.polarPattern m).toNat).filterMap fun p => if 164 - k ≤ p then bits[p - (164 - k)]? else none

/-! ### Encoding of DCI and PBCH (7.3, 7.1) -/

/-- CRC24C. -/
def crc24c (bs : List Bool) : List Bool := bitsOf 24 (crcBits 24 0xB2B117 bs 0)

/-- DCI: a CRC over the payload behind 24 ones, its last 16 bits scrambled with the RNTI. -/
def dciEncode (a : List Bool) (rnti e : Nat) : List Bool :=
  let p := crc24c (List.replicate 24 true ++ a)
  let p := p.take 8 ++ xorBits (p.drop 8) (bitsOf 16 rnti)
  polarEncode 9 e (polarInterleave (a ++ p))

/-- PBCH. -/
def pbchEncode (a : List Bool) (e : Nat) : List Bool := polarEncode 9 e (polarInterleave (a ++ crc24c a))

/-! ### List decoding of UCI (6.3.1, 5.3.1) -/

/-- f and g of successive cancellation. -/
def polarF (a b : Int) : Int := let m : Int := min a.natAbs b.natAbs; if decide (a < 0) != decide (b < 0) then -m else m
def polarG (u : Bool) (a b : Int) : Int := b + (if u then -a else a)

/-- The LLR of the next bit, given the bits decided before it. -/
def polarLlr : Nat → List Int → List Bool → Int
  | 0, ys, _ => ys.headD 0
  | n + 1, ys, us =>
    let h := 2 ^ n
    let a := ys.take h
    let b := ys.drop h
    if us.length < h then polarLlr n (a.zipWith polarF b) us
    else
      let x := polarTransform n (us.take h)
      polarLlr n ((x.zip (a.zip b)).map fun e => polarG e.1 e.2.1 e.2.2) (us.drop h)

/-- A path: its metric, its decided bits, its parity-check register. -/
structure PolarPath where
  metric : Nat
  us : List Bool
  pc : List Bool
  deriving DecidableEq, Repr

/-- A path put among others by rising metric. -/
def insertPath (x : PolarPath) : List PolarPath → List PolarPath
  | [] => [x]
  | y :: ys => if x.metric < y.metric then x :: y :: ys else y :: insertPath x ys

/-- A path with one more bit. -/
def PolarPath.with' (x : PolarPath) (l : Int) (pc : List Bool) (inSet bit : Bool) : PolarPath :=
  { metric := x.metric + (if bit != decide (l < 0) then l.natAbs else 0), us := x.us ++ [bit]
    pc := if inSet then ((pc.headD false) != bit) :: pc.drop 1 else pc }

/-- One position decided on every path, the best `list` kept. -/
def polarStep (n list : Nat) (sets : List Nat × List Nat) (ys : List Int) (paths : List PolarPath) (i : Nat) : List PolarPath :=
  let next := paths.flatMap fun x =>
    let l := polarLlr n ys x.us
    let pc := turnPc x.pc
    if !sets.1.contains i then [x.with' l pc false false]
    else if sets.2.contains i then [x.with' l pc true (pc.headD false)]
    else [x.with' l pc true false, x.with' l pc true true]
  (next.foldl (fun o x => insertPath x o) []).take list

/-- The information bits of a path. -/
def PolarPath.bits (x : PolarPath) (sets : List Nat × List Nat) : List Bool :=
  x.us.zipIdx.filterMap fun e => if sets.1.contains e.2 && !sets.2.contains e.2 then some e.1 else none

/-- The triangular channel interleaver undone (5.4.1.3). -/
def polarTriangle (ls : List Int) : List Int :=
  let e := ls.length
  let t := ((List.range (e + 1)).find? fun t => decide (e ≤ t * (t + 1) / 2)).getD 0
  let start := fun (row : Nat) => row * t - row * (row - 1) / 2
  let order := (List.range t).flatMap fun col => (List.range (t - col)).filterMap fun row => if start row + col < e then some (start row + col) else none
  (order.zip ls).foldl (fun (o : List Int) p => o.set p.1 p.2) (List.replicate e 0)

/-- The LLRs of the mother code's bits: repeated bits add, punctured ones are unknown, shortened ones are zeros. -/
def polarUnmatch (nn k e : Nat) (ls : List Int) : List Int :=
  let at' := fun (i : Nat) => if nn ≤ e then i % nn else if punctures k e then i + nn - e else i
  let y := ls.zipIdx.foldl (fun (o : List Int) p => o.set (at' p.2) (nth 0 o (at' p.2) + p.1))
    (List.replicate nn (0 : Int))
  let y := if e < nn ∧ !punctures k e then y.zipIdx.map fun v => if e ≤ v.2 then (2 ^ 20 : Int) else v.1 else y
  ((List.range nn).map (polarJ nn)).zip y |>.foldl (fun (o : List Int) p => o.set p.1 p.2) (List.replicate nn 0)

/-- A decoded segment: payload bits, CRC, index of the path, its metric, N. -/
structure PolarOut where
  bits : List Bool
  pass : Bool
  path : Nat
  metric : Nat
  len : Nat
  deriving DecidableEq, Repr

/-- CRC6 for up to 19 payload bits, else CRC11, of bits with their CRC. -/
def uciCrc (a : Nat) (bs : List Bool) : Nat := if a ≤ 19 then crcBits 6 0x21 bs 0 else crcBits 11 0x621 bs 0

/-- One segment of A payload bits, from its E LLRs: the most likely path that passes the CRC, else the most likely one. -/
def uciSegment (list a total : Nat) (ls : List Int) : PolarOut :=
  let crc := if total ≤ 19 then 6 else 11
  let (pc, wm) := if total ≤ 19 then (3, if 192 < ls.length - (a + crc) + 3 then 1 else 0) else (0, 0)
  let k := a + crc
  let e := ls.length
  let n := polarLog k e 10
  let sets := polarSets (2 ^ n) k e pc wm
  let ys := polarUnmatch (2 ^ n) k e (polarTriangle ls)
  let paths := (List.range (2 ^ n)).foldl (polarStep n list sets ys) [{ metric := 0, us := [], pc := List.replicate 5 false }]
  let good := fun (p : PolarPath) => uciCrc total (p.bits sets) == 0
  let i := (paths.findIdx? good).getD 0
  let p := nth { metric := 0, us := [], pc := [] } paths i
  { bits := (p.bits sets).take a, pass := good p, path := i, metric := p.metric, len := 2 ^ n }

/-- UCI of A bits: one segment or two, the first led by a zero where A is odd. -/
def uciDecode (list a : Nat) (ls : List Int) : List PolarOut :=
  if 360 ≤ a ∧ 1088 ≤ ls.length then
    let e := ls.length / 2
    let h := (a + 1) / 2
    [uciSegment list h a (ls.take e), uciSegment list h a ((ls.drop e).take e)]
  else [uciSegment list a a ls]

/-! ### The small block code (5.3.3) -/

/-- The correlation of a message with the LLRs; bit i of the code word repeats with period 32 (5.4.3). -/
def rmCorr (a m : Nat) (ls : List Int) : Int :=
  (ls.zipIdx.map fun l =>
    let c := (List.range a).foldl (fun (b : Bool) k => b != (tb m k && Config.rmBasis (l.2 % 32) k)) false
    if c then -l.1 else l.1).sum

/-- The messages of the greatest correlation, and whether every correlation is zero. -/
def rmDecode (a : Nat) (ls : List Int) : List Nat × Bool :=
  let cs := (List.range (2 ^ a)).map fun m => rmCorr a m ls
  let best := cs.foldl max (cs.headD 0)
  ((List.range (2 ^ a)).filter (fun m => nth 0 cs m == best), cs.all (· == 0))

end Sys2Proof.Machine
end

