-- ==== Sys2Proof/Machine/Turbo.lean ====
section
/-! DEFINITION. The turbo code and the tail-biting code of TS 36.212 5.1.3 (R213): encoding, max-log-MAP decoding with an extrinsic scaling of
0.75, and the most likely tail-biting path. PRESUMED from that standard (log entry 50); the coefficients of its interleaver table are
constants that the specification does not restate (`Config.qpp`). -/

namespace Sys2Proof.Machine

/-! ### The turbo code (5.1.3.2) -/

/-- The internal interleaver: bit i of the second encoder is bit f1 i + f2 i² mod K. -/
def qppAt (k i : Nat) : Nat := ((Config.qpp k).1 * i + (Config.qpp k).2 * i * i) % k

/-- A step of the constituent code with feedback 1 + D² + D³ and forward 1 + D + D³, its state the last three bits: parity and next state. -/
def turboStep (st : Nat) (u : Bool) : Bool × Nat :=
  let a := u != (tb st 1 != tb st 0)
  ((a != tb st 2) != tb st 0, bn a * 4 + st / 2)

/-- The parity bits of a constituent encoder from state 0, and the state that it ends in. -/
def turboParity : List Bool → Nat → List Bool × Nat
  | [], st => ([], st)
  | u :: us, st =>
    let r := turboStep st u
    let q := turboParity us r.2
    (r.1 :: q.1, q.2)

/-- The three tail steps: systematic and parity bits. -/
def turboTail : Nat → Nat → List (Bool × Bool)
  | 0, _ => []
  | n + 1, st =>
    let u := tb st 1 != tb st 0
    let r := turboStep st u
    (u, r.1) :: turboTail n r.2

/-- The three streams of K + 4 bits. -/
def turboEncode (k : Nat) (c : List Bool) : List (List Bool) :=
  let p := turboParity c 0
  let q := turboParity ((List.range k).map fun i => nth false c (qppAt k i)) 0
  let t := turboTail 3 p.2
  let v := turboTail 3 q.2
  let x := fun (l : List (Bool × Bool)) i => (nth (false, false) l i).1
  let z := fun (l : List (Bool × Bool)) i => (nth (false, false) l i).2
  [c ++ [x t 0, z t 1, x v 0, z v 1], p.1 ++ [z t 0, x t 2, z v 0, x v 2], q.1 ++ [x t 1, z t 2, x v 1, z v 2]]

/-- The stream and the index whose bit stands at position `p` of w_k (5.1.4.1): none for a dummy bit of the sub-block interleaver. -/
def turboPlace (k p : Nat) : Option (Nat × Nat) :=
  let r := turboR k
  let kpi := 32 * r
  let nd := kpi - (k + 4)
  let src := fun i => nth 0 subCols (i / r) + 32 * (i % r)
  let at' := fun (s y : Nat) => if y < nd then none else some (s, y - nd)
  if p < kpi then at' 0 (src p)
  else if (p - kpi) % 2 = 0 then at' 1 (src ((p - kpi) / 2))
  else at' 2 ((src ((p - kpi) / 2) + 1) % kpi)

/-! ### Max-log-MAP -/

/-- A value below every path's. -/
def noPath : Int := -(2 ^ 40 : Nat)

/-- Twice the metric of a branch: LLRs of the systematic and the parity bit. -/
def branch (l p : Int) (u z : Bool) : Int := (if u then -l else l) + (if z then -p else p)

/-- The forward metrics before each step. -/
def forwardMetrics : List Int → List (Int × Int) → List (List Int)
  | _, [] => []
  | a, (l, p) :: rest =>
    let next := (List.range 8).map fun s' =>
      ((List.range 8).map fun s => ([false, true].map fun u =>
        let r := turboStep s u
        if r.2 = s' then nth noPath a s + branch l p u r.1 else noPath).foldl max noPath).foldl max noPath
    a :: forwardMetrics next rest

/-- The backward metrics after each step, the last first in the recursion. -/
def backwardStep (x : Int × Int) (b : List Int) : List Int :=
  (List.range 8).map fun s => ([false, true].map fun u =>
    let r := turboStep s u
    nth noPath b r.2 + branch x.1 x.2 u r.1).foldl max noPath

def backwardMetrics (last : List Int) : List (Int × Int) → List (List Int)
  | [] => []
  | _ :: rest =>
    let bs := backwardMetrics last rest
    (match bs, rest with
      | b :: _, x :: _ => backwardStep x b
      | _, _ => last) :: bs

/-- The a posteriori LLRs of a constituent code that starts and, after its tail, ends in state 0. -/
def maxLogMap (steps tail : List (Int × Int)) : List Int :=
  let zero := (List.range 8).map fun s => if s = 0 then (0 : Int) else noPath
  let all := steps ++ tail
  ((forwardMetrics zero all).zip (backwardMetrics zero all)).zip all |>.take steps.length |>.map fun e =>
    let best := fun (u : Bool) => ((List.range 8).map fun s =>
      let r := turboStep s u
      nth noPath e.1.1 s + branch e.2.1 e.2.2 u r.1 + nth noPath e.1.2 r.2).foldl max (2 * noPath)
    (best false - best true) / 2

/-- An extrinsic value scaled by 0.75. -/
def scale34 (x : Int) : Int := if x < 0 then -(norm34 x.natAbs : Int) else norm34 x.natAbs

/-- The iterations of a turbo decoder: two half-iterations each; `synd` is what a syndrome test says, which R213 does not define. -/
def turboIterate (k n crc et : Nat) (synd : Bool) (sys p1 p2 : List Int) (t1 t2 : List (Int × Int)) (skip : Nat) : Nat → Nat → List Int → List Bool → Decoded
  | 0, i, _, bits => { bits := bits, crc := crcPass crc bits, unsat := bn !synd, iters := i }
  | f + 1, i, ext, _ =>
    let l1 := maxLogMap ((sys.zip ext).zip p1 |>.map fun e => (e.1.1 + e.1.2, e.2)) t1
    let e1 := (l1.zip (sys.zip ext)).map fun e => scale34 (e.1 - e.2.1 - e.2.2)
    let pi := (List.range k).map (qppAt k)
    let sysI := pi.map (nth 0 sys)
    let extI := pi.map (nth 0 e1)
    let l2 := maxLogMap ((sysI.zip extI).zip p2 |>.map fun e => (e.1.1 + e.1.2, e.2)) t2
    let back := fun (xs : List Int) => (pi.zip xs).foldl (fun (o : List Int) e => o.set e.1 e.2) (List.replicate k 0)
    let e2 := back ((l2.zip (sysI.zip extI)).map fun e => scale34 (e.1 - e.2.1 - e.2.2))
    let bits := (((back l2).map fun v => decide (v < 0)).drop skip).take n
    if (tb et 0 && synd) || (tb et 1 && crcPass crc bits) then { bits := bits, crc := crcPass crc bits, unsat := bn !synd, iters := i + 1 }
    else turboIterate k n crc et synd sys p1 p2 t1 t2 skip f (i + 1) e2 bits

/-- A turbo decode from the combined LLRs of w_k; the F filler bits are known zeros in the first two streams. -/
def turboDecode (k f crc et fuel : Nat) (synd : Bool) (comb : List Int) : Decoded :=
  let put := comb.zipIdx.foldl (fun (o : List (List Int)) e =>
    match turboPlace k e.2 with
    | some (s, i) => o.set s ((nth [] o s).set i e.1)
    | none => o) (List.replicate 3 (List.replicate (k + 4) (0 : Int)))
  let d := fun s i => if s < 2 ∧ i < f then (127 : Int) else nth 0 (nth [] put s) i
  let body := fun s => (List.range k).map (d s)
  let t1 := [(d 0 k, d 1 k), (d 2 k, d 0 (k + 1)), (d 1 (k + 1), d 2 (k + 1))]
  let t2 := [(d 0 (k + 2), d 1 (k + 2)), (d 2 (k + 2), d 0 (k + 3)), (d 1 (k + 3), d 2 (k + 3))]
  turboIterate k (k - f) crc et synd (body 0) (body 1) (body 2) t1 t2 f fuel 0 (List.replicate k 0) []

/-! ### The tail-biting code (5.1.3.1) -/

/-- The three output bits of a step, generators 133, 171 and 165, for the bit that enters and the six before it, the last first. -/
def tbccOut (reg : Nat) : List Bool :=
  [0o133, 0o171, 0o165].map fun g => (List.range 7).foldl (fun (b : Bool) i => b != (tb g i && tb reg i)) false

/-- Survivors of a start state after each step: metric and bits, newest first, by state. -/
def tbccStep (paths : List (Option (Int × List Bool))) (l : List Int) : List (Option (Int × List Bool)) :=
  (List.range 64).map fun s' =>
    let u := tb s' 5
    [2 * (s' % 32), 2 * (s' % 32) + 1].foldl (fun (best : Option (Int × List Bool)) s =>
      match nth none paths s with
      | none => best
      | some (m, bits) =>
        let out := tbccOut (bn u * 64 + s)
        let m' := m + ((out.zip l).map fun e => if e.1 then -e.2 else e.2).sum
        match best with
        | some b => if b.1 < m' then some (m', u :: bits) else best
        | none => some (m', u :: bits)) none

/-- The most likely message: over every start state, the best path that returns to it. -/
def tbccDecode (ls : List (List Int)) : List Bool :=
  let best := (List.range 64).foldl (fun (best : Option (Int × List Bool)) s =>
    let start := (List.range 64).map fun i => if i = s then some ((0 : Int), ([] : List Bool)) else none
    match nth none (ls.foldl tbccStep start) s, best with
    | some p, some b => if b.1 < p.1 then some p else best
    | some p, none => some p
    | none, _ => best) none
  match best with
  | some b => b.2.reverse
  | none => []

end Sys2Proof.Machine
end

