-- ==== Sys2Proof/Machine/Engines.lean ====
section
/-! DEFINITION. Channel engines (chapter 6): the job descriptor and its check, the status record, one operation per OP, the end and the
stop of a job, unit faults and the ENG registers. The order in which a sum is rounded and the tables of standards that the specification
only names are constants of `Config`; a result that it leaves open is a free value (`Config.engineNum`). -/

namespace Sys2Proof.Machine

/-! ### The descriptor (R182, R183) -/

/-- TYPE of the engines of a number. -/
def engType (e : Nat) : Nat := if e < 16 then 1 else if e < 40 then 2 else if e < 52 then 3 else if e < 60 then 4 else if e < 68 then 5 else 6

/-- TYPE and OP in one number. -/
def opKey (d : List Byte) : Nat := leAt d 0 1 * 256 + leAt d 1 1

/-- The operations of R192, R198, R207, R209, R213 and R216 (OP codes of the transforms: log entry 31). -/
def knownOps : List Nat :=
  [0x101, 0x102, 0x103, 0x104, 0x105, 0x201, 0x301, 0x401, 0x402, 0x403, 0x404, 0x501, 0x502, 0x503, 0x601, 0x602, 0x603, 0x604]

/-- The address fields of a type's descriptor beside STATUS_ADDR and NEXT_TASK. -/
def addrFields (d : List Byte) : List Nat := if leAt d 0 1 = 7 then [56] else if leAt d 0 1 = 6 then [56, 64, 72] else if leAt d 0 1 = 3 ∨ leAt d 0 1 = 4 then [56, 64] else [56, 64, 72, 80]

/-- ARG added to every address field modulo 2^48, where ARGREL = 1. -/
def engArg (d : List Byte) (arg : Nat) : List Byte :=
  if tb (leAt d 2 1) 0 then (8 :: 16 :: addrFields d).foldl (fun x o => patch x o (leBytes 8 ((leAt d o 8 + arg) % 2 ^ 48))) d else d

/-- A field of a descriptor: offset, size, and whether its value is allowed. -/
abbrev EField := Nat × Nat × Bool

/-- The fields of an Array descriptor (R195). -/
def aeFields (d : List Byte) : List EField :=
  let op := leAt d 1 1
  let v := leAt d
  let between := fun (o n lo hi : Nat) (used : Bool) => if used then decide (lo ≤ v o n ∧ v o n ≤ hi) else decide (v o n = 0)
  let mmse := decide (op = 4)
  [(32, 1, between 32 1 1 64 true), (33, 1, between 33 1 1 16 (decide (3 ≤ op))),
   (34, 1, decide (v 34 1 = 0 ∨ (op = 1 ∧ v 34 1 = 1) ∨ (op = 4 ∧ v 34 1 = 2) ∨ (op = 3 ∧ v 34 1 = 4))),
   (35, 1, if op = 5 then decide (-31 ≤ sx 8 (v 35 1) ∧ sx 8 (v 35 1) ≤ 31) else decide (v 35 1 = 0)),
   (36, 4, between 36 4 1 65535 (decide (2 ≤ op ∧ op ≤ 4))), (40, 4, between 40 4 1 1048576 (decide (op = 1 ∨ op = 5))),
   (44, 2, between 44 2 1 4096 (decide (op = 1 ∨ op = 5))),
   (48, 4, if op = 2 ∨ op = 4 then !tb (v 48 4) 31 || decide (v 48 4 = 0x80000000) else decide (v 48 4 = 0)),
   (56, 8, decide (v 56 8 < 2 ^ 48)),
   (64, 8, if op = 3 ∨ op = 5 ∨ (op = 4 ∧ v 34 1 = 2) then decide (v 64 8 < 2 ^ 48) else decide (v 64 8 = 0)),
   (72, 8, decide (v 72 8 < 2 ^ 48)), (80, 8, if mmse then decide (v 80 8 < 2 ^ 48) else decide (v 80 8 = 0))]

/-- The two soft-buffer fields, which are equal or do not overlap where both are used (R198, R205); `d` as read, `x` with ARG added. -/
def sbFields (d x : List Byte) (used : Bool) : List EField :=
  let m := leAt d 50 1
  let n := alignUp ((leAt d 44 4 + 1) / 2) 64
  let a := leAt x 64 8
  let b := leAt x 72 8
  let inUse := used && tb m 2
  let outUse := used && decide (m % 4 ≠ 0)
  [(64, 8, if inUse then decide (leAt d 64 8 < 2 ^ 48 ∧ a % 64 = 0) && !(outUse && decide (a ≠ b ∧ a < b + n ∧ b < a + n)) else decide (leAt d 64 8 = 0)),
   (72, 8, if outUse then decide (leAt d 72 8 < 2 ^ 48 ∧ b % 64 = 0) else decide (leAt d 72 8 = 0))]

/-- The fields of an LDPC decoder's descriptor (R198). -/
def ldFields (d x : List Byte) : List EField :=
  let v := leAt d
  let k := ldpcK (v 32 1) (v 34 2)
  [(32, 1, decide (v 32 1 = 1 ∨ v 32 1 = 2)), (33, 1, [1, 2, 4, 6, 8].contains (v 33 1)), (34, 2, liftOk (v 34 2)), (36, 2, decide (v 36 2 + 24 ≤ k)),
   (38, 1, decide (v 38 1 ≤ 3)), (39, 1, decide (1 ≤ v 39 1 ∧ v 39 1 ≤ 32)), (40, 4, decide (1 ≤ v 40 4 ∧ v 40 4 ≤ 262144 ∧ v 40 4 % v 33 1 = 0)),
   (44, 4, decide (k - 2 * v 34 2 ≤ v 44 4 ∧ v 44 4 ≤ ldpcN (v 32 1) (v 34 2))), (48, 1, decide (v 48 1 ≤ 3)),
   (49, 1, decide (v 49 1 ≤ 1 ∨ (v 49 1 ≤ 3 ∧ v 48 1 ≠ 0))), (50, 1, decide (v 50 1 ≤ 6 ∧ v 50 1 % 4 ≠ 3)), (51, 1, decide (v 51 1 ≤ 4)),
   (52, 1, decide (v 52 1 ≤ 1)), (56, 8, decide (v 56 8 < 2 ^ 48))] ++ sbFields d x true ++ [(80, 8, decide (v 80 8 < 2 ^ 48))]

/-- The fields of an LDPC encoder's descriptor (R207). -/
def leFields (d : List Byte) : List EField :=
  let v := leAt d
  [(32, 1, decide (v 32 1 = 1 ∨ v 32 1 = 2)), (33, 1, [2, 4, 6, 8, 10].contains (v 33 1)), (34, 1, decide (1 ≤ v 34 1 ∧ v 34 1 ≤ 4)),
   (35, 1, decide (v 35 1 ≤ 3)), (36, 4, decide (32 ≤ v 36 4 ∧ v 36 4 ≤ 1278016)),
   (40, 4, decide (1 ≤ v 40 4 ∧ v 40 4 ≤ 16777215 ∧ v 40 4 % (v 34 1 * v 33 1) = 0)), (44, 4, true), (48, 4, decide (v 48 4 < 2 ^ 31)),
   (52, 1, decide (v 52 1 ≤ 1)), (56, 8, decide (v 56 8 < 2 ^ 48)), (64, 8, decide (v 64 8 < 2 ^ 48))]

/-- The fields of a polar engine's descriptor (R209, R211). -/
def pdFields (d : List Byte) : List EField :=
  let v := leAt d
  let op := v 1 1
  let a := match op with
    | 1 => decide (12 ≤ v 34 2 ∧ v 34 2 ≤ 1706)
    | 2 => decide (3 ≤ v 34 2 ∧ v 34 2 ≤ 11)
    | 3 => decide (12 ≤ v 34 2 ∧ v 34 2 ≤ 140)
    | _ => decide (v 34 2 = 32)
  let e := match op with
    | 3 => decide (25 ≤ v 36 4 ∧ v 36 4 ≤ 8192)
    | 4 => decide (v 36 4 = 864)
    | _ => decide (18 ≤ v 36 4 ∧ v 36 4 ≤ 16384)
  [(32, 1, if op = 1 then [1, 2, 4, 8].contains (v 32 1) else decide (v 32 1 = 0)), (34, 2, a), (36, 4, e),
   (40, 2, decide (op = 3 ∨ v 40 2 = 0)), (56, 8, decide (v 56 8 < 2 ^ 48)), (64, 8, decide (v 64 8 < 2 ^ 48))]

/-- The fields of a turbo decoder's descriptor (R213, R214). -/
def tdFields (d x : List Byte) : List EField :=
  let v := leAt d
  let op := v 1 1
  let dec := decide (op = 1)
  let turbo := decide (op ≠ 3)
  [(32, 2, if turbo then turboK (v 32 2) else decide (8 ≤ v 32 2 ∧ v 32 2 ≤ 2048)), (36, 2, decide (v 36 2 ≤ 63)),
   (38, 1, if turbo then decide (v 38 1 ≤ 3) else decide (v 38 1 = 0)), (39, 1, if dec then decide (1 ≤ v 39 1 ∧ v 39 1 ≤ 8) else decide (v 39 1 = 0)),
   (40, 4, decide (1 ≤ v 40 4 ∧ v 40 4 ≤ 262144)),
   (44, 4, if turbo then decide (1 ≤ v 44 4 ∧ v 44 4 ≤ 96 * turboR (v 32 2)) else decide (v 44 4 = 0)),
   (48, 1, if turbo then decide (v 48 1 ≤ 2) else decide (v 48 1 = 0 ∨ v 48 1 = 4)),
   (49, 1, if dec then decide (v 49 1 ≤ 1 ∨ (v 49 1 ≤ 3 ∧ v 48 1 ≠ 0)) else decide (v 49 1 = 0)),
   (50, 1, if dec then decide (v 50 1 ≤ 6 ∧ v 50 1 % 4 ≠ 3) else decide (v 50 1 = 0)), (51, 1, if dec then decide (v 51 1 ≤ 4) else decide (v 51 1 = 0)),
   (52, 1, if op = 2 then decide (v 52 1 = 0) else decide (v 52 1 ≤ 1)), (56, 8, decide (v 56 8 < 2 ^ 48))] ++ sbFields d x dec ++
  [(80, 8, decide (v 80 8 < 2 ^ 48))]

/-- A number without its factors `p`. -/
def stripFactor (p : Nat) : Nat → Nat → Nat
  | 0, n => n
  | f + 1, n => if n % p = 0 ∧ n ≠ 0 then stripFactor p f (n / p) else n

/-- A transform length that its operation supports (R216). -/
def ftLen (op n : Nat) : Bool :=
  if op ≤ 2 then [128, 256, 512, 1024, 2048, 4096].contains n
  else decide (12 ≤ n ∧ n ≤ 4096 ∧ stripFactor 5 6 (stripFactor 3 8 (stripFactor 2 12 n)) = 1)

/-- The fields of a transform engine's descriptor (R217). -/
def ftFields (d : List Byte) : List EField :=
  let v := leAt d
  let op := v 1 1
  let inverse := decide (op = 2 ∨ op = 4)
  let out := 4 * (v 32 2 + (if v 37 1 = 1 then v 38 2 else 0))
  [(32, 2, ftLen op (v 32 2)), (34, 2, decide (1 ≤ v 34 2 ∧ v 34 2 ≤ 256)), (36, 1, decide (v 36 1 ≤ 1)),
   (37, 1, decide (v 37 1 = 0 ∨ (v 37 1 = 1 ∧ inverse) ∨ (v 37 1 = 2 ∧ !inverse))),
   (38, 2, if v 37 1 = 0 then decide (v 38 2 = 0) else decide (v 38 2 ≤ 1024)), (40, 4, true), (44, 4, true), (48, 4, decide (v 48 4 % 4 = 0)),
   (52, 4, decide (v 52 4 % 4 = 0 ∧ out ≤ v 52 4)), (56, 8, decide (v 56 8 < 2 ^ 48)), (64, 8, decide (v 64 8 < 2 ^ 48)),
   (72, 8, if v 36 1 = 1 then decide (v 72 8 < 2 ^ 48) else decide (v 72 8 = 0))]

/-- The common header's fields (R182); `x` is the descriptor with ARG added. -/
def hdrFields (d x : List Byte) : List EField :=
  let v := leAt d
  [(2, 1, decide (v 2 1 ≤ 3)), (8, 8, decide (v 8 8 < 2 ^ 48 ∧ leAt x 8 8 % 32 = 0)),
   (16, 8, if tb (v 2 1) 1 then decide (v 16 8 < 2 ^ 48 ∧ leAt x 16 8 % 32 = 0) else decide (v 16 8 = 0))]

/-- Every field of a descriptor of an engine's own type. -/
def engFields (d x : List Byte) : List EField :=
  hdrFields d x ++ match leAt d 0 1 with
    | 1 => aeFields d
    | 2 => ldFields d x
    | 3 => leFields d
    | 4 => pdFields d
    | 5 => tdFields d x
    | _ => ftFields d

/-- The byte offset of the first faulty field (R185, R186); bytes outside every field must be zero. -/
def engFault (ty : Nat) (d x : List Byte) : Option Nat :=
  if leAt d 0 1 ≠ ty then some 0
  else if !knownOps.contains (opKey d) then some 1
  else
    let fs := engFields d x
    let bad := fs.filterMap fun f => if f.2.2 then none else some f.1
    let held := fun o => decide (o < 2) || fs.any fun f => decide (f.1 ≤ o ∧ o < f.1 + f.2.1)
    let stray := (List.range 128).filter fun o => !held o && leAt d o 1 != 0
    match bad ++ stray with
    | [] => none
    | o :: os => some (os.foldl min o)

/-! ### Accesses (R184, R187) -/

/-- A range cut at 64-byte lines, addresses modulo 2^48. -/
def lineCuts (a n : Nat) : List (Nat × Nat) :=
  (blocksOf 64 a n).filterMap fun l =>
    let lo := max a (l * 64)
    let hi := min (a + n) (l * 64 + 64)
    if lo < hi then some (lo % 2 ^ 48, hi - lo) else none

/-- How an access ends: the SUMMARY of a failure and the faulting address. -/
abbrev EFail := Option (Nat × Nat)

/-- The SUMMARY that stands for memory that does not answer yet: the job waits (log entry 25). -/
def memWaits : Nat := 0x100

/-- Input read line by line, up to the first failure. -/
def State.engRead (s : State) (e a n : Nat) : EFail × List Byte × State :=
  (lineCuts a n).foldl (fun (r : EFail × List Byte × State) c =>
    match r.1 with
    | some _ => r
    | none =>
      if r.2.2.dramWaits false c.1 c.2 then (some (memWaits, c.1), r.2.1, r.2.2)
      else
      match r.2.2.busRead (.eng e) c.1 c.2 with
      | (.ok bs, s) => (none, r.2.1 ++ bs, s)
      | (.err _, s) => (some (0x11, c.1), r.2.1, s)
      | (.ue u, s) => (some (0x12, u), r.2.1, s)) (none, [], s)

/-- Output written line by line, up to the first failure: the bytes written before it. -/
def State.engWriteN (s : State) (e a : Nat) (bs : List Byte) : Nat × EFail × State :=
  (lineCuts a bs.length).foldl (fun (r : Nat × EFail × State) c =>
    match r.2.1 with
    | some _ => r
    | none =>
      if r.2.2.dramWaits true c.1 c.2 then (r.1, some (memWaits, c.1), r.2.2)
      else
      match r.2.2.busWrite (.eng e) c.1 ((bs.drop r.1).take c.2) with
      | (.ok, s) => (r.1 + c.2, none, s)
      | (.err _, s) => (r.1, some (0x11, c.1), s)
      | (.ue u, s) => (r.1, some (0x12, u), s)) (0, none, s)

/-- Output written line by line, up to the first failure. -/
def State.engWrite (s : State) (e a : Nat) (bs : List Byte) : EFail × State := (s.engWriteN e a bs).2

/-! ### Operations -/

/-- What an operation leaves: SUMMARY, DETAIL, units finished, result words, the faulting address, and the output of a decoder or of a turbo
encoder, written only when the job finishes (R189, R200): where, what, and whether RESULT0 shows it. -/
structure OpRes where
  summary : Nat := 0
  detail : Nat := 0
  units : Nat := 0
  r0 : Nat := 0
  r1 : Nat := 0
  r2 : Nat := 0
  addr : Nat := 0
  work : Nat := 0
  out : Option (Nat × List Byte × Bool) := none
  deriving DecidableEq, Repr

/-- An operation ended by a failed access. -/
def OpRes.fail (r : OpRes) (f : Nat × Nat) : OpRes := { r with summary := f.1, detail := 0, addr := f.2 }

/-- Units worked on one after another, up to a limit or the first failure: how many finished, the failure, the mark of each unit (newest
first). -/
def State.units (s : State) (n : Nat) (f : State → Nat → EFail × Nat × State) : Nat × EFail × List Nat × State :=
  (List.range n).foldl (fun (r : Nat × EFail × List Nat × State) i =>
    match r.2.1 with
    | some _ => r
    | none =>
      match f r.2.2.2 i with
      | (some x, _, s) => (r.1, some x, r.2.2.1, s)
      | (none, m, s) => (r.1 + 1, none, m :: r.2.2.1, s)) (0, none, [], s)

/-- The sum of terms that every order of binary32 additions gives: each term is a multiple of one power of two, and the magnitudes sum to
at most 2^24 of it. -/
def exactSum (ts : List Int) : Option Int :=
  let a := (ts.map Int.natAbs).foldl (· + ·) 0
  let odd := (List.range 64).find? fun k => ts.any fun t => tb t.natAbs k
  if a ≤ 2 ^ 24 * 2 ^ odd.getD 0 then some ts.sum else none

/-- The order of an operation's sums. -/
def orderOf (op : Nat) (d : List Byte) : Nat → Nat → Nat → Nat := Config.sumOrder op ((d.drop 32).take 20)

/-- Products of integers as terms of a sum. -/
def intTerms (ps : List (Int × Int)) : List Term := ps.map fun p => .prod false (f32.ofInt p.1).1 (f32.ofInt p.2).1

/-- A binary32 sum of products of integers beside other terms: in any order where it is exact. -/
def sum32 (key : Nat → Nat → Nat) (place : Nat) (ps : List (Int × Int)) (more : List Term) : Nat :=
  match if more.isEmpty then exactSum (ps.map fun p => p.1 * p.2) else none with
  | some x => if x = 0 then sum32At key place (intTerms ps) else (f32.round (decide (x < 0)) x.natAbs 0).1
  | none => sum32At key place (more ++ intTerms ps)

/-- A free bit of a result. -/
def openBit (op : Nat) (d inp : List Byte) (i : Nat) : Bool := decide (Config.engineNum op d inp i % 2 = 1)

/-- Groups of COV and APPLY. -/
def reGroups (d : List Byte) : Nat := (leAt d 40 4 + leAt d 44 2 - 1) / leAt d 44 2

/-- The REs of one group. -/
def reCount (d : List Byte) (g : Nat) : Nat := min (leAt d 44 2) (leAt d 40 4 - g * leAt d 44 2)

/-- Q = Σ y·yᴴ of a group (R192), row-major binary32 pairs, added to the old matrix where there is one. -/
def covBytes (d inp old : List Byte) (g : Nat) : List Byte :=
  let n := leAt d 32 1
  let ys := compsOf inp
  let res := ys.length / (2 * n)
  let y := fun (r i k : Nat) => nth 0 ys ((r * n + i) * 2 + k)
  let key := orderOf 0x101 d g
  let more := fun (p : Nat) => if old.isEmpty then [] else [Term.val (leAt old (4 * p) 4)]
  (List.range (n * n)).flatMap fun ij =>
    let i := ij / n
    let j := ij % n
    let re := (List.range res).flatMap fun r => [(y r i 0, y r j 0), (y r i 1, y r j 1)]
    let im := (List.range res).flatMap fun r => [(y r i 1, y r j 0), (-(y r i 0), y r j 1)]
    leBytes 4 (sum32 key (2 * ij) re (more (2 * ij))) ++ leBytes 4 (sum32 key (2 * ij + 1) im (more (2 * ij + 1)))

/-- COV of one group; with ACC = 1 the old OUT is an operand. -/
def State.covGroup (s : State) (e : Nat) (d : List Byte) (g : Nat) : EFail × Nat × State :=
  let n := leAt d 32 1
  let out := leAt d 72 8 + g * n * n * 8
  match s.engRead e (leAt d 56 8 + g * leAt d 44 2 * n * 4) (reCount d g * n * 4) with
  | (some f, _, s) => (some f, 0, s)
  | (none, inp, s) =>
    match if leAt d 34 1 = 1 then s.engRead e out (n * n * 8) else (none, [], s) with
    | (some f, _, s) => (some f, 0, s)
    | (none, old, s) =>
      let (f, s) := s.engWrite e out (covBytes d inp old g)
      (f, 0, s)

/-- CHOL of one group (R192, R194): mark 1, and zeros, where the factorisation failed. -/
def State.cholGroup (s : State) (e : Nat) (d : List Byte) (g : Nat) : EFail × Nat × State :=
  let n := leAt d 32 1
  match s.engRead e (leAt d 56 8 + g * n * n * 8) (n * n * 8) with
  | (some f, _, s) => (some f, 0, s)
  | (none, inp, s) =>
    let r := chol (orderOf 0x102 d g) n (leAt d 48 4) (readC32 n n inp)
    let (f, s) := s.engWrite e (leAt d 72 8 + g * n * n * 8) (match r with
      | some m => bytesC32 m
      | none => List.replicate (n * n * 8) 0)
    (f, bn r.isNone, s)

/-- TRSOLVE of one group (R192): G⁻¹B, or (Gᴴ)⁻¹B with CONJT. -/
def State.trsolveGroup (s : State) (e : Nat) (d : List Byte) (g : Nat) : EFail × Nat × State :=
  let n := leAt d 32 1
  let l := leAt d 33 1
  match s.engRead e (leAt d 56 8 + g * n * n * 8) (n * n * 8) with
  | (some f, _, s) => (some f, 0, s)
  | (none, a, s) =>
    match s.engRead e (leAt d 64 8 + g * n * l * 8) (n * l * 8) with
    | (some f, _, s) => (some f, 0, s)
    | (none, b, s) =>
      let solve := if leAt d 34 1 = 4 then solveUpper else solveLower
      let (f, s) := s.engWrite e (leAt d 72 8 + g * n * l * 8) (bytesC32 (solve (orderOf 0x103 d g) n l (readC32 n n a) (readC32Cols n l b)))
      (f, 0, s)

/-- H of a group, N × L integers column by column, as binary32. -/
def chanMatrix (n l : Nat) (bs : List Byte) : CMat :=
  let hs := compsOf bs
  (List.range n).map fun i => (List.range l).map fun j =>
    ((f32.ofInt (nth 0 hs (2 * (j * n + i)))).1, (f32.ofInt (nth 0 hs (2 * (j * n + i) + 1))).1)

/-- MMSE of one group (R193, R194). With IRC = 0 the matrix factored is NOISE·I. -/
def State.mmseGroup (s : State) (e : Nat) (d : List Byte) (g : Nat) : EFail × Nat × State :=
  let n := leAt d 32 1
  let l := leAt d 33 1
  let irc := decide (leAt d 34 1 = 2)
  match s.engRead e (leAt d 56 8 + g * n * l * 4) (n * l * 4) with
  | (some f, _, s) => (some f, 0, s)
  | (none, h, s) =>
    match if irc then s.engRead e (leAt d 64 8 + g * n * n * 8) (n * n * 8) else (none, [], s) with
    | (some f, _, s) => (some f, 0, s)
    | (none, q, s) =>
      let r := mmse (fun stage => Config.sumOrder (0x1040000 + stage) ((d.drop 32).take 20) g) n l (leAt d 48 4) (readC32 n n q) (chanMatrix n l h)
      match s.engWrite e (leAt d 72 8 + g * n * l * 4) (match r with
        | some x => bytesC16f x.1
        | none => List.replicate (n * l * 4) 0) with
      | (some f, s) => (some f, 0, s)
      | (none, s) =>
        let (f, s) := s.engWrite e (leAt d 80 8 + g * l * 4) (match r with
          | some x => x.2.flatMap (leBytes 4)
          | none => List.replicate (l * 4) 0)
        (f, bn r.isNone, s)

/-- The binary32 value of a component of APPLY as sat16 of value × 2^OSCALE, rounded to nearest even, and whether it saturated; the
integer that stands for a NaN is not stated. -/
def applyComp (d inp : List Byte) (i w : Nat) : Int × Bool :=
  if f32.isNaN w then (sx 16 (Config.engineNum 0x105 d inp i), openBit 0x105 d inp (i + 2 ^ 20))
  else if f32.isInf w then (if f32.sign w then -32768 else 32767, true)
  else
    let p := f32.pow w + sx 8 (leAt d 35 1)
    let m := if 0 ≤ p then f32.sig w * 2 ^ p.toNat else (FFmt.rne (f32.sig w) p.natAbs).1
    satTo 16 (if f32.sign w then -(m : Int) else m)

/-- A component of W·y in binary32: exactly where every order of addition gives the same, else in the engine's order. `ws` are words of
binary16, each with its integer. -/
def applySum (key : Nat → Nat → Nat) (place : Nat) (ws : List (Nat × Int)) : Nat :=
  let terms := ws.map fun p => Term.prod false (f16.conv f32 p.1).1 (f32.ofInt p.2).1
  match if ws.all fun p => f16.expo p.1 != 31 then exactSum (ws.map fun p => f16.scaled p.1 (-24) * p.2) else none with
  | some x => if x = 0 then sum32At key place terms else (f32.round (decide (x < 0)) x.natAbs (-24)).1
  | none => sum32At key place terms

/-- x = W·y of one group (R192, R194); mark 1 where a component saturated. -/
def State.applyGroup (s : State) (e : Nat) (d : List Byte) (g : Nat) : EFail × Nat × State :=
  let n := leAt d 32 1
  let l := leAt d 33 1
  let rpg := leAt d 44 2
  match s.engRead e (leAt d 64 8 + g * n * l * 4) (n * l * 4) with
  | (some f, _, s) => (some f, 0, s)
  | (none, wb, s) =>
    match s.engRead e (leAt d 56 8 + g * rpg * n * 4) (reCount d g * n * 4) with
    | (some f, _, s) => (some f, 0, s)
    | (none, inp, s) =>
      let ys := compsOf inp
      let w := fun (row i k : Nat) => leAt wb ((row * n + i) * 4 + 2 * k) 2
      let y := fun (r i k : Nat) => nth 0 ys ((r * n + i) * 2 + k)
      let comp := fun (r row : Nat) (im : Bool) =>
        let ps := (List.range n).flatMap fun i =>
          if im then [(w row i 0, y r i 1), (w row i 1, y r i 0)] else [(w row i 0, y r i 0), (f16.neg (w row i 1), y r i 1)]
        let place := (r * l + row) * 2 + bn im
        applyComp d (wb ++ inp) place (applySum (orderOf 0x105 d g) place ps)
      let xs := (List.range (reCount d g)).flatMap fun r => (List.range l).flatMap fun row => [comp r row false, comp r row true]
      let (f, s) := s.engWrite e (leAt d 72 8 + g * rpg * l * 4) (bytesOfComps (xs.map (·.1)))
      (f, bn (xs.any (·.2)), s)

/-- An Array job's result: saturation of APPLY, failed factorisations and the first of them (R194). -/
def aeResult (op : Nat) (r : Nat × EFail × List Nat × State) : OpRes :=
  let marks := r.2.2.1.reverse
  let bad := (marks.filter (· ≠ 0)).length
  let fact := decide (op = 2 ∨ op = 4)
  let detail := if bad = 0 then 0 else if fact then 2 else 1
  let res : OpRes := {
    summary := if bad = 0 then 0 else 1, detail := detail, units := r.1, work := r.1
    r0 := if fact then bad else 0
    r1 := if fact then (match marks.findIdx? (· ≠ 0) with | some i => i | none => 0xFFFFFFFF) else 0xFFFFFFFF }
  match r.2.1 with
  | some f => res.fail f
  | none => res

/-- Groups of an Array job. -/
def aeGroups (d : List Byte) : Nat := if leAt d 1 1 = 1 ∨ leAt d 1 1 = 5 then reGroups d else leAt d 36 4

/-- An Array operation over at most `lim` groups. -/
def State.aeRun (s : State) (e : Nat) (d : List Byte) (lim : Nat) : OpRes × State :=
  let op := leAt d 1 1
  let f := match op with
    | 1 => fun (s : State) g => s.covGroup e d g
    | 2 => fun (s : State) g => s.cholGroup e d g
    | 3 => fun (s : State) g => s.trsolveGroup e d g
    | 4 => fun (s : State) g => s.mmseGroup e d g
    | _ => fun (s : State) g => s.applyGroup e d g
  let r := s.units (min lim (aeGroups d)) f
  (aeResult op r, r.2.2.2)

/-- A decode from combined LLRs to OUT and the soft buffer (R199 to R205, R213). `dec` decodes in at most so many iterations, with a free bit
for a test that is not defined. A job stopped after `lim` iterations writes its soft buffer only where that phase had begun. -/
def State.decodeRun (s : State) (e : Nat) (d : List Byte) (lim qm k0 nbits : Nat) (skip : Nat → Bool) (sysAt : Nat → Option Nat)
    (dec : Nat → Bool → List Int → Decoded) : OpRes × State :=
  let op := opKey d
  let ncb := leAt d 44 4
  let shift := leAt d 51 1
  match s.engRead e (leAt d 56 8) (leAt d 40 4) with
  | (some f, _, s) => (({} : OpRes).fail f, s)
  | (none, inp, s) =>
    match if tb (leAt d 50 1) 2 then s.engRead e (leAt d 64 8) ((ncb + 1) / 2) else (none, [], s) with
    | (some f, _, s) => (({} : OpRes).fail f, s)
    | (none, sb, s) =>
      let llrs := deinterleave qm inp
      let comb := combineLlr ncb k0 skip (fun i => if sb.isEmpty then 0 else softEntry shift sb i) llrs
      let x := dec (min lim (leAt d 39 1)) (openBit op d (inp ++ sb) (2 ^ 20)) comb
      let synd := decide (x.unsat = 0)
      let fails := if leAt d 48 1 ≠ 0 then !x.crc else !synd
      let sbmode := leAt d 50 1 % 4
      let sbw := decide (x.iters < lim) && (sbmode == 1 || (sbmode == 2 && fails))
      let order := circular ncb k0 skip
      let sent := order.take (min order.length llrs.length)
      let differ := (sent.filter fun p => match sysAt p with
        | some b => (nth false x.bits b) != decide (nth 0 comb p < 0)
        | none => false).length
      let strip := if tb (leAt d 52 1) 0 then (crcField (leAt d 48 1) []).1 else 0
      let res : OpRes := {
        summary := if fails then 2 else 0, units := x.iters, work := x.iters
        r0 := x.iters + bn x.crc * 256 + bn synd * 512
        r1 := if leAt d 0 1 = 2 then x.unsat else 0, r2 := differ
        out := some (leAt d 80 8, packBits (x.bits.take (nbits - strip)), true) }
      if !sbw then (res, s)
      else
        match s.engWrite e (leAt d 72 8) (softBytes shift skip comb) with
        | (some f, s) => (res.fail f, s)
        | (none, s) => ({ res with r0 := res.r0 + 1024 }, s)

/-- DECODE of an LDPC decoder. -/
def State.ldRun (s : State) (e : Nat) (d : List Byte) (lim : Nat) : OpRes × State :=
  let bg := leAt d 32 1
  let z := leAt d 34 2
  let f := leAt d 36 2
  let k := ldpcK bg z
  s.decodeRun e d lim (leAt d 33 1) (ldpcK0 bg z (leAt d 44 4) (leAt d 38 1)) (k - f) (ldpcFill bg z f)
    (fun p => if p + 2 * z < k - f then some (p + 2 * z) else none) fun n _ comb => ldpcDecode bg z f (leAt d 48 1) (leAt d 49 1) n comb

/-- TURBO_DECODE: the systematic stream is the first K_Π positions of w_k. R213 defines no parity check for it: the test is a free bit. -/
def State.turboRun (s : State) (e : Nat) (d : List Byte) (lim : Nat) : OpRes × State :=
  let k := leAt d 32 2
  let f := leAt d 36 2
  let r := turboR k
  let nd := 32 * r - (k + 4)
  let sysAt := fun (p : Nat) =>
    let y := nth 0 subCols (p / r) + 32 * (p % r)
    if p < 32 * r ∧ nd + f ≤ y ∧ y < nd + k then some (y - nd - f) else none
  s.decodeRun e d lim 1 (turboK0 k (leAt d 44 4) (leAt d 38 1)) (k - f) (turboNull k f) sysAt
    fun n synd comb => turboDecode k f (leAt d 48 1) (leAt d 49 1) n synd comb

/-- TBCC_DECODE: the most likely tail-biting path and its CRC; it has no iterations and no soft buffer. Which input belongs to which code
bit, its parity test and the count of changed positions are not stated. -/
def State.tbccRun (s : State) (e : Nat) (d : List Byte) (lim : Nat) : OpRes × State :=
  match s.engRead e (leAt d 56 8) (leAt d 40 4) with
  | (some f, _, s) => (({} : OpRes).fail f, s)
  | (none, inp, s) =>
    let k := leAt d 32 2
    let f := leAt d 36 2
    let n := k - f
    let ls := inp.zipIdx.foldl (fun (o : List Int) b => let p := Config.tbccPlace k b.2 % (3 * k); o.set p (nth 0 o p + llrOf b.1))
      (List.replicate (3 * k) (0 : Int))
    let bits := (tbccDecode ((List.range k).map fun i => [nth 0 ls i, nth 0 ls (k + i), nth 0 ls (2 * k + i)])).drop f
    let crc := crcPass (leAt d 48 1) bits
    let synd := openBit 0x503 d inp (2 ^ 20)
    let strip := if tb (leAt d 52 1) 0 then (crcField (leAt d 48 1) []).1 else 0
    ({ summary := if leAt d 48 1 ≠ 0 ∧ !crc then 2 else 0, units := min lim 1, r0 := bn crc * 256 + bn synd * 512
       r2 := Config.engineNum 0x503 d inp (2 ^ 20 + 1) % (n + 1), out := some (leAt d 80 8, packBits (bits.take (n - strip)), true) }, s)

/-- TURBO_ENCODE: the block with its CRC encoded and rate matched to E bits (R213). -/
def State.turboEncRun (s : State) (e : Nat) (d : List Byte) : OpRes × State :=
  let k := leAt d 32 2
  let f := leAt d 36 2
  let n := k - f - (crcField (leAt d 48 1) []).1
  match s.engRead e (leAt d 56 8) ((n + 7) / 8) with
  | (some x, _, s) => (({} : OpRes).fail x, s)
  | (none, inp, s) =>
    let streams := turboEncode k (List.replicate f false ++ withCrc (leAt d 48 1) ((bitsMsb inp).take n))
    let order := circular (leAt d 44 4) (turboK0 k (leAt d 44 4) (leAt d 38 1)) (turboNull k f)
    let bit := fun (p : Nat) => match turboPlace k p with
      | some (t, i) => nth false (nth [] streams t) i
      | none => false
    let bits := (List.range (leAt d 40 4)).map fun i => bit (nth 0 order (i % order.length))
    ({ units := 1, out := some (leAt d 80 8, packBits bits, false) }, s)

/-- ENCODE of an LDPC encoder (R206, R208): segmentation, CRC24B, encoding, rate matching, interleaving, concatenation and scrambling. A job
stopped after `lim` code blocks has written those. -/
def State.leRun (s : State) (e : Nat) (d : List Byte) (lim : Nat) : OpRes × State :=
  let bg := leAt d 32 1
  let qm := leAt d 33 1
  let b := leAt d 36 4
  let g := leAt d 40 4
  match s.engRead e (leAt d 56 8) ((b + 7) / 8) with
  | (some x, _, s) => (({} : OpRes).fail x, s)
  | (none, inp, s) =>
    let (c, k', z) := segment bg b
    let k := ldpcK bg z
    let n := ldpcN bg z
    let ncb := if leAt d 44 4 = 0 then n else min n (leAt d 44 4)
    let tbits := (bitsMsb inp).take b
    let size := if c = 1 then k' else k' - 24
    let es := blockSizes g (leAt d 34 1) qm c
    let order := circular ncb (ldpcK0 bg z ncb (leAt d 35 1)) (ldpcFill bg z (k - k'))
    let block := fun (r : Nat) =>
      let msg := (tbits.drop (r * size)).take size
      let word := ldpcWord bg z (if c = 1 then msg else withCrc 1 msg)
      bitInterleave qm ((List.range (nth 0 es r)).map fun i => nth false word (nth 0 order (i % order.length)))
    let done := min lim c
    let coded := (List.range done).flatMap block
    let out := if tb (leAt d 52 1) 0 then xorBits coded (goldBits (leAt d 48 4) coded.length) else coded
    let w := s.engWriteN e (leAt d 64 8) (packBits out)
    let res : OpRes := { units := done, r0 := c, r1 := k', r2 := min (8 * w.1) out.length, work := done }
    match w.2.1 with
    | some x => (res.fail x, w.2.2)
    | none => (res, w.2.2)

/-- The output bits of a polar operation, SUMMARY and the result words (R209, R210). Of two segments' paths no one index is stated; nor are
the metric and N of RM_DECODE, which has no polar code, and which of its equally likely messages is put out. -/
def polarResult (op a n : Nat) (d inp : List Byte) : List Bool × OpRes :=
  let ls := inp.map llrOf
  let msg := (bitsMsb inp).take a
  match op with
  | 0x401 =>
    let segs := uciDecode (leAt d 32 1) a ls
    let bits := segs.flatMap (·.bits)
    let pass := segs.all (·.pass)
    let path := match segs with
      | [x] => x.path
      | _ => Config.engineNum op d inp 0 % leAt d 32 1
    (bits.drop (bits.length - a), {
      summary := if pass then 0 else 2, r0 := bn pass + 16 * path
      r1 := (f32.ofInt ((segs.map (·.metric)).sum : Nat)).1, r2 := (segs.map (·.len)).sum })
  | 0x402 =>
    let r := rmDecode a ls
    let m := nth 0 r.1 (Config.engineNum op d inp 0 % r.1.length)
    ((List.range a).map (tb m), {
      summary := if r.2 then 2 else 0, r1 := Config.engineNum op d inp 1 % 2 ^ 32, r2 := Config.engineNum op d inp 2 % 2 ^ 32 })
  | 0x403 => (dciEncode msg (leAt d 40 2) n, { r2 := 2 ^ polarLog (a + 24) n 9 })
  | _ => (pbchEncode msg n, { r2 := 2 ^ polarLog (a + 24) n 9 })

/-- A polar job (R209, R210); it is not divided. -/
def State.pdRun (s : State) (e : Nat) (d : List Byte) : OpRes × State :=
  let op := opKey d
  let a := leAt d 34 2
  let n := leAt d 36 4
  match s.engRead e (leAt d 56 8) (if op ≤ 0x402 then n else (a + 7) / 8) with
  | (some x, _, s) => (({} : OpRes).fail x, s)
  | (none, inp, s) =>
    let r := polarResult op a n d inp
    let res := { r.2 with units := 1, work := 1 }
    match s.engWrite e (leAt d 64 8) (packBits r.1) with
    | (some x, s) => (res.fail x, s)
    | (none, s) => (res, s)

/-- A component of a transform multiplied by PHASE as VCMPY does, if it is given (R169, R170, R217). -/
def phased (ph : Nat) (p : Int × Int) : (Int × Int) × Bool :=
  if ph = 0 then (p, false)
  else
    let m := cmul false p (sx 16 ph, sx 16 (ph / 65536))
    let a := fxSat (fxRound m.1 15) 16
    let b := fxSat (fxRound m.2 15) 16
    ((a.1, b.1), a.2 || b.2)

/-- C16 samples of bytes. -/
def cplxOf (bs : List Byte) : List Cplx :=
  let cs := compsOf bs
  (List.range (cs.length / 2)).map fun i => (nth 0 cs (2 * i), nth 0 cs (2 * i + 1))

/-- One transform (R216 to R218) with its cyclic prefix and PHASE. The mark is e × 2^16 plus the saturations. -/
def State.ftOne (s : State) (e : Nat) (d : List Byte) (t : Nat) : EFail × Nat × State :=
  let op := leAt d 1 1
  let n := leAt d 32 2
  let cp := leAt d 38 2
  let skipIn := if leAt d 37 1 = 2 then cp else 0
  let bfp := decide (leAt d 36 1 = 1)
  match s.engRead e (leAt d 56 8 + t * leAt d 48 4 + 4 * skipIn) (4 * n) with
  | (some f, _, s) => (some f, 0, s)
  | (none, inp, s) =>
    let r := transform (decide (op = 2 ∨ op = 4)) (if bfp then none else some fun i => fld (leAt d 40 4) (2 * i + 1) (2 * i)) (cplxOf inp)
    let ys := r.1.map (phased (leAt d 44 4))
    let sat := r.2.2 + (ys.filter (·.2)).length
    let xs := ys.map (·.1)
    let xs := if leAt d 37 1 = 1 then ((List.range cp).map fun i => nth (0, 0) xs ((i + n * 1024 - cp) % n)) ++ xs else xs
    match s.engWrite e (leAt d 64 8 + t * leAt d 52 4) (bytesOfComps (flat xs)) with
    | (some f, s) => (some f, 0, s)
    | (none, s) =>
      let (f, s) := if bfp then s.engWrite e (leAt d 72 8 + t) [BitVec.ofNat 8 r.2.1] else (none, s)
      (f, r.2.1 * 2 ^ 16 + sat, s)

/-- The transforms of a job, at most `lim` of them. -/
def State.ftRun (s : State) (e : Nat) (d : List Byte) (lim : Nat) : OpRes × State :=
  let r := s.units (min lim (leAt d 34 2)) fun s t => s.ftOne e d t
  let sats := (r.2.2.1.map fun m => m % 2 ^ 16).foldl (· + ·) 0
  let res : OpRes := {
    summary := if sats = 0 then 0 else 1, detail := bn (decide (sats ≠ 0)), units := r.1, work := r.1
    r0 := r.1, r1 := (r.2.2.1.map fun m => m / 2 ^ 16).foldl max 0, r2 := sats }
  match r.2.1 with
  | some f => (res.fail f, r.2.2.2)
  | none => (res, r.2.2.2)

/-- More units than any job has. -/
def noLimit : Nat := 2 ^ 21

/-- An operation stopped after `lim` units. -/
def State.opRun (s : State) (e : Nat) (d : List Byte) (lim : Nat) : OpRes × State :=
  match leAt d 0 1 with
  | 1 => s.aeRun e d lim
  | 2 => s.ldRun e d lim
  | 3 => s.leRun e d lim
  | 4 => s.pdRun e d
  | 5 =>
    match leAt d 1 1 with
    | 1 => s.turboRun e d lim
    | 2 => s.turboEncRun e d
    | _ => s.tbccRun e d lim
  | _ => s.ftRun e d lim

/-! ### A job from its start to its end (R182 to R189) -/

/-- The status record (R185). -/
def statusRecord (e : Nat) (j : EngJob) (elapsed : Nat) : List Byte :=
  leBytes 1 j.summary ++ leBytes 1 j.detail ++ leBytes 2 (min 65535 j.progress) ++ leBytes 4 j.r0 ++ leBytes 8 j.faultAddr ++
    leBytes 4 j.nextHandle ++ leBytes 4 j.r1 ++ leBytes 4 j.r2 ++ leBytes 1 e ++ [0] ++ leBytes 2 (min 65535 elapsed)

/-- PENDING, and every other byte zero. -/
def pendingRecord : List Byte := 0xFF :: List.replicate 31 0

/-- A job whose first read of the descriptor, check or status write has been made: the descriptor to run, or none where the job has ended
before it ran. `none` as job means that no status record can be written. -/
def State.startJobAt (s : State) (e entry arg : Nat) : Option (List Byte) × EngJob × State :=
  let j : EngJob := { EngJob.reset with start := s.cen.clock }
  match s.engRead e entry 128 with
  | (some f, _, s) => (none, { j with ran := true, summary := f.1, faultAddr := f.2 }, s)
  | (none, d, s) =>
    let x := engArg d arg
    let sa := leAt x 8 8
    match engFault (engType e) d x with
    | some o =>
      let ok := decide (leAt d 8 8 < 2 ^ 48 ∧ sa % 32 = 0)
      (none, { j with ran := true, summary := 0x10, detail := o, statusAddr := if ok then sa + 1 else 0 }, s)
    | none =>
      match s.engWrite e sa pendingRecord with
      | (some f, s) => (none, { j with ran := true, summary := if f.1 = memWaits then memWaits else 0x13, faultAddr := sa }, s)
      | (none, s) => (some x, { j with statusAddr := sa + 1, next := if tb (leAt d 2 1) 1 then some (leAt x 16 8) else none }, s)

/-- An operation's result taken into the job. -/
def jobRes (j : EngJob) (r : OpRes) : EngJob :=
  { j with ran := true, summary := r.summary, detail := r.detail, progress := r.units, r0 := r.r0, r1 := r.r1, r2 := r.r2, faultAddr := r.addr, out := if r.summary < 0x10 then r.out else none }

/-- The physical engine that serves a logical one. -/
def State.engPhys (s : State) (e : Nat) : Nat := s.rdF (Reg.rsvEmap e) 7 0

/-- The task that an engine runs, and no job yet. -/
def State.engFresh (s : State) (e : Nat) : Option Task :=
  let x := s.engAt e
  if (x.st == .running || x.st == .stopping) && x.job.isNone then s.task? x.slot else none

/-- The job of an engine set. -/
def State.setJobOf (s : State) (e : Nat) (j : EngJob) : State := s.setEng e { s.engAt e with job := some j }

/-- An operation run whole: its result kept in the job, its work counted. -/
def State.runJob (s : State) (e : Nat) (d : List Byte) (j : EngJob) : State :=
  let (r, s) := s.opRun e d noLimit
  ((s.tally 2 (s.engPhys e) 7 r.work).bufferClear (bufferErr (s.engPhys e) 0) (2 ^ 24)).setJobOf e (jobRes j r)

/-- The job of an engine met memory that does not answer yet. -/
def State.jobWaits (s : State) (e : Nat) : Bool := (s.engAt e).job.any fun j => j.summary == memWaits

/-- What follows the read of the descriptor: a fit one's operation runs if it is the one named. -/
def State.engNamed (s : State) (e key : Nat) (r : Option (List Byte) × EngJob × State) : State :=
  match r.1 with
  | none => s
  | some d => if opKey d ≠ key then s else r.2.2.runJob e d r.2.1

/-- The operation of a running job, if it is the one named: inputs read, outputs written. -/
def State.engOp (s : State) (e key : Nat) : State :=
  if (s.engAt e).st ≠ .running then s
  else
    match s.engFresh e with
    | none => s
    | some t =>
      let r := s.engNamed e key (s.startJobAt e (dEntry t.words) (dArg t.words))
      if r.jobWaits e then s else r

def execCov (e : Nat) (s : State) : Answer := pcmd (decide (e < 76)) s fun s => s.engOp e 0x101
def execChol (e : Nat) (s : State) : Answer := pcmd (decide (e < 76)) s fun s => s.engOp e 0x102
def execTrsolve (e : Nat) (s : State) : Answer := pcmd (decide (e < 76)) s fun s => s.engOp e 0x103
def execMmse (e : Nat) (s : State) : Answer := pcmd (decide (e < 76)) s fun s => s.engOp e 0x104
def execApply (e : Nat) (s : State) : Answer := pcmd (decide (e < 76)) s fun s => s.engOp e 0x105
def execDecode (e : Nat) (s : State) : Answer := pcmd (decide (e < 76)) s fun s => s.engOp e 0x201
def execEncode (e : Nat) (s : State) : Answer := pcmd (decide (e < 76)) s fun s => s.engOp e 0x301
def execUciDecode (e : Nat) (s : State) : Answer := pcmd (decide (e < 76)) s fun s => s.engOp e 0x401
def execRmDecode (e : Nat) (s : State) : Answer := pcmd (decide (e < 76)) s fun s => s.engOp e 0x402
def execDciEncode (e : Nat) (s : State) : Answer := pcmd (decide (e < 76)) s fun s => s.engOp e 0x403
def execPbchEncode (e : Nat) (s : State) : Answer := pcmd (decide (e < 76)) s fun s => s.engOp e 0x404
def execTurboDecode (e : Nat) (s : State) : Answer := pcmd (decide (e < 76)) s fun s => s.engOp e 0x501
def execTurboEncode (e : Nat) (s : State) : Answer := pcmd (decide (e < 76)) s fun s => s.engOp e 0x502
def execTbccDecode (e : Nat) (s : State) : Answer := pcmd (decide (e < 76)) s fun s => s.engOp e 0x503
def execFft (e : Nat) (s : State) : Answer := pcmd (decide (e < 76)) s fun s => s.engOp e 0x601
def execIfft (e : Nat) (s : State) : Answer := pcmd (decide (e < 76)) s fun s => s.engOp e 0x602
def execDft (e : Nat) (s : State) : Answer := pcmd (decide (e < 76)) s fun s => s.engOp e 0x603
def execIdft (e : Nat) (s : State) : Answer := pcmd (decide (e < 76)) s fun s => s.engOp e 0x604

/-- ERR_STAT of an engine's page, and the address pair behind it (R220, R254). -/
def errRegs (e : Nat) : Nat × Nat × Nat :=
  if e < 76 then (Reg.engErrStat e, Reg.engErrAddrLo e, Reg.engErrAddrHi e)
  else (Reg.nfeErrStat (e - 76), Reg.nfeErrAddrLo (e - 76), Reg.nfeErrAddrHi (e - 76))

/-- A job that ended with SUMMARY 0x10 or more recorded; later ones only set MULTI. -/
def State.jobError (s : State) (e : Nat) (j : EngJob) : State :=
  let r := errRegs e
  if j.summary < 0x10 then s
  else if s.rdB r.1 31 then s.wrF r.1 30 30 1
  else (s.wr r.1 (2 ^ 31 + j.summary * 2 ^ 16 + j.detail * 2 ^ 8)).wrPair r.2.1 r.2.2 16 j.faultAddr

/-- A job's end counted and, from SUMMARY 0x10 on, recorded (R220, R512). -/
def State.jobCount (s : State) (e : Nat) (j : EngJob) : State :=
  let p := s.engPhys e
  let s := (s.tally 2 p 3 1).hist 2 p 0 ((s.cen.clock - j.start) / 2 ^ 32)
  let s := if j.summary = 2 then s.tally 2 p 4 1 else if j.summary = 8 then s.tally 2 p 6 1 else if 0x10 ≤ j.summary then s.tally 2 p 5 1 else s
  (if e < 76 then s.count (Reg.engJobs e) 1 else s).jobError e j

/-- The end of a job handed to Cellarmaster (R100, R186, R190). `late`: only its final status write failed, so its work has ended. -/
def State.endTask (s : State) (sl summary : Nat) (late : Bool) : State :=
  match s.task? sl with
  | none => s
  | some t =>
    match t.st with
    | .running =>
      if summary ≤ 2 then s.setTask sl (some { t with st := .ending, ust := summary })
      else s.commit sl (if summary = 8 then 2 else 1) (if late then 2 else 1) summary
    | .stopping => s.setTask sl (some (t.ends summary))
    | _ => s

/-- A job whose status record could not be written (R186). -/
def statusLost (j : EngJob) : EngJob := { j with summary := 0x13, detail := 0, faultAddr := j.statusAddr - 1 }

/-- The final status write, as one 32-byte write; one that fails, as with `ok` false, makes the job STATUS_ERR (R187, R188). -/
def State.finalStatus (s : State) (e : Nat) (j : EngJob) (ok : Bool) : EngJob × State :=
  if j.statusAddr = 0 ∨ j.summary = 0x13 then (j, s)
  else if !ok then (statusLost j, s)
  else
    match s.busWrite (.eng e) (j.statusAddr - 1) (statusRecord e j ((s.cen.clock - j.start) / 2 ^ 32 / 8)) with
    | (.ok, s) => (j, s)
    | (_, s) => (statusLost j, s)

/-- A job's work had ended, and its status write failed. -/
def lateFault (before after : EngJob) : Bool := decide (before.summary ≤ 2 ∧ after.summary = 0x13)

/-- A channel engine's job ends: final status, counters, and the engine idle again. -/
def State.engFinish (s : State) (e : Nat) (j : EngJob) (ok : Bool) : State :=
  let sl := (s.engAt e).slot
  let r := s.finalStatus e j ok
  ((r.2.setEng e .reset).jobCount e r.1).endTask sl r.1.summary (lateFault j r.1)

/-- A handle answered to a follow-on submission: a rejection makes a finished job OK_WARN with DETAIL bit 2 (R188). -/
def withHandle (j : EngJob) : EngJob :=
  if j.submitted ∧ 2 ^ 31 ≤ j.nextHandle ∧ j.summary ≤ 2 then { j with summary := 1, detail := j.detail ||| 4 } else j

/-- The output of a job that finishes, written if it still waits. -/
def State.flushOut (s : State) (e : Nat) (j : EngJob) : EngJob × State :=
  match j.out with
  | none => (j, s)
  | some (a, bs, shown) =>
    match s.engWrite e a bs with
    | (some f, s) => ({ j with out := none, summary := f.1, detail := 0, faultAddr := f.2 }, s)
    | (none, s) => ({ j with out := none, r0 := j.r0 + (if shown then 2048 else 0) }, s)

/-- A job stopped by a cancel: STOPPED, its waiting output dropped. One that a failed access has ended keeps that end. -/
def stoppedJob (j : EngJob) : EngJob :=
  if 0x10 ≤ j.summary then j else { j with summary := 8, detail := 0, faultAddr := 0, out := none }

/-- What follows the read of the descriptor at a job's end: one that cannot run ends the job. -/
def State.engUnfit (s : State) (e : Nat) (r : Option (List Byte) × EngJob × State) : State :=
  match r.1 with
  | none => if r.2.1.summary = memWaits then s else r.2.2.engFinish e r.2.1 true
  | some _ => s

/-- The end of a job that has run and whose waiting output has been written: it submits its follow-on task, and once that has been answered, or
is not asked for, writes its status. -/
def State.engClose (s : State) (e : Nat) (j : EngJob) (ok : Bool) : State :=
  match if j.submitted ∨ 0x10 ≤ j.summary then none else j.next with
  | none => s.engFinish e (withHandle j) ok
  | some a =>
    if j.held then s
    else
      match s.engRead e a 32 with
      | (some f, _, s) => if f.1 = memWaits then s.setJobOf e j else s.engFinish e { j with summary := f.1, detail := 0, faultAddr := f.2 } ok
      | (none, bs, s) =>
        let idem := match s.task? (s.engAt e).slot with
          | some t => dIdem t.words
          | none => false
        (s.hold (.engine e) (wordsOf bs) idem).setJobOf e { j with held := true }

/-- `ENGINE_JOB_END` on a running engine: a job that cannot run ends; one that has run writes what waits and closes. `ok` is false where the
write of the status record fails. -/
def State.engJobEnd (s : State) (e : Nat) (ok : Bool) : State :=
  let x := s.engAt e
  if x.st ≠ .running then s
  else
    match x.job with
    | none =>
      match s.engFresh e with
      | none => s
      | some t => s.engUnfit e (s.startJobAt e (dEntry t.words) (dArg t.words))
    | some j =>
      let r := s.flushOut e j
      if r.1.summary = memWaits then s else r.2.engClose e r.1 ok

/-- A job stopped after `n` units, once its descriptor has been read; memory that does not answer yet holds the stop up. -/
def State.engHalted (s : State) (e n : Nat) (r : Option (List Byte) × EngJob × State) : State :=
  match r.1 with
  | none => if r.2.1.summary = memWaits then s else r.2.2.engFinish e r.2.1 true
  | some d =>
    let o := r.2.2.opRun e d n
    if o.1.summary = memWaits then s
    else (o.2.tally 2 (o.2.engPhys e) 7 o.1.work).engFinish e (stoppedJob (jobRes r.2.1 o.1)) true

/-- `ENGINE_STOP`: an engine told to stop reaches its stop boundary after `done` units (R189), of which no job has more than 2^20. -/
def State.engStop (s : State) (e done : Nat) : State :=
  let x := s.engAt e
  if x.st ≠ .stopping then s
  else
    match x.job with
    | some j => s.engFinish e { stoppedJob j with nextHandle := if j.submitted then j.nextHandle else 0xFFFFFFFF } true
    | none =>
      match s.engFresh e with
      | none => s.setEng e .reset
      | some t => s.engHalted e (min done (2 ^ 20)) (s.startJobAt e (dEntry t.words) (dArg t.words))

def execEngineStop (e done : Nat) (s : State) : Answer := pcmd (decide (e < 76)) s fun s => s.engStop e done

/-- A unit fault of a channel engine: it is isolated; its task is re-dispatched or ends FAULT, the status record left PENDING (R104,
R186). -/
def State.engineFault (s : State) (e : Nat) : Bool × State :=
  let x := s.engAt e
  let s := (s.withdraw (.engine e)).setEng e { EngState.reset with st := .isolated }
  if x.st = .running ∨ x.st = .stopping then s.faultTask (.engine e) x.slot 0x20 else (false, s)

/-- `ENG[e].STAT` (R220). -/
def State.engStat (s : State) (e : Nat) : Nat :=
  let x := s.engAt e
  match x.st with
  | .idle => 0
  | .running => 2 ^ 28 + x.slot
  | .stopping => 2 * 2 ^ 28 + x.slot
  | .sleep => 3 * 2 ^ 28
  | .off => 4 * 2 ^ 28
  | .isolated => 5 * 2 ^ 28

end Sys2Proof.Machine
end

