-- ==== Sys2Proof/Machine/Fsk.lean ====
section
/-! DEFINITION. What an FSK packet is on the air (R229 to R232, R244, R245): profiles, framing, whitening, coding, symbols, and the phase and
envelope of a burst. The SUN formats are PRESUMED from IEEE 802.15.4-2020 (log entry 51); the parts of its error-correcting code that are
tables there are constants of `Config`. -/

namespace Sys2Proof.Machine

/-! ### Profile records (R229) -/

def profRs (p : List Byte) : Nat := leAt p 4 4
def profRaw (p : List Byte) : Bool := decide (leAt p 0 1 / 16 = 1)
def profFour (p : List Byte) : Bool := tb (leAt p 0 1) 0
def profTrk (p : List Byte) : Nat := leAt p 21 1 % 16

/-- Bits in a symbol. -/
def symBits (p : List Byte) : Nat := if profFour p then 2 else 1

/-- Bytes travel most significant bit first. -/
def profMsb (p : List Byte) : Bool := profRaw p && tb (leAt p 15 1) 2

/-! ### Bits and bytes on the air -/

/-- The bits of bytes in the order they travel. -/
def airBits (msb : Bool) (bs : List Byte) : List Bool :=
  bs.flatMap fun b => (List.range 8).map fun i => tb b.toNat (if msb then 7 - i else i)

/-- The whole bytes of bits as they travelled. -/
def airBytes (msb : Bool) (bits : List Bool) : List Byte :=
  (List.range (bits.length / 8)).map fun k => BitVec.ofNat 8 (((List.range 8).map fun i => bn (nth false bits (8 * k + i)) * 2 ^ (if msb then 7 - i else i)).sum)

/-- The number whose highest bit comes first. -/
def numOfBits (bits : List Bool) : Nat := bits.foldl (fun v b => 2 * v + bn b) 0

/-- One bit into a reflected CRC register. -/
def crcStep (poly r : Nat) (b : Bool) : Nat := if (decide (r % 2 = 1)) != b then (r / 2) ^^^ poly else r / 2

/-- A body as the CRC-32 sees it: one shorter than 4 bytes padded with zeros. -/
def fcs4Body (bs : List Byte) : List Byte := bs ++ List.replicate (4 - bs.length) 0

/-- The FCS or CRC of a body as it travels: 0 none, 1 CRC-16 from zero, 2 CRC-32 from ones, inverted (PRESUMED, log entry 51). -/
def fcsBits (kind : Nat) (msb : Bool) (bs : List Byte) : List Bool :=
  match kind with
  | 0 => []
  | 1 => let r := (airBits msb bs).foldl (crcStep 0x8408) 0; (List.range 16).map (tb r)
  | _ => let r := (airBits msb (fcs4Body bs)).foldl (crcStep 0xEDB88320) 0xFFFFFFFF; (List.range 32).map fun i => !tb r i

/-- The SUN FCS of 2 bytes is right: nothing is left over. -/
def fcs2Ok (msb : Bool) (bs : List Byte) : Bool := decide (2 ≤ bs.length) && decide ((airBits msb bs).foldl (crcStep 0x8408) 0 = 0)

/-- The SUN FCS of 4 bytes is right. -/
def fcs4Ok (msb : Bool) (bs : List Byte) : Bool :=
  let n := bs.length - 4
  decide (4 ≤ bs.length) &&
    decide ((airBits msb (fcs4Body (bs.take n) ++ bs.drop n)).foldl (crcStep 0xEDB88320) 0xFFFFFFFF = 0xDEBB20E3)

/-! ### Headers (R231, R232) -/

/-- What a header says: LENGTH, a status that ends the packet at once, whitening, the 2-byte FCS. -/
structure Hdr where
  length : Nat
  ends : Option Nat
  white : Bool
  fcs2 : Bool
  deriving DecidableEq, Repr

/-- Bytes of the length field of a RAW profile. -/
def lenBytes (p : List Byte) : Nat := if tb (leAt p 15 1) 0 then 2 else 1

/-- A header as decided: the 16 bits of a SUN PHR, first bit highest, or the value of a RAW length field. -/
def hdrOf (p : List Byte) (h : Nat) : Hdr :=
  let maxlen := leAt p 18 2
  if profRaw p then
    let w := lenBytes p
    let b := if leAt p 14 1 = 255 then maxlen else (((leAt p 14 1 + w + h % 2 ^ (8 * w) : Nat) : Int) + sx 16 (leAt p 16 2)).toNat
    { length := b, ends := if maxlen < b then some 7 else none, white := false, fcs2 := false }
  else
    let len := h % 2048
    { length := len, white := tb h 11, fcs2 := tb h 12,
      ends := if tb h 15 then some 6 else if fld h 14 13 ≠ 0 ∨ maxlen < len then some 7 else none }

/-- The check of a packet's FCS or CRC. -/
def packetOk (p : List Byte) (h : Hdr) (data : List Byte) : Bool :=
  if profRaw p then
    match leAt p 20 1 with
    | 0 => true
    | 1 => fcs2Ok (profMsb p) data
    | _ => fcs4Ok (profMsb p) data
  else if h.fcs2 then fcs2Ok false data else fcs4Ok false data

/-! ### Whitening and coding of SUN packets -/

/-- PN9: each bit is the sum of those 9 and 4 before it, from all ones; `last` holds the nine before, the newest first. -/
def pn9 : Nat → List Bool → List Bool
  | 0, _ => []
  | n + 1, last =>
    let b := nth true last 3 != nth true last 8
    b :: pn9 n (b :: last.take 8)

/-- A PSDU whitened, or the whitening taken off again. -/
def whiten (bits : List Bool) : List Bool := xorBits bits (pn9 bits.length (List.replicate 9 true))

/-- The code bits of a run of the encoder from a state, and the state after it. -/
def fecRun (rsc : Bool) : List Bool → BitVec 3 → List Bool × BitVec 3
  | [], st => ([], st)
  | u :: us, st =>
    let c := Config.sunCode rsc st u
    let r := fecRun rsc us c.2.2
    (c.1 :: c.2.1 :: r.1, r.2)

/-- Where pair `k` of a block of 16 code-bit pairs stands after interleaving. -/
def sunSlot (k : Nat) : Nat := (Config.sunPlace (BitVec.ofNat 4 k)).toNat

/-- Whole blocks of 16 pairs interleaved. -/
def fecInterleave (bits : List Bool) : List Bool :=
  (List.range bits.length).map fun i =>
    let slot := i / 2 % 16
    let from' := ((List.range 16).find? fun k => sunSlot k == slot).getD slot
    nth false bits (i / 32 * 32 + 2 * from' + i % 2)

/-- Interleaving undone. -/
def fecDeinterleave (bits : List Bool) : List Bool :=
  (List.range (bits.length / 32 * 32)).map fun i => nth false bits (i / 32 * 32 + 2 * sunSlot (i / 2 % 16) + i % 2)

/-- Pad bits behind the tail, for a PSDU of `m` bytes. -/
def sunPadLen (m : Nat) : Nat := if m % 2 = 0 then 5 else 13

/-- PHR and PSDU coded, with tail and pad, and interleaved. -/
def fecEncode (rsc ilv : Bool) (m : Nat) (bits : List Bool) : List Bool :=
  let r := fecRun rsc bits 0
  let t := Config.sunTail rsc r.2
  let tail := (List.range 3).map (tb t.toNat) ++ (List.range (sunPadLen m)).map Config.sunPad
  let c := r.1 ++ (fecRun rsc tail r.2).1
  if ilv then fecInterleave c else c

/-- The message of code bits that are a code word as far as they go. -/
def fecExact (rsc : Bool) : Nat → List Bool → BitVec 3 → Option (List Bool)
  | 0, _, _ => some []
  | f + 1, bits, st =>
    match bits with
    | a :: b :: rest =>
      let fits := fun (u : Bool) => (Config.sunCode rsc st u).1 == a && (Config.sunCode rsc st u).2.1 == b
      if fits false then (fecExact rsc f rest (Config.sunCode rsc st false).2.2).map (false :: ·)
      else if fits true then (fecExact rsc f rest (Config.sunCode rsc st true).2.2).map (true :: ·)
      else none
    | _ => some []

/-- Code bits decoded. Those of no code word are corrected in a way that is not stated. -/
def fecDecode (rsc ilv : Bool) (bits : List Bool) : List Bool :=
  let c := if ilv then fecDeinterleave bits else bits
  match fecExact rsc (c.length / 2) c 0 with
  | some m => m
  | none => (List.range (c.length / 2)).map (Config.fecGuess c)

/-! ### Reception -/

/-- The SFDs of 802.15.4, first bit highest, by phyMrFskSfd and coding. -/
def sunSfd (which coded : Bool) : Nat := if which then (if coded then 0x632D else 0x7A0E) else if coded then 0x6F4E else 0x904E

/-- What bits decided in SYNC match: none, or the sync word or SFD; true for the coded one. `v` has the first bit of a RAW word lowest, as its
field has, and the first of an SFD highest. -/
def syncMatch (p : List Byte) (v : Nat) : Option Bool :=
  if profRaw p then
    let errs := ((List.range (leAt p 12 1)).filter fun i => tb v i != tb (leAt p 8 4) i).length
    if errs ≤ leAt p 13 1 then some false else none
  else if v = sunSfd (tb (leAt p 8 4) 0) true then some true
  else if v = sunSfd (tb (leAt p 8 4) 0) false then some false
  else none

/-- The message bits of what follows sync word or SFD; which coder and interleaving a receiver takes a coded packet for is not stated. -/
def messageBits (p : List Byte) (fec : Bool) (bits : List Bool) : List Bool :=
  if fec then fecDecode (Config.rxCoder p).1 (Config.rxCoder p).2 bits else bits

/-- The header that the bits decided so far hold: 2^16 where they do not reach its end. -/
def headerIn (p : List Byte) (fec : Bool) (bits : List Bool) : Nat :=
  let m := messageBits p fec bits
  if profRaw p then
    if leAt p 14 1 = 255 then 0
    else
      let f := ((airBytes (profMsb p) m).drop (leAt p 14 1)).take (lenBytes p)
      if f.length < lenBytes p then 65536 else ofLe (if tb (leAt p 15 1) 1 then f.reverse else f)
  else if m.length < 16 then 65536 else numOfBits (m.take 16)

/-- The whole data bytes in the bits decided so far: the body of a RAW packet, or the PSDU, decoded and de-whitened. -/
def dataIn (p : List Byte) (fec : Bool) (h : Hdr) (bits : List Bool) : List Byte :=
  let m := messageBits p fec bits
  if profRaw p then (airBytes (profMsb p) m).take h.length
  else
    let psdu := (m.drop 16).take (8 * h.length)
    airBytes false (if h.white then whiten psdu else psdu)

/-- RSSI in 0.5 dB of a power in 2^-20 squared LSBs (R239): 20 log10(P / 32,767²), rounded to a whole number. -/
def rssiOf (power : Nat) : Int :=
  let q := 32767 ^ 2 * 2 ^ 20
  let reaches := fun (r : Nat) => decide (q ^ 40 * 10 ^ (2 * r) ≤ power ^ 40 * 10 ^ 1025)   -- r counts from −512
  ((((List.range 700).filter reaches).length : Nat) : Int) - 513

/-- FEV in 0.1 % (R240) from the sum of squares of `n` errors in 1/1024 Hz; rounded as R168 rounds (DEDUCED, log entry 51). -/
def fevOf (p : List Byte) (sum n : Nat) : Nat :=
  let fd2 := (leAt p 2 2 * profRs p) ^ 2     -- (2000 fd)²
  min 65535 ((isqrt (4 * 10 ^ 6 * sum * 4000000 / (n * 2 ^ 20 * fd2)) + 1) / 2)

/-! ### Transmission -/

/-- Bytes of FCS or CRC behind the data. -/
def tailBytes (p d : List Byte) : Nat := if profRaw p then 2 * leAt p 20 1 else if tb (leAt d 48 1) 4 then 2 else 4

/-- The PHR that the NFE builds: mode switch 0, the FCS type, the whitening bit and the length. -/
def phrOf (d : List Byte) (len : Nat) : Nat := bn (tb (leAt d 48 1) 4) * 2 ^ 12 + bn (tb (leAt d 48 1) 3) * 2 ^ 11 + len

/-- The bits behind the sync word or the SFD of a burst. -/
def bodyBits (p d : List Byte) (data : List Byte) : List Bool :=
  if profRaw p then airBits (profMsb p) data ++ fcsBits (leAt p 20 1) (profMsb p) data
  else
    let fl := leAt d 48 1
    let m := data.length + tailBytes p d
    let psdu := airBits false data ++ fcsBits (if tb fl 4 then 1 else 2) false data
    let bits := bitsOf 16 (phrOf d m) ++ (if tb fl 3 then whiten psdu else psdu)
    if tb fl 0 then fecEncode (tb fl 1) (tb fl 2) m bits else bits

/-- The bits of preamble and sync word of a RAW burst. -/
def rawHead (p d : List Byte) : List Bool :=
  airBits (profMsb p) (List.replicate (leAt d 50 2) (BitVec.ofNat 8 (leAt p 22 1))) ++ (List.range (leAt p 12 1)).map (tb (leAt p 8 4))

/-- The symbols of bits (R230); a last lone bit of 4-FSK has a partner that is not stated. -/
def symbolsOf (four : Bool) : List Bool → List Int
  | [] => []
  | a :: rest =>
    if !four then (if a then 1 else -1) :: symbolsOf four rest
    else
      match rest with
      | [] => [(if a then 1 else -1) * (if Config.padBit then 3 else 1)]
      | b :: rest => ((if a then 1 else -1) * (if b then 3 else 1)) :: symbolsOf four rest

/-- The symbols of a burst: preamble, sync word or SFD, and body. The head of a SUN packet uses the outermost symbols. -/
def burstSymbols (p d data : List Byte) : List Int :=
  let body := bodyBits p d data
  if profRaw p then symbolsOf (profFour p) (rawHead p d ++ body)
  else
    let sfd := bitsOf 16 (sunSfd (tb (leAt p 8 4) 0) (tb (leAt d 48 1) 0))
    let head := (List.replicate (4 * leAt d 50 2) [false, true]).flatten ++ sfd
    head.map (fun b => (if b then 1 else -1) * (if profFour p then 3 else 1)) ++ symbolsOf (profFour p) body

/-- Symbols before the first bit behind sync word or SFD: 8 to a preamble octet and 16 for the SFD of SUN. -/
def headSyms (p d : List Byte) : Nat :=
  if profRaw p then (8 * leAt d 50 2 + leAt p 12 1 + symBits p - 1) / symBits p else 8 * leAt d 50 2 + 16

/-- N: the symbols of a burst. FEC codes PHR, PSDU, tail and pad at rate 1/2. -/
def burstSyms (p d : List Byte) : Nat :=
  let m := leAt d 38 2 + tailBytes p d
  if profRaw p then (8 * leAt d 50 2 + leAt p 12 1 + 8 * m + symBits p - 1) / symBits p
  else if tb (leAt d 48 1) 0 then headSyms p d + 2 * (8 * (2 + m) + 3 + sunPadLen m) / symBits p
  else headSyms p d + 8 * (2 + m) / symBits p

/-- TR in ns. -/
def rampNs (d : List Byte) : Nat := (if leAt d 35 1 = 0 then 256 else leAt d 35 1) * 1000

/-- The time of `k` symbols, rounded up to ns. -/
def symNs (p : List Byte) (k : Nat) : Nat := (k * 1000000000 + profRs p - 1) / profRs p

/-! ### Phase and envelope (R230, R245) -/

/-- The standard deviation in symbols of a Gaussian filter of BT 0.3, 0.5 or 1.0: √(ln 2) / (2π BT). -/
def gaussSigma (bt : Nat) : Nat := if bt = 0 then 8147630587871746999 else if bt = 1 then 4888578352723048199 else 2444289176361524100

/-- Terms of Σ (−1)^n z^(2n+1) / (2^n n! (2n+1)) from term `u` on. -/
def cdfTerms : Nat → Nat → Nat → Int → Int
  | 0, _, _, _ => 0
  | f + 1, n, zz, u => u / ((2 * n + 1 : Nat) : Int) + cdfTerms f (n + 1) zz (-(u * (zz : Int) / (fixOne : Int)) / ((2 * (n + 1) : Nat) : Int))

/-- The normal density and distribution at 0 ≤ z < 10; the series has 136 places more than its sum. -/
def normal (z : Nat) : Nat × Nat :=
  let zz := z * z / fixOne
  let root := 46239130270042206923       -- √(2π)
  (expNeg (zz / 2) * fixOne / root, fixOne / 2 + (cdfTerms 240 0 zz ((z * 2 ^ 136 : Nat) : Int)).toNat / 2 ^ 136 * fixOne / root)

/-- ∫ Φ(v / σ) dv from −∞ to y. Ten standard deviations away it is y or 0 to the last place. -/
def gaussInt (sigma : Nat) (y : Int) : Int :=
  let z := y.natAbs * fixOne / sigma
  if 10 * fixOne ≤ z then max y 0
  else
    let n := normal z
    let cdf : Int := if 0 ≤ y then n.2 else (fixOne : Int) - n.2
    (y * cdf + ((sigma * n.1 : Nat) : Int)) / (fixOne : Int)

/-- The part of a symbol's frequency pulse that has passed `y` symbols after its start. -/
def pulsePart (sigma : Nat) (y : Int) : Int := gaussInt sigma y - gaussInt sigma (y - fixOne)

/-- The symbol at place `k`; the first one goes on before it and the last one behind (R245). -/
def symbolAt (ds : List Int) (first : Int) (k : Int) : Int :=
  if k < 0 then first else nth (ds.getLastD first) ds k.toNat

/-- The phase in turns from x0 to x symbols after the first symbol's start, of modulation index h / 1000. -/
def fskPhase (sigma h : Nat) (ds : List Int) (first x0 x : Int) : Int :=
  let lo := x0 / (fixOne : Int) - 6
  let n := (x / (fixOne : Int) + 7 - lo).toNat
  (((List.range n).map fun i =>
    let k : Int := lo + (i : Nat)
    symbolAt ds first k * (pulsePart sigma (x - k * fixOne) - pulsePart sigma (x0 - k * fixOne))).sum * (h : Int)) / 2000

/-- The ramp up at `t` of `tr`, `t` over a denominator `den`: raised cosine, or linear. -/
def rampUp (linear : Bool) (t tr den : Nat) : Nat :=
  if linear then fixOne * t / (tr * den) else (((fixOne : Int) - (cosSin t (2 * tr * den)).1) / 2).toNat

end Sys2Proof.Machine
end

