-- ==== Sys2Proof/Machine/Nfe.lean ====
section
/-! DEFINITION. The narrowband FSK engines (chapter 7): the channel plan and its check, search and reception, frequency correction,
capture, reports, and transmit bursts. What the radio brings (a detection, decided bytes, a measured frequency) is an operand. -/

namespace Sys2Proof.Machine

/-! ### The plan block (R225 to R229) -/

/-- FS in samples per second. -/
def planFs (b : List Byte) : Nat := 1920000 * 2 ^ leAt b 0 1

/-- S in Hz. -/
def planS (b : List Byte) : Nat := 12500 * 2 ^ leAt b 1 1

/-- The record of a profile, and of a channel. -/
def profRec (b : List Byte) (p : Nat) : List Byte := (b.drop (64 + 32 * p)).take 32
def chanRec (b : List Byte) (ch : Nat) : List Byte := (b.drop (576 + 8 * ch)).take 8

def chanRx (c : List Byte) : Bool := tb (leAt c 0 1) 0
def chanTx (c : List Byte) : Bool := tb (leAt c 0 1) 1
def chanBlank (c : List Byte) : Bool := tb (leAt c 0 1) 2

/-- W × S of a channel in Hz. -/
def chanWs (b : List Byte) (ch : Nat) : Nat := leAt (chanRec b ch) 1 1 * planS b

/-- A ring of 2^n bytes at its own alignment in cellar memory or DRAM. -/
def planRing (a size : Nat) : Bool :=
  decide (a % size = 0) && match locate a with
    | .cellar => true
    | .dram => true
    | _ => false

/-- The header's fields. -/
def planHeader (b : List Byte) : List EField :=
  let v := leAt b
  [(0, 1, decide (v 0 1 ≤ 4)), (1, 1, decide (v 1 1 ≤ 5)), (2, 2, decide (v 2 2 = 0)), (4, 1, decide (v 4 1 ≤ 15 ∨ v 4 1 = 255)),
   (5, 1, decide (v 5 1 = 0)), (8, 2, decide (v 8 2 < 4096)), (10, 2, decide (v 10 2 < 4096 ∨ v 10 2 = 65535)),
   (12, 1, decide (6 ≤ v 12 1 ∧ v 12 1 ≤ 14)), (13, 1, decide (14 ≤ v 13 1 ∧ v 13 1 ≤ 24)), (14, 2, decide (v 14 2 < 16384)),
   (16, 8, planRing (v 16 8) (32 * 2 ^ v 12 1)), (24, 8, planRing (v 24 8) (2 ^ v 13 1)), (32, 1, decide (v 32 1 < 32)),
   (33, 3, decide (v 33 3 = 0)), (36, 4, decide (-125000 ≤ sx 32 (v 36 4) ∧ sx 32 (v 36 4) ≤ 125000)), (40, 24, decide (v 40 24 = 0))]

/-- A profile record's fields (R229); those of RAW framing mean nothing in a SUN profile. -/
def profFields (p : List Byte) : List EField :=
  let v := leAt p
  let raw := profRaw p
  let used := fun (ok : Bool) => !raw || ok
  [(0, 1, decide (v 0 1 / 2 % 4 ≤ 2 ∧ v 0 1 / 8 % 2 = 0 ∧ v 0 1 / 16 ≤ 1)), (1, 1, decide (8 ≤ v 1 1 ∧ v 1 1 ≤ 64)),
   (2, 2, decide (330 ≤ v 2 2 ∧ v 2 2 ≤ 2000)), (4, 4, decide (2400 ≤ v 4 4 ∧ v 4 4 ≤ 400000)), (8, 4, true),
   (12, 1, used (decide (8 ≤ v 12 1 ∧ v 12 1 ≤ 32))), (13, 1, used (decide (v 13 1 ≤ 3))),
   (14, 1, used (decide (v 14 1 ≤ 15 ∨ v 14 1 = 255))), (15, 1, used (decide (v 15 1 ≤ 7))), (16, 2, true),
   (18, 2, decide (1 ≤ v 18 2 ∧ v 18 2 ≤ 2047)), (20, 1, used (decide (v 20 1 ≤ 2))),
   (21, 1, decide (v 21 1 ≤ 7 ∨ v 21 1 = 15)), (22, 1, true), (23, 9, decide (v 23 9 = 0))]

/-- The set bits of a PROFSET. -/
def profSet (c : List Byte) : List Nat := (List.range 16).filter fun p => tb (leAt c 2 2) p

/-- A channel record's fields (R226). -/
def chanFields (c : List Byte) : List EField :=
  let v := leAt c
  [(0, 1, decide (v 0 1 ≤ 7)), (1, 1, [1, 2, 4].contains (v 1 1)),
   (2, 2, decide ((profSet c).length ≤ 4) && (!chanRx c || decide (v 2 2 ≠ 0))), (4, 4, decide (v 4 4 = 0))]

/-- A channel is active. -/
def chanActive (c : List Byte) : Bool := chanRx c || chanTx c

/-- A profile fits a channel of W × S Hz (R227): its rate, and its occupancy within ±0.4 × W × S. -/
def profFits (p : List Byte) (ws : Nat) : Bool :=
  let rs := profRs p
  let h := leAt p 2 2
  decide (rs ≤ ws) && decide (rs * ((if profFour p then 3 * h else h) + 1000) * 10 ≤ 8 * ws * 1000)

/-- The offset in Hz of a channel's centre (R226). -/
def chanCentre (b : List Byte) (ch : Nat) : Int := sx 32 (leAt b 36 4) * 100 + (ch * planS b : Nat)

/-- Channel `ch` keeps R227 with itself and with the channels above it. -/
def chanFits (b : List Byte) (ch : Nat) : Bool :=
  let c := chanRec b ch
  let ws := chanWs b ch
  !chanActive c ||
    (decide ((chanCentre b ch).natAbs * 100000 + 40000 * ws ≤ 40690 * planFs b) &&
      ((profSet c).all fun p => profFits (profRec b p) ws) &&
      [1, 2, 3].all fun d =>
        decide (128 ≤ ch + d) || !chanActive (chanRec b (ch + d)) || decide (2 * (ws + chanWs b (ch + d)) ≤ 5 * (d * planS b)))

/-- The first field of a plan block out of its range, by its offset. -/
def planRange (b : List Byte) : Option Nat :=
  let fs := planHeader b ++ ((List.range 16).flatMap fun p => (profFields (profRec b p)).map fun f => (f.1 + 64 + 32 * p, f.2)) ++
    (List.range 128).flatMap fun ch => (chanFields (chanRec b ch)).map fun f => (f.1 + 576 + 8 * ch, f.2)
  (fs.find? fun f => !f.2.2).map (·.1)

/-- Every active channel keeps R227. -/
def planFits (b : List Byte) : Bool := (List.range 128).all (chanFits b)

/-! ### The engine and its channels -/

/-- The plan of an NFE. -/
def State.plan (s : State) (n : Nat) : List Byte := (s.nfeAt n).plan

/-- An NFE runs: a plan is installed, and the engine is in service. -/
def State.nfeOn (s : State) (n : Nat) : Bool := (s.nfeAt n).st == .running && s.engIn (76 + n) && !(s.plan n).isEmpty && s.rdB (Reg.nfeCtrl n) 31

/-- A channel searches and receives: RX_EN, RX = 1 and no blanking (R233, R248). -/
def State.rxOn (s : State) (n ch : Nat) : Bool :=
  s.nfeOn n && s.rdB (Reg.nfeCtrl n) 0 && chanRx (chanRec (s.plan n) ch) && !(mget (fun _ => .reset) (s.nfeAt n).chans ch).blanked

def State.chan (s : State) (n ch : Nat) : RxChan := mget (fun _ => .reset) (s.nfeAt n).chans ch

def State.setChan (s : State) (n ch : Nat) (x : RxChan) : State :=
  s.setNfe n { s.nfeAt n with chans := mput (fun _ => .reset) (s.nfeAt n).chans ch x }

/-- A context of an NFE. -/
def State.burstAt (s : State) (n ctx : Nat) : Option BurstCtx := mget (fun _ => none) (s.nfeAt n).ctx ctx

def State.setBurst (s : State) (n ctx : Nat) (b : Option BurstCtx) : State :=
  s.setNfe n { s.nfeAt n with ctx := mput (fun _ => none) (s.nfeAt n).ctx ctx b }

/-- The profile record of a detection. -/
def State.profOf (s : State) (n : Nat) (d : Detect) : List Byte := profRec (s.plan n) d.profile

/-! ### Measurements (R237 to R240) -/

/-- The header of the packet that a channel holds, once it has been decided. -/
def State.hdrHeld (s : State) (n : Nat) (x : RxChan) : Option Hdr := if x.hdr < 65536 then some (hdrOf (s.profOf n x.det) x.hdr) else none

/-- LQI of a frequency error in 0.1 %: SNR and rounding as R240 gives them, in whole powers. -/
def lqiOf (fev : Nat) : Nat := if fev = 0 then 255 else ((List.range 255).filter fun k => decide (fev ^ 170 ≤ 10 ^ (552 - k))).length

/-- ±0.2 × W × S in 2^-20 Hz. -/
def ncoLimit (ws : Nat) : Int := ((ws * 2 ^ 20 / 5 : Nat) : Int)

/-- A value held within ±lim. -/
def held (lim x : Int) : Int := max (-lim) (min lim x)

/-! ### Ends of receptions (R234 to R236, R241, R242) -/

/-- A reception ends: its report is due. `data` is written where the packet has room. FEV is that of the errors measured so far; of none at all
it is not stated. -/
def State.endPacket (s : State) (n ch status : Nat) (data : List Byte) : State :=
  let x := s.chan n ch
  let (fev, s) := if x.errN = 0 then s.free 65536 else (fevOf (s.profOf n x.det) x.errSq x.errN, s)
  let h := s.hdrHeld n x
  let known : Hdr := h.getD { length := 0, ends := none, white := false, fcs2 := false }
  let status := if x.noRoom then 4 else status
  let pkt : RxPkt := {
    status := status, channel := ch
    rflags := x.det.profile + 16 * bn x.fec + 32 * bn known.white + 64 * bn x.trkLimit + 128 * bn known.fcs2
    lqi := lqiOf fev, rssi := x.det.rssi, fev := fev, fofs := roundHalfUp x.det.nco (2 ^ 20), length := known.length
    data := if x.noRoom ∨ x.res = 0 then [] else data.take known.length, off := x.off, res := x.res, time := x.time }
  s.setNfe n { s.nfeAt n with done := (s.nfeAt n).done ++ [pkt] }

/-- A channel that searches again; its blanking goes on. -/
def State.research (s : State) (n ch : Nat) : State :=
  let x := s.chan n ch
  s.setChan n ch { RxChan.reset with blanked := x.blanked, resume := x.resume }

/-- A channel enters SYNC with a detection (R234, R237). -/
def State.toSync (s : State) (n ch : Nat) (d : Detect) : State :=
  let x := s.chan n ch
  s.setChan n ch { RxChan.reset with phase := .sync, det := d, blanked := x.blanked, resume := x.resume }

/-- The channel after a packet or an attempt has ended: a second preamble awaiting its decision is then a detection in SEARCH (R236), and those
behind it are second to it. -/
def State.nextPacket (s : State) (n ch : Nat) (second : List Detect) : State :=
  match second with
  | d :: ds =>
    let s := s.toSync n ch d
    s.setChan n ch { s.chan n ch with second := ds }
  | [] => s.research n ch

/-- Whatever a channel holds ends early: a reception with `status` and no data, an attempt counted in NOSYNC. -/
def State.dropPacket (s : State) (n ch status : Nat) : State :=
  match (s.chan n ch).phase with
  | .receive => (s.endPacket n ch status []).research n ch
  | .sync => (s.count (Reg.nfeNosync n) 1).research n ch
  | .search => s

/-- The channels that hold something. -/
def State.busyChans (s : State) (n : Nat) : List Nat := (s.nfeAt n).chans.filterMap fun c => if c.2.phase = .search then none else some c.1

/-! ### Commands of reception -/

/-- `STREAM_GAP` (R223): zeros stand for the lost samples, and every reception in progress ends. -/
def State.streamGap (s : State) (n lost : Nat) : State :=
  if !s.nfeOn n then s
  else
    let s := s.count (Reg.nfeGap n) lost
    (s.busyChans n).foldl (fun s ch => if (s.chan n ch).phase = .receive then s.dropPacket n ch 3 else s) s

def execStreamGap (n lost : Nat) (s : State) : Answer := pcmd (decide (n < 4)) s fun s => s.streamGap n lost

/-- The detection taken of those in one sample (R233): each a profile, its correlation, its power in 2^-20 squared LSBs and its offset. -/
def bestHit (hits : List (Nat × Nat × Nat × Int)) : Option (Nat × Nat × Nat × Int) :=
  hits.foldl (fun (b : Option (Nat × Nat × Nat × Int)) x =>
    match b with
    | none => some x
    | some y => if y.2.1 < x.2.1 ∨ (y.2.1 = x.2.1 ∧ x.1 < y.1) then some x else b) none

/-- A detection as the channel keeps it: RSSI with RSSI_OFS (R239), and the offset, in 1/1024 Hz, within the estimate's range (R237). -/
def hitDetect (b : List Byte) (ch : Nat) (h : Nat × Nat × Nat × Int) : Detect :=
  let lim := min ((profRs (profRec b h.1) * 2 ^ 19 : Nat) : Int) (ncoLimit (chanWs b ch))
  { profile := h.1, rssi := rssiOf h.2.2.1 + sx 16 (leAt b 6 2), nco := held lim (h.2.2.2 * 1024) }

/-- `PREAMBLE_DETECT` (R233 to R237): profiles of the channel detect in one sample. -/
def State.preambleDetect (s : State) (n ch : Nat) (hits : List (Nat × Nat × Nat × Int)) : State :=
  let b := s.plan n
  if !s.rxOn n ch then s
  else
    match bestHit (hits.filter fun h => (profSet (chanRec b ch)).contains h.1 && h.2.2.1 != 0) with
    | none => s
    | some h =>
      let x := s.chan n ch
      if x.phase = .search then s.toSync n ch (hitDetect b ch h) else s.setChan n ch { x with second := x.second ++ [hitDetect b ch h] }

/-- `PREAMBLE_DETECT`: the profiles, with the correlation of each, and its power and frequency offset. -/
def execPreambleDetect (n ch : Nat) (profs corrs : List Nat) (sigs : List (Nat × Int)) (s : State) : Answer :=
  pcmd (decide (n < 4) && decide (ch < 128)) s fun s => s.preambleDetect n ch (profs.zip (corrs.zip sigs))

/-- The data bytes that a channel's bits, with those decided since, hold whole. -/
def State.heldData (s : State) (n ch : Nat) (bits : List Bool) : List Byte :=
  let x := s.chan n ch
  match s.hdrHeld n x with
  | some h => dataIn (s.profOf n x.det) x.fec h (x.bits ++ bits)
  | none => []

/-- The tracking correction of eight errors, where tracking is on (R238). -/
def trackStep (p : List Byte) (lim : Int) (x : RxChan) : RxChan :=
  if profTrk p = 15 then { x with errs := [] }
  else
    let sum := x.det.nco + x.errs.sum * ((2 ^ (7 - profTrk p) : Nat) : Int)
    { x with det := { x.det with nco := held lim sum }, trkLimit := x.trkLimit || decide (lim ≤ sum.natAbs), errs := [] }

/-- One symbol's error measured (R238, R240). -/
def errStep (p : List Byte) (lim : Int) (x : RxChan) (e : Int) : RxChan :=
  let y := { x with errs := x.errs ++ [e], errSq := x.errSq + e.natAbs ^ 2, errN := x.errN + 1 }
  if y.errs.length = 8 then trackStep p lim y else y

/-- `NCO_TRACK_UPDATE` (R238): the measured errors of symbols in 1/1024 Hz; after every eight the NCO is corrected. -/
def State.ncoTrack (s : State) (n ch : Nat) (errs : List Int) : State :=
  let x := s.chan n ch
  if x.phase ≠ .receive then s
  else s.setChan n ch (errs.foldl (errStep (s.profOf n x.det) (ncoLimit (chanWs (s.plan n) ch))) x)

/-- A second preamble at the held packet's symbol boundary: taken over where it is stronger by MARGIN (R235). -/
def State.contend (s : State) (n ch : Nat) (bits : List Bool) (d : Detect) : State :=
  let x := s.chan n ch
  if 2 * (s.rdF (Reg.nfeCtrl n) 11 8 : Int) ≤ d.rssi - x.det.rssi then
    (if x.phase = .receive then s.endPacket n ch 2 (s.heldData n ch bits) else s.count (Reg.nfeNosync n) 1).toSync n ch d
  else s

/-- `CAPTURE_DECISION` (R235, R236): at the held packet's next symbol boundary each new preamble is taken over, or ignored. `errs` are the
errors of the symbols since the last `NCO_TRACK_UPDATE`, `bits` those decided behind the header's. -/
def State.captureDecision (s : State) (n ch : Nat) (errs : List Int) (bits : List Bool) : State :=
  if (s.chan n ch).second.isEmpty then s
  else
    let s := s.ncoTrack n ch errs
    let x := s.chan n ch
    x.second.foldl (fun s d => s.contend n ch bits d) (s.setChan n ch { x with second := [] })

def execCaptureDecision (n ch : Nat) (errs : List Int) (bits : List Bool) (s : State) : Answer :=
  pcmd (decide (n < 4) && decide (ch < 128)) s fun s => s.captureDecision n ch errs bits

/-- `SYNC_TIMEOUT` (R234). -/
def State.syncTimeout (s : State) (n ch : Nat) : State :=
  let x := s.chan n ch
  if x.phase = .sync then (s.count (Reg.nfeNosync n) 1).nextPacket n ch x.second else s

def execSyncTimeout (n ch : Nat) (s : State) : Answer := pcmd (decide (n < 4) && decide (ch < 128)) s fun s => s.syncTimeout n ch

/-- The data-ring reservation once a length is known (R241). -/
def State.reserve (s : State) (n ch : Nat) (len : Nat) : State :=
  let f := s.nfeAt n
  let size := 2 ^ leAt f.plan 13 1
  let r := alignUp len 64
  let used := (f.rxdRes + 2 ^ 32 - s.rd (Reg.nfeRxdCi n)) % 2 ^ 32
  let x := s.chan n ch
  if size < used + r then s.setChan n ch { x with noRoom := true }
  else
    let s := s.setChan n ch { x with off := f.rxdRes % size, res := r }
    s.setNfe n { s.nfeAt n with rxdRes := (f.rxdRes + r) % 2 ^ 32 }

/-- RC in samples per second (R226). -/
def chanRc (b : List Byte) (ch : Nat) : Nat := 2 * chanWs b ch

/-- A time as the engine stamps it: within one sample at RC of the true one (R242). -/
def State.stamp (s : State) (n ch time : Nat) : Nat × State :=
  let w := 1000000000 / chanRc (s.plan n) ch
  let (k, s) := s.free (2 * w + 1)
  (time + k - w, s)

/-- `SFD_FOUND` (R234, R241, R242): bits decided in SYNC complete the sync word or SFD, and the channel enters RECEIVE. `time` is that of its
end, `bits` what is decided behind it, up to the header's end where the reception gets so far. A header that ends the packet at once does so. -/
def State.sfdFound (s : State) (n ch word : Nat) (bits : List Bool) (time : Nat) : State :=
  let x := s.chan n ch
  let p := s.profOf n x.det
  match if x.phase = .sync then syncMatch p word else none with
  | none => s
  | some fec =>
    let (t, s) := s.stamp n ch time
    let hdr := headerIn p fec bits
    let s := s.setChan n ch { x with phase := .receive, fec := fec, time := t, hdr := hdr, bits := bits }
    if hdr = 65536 then s
    else
      match (hdrOf p hdr).ends with
      | some st => (s.endPacket n ch st []).nextPacket n ch x.second
      | none => s.reserve n ch (hdrOf p hdr).length

def execSfdFound (n ch word : Nat) (bits : List Bool) (time : Nat) (s : State) : Answer :=
  pcmd (decide (n < 4) && decide (ch < 128)) s fun s => s.sfdFound n ch word bits time

def execNcoTrackUpdate (n ch : Nat) (errs : List Int) (s : State) : Answer :=
  pcmd (decide (n < 4) && decide (ch < 128)) s fun s => s.ncoTrack n ch errs

/-- `PACKET_END` (R234, R236, R241): the packet's last bit has been decided; `errs` are the errors of the symbols since the last
`NCO_TRACK_UPDATE`, `bits` the bits behind the header's. -/
def State.packetEnd (s : State) (n ch : Nat) (errs : List Int) (bits : List Bool) : State :=
  let x := s.chan n ch
  if x.phase ≠ .receive then s
  else
    match s.hdrHeld n x with
    | none => s
    | some h =>
      let data := s.heldData n ch bits
      if data.length < h.length then s
      else ((s.ncoTrack n ch errs).endPacket n ch (if packetOk (s.profOf n x.det) h data then 0 else 1) data).nextPacket n ch x.second

def execPacketEnd (n ch : Nat) (errs : List Int) (bits : List Bool) (s : State) : Answer :=
  pcmd (decide (n < 4) && decide (ch < 128)) s fun s => s.packetEnd n ch errs bits

/-! ### Reports (R241 to R243) -/

/-- A report (R242). -/
def reportBytes (p : RxPkt) (seq : Nat) : List Byte :=
  leBytes 1 p.status ++ leBytes 1 p.channel ++ leBytes 1 p.rflags ++ leBytes 1 p.lqi ++ leBytes 2 (wrap 16 p.rssi) ++ leBytes 2 p.fev ++
    leBytes 4 (wrap 32 p.fofs) ++ leBytes 2 p.length ++ leBytes 2 p.data.length ++ leBytes 4 p.off ++
    leBytes 4 (p.time / 1000000000) ++ leBytes 4 (p.time % 1000000000) ++ leBytes 4 seq

/-- Data bytes written to the data ring, which may wrap. -/
def State.ringWrite (s : State) (n base size off : Nat) (bs : List Byte) : State :=
  let k := size - off
  let s := if bs.isEmpty then s else (s.engWrite (76 + n) (base + off) (bs.take k)).2
  if bs.length ≤ k then s else (s.engWrite (76 + n) base (bs.drop k)).2

/-- `NFE_REPORT_WRITE` (R241): the oldest report due, its data first; then the indices, the event and the firmware's copy to the host
(R243). A full report ring loses the packet, and its reservation is released: given back where it is the newest, and otherwise passed
over. -/
def State.reportWrite (s : State) (n : Nat) : State :=
  let f := s.nfeAt n
  match if f.plan.isEmpty then [] else f.done with
  | [] => s
  | p :: rest =>
    let b := f.plan
    let pi := s.rdF (Reg.nfeRxPi n) 15 0
    let size := 2 ^ leAt b 12 1
    let rxd := fun (s : State) => s.wr (Reg.nfeRxdPi n) ((s.rd (Reg.nfeRxdPi n) + p.res) % 2 ^ 32)
    if size ≤ (pi + 65536 - s.rdF (Reg.nfeRxCi n) 15 0) % 65536 then
      let s := s.count (Reg.nfeRxLost n) 1
      let dsize := 2 ^ leAt b 13 1
      if (p.off + p.res) % dsize = f.rxdRes % dsize then
        s.setNfe n { f with done := rest, rxdRes := (f.rxdRes + 2 ^ 32 - p.res) % 2 ^ 32 }
      else (rxd s).setNfe n { f with done := rest }
    else
      let s := s.ringWrite n (leAt b 24 8) (2 ^ leAt b 13 1) p.off p.data
      let rep := reportBytes p f.seq
      let s := (s.engWrite (76 + n) (leAt b 16 8 + pi % size * 32) rep).2
      let s := (rxd (s.wrF (Reg.nfeRxPi n) 15 0 ((pi + 1) % 65536))).setNfe n { s.nfeAt n with done := rest, seq := (f.seq + 1) % 2 ^ 32 }
      let s := if p.status = 2 then s.count (Reg.nfeCaptures n) 1 else s
      let s := (s.tally 2 (s.engPhys (76 + n)) 7 1).post (leAt b 14 2) (2 ^ leAt b 32 1)
      s.notice 0x0A04 0 (leBytes 4 n ++ rep)

def execNfeReportWrite (n : Nat) (s : State) : Answer := pcmd (decide (n < 4)) s fun s => s.reportWrite n

/-! ### Bursts (R244 to R251) -/

/-- The NFE fields of a job descriptor (R244), `p` the profile's record. -/
def burstFields (d p : List Byte) : List EField :=
  let v := leAt d
  let raw := profRaw p
  let fcs := if tb (v 48 1) 4 then 2 else 4
  [(32, 1, decide (v 32 1 < 128)), (33, 1, decide (v 33 1 < 16)), (34, 1, decide (v 34 1 ≤ 1)), (35, 1, true),
   (36, 2, decide (v 36 2 ≤ 32767)), (38, 2, decide (1 ≤ v 38 2 ∧ v 38 2 ≤ 2047 ∧ (raw = true ∨ v 38 2 + fcs ≤ 2047))),
   (40, 4, true), (44, 4, decide (v 44 4 < 1000000000)), (48, 1, if raw then decide (v 48 1 = 0) else decide (v 48 1 < 32)),
   (50, 2, decide (4 ≤ v 50 2 ∧ v 50 2 ≤ 1000)), (56, 8, decide (v 56 8 < 2 ^ 48))]

/-- The byte offset of the first faulty field of a burst's descriptor: layout and ranges, then the channel, the profile and START
(R247). -/
def State.burstFault (s : State) (n disp : Nat) (d x : List Byte) : Option Nat :=
  let b := s.plan n
  let ch := leAt d 32 1
  let p := profRec b (leAt d 33 1)
  let t := s.fullNs (leAt d 40 4) (leAt d 44 4)
  if leAt d 0 1 ≠ 7 then some 0
  else if leAt d 1 1 ≠ 1 then some 1
  else
    let fs := hdrFields d x ++ burstFields d p
    let heldAt := fun o => decide (o < 2) || fs.any fun f => decide (f.1 ≤ o ∧ o < f.1 + f.2.1)
    let stray := (List.range 128).filter fun o => !heldAt o && leAt d o 1 != 0
    let rules := (if chanTx (chanRec b ch) then [] else [32]) ++ (if profFits p (chanWs b ch) then [] else [33]) ++
      if leAt d 40 8 ≠ 0 ∧ disp + 1000000000 < t then [40] else []
    match (fs.filterMap fun f => if f.2.2 then none else some f.1) ++ stray ++ rules with
    | [] => none
    | o :: os => some (os.foldl min o)

/-- The data bytes that `k` symbols carry whole, FCS or CRC excluded. Of coded bits a byte's own pairs must have gone, and need not before those
that depend on it have: between the two R249 does not choose. -/
def State.bytesIn (s : State) (p d : List Byte) (k : Nat) : Nat × State :=
  let len := leAt d 38 2
  let fl := leAt d 48 1
  if burstSyms p d ≤ k then (len, s)
  else if profRaw p then (min len ((k * symBits p - 8 * leAt d 50 2 - leAt p 12 1) / 8), s)
  else
    let sent := (k - headSyms p d) * symBits p
    if tb fl 0 then
      let pairs := sent / 2
      let lo := if tb fl 2 then pairs / 16 * 16 else pairs
      let hi := if tb fl 2 then (pairs + 15) / 16 * 16 else pairs
      let a := min len ((lo - 19) / 8)
      let b := min len ((hi - 16) / 8)
      let (x, s) := s.free (b - a + 1)
      (a + x, s)
    else (min len ((sent - 16) / 8), s)

/-- A burst's context ends: final status, counters, the context free. -/
def State.burstFinish (s : State) (n ctx : Nat) (b : BurstCtx) (j : EngJob) : State :=
  let r := s.finalStatus (76 + n) j true
  ((r.2.setBurst n ctx none).jobCount (76 + n) r.1).endTask b.slot r.1.summary (lateFault j r.1)

/-- Another context holds a burst on the same channel whose interval overlaps. -/
def State.burstConflict (s : State) (n ctx ch lo hi : Nat) : Bool :=
  (s.nfeAt n).ctx.any fun e =>
    match e.2 with
    | some b => decide (e.1 ≠ ctx) && (b.phase == .scheduled || b.phase == .up) && decide (leAt b.desc 32 1 = ch ∧ lo < b.stop ∧ b.start < hi)
    | none => false

/-- A job ended by SUMMARY and DETAIL before it radiates. -/
def failJob (j : EngJob) (summary detail addr : Nat) : EngJob := { j with ran := true, summary := summary, detail := detail, faultAddr := addr }

/-- A burst whose data has been read takes its interval, unless another holds it or its START is too near (R247). -/
def State.burstTake (s : State) (n ctx : Nat) (b : BurstCtx) (d x : List Byte) (j : EngJob) (data : List Byte) : State :=
  let p := profRec (s.plan n) (leAt d 33 1)
  let start := if leAt d 40 8 = 0 then b.disp + 4000 else s.fullNs (leAt d 40 4) (leAt d 44 4)
  let stop := start + 2 * rampNs d + symNs p (burstSyms p d)
  if s.burstConflict n ctx (leAt d 32 1) start stop then s.burstFinish n ctx b (failJob j 0x14 0 0)
  else if start < b.disp + 4000 then s.burstFinish n ctx b (failJob j 0x15 0 0)
  else
    let (turn0, s) := (s.bufferClear (bufferErr (s.engPhys (76 + n)) (ctx * 4096)) 4096).free (2 ^ 32)
    s.setBurst n ctx (some { b with job := j, phase := .scheduled, desc := x, prof := p, start := start, stop := stop, turn0 := turn0, data := data })

/-- What follows the read of a burst's data. -/
def burstData (n ctx : Nat) (b : BurstCtx) (d x : List Byte) (j : EngJob) (r : EFail × List Byte × State) : State :=
  match r.1 with
  | some f => if f.1 = memWaits then r.2.2 else r.2.2.burstFinish n ctx b (failJob j f.1 0 f.2)
  | none => r.2.2.burstTake n ctx b d x j r.2.1

/-- What follows the write of PENDING: the data is read. -/
def burstPending (n ctx : Nat) (b : BurstCtx) (d x : List Byte) (j : EngJob) (r : EFail × State) : State :=
  match r.1 with
  | some f => if f.1 = memWaits then r.2 else r.2.burstFinish n ctx b (failJob j 0x13 0 (leAt x 8 8))
  | none =>
    let j : EngJob := { j with next := if tb (leAt d 2 1) 1 then some (leAt x 16 8) else none }
    burstData n ctx b d x j (r.2.engRead (76 + n) (leAt x 56 8) (leAt d 38 2))

/-- A burst's descriptor as read: its check, and PENDING. -/
def State.burstCheck (s : State) (n ctx : Nat) (b : BurstCtx) (t : Task) (d : List Byte) : State :=
  let x := engArg d (dArg t.words)
  let sa := leAt x 8 8
  let usable := decide (leAt d 8 8 < 2 ^ 48 ∧ sa % 32 = 0)
  let j : EngJob := { b.job with statusAddr := if usable then sa + 1 else 0 }
  match s.burstFault n b.disp d x with
  | some o => s.burstFinish n ctx b (failJob j 0x10 o 0)
  | none =>
    if dIdem t.words then
      let (o, s) := s.free 256
      s.burstFinish n ctx b (failJob j 0x10 o 0)
    else burstPending n ctx b d x j (s.engWrite (76 + n) sa pendingRecord)

/-- What follows the read of a burst's descriptor. -/
def burstRead (n ctx : Nat) (b : BurstCtx) (t : Task) (r : EFail × List Byte × State) : State :=
  match r.1 with
  | some f => if f.1 = memWaits then r.2.2 else r.2.2.burstFinish n ctx b (failJob b.job f.1 0 f.2)
  | none => r.2.2.burstCheck n ctx b t r.2.1

/-- `BURST` (R244, R247): a context's job reads and checks its descriptor, writes PENDING, reads the data and takes its interval. -/
def State.burstRun (s : State) (n ctx : Nat) : State :=
  match s.burstAt n ctx with
  | none => s
  | some b =>
    match (if b.phase = .fresh then s.task? b.slot else none) with
    | none => s
    | some t => burstRead n ctx b t (s.engRead (76 + n) (dEntry t.words) 128)

def execBurst (n ctx : Nat) (s : State) : Answer := pcmd (decide (n < 4) && decide (ctx < 64)) s fun s => s.burstRun n ctx

/-- `BURST_START` (R245, R248): START comes; the ramp up begins, and a channel with BLANK suspends its search. -/
def State.burstStart (s : State) (n ctx : Nat) : State :=
  match s.burstAt n ctx with
  | none => s
  | some b =>
    let early := match b.stopAt with
      | some t => decide (t < b.start)
      | none => false
    if b.phase != .scheduled || early then s
    else
      let s := s.until (b.start * 2 ^ 32)
      let s := (s.setBurst n ctx (some { b with phase := .up })).emit (.burst n (leAt b.desc 32 1) b.start (burstSymbols b.prof b.desc b.data))
      let ch := leAt b.desc 32 1
      if chanBlank (chanRec (s.plan n) ch) then
        let s := s.dropPacket n ch 5
        s.setChan n ch { s.chan n ch with blanked := true, resume := 0 }
      else s

/-- How a burst ended (R249, R250). -/
structure BurstEnd where
  stop : Nat
  syms : Nat
  radiated : Nat
  deriving DecidableEq, Repr

/-- The end of a burst that radiates: a cancel during the ramp up turns it round, during the symbols completes the one in progress, and
during the ramp down changes nothing. -/
def burstEndOf (b : BurstCtx) : BurstEnd :=
  let tr := rampNs b.desc
  let total := burstSyms b.prof b.desc
  let body := symNs b.prof total
  match b.stopAt with
  | none => { stop := b.stop, syms := total, radiated := 2 }
  | some c =>
    let t := c - b.start
    if t < tr then { stop := b.start + 2 * t, syms := 0, radiated := 1 }
    else if t < tr + body then
      let k := min total ((t - tr) * profRs b.prof / 1000000000 + 1)
      { stop := b.start + 2 * tr + symNs b.prof k, syms := k, radiated := 1 }
    else if c < b.stop then { stop := b.stop, syms := total, radiated := 1 }
    else { stop := b.stop, syms := total, radiated := 2 }

/-- NOW32 of a time in ns. -/
def now32Of (ns : Nat) : Nat := ns / 32 % 2 ^ 32

/-- The result of a burst that has come down: PROGRESS, RADIATED, the two times, and whether a sample of it saturated (R246, R249). -/
def State.burstResult (s : State) (b : BurstCtx) (r : BurstEnd) : EngJob × State :=
  let (bytes, s) := s.bytesIn b.prof b.desc r.syms
  ({ b.job with
      ran := true, summary := if b.stopAt.isSome then 8 else bn b.sat, detail := bn b.sat, progress := bytes, r0 := r.radiated
      r1 := now32Of b.start, r2 := now32Of r.stop }, s)

/-! ### Output samples (R222, R245, R246) -/

/-- The amplitude of a burst `t` / `den` ns after its START: ramp up, the symbols, ramp down; a ramp up that a cancel has turned round comes
down the way it went up (R250). -/
def burstAmp (b : BurstCtx) (t den : Nat) : Nat :=
  let e := burstEndOf b
  let tr := rampNs b.desc
  let lin := tb (leAt b.desc 34 1) 0
  let rs := profRs b.prof
  let turned := (b.stopAt.getD b.stop - b.start) * den
  if e.radiated = 1 ∧ e.syms = 0 then
    if t < turned then rampUp lin t tr den else if t < 2 * turned then rampUp lin (2 * turned - t) tr den else 0
  else if t < tr * den then rampUp lin t tr den
  else
    let u := (t - tr * den) * rs
    let body := e.syms * 1000000000 * den
    if u < body then fixOne
    else if u - body < tr * den * rs then rampUp lin (tr * den * rs - (u - body)) tr (den * rs)
    else 0

/-- What a burst adds to the output sample `t` / `den` ns after its START, shifted to the centre of its channel, in fixed point. -/
def burstWave (b : BurstCtx) (centre : Int) (t den : Nat) : Int × Int :=
  let e := burstEndOf b
  let rs := profRs b.prof
  let all := burstSymbols b.prof b.desc b.data
  let x0 : Int := -((rampNs b.desc * rs * fixOne / 1000000000 : Nat) : Int)
  let x : Int := x0 + ((t * rs * fixOne / (den * 1000000000) : Nat) : Int)
  let turns := ((b.turn0 * 2 ^ 32 : Nat) : Int) + centre * ((t * fixOne : Nat) : Int) / ((den * 1000000000 : Nat) : Int) +
    fskPhase (gaussSigma (leAt b.prof 0 1 / 2 % 4)) (leAt b.prof 2 2) (all.take e.syms) (all.headD 1) x0 x
  let w := turn turns fixOne
  let a : Int := ((leAt b.desc 36 2 * burstAmp b t den : Nat) : Int)
  (a * w.1 / (fixOne : Int), a * w.2 / (fixOne : Int))

/-- How far a burst is on the air at `num` / `den` ns: the part of a ns after its START, where the sample lies in its interval. -/
def burstSince (num : Int) (den : Nat) (b : BurstCtx) : Option Nat :=
  let t := num - ((b.start * den : Nat) : Int)
  if b.phase = .fresh ∨ t < 0 ∨ (((burstEndOf b).stop - b.start) * den : Nat) ≤ t then none else some t.toNat

/-- The output sample of an NFE at `num` / `den` ns: the contributions of its bursts added, rounded and saturated; a saturated one is counted
and marks every burst in it. -/
def State.nfeSample (s : State) (n : Nat) (num : Int) (den : Nat) : BitVec 32 × State :=
  let f := s.nfeAt n
  let ws := f.ctx.filterMap fun c => c.2.bind fun b => (burstSince num den b).map fun t => burstWave b (chanCentre f.plan (leAt b.desc 32 1)) t den
  let re := fxSat (fixRound ((ws.map (·.1)).sum) 0) 16
  let im := fxSat (fixRound ((ws.map (·.2)).sum) 0) 16
  let v := BitVec.ofNat 32 (wrap 16 re.1 + 65536 * wrap 16 im.1)
  if re.2 ∨ im.2 then
    let mark := fun (b : BurstCtx) => if (burstSince num den b).isSome then { b with sat := true } else b
    (v, (s.setNfe n { f with ctx := f.ctx.map fun c => (c.1, c.2.map mark) }).count (Reg.nfeSat n) 1)
  else (v, s)

/-- The NFE whose plan receives from a stream, and the one that transmits on it. -/
def State.nfeRx? (s : State) (st : Nat) : Option Nat := (List.range 4).find? fun n => s.nfeOn n && decide (leAt (s.plan n) 8 2 = st)
def State.nfeTx? (s : State) (st : Nat) : Option Nat := (List.range 4).find? fun n => s.nfeOn n && s.rdB (Reg.nfeCtrl n) 1 && decide (leAt (s.plan n) 10 2 = st)

/-- A burst that is up comes down: the clock runs to the end of its ramp down; a blanked channel resumes 10 µs later. -/
def State.burstDown (s : State) (n ctx : Nat) (b : BurstCtx) : State :=
  let r := burstEndOf b
  let s := s.until (r.stop * 2 ^ 32)
  let (j, s) := s.burstResult b r
  let s := s.setBurst n ctx (some { b with phase := .ended, stop := r.stop, job := j })
  let s := s.tally 2 (s.engPhys (76 + n)) 8 1
  let ch := leAt b.desc 32 1
  let x := s.chan n ch
  if x.blanked then s.setChan n ch { x with resume := r.stop + 10000 } else s

/-- What follows the end of a burst: its follow-on submission, if it has one, and then its status (R188). -/
def State.burstNext (s : State) (n ctx : Nat) : State :=
  match s.burstAt n ctx with
  | none => s
  | some b =>
    let j := b.job
    if b.phase ≠ .ended ∨ (j.held = true ∧ b.stopAt = none) then s
    else
      match (if j.submitted ∨ b.stopAt.isSome then none else j.next) with
      | none =>
        let j := if b.stopAt.isSome then { j with summary := 8 } else withHandle j
        s.burstFinish n ctx b j
      | some a =>
        match s.engRead (76 + n) a 32 with
        | (some f, _, s) => if f.1 = memWaits then s else s.burstFinish n ctx b { j with summary := f.1, detail := 0, faultAddr := f.2 }
        | (none, bs, s) =>
          let idem := match s.task? b.slot with
            | some t => dIdem t.words
            | none => false
          (s.hold (.burst n ctx) (wordsOf bs) idem).setBurst n ctx (some { b with job := { j with held := true } })

/-- `BURST_END` (R249, R250): a burst comes down, or ends unradiated where a cancel committed before START; with a follow-on submission
answered, its status is written. -/
def State.burstEnd (s : State) (n ctx : Nat) : State :=
  match s.burstAt n ctx with
  | none => s
  | some b =>
    match b.phase with
    | .up => (s.burstDown n ctx b).burstNext n ctx
    | .ended => s.burstNext n ctx
    | .scheduled =>
      match b.stopAt with
      | some t => if t < b.start then s.burstFinish n ctx b { b.job with ran := true, summary := 8 } else s
      | none => s
    | .fresh => s

def execBurstEnd (n ctx : Nat) (s : State) : Answer := pcmd (decide (n < 4) && decide (ctx < 64)) s fun s => s.burstEnd n ctx

/-- A burst on the channel is up. -/
def State.chanUp (s : State) (n ch : Nat) : Bool :=
  (s.nfeAt n).ctx.any fun e =>
    match e.2 with
    | some b => b.phase == .up && decide (leAt b.desc 32 1 = ch)
    | none => false

/-- `BLANK_RESUME` (R248): 10 µs after the ramp down of the channel's last burst, search begins again. -/
def State.blankResume (s : State) (n ch : Nat) : State :=
  let x := s.chan n ch
  if !x.blanked || s.chanUp n ch then s else (s.until (x.resume * 2 ^ 32)).setChan n ch .reset

def execBlankResume (n ch : Nat) (s : State) : Answer := pcmd (decide (n < 4) && decide (ch < 128)) s fun s => s.blankResume n ch

/-! ### Plans taking effect, unit faults and the spare (R228, R251) -/

/-- The header fields whose change restarts every channel: FS, SPACING, F0, RX_STREAM and the rings. -/
def planKey (b : List Byte) : List Nat := [leAt b 0 1, leAt b 1 1, leAt b 36 4, leAt b 8 2, leAt b 12 1, leAt b 13 1, leAt b 16 8, leAt b 24 8]

/-- A channel that a new plan restarts. -/
def planRestarts (old new : List Byte) (ch : Nat) : Bool :=
  planKey old != planKey new || chanRec old ch != chanRec new ch || (profSet (chanRec new ch)).any fun p => profRec old p != profRec new p

/-- Every report due is written, to the rings that its plan gave. -/
def State.flushReports (s : State) (n : Nat) : State := (List.range (s.nfeAt n).done.length).foldl (fun s _ => s.reportWrite n) s

/-- A checked plan takes effect (R228): the reports due go to the old rings, channels restart, the engine runs. -/
def State.planApply (s : State) (n : Nat) (b : List Byte) : State :=
  let old := s.plan n
  let s := (s.busyChans n).foldl (fun s ch => if planRestarts old b ch then s.dropPacket n ch 5 else s) s
  let s := s.flushReports n
  let s := s.setNfe n { s.nfeAt n with plan := b, st := .running }
  let margin := if leAt b 4 1 = 255 then 6 else leAt b 4 1
  s.wr (Reg.nfeCtrl n) (2 ^ 31 + margin * 256 + 2 * bn (leAt b 10 2 ≠ 65535) + 1)

/-- The slots of an engine's transmit tasks: those that its contexts hold, and those for its own class that wait, are held or queued. -/
def State.burstTasks (s : State) (n : Nat) : List Nat :=
  ((s.nfeAt n).ctx.filterMap fun c => c.2.map fun b => b.slot) ++ (s.taskList.filter fun e => decide (dClass e.2.words = 39 + n) && e.2.unit.isNone).map (·.1)

/-- STOP (R228): every reception ends ABORTED, every transmit task of the engine is cancelled, and the engine is disabled. -/
def State.planStop (s : State) (n : Nat) : State :=
  let s := (s.busyChans n).foldl (fun s ch => s.dropPacket n ch 5) s
  let s := (s.burstTasks n).foldl (fun s sl => (s.cancelTask sl).2) s
  let s := s.flushReports n
  let f := s.nfeAt n
  let s := s.setNfe n { f with st := if f.st = .running then .idle else f.st, plan := [], chans := [] }
  (s.wrF (Reg.nfeCtrl n) 1 0 0).wrF (Reg.nfeCtrl n) 31 31 0

/-- The spare takes over an NFE's plan (R251): receptions end REMAPPED, attempts are dropped. -/
def State.nfeRemap (s : State) (n : Nat) : State := (s.busyChans n).foldl (fun s ch => s.dropPacket n ch 8) s

/-- A unit fault of an NFE: every running burst ends FAULT with its record left PENDING, and the engine is isolated (R104, R251). -/
def State.nfeFault (s : State) (n : Nat) : State :=
  let f := s.nfeAt n
  let slots := f.ctx.filterMap fun c => c.2.map fun b => (c.1, b.slot)
  let s := slots.foldl (fun s c => s.withdraw (.burst n c.1)) s
  let s := s.setNfe n { f with ctx := [], st := .isolated }
  slots.foldl (fun s c => (s.faultTask (.burst n c.1) c.2 0x20).2) s

/-- `NFE[n].STAT` (R254). -/
def State.nfeStat (s : State) (n : Nat) : Nat :=
  let f := s.nfeAt n
  let st := match f.st with
    | .sleep => 2
    | .off => 3
    | .isolated => 4
    | _ => if f.plan.isEmpty || !s.rdB (Reg.nfeCtrl n) 31 then 0 else 1
  let rx := if f.plan.isEmpty then 0 else ((List.range 128).filter fun ch => chanRx (chanRec f.plan ch)).length
  st * 2 ^ 28 + (f.ctx.filter fun c => c.2.isSome).length * 2 ^ 16 + rx

end Sys2Proof.Machine
end

