-- ==== Sys2Proof/Machine/Wake.lean ====
section
/-! DEFINITION. Payload power as Nightwatch drives it: entry to DEEP and OFF (R454, R455, R481), the wake sequence and its failures
(R459 to R464), payload resets (R465, R466), wake sources (R457, R458), power-good, barrier, supply and insertion events (R463, R470,
R473, R485, R487, R488). -/

namespace Sys2Proof.Machine

/-! ### The payload off -/

/-- A Decant channel told to abort (R454 step 2, R284). -/
def State.stopChannel (s : State) (ch : Nat) : State :=
  let x := s.dctAt ch
  if x.phase = .idle ∨ x.phase = .isolated then s
  else (((s.withdraw (.decant ch)).setDct ch { x with abort := true }).wrF (Reg.dctChStat ch) 31 28 3).wrF (Reg.dctChStat ch) 27 26 1

/-- Steps 1 and 2 of R454: admission off, every uncommitted task cancelled, every Decant chain aborted. -/
def State.quiet (s : State) : State :=
  let s := s.wrF Reg.cmCtrl 0 0 0
  let s := (s.taskList.map (·.1)).foldl (fun s sl => (s.cancelTask sl).2) s
  (s.dct.map (·.1)).foldl (fun s ch => s.stopChannel ch) s

/-- Every task has committed, its record is written, and every channel is IDLE. -/
def State.isQuiet (s : State) : Bool :=
  s.taskList.isEmpty && s.cm.records.isEmpty && s.dct.all fun e => e.2.phase == .idle || e.2.phase == .isolated

/-- The firmware refuses DEEP and OFF while a carrier is started, an NFE plan installed or a Tether request pending (R454). -/
def State.entryRefused (s : State) : Bool :=
  (s.fw.carriers.any fun e => match e.2 with
    | some c => started c
    | none => false) ||
  (s.nfes.any fun e => !e.2.plan.isEmpty) || (List.range 3).any fun t => decide (s.rd (Reg.fhmTlPi t) ≠ s.rd (Reg.fhmTlCi t))

/-- What a fall of the enables leaves, without any order: the payload is off, no entry or wake is in progress, and the OFF is not
accounted (R384, R463). -/
def State.dropAll (s : State) : State :=
  let s := { s with
    nw := { s.nw with en := 0, pg := 0, stage := 0, wait := false, offReq := false, forced := false, rstReq := false, latched := 0,
                      grace := 0, wakeAt := none }
    pwr := { s.pwr with accounted := false } }.payloadDown
  ((s.wr Reg.nwbCtrl 0).wrF Reg.nwbStat 29 29 0).wrF Reg.nwbStat 15 0 0

/-! ### A wake begins (R455, R457, R460) -/

/-- The enables of orders 1 to 8, and of orders 5 to 8, of R459. -/
def allRails : Nat := 0xFF
def deepRails : Nat := 0x0F

/-- The enables in the order of R459. -/
def railOrder : List Nat := [6, 5, 7, 4, 1, 0, 3, 2]

/-- Enables raised in that order. -/
def State.railsOn (s : State) (mask : Nat) : State :=
  { s with nw := { s.nw with en := s.nw.en ||| mask } }.emit (.rails (railOrder.filter fun n => tb mask n) true)

/-- The enables of a mask are about to be dropped in the reverse order. -/
def State.railsOff (s : State) (mask : Nat) : State := s.emit (.rails (railOrder.reverse.filter fun n => tb s.nw.en n && tb mask n) false)

/-- A wake starts with its regulator stage. -/
def State.startWake (s : State) (mask : Nat) : State :=
  if !(s.nw.pstate == .off || s.nw.pstate == .deep) then s
  else
    let deep := s.nw.pstate == .deep
    { s with nw := { s.nw with
        pstate := .waking, stage := 1, kind := if deep then .fromDeep else .fromOff, tries := 1, wait := false, offReq := false
        wsrc := mask, latched := 0 } }.railsOn (if deep then deepRails else allRails)

/-- A wake source (R457): latched during an entry (R455); WAKE_N, WSENSE and the timer only where they are enabled and armed. -/
def State.source (s : State) (bit : Nat) : State :=
  if bit ≠ 2 ∧ (s.nw.disarmed ∨ !tb (s.nw.wakecfg.getD 0 0).toNat bit) then s
  else
    match s.nw.pstate with
    | .entering => { s with nw := { s.nw with latched := s.nw.latched ||| 2 ^ bit } }
    | _ => s.startWake (2 ^ bit)

/-- `WAKE_N_ASSERT`. -/
def execWakeNAssert (s : State) : Answer := cmd true s fun s => if s.nw.on then s.source 0 else s

/-- `WSENSE_TRIP`: the comparator input as a threshold code, held for DEBOUNCE ms. It fires past the threshold once, and re-arms
when the input has returned past it by HYST codes. -/
def State.wsenseTrip (s : State) (code : Nat) : State :=
  let cfg := fun i => (s.nw.wakecfg.getD i 0).toNat
  let below := tb (cfg 2) 0
  let hyst := fld (cfg 2) 6 4
  let past := if below then decide (code < cfg 1) else decide (cfg 1 ≤ code)
  let back := if below then decide (cfg 1 + hyst ≤ code) else decide (code + hyst < cfg 1)
  let armed := s.nw.wsArmed
  let s := { s with nw := { s.nw with wsense := code, wsArmed := (armed && !past) || (!armed && back) } }
  if armed && past then s.source 1 else s

def execWsenseTrip (code : Nat) (s : State) : Answer :=
  cmd (decide (code < 256)) s fun s => if s.nw.on && tb (s.nw.wakecfg.getD 0 0).toNat 1 then s.wsenseTrip code
    else { s with nw := { s.nw with wsense := code } }

/-- `WAKE_TIMER`: the tick count has reached the wake time. -/
def State.wakeTimer (s : State) : State :=
  match s.nw.wakeTick with
  | none => s
  | some t => { s with nw := { s.nw with wakeTick := none, ticks := max s.nw.ticks t } }.source 3

def execWakeTimer (s : State) : Answer := cmd true s fun s => if s.nw.on && s.nw.xtal then s.wakeTimer else s

/-! ### Endings -/

/-- The payload ends OFF without a fault. -/
def State.endOff (s : State) (forced : Bool) : State := (s.dropAll.toPstate .off).nwEvent 6 (bn forced * 256)

/-- A wake fails (R461): every stage undone, the payload OFF, a wake fault recorded. -/
def State.wakeFail (s : State) (stage detail : Nat) : State := ((s.railsOff allRails).dropAll.toPstate .off).nwFault stage detail

/-- A stage boundary: a power-off request that came during the wake is taken there (R462). -/
def State.boundary (s : State) (f : State → State) : State := if s.nw.offReq then (s.railsOff allRails).endOff false else f s

/-! ### Payload resets and the memory and logic stages (R460, R465, R466) -/

/-- The wake or reset keeps what R466 lists. -/
def keepsIt : WakeKind → Bool
  | .fromDeep => true
  | .warm => true
  | _ => false

/-- `PWR.WAKE_STAT.ORIGIN`. -/
def originOf : WakeKind → Nat
  | .fromOff => 0
  | .fromDeep => 1
  | .warm => 2
  | .cold => 3

/-- Channels that hold their training values leave self-refresh (R315). -/
def State.dramExit (s : State) : State :=
  (List.range 6).foldl (fun s n => if (s.dmcAt n).trained then s.wrF (Reg.dmcStat n) 31 28 2 else s) s

/-- The retention check (R460). -/
def State.retentionOk (s : State) : Bool := decide (crc32 s.nw.flops = s.nw.flopCrc) && !s.nw.vretLow

/-- The logic stage begins: the payload reset takes effect and is released, `PWR.WAKE_STAT` is written, Meridian resumes where it
was accounted (R385), and the boot ROM runs. Where it accepts no image, the stage fails (R501). -/
def State.logicStage (s : State) : State :=
  let k := s.nw.kind
  let acc := s.pwr.accounted && decide (k ≠ .cold)
  let s := s.payloadReset (keepsIt k)
  let s := if keepsIt k then s.dramExit else s
  let src := match k with
    | .fromOff => s.nw.wsrc
    | .fromDeep => s.nw.wsrc
    | _ => 0
  let s := s.wr Reg.pwrWakeStat (originOf k * 2 ^ 28 + src % 16 * 2 ^ 20 + bn s.pwr.refb * 2 ^ 19)
  let s := { s with nw := { s.nw with stage := 4, rstReq := false }, pwr := { s.pwr with up := true, accounted := false, wsrc := src } }
  let s := if acc then s.resume else s
  match (s.setFwSt 1).romBoot (keepsIt k) with
  | (true, s) => s
  | (false, s) => s.wakeFail 4 2

/-- The logic stage is ready: PSTATE = RUN, `us` µs after the wake source. -/
def State.wakeDone (s : State) (us : Nat) : State :=
  let s := s.wrF Reg.pwrWakeStat 15 0 (min 65535 (us / 10))
  let s := { s with nw := { s.nw with stage := 0 } }.toPstate .run
  let s := s.nwEvent 4 (s.rdF Reg.pwrWakeStat 23 20 + bn s.pwr.refb * 256 + s.rdF Reg.pwrWakeStat 18 18 * 512)
  match s.nw.kind with
  | .fromOff => s.pwrNotice 0 0 4 0
  | .fromDeep => s.pwrNotice 0 0 3 0
  | _ => s

/-- `WAKE_STAGE_READY`: the stage in progress is ready and the next one begins. The oscillator stage is ready once the PLLs have locked: to
REFCLK_A, which is then present, or after the fall-back to REFCLK_B. Without the barrier link no regulator is enabled (R473). -/
def State.wakeReady (s : State) (us : Nat) : State :=
  let n := s.nw
  match n.stage with
  | 1 =>
    if n.wait || !n.link then s
    else { s with nw := { n with pg := n.en } }.boundary fun s =>
      { s with nw := { s.nw with stage := 2 }, pwr := { s.pwr with refb := false } }
  | 2 => s.boundary fun s => { s with nw := { s.nw with stage := 3 }, pwr := { s.pwr with refA := s.pwr.refA || !s.pwr.refb } }
  | 3 =>
    if keepsIt n.kind && !s.retentionOk then s.wakeFail 3 2
    else if keepsIt n.kind && !s.savedOk then s.wakeFail 3 4
    else s.boundary State.logicStage
  | 4 => if s.rdB Reg.nwbCtrl 0 then s.boundary fun s => s.wakeDone us else s
  | _ => s

def execWakeStageReady (us : Nat) (s : State) : Answer :=
  otpCmd true s fun s => if s.nw.pstate = .waking then s.wakeReady us else s

/-- `WAKE_STAGE_TIMEOUT`: the regulator stage is tried three times, 100 ms apart, and the oscillator stage falls back to REFCLK_B
once; any other timeout fails the wake. `detail` is the DETAIL of stages 1 and 3 (R461). -/
def State.stageTimeout (s : State) (detail : Nat) : State :=
  let n := s.nw
  match n.stage with
  | 1 =>
    if n.wait then s
    else if 3 ≤ n.tries then s.wakeFail 1 (detail % 256)
    else
      let off := if n.kind = .fromDeep then deepRails else allRails
      { s with nw := { n with wait := true, en := n.en &&& (0xFF - off) } }
  | 2 => if s.pwr.refb then s.wakeFail 2 1 else { s with pwr := { s.pwr with refb := true } }
  | 3 => s.wakeFail 3 (if detail = 3 ∨ detail = 4 then detail else 1)
  | 4 => s.wakeFail 4 1
  | _ => s

def execWakeStageTimeout (detail : Nat) (s : State) : Answer :=
  cmd true s fun s => if s.nw.pstate = .waking then s.stageTimeout detail else s

/-- `REGULATOR_RETRY`: the next attempt, 100 ms after a timeout. -/
def State.regulatorRetry (s : State) : State :=
  if s.nw.pstate = .waking ∧ s.nw.stage = 1 ∧ s.nw.wait then
    { s with nw := { s.nw with wait := false, tries := s.nw.tries + 1 } }.railsOn (if s.nw.kind = WakeKind.fromDeep then deepRails else allRails)
  else s

def execRegulatorRetry (s : State) : Answer := cmd true s fun s => s.regulatorRetry

/-- A payload cold or warm reset: the resets are asserted and the memory stage begins, the rails left on. A warm one saves the
valid map and sends the last timing frame first. Only in RUN (R455). -/
def State.resetPayload (s : State) (k : WakeKind) : State :=
  let s := if k = .warm then
      let s := s.lastFrame.saveMap
      { s with nw := { s.nw with flops := s.fw.resident, flopCrc := crc32 s.fw.resident, vretLow := false } }
    else { s with pwr := { s.pwr with accounted := false } }
  let s := (s.payloadDown).wr Reg.nwbCtrl 0
  { s with nw := { s.nw with kind := k, stage := 3, rstReq := true, wsrc := 0, offReq := false } }.toPstate .waking

/-- `PWR_RST_COLD`: KIND 1. -/
def execPwrRstCold (i : Nat) (s : State) : Answer :=
  pcmd (decide (i < 4)) s fun s =>
    if s.nw.pstate ≠ .run then s else s.rstGo 1 0 fun s => s.resetPayload .cold

/-- `PWR_RST_WARM`: KIND 2. -/
def execPwrRstWarm (i : Nat) (s : State) : Answer :=
  pcmd (decide (i < 4)) s fun s =>
    if s.nw.pstate ≠ .run then s else s.rstGo 2 0 fun s => s.resetPayload .warm

/-! ### Entry (R454, R458, R481) -/

/-- An entry to DEEP or OFF begins with the firmware's steps 1 and 2. -/
def State.beginEntry (s : State) (deep : Bool) : State :=
  { s.quiet with pwr := { s.quiet.pwr with entry := .prep deep } }.toPstate .entering

/-- WAKE_AT becomes a tick count, from T_stop and P; it replaces the timer's wake time (R458). -/
def State.setWakeAt (s : State) : State :=
  match s.nw.wakeAt with
  | none => s
  | some 0 => { s with nw := { s.nw with wakeTick := none, wakeAt := none } }
  | some at_ =>
    let p := if s.nw.period = 0 then nominalP else s.nw.period
    let d := at_ * 2 ^ 32 - s.nw.tstop
    { s with nw := { s.nw with wakeTick := some (s.nw.tstopTick + (d + p - 1) / p), wakeAt := none } }

/-- Steps 3 to 5: for DEEP the resident copy's digest and the valid map are recorded; the last timing frame is sent; links go down and
Nightwatch records the CRC of the retention flops. -/
def State.entrySteps (s : State) (deep : Bool) : State :=
  let s := if deep then
      let d := if s.fw.imageLen = 0 then [] else sha384 (s.devBytes residentBase s.fw.imageLen)
      ({ s with fw := { s.fw with resident := d } } : State).saveMap
    else s
  let s := s.lastFrame.setWakeAt
  { s with nw := { s.nw with flops := s.fw.resident, flopCrc := crc32 s.fw.resident, vretLow := false } }

/-- Every DRAM channel in use is in self-refresh. -/
def State.dramAsleep (s : State) : Bool := (List.range s.nch).all fun n => s.dmcState n == 3 || !(s.dmcAt n).trained

/-- The rails of the target state are down: the state is reached, and sources latched during the entry wake it at once (R455). -/
def State.railsDown (s : State) (deep forced : Bool) : State :=
  let latched := s.nw.latched
  let acc := s.pwr.accounted && !forced
  let s := (s.railsOff (if deep then deepRails else allRails)).dropAll
  let s := { s with nw := { s.nw with en := if deep then 0xF0 else 0, pg := if deep then 0xF0 else 0 }, pwr := { s.pwr with accounted := acc } }
  let s := (s.toPstate (if deep then .deep else .off)).nwEvent 6 ((if deep then 3 else 0) + bn forced * 256)
  if latched = 0 then s else s.startWake latched

/-- `ENTRY_RAILS_DOWN`. -/
def State.entryRailsDown (s : State) : State :=
  if s.nw.pstate ≠ .entering then s
  else
    match s.pwr.entry with
    | .rails deep forced => s.railsDown deep forced
    | .prep deep => if s.isQuiet && (!deep || s.dramAsleep) then (s.entrySteps deep).railsDown deep false else s
    | _ => s

def execEntryRailsDown (s : State) : Answer := cmd true s State.entryRailsDown

/-- The forced path (R481): the payload reset request, then the enables in reverse order. -/
def State.forcedPath (s : State) : State :=
  let s := { s.payloadDown with nw := { s.nw with rstReq := true, forced := true, grace := 0, wakeAt := none } }
  let s := ((s.wr Reg.nwbCtrl 0).wrF Reg.nwbStat 29 29 0).wrF Reg.nwbStat 15 0 0
  { s with pwr := { s.pwr with accounted := false, entry := .rails false true } }.toPstate .entering

/-- The firmware's part of an orderly OFF before it writes OFF_ACK (R481 step 2): every carrier, NFE plan and Tether request
stopped, the notice, and steps 1 and 2 of R454. -/
def State.fwStop (s : State) : State :=
  let s := (s.fw.carriers.map (·.1)).foldl (fun s c =>
    match s.carrier? c with
    | some x => (s.setCarrier c (some { x with st := .stopped })).wrF (Reg.mrdTlCtrl c) 29 29 0
    | none => s) s
  let s := (s.nfes.map (·.1)).foldl (fun s n => if (s.nfeAt n).plan.isEmpty then s else s.planStop n) s
  let tether := s.front.tether.map fun e => (e.1, { e.2 with entries := [], flight := [] })
  let s := { s with front := { s.front with tether := tether } }
  (s.pwrNotice 0 0 0 4).quiet

/-- An orderly OFF begins (R481 step 1). -/
def State.orderlyOff (s : State) (grace : Nat) : State :=
  let g := if grace = 0 then 1000 else grace
  let s := { s with nw := { s.nw with grace := g, graceFrom := s.nw.ticks * xtalUnit + s.nw.sub } }.toPstate .entering
  let s := ((s.wrF Reg.nwbStat 29 29 1).wrF Reg.nwbStat 15 0 g).wrF Reg.nwbIrq 1 1 1
  if s.pwr.up && decide (s.fwSt = 3) then { s.fwStop with fw := { s.fwStop.fw with offHost := true } } else s

/-- OFF_ACK written while an orderly OFF awaits it: step 5 of R454, then Nightwatch disables the rails. -/
def State.offAck (s : State) : State :=
  if !s.rdB Reg.nwbStat 29 then s
  else
    let s := (s.entrySteps false).payloadDown
    let s := { s with pwr := { s.pwr with entry := .rails false false } }
    (s.wrF Reg.nwbStat 29 29 0).wrF Reg.nwbStat 15 0 0

/-- A write of `NWB.CTRL`: ALIVE follows the value, a 1 sets OFF_ACK. -/
def State.nwbCtrlWrite (s : State) (v : Nat) : State :=
  let s := s.setAlive (tb v 0) 1
  if tb v 1 then (s.wrF Reg.nwbCtrl 1 1 1).offAck else s

/-- `NWB_OFF_ACK`. -/
def execNwbOffAck (i : Nat) (v : Word) (s : State) : Answer :=
  pcmd (decide (i < 4)) s fun s => s.nwbCtrlWrite (v.toNat ||| 2)

/-- `NWB_ALIVE`. -/
def execNwbAlive (i : Nat) (v : Word) (s : State) : Answer :=
  pcmd (decide (i < 4)) s fun s => s.nwbCtrlWrite (setFld v.toNat 1 1 0)

/-- `OFF_GRACE_EXPIRE`. -/
def execOffGraceExpire (s : State) : Answer :=
  cmd true s fun s => if s.nw.pstate = .entering ∧ s.rdB Reg.nwbStat 29 then s.forcedPath else s

/-! ### NW.POWER (R462, R480) -/

/-- A power request of the shelf: its status, and what it starts. -/
def State.nwPower (s : State) (op grace : Nat) : Nat × State :=
  let p := s.nw.pstate
  if op = 7 then
    let f := s.nw.fstage
    let s := if f = 0 then s else s.nwEvent 0xA f
    (stOk, { s with nw := { s.nw with faults := 0, fstage := 0, fdetail := 0, ftime := 0, disarmed := false } })
  else if 7 < op then (stBadParam, s)
  else if p = .waking ∧ 1 ≤ op ∧ op ≤ 3 then (stAccepted, { s with nw := { s.nw with offReq := true } })
  else if p = .waking ∨ p = .entering then (stBusy, s)
  else
    match op with
    | 0 => if p = .off ∨ p = .deep then (stAccepted, s.source 2) else (stBadState, s)
    | 4 =>
      if p ≠ .run ∨ s.fwSt ≠ 3 ∨ s.entryRefused then (stBadState, s) else (stAccepted, s.beginEntry true)
    | 5 => if p = .run then (stAccepted, s.resetPayload .cold) else (stBadState, s)
    | 6 => if p = .run then (stAccepted, s.resetPayload .warm) else (stBadState, s)
    | _ =>
      if p = .off ∨ p = .absent then (stBadState, s)
      else if op = 3 then (stAccepted, s.endOff false)
      else if op = 2 then (stAccepted, s.forcedPath)
      else if p = .deep then
        (stAccepted, { s with pwr := { s.pwr with entry := .rails false false } }.toPstate .entering)
      else (stAccepted, s.orderlyOff grace)

/-! ### Faults and events of the shelf side (R463, R470, R473, R474, R484, R487, R488) -/

/-- `POWER_GOOD_FALL`: outside entry and wake every enable drops at once and a fault is recorded. -/
def State.pgFall (s : State) (n : Nat) : State :=
  if !tb s.nw.en n then s
  else
    let s := { s with nw := { s.nw with pg := setFld s.nw.pg n n 0 } }
    let low := s.nw.en &&& (0xFF - s.nw.pg % 256)
    match s.nw.pstate with
    | .run => (s.dropAll.toPstate .off).nwFault 5 low
    | .deep => (s.dropAll.toPstate .off).nwFault 5 low
    | _ => s

def execPowerGoodFall (n : Nat) (s : State) : Answer := cmd (decide (n < 8)) s fun s => s.pgFall n

/-- `VDD_CORE_UNDERVOLT`: every payload reset is asserted and alive falls (R525). -/
def State.selfReset (s : State) (cause : Nat) : State := (s.setAlive false cause).payloadDown

def execVddCoreUndervolt (s : State) : Answer := pcmd true s fun s => s.selfReset 2

/-- `OVERTEMP_RESET` (R532). -/
def execOvertempReset (s : State) : Answer := pcmd true s fun s => s.selfReset 3

/-- `SB_VIN_RISE`: above 4.3 V shelf power-on reset is released (R465, R470). -/
def State.sbVinRise (s : State) (mv : Nat) : State :=
  if s.nw.on ∨ mv ≤ 4300 then { s with nw := { s.nw with sbVin := mv } }
  else { s.payloadDown.resetRegs fun o => shelfReg o || o == Reg.nwbCtrl with nw := { NwState.reset with on := true, sbVin := mv } }

def execSbVinRise (mv : Nat) (s : State) : Answer := cmd true s fun s => s.sbVinRise mv

/-- `SB_VIN_FALL`: below 4.1 V Nightwatch stops and every enable goes high-Z. -/
def State.sbVinFall (s : State) (mv : Nat) : State :=
  if !s.nw.on ∨ 4100 ≤ mv then { s with nw := { s.nw with sbVin := mv } }
  else { s.dropAll with nw := { NwState.reset with sbVin := mv } }

def execSbVinFall (mv : Nat) (s : State) : Answer := cmd true s fun s => s.sbVinFall mv

/-- `SB_VIN_LOW`: SB_VIN falls below 4.6 V. -/
def State.sbVinLow (s : State) (mv : Nat) : State :=
  let t : State := { s with nw := { s.nw with sbVin := mv } }
  if s.nw.on ∧ mv < 4600 then t.nwEvent 0xC mv else t

def execSbVinLow (mv : Nat) (s : State) : Answer := cmd true s fun s => s.sbVinLow mv

/-- `STRAP_SAMPLE`: the address straps, sampled once; the ports answer from then on. -/
def State.strapSampled (s : State) (a : Nat) : State :=
  if !s.nw.on ∨ s.nw.sampled then s else { s with nw := { s.nw with strapA := a, sampled := true } }.nwEvent 1 a

def execStrapSample (a : Nat) (s : State) : Answer := cmd (decide (a < 8)) s fun s => s.strapSampled a

/-- `XTAL32_START`. -/
def execXtal32Start (s : State) : Answer :=
  cmd true s fun s => if s.nw.on then { s with nw := { s.nw with xtal := true } } else s

/-- `VRET_LOW`: below 0.55 V since entry, the retention check fails. -/
def State.vretSeen (s : State) (mv : Nat) : State :=
  let low := decide (mv < 550) && (s.nw.pstate == .deep || s.nw.pstate == .entering || s.nw.pstate == .waking)
  { s with nw := { s.nw with vret := mv, vretLow := s.nw.vretLow || low } }

def execVretLow (mv : Nat) (s : State) : Answer := cmd true s fun s => s.vretSeen mv

/-- `KEEPALIVE_SEND`: the endpoint that receives it has the link up. -/
def State.keepaliveSent (s : State) : State :=
  if !s.nw.on then s
  else
    let up := s.nw.link || s.nw.vauxp
    ({ s with nw := { s.nw with keepalives := s.nw.keepalives + 1, link := up } }.wrF Reg.nwbStat 31 31 (bn up)).emit .keepalive

def execKeepaliveSend (s : State) : Answer := cmd true s fun s => s.keepaliveSent

/-- `KEEPALIVE_LOSS`: every enable falls at once; that is a fault while the payload is not OFF (R473). -/
def State.keepaliveLost (s : State) : State :=
  if !s.nw.link then s
  else
    let s := ({ s with nw := { s.nw with link := false } }.wrF Reg.nwbStat 31 31 0).wrF Reg.nwbIrq 3 3 1
    if s.nw.pstate = .off ∨ s.nw.pstate = .absent then s else (s.dropAll.toPstate .off).nwFault 7 0

def execKeepaliveLoss (s : State) : Answer := cmd true s fun s => s.keepaliveLost

/-- `NW_WATCHDOG_EXPIRE`: the controller restarts; requests and responses of its ports are lost, nothing else changes. -/
def State.nwRestart (s : State) : State :=
  if !s.nw.on then s
  else
    let ports := s.nw.ports.map fun e => (e.1, { ShelfPort.reset with bad := e.2.bad })
    { s with nw := { s.nw with ports := ports.filter fun e => decide (e.2 ≠ ShelfPort.reset), order := [] } }.nwEvent 0xB 0

def execNwWatchdogExpire (s : State) : Answer := cmd true s fun s => s.nwRestart

/-- The POLICY byte of the wake configuration. -/
def State.policy (s : State) : Nat := (s.nw.wakecfg.getD 8 0).toNat

/-- EJECT seen, with EXTRACT_SAFE where the payload is off (R487). -/
def State.ejectSeen (s : State) : State :=
  let u := ((({ s with nw := { s.nw with eject := true } } : State).wrF Reg.nwbStat 30 30 1).wrF Reg.nwbIrq 0 0 1).nwEvent 7 0
  if s.nw.pstate = .off ∨ s.nw.pstate = .absent then u.nwEvent 9 0 else u

/-- `EJECT_ASSERT` (R482, R487): by POLICY, an orderly OFF with GRACE = 1,000 ms. -/
def State.ejectAssert (s : State) : State :=
  if !s.nw.on ∨ s.nw.eject then s
  else if tb s.policy 1 ∧ (s.nw.pstate = .run ∨ s.nw.pstate = .waking) then (s.ejectSeen.nwPower 1 1000).2
  else s.ejectSeen

def execEjectAssert (s : State) : Answer := cmd true s State.ejectAssert

/-- `EJECT_RELEASE`. -/
def State.ejectReleased (s : State) : State :=
  if !s.nw.eject then s
  else (({ s with nw := { s.nw with eject := false } }.wrF Reg.nwbStat 30 30 0).wrF Reg.nwbIrq 0 0 1).nwEvent 8 0

def execEjectRelease (s : State) : Answer := cmd true s fun s => s.ejectReleased

/-- `VAUX_P_ARRIVE`: stable for 2 ms with the link up; PSTATE leaves ABSENT, and AUTO_ON may wake the payload. -/
def State.vauxArrive (s : State) : State :=
  if !s.nw.on ∨ s.nw.pstate ≠ .absent then s
  else
    let s := { s with nw := { s.nw with vauxp := true, link := true, en := 0 } }.wrF Reg.nwbStat 31 31 1
    let s := (s.toPstate .off).nwEvent 2 0
    if tb s.policy 0 && !s.nw.eject then s.source 2 else s

def execVauxPArrive (s : State) : Answer := cmd true s fun s => s.vauxArrive

/-- The rails gone with VAUX_P: no fault while OFF; otherwise one under R463 if a power-good fell first, and under R473 if not. -/
def State.vauxGone (s : State) (pgFirst : Bool) : State :=
  let u := ({ s with nw := { s.nw with vauxp := false, link := false } } : State).wrF Reg.nwbStat 31 31 0
  if s.nw.pstate = .off then u
  else (u.dropAll.toPstate .off).nwFault (if pgFirst then 5 else 7) (if pgFirst then s.nw.en &&& (0xFF - s.nw.pg % 256) else 0)

/-- `VAUX_P_LOSS`. -/
def State.vauxPLoss (s : State) (pgFirst : Bool) : State :=
  if s.nw.pstate = .absent then s else ((s.vauxGone pgFirst).toPstate .absent).nwEvent 3 (pcode s.nw.pstate)

def execVauxPLoss (pgFirst : Bool) (s : State) : Answer := cmd true s fun s => s.vauxPLoss pgFirst

end Sys2Proof.Machine
end

