-- ==== Sys2Proof/Machine/Nightwatch.lean ====
section
/-! DEFINITION. The shelf ports and the NW messages (R475 to R484, R486), and the message buffers of the NWB block (R491). -/

namespace Sys2Proof.Machine

/-! ### The ports (R475 to R478) -/

/-- A shelf port. -/
def State.port (s : State) (p : Nat) : ShelfPort := mget (fun _ => .reset) s.nw.ports p

/-- A shelf port set. -/
def State.setPort (s : State) (p : Nat) (x : ShelfPort) : State :=
  { s with nw := { s.nw with ports := mput (fun _ => .reset) s.nw.ports p x } }

/-- The 7-bit address of both SMBus ports. -/
def State.smbAddr (s : State) : Nat := 0x60 + s.nw.strapA % 8

/-- A UART frame around a message (R477). -/
def uartFrame (bs : List Byte) : List Byte :=
  let body := leBytes 1 bs.length ++ bs
  0x7E :: body ++ leBytes 1 (crc8 body)

/-- A response committed on a port: held on SMBus, sent at once on the UART. -/
def State.nwRespond (s : State) (p : Nat) (rq : List Byte) (status : Nat) (payload : List Byte) : State :=
  let x := s.port p
  let bs := (rq.take 2 ++ leBytes 2 status ++ payload).take 32
  let s := { s with nw := { s.nw with order := s.nw.order.filter (· ≠ p) } }
  if p = 2 then (s.setPort p { x with req := none }).emit (.uart (uartFrame bs))
  else s.setPort p { x with req := none, resp := bs }

/-- A request that some NW message describes. -/
def nwKnown (rq : List Byte) : Bool :=
  let b2 := leAt rq 2 1
  match leAt rq 0 1 with
  | 1 => true
  | 2 => decide (b2 ≤ 7)
  | 3 => decide (b2 ≤ 1)
  | 4 => true
  | 5 => decide (b2 ≤ 1)
  | _ => false

/-- Requests at the front that no message describes are answered BAD_PARAM, with fuel. -/
def State.nwSkip : Nat → State → State
  | 0, s => s
  | n + 1, s =>
    match s.nw.order with
    | [] => s
    | p :: _ =>
      match (s.port p).req with
      | none => s
      | some rq => if nwKnown rq then s else (s.nwRespond p rq stBadParam []).nwSkip n

/-- A request has arrived whole on a port: it replaces the response held, and a request not yet committed. -/
def State.nwArrive (s : State) (p : Nat) (rq : List Byte) : State :=
  let x := s.port p
  let s := s.setPort p { x with req := some rq, resp := [] }
  ({ s with nw := { s.nw with order := s.nw.order.filter (· ≠ p) ++ [p] } }).nwSkip 4

/-- The request next in order, if it is the message `op` in the form `form`, handled: requests commit one at a time, in the order in
which they arrived (R478). -/
def State.nwHandle (s : State) (op : Nat) (form : List Byte → Bool) (f : List Byte → State → Nat × List Byte × State) : State :=
  match s.nw.order with
  | [] => s
  | p :: _ =>
    match (s.port p).req with
    | none => s
    | some rq =>
      if leAt rq 0 1 ≠ op ∨ !form rq then s
      else
        let (st, payload, s) := f rq s
        (s.nwRespond p rq st payload).nwSkip 4

/-- `SMB_BLOCK_WRITE`: a Block Write to 0xC0 with its PEC; a wrong PEC discards and counts it. -/
def State.smbWrite (s : State) (p : Nat) (bs : List Byte) (pec : Nat) : State :=
  if !s.nw.sampled then s
  else if crc8 (leBytes 1 (s.smbAddr * 2) ++ [0xC0] ++ leBytes 1 bs.length ++ bs) ≠ pec then
    s.setPort p { s.port p with bad := (s.port p).bad + 1 }
  else if bs.length < 2 ∨ 32 < bs.length then s
  else s.nwArrive p bs

def execSmbBlockWrite (p : Nat) (bytes : List Byte) (pec : Byte) (s : State) : Answer :=
  cmd (decide (p < 2)) s fun s => s.smbWrite p bytes pec.toNat

/-- The bytes that a Block Read from 0xC1 returns: the response, or BUSY while the request is not committed. -/
def State.smbData (s : State) (p : Nat) : List Byte :=
  match (s.port p).req with
  | some rq => rq.take 2 ++ leBytes 2 stBusy
  | none => (s.port p).resp

/-- `SMB_BLOCK_READ`: count, data and PEC. -/
def execSmbBlockRead (p : Nat) (s : State) : Answer :=
  cmd (decide (p < 2)) s fun s =>
    if !s.nw.sampled then s
    else
      let body := leBytes 1 (s.smbData p).length ++ s.smbData p
      s.emit (.smbus p (body ++ leBytes 1 (crc8 (leBytes 1 (s.smbAddr * 2) ++ [0xC1] ++ leBytes 1 (s.smbAddr * 2 + 1) ++ body))))

/-- `SMB_TIMEOUT`: the transaction is abandoned, and delivers nothing. -/
def execSmbTimeout (p : Nat) (s : State) : Answer := cmd (decide (p < 2)) s fun s => s

/-- SMBALERT# is driven low (R486). -/
def State.smbAlert (s : State) : Bool := tb s.policy 2 && !s.nw.events.isEmpty

/-- `SMB_ALERT_RESPONSE`: Nightwatch answers 0x0C with its own address, on the port that reads it. -/
def execSmbAlertResponse (p : Nat) (s : State) : Answer :=
  cmd (decide (p < 2)) s fun s =>
    if s.nw.sampled && s.smbAlert then s.emit (.smbus p (leBytes 1 (s.smbAddr * 2))) else s

/-- The frames of a run of UART bytes delivered, with fuel: the receiver looks for 0x7E, and resumes its search from the byte
after it where the CRC is wrong. -/
def State.uartRx : Nat → State → List Byte → State
  | 0, s, _ => s
  | _ + 1, s, [] => s
  | n + 1, s, b :: rest =>
    let len := leAt rest 0 1
    let body := rest.take (len + 1)
    if b = 0x7E ∧ 2 ≤ len ∧ len ≤ 32 ∧ len + 2 ≤ rest.length ∧ crc8 body = leAt rest (len + 1) 1 then
      (s.nwArrive 2 (body.drop 1)).uartRx n (rest.drop (len + 2))
    else s.uartRx n rest

/-- `UART_FRAME`. -/
def execUartFrame (bytes : List Byte) (s : State) : Answer :=
  cmd true s fun s => if s.nw.sampled then s.uartRx bytes.length bytes else s

/-! ### NW.STATUS and NW.POWER (R479, R480) -/

/-- EXTRACT_SAFE. -/
def State.extractSafe (s : State) : Bool := s.nw.eject && (s.nw.pstate == .off || s.nw.pstate == .absent)

/-- FAULT_N is driven low (R485). -/
def State.faultN (s : State) : Bool := decide (s.nw.fstage ≠ 0)

/-- Bytes 4 to 21 of the NW.STATUS response. -/
def State.nwStatusPayload (s : State) : List Byte :=
  let flags := bn s.nw.eject + bn s.extractSafe * 2 + bn s.pwr.refb * 4 + bn s.faultN * 8 + bn (!s.nw.events.isEmpty) * 16 +
    bn s.nw.forced * 32
  leBytes 1 (pcode s.nw.pstate) ++ leBytes 1 s.nw.stage ++ leBytes 1 s.nw.faults ++ leBytes 1 s.nw.fstage ++ leBytes 2 s.nw.fdetail ++
    leBytes 1 s.nw.wsrc ++ leBytes 1 flags ++ leBytes 4 s.nw.ftime ++ leBytes 4 s.nw.uptime ++ leBytes 2 s.nw.events.length

/-- `NW_STATUS`. -/
def execNwStatus (s : State) : Answer :=
  cmd true s fun s => s.nwHandle 1 (fun _ => true) fun _ s => (stOk, s.nwStatusPayload, s)

/-- NW.POWER with OP `op`. -/
def State.nwPowerMsg (s : State) (op : Nat) : State :=
  s.nwHandle 2 (fun rq => decide (leAt rq 2 1 = op)) fun rq s =>
    let (st, s) := s.nwPower op (leAt rq 4 2)
    (st, [], s)

/-- `NW_POWER_ON`. -/
def execNwPowerOn (s : State) : Answer := cmd true s fun s => s.nwPowerMsg 0

/-- `NW_POWER_OFF`. -/
def execNwPowerOff (s : State) : Answer := cmd true s fun s => s.nwPowerMsg 1

/-- `NW_POWER_OFF_FORCED`. -/
def execNwPowerOffForced (s : State) : Answer := cmd true s fun s => s.nwPowerMsg 2

/-- `NW_POWER_OFF_NOW`. -/
def execNwPowerOffNow (s : State) : Answer := cmd true s fun s => s.nwPowerMsg 3

/-- `NW_POWER_DEEP`. -/
def execNwPowerDeep (s : State) : Answer := cmd true s fun s => s.nwPowerMsg 4

/-- `NW_POWER_COLD`. -/
def execNwPowerCold (s : State) : Answer := cmd true s fun s => s.nwPowerMsg 5

/-- `NW_POWER_WARM`. -/
def execNwPowerWarm (s : State) : Answer := cmd true s fun s => s.nwPowerMsg 6

/-- `NW_POWER_CLEAR_FAULT`. -/
def execNwPowerClearFault (s : State) : Answer := cmd true s fun s => s.nwPowerMsg 7

/-! ### NW.WAKECFG, NW.SENSOR and NW.EVENT (R482 to R484) -/

/-- Pins whose level Nightwatch drives: by GPIO_DIR, but for those that POLICY takes; an open-drain pin drives only the low level. -/
def State.gpioOut (s : State) (n : Nat) : Option Bool :=
  let byte := fun i => (s.nw.wakecfg.getD i 0).toNat
  let drain := fun (v : Bool) => if v then none else some false
  if n = 6 ∧ tb s.policy 2 then drain (!s.smbAlert)
  else if n = 7 ∧ tb s.policy 3 then some s.extractSafe
  else if !tb (byte 9) n then none
  else if tb (byte 11) n then drain (tb (byte 10) n)
  else some (tb (byte 10) n)

/-- GPIO_IN: driven pins read their level; what the board holds the others at is free (log entry 1). -/
def State.gpioIn (s : State) : Nat × State :=
  let (x, s) := s.free 256
  (((List.range 8).map fun n => bn ((s.gpioOut n).getD (tb x n)) * 2 ^ n).foldl (· + ·) 0, s)

/-- The response of NW.WAKECFG: the configuration in force, then GPIO_IN. -/
def State.wakecfgAnswer (s : State) : Nat × List Byte × State :=
  let (g, s) := s.gpioIn
  (stOk, s.nw.wakecfg ++ leBytes 1 g, s)

/-- `NW_WAKECFG_READ`. -/
def execNwWakecfgRead (s : State) : Answer :=
  cmd true s fun s => s.nwHandle 3 (fun rq => decide (leAt rq 2 1 = 0)) fun _ s => s.wakecfgAnswer

/-- A write of the wake configuration: bit 2 of ENABLE stays 1, bits that no field names are not kept, and TIMER
replaces any wake time. -/
def State.setWakecfg (s : State) (rq : List Byte) : State :=
  let c := (((rq.drop 4).take 12 ++ List.replicate 12 0).take 12)
  let c := setNth c 0 (BitVec.ofNat 8 (setFld (leAt c 0 1 % 16) 2 2 1))
  let c := setNth (setNth c 2 (c.getD 2 0 &&& 0x71)) 8 (c.getD 8 0 &&& 0x0F)
  let t := leAt c 4 4
  { s with nw := { s.nw with wakecfg := c, wakeTick := if t = 0 ∨ !s.nw.xtal then none else some (s.nw.ticks + t * 32768) } }

/-- `NW_WAKECFG_WRITE`. -/
def execNwWakecfgWrite (s : State) : Answer :=
  cmd true s fun s =>
    s.nwHandle 3 (fun rq => decide (leAt rq 2 1 = 1)) fun rq s => (s.setWakecfg rq).wakecfgAnswer

/-- XTAL_PPM: the deviation of XTAL32 that the last calibration found, in 0.1 ppm; 0x8000 before the first (R384, R483). -/
def State.xtalPpm (s : State) : Nat :=
  if s.nw.period = 0 then 0x8000
  else wrap 16 (max (-32767) (min 32767 (roundHalfUp (((nominalP : Int) - s.nw.period) * 10000000) s.nw.period)))

/-- `NW_SENSOR`: `vals` gives the measured SB_IIN and NW_TEMP; what cannot be measured reads 0x8000. -/
def State.sensorPayload (s : State) (vals : List Nat) : List Byte :=
  let v := fun i => vals.getD i 0x8000
  leBytes 2 s.nw.sbVin ++ leBytes 2 (v 0) ++ leBytes 2 (v 1) ++ leBytes 2 (if s.nw.pstate == .run then s.nw.plTemp else 0x8000) ++
    leBytes 1 s.nw.wsense ++ leBytes 2 s.xtalPpm ++ leBytes 2 s.nw.vret

def execNwSensor (vals : List Nat) (s : State) : Answer :=
  cmd true s fun s => s.nwHandle 4 (fun _ => true) fun _ s => (stOk, s.sensorPayload vals, s)

/-- The oldest event, or CODE = 0. -/
def State.eventPayload (s : State) : List Byte :=
  match s.nw.events with
  | [] => List.replicate 12 0
  | e :: _ => leBytes 1 e.code ++ leBytes 1 (bn e.lost) ++ leBytes 2 e.eseq ++ leBytes 4 e.uptime ++ leBytes 4 e.data

/-- `NW_EVENT_READ`. -/
def execNwEventRead (s : State) : Answer :=
  cmd true s fun s => s.nwHandle 5 (fun rq => decide (leAt rq 2 1 = 0)) fun _ s => (stOk, s.eventPayload, s)

/-- `NW_EVENT_REMOVE`: only the oldest event, named by its ESEQ. -/
def State.eventRemove (s : State) (rq : List Byte) : Nat × List Byte × State :=
  match s.nw.events with
  | [] => (stBadParam, [], s)
  | e :: rest => if e.eseq = leAt rq 4 2 then (stOk, [], { s with nw := { s.nw with events := rest } }) else (stBadParam, [], s)

def execNwEventRemove (s : State) : Answer :=
  cmd true s fun s => s.nwHandle 5 (fun rq => decide (leAt rq 2 1 = 1)) fun rq s => s.eventRemove rq

/-! ### The message buffers (R491) -/

/-- The bytes of `NWB.TXBUF`. -/
def State.txbuf (s : State) : List Byte := (List.range 16).flatMap fun w => leBytes 4 (s.rd (Reg.nwbTxbuf w))

/-- A write of `NWB.TXGO` sends a message of 1 to 63 bytes. -/
def State.txgo (s : State) (v : Nat) : State :=
  let n := fld v 5 0
  if s.rdB Reg.nwbStat 28 ∨ n = 0 ∨ !s.nw.link then s else { s with nw := { s.nw with inbox := s.txbuf.take n } }

def execNwbTxgo (i : Nat) (v : Word) (s : State) : Answer := pcmd (decide (i < 4)) s fun s => s.txgo v.toNat

/-- `NWB_RX_MESSAGE`: a message of 1 to 63 bytes fills a free RXBUF. -/
def State.nwbRx (s : State) (bs : List Byte) : State :=
  if s.rdF Reg.nwbRxlen 5 0 ≠ 0 ∨ bs = [] ∨ 63 < bs.length then s
  else
    let all := bs ++ List.replicate (64 - bs.length) 0
    let s := (List.range 16).foldl (fun s w => s.wr (Reg.nwbRxbuf w) (leAt all (4 * w) 4)) s
    (s.wrF Reg.nwbRxlen 5 0 bs.length).wrF Reg.nwbIrq 2 2 1

def execNwbRxMessage (bytes : List Byte) (s : State) : Answer := pcmd true s fun s => s.nwbRx bytes

/-- `NWB_RXLEN_READ`: the length, and the buffer is free. -/
def execNwbRxlenRead (i : Init) (s : State) : Answer :=
  pcmd i.wf s fun s => (s.wrF Reg.nwbRxlen 5 0 0).emit (.value (s.rdF Reg.nwbRxlen 5 0))

end Sys2Proof.Machine
end

