-- ==== Sys2Proof/Machine/Decant.lean ====
section
/-! DEFINITION. Decant (chapter 8) but for its accesses: channels and their owners (R256, R287), the descriptor and its check (R260 to
R263), what each reshuffle writes from what it reads (R267 to R272), ends, events and chains (R273, R281), aborts (R284). -/

namespace Sys2Proof.Machine

/-! ### The descriptor (R261, R262) -/

/-- A 64-byte descriptor as read. -/
abbrev Desc := List Byte

def gSrc (d : Desc) : Nat := leAt d 0 8
def gDst (d : Desc) : Nat := leAt d 8 8
def gLen (d : Desc) : Nat := leAt d 16 4
def gRows (d : Desc) : Nat := leAt d 20 2
def gStart (d : Desc) : Nat := leAt d 22 2
def gSstride (d : Desc) : Int := sx 32 (leAt d 24 4)
def gDstride (d : Desc) : Int := sx 32 (leAt d 28 4)
def gCtrl (d : Desc) : Nat := leAt d 32 4
def gMode (d : Desc) : Nat := gCtrl d % 4
def gBarrier (d : Desc) : Bool := tb (gCtrl d) 2
def gEvEn (d : Desc) : Bool := tb (gCtrl d) 3
def gEvErr (d : Desc) : Bool := tb (gCtrl d) 4
def gSubmit (d : Desc) : Bool := tb (gCtrl d) 5
def gChain (d : Desc) : Bool := tb (gCtrl d) 6
def gArgrel (d : Desc) : Bool := tb (gCtrl d) 7
/-- The service class that the descriptor asks for (R262). -/
def gSc (d : Desc) : Nat := fld (gCtrl d) 9 8
def gRshf (d : Desc) : Nat := fld (gCtrl d) 15 12
def gParam (d : Desc) : Nat := leAt d 36 4
def gEvent (d : Desc) : Nat := leAt d 40 4
def gNext (d : Desc) : Nat := leAt d 48 8
def gTask (d : Desc) : Nat := leAt d 56 8

/-- ARG added to SRC, DST, NEXT and TASK modulo 2^48 where ARGREL = 1 (R260). -/
def withArg (d : Desc) (arg : Nat) : Desc :=
  if gArgrel d then
    [0, 8, 48, 56].foldl (fun d o => patch d o (leBytes 8 ((leAt d o 8 + arg) % 2 ^ 48))) d
  else d

/-! ### Parameters of the reshuffles (R267) -/

def rP (d : Desc) : Nat := fld (gParam d) 5 0 + 1
def rU (d : Desc) : Nat := 2 ^ fld (gParam d) 8 6
def rNb (d : Desc) : Nat := fld (gParam d) 3 0 + 1
def rBlo (d : Desc) : Nat := fld (gParam d) 7 4
def rVb (d : Desc) : Nat := fld (gParam d) 8 8 + 1
def rW (d : Desc) : Nat := if fld (gParam d) 3 0 = 0 then 16 else fld (gParam d) 3 0
def rGain (d : Desc) : Int := sx 5 (fld (gParam d) 8 4)
def rSw (d : Desc) : Nat := fld (gParam d) 1 0
def rDw (d : Desc) : Nat := fld (gParam d) 3 2

/-- Bytes per sample and component width of a sample format (R272). -/
def iqFmt : Nat → Nat × Nat
  | 0 => (2, 8)
  | 1 => (3, 12)
  | 2 => (4, 16)
  | _ => (8, 32)

/-- The unit that LEN must be a multiple of. -/
def lenUnit (d : Desc) : Nat :=
  match gRshf d with
  | 1 => rP d * rU d
  | 2 => rP d * rU d
  | 3 => 8 * rVb d
  | 4 => 8 * rVb d
  | 5 => 48
  | 6 => 48
  | 7 => (iqFmt (rSw d)).1
  | _ => 1

/-- The modes that a reshuffle allows; 0x8 to 0xF are reserved. -/
def modeOk (rshf mode : Nat) : Bool :=
  if rshf = 0 then true else if rshf ≤ 4 then decide (mode = 0) else if rshf ≤ 7 then decide (mode ≤ 1) else false

/-- The lowest faulty bit of RPARAM. -/
def paramBit (d : Desc) : Option Nat :=
  let p := gParam d
  let field := match gRshf d with
    | 0 => none
    | 1 => if fld p 8 6 = 7 then some 6 else none
    | 2 => if fld p 8 6 = 7 then some 6 else none
    | 3 => if 8 * rVb d < rBlo d + rNb d then some 0 else none
    | 4 => if 8 * rVb d < rBlo d + rNb d then some 0 else none
    | _ => if 8 < rGain d ∨ rGain d < -8 then some 4 else none
  let unused := if gRshf d = 0 then p else p / 512 * 512
  match field, (List.range 32).find? fun b => tb unused b with
  | some a, some b => some (min a b)
  | some a, none => some a
  | none, b => b

/-- The bytes of one plane of a reshuffle with planes; 0 for the others. -/
def planeBytes (d : Desc) : Nat :=
  match gRshf d with
  | 1 => gLen d / rP d
  | 2 => gLen d / rP d
  | 3 => gLen d / rVb d / 8
  | 4 => gLen d / rVb d / 8
  | _ => 0

/-- The source stride is a pitch (1 INTERLEAVE, 4 BITJOIN), the destination stride is one (2, 3), neither is used, or both are (TWO_D). -/
def strideOk (d : Desc) (src : Bool) : Bool :=
  let v := if src then gSstride d else gDstride d
  let pitch := if src then gRshf d == 1 || gRshf d == 4 else gRshf d == 2 || gRshf d == 3
  if gMode d = 1 then true
  else if gMode d = 0 ∧ pitch then decide (planeBytes d ≤ v.natAbs)
  else decide (v = 0)

/-- The source pieces of a LINEAR or TWO_D descriptor, in source order (R264, R268, R269): address and bytes. BITJOIN reads its planes side by
side, 64 bytes of each. -/
def sources (d : Desc) : List (Nat × Nat) :=
  let at48 := fun (base : Nat) (ofs : Int) => wrap 48 ((base : Int) + ofs)
  match gRshf d with
  | 1 => (List.range (rP d)).map fun (p : Nat) => (at48 (gSrc d) (p * gSstride d), gLen d / rP d)
  | 4 => (List.range ((planeBytes d + 63) / 64)).flatMap fun (c : Nat) => (List.range (rNb d)).map fun (b : Nat) =>
    (at48 (gSrc d) (b * gSstride d + 64 * c), min 64 (planeBytes d - 64 * c))
  | r =>
    let n := if r = 5 then gLen d / 48 * (1 + 3 * rW d) else gLen d
    (List.range (if gMode d = 1 then gRows d else 1)).map fun (i : Nat) => (at48 (gSrc d) (i * gSstride d), n)

/-- The destination pieces of a LINEAR or TWO_D descriptor: address and bytes. -/
def dests (d : Desc) : List (Nat × Nat) :=
  let at48 := fun (ofs : Int) => wrap 48 ((gDst d : Int) + ofs)
  let rows := fun (n : Nat) => (List.range (if gMode d = 1 then gRows d else 1)).map fun (i : Nat) => (at48 (i * gDstride d), n)
  match gRshf d with
  | 2 => (List.range (rP d)).map fun (p : Nat) => (at48 (p * gDstride d), gLen d / rP d)
  | 3 => (List.range (rNb d)).map fun (b : Nat) => (at48 (b * gDstride d), planeBytes d)
  | 6 => rows (gLen d / 48 * (1 + 3 * rW d))
  | 7 => rows (gLen d / (iqFmt (rSw d)).1 * (iqFmt (rDw d)).1)
  | _ => rows (gLen d)

/-- An address range touches CSR space. -/
def touchesCsr (a n : Nat) : Bool := decide (a < 0x30000000 ∧ 0x20000000 < a + n)

/-- The offsets of the fields that R261, R262 and R263 find faulty; `fh` tells a channel of the fronthaul block, `priv` a privileged
one, whose CSR accesses R259 restricts. -/
def descFaults (d : Desc) (priv fh : Bool) : List Nat :=
  let lists := decide (2 ≤ gMode d)
  let c := gCtrl d
  let unit := lenUnit d
  let csr := priv && !lists && (sources d ++ dests d).any fun p => touchesCsr p.1 p.2
  let bad := fun (b : Bool) (o : Nat) => if b then [o] else []
  bad (decide (2 ^ 48 ≤ gSrc d)) 0 ++ bad (gMode d == 2 && decide (gSrc d % 16 ≠ 0)) 0 ++ bad (csr && decide (gSrc d % 4 ≠ 0)) 0 ++
  bad (decide (2 ^ 48 ≤ gDst d)) 8 ++ bad (gMode d == 3 && decide (gDst d % 16 ≠ 0)) 8 ++ bad (csr && decide (gDst d % 4 ≠ 0)) 8 ++
  bad (if lists then decide (gLen d ≠ 0) else decide (gLen d = 0 ∨ gLen d % unit ≠ 0)) 16 ++ bad (csr && decide (gLen d % 4 ≠ 0)) 16 ++
  bad (if gMode d = 0 then decide (gRows d ≠ 1) else decide (gRows d = 0)) 20 ++
  bad (if lists then decide (gRows d ≤ gStart d) else decide (gStart d ≠ 0)) 22 ++
  bad (!strideOk d true) 24 ++ bad (!strideOk d false) 28 ++
  bad (gEvErr d && !gEvEn d) 32 ++ bad (csr && decide (gMode d ≠ 0)) 32 ++
  bad (decide (fld c 11 10 ≠ 0)) 33 ++ bad (!modeOk (gRshf d) (gMode d)) 33 ++ bad (csr && decide (gRshf d ≠ 0)) 33 ++
  bad (!fh && decide (fld c 17 16 ≠ 0)) 34 ++ bad (decide (fld c 23 18 ≠ 0)) 34 ++ bad (decide (fld c 31 24 ≠ 0)) 35 ++
  (match paramBit d with
    | some b => [36 + b / 8]
    | none => []) ++
  bad (decide (fld (gEvent d) 31 19 ≠ 0)) 40 ++ bad (decide (leAt d 44 4 ≠ 0)) 44 ++
  bad (decide (2 ^ 48 ≤ gNext d)) 48 ++ bad (gChain d && decide (gNext d % 64 ≠ 0)) 48 ++
  bad (decide (2 ^ 48 ≤ gTask d)) 56 ++ bad (gSubmit d && decide (gTask d % 32 ≠ 0)) 56

/-- The first faulty field: the one at the lowest byte offset (R263). -/
def firstFault (d : Desc) (priv fh : Bool) : Option Nat :=
  match descFaults d priv fh with
  | [] => none
  | o :: os => some (os.foldl min o)

/-! ### What is read, and what is written from it -/

/-- One destination byte run in source order, and whether a value saturated. -/
abbrev Run := Nat × List Byte

/-- All bytes of a group, if all arrived. -/
def arrived (bs : List (Option Byte)) : Option (List Byte) :=
  if bs.all (·.isSome) then some (bs.map fun b => b.getD 0) else none

/-- Consecutive groups of `n`. -/
def groupsOf {α : Type} (n : Nat) : Nat → List α → List (List α)
  | 0, _ => []
  | f + 1, l => if l.isEmpty then [] else l.take n :: groupsOf n f (l.drop n)

/-- A row converted group by group: where each group that arrived whole is written, and whether a value saturated. -/
def convRow (gs du dst : Nat) (f : List Byte → List Byte × Bool) (row : List (Option Byte)) : List Run × Bool :=
  let r := (groupsOf gs row.length row).foldl (fun (r : Nat × List Run × Bool) g =>
    match arrived g with
    | some bs => let (o, b) := f bs; (r.1 + du, (dst + r.1, o) :: r.2.1, r.2.2 || b)
    | none => (r.1 + du, r.2)) (0, [], false)
  (r.2.1.reverse, r.2.2)

/-- One sample converted (R272). -/
def iqSample (sw dw : Nat) (sh : Int) (bs : List Byte) : List Byte × Bool :=
  let w := (iqFmt sw).2
  let v := (iqFmt dw).2
  let n := ofLe bs
  let conv := fun (x : Nat) => satTo v (rndShift (sx w x) ((w : Int) - v + sh))
  let i := conv (n % 2 ^ w)
  let q := conv (n / 2 ^ w)
  (leBytes (iqFmt dw).1 (wrap v i.1 + wrap v q.1 * 2 ^ v), i.2 || q.2)

/-- One PRB compressed from its 48 bytes. -/
def compGroup (d : Desc) (bs : List Byte) : List Byte × Bool := bfpComp (rW d) (rGain d) (compsOf bs)

/-- One PRB decompressed from its 1 + 3W bytes. -/
def decompGroup (d : Desc) (bs : List Byte) : List Byte × Bool :=
  let (ys, b) := bfpDecomp (rW d) (rGain d) bs
  (bytesOfComps ys, b)

/-- Eight bits packed, most significant first. -/
def packByte (bits : List Bool) : Byte := (packMsb 1 bits).headD 0

/-- BITSPLIT: plane by plane, the bytes of which all eight values arrived (R269). -/
def bitSplit (d : Desc) (vals : List (Option Nat)) : List Run :=
  (List.range (rNb d)).flatMap fun (b : Nat) =>
    let dst := wrap 48 ((gDst d : Int) + b * gDstride d)
    ((groupsOf 8 vals.length vals).zipIdx.filterMap fun (g : List (Option Nat) × Nat) =>
      if g.1.all (·.isSome) then some (dst + g.2, [packByte (g.1.map fun v => tb (v.getD 0) (rBlo d + b))]) else none)

/-- BITJOIN: the values of which every plane's byte arrived. -/
def bitJoin (d : Desc) (planes : List (List (Option Byte))) : List Run :=
  (List.range (planeBytes d)).filterMap fun j =>
    let col := planes.map fun p => nth none p j
    match arrived col with
    | none => none
    | some bs =>
      let vals := (List.range 8).map fun k =>
        (bs.zipIdx.map fun (e : Byte × Nat) => bn (tb e.1.toNat (7 - k)) * 2 ^ (rBlo d + e.2)).foldl (· + ·) 0
      some (gDst d + j * 8 * rVb d, vals.flatMap fun v => leBytes (rVb d) v)

/-- What a LINEAR or TWO_D descriptor writes from the source bytes that arrived, in the order of their source (R264, R268 to R272). -/
def produces (d : Desc) (got : List (List (Option Byte))) : List Run × Bool :=
  let rows := fun (gs du : Nat) (f : List Byte → List Byte × Bool) =>
    let r := got.zipIdx.map fun (row : List (Option Byte) × Nat) =>
      convRow gs du (wrap 48 ((gDst d : Int) + row.2 * gDstride d)) f row.1
    (r.flatMap (·.1), r.any (·.2))
  match gRshf d with
  | 0 => rows 1 1 fun bs => (bs, false)
  | 1 =>
    (got.zipIdx.flatMap fun (pl : List (Option Byte) × Nat) =>
      (groupsOf (rU d) pl.1.length pl.1).zipIdx.filterMap fun (g : List (Option Byte) × Nat) =>
        (arrived g.1).map fun bs => (gDst d + (g.2 * rP d + pl.2) * rU d, bs), false)
  | 2 =>
    (got.flatMap fun row => (groupsOf (rU d) row.length row).zipIdx.filterMap fun (g : List (Option Byte) × Nat) =>
      (arrived g.1).map fun bs => (wrap 48 ((gDst d : Int) + (g.2 % rP d : Nat) * gDstride d) + g.2 / rP d * rU d, bs), false)
  | 3 =>
    let vals := (groupsOf (rVb d) (gLen d) (got.headD [])).map fun g => (arrived g).map ofLe
    (bitSplit d vals, false)
  | 4 => (bitJoin d ((List.range (rNb d)).map fun b => ((got.zipIdx.filter fun e => e.2 % rNb d == b).map (·.1)).flatten), false)
  | 5 => rows (1 + 3 * rW d) 48 (decompGroup d)
  | 6 => rows 48 (1 + 3 * rW d) (compGroup d)
  | _ => rows (iqFmt (rSw d)).1 (iqFmt (rDw d)).1 (iqSample (rSw d) (rDw d) (rGain d))

/-- Runs joined where one continues the last within an aligned 64-byte line: the writes as they are issued. -/
def joinRuns : List Run → List Run
  | [] => []
  | r :: rs =>
    match joinRuns rs with
    | (a, bs) :: more =>
      if r.1 + r.2.length = a ∧ r.1 / 64 = (a + bs.length - 1) / 64 then (r.1, r.2 ++ bs) :: more else r :: (a, bs) :: more
    | [] => [r]

/-- A run cut at the boundaries of 64-byte lines. -/
def cutRun (r : Run) : List Run :=
  (blocksOf 64 r.1 r.2.length).filterMap fun l =>
    let lo := max r.1 (l * 64)
    let hi := min (r.1 + r.2.length) (l * 64 + 64)
    if lo < hi then some (lo, (r.2.drop (lo - r.1)).take (hi - lo)) else none

/-- The writes that a list of runs is issued as. -/
def issues (rs : List Run) : List Run := joinRuns (rs.flatMap cutRun)

/-! ### Accesses of a transfer -/

/-- The address lies in CSR space. -/
def inCsr (a : Nat) : Bool := decide (0x20000000 ≤ a ∧ a < 0x30000000)

/-- The reads that cover a source piece: 64-byte lines of memory, words of CSR space (R259). -/
def beatsOf (p : Nat × Nat) : List (Nat × Nat) :=
  if p.2 = 0 then []
  else
    let u := if inCsr p.1 then 4 else 64
    (blocksOf u p.1 p.2).filterMap fun l =>
      let lo := max p.1 (l * u)
      let hi := min (p.1 + p.2) (l * u + u)
      if lo < hi then some (lo, hi - lo) else none

/-- The writes that a run is issued as. -/
def runCuts (r : Run) : List Run :=
  if inCsr r.1 then (beatsOf (r.1, r.2.length)).map fun b => (b.1, (r.2.drop (b.1 - r.1)).take b.2) else [r]

/-- The first error of a transfer: cause and address. -/
abbrev DErr := Nat × Nat

/-- Reads in order. -/
structure Reading where
  got : List (List (Option Byte))    -- per beat, latest first
  err : Option DErr
  st : State

/-- One beat of the reads in flight: a failed one ends none of the others (R282). -/
def readBeat (rd : State → Nat → Nat → RdRes × State) (r : Reading) (b : Nat × Nat) : Reading :=
  let fail := fun (cause : Nat) (s : State) => { r with got := List.replicate b.2 none :: r.got, err := r.err.or (some (cause, b.1)), st := s }
  match rd r.st b.1 b.2 with
  | (.ok bs, s) => { r with got := bs.map some :: r.got, st := s }
  | (.err _, s) => fail 1 s
  | (.ue _, s) => fail 3 s

/-- Reads in flight together. -/
def State.readBeats (s : State) (rd : State → Nat → Nat → RdRes × State) (beats : List (Nat × Nat)) : Reading :=
  beats.foldl (readBeat rd) { got := [], err := none, st := s }

/-- A flat list cut into the lengths of the pieces. -/
def cutPieces {α : Type} : List (Nat × Nat) → List α → List (List α)
  | [], _ => []
  | p :: ps, l => l.take p.2 :: cutPieces ps (l.drop p.2)

/-- The bytes that the beats gave, in source order. -/
def Reading.bytes (r : Reading) : List (Option Byte) := r.got.reverse.flatten

/-- Writes in order. -/
structure Writing where
  err : Option DErr
  bytes : Nat                        -- bytes written
  last : Option Nat                  -- the last byte's address (R275)
  st : State

/-- One write: checked before it is issued (R282); a read-modify-write may meet an uncorrectable error. -/
def writeRun (wr : State → Nat → List Byte → WrRes × State) (w : Writing) (r : Run) : Writing :=
  let fail := fun (c a : Nat) (s : State) =>
    { w with err := w.err.or (some (c, a)), st := s }
  match wr w.st r.1 r.2 with
  | (.ok, s) => { w with bytes := w.bytes + r.2.length, last := some (r.1 + r.2.length - 1), st := s }
  | (.err _, s) => fail 2 r.1 s
  | (.ue _, s) => fail 4 r.1 s

/-- The writes of a list of runs, as they are issued. -/
def State.writeRuns (s : State) (wr : State → Nat → List Byte → WrRes × State) (rs : List Run) : Writing :=
  ((issues rs).flatMap runCuts).foldl (writeRun wr) { err := none, bytes := 0, last := none, st := s }

/-- The units that LEN counts in a number of destination bytes (R267). -/
def outUnits (d : Desc) (n : Nat) : Nat :=
  match gRshf d with
  | 3 => n / rNb d * (8 * rVb d)
  | 6 => n / (1 + 3 * rW d) * 48
  | 7 => n / (iqFmt (rDw d)).1 * (iqFmt (rSw d)).1
  | _ => n

/-- The units in a number of source bytes; a unit of which a byte is missing counts whole. -/
def inUnits (d : Desc) (n : Nat) : Nat :=
  match gRshf d with
  | 4 => (n + rNb d - 1) / rNb d * (8 * rVb d)
  | 5 => (n + 3 * rW d) / (1 + 3 * rW d) * 48
  | _ => n

/-- The source bytes up to the last whole group that a reshuffle converts at once. -/
def groupCut (d : Desc) (n : Nat) : Nat :=
  let g := match gRshf d with
    | 0 => 1
    | 1 => rU d
    | 2 => rU d
    | 3 => 8 * rVb d
    | 4 => 64 * rNb d
    | 5 => 1 + 3 * rW d
    | 6 => 48
    | _ => (iqFmt (rSw d)).1
  n / g * g

/-- DONE and REMAIN shown (R282, R284, R287). -/
def State.dctShow (s : State) (ch done remain : Nat) : State := (s.wr (Reg.dctChDone ch) (done % 2 ^ 32)).wr (Reg.dctChRemain ch) (remain % 2 ^ 32)

/-- The traffic of a transfer and the most that staging has held with the channel's part of it (R512). -/
def State.dctTraffic (s : State) (ch rdBytes wrBytes staged : Nat) : State :=
  ((s.tally 4 0 1 rdBytes).tally 4 0 2 wrBytes).extreme 4 0 5 max 0 (s.stagingKib ch staged)

/-- DONE, REMAIN and INDEX at the start of a descriptor. -/
def State.dctClear (s : State) (ch : Nat) : State :=
  ((s.wr (Reg.dctChDone ch) 0).wr (Reg.dctChRemain ch) 0).wr (Reg.dctChIndex ch) 0

/-! ### Channels (R256, R287) -/

/-- OWNER of a channel. -/
def State.dctOwner (s : State) (ch : Nat) : Nat := s.rdF (Reg.dctChCfg ch) 25 24

/-- A write of CFG: OWNER is fixed on channels 0 to 3, keeps its value for 0b11 and while EN was 1. -/
def State.dctCfgWrite (s : State) (ch v : Nat) : State :=
  let old := s.rd (Reg.dctChCfg ch)
  let owner := if ch < 4 ∨ fld v 25 24 = 3 ∨ tb old 31 then fld old 25 24 else fld v 25 24
  s.wr (Reg.dctChCfg ch) (fld v 31 31 * 2 ^ 31 + owner * 2 ^ 24 + fld v 1 0)

/-- An abort of a firmware or privileged channel (R284, R287): the descriptor in service will end STOPPED; an idle one has already
ended. -/
def State.dctAbort (s : State) (ch : Nat) : State :=
  let x := s.dctAt ch
  if s.dctOwner ch ≠ 0 then s
  else if x.phase = .idle then s.wrF (Reg.dctChStat ch) 27 26 2
  else if x.phase = .isolated ∨ x.abort then s
  else (((s.withdraw (.decant ch)).setDct ch { x with abort := true }).wrF (Reg.dctChStat ch) 31 28 3).wrF (Reg.dctChStat ch) 27 26 1

/-- GO: the chain at HEAD starts (R258). -/
def State.dctGo (s : State) (ch : Nat) : State :=
  if s.rdB Reg.dctCtrl 0 && s.rdB (Reg.dctChCfg ch) 31 && decide (s.dctOwner ch = 0) && decide ((s.dctAt ch).phase = .idle) then
    s.startChain ch none (s.rdPair (Reg.dctChHeadLo ch) (Reg.dctChHeadHi ch) / 64 * 64) 0
  else s

/-- A write of CMD: ABORT acts first, and GO is judged against what it leaves. -/
def State.dctCmdWrite (s : State) (ch v : Nat) : State :=
  let s := if tb v 1 then s.dctAbort ch else s
  if tb v 0 then s.dctGo ch else s

/-- `DCT_GO`. -/
def execDctGo (ch : Nat) (v : Word) (s : State) : Answer := pcmd (decide (ch < 64)) s fun s => s.dctCmdWrite ch v.toNat

/-- `DCT_ABORT`. -/
def execDctAbort (ch : Nat) (v : Word) (s : State) : Answer := pcmd (decide (ch < 64)) s fun s => s.dctCmdWrite ch v.toNat

/-! ### Service classes and read engines (R257, R263, R286) -/

/-- The channels that hold a read engine. -/
def State.dctHolders (s : State) : List Nat := s.dct.filterMap fun e => if e.2.eng then some e.1 else none

/-- The channels whose descriptor waits for one. -/
def State.dctWaiting (s : State) : List Nat := s.dct.filterMap fun e => if e.2.phase = .ready ∧ !e.2.eng ∧ !e.2.abort then some e.1 else none

/-- The place of a waiting channel: its class, then its turn from the channel after the last one served. -/
def State.dctPlace (s : State) (ch : Nat) : Nat := s.dctClass ch * 64 + (ch + 64 - s.dctTurn) % 64

/-- One of the 16 read engines is the channel's, or comes to it now: those before it leave one free. -/
def State.dctServed (s : State) (ch : Nat) : Bool :=
  (s.dctAt ch).eng || decide ((s.dctWaiting.filter fun c => decide (s.dctPlace c < s.dctPlace ch)).length + s.dctHolders.length < 16)

/-- A read engine taken, if the channel has none. -/
def State.dctTake (s : State) (ch : Nat) : State :=
  let x := s.dctAt ch
  if x.eng then s else { s.setDct ch { x with eng := true, run := 0 } with dctTurn := (ch + 1) % 64 }

/-- Another descriptor of the same or a lower SC number waits. -/
def State.dctPressed (s : State) (ch : Nat) : Bool := s.dctWaiting.any fun c => decide (c ≠ ch) && decide (s.dctClass c ≤ s.dctClass ch)

/-! ### Ends (R273, R281, R287) -/

/-- The descriptor's event, on a good end or with EV_ERR (R262). -/
def State.dctEvent (s : State) (d : Desc) (good : Bool) : State :=
  if gEvEn d && (good || gEvErr d) then s.post (gEvent d % 16384) (2 ^ fld (gEvent d) 18 14) else s

/-- A descriptor's end shown in STAT, the first error recorded, and Census counted. -/
def State.dctEnd (s : State) (ch summary cause dofs addr : Nat) : State :=
  let x := s.dctAt ch
  let s := ((s.wrF (Reg.dctChStat ch) 23 16 summary).wrF (Reg.dctChStat ch) 15 12 cause).wrF (Reg.dctChStat ch) 7 0 dofs
  let s := (s.tally 4 0 0 1).hist 4 0 0 (s.clockNs - x.start)
  if summary = 8 then s.tally 4 0 4 1
  else if summary < 0x10 then s
  else
    let s := ((s.wrPair (Reg.dctChErraddrLo ch) (Reg.dctChErraddrHi ch) 16 addr).count Reg.dctErrCnt 1).tally 4 0 3 1
    if s.rdB Reg.dctErrStat 31 then s.wrF Reg.dctErrStat 30 30 1
    else
      let s := s.wr Reg.dctErrStat (2 ^ 31 + ch * 2 ^ 24 + summary * 2 ^ 16 + cause * 2 ^ 12)
      (s.wrPair Reg.dctErrAddrLo Reg.dctErrAddrHi 16 addr).wr Reg.dctErrIndex (s.rdF (Reg.dctChIndex ch) 15 0)

/-- How the prestage chain that a channel runs has ended (R427). -/
def State.chainResult (s : State) (ch : Nat) (good : Bool) : State :=
  let f := fun (p : Prestage) => if p.channel = some ch ∧ p.result = none then { p with result := some good } else p
  { s with rsv := { s.rsv with prestage := s.rsv.prestage.map f } }

/-- The chain ends with a summary: the channel is idle again; a class 43 task ends with it (R274, R281), and so does a prestage chain
(R427). -/
def State.chainEnd (s : State) (ch summary : Nat) : State :=
  let x := s.dctAt ch
  let s := (s.setDct ch .reset).wrF (Reg.dctChStat ch) 31 28 0
  let s := s.chainResult ch (decide (summary ≤ 1))
  match x.slot with
  | none => s
  | some sl =>
    match s.task? sl with
    | none => s
    | some t =>
      match t.st with
      | .running =>
        if summary ≤ 1 then s.setTask sl (some { t with st := .ending, ust := summary })
        else s.commit sl (if summary = 8 then 2 else 1) 1 summary
      | .stopping => s.setTask sl (some (t.ends summary))
      | _ => s

/-- A descriptor that ended without moving on: its end, its event and the end of its chain. -/
def State.dctStop (s : State) (ch summary cause dofs addr : Nat) : State :=
  let d := (s.dctAt ch).desc
  ((s.dctEnd ch summary cause dofs addr).dctEvent d false).chainEnd ch summary

/-- The commit of a descriptor whose condition is met and whose submission, if any, has been answered: its event, then the next
descriptor or the end of the chain (R273, R281). -/
def State.dctCommit (s : State) (ch : Nat) : State :=
  let x := s.dctAt ch
  let s := s.dctEnd ch x.summary 0 0 0
  let warn := x.warn || decide (x.summary = 1)
  let s := s.setDct ch { x with warn := warn, phase := .fetch, desc := [], last := none, eng := false, staged := [], summary := 0, start := s.clockNs }
  let s := s.dctEvent x.desc true
  if gChain x.desc then s.wrPair (Reg.dctChCurLo ch) (Reg.dctChCurHi ch) 16 (gNext x.desc)
  else s.chainEnd ch (bn warn)

/-- A unit fault of a channel (R276, R281, R292): the channel is isolated; its task is re-dispatched or ends FAULT. -/
def State.channelFault (s : State) (ch : Nat) : Bool × State :=
  let x := s.dctAt ch
  if x.phase = .idle ∨ x.phase = .isolated then (false, s)
  else
    let s := ((s.withdraw (.decant ch)).setDct ch { DctChan.reset with phase := .isolated }).wrF (Reg.dctChStat ch) 31 28 4
    let s := s.chainResult ch false
    match x.slot with
    | some sl => s.faultTask (.channel ch) sl 0x20
    | none => (false, s)

end Sys2Proof.Machine
end

