-- ==== Sys2Proof/Machine/Lanes.lean ====
section
/-! DEFINITION. Serial lanes (chapter 10): bring-up, sleep, raw mode, equalisation and spare lanes, link by link. -/

namespace Sys2Proof.Machine

/-! ### Lanes and links -/

def State.lane (s : State) (g l : Nat) : LaneState := mget (fun _ => .reset) s.front.lanes (g * 17 + l)
def State.setLane (s : State) (g l : Nat) (x : LaneState) : State :=
  { s with front := { s.front with lanes := mput (fun _ => .reset) s.front.lanes (g * 17 + l) x } }

/-- A lane's reference (CHREF or not) and its rate in units of 19.53125 MHz (R322, R323). -/
def linkRate (k : LinkCfg) : Bool × Nat :=
  match k.mode with
  | 1 => (false, 528)
  | 5 => (true, if k.trate = 0 then 1320 else 1440)
  | 6 => (false, k.mult * 8 / 2 ^ k.div)
  | _ => (false, 1320)

/-- The mode of a lane. -/
def State.laneMode (s : State) (g l : Nat) : Nat := s.rdF (Reg.laneCtrl g l) 31 28

/-- A lane whose core is retired (R335). -/
def State.spared (s : State) (g l : Nat) : Bool := s.rdB (Reg.laneStat g l) 7

/-- The physical lane that serves position `l` of a group: L16 once the core there is retired. -/
def State.laneAt (s : State) (g l : Nat) : Nat := if s.spared g l then 16 else l

/-- The position that a physical lane serves. -/
def State.posOf (s : State) (g l : Nat) : Nat := if l = 16 then s.rdF (Reg.laneStat g 16) 5 2 else l

/-- A lane that commands reach: L16 only while it serves a position, a retired lane not at all. -/
def State.laneLive (s : State) (g l : Nat) : Bool :=
  if l = 16 then s.rdB (Reg.laneStat g 16) 6 else !s.spared g l && !s.rsv.out.contains (3, g * 17 + l)

/-- ETH100 and TETHER make one link of several lanes. -/
def multiLane (mode : Nat) : Bool := mode == 4 || mode == 5

/-- The physical lanes of the link that lane `l` belongs to; a lane outside a multi-lane link is a link of its own. -/
def State.linkLanes (s : State) (g l : Nat) : List Nat :=
  let pos := s.posOf g l
  match s.front.links.find? fun k => k.group == g && k.first ≤ pos && pos < k.first + k.lanes && multiLane k.mode with
  | some k => (List.range k.lanes).map fun i => s.laneAt g (k.first + i)
  | none => [l]

/-- Either direction of a lane is awake. -/
def State.laneAwake (s : State) (g l : Nat) : Bool := !s.rdB (Reg.laneCtrl g l) 0 || !s.rdB (Reg.laneCtrl g l) 1

/-- The PLL that serves a lane runs: some lane of the group that uses it has a direction awake (R330). -/
def State.lanePllRuns (s : State) (g l : Nat) : Bool :=
  let pos := s.posOf g l
  match s.front.links.find? fun k => k.group == g && k.first ≤ pos && pos < k.first + k.lanes with
  | some k =>
    s.front.links.any fun j => j.group == g && linkRate j == linkRate k && (List.range j.lanes).any fun i => s.laneAwake g (s.laneAt g (j.first + i))
  | none => s.laneAwake g l

/-- The stage that a lane shows (R324): from 7 on, that of the least-advanced lane of its link. -/
def State.shownStage (s : State) (g l : Nat) : Nat :=
  let own := (s.lane g l).own
  let least := (s.linkLanes g l).foldl (fun m i => min m (s.lane g i).own) own
  min 9 (if own < 7 then own else max 7 least)

/-- The link is in stage 9. -/
def State.linkIn9 (s : State) (g l : Nat) : Bool := (s.linkLanes g l).all fun i => decide (9 ≤ (s.lane g i).own)

/-- The link is up: stage 9 with its condition met on every lane. -/
def State.linkIsUp (s : State) (g l : Nat) : Bool := (s.linkLanes g l).all fun i => decide (10 ≤ (s.lane g i).own)

/-- `LANE.CHANGE` (R359). -/
def State.laneNotice (s : State) (g l old new reason : Nat) : State :=
  s.notice 0x0804 0 (leBytes 1 g ++ leBytes 1 l ++ leBytes 1 old ++ leBytes 1 new ++ leBytes 4 reason ++ taiBytes s.ns)

/-! ### A Tether link goes down (R353, R354) -/

def State.tlink (s : State) (t : Nat) : TetherState := mget (fun _ => .reset) s.front.tether t
def State.setTlink (s : State) (t : Nat) (x : TetherState) : State :=
  { s with front := { s.front with tether := mput (fun _ => .reset) s.front.tether t x } }

/-- The Tether link that a lane belongs to. -/
def State.tetherOf (s : State) (g l : Nat) : Option Nat :=
  let pos := s.posOf g l
  (s.front.links.find? fun k => k.group == g && k.first ≤ pos && pos < k.first + k.lanes && k.mode == 5 && decide (k.port < 3)).map (·.port)

/-- Every request not yet completed fails; sequences and credits start afresh on the next link up. The lanes go on sending. -/
def tetherDown (t : TetherState) : TetherState :=
  { TetherState.reset with
    taken := t.taken, stall := t.stall, line := t.line
    entries := t.entries.map fun e => if e.status = 0 then { e with status := 3 } else e }

/-! ### Changes of stage -/

/-- The CTLE peaking and the VGA gain held where they stand (R330, R333): what adaptation had reached is a free value. The twelve DFE taps
are read nowhere. -/
def State.holdEq (s : State) (g l : Nat) : State :=
  let r := s.free 256
  (r.2.wrF (Reg.laneRxeq g l) 3 0 (r.1 % 16)).wrF (Reg.laneRxeq g l) 11 8 (r.1 / 16)

/-- A lane adapts (R333): from stage 4 on, unless frozen. -/
def State.adapts (s : State) (g l : Nat) : Bool := decide (4 ≤ (s.lane g l).own) && !s.rdB (Reg.laneRxeq g l) 31

/-- A lane given its own stage. Below stage 4 it has no CDR lock, so that a raw lane is not UP (R329), and its receive values are kept; below
stage 7 it has seen no marker. -/
def State.setOwn (s : State) (g l n : Nat) : State :=
  let s := if s.adapts g l && decide (n < 4) then s.holdEq g l else s
  let s := if n < 4 then s.wrF (Reg.laneRawctl g l) 1 1 0 else s
  let x := s.lane g l
  s.setLane g l { x with own := n, cdr := x.cdr && decide (4 ≤ n), marked := if n < 7 then none else x.marked }

/-- The lanes of a link given their own stages by `f`; each shows its stage, and an entry to or an exit from stage 9 is notified once,
for the link's first lane (R359). -/
def State.restage (s : State) (g l reason : Nat) (f : Nat → Nat → Nat) : State :=
  let ls := s.linkLanes g l
  let old := s.shownStage g (ls.headD l)
  let was := s.linkIn9 g l
  let s := ls.foldl (fun s i => s.setOwn g i (f i (s.lane g i).own)) s
  let s := ls.foldl (fun s i => s.wrF (Reg.laneStat g i) 31 28 (s.shownStage g i)) s
  let s :=
    match s.tetherOf g l with
    | some t => if was && !s.linkIn9 g l then s.setTlink t (tetherDown (s.tlink t)) else s
    | none => s
  if was != s.linkIn9 g l then s.laneNotice g (ls.headD l) old (s.shownStage g (ls.headD l)) reason else s

/-- A lane falls to a stage; the other lanes of its link lose the link and keep their own locks. -/
def State.dropLane (s : State) (g l stage reason : Nat) : State :=
  s.restage g l reason fun i own => if i = l then stage else min own 7

/-- One count of a lane's error registers, since the previous `LANE.STATUS`, and in Census. -/
def State.laneErr (s : State) (g l n : Nat) : State :=
  ((s.count (Reg.laneErrCnt g l) n).tally 6 (g * 17 + l) 2 n).setLane g l { s.lane g l with errs := (s.lane g l).errs + n }

def State.laneFec (s : State) (g l c u : Nat) : State :=
  let s := ((s.count (Reg.laneFecCorr g l) c).count (Reg.laneFecUnc g l) u).tally 6 (g * 17 + l) 3 c
  (s.tally 6 (g * 17 + l) 4 u).setLane g l { s.lane g l with fecC := (s.lane g l).fecC + c, fecU := (s.lane g l).fecU + u }

def State.laneRetry (s : State) (g l : Nat) : State :=
  ((s.count (Reg.laneRetry g l) 1).tally 6 (g * 17 + l) 7 1).setLane g l { s.lane g l with retry := (s.lane g l).retry + 1 }

/-- The order of a link is found: every lane past stage 7 carries a number of the link, none twice (R326). -/
def State.orderOk (s : State) (g l order : Nat) : Bool :=
  let ls := s.linkLanes g l
  decide (order < ls.length) &&
    !(ls.any fun i => i != l && decide (8 ≤ (s.lane g i).own) && s.rdF (Reg.laneStat g i) 27 24 == order)

/-- The order of a Tether link is found (R326): a marker has named a peer lane on each of its lanes, none twice. -/
def State.tetherOrder (s : State) (g l : Nat) : Bool :=
  let ms := (s.linkLanes g l).map fun i => (s.lane g i).marked
  ms.all Option.isSome && ms.eraseDups.length == ms.length

/-- A stage's condition is met (R324). Stage 6 judges polarity: an inverted lane inverts its data and returns to stage 5 (R325).
Stages 7 and 8 pass at once on one-lane links; a raw lane waits in stage 4 for software (R328, R329); stage 9 of a Tether link ends by
its handshake (R353). -/
def State.stageReady (s : State) (g l : Nat) (inv : Bool) (order : Nat) : State :=
  let x := s.lane g l
  let mode := s.laneMode g l
  let multi := multiLane mode
  let up := fun (n : Nat) (s : State) => s.restage g l 0 fun i own => if i = l then n else own
  if !s.laneLive g l || mode == 0 || mode == 7 then s
  else
    match x.own with
    | 1 => up 2 s
    | 2 => if s.lanePllRuns g l then up 3 s else s
    | 3 => if s.rdB (Reg.laneCtrl g l) 1 then s else up 4 (s.wrF (Reg.laneStat g l) 0 0 1)
    | 4 =>
      let s := s.setLane g l { x with timeouts4 := 0, cdr := true, slip := if x.cdr then x.slip else 0 }
      if mode = 6 then s else up 5 s
    | 5 => up 6 s
    | 6 =>
      if inv then
        let s := s.wrF (Reg.laneCtrl g l) 3 3 (1 - s.rdF (Reg.laneCtrl g l) 3 3)
        up 5 (s.wrF (Reg.laneStat g l) 1 1 1)
      else up (if multi then 7 else 9) s
    | 7 =>
      if !((s.linkLanes g l).all fun i => decide (7 ≤ (s.lane g i).own)) then s
      else if mode = 5 then if s.tetherOrder g l then up 8 s else s
      else if s.orderOk g l order then up 8 (s.wrF (Reg.laneStat g l) 27 24 order)
      else s
    | 8 => if (s.linkLanes g l).all fun i => decide (8 ≤ (s.lane g i).own) then up 9 s else s
    | 9 => if mode = 5 then s else up 10 s
    | _ => s

def execLaneStageReady (g l : Nat) (inv : Bool) (order : Nat) (s : State) : Answer :=
  pcmd (decide (g < 16) && decide (l < 17) && decide (order < 16)) s fun s => s.stageReady g l inv order

/-- Where a stage's timeout sends a lane; stage 3 has none. -/
def backStage : Nat → Option Nat
  | 1 => some 1
  | 2 => some 1
  | 4 => some 3
  | 5 => some 4
  | 6 => some 4
  | 7 => some 3
  | 8 => some 3
  | 9 => some 3
  | _ => none

/-- A stage times out. A frozen lane logs each stage-4 timeout from the third in a row on (R333); a raw lane with CDR lock waits in
stage 4 without end. -/
def State.laneTimeout (s : State) (g l : Nat) : State :=
  let x := s.lane g l
  match backStage x.own with
  | none => s
  | some back =>
    if !s.laneLive g l || (s.laneMode g l == 6 && x.own == 4 && x.cdr) then s
    else
      let s := s.laneRetry g l
      let frozen := s.rdB (Reg.laneRxeq g l) 31
      let n := if x.own = 4 ∧ frozen then x.timeouts4 + 1 else 0
      let s := s.setLane g l { s.lane g l with timeouts4 := n }
      let s := if 3 ≤ n then s.conflict 2 1 (g * 17 + l) else s
      s.dropLane g l back 2

def execLaneStageTimeout (g l : Nat) (s : State) : Answer := pcmd (decide (g < 16) && decide (l < 17)) s fun s => s.laneTimeout g l

/-- A lane in stage 9 loses its signal (stage 3), its CDR lock (4) or its block lock (5) (R324); a raw lane, which has CDR lock in stage 4
also, loses UP with it (R329). -/
def State.lockLoss (s : State) (g l lost : Nat) : State :=
  let x := s.lane g l
  let raw := s.laneMode g l == 6
  if !s.laneLive g l || !(decide (9 ≤ x.own) || (raw && x.own == 4 && x.cdr)) || lost < 3 || (raw && lost == 5) then s
  else
    let s := if lost = 3 then s.wrF (Reg.laneStat g l) 0 0 0 else s
    let s := if raw then s.wrF (Reg.laneRawctl g l) 1 1 0 else s
    let s := if lost < 5 then s.setLane g l { x with cdr := false } else s
    s.dropLane g l lost (if lost = 3 then 1 else 2)

def execLaneLockLoss (g l lost : Nat) (s : State) : Answer := pcmd (decide (g < 16) && decide (l < 17) && decide (lost < 6)) s fun s => s.lockLoss g l lost

/-! ### `LANE.CTRL` (R330, R331, R361) -/

/-- Sleep bits as they change: a receiver asleep stops at stage 3 and restarts there; in a multi-lane link either direction takes the
link down. -/
def State.laneSleep (s : State) (g l : Nat) (tx rx : Bool) : State :=
  let own := (s.lane g l).own
  if rx && decide (3 < own) then s.dropLane g l 3 6
  else if (tx || rx) && decide (1 < (s.linkLanes g l).length) then s.restage g l 6 fun _ own => min own 7
  else s

/-- The mode of a lane changed: OFF, or bring-up from stage 1. -/
def State.setLaneMode (s : State) (g l mode : Nat) : State :=
  if s.laneMode g l = mode then s
  else
    let s := (s.wrF (Reg.laneCtrl g l) 31 28 mode).wrF (Reg.laneRawctl g l) 31 0 0
    let s := s.restage g l 5 fun i own => if i = l then (if mode = 0 then 0 else 1) else min own 7
    s.setLane g l { s.lane g l with slip := 0, skip := false, timeouts4 := 0 }

/-- A write of `CTRL`: ignored on a retired lane and on PG15; MODE of L16 is taken only while it serves a position; mode 0x7 belongs to
PG15. -/
def State.laneCtrlWrite (s : State) (g l v : Nat) : State :=
  if g = 15 ∨ (l ≠ 16 ∧ s.spared g l) then s
  else
    let mode := fld v 31 28
    let take := s.laneLive g l && decide (mode < 7)
    let wasTx := s.rdB (Reg.laneCtrl g l) 0
    let wasRx := s.rdB (Reg.laneCtrl g l) 1
    let s := s.wr (Reg.laneCtrl g l) (s.laneMode g l * 2 ^ 28 + fld v 4 3 * 8 + v % 4)
    let s := if take then s.setLaneMode g l mode else s
    let s := s.laneSleep g l (tb v 0 && !wasTx) (tb v 1 && !wasRx)
    if tb v 7 && decide ((s.lane g l).own ≠ 0) then s.dropLane g l 1 5 else s

def execLaneRestart (g l : Nat) (v : Word) (s : State) : Answer := pcmd (decide (g < 16) && decide (l < 17)) s fun s => s.laneCtrlWrite g l v.toNat

def execLaneTxsleep (g l : Nat) (v : Word) (s : State) : Answer := pcmd (decide (g < 16) && decide (l < 17)) s fun s => s.laneCtrlWrite g l v.toNat

def execLaneRxsleep (g l : Nat) (v : Word) (s : State) : Answer := pcmd (decide (g < 16) && decide (l < 17)) s fun s => s.laneCtrlWrite g l v.toNat

/-! ### Raw mode (R329) -/

/-- A write of `RAWCTL`: SLIP moves the word boundary one UI later, unless BUSY, and the word with the shift is discarded; UP moves the lane between stages 4 and 9. -/
def State.rawctlWrite (s : State) (g l v : Nat) : State :=
  if !s.laneLive g l || s.laneMode g l ≠ 6 then s
  else
    let x := s.lane g l
    let s :=
      if tb v 0 && !s.rdB (Reg.laneRawctl g l) 31 then
        (s.wrF (Reg.laneRawctl g l) 31 31 1).setLane g l { x with slip := (x.slip + 1) % 64, skip := true }
      else s
    if tb v 1 && decide (x.own = 4) then (s.wrF (Reg.laneRawctl g l) 1 1 1).restage g l 0 fun _ _ => 10
    else if !tb v 1 && decide (9 ≤ x.own) then (s.wrF (Reg.laneRawctl g l) 1 1 0).restage g l 5 fun _ _ => 4
    else s

def execRawSlip (g l : Nat) (v : Word) (s : State) : Answer := pcmd (decide (g < 16) && decide (l < 17)) s fun s => s.rawctlWrite g l v.toNat

def execRawUp (g l : Nat) (v : Word) (s : State) : Answer := pcmd (decide (g < 16) && decide (l < 17)) s fun s => s.rawctlWrite g l v.toNat

def execRawDown (g l : Nat) (v : Word) (s : State) : Answer := pcmd (decide (g < 16) && decide (l < 17)) s fun s => s.rawctlWrite g l v.toNat

/-- `RAW_SLIP_DONE`: the first word on the new boundary has reached the streaming port. -/
def execRawSlipDone (g l : Nat) (s : State) : Answer :=
  pcmd (decide (g < 16) && decide (l < 17)) s fun s => (s.wrF (Reg.laneRawctl g l) 31 31 0).setLane g l { s.lane g l with skip := false }

/-! ### Equalisation (R332 to R334) -/

/-- The taps satisfy R332. -/
def tapsOk (pre main post : Nat) : Bool :=
  decide (pre ≤ 15 ∧ post ≤ 31 ∧ 24 ≤ main ∧ main ≤ 63 ∧ pre + main + post ≤ 63 ∧ pre + post + 16 ≤ main)

/-- A write of `TXEQ`: taps that break R332 are ignored and set ERR; ERR is cleared by writing 1. -/
def State.txeqWrite (s : State) (g l v : Nat) : State :=
  let s := if tb v 31 then s.wrF (Reg.laneTxeq g l) 31 31 0 else s
  if l ≠ 16 ∧ s.spared g l then s
  else
    let (pre, main, post) := (fld v 4 0, fld v 13 8, fld v 20 16)
    if tapsOk pre main post then
      s.wr (Reg.laneTxeq g l) (s.rdF (Reg.laneTxeq g l) 31 31 * 2 ^ 31 + post * 2 ^ 16 + main * 2 ^ 8 + pre)
    else s.wrF (Reg.laneTxeq g l) 31 31 1

/-- A write of FREEZE (R333): the values are held where they stand, and adaptation resumes when it is written 0. -/
def State.rxeqWrite (s : State) (g l : Nat) (freeze : Bool) : State :=
  let s := if freeze && s.adapts g l then s.holdEq g l else s
  s.wrF (Reg.laneRxeq g l) 31 31 (bn freeze)

/-- Eye measures of an hour: one every 100 ms. -/
def eyeHour : Nat := 36000

/-- One measure in the trend that the Reserve reads (R334, R435): at the end of an hour its means are held against `RSV.THR_EYE`, and the
low ones in a row counted. -/
def State.eyeTrend (s : State) (g l h v : Nat) : State :=
  let x := s.lane g l
  let x := { x with eyeN := x.eyeN + 1, eyeH := x.eyeH + h, eyeV := x.eyeV + v }
  if x.eyeN < eyeHour then s.setLane g l x
  else
    let low := decide (x.eyeH < s.rdF Reg.rsvThrEye 7 0 * eyeHour ∨ x.eyeV < s.rdF Reg.rsvThrEye 27 16 * eyeHour)
    s.setLane g l { x with eyeN := 0, eyeH := 0, eyeV := 0, eyeLow := if low then x.eyeLow + 1 else 0 }

/-- The eye of a lane in stage 4 or above is measured; Census holds its least values. -/
def execEyeMeasure (g l h vv : Nat) (s : State) : Answer :=
  pcmd (decide (g < 16) && decide (l < 17) && decide (h < 256) && decide (vv < 4096)) s fun s =>
    if (s.lane g l).own < 4 then s
    else
      let e := s.rd (Reg.laneEye g l)
      let u := g * 17 + l
      (((s.extreme 6 u 5 min (fld e 7 0) h).extreme 6 u 6 min (fld e 27 16) vv).wr (Reg.laneEye g l) (vv * 2 ^ 16 + h)).eyeTrend g l h vv

/-- GBX of a lane (R343): the gearbox and FIFO phases in ps as they are measured, transmit and receive. -/
def State.gbx (s : State) : Nat × Nat × State :=
  let r := s.free (2 ^ 32)
  (r.1 % 65536, r.1 / 65536, r.2)

/-- The core of a lane replaced by that of L16 (R335): L16 takes the settings of the position and runs bring-up from stage 1. -/
def State.spareLane (s : State) (g l : Nat) : State :=
  let old := s.shownStage g l
  let mode := s.laneMode g l
  let was := s.linkIn9 g l
  let s := if was then s.restage g l 4 fun i own => if i = l then 3 else min own 7 else s
  let keep := s.rd (Reg.laneCtrl g l)
  let s := ((s.wr (Reg.laneCtrl g 16) keep).wr (Reg.laneRate g 16) (s.rd (Reg.laneRate g l))).wr (Reg.laneTxeq g 16) (s.rd (Reg.laneTxeq g l))
  let s := s.wrF (Reg.laneRxeq g 16) 31 31 (s.rdF (Reg.laneRxeq g l) 31 31)
  let s := (s.setLane g l .reset).wr (Reg.laneStat g l) 0x80
  let s := s.wr (Reg.laneStat g 16) (0x40 + l * 4)
  let s := s.restage g 16 4 fun i own => if i = 16 then (if mode = 0 then 0 else 1) else own
  if was then s else s.laneNotice g 16 old (s.shownStage g 16) 4

end Sys2Proof.Machine
end

