-- ==== Sys2Proof/Machine/Sparing.lean ====
section
/-! DEFINITION. Unit faults (R102 to R104) and retirement (R435 to R441): quiescing, remaps onto spares, cellar banks, lanes, Trellis
columns, DRAM rows and rows of the scheduler store. -/

namespace Sys2Proof.Machine

/-! ### Unit faults -/

/-- A core isolated: its task has left it, its submission is withdrawn, and what its local memories held is gone, so that accesses held
for the new unit find it empty (R23, R24). -/
def State.isolateCore (s : State) (c k : Nat) : State :=
  let base := 0x10000000 + c * 0x01000000 + k * 0x00100000
  let s := (s.withdraw (.core c k)).forget base (base + 0x100000)
  s.setCore c k { CoreState.reset with st := .off }

/-- The task that a core runs. -/
def State.coreTask (s : State) (c k : Nat) : Option Nat :=
  let x := s.core c k
  if x.st == .running || x.st == .stopping || x.st == .halted then some x.slot else none

/-- The unit's task ends or is re-dispatched and the unit is isolated; true if it was re-dispatched. A burst context takes its whole NFE
with it. -/
def State.isolate (s : State) (u : TUnit) (ust : Nat) : Bool × State :=
  match u with
  | .core c k =>
    let sl := s.coreTask c k
    let s := s.isolateCore c k
    match sl with
    | some sl => s.faultTask u sl ust
    | none => (false, s)
  | .engine e => s.engineFault e
  | .burst n _ => (false, s.nfeFault n)
  | .channel ch => s.channelFault ch

/-- KIND and unit of a task's unit; a Decant channel has no spare. -/
def unitKind : TUnit → Option (Nat × Nat)
  | .core c k => some (0, c * 8 + k)
  | .engine e => some (engKind e, e)
  | .burst n _ => some (10, 76 + n)
  | .channel _ => none

/-- The unit is in service and not yet isolated. -/
def State.faultable (s : State) (u : TUnit) : Bool :=
  match u with
  | .core c k => s.coreIn c k && (s.core c k).st != .off
  | .engine e => s.engIn e && (s.engAt e).st != .isolated
  | .burst n _ => s.engIn (76 + n) && (s.nfeAt n).st != .isolated
  | .channel ch => (s.dctAt ch).phase != .isolated

/-- What a unit fault leaves to the Reserve (R436, R441): the unit awaits its remap, or no spare can replace it and it leaves service.
The reason of a retirement already under way is kept where `keep` says so. -/
def State.faultRetire (s : State) (kind unit : Nat) (redisp keep : Bool) : State :=
  if s.unitPending kind unit then
    { s with rsv := { s.rsv with retiring := s.rsv.retiring.map fun (r : Retire) =>
        if r.kind == kind && r.unit == unit then { r with reason := if keep then r.reason else 1, degrade := true, redisp := bn redisp } else r } }
  else if (s.spareFor kind unit).isSome then s.pend { kind := kind, unit := unit, reason := 1, degrade := true, redisp := bn redisp }
  else s.takeOut kind unit

/-- A unit fault with the USTATUS of a task that is not re-dispatched. -/
def State.unitFault (s : State) (u : TUnit) (ust : Nat) (keep : Bool) : State :=
  if !s.faultable u then s
  else
    let (red, s) := s.isolate u ust
    match unitKind u with
    | some (kind, unit) => s.faultRetire kind unit red keep
    | none => s

/-- A unit fault of a part that a cluster's cores share: all eight leave service (R435), and the Reserve resets the cluster (R465). -/
def State.sharedFault (s : State) (c : Nat) : State :=
  let s := (List.range 8).foldl (fun s k =>
    let s := if s.faultable (.core c k) then (s.isolate (.core c k) 0x20).2 else s
    s.takeOut 0 (c * 8 + k)) (s.wakeCluster c)
  s.clearShared c

/-- `UNIT_FAULT`: in the unit's logic, or its loss (R102); with `shared`, in the part that the core's cluster shares. -/
def execUnitFault (u : TUnit) (shared : Bool) (s : State) : Answer :=
  pcmd u.wf s fun s =>
    match u, shared with
    | .core c _, true => s.sharedFault c
    | _, _ => s.unitFault u 0x20 false

/-! ### Retirements begin (R435, R438 to R441) -/

/-- The unit of a task's unit by KIND. -/
def kindUnit (kind unit : Nat) : Option TUnit :=
  if kind = 0 then some (.core (unit / 8) (unit % 8))
  else if kind = 10 then some (.burst (unit - 76) 0)
  else if isEngKind kind then some (.engine unit)
  else none

/-- A DRAM row of a device address: a soft repair in a pause where every line is correctable, the list for hard repair otherwise. -/
def State.retireRow (s : State) (a reason : Nat) : State :=
  let line := a / 64 * 64
  let n := (s.dramPlace a).1
  if (s.rowErrs line).any fun e => e.2 then { s with rsv := { s.rsv with dramRows := sins s.rsv.dramRows line } }
  else (s.pend { kind := 12, unit := line, reason := reason, degrade := false, redisp := 0 }).setDmc n { s.dmcAt n with due := true }

/-- A row of DRAM is pending or listed already. -/
def State.rowListed (s : State) (a : Nat) : Bool :=
  (s.rsv.dramRows.any fun b => s.dramRow b == s.dramRow a) || s.rsv.retiring.any fun r => r.kind == 12 && s.dramRow r.unit == s.dramRow a

/-- The row of the scheduler store is empty: the spare takes its place; with no spare left it stays withdrawn (R440, R441). -/
def State.swapRow (s : State) (row : Nat) : State :=
  if !s.rsv.rowsMarked.contains row || 0 < s.rowUse row then s
  else
    let reason := match s.rsv.retiring.find? fun r => r.kind == 13 && r.unit == row with
      | some r => r.reason
      | none => 0
    let s := { s with rsv := { s.rsv with rowsMarked := sdel s.rsv.rowsMarked row } }
    match s.spareFor 13 row with
    | some sp => s.spareTaken 13 reason row row sp 0
    | none =>
      let s := { s with rsv := { s.rsv with rowsOut := sins s.rsv.rowsOut row } }
      ((s.unpend 13 row).repairAppend 13 row 0xFFFF).rerate 13 row

/-- A row of the scheduler store marked: it gives out no free slot (R440). -/
def State.markRow (s : State) (row reason : Nat) : State :=
  if s.unitPending 13 row || s.unitOut 13 row then s
  else
    let s := s.pend { kind := 13, unit := row, reason := reason, degrade := false, redisp := 0 }
    ({ s with rsv := { s.rsv with rowsMarked := sins s.rsv.rowsMarked row } } : State).swapRow row

/-- The copy of a bank to its spare begins (R289). -/
def State.startCopy (s : State) (unit sp : Nat) : State := { s with mem := { s.mem with copy := s.mem.copy ++ [(mget id s.mem.bank unit, sp)] } }

/-- A retirement of a unit that a spare can replace begins: quiescing, or the wait that its kind has. -/
def State.retireWith (s : State) (kind unit reason sp : Nat) (degrade : Bool) : State :=
  let s := s.pend { kind := kind, unit := unit, reason := reason, degrade := degrade, redisp := 0 }
  if kind = 2 then s.startCopy unit sp else s

/-- Where the aging of a unit shows in `RSV.AGE` (R447). -/
def State.ageIndex (s : State) (kind unit : Nat) : Option Nat :=
  match kind with
  | 0 => some (s.physOf 0 unit)
  | 1 => some (196 + s.physOf 1 unit)
  | 11 => some (201 + s.physOf 11 unit)
  | k => if isEngKind k then some (108 + s.physOf k unit) else none

/-- The measures of a unit by R435, as percentages of their thresholds: aging, errors, and low hourly means of a lane's eye. -/
def State.wearPct (s : State) (kind unit : Nat) : Nat :=
  let pct := fun n th => if th = 0 then 65535 else n * 100 / th
  let unitTh := s.rdF Reg.rsvThrCe 15 0
  let age := match s.ageIndex kind unit with
    | some u => pct (s.rdF (Reg.rsvAge u) 9 0) (s.rdF Reg.rsvThrAge 9 0)
    | none => 0
  let errs := match kind with
    | 0 => pct (s.wearOf 0 (s.physOf 0 unit)).1 unitTh
    | 1 => pct (s.wearOf 1 (s.physOf 1 unit)).1 unitTh
    | 2 =>
      let w := s.wearOf 2 (s.physOf 2 unit)
      if w.2 then max 100 (pct w.1 (s.rdF Reg.rsvThrCe 31 16)) else pct w.1 (s.rdF Reg.rsvThrCe 31 16)
    | 3 => pct (s.lane (unit / 17) (s.laneAt (unit / 17) (unit % 17))).eyeLow 24
    | 12 => pct (s.wornLines unit) 3
    | 13 =>
      let w := s.wearOf 13 unit
      if w.2 then max 100 (pct w.1 4) else pct w.1 4
    | k => if isEngKind k then pct (s.wearOf 4 (s.physOf k unit)).1 unitTh else 0
  max age errs

/-- A measure of a unit has reached its threshold. -/
def State.worn (s : State) (kind unit : Nat) : Bool := decide (100 ≤ s.wearPct kind unit)

/-- The path-delay monitors of a unit whose other measures are below their thresholds have found it aged: what they read, from AGE_RET on, is
a free value. -/
def State.measureAge (s : State) (kind unit : Nat) : State :=
  match s.ageIndex kind unit with
  | some u =>
    if s.worn kind unit then s
    else
      let r := s.free (1024 - s.rdF Reg.rsvThrAge 9 0)
      r.2.wr (Reg.rsvAge u) (s.rdF Reg.rsvThrAge 9 0 + r.1)
  | none => s

/-- `RETIRE_WEAR`: a measure reaches its threshold; without a spare the unit stays in service, degraded. `unit` is LOGICAL, and for
KIND 12 a device address in the row; 96 + c of KIND 0 is what the cores of cluster c share, which has no spare. -/
def State.retireWear (s : State) (kind unit : Nat) : State :=
  if kind = 12 then
    if locate unit != .dram || decide (dramBase + s.dramCap ≤ unit) || s.rowListed unit || !s.worn 12 unit then s else s.retireRow unit 0
  else if kind = 0 ∧ 96 ≤ unit ∧ unit < 108 then s.degrade 0 unit
  else if !kindHas kind unit || s.unitPending kind unit || s.unitOut kind unit then s
  else
    let s := s.measureAge kind unit
    if !s.worn kind unit then s
    else if kind = 13 then s.markRow unit 0
    else
      match s.spareFor kind unit with
      | none => s.degrade kind unit
      | some sp => s.retireWith kind unit 0 sp false

def execRetireWear (kind unit : Nat) (s : State) : Answer := pcmd (decide (kind < 14)) s fun s => s.retireWear kind unit

/-- `DRAIN_TIMEOUT`: the task of a quiescing unit has not committed within DRAIN_MAX; the forced retirement is a unit fault (R436). -/
def State.drainTimeout (s : State) (kind unit : Nat) : State :=
  match kindUnit kind unit with
  | some u => if kindHas kind unit && s.unitPending kind unit then s.unitFault u 0x20 true else s
  | none => s

def execDrainTimeout (kind unit : Nat) (s : State) : Answer := pcmd (decide (kind < 14)) s fun s => s.drainTimeout kind unit

/-! ### Remaps (R436, R335, R440) -/

/-- A unit holds no task. -/
def State.holdsNone (s : State) (u : TUnit) : Bool :=
  match u with
  | .core c k => (s.coreTask c k).isNone && (s.taskOn u).isNone
  | .engine e => (s.engAt e).st != .running && (s.engAt e).st != .stopping && (s.taskOn u).isNone
  | .burst n _ => (s.nfeAt n).ctx.all fun c => c.2.isNone
  | .channel _ => false

/-- A logical core on its spare: X and Y cleared, its latch and held value cleared (R8), no locked line in PM; a core that had locked code is held until the firmware has
reloaded it. -/
def State.coreOnSpare (s : State) (c k sp : Nat) : State :=
  let s := if (s.core c k).st = .off then s else s.isolateCore c k
  let s := s.setPair (.dsp c k) .reset
  let s := (s.setCore c k { CoreState.reset with st := .waiting }).wrF (Reg.rsvCmap c) (4 * k + 3) (4 * k) (sp % 9)
  let s := { s with cen := { s.cen with remapped := s.cen.remapped ++ [(0, c * 8 + k)] } }
  if s.rdF (Reg.dspcPmLock c k) 1 0 = 0 then s else (s.wrF (Reg.rsvChold c) k k 1).wrF (Reg.dspcPmLock c k) 1 0 0

/-- A logical engine on its spare: IDLE, and for an NFE the plan taken over (R251). -/
def State.engineOnSpare (s : State) (e sp : Nat) : State :=
  let s := s.wrF (Reg.rsvEmap e) 7 0 sp
  let s := { s with cen := { s.cen with remapped := s.cen.remapped ++ [(2, e)] } }
  if e < 76 then s.setEng e .reset
  else
    let s := s.nfeRemap (e - 76)
    let f := s.nfeAt (e - 76)
    s.setNfe (e - 76) { f with st := if f.plan.isEmpty then .idle else .running }

/-- The unit put onto a spare. -/
def State.onSpare (s : State) (u : TUnit) (sp : Nat) : State :=
  match u with
  | .core c k => s.coreOnSpare c k sp
  | .engine e => s.engineOnSpare e sp
  | .burst n _ => s.engineOnSpare (76 + n) sp
  | .channel _ => s

/-- A lane retired (R335): its spare serves the position, or it stays down. -/
def State.remapLane (s : State) (r : Retire) : State :=
  let g := r.unit / 17
  let l := r.unit % 17
  match s.spareFor 3 r.unit with
  | some sp => (s.spareLane g l).spareTaken 3 r.reason r.unit r.unit sp 0
  | none =>
    if r.reason = 1 ∨ r.degrade then (s.dropLane g l 0 4).takeOut 3 r.unit else s.degrade 3 r.unit

/-- `REMAP`: once the unit holds no task, its logical identity goes to the proposed spare, or else to the first that is free; a spare that
another unit has taken in the meantime leaves the unit out of service or degraded. -/
def State.remap (s : State) (kind unit spare : Nat) : State :=
  match s.rsv.retiring.find? fun r => r.kind == kind && r.unit == unit with
  | none => s
  | some r =>
    if kind = 13 then s.swapRow unit
    else if kind = 3 then s.remapLane r
    else
      match kindUnit kind unit with
      | none => s
      | some u =>
        if !s.holdsNone u then s
        else
          match if (sparesFor kind unit).contains spare && s.spareFree kind spare then some spare else s.spareFor kind unit with
          | some sp =>
            let old := s.physOf kind unit
            (s.onSpare u sp).spareTaken kind r.reason unit old sp r.redisp
          | none => if r.reason = 1 ∨ r.degrade then s.takeOut kind unit else s.degrade kind unit

def execRemap (kind unit spare : Nat) (s : State) : Answer := pcmd (decide (kind < 14)) s fun s => s.remap kind unit spare

/-! ### Cellar banks (R289) -/

/-- The uncorrectable words in a physical bank. -/
def State.bankUes (s : State) (b : Nat) : Nat :=
  (s.mem.err.filter fun e => s.errAt e.1 == some true && locate e.1 == .cellar && s.bankOf e.1 == b).length

/-- `BANK_COPY_DONE` for physical bank `b`: the spare takes over its address lines at one cycle, its poison list the words that are
uncorrectable; a bank with more than 64 of them stays in service, degraded. -/
def State.bankCopied (s : State) (b : Nat) : State :=
  match s.mem.copy.find? fun e => e.1 == b with
  | none => s
  | some (_, sp) =>
    match s.rsv.retiring.find? fun r => r.kind == 2 && mget id s.mem.bank r.unit == b with
    | none => s
    | some r =>
      let bad := 64 < s.bankUes b
      let s := { s with mem := { s.mem with copy := s.mem.copy.filter fun e => e.1 != b } }
      if bad then s.degrade 2 r.unit
      else ({ s with mem := { s.mem with bank := mput id s.mem.bank r.unit sp } } : State).spareTaken 2 r.reason r.unit b sp 0

def execBankCopyDone (b : Nat) (s : State) : Answer := pcmd (decide (b < 34)) s fun s => s.bankCopied b

/-! ### The scheduler store (R440) -/

/-- A task whose descriptor words are uncorrectable commits FAULT with USTATUS 0xFD; a unit that runs it is stopped. -/
def State.storeFault (s : State) (sl : Nat) : State :=
  match s.task? sl with
  | none => s
  | some t =>
    match t.st with
    | .running =>
      match t.unit with
      | some u => (s.commitRunning sl 1 1 0xFD).stopUnit sl u
      | none => s.commit sl 1 1 0xFD
    | .ending => s.commitRunning sl 1 1 0xFD
    | .stopping => s
    | .recorded => s
    | _ => s.commit sl 1 0 0xFD

/-- `SCHED_STORE_UE`: uncorrectable descriptor words fault their task; a word with both copies uncorrectable puts the store out of use. The
row is marked for retirement (R435). -/
def State.schedStoreUe (s : State) (sl row : Nat) (both : Bool) : State :=
  if both then
    let s := (s.ueRecord false 4 0 0).wrF Reg.cmCtrl 0 0 0
    let s := if s.unitOut 13 row || 2048 ≤ row then s else s.markRow row 1
    { s with rsv := { s.rsv with storeOut := true } }
  else (s.storeFault sl).markRow (sl / 64) 1

def execSchedStoreUe (sl row : Nat) (both : Bool) (s : State) : Answer := pcmd (decide (sl < 131072)) s fun s => s.schedStoreUe sl row both

/-! ### SPARE.QUERY and SPARE.RETIRE (R444, R445) -/

/-- WORST of a kind: the highest measure of its units, as a percentage of its threshold. -/
def State.worst (s : State) (kind : Nat) : Nat :=
  let units := if kind = 12 then (s.rsv.wear.filter fun w => w.kind == 12).map (·.unit)
    else if kind = 13 then (s.rsv.wear.filter fun w => w.kind == 13).map (·.unit)
    else (List.range 256).filter fun u => kindHas kind u
  min 65535 ((units.map fun u => s.wearPct kind u).foldl max 0)

/-- IN_SERVICE, PENDING and OUT count units of the kind; what a query says of DRAM rows in service, nominal and spare is open (log entry 1). -/
def State.spareQuery (s : State) (kind : Nat) : List Byte × State :=
  if kind = 0xFF then
    let deg := ((List.range 14).map fun k => bn (s.rsv.degraded.any fun e => e.1 == k) * 2 ^ k).sum
    (leBytes 2 s.ratedNow.1 ++ leBytes 2 s.ratedNow.2 ++ leBytes 2 s.fskNow ++ [0, 0] ++ leBytes 4 s.slotsNow ++ leBytes 2 deg, s)
  else
    let (x, s) := s.freeBytes 8
    let pending := (s.rsv.retiring.filter fun r => r.kind == kind).length
    let out := if kind = 13 then s.rsv.rowsOut.length else (s.rsv.out.filter fun e => e.1 == kind).length
    let head := if kind = 12 then x else leBytes 2 (s.inService kind) ++ leBytes 2 (nth 0 kindNominal kind) ++ leBytes 2 (nth 0 kindSpares kind) ++
      leBytes 2 (s.sparesLeft kind)
    (head ++ leBytes 2 pending ++ leBytes 2 out ++ leBytes 2 (s.worst kind), s)

/-- A retirement that the host asks for, or why it is refused. -/
def State.spareRetire (s : State) (kind flags unit addr : Nat) : Nat × State :=
  let now := tb flags 0
  let deg := tb flags 1
  if kind = 12 then
    if locate addr != .dram || decide (dramBase + s.dramCap ≤ addr) then (stBadParam, s)
    else if s.rowListed addr then (stBadState, s)
    else (stAccepted, s.retireRow addr 2)
  else if 13 < kind || 3 < flags || !kindHas kind unit then (stBadParam, s)
  else if s.unitPending kind unit || s.unitOut kind unit then (stBadState, s)
  else
    match s.spareFor kind unit, deg with
    | none, false => (stNoResource, s)
    | none, true =>
      if kind = 13 then (stAccepted, s.markRow unit 2)
      else
        let s := match kindUnit kind unit with
          | some u => if s.faultable u then (s.isolate u 0x20).2 else s
          | none => s
        let s := if kind = 3 then s.dropLane (unit / 17) (unit % 17) 0 4 else s
        (stAccepted, s.takeOut kind unit)
    | some sp, _ =>
      if kind = 13 then (stAccepted, s.markRow unit 2)
      else
        let s := s.retireWith kind unit 2 sp deg
        (stAccepted, if now then s.drainTimeout kind unit else s)

end Sys2Proof.Machine
end

