-- ==== Sys2Proof/Machine/DecantFh.lean ====
section
/-! DEFINITION. The descriptors that the fronthaul block builds and runs on its own Decant channels (R256, R263, R340, R341, R354): an ingress
queue as source or an egress queue as destination. A descriptor's reads are in flight together, and FH_BYTES of Census counts the bytes that pass
a queue (log entry 52). -/

namespace Sys2Proof.Machine

/-- The channels on which the fronthaul block can start a chain now. -/
def State.fhChannels (s : State) : List Nat :=
  (List.range 64).filter fun ch => decide (4 ≤ ch) && s.rdB Reg.dctCtrl 0 && s.dctOwner ch == 2 && s.rdB (Reg.dctChCfg ch) 31 &&
    decide ((s.dctAt ch).phase = .idle)

/-- The one that it takes: which of several, the specification does not say. -/
def State.fhChannel (s : State) : Option Nat × State :=
  let r := s.free s.fhChannels.length
  if s.fhChannels.isEmpty then (none, s) else (some (nth 0 s.fhChannels r.1), r.2)

/-- A descriptor of the fronthaul block: LINEAR, with BARRIER, of its class; the queue's number is that of its stream or link. -/
def fhDesc (ingress : Bool) (src dst len sc rshf param : Nat) : Desc :=
  leBytes 8 src ++ leBytes 8 dst ++ leBytes 4 len ++ leBytes 2 1 ++ List.replicate 10 0 ++
    leBytes 4 (4 + sc * 256 + rshf * 4096 + if ingress then 65536 else 131072) ++ leBytes 4 param ++ List.replicate 24 0

/-- Its chain started, and the descriptor in service. The address that CUR shows is a free value: the block builds its descriptors itself. -/
def State.fhStart (s : State) (ch : Nat) (d : Desc) : State :=
  let r := s.free (2 ^ 42)
  let s := (r.2.startChain ch none (r.1 * 64) 0).dctClear ch
  (s.setDct ch { s.dctAt ch with phase := .ready, desc := d }).dctTake ch

/-- Its end, with every read issued: well, with or without saturation, or with the first error (R281, R282). -/
def State.fhEnd (s : State) (ch : Nat) (sat : Bool) (err : Option DErr) : State :=
  let s := if sat then s.wrF (Reg.dctChStat ch) 24 24 1 else s
  match err with
  | some (c, a) => s.dctStop ch 0x12 c 0 a
  | none => (s.setDct ch { s.dctAt ch with summary := bn sat }).dctCommit ch

/-- Data of an ingress queue written by the descriptor, and whether it ended well. -/
def State.fhIngress (s : State) (ch : Nat) (d : Desc) (bs : List Byte) : Bool × State :=
  let s := s.fhStart ch d
  match firstFault d false true with
  | some o => (false, s.dctStop ch 0x10 0 o (s.rdPair (Reg.dctChCurLo ch) (Reg.dctChCurHi ch)))
  | none =>
    let (runs, sat) := produces d [bs.map some]
    let w := s.writeRuns (fun s => s.busWrite (.dct ch)) runs
    let s := ((w.st.dctTraffic ch bs.length w.bytes bs.length).tally 4 0 6 bs.length).dctShow ch (if w.err.isNone then gLen d else outUnits d w.bytes) 0
    (w.err.isNone, s.fhEnd ch sat w.err)

/-- What a descriptor gives to an egress queue: the data whose source arrived, and whether it ended well. -/
def State.fhEgress (s : State) (ch : Nat) (d : Desc) : List Byte × Bool × State :=
  let s := s.fhStart ch d
  match firstFault d false true with
  | some o => ([], false, s.dctStop ch 0x10 0 o (s.rdPair (Reg.dctChCurLo ch) (Reg.dctChCurHi ch)))
  | none =>
    let r := s.readBeats (fun s => s.busRead (.dct ch)) ((sources d).flatMap beatsOf)
    let (runs, sat) := produces d [r.bytes]
    let out := runs.flatMap (·.2)
    let s := ((r.st.dctTraffic ch r.bytes.length out.length r.bytes.length).tally 4 0 6 out.length).dctShow ch (if r.err.isNone then gLen d else outUnits d out.length) 0
    (out, r.err.isNone, s.fhEnd ch sat r.err)

end Sys2Proof.Machine
end

