-- ==== Sys2Proof/Machine/Tether.lean ====
section
/-! DEFINITION. Tether (R346 to R354): frames received and performed in order, acknowledgements, credits and resends, the handshake, and
the request ring. -/

namespace Sys2Proof.Machine

/-- The configured link of a Tether number. -/
def State.tetherCfg (s : State) (t : Nat) : Option LinkCfg := s.front.links.find? fun k => k.mode == 5 && k.port == t

/-- The physical lanes of a Tether link in link order. -/
def State.tetherLanes (s : State) (t : Nat) : List (Nat × Nat) :=
  match s.tetherCfg t with
  | some k => (List.range k.lanes).map fun i => (k.group, s.laneAt k.group (k.first + i))
  | none => []

/-- A Census counter of a Tether link (R512). -/
def State.tcount (s : State) (t i n : Nat) : State := s.tally 7 (64 + t) i n

/-- The end sends and receives on the link: every lane has passed stage 8 and its transmitter is awake. -/
def State.tetherSends (s : State) (t : Nat) : Bool :=
  match s.tetherLanes t with
  | (g, l) :: rest => s.linkIn9 g l && ((g, l) :: rest).all fun x => !s.rdB (Reg.laneCtrl x.1 x.2) 0
  | [] => false

/-- A block error on a link, counted on the lane that it came on (R346), which no operand names. -/
def State.blockError (s : State) (t : Nat) : State :=
  let ls := s.tetherLanes t
  let r := s.free (max 1 ls.length)
  match ls[r.1]? with
  | some (g, l) => r.2.laneErr g l 1
  | none => s

/-! ### Frames (R346, R347) -/

/-! ### The line (R346, R351) -/

/-- The self-synchronising scrambler x^58 + x^39 + 1: 64 bits, the lowest first. -/
def scramble (r : BitVec 58) (w : BitVec 64) : BitVec 58 × BitVec 64 :=
  (List.range 64).foldl (fun (a : BitVec 58 × BitVec 64) i =>
    let b := w.getLsbD i ^^ (a.1.getLsbD 57 ^^ a.1.getLsbD 38)
    (a.1 <<< 1 ||| BitVec.ofNat 58 (bn b), a.2 ||| BitVec.ofNat 64 (bn b * 2 ^ i))) (r, 0)

/-- One block on the next lane: its scrambled bits, and its bytes in the lane's BIP-8. -/
def lineBlock (t width : Nat) (x : LineSt) (hdr : Nat) (bs : List Byte) : LineSt × (Nat × Nat × BitVec 64) :=
  let l := x.blk % width
  let r := scramble (mget (Config.scrambler t) x.scr l) (BitVec.ofNat 64 (leAt bs 0 8))
  ({ blk := (l + 1) % width, scr := mput (Config.scrambler t) x.scr l r.1, bip := mmod (fun _ => 0) x.bip l fun b => bs.foldl (· ^^^ ·) b },
    (l, hdr, r.2))

/-- Blocks on the line, a control block first where `hdr` is 2, after that data. -/
def lineBlocks (t width : Nat) : Nat → LineSt → Nat → List Byte → LineSt × List (Nat × Nat × BitVec 64)
  | 0, x, _, _ => (x, [])
  | n + 1, x, hdr, bs =>
    let r := lineBlock t width x hdr (bs.take 8)
    let q := lineBlocks t width n r.1 1 (bs.drop 8)
    (q.1, r.2 :: q.2)

/-- IDLE blocks. -/
def idleBlocks (t width : Nat) : Nat → LineSt → LineSt × List (Nat × Nat × BitVec 64)
  | 0, x => (x, [])
  | n + 1, x =>
    let r := lineBlock t width x 2 [0x1E, 0, 0, 0, 0, 0, 0, 0]
    let q := idleBlocks t width n r.1
    (q.1, r.2 :: q.2)

/-- A frame or a LINK block sent, after as many IDLE blocks as time has let pass: their number is a free value. -/
def State.sendBlocks (s : State) (t : Nat) (bs : List Byte) : State :=
  let r := s.free (2 ^ 18)
  let width := max 1 (s.tetherLanes t).length
  let i := idleBlocks t width r.1 (s.tlink t).line
  let b := lineBlocks t width (bs.length / 8) i.1 2 bs
  (r.2.setTlink t { s.tlink t with line := b.1 }).emit (.tether t bs (i.2 ++ b.2))

/-! ### The contents of a frame -/

/-- A block of eight bytes. -/
def block8 (bs : List Byte) : List Byte := (bs ++ List.replicate 8 0).take 8

/-- A frame: START, parameter block, payload blocks and trailer. -/
def tetherFrame (ftype seq : Nat) (param data : List Byte) : List Byte :=
  let dlen := (data.length + 7) / 8
  let start := [0x78] ++ leBytes 1 ftype ++ leBytes 2 seq ++ leBytes 1 dlen ++ [0, 0, 0]
  let body := block8 param ++ data ++ List.replicate (dlen * 8 - data.length) 0
  start ++ body ++ leBytes 4 (crc32 (start.drop 1 ++ body)) ++ [0, 0, 0, 0]

/-- The frame is whole: a START block of that type, its payload blocks, a trailer whose CRC holds. -/
def frameWhole (ftype : Nat) (bs : List Byte) : Bool :=
  let dlen := leAt bs 4 1
  let n := 16 + dlen * 8
  bs.length == n + 8 && leAt bs 0 1 == 0x78 && leAt bs 1 1 == ftype && decide (leAt bs 2 2 < 4096) && decide (dlen ≤ 32) &&
    leAt bs 5 3 == 0 && leAt bs n 4 == crc32 ((bs.take n).drop 1) && leAt bs (n + 4) 4 == 0

/-- A frame discarded: a NAK with the SEQ expected is owed (R348). -/
def State.tetherNak (s : State) (t : Nat) : State := s.setTlink t { s.tlink t with nak := true }

/-- The range lies within one of the link's receive windows (R352). -/
def State.inTwin (s : State) (t a n : Nat) : Bool :=
  (List.range 8).any fun w =>
    decide (s.rdPair (Reg.fhmTwinBaseLo t w) (Reg.fhmTwinBaseHi t w) ≤ a ∧
      a + n ≤ s.rdPair (Reg.fhmTwinLimitLo t w) (Reg.fhmTwinLimitHi t w) + 1 ∧
      s.rdPair (Reg.fhmTwinBaseLo t w) (Reg.fhmTwinBaseHi t w) ≤ s.rdPair (Reg.fhmTwinLimitLo t w) (Reg.fhmTwinLimitHi t w))

/-- What begins with a START block of a type is a frame of it, whole or not; else a block error voids it (R346). -/
def isFrame (ftype : Nat) (bs : List Byte) : Bool := leAt bs 0 1 == 0x78 && leAt bs 1 1 == ftype

/-- The initiator that an access error of the link names: Decant, which owns its channels (PRESUMED, log entry 49). -/
def State.tetherInit (s : State) : Init := .dct (s.fhChannels.headD 4)

/-- A WRITE frame: performed in SEQ order within a window, refused outside; its credits are freed. -/
def State.writeFrame (s : State) (t : Nat) (bs : List Byte) : State :=
  let x := s.tlink t
  let n := leAt bs 14 2
  if !x.up then s
  else if !isFrame 1 bs then s.blockError t
  else if !frameWhole 1 bs || n == 0 || decide (256 < n) || leAt bs 4 1 ≠ (n + 7) / 8 then s.tetherNak t
  else if leAt bs 2 2 ≠ x.rxNext then s.tetherNak t
  else
    let s := s.tcount t 2 1
    let y := { x with rxNext := (x.rxNext + 1) % 4096, wFreed := (x.wFreed + (n + 63) / 64) % 65536 }
    let a := leAt bs 8 6
    if s.inTwin t a n then ((s.busWrite s.tetherInit a ((bs.drop 16).take n)).2).setTlink t y
    else ((s.count (Reg.fhmTlRefused t) 1).tcount t 4 1).setTlink t { y with refused := some (leAt bs 2 2) }

def execTetherWriteFrame (t : Nat) (bytes : List Byte) (s : State) : Answer :=
  pcmd (decide (t < 3)) s fun s => s.writeFrame t bytes

/-- A POST frame: its flags are set after every earlier WRITE. -/
def State.postFrame (s : State) (t : Nat) (bs : List Byte) : State :=
  let x := s.tlink t
  if !x.up then s
  else if !isFrame 2 bs then s.blockError t
  else if !frameWhole 2 bs || leAt bs 4 1 ≠ 0 then s.tetherNak t
  else if leAt bs 2 2 ≠ x.rxNext then s.tetherNak t
  else
    let s := (s.tcount t 2 1).setTlink t { x with rxNext := (x.rxNext + 1) % 4096, eFreed := (x.eFreed + 1) % 256 }
    if leAt bs 8 2 < 16384 then s.post (leAt bs 8 2) (leAt bs 10 4) else s

def execTetherPostFrame (t : Nat) (bytes : List Byte) (s : State) : Answer :=
  pcmd (decide (t < 3)) s fun s => s.postFrame t bytes

/-! ### Sending (R350, R354) -/

/-- A frame as it travels. -/
def TFrame.wire (f : TFrame) : List Byte :=
  if f.ftype = 1 then tetherFrame 1 f.seq (leBytes 6 f.addr ++ leBytes 2 f.bytes.length) f.bytes
  else tetherFrame 2 f.seq (leBytes 2 f.addr ++ f.bytes) []

/-- A frame given to the lanes. -/
def State.sendFrame (s : State) (t : Nat) (f : TFrame) : State :=
  ((s.tcount t 0 1).tcount t 1 (if f.ftype = 1 then f.bytes.length else 0)).sendBlocks t f.wire

/-- An entry's record replaced. -/
def setEntry (l : List TEntry) (e : TEntry) : List TEntry := l.map fun x => if x.idx = e.idx then e else x

/-- The first entry that still has something to send. -/
def nextEntry (l : List TEntry) : Option TEntry :=
  l.find? fun e => e.status == 0 && (if e.op = 1 then decide (e.sent < e.len) else !e.posted)

/-- One frame sent, if an entry has one and its credits are there: entries in order, WRITEs in frames that do not cross a 256-byte
boundary of DST. -/
def State.pumpOne (s : State) (t : Nat) : Option State :=
  let x := s.tlink t
  if !x.up || !s.tetherSends t || decide (1024 ≤ x.flight.length) then none
  else
    match nextEntry x.entries with
    | none => none
    | some e =>
      if e.op = 1 then
        let dst := e.dst + e.sent
        let n := min (256 - dst % 256) (e.len - e.sent)
        let need := (n + 63) / 64
        if (x.wGiven + 65536 - x.wSpent) % 65536 < need then none
        else
          match s.fhChannel with
          | (none, _) => none
          | (some ch, s) =>
            match s.fhEgress ch (fhDesc false (e.src + e.sent) t n 2 0 0) with
            | (bs, true, s) =>
              let f : TFrame :=
                { seq := x.txNext, ftype := 1, addr := dst % 2 ^ 48, bytes := bs, entry := e.idx, off := e.sent, resends := 0 }
              some ((s.setTlink t { x with
                txNext := (x.txNext + 1) % 4096, wSpent := (x.wSpent + need) % 65536, flight := x.flight ++ [f]
                entries := setEntry x.entries { e with sent := e.sent + n } }).sendFrame t f)
            | (_, _, s) => some (s.setTlink t { x with entries := setEntry x.entries { e with status := 4 } })
      else if (x.eGiven + 256 - x.eSpent) % 256 = 0 then none
      else
        let f : TFrame :=
          { seq := x.txNext, ftype := 2, addr := e.rgrp, bytes := leBytes 4 e.rflags, entry := e.idx, off := 0, resends := 0 }
        some ((s.setTlink t { x with
          txNext := (x.txNext + 1) % 4096, eSpent := (x.eSpent + 1) % 256, flight := x.flight ++ [f]
          entries := setEntry x.entries { e with posted := true } }).sendFrame t f)

/-- Frames sent while there are any to send; no more than 1,024 are ever unacknowledged. -/
def State.pump : Nat → State → Nat → State
  | 0, s, _ => s
  | f + 1, s, t =>
    match s.pumpOne t with
    | some s' => State.pump f s' t
    | none => s

/-- Room for every frame that a call of `pump` may send or end. -/
def pumpFuel : Nat := 8192

/-! ### LINK blocks (R349, R353) -/

/-- The handshake is complete: both ends start at SEQ 0 and the link is up. -/
def State.handshake (s : State) (t : Nat) : State :=
  let x := s.tlink t
  if !(x.initRx && x.initTx) || x.up then s
  else
    match s.tetherLanes t with
    | (g, l) :: _ =>
      let s := s.setTlink t { x with up := true, rxNext := 0, txNext := 0 }
      (s.restage g l 0 fun _ own => if own = 9 then 10 else own).pump pumpFuel t
    | [] => s

/-- A frame acknowledged: its bytes count for its entry. -/
def ackFrame (l : List TEntry) (f : TFrame) : List TEntry :=
  l.map fun e => if e.idx = f.entry ∧ e.status = 0 then { e with done := e.done + (if f.ftype = 1 then f.bytes.length else 0) } else e

/-- Frames up to ACK_SEQ leave the replay buffer. -/
def acked (x : TetherState) (ack : Nat) : TetherState :=
  match x.flight with
  | [] => x
  | f :: _ =>
    let d := (ack + 4096 - f.seq) % 4096
    if x.flight.length ≤ d then x
    else { x with entries := (x.flight.take (d + 1)).foldl ackFrame x.entries, flight := x.flight.drop (d + 1) }

/-- A refused frame ends its entry REFUSED, with the bytes before it done; nothing more of the entry is sent. -/
def refuseFrame (x : TetherState) (seq : Nat) : TetherState :=
  match x.flight.find? fun f => f.seq == seq with
  | some f =>
    { x with entries := x.entries.map fun e => if e.idx = f.entry ∧ e.status = 0 then { e with status := 2, done := f.off } else e }
  | none => x

/-- A NAK: every frame left is sent again. One that has been sent again eight times and is named once more takes the link down: eight resends
have then gone unacknowledged (DEDUCED, log entry 49). -/
def State.resend (s : State) (t : Nat) : State :=
  let x := s.tlink t
  if x.flight.isEmpty then s
  else
    if x.flight.any fun f => decide (8 ≤ f.resends) then
      match s.tetherLanes t with
      | (g, l) :: _ => s.restage g l 3 fun _ _ => 3
      | [] => s
    else
      let fl := x.flight.map fun f => { f with resends := f.resends + 1 }
      let s := ((s.count (Reg.fhmTlReplay t) 1).tcount t 3 1).setTlink t { x with flight := fl }
      fl.foldl (fun s f => s.sendFrame t f) s

/-- A LINK block received: 8 bytes. -/
def State.linkBlock (s : State) (t : Nat) (bs : List Byte) : State :=
  let w := leAt bs 1 2
  let x := s.tlink t
  let in9 := match s.tetherLanes t with | (g, l) :: _ => s.linkIn9 g l | [] => false
  if bs.length ≠ 8 ∨ leAt bs 0 1 ≠ 0x2D then s.blockError t
  else if !in9 then s
  else
    let x := { x with wGiven := leAt bs 3 2, eGiven := leAt bs 5 1 }
    if tb w 13 then (s.setTlink t { x with initRx := true }).handshake t
    else if !x.up then s
    else
      let x := if tb w 14 then refuseFrame x (leAt bs 6 2 % 4096) else x
      let s := s.setTlink t (acked x (w % 4096))
      let s := if tb w 12 then s.resend t else s
      s.pump pumpFuel t

def execTetherLinkBlock (t : Nat) (bytes : List Byte) (s : State) : Answer :=
  pcmd (decide (t < 3)) s fun s => s.linkBlock t bytes

/-- `TETHER_LINK_SEND`: acknowledgement, credits, what is owed; INIT with ACK_SEQ 0xFFF and full credits during the handshake. -/
def State.linkSend (s : State) (t : Nat) : State :=
  let x := s.tlink t
  if !s.tetherSends t then s
  else
    let ref := x.refused.getD 0
    let ack := if x.up then (x.rxNext + 4095) % 4096 else 0xFFF
    let w := ack + bn (x.nak && x.up) * 4096 + bn (!x.up) * 8192 + bn x.refused.isSome * 16384
    let blk := [0x2D] ++ leBytes 2 w ++ leBytes 2 ((x.wFreed + 4096) % 65536) ++ leBytes 1 ((x.eFreed + 64) % 256) ++ leBytes 2 ref
    ((s.setTlink t { x with nak := false, refused := none, initTx := true }).sendBlocks t blk).handshake t

def execTetherLinkSend (t : Nat) (s : State) : Answer := pcmd (decide (t < 3)) s fun s => s.linkSend t

/-! ### Markers (R351) -/

/-- A MARKER block on lane `phys` of the link, which has block lock: it names the peer's lane and the width. In stage 7 a marker of another
width, or of a lane outside the link, keeps the link there (R326, R351). A BIP-8 mismatch only counts. -/
def State.marker (s : State) (t lane phys width : Nat) (bipOk : Bool) : State :=
  match (s.tetherLanes t)[phys]? with
  | none => s
  | some (g, l) =>
    if (s.lane g l).own < 6 then s
    else
      let n := (s.tetherLanes t).length
      let s := if bipOk then s else s.laneErr g l 1
      if (s.lane g l).own ≠ 7 then s
      else if 4 * 2 ^ width = n ∧ lane < n then
        (s.wrF (Reg.laneStat g l) 27 24 lane).setLane g l { s.lane g l with marked := some lane }
      else s.setLane g l { s.lane g l with marked := none }

def execTetherMarker (t lane phys width : Nat) (bipOk : Bool) (s : State) : Answer :=
  pcmd (decide (t < 3) && decide (phys < 16) && decide (width < 4)) s fun s => s.marker t lane phys width bipOk

/-- The marker of a lane. -/
def markerBlock (l code id : Nat) (bip : BitVec 8) : List Byte :=
  [0x4B] ++ leBytes 1 l ++ leBytes 1 code ++ leBytes 2 id ++ [bip, 0xC3, 0x3C]

/-- The lanes from `i` on get their markers. The BIP-8 covers the bytes of the lane's blocks before scrambling, from the previous marker or
from where the end began to send, both markers outside (DEDUCED, log entry 49); it starts anew. -/
def markerRow (t width code id : Nat) : Nat → Nat → LineSt → LineSt × List Byte × List (Nat × Nat × BitVec 64)
  | 0, _, x => (x, [], [])
  | n + 1, i, x =>
    let b := markerBlock i code id (mget (fun _ => 0) x.bip i)
    let r := lineBlock t width x 2 b
    let q := markerRow t width code id n (i + 1) { r.1 with bip := mput (fun _ => 0) r.1.bip i 0 }
    (q.1, b ++ q.2.1, r.2 :: q.2.2)

/-- `TETHER_MARKER_SEND`: a row of its own, one block on each lane. -/
def State.markerSend (s : State) (t : Nat) : State :=
  let n := (s.tetherLanes t).length
  if n = 0 then s
  else
    let code := match n with | 4 => 0 | 8 => 1 | _ => 2
    let r := s.free (2 ^ 18)
    let i := idleBlocks t n r.1 (s.tlink t).line
    let p := idleBlocks t n ((n - i.1.blk) % n) i.1
    let m := markerRow t n code (s.rdF (Reg.fhmTlTlId t) 15 0) n 0 p.1
    (r.2.setTlink t { s.tlink t with line := m.1 }).emit (.tether t m.2.1 (i.2 ++ p.2 ++ m.2.2))

def execTetherMarkerSend (t : Nat) (s : State) : Answer := pcmd (decide (t < 3)) s fun s => s.markerSend t

/-! ### The request ring (R354) -/

/-- The address of a ring entry; LOG2 is held to 4 to 12. -/
def State.tentryAt (s : State) (t idx : Nat) : Nat :=
  s.rdPair (Reg.fhmTlRingLo t) (Reg.fhmTlRingHi t) + idx % 2 ^ max 4 (min 12 (s.rdF (Reg.fhmTlLog2 t) 3 0)) * 64

/-- An entry as it is read. For an OP or a LEN that the specification does not give, the STATUS is a free value (log entry 1). -/
def State.readEntry (s : State) (t idx : Nat) : TEntry × State :=
  match s.busRead s.tetherInit (s.tentryAt t idx) 64 with
  | (.ok b, s) =>
    let op := leAt b 0 1
    let len := leAt b 4 4
    let e : TEntry :=
      { idx := idx, op := op, len := if op = 1 then len else 0, src := leAt b 8 8, dst := leAt b 16 8, rgrp := leAt b 24 2
        rflags := leAt b 28 4, lgrp := leAt b 32 2, lflag := leAt b 34 1, sent := 0, done := 0, posted := false, status := 0 }
    if (op = 1 ∧ 1 ≤ len ∧ len ≤ 16777216) ∨ op = 2 then (e, s)
    else
      let r := s.free 4
      ({ e with status := r.1 + 1 }, r.2)
  | (_, s) =>
    ({ idx := idx, op := 0, len := 0, src := 0, dst := 0, rgrp := 0, rflags := 0, lgrp := 0, lflag := 0, sent := 0, done := 0
       posted := false, status := 4 }, s)

/-- Entries up to PI taken in ring order. -/
def State.takeEntries : Nat → State → Nat → State
  | 0, s, _ => s
  | f + 1, s, t =>
    let x := s.tlink t
    if x.taken = s.rdF (Reg.fhmTlPi t) 15 0 then s
    else
      let r := s.readEntry t x.taken
      State.takeEntries f (r.2.setTlink t { x with entries := x.entries ++ [r.1], taken := (x.taken + 1) % 65536 }) t

def State.reqPi (s : State) (t v : Nat) : State :=
  (State.takeEntries 65536 (s.wr (Reg.fhmTlPi t) (v % 65536)) t).pump pumpFuel t

def execTetherReqPiWrite (t : Nat) (v : Word) (s : State) : Answer := pcmd (decide (t < 3)) s fun s => s.reqPi t v.toNat

/-- The STATUS with which an entry completes, once it may. -/
def entryDone (x : TetherState) (e : TEntry) : Option Nat :=
  if e.status ≠ 0 then some e.status
  else if e.op = 1 then if e.done = e.len then some 1 else none
  else if e.posted && !(x.flight.any fun f => f.entry == e.idx) then some 1
  else none

/-- `TETHER_ENTRY_COMPLETE`: the oldest entry, once it is done: STATUS and DONE are written, CI passes it, LFLAG is posted in LGRP. -/
def State.entryOut (s : State) (t : Nat) : State :=
  let x := s.tlink t
  match x.entries with
  | [] => s
  | e :: rest =>
    match entryDone x e with
    | none => s
    | some st =>
      let a := s.tentryAt t e.idx
      let s := (s.busWrite s.tetherInit (a + 35) (leBytes 1 st ++ leBytes 4 e.done)).2
      let s := (s.setTlink t { x with entries := rest }).wr (Reg.fhmTlCi t) ((e.idx + 1) % 65536)
      if e.lgrp < 16384 then s.post e.lgrp (2 ^ (e.lflag % 32)) else s

def execTetherEntryComplete (t : Nat) (s : State) : Answer := pcmd (decide (t < 3)) s fun s => s.entryOut t

end Sys2Proof.Machine
end

