-- ==== Sys2Proof/Machine/Timeline.lean ====
section
/-! DEFINITION. Carrier timelines (R380 to R383): boundaries, arming, the settings in force, and the rules that post events and offer
retraining gaps. -/

namespace Sys2Proof.Machine

/-! ### Boundaries (R380) -/

/-- MU of a timeline; 0b11 acts as 0b00. -/
def State.tlMu (s : State) (c : Nat) : Nat :=
  match s.rdF (Reg.mrdTlCtrl c) 1 0 with
  | 1 => 1
  | 2 => 2
  | _ => 0

/-- Slots per carrier frame. -/
def slotsPerFrame (mu : Nat) : Nat := 10 * 2 ^ mu

/-- When symbol `q` of a carrier frame starts after the frame does, in Ts. -/
def symbolTs (mu q : Nat) : Nat :=
  let per := 7 * 2 ^ mu
  let n := q % per
  q / per * 15360 + if n = 0 then 0 else 16 + n * (2192 / 2 ^ mu)

/-- Ts in 2^-32 ns, rounded up: Ts is 10^5 / 3,072 ns. -/
def tsTime (ts : Nat) : Nat := (ts * 100000 * 2 ^ 32 + 3071) / 3072

/-- The start of a symbol, counted over all carrier frames, less `ofs` ns, in 2^-32 ns. -/
def State.symbolTime (s : State) (c sym : Nat) (ofs : Int) : Nat :=
  let per := 14 * slotsPerFrame (s.tlMu c)
  ((s.frameNs c (sym / per) - ofs) * 2 ^ 32 + tsTime (symbolTs (s.tlMu c) (sym % per))).toNat

/-! ### Settings in force (R383) -/

/-- A register of a timeline's page as it is in force for carrier frame `k`. -/
def State.tlRd (s : State) (c k off : Nat) : Nat :=
  match (s.tl c).versions.find? fun v => k < v.1 with
  | some v => (mget regDefault v.2 off).toNat
  | none => s.rd off

/-- Bits of such a register. -/
def State.tlF (s : State) (c k off hi lo : Nat) : Nat := fld (s.tlRd c k off) hi lo

/-- What a write to an armed timeline's page leaves in force for the frames that start less than 2 ms from now. -/
def State.tlSnapshot (s : State) (c : Nat) : State :=
  if !s.armed c then s
  else
    let k := s.farFrame c
    let t := s.tl c
    if t.versions.any fun v => v.1 == k then s
    else
      let page := 0x1010000 + 0x100 * c
      s.setTl c { t with versions := t.versions ++ [(k, s.csr.filter fun e => decide (page ≤ e.1 ∧ e.1 < page + 0x100))] }

/-- A write of `TL[c].CTRL`: ARM_ERR is cleared by writing 1; PERIOD and MU are taken, MU only while not armed; ARM = 1 arms in LOCKED
and sets ARM_ERR elsewhere, ARM = 0 disarms. -/
def State.tlCtrlWrite (s : State) (c v : Nat) : State :=
  let was := s.armed c
  let s := s.tlSnapshot c
  let s := if tb v 30 then s.wrF (Reg.mrdTlCtrl c) 30 30 0 else s
  let s := s.wrF (Reg.mrdTlCtrl c) 14 8 (fld v 14 8)
  let s := if was then s else s.wrF (Reg.mrdTlCtrl c) 1 0 (v % 4)
  if !tb v 31 then s.disarm c
  else if was then s
  else if s.mrdState ≠ 2 then s.wrF (Reg.mrdTlCtrl c) 30 30 1
  else s.armTl c

def execTimelineArm (c : Nat) (v : Word) (s : State) : Answer := pcmd (decide (c < 384)) s fun s => s.tlCtrlWrite c v.toNat

def execTimelineDisarm (c : Nat) (v : Word) (s : State) : Answer := pcmd (decide (c < 384)) s fun s => s.tlCtrlWrite c v.toNat

/-- Any other write to a timeline's page: AIR_OFS is ignored while ARMED = 1. -/
def State.tlWrite (s : State) (c off v : Nat) : State :=
  if off = Reg.mrdTlAirOfs c then (if s.armed c then s else s.wr off v) else (s.tlSnapshot c).wr off v

/-! ### Directions (R381) -/

/-- PERIOD in force; other values act as 1. -/
def State.tlPeriod (s : State) (c k : Nat) : Nat :=
  let p := s.tlF c k (Reg.mrdTlCtrl c) 14 8
  if 1 ≤ p ∧ p ≤ 64 then p else 1

/-- Slot index j of a slot counted over all carrier frames: SFN × slots per frame + slot. -/
def State.slotIndex (s : State) (c sl : Nat) : Nat := sl % (1024 * slotsPerFrame (s.tlMu c))

/-- The UL bit of a slot. -/
def State.slotUl (s : State) (c sl : Nat) : Bool :=
  let k := sl / slotsPerFrame (s.tlMu c)
  tb (s.tlRd c k (Reg.mrdTlUlMaskLo c) + s.tlRd c k (Reg.mrdTlUlMaskHi c) * 2 ^ 32) (s.slotIndex c sl % s.tlPeriod c k)

/-- The DL bit of a slot. -/
def State.slotDl (s : State) (c sl : Nat) : Bool :=
  let k := sl / slotsPerFrame (s.tlMu c)
  tb (s.tlRd c k (Reg.mrdTlDlMaskLo c) + s.tlRd c k (Reg.mrdTlDlMaskHi c) * 2 ^ 32) (s.slotIndex c sl % s.tlPeriod c k)

/-! ### Rules (R382) -/

/-- The slot to which boundary `k` of a rule of that KIND belongs, counted over all carrier frames. -/
def State.ruleSlot (s : State) (c kind k : Nat) : Nat :=
  match kind with
  | 1 => k / 14
  | 3 => k * slotsPerFrame (s.tlMu c)
  | _ => k

/-- ADVANCE held to ±1 ms. -/
def advanceHeld (a : Int) : Int := max (-1000000) (min 1000000 a)

/-- The time at which a rule fires for a boundary, in 2^-32 ns. -/
def State.ruleTime (s : State) (c r kind k : Nat) : Nat :=
  let sl := s.ruleSlot c kind k
  let sym := if kind = 1 then k else sl * 14
  s.symbolTime c sym (advanceHeld (sx 32 (s.tlRd c (sl / slotsPerFrame (s.tlMu c)) (Reg.mrdTlRuleAdvance c r))))

/-- What a rule does when it fires: a flag in group G, or a gap offered. -/
def State.ruleEffect (s : State) (c r kind k : Nat) : State :=
  let sl := s.ruleSlot c kind k
  let f := sl / slotsPerFrame (s.tlMu c)
  let cfg := s.tlRd c f (Reg.mrdTlRuleCfg c r)
  let g := (fld cfg 21 8 + s.slotIndex c sl % 2 ^ min 6 (fld cfg 26 24)) % 16384
  if kind = 4 then
    let mask := s.tlRd c f (Reg.mrdTlRuleDmcmask c r) % 64
    (s.emit (.gap mask)).offerGap mask
  else ((s.tally 8 0 5 1).hist 8 0 0 ((s.mrd.time - s.ruleTime c r kind k) / 2 ^ 32)).post g (2 ^ (if kind = 1 then k % 14 else fld cfg 4 0))

/-- Boundary `k` reaches rule `r` of an armed timeline: it fires at its time where the rule has that KIND, the frame is driven and the
slot passes DIR. The events of one timeline fall in time order, those of one time in rule order, so one that belongs before an event
that has fallen comes too late. -/
def State.fireRule (s : State) (c r kind k : Nat) : State :=
  let sl := s.ruleSlot c kind k
  let f := sl / slotsPerFrame (s.tlMu c)
  let cfg := s.tlRd c f (Reg.mrdTlRuleCfg c r)
  let dirOk := match fld cfg 28 27 with | 1 => s.slotUl c sl | 2 => s.slotDl c sl | _ => true
  let t := s.tl c
  let at' := s.ruleTime c r kind k
  let late := decide (at' < t.last.1) || (decide (at' = t.last.1) && decide (r < t.last.2))
  if !s.armed c || late || fld cfg 31 29 ≠ kind || f < t.fromFrame || k < mget (fun _ => 0) t.fired r || !dirOk then s
  else
    let s := s.until at'
    let s := s.setTl c { t with fired := mput (fun _ => 0) t.fired r (k + 1), last := (at', r) }
    s.ruleEffect c r kind k

def execSymbol (c r k : Nat) (s : State) : Answer := pcmd (decide (c < 384) && decide (r < 8)) s fun s => s.fireRule c r 1 k

def execSlot (c r k : Nat) (s : State) : Answer := pcmd (decide (c < 384) && decide (r < 8)) s fun s => s.fireRule c r 2 k

def execFrame (c r k : Nat) (s : State) : Answer := pcmd (decide (c < 384) && decide (r < 8)) s fun s => s.fireRule c r 3 k

def execGap (c r k : Nat) (s : State) : Answer := pcmd (decide (c < 384) && decide (r < 8)) s fun s => s.fireRule c r 4 k

end Sys2Proof.Machine
end

