-- ==== Sys2Proof/Machine/Trellis.lean ====
section
/-! DEFINITION. The Trellis fabric (chapter 12): cells, routing, trunks and block memories, the fabric clock, region states, fences and
the loading of images. -/

namespace Sys2Proof.Machine

/-! ### Configuration (R391, R394) -/

/-- A word of a cell's frame. -/
def State.cellWord (s : State) (c r w : Nat) : Nat :=
  (mget (fun _ => (0 : Word)) s.trl.frames ((c * 0x4000 + r * 0x40) / 4 + w)).toNat

/-- The number of a cell. -/
def cellKey (c r : Nat) : Nat := c * 256 + r

/-- The region of a column. -/
def regionOf (c : Nat) : Nat := c / 8

/-- The region's outputs are enabled (R410). -/
def State.outsOn (s : State) (g : Nat) : Bool := decide (3 ≤ s.regionSt g)

/-- The coming edge opens the write enables of a region that a release takes through OUT_EN. -/
def State.wesOpening (s : State) (g : Nat) : Bool :=
  match s.trl.job with
  | some j => !j.hold && !j.loading && decide (j.count ≤ 1) && tb j.mask g && s.regionSt g == 3
  | none => false

/-- What the fabric presents in this cycle is accepted: the region's write enables are open, or open at the edge that ends the cycle
(R410, R411). -/
def State.wesOpen (s : State) (g : Nat) : Bool := decide (4 ≤ s.regionSt g) || s.wesOpening g

/-- The region runs. -/
def State.runs (s : State) (g : Nat) : Bool := decide (s.regionSt g = 5)

/-! ### One operation (R392) -/

/-- `x` as a signed 16-bit number. -/
def s16 (x : Nat) : Int := sx 16 x

/-- Result and carry-out of an operation on 16-bit operands; an illegal one gives values that nothing states. -/
def cellOp (op a b cin key : Nat) : Nat × Nat :=
  let n := b % 16
  let test := fun (p : Bool) => if p then (0xFFFF, 1) else (0, 0)
  match op with
  | 0x00 => (a, 0)
  | 0x01 => ((a + b + cin) % 65536, (a + b + cin) / 65536)
  | 0x02 => ((a + 65536 - b + cin + 65535) % 65536, bn (decide (b + 1 ≤ a + cin)))
  | 0x03 => (a &&& b, 0)
  | 0x04 => (a ||| b, 0)
  | 0x05 => (a ^^^ b, 0)
  | 0x06 => (a &&& (65535 - b), 0)
  | 0x07 => (a * 2 ^ n % 65536, if n = 0 then 0 else a / 2 ^ (16 - n) % 2)
  | 0x08 => (a / 2 ^ n, if n = 0 then 0 else a / 2 ^ (n - 1) % 2)
  | 0x09 => (wrap 16 (s16 a / 2 ^ n), if n = 0 then 0 else a / 2 ^ (n - 1) % 2)
  | 0x0A => test (a == b)
  | 0x0B => test (decide (s16 a < s16 b))
  | 0x0C => test (decide (a < b))
  | 0x0D => (wrap 16 (sx 8 a * sx 8 b), 0)
  | 0x0E => (a % 256 * (b % 256), 0)
  | 0x0F => (if cin = 1 then a else b, 0)
  | 0x10 => (if s16 a ≤ s16 b then a else b, 0)
  | 0x11 => (if s16 a ≤ s16 b then b else a, 0)
  | _ => ((Config.fabricOpen key).toNat, (Config.fabricOpen (key + 0x10000)).toNat % 2)

/-! ### Signals within one cycle (R393, R395, R397, R400) -/

/-- A signal of the fabric. Directions are 0 north, 1 east, 2 south, 3 west for length 1 and 4 to 7 for length 8. -/
inductive Sig
  | q (c r : Nat)              -- output Q
  | res (c r : Nat)            -- the result of the selected entry
  | carry (c r : Nat)          -- its carry-out
  | ctx (c r : Nat)            -- the selected context
  | inp (c r i : Nat)          -- input i
  | wire (d c r : Nat)         -- the segment wire that the cell drives towards d
  | arrive (d c r : Nat)       -- the segment wire that arrives from d
  | trunk (t : Nat)            -- row × 32 + index
  deriving DecidableEq, Repr

/-- The value of U0 or U1, or of a registered Q: its reset value unless the region runs. -/
def State.cellReg (s : State) (which c r : Nat) : Nat :=
  let rst : BitVec 16 := BitVec.ofNat 16 (match which with
    | 0 => s.cellWord c r 10
    | 1 => s.cellWord c r 10 / 65536
    | _ => s.cellWord c r 11)
  if s.runs (regionOf c) then
    (mget (fun _ => rst) (match which with | 0 => s.trl.u0 | 1 => s.trl.u1 | _ => s.trl.q) (cellKey c r)).toNat
  else rst.toNat

/-- The sequencer of a cell. -/
def State.cellSeq (s : State) (c r : Nat) : Nat := if s.runs (regionOf c) then mget (fun _ => 0) s.trl.seq (cellKey c r) else 0

/-- The neighbour from which a wire arrives, and the direction in which that cell drives it. -/
def neighbour (d c r : Nat) : Option (Nat × Nat × Nat) :=
  let n := if d < 4 then 1 else 8
  let b := if d < 4 then 0 else 4
  match d % 4 with
  | 0 => if r + n < 256 then some (b + 2, c, r + n) else none
  | 1 => if c + n < 64 then some (b + 3, c + n, r) else none
  | 2 => if n ≤ r then some (b, c, r - n) else none
  | _ => if n ≤ c then some (b + 1, c - n, r) else none

/-- Where the fence values of wires and trunks are kept. -/
def wireKey (d c r : Nat) : Nat := d * 16384 + cellKey c r
def trunkKey (t : Nat) : Nat := 8 * 16384 + t

/-- The fence value of a key of region `g` (R412). -/
def State.fenceVal (s : State) (g key : Nat) : Nat :=
  if s.trl.fence.contains g then (mget (fun _ => (0 : BitVec 16)) s.trl.fenced key).toNat else 0

/-- The region is HELD or LOADING. -/
def State.fenceOn (s : State) (g : Nat) : Bool := s.regionSt g == 1 || s.regionSt g == 2

/-- The taps of a trunk that may drive it: column, TAPMODE and TAPCTX. -/
def State.taps (s : State) (t : Nat) : List (Nat × Nat × Nat) :=
  (List.range 64).filterMap fun c =>
    let w := s.cellWord c (t / 32) 8
    if 2 ≤ fld w 25 24 ∧ fld w 30 26 = t % 32 ∧ s.regionSt (regionOf c) ≠ 0 then some (c, fld w 25 24, fld w 23 21) else none

/-- A trunk without an enabled driver: the fence value where its only drivers lie in fenced regions, else the last value. -/
def State.idleTrunk (s : State) (t : Nat) : Nat :=
  let taps := s.taps t
  match taps.find? fun e => s.fenceOn (regionOf e.1) with
  | some e =>
    if taps.all fun e => s.fenceOn (regionOf e.1) then s.fenceVal (regionOf e.1) (trunkKey t)
    else (mget (fun _ => (0 : BitVec 16)) s.trl.trunk t).toNat
  | none => (mget (fun _ => (0 : BitVec 16)) s.trl.trunk t).toNat

/-- The word that a streaming port shows the fabric in this cycle. -/
def State.spWord (s : State) (sp : Nat) : Option (BitVec 64) := mget (fun _ => none) s.trl.rxOut sp

/-- The response that a memory port shows in this cycle: data (2^64 where a write's response carries none) and error bit. -/
def State.dpResp (s : State) (d : Nat) : Option (Nat × Bool) := mget (fun _ => none) s.trl.resp d

/-- The port input of a cell (R400); none where no port attaches. -/
def State.portIn (s : State) (c r : Nat) : Option Nat :=
  let g := regionOf c
  let i := (255 - r) * 8 + c % 8
  let ready := fun p => bn (!s.trl.notReady.contains p)
  if 254 ≤ r ∧ i < 12 then some (bn (tb s.trl.pins (12 * g + i)))
  else if r < 4 ∧ c % 2 = 0 then
    some (match s.spWord (4 * g + c % 8 / 2) with | some w => w.toNat / 2 ^ (16 * r) % 65536 | none => 0)
  else if r = 0 then some (bn (s.spWord (4 * g + c % 8 / 2)).isSome)
  else if c % 8 = 7 ∧ r = 128 then some (ready g)
  else if c % 16 = 7 ∧ r = 192 then
    let d := c / 16
    some (ready (8 + d) + match s.dpResp d with | some (v, e) => 2 * bn (decide (v < 2 ^ 64)) + 4 * bn e | none => 0)
  else if c % 16 = 7 ∧ 196 ≤ r ∧ r < 200 then
    some (match s.dpResp (c / 16) with | some (v, _) => v / 2 ^ (16 * (r - 196)) % 65536 | none => 0)
  else if c = 63 ∧ r = 136 then some (match s.trl.subAck with | some h => 1 + 2 * (h / 2 ^ 31) | none => 0)
  else if c = 63 ∧ r = 137 then some ((s.trl.subAck.getD 0) % 65536)
  else if c = 63 ∧ r = 138 then some ((s.trl.subAck.getD 0) / 65536 % 65536)
  else none

/-- The block memory port whose read data a cell sees: memory × 2 + port (R399). -/
def bmPortOf (c r : Nat) : Option Nat :=
  let b := 4 * c + r / 64
  if r % 64 < 4 then some (b * 2) else if r % 64 < 8 then some (b * 2 + 1) else none

/-- Result and carry-out of the selected entry, by the values of the signals it reads. -/
def State.cellCompute (s : State) (ev : Sig → Nat) (c r : Nat) : Nat × Nat :=
  let e := s.cellWord c r (ev (.ctx c r))
  let operand := fun (n : Nat) =>
    match n with
    | 4 => s.cellReg 0 c r
    | 5 => s.cellReg 1 c r
    | 6 => e % 65536
    | 7 => 0
    | i => ev (.inp c r i)
  let cin := match fld e 17 16 with
    | 0 => 0
    | 1 => 1
    | 2 => if r = 0 then 0 else ev (.carry c (r - 1))
    | _ => ev (.inp c r 3) % 2
  cellOp (fld e 31 27) (operand (fld e 26 24)) (operand (fld e 23 21)) cin (cellKey c r)

/-- The value of a signal; a depth that only a closed loop exceeds leaves it open. -/
def State.sig (s : State) : Nat → Sig → Nat
  | 0, .q c r => (Config.fabricOpen (cellKey c r)).toNat
  | 0, _ => (Config.fabricOpen 0).toNat
  | f + 1, .q c r =>
    let e := s.cellWord c r (s.sig f (.ctx c r))
    if tb e 18 then s.cellReg 2 c r else s.sig f (.res c r)
  | f + 1, .ctx c r =>
    match fld (s.cellWord c r 8) 17 16 with
    | 0 => 0
    | 1 => s.sig f (.inp c r 3) % 8
    | _ => s.cellSeq c r
  | f + 1, .res c r => (s.cellCompute (s.sig f) c r).1
  | f + 1, .carry c r => (s.cellCompute (s.sig f) c r).2
  | f + 1, .inp c r i =>
    match fld (s.cellWord c r 8) (4 * i + 3) (4 * i) with
    | 0x8 => s.sig f (.trunk (r * 32 + fld (s.cellWord c r 8) 30 26))
    | 0x9 => match bmPortOf c r with
      | some p => (mget (fun _ => (0 : BitVec 16)) s.trl.bmRead p).toNat
      | none => 0
    | 0xA => (s.portIn c r).getD 0
    | 0xB => s.sig f (.q c r)
    | d => if d < 8 then s.sig f (.arrive d c r) else 0
  | f + 1, .arrive d c r =>
    match neighbour d c r with
    | none => 0
    | some (e, c', r') =>
      if regionOf c' ≠ regionOf c ∧ s.fenceOn (regionOf c') then s.fenceVal (regionOf c') (wireKey e c' r')
      else s.sig f (.wire e c' r')
  | f + 1, .wire d c r =>
    match fld (s.cellWord c r 9) (4 * d + 3) (4 * d) with
    | 0x1 => s.sig f (.q c r)
    | 0x2 => s.sig f (.arrive 0 c r)
    | 0x3 => s.sig f (.arrive 1 c r)
    | 0x4 => s.sig f (.arrive 2 c r)
    | 0x5 => s.sig f (.arrive 3 c r)
    | 0x6 => s.sig f (.arrive 4 c r)
    | 0x7 => s.sig f (.arrive 5 c r)
    | 0x8 => s.sig f (.arrive 6 c r)
    | 0x9 => s.sig f (.arrive 7 c r)
    | 0xA => s.sig f (.trunk (r * 32 + fld (s.cellWord c r 8) 30 26))
    | _ => 0
  | f + 1, .trunk t =>
    if s.trl.tapsOff.contains t then 0
    else
      let on := (s.taps t).filter fun e =>
        s.outsOn (regionOf e.1) && (e.2.1 == 2 || s.sig f (.ctx e.1 (t / 32)) == e.2.2)
      match on with
      | [] => s.idleTrunk t
      | [e] => s.sig f (.q e.1 (t / 32))
      | _ => (Config.fabricOpen (trunkKey t)).toNat

/-- More than any chain of signals without a closed loop. -/
def sigDepth : Nat := 262144

/-- The output Q of a cell in the present cycle. -/
def State.cellQ (s : State) (c r : Nat) : Nat := s.sig sigDepth (.q c r)

/-! ### The clock edge (R393, R397, R399, R401) -/

/-- The cells that have a frame: the others keep no state. -/
def State.framed (s : State) : List (Nat × Nat) :=
  (s.trl.frames.map fun e => (e.1 / 0x1000, e.1 % 0x1000 / 16)).foldr (fun e l => if l.head? = some e then l else e :: l) []

/-- What one cell writes at the edge: U0, U1, a registered Q and its sequencer. -/
def State.cellEdge (s now : State) (c r : Nat) : State :=
  if !now.runs (regionOf c) then s
  else
    let key := cellKey c r
    let e := now.cellWord c r (now.sig sigDepth (.ctx c r))
    let v : BitVec 16 := BitVec.ofNat 16 (now.sig sigDepth (.res c r))
    let rst := fun (w sh : Nat) => (BitVec.ofNat 16 (now.cellWord c r w / 2 ^ sh) : BitVec 16)
    let stat := now.cellWord c r 8
    let go := fld stat 17 16 == 2 || (fld stat 17 16 == 3 && decide (32768 ≤ now.sig sigDepth (.inp c r 3)))
    let seq := now.cellSeq c r
    { s with trl := { s.trl with
      u0 := if tb e 20 then mput (fun _ => rst 10 0) s.trl.u0 key v else s.trl.u0
      u1 := if tb e 19 then mput (fun _ => rst 10 16) s.trl.u1 key v else s.trl.u1
      q := if tb e 18 then mput (fun _ => rst 11 0) s.trl.q key v else s.trl.q
      seq := if go then mput (fun _ => 0) s.trl.seq key (if fld stat 20 18 ≤ seq then 0 else seq + 1) else s.trl.seq } }

/-- The two ports of a block memory at the edge: both read what was there, then port A writes, then port B. -/
def State.bmEdge (s now : State) (b : Nat) : State :=
  let c := b / 4
  let r := b % 4 * 64
  let base := 0x30100000 + b * 0x1000
  if now.regionSt (regionOf c) < 2 then s
  else
    let port := fun (p : Nat) => (now.cellQ c (r + 2 * p), now.cellQ c (r + 2 * p + 1))
    let rd := fun (s : State) (p : Nat) =>
      match s.memRead (base + (port p).1 % 2048 * 2) 2 with
      | (.ok bs, s) =>
        { s with trl := { s.trl with bmRead := mput (fun _ => 0) s.trl.bmRead (b * 2 + p) (BitVec.ofNat 16 (ofLe bs)) } }
      | (_, s) => s
    let wr := fun (s : State) (p : Nat) =>
      if now.wesOpen (regionOf c) && decide (32768 ≤ (port p).1) then
        (s.memWrite (base + (port p).1 % 2048 * 2) (leBytes 2 (port p).2)).2
      else s
    wr (wr (rd (rd s 0) 1) 0) 1

/-- The column and row at which a streaming port attaches. -/
def spColumn (sp : Nat) : Nat := 8 * (sp / 4) + 2 * (sp % 4)

/-- A streaming port at the edge: the word that the fabric presents enters the transmit FIFO, the next received word is shown. -/
def State.spEdge (s now : State) (sp : Nat) : State :=
  let g := sp / 4
  let c := spColumn sp
  let rx := mget (fun _ => []) s.trl.rx sp
  let s :=
    if now.regionSt g = 0 then s
    else { s with trl := { s.trl with rx := mput (fun _ => []) s.trl.rx sp (rx.drop 1), rxOut := mput (fun _ => none) s.trl.rxOut sp rx.head? } }
  let tx := mget (fun _ => []) s.trl.tx sp
  if now.outsOn g && now.cellQ (c + 1) 4 % 2 == 1 && decide (tx.length < 64) then
    let w : BitVec 64 := BitVec.ofNat 64 ((List.range 4).foldl (fun v k => v + now.cellQ c (4 + k) * 2 ^ (16 * k)) 0)
    { s with trl := { s.trl with tx := mput (fun _ => []) s.trl.tx sp (tx ++ [w]) } }
  else s

/-- The levels and output enables at TR_IO0 to TR_IO95 (R400): high-Z unless the region's outputs are enabled. -/
def State.pinsOut (s : State) : Nat × Nat :=
  (List.range 96).foldl (fun (v : Nat × Nat) p =>
    let g := p / 12
    let i := p % 12
    if s.outsOn g then
      let q := s.cellQ (8 * g + i % 8) (255 - i / 8)
      (v.1 + q % 2 * 2 ^ p, v.2 + q / 2 % 2 * 2 ^ p)
    else v) (0, 0)

/-- The last value of each trunk that has had a driver in this cycle. -/
def State.trunkEdge (s now : State) : State :=
  (now.framed.filterMap fun e =>
    let w := now.cellWord e.1 e.2 8
    if 2 ≤ fld w 25 24 ∧ now.outsOn (regionOf e.1) then some (e.2 * 32 + fld w 30 26) else none).foldl (fun s t =>
      { s with trl := { s.trl with trunk := mput (fun _ => 0) s.trl.trunk t (BitVec.ofNat 16 (now.sig sigDepth (.trunk t))) } }) s

/-! ### Region states (R410 to R412) -/

/-- A region's state set; with every region EMPTY the fabric clock stops. -/
def State.setRegion (s : State) (g st : Nat) : State :=
  let s := s.wrF Reg.trlRstat (4 * g + 3) (4 * g) st
  if s.rd Reg.trlRstat = 0 then (s.wrF Reg.trlStat 31 31 0).wrF Reg.trlStat 15 0 0 else s

/-- Keys of cells in a region. -/
def inRegion (g key : Nat) : Bool := key / 256 / 8 == g

/-- Registers and sequencers of a region back to their reset values. -/
def State.regionReset (s : State) (g : Nat) : State :=
  { s with trl := { s.trl with
    u0 := mdrop (inRegion g) s.trl.u0, u1 := mdrop (inRegion g) s.trl.u1, q := mdrop (inRegion g) s.trl.q
    seq := mdrop (inRegion g) s.trl.seq } }

/-- The trunks that a region's taps may drive. -/
def State.regionTrunks (s : State) (g : Nat) : List Nat :=
  s.framed.filterMap fun e =>
    let w := s.cellWord e.1 e.2 8
    if regionOf e.1 = g ∧ 2 ≤ fld w 25 24 then some (e.2 * 32 + fld w 30 26) else none

/-- The region's fence value is HOLD: as the image says that a load in progress brings it, else as its own image says. -/
def State.fenceHold (s : State) (g : Nat) : Bool :=
  match s.trl.job with
  | some j => if !j.image.isEmpty && tb j.mask g then tb (leAt j.image 7 1) g else s.trl.fence.contains g
  | none => s.trl.fence.contains g

/-- The outputs of a region are disabled: what its wires and trunks carried is kept, for a HOLD fence (R412). -/
def State.fenceRegion (s : State) (g : Nat) : State :=
  let wires := (s.framed.filter fun e => regionOf e.1 == g).flatMap fun e =>
    ([1, 3, 5, 7].filter fun d => match d with | 1 => e.1 % 8 == 7 | 3 => e.1 % 8 == 0 | _ => true).map fun d => (d, e.1, e.2)
  let f := wires.foldl (fun m w => mput (fun _ => 0) m (wireKey w.1 w.2.1 w.2.2) (BitVec.ofNat 16 (s.sig sigDepth (.wire w.1 w.2.1 w.2.2)))) s.trl.fenced
  let f := (s.regionTrunks g).foldl (fun m t => mput (fun _ => 0) m (trunkKey t) (BitVec.ofNat 16 (s.sig sigDepth (.trunk t)))) f
  { s with trl := { s.trl with fenced := f, fence := if s.fenceHold g then sins s.trl.fence g else sdel s.trl.fence g } }

/-- The fence of a region removed; its trunks read zero until driven (R397). -/
def State.unfence (s : State) (g : Nat) : State :=
  let ts := s.regionTrunks g
  { s with trl := { s.trl with
    fenced := mdrop (fun k => if k < 8 * 16384 then inRegion g (k % 16384) else ts.contains (k - 8 * 16384)) s.trl.fenced
    trunk := mdrop (fun t => ts.contains t) s.trl.trunk } }

/-- One step of a hold for a region: resets asserted, write enables closed, outputs disabled. -/
def State.holdStep (s : State) (g : Nat) : State :=
  match s.regionSt g with
  | 5 => (s.regionReset g).setRegion g 4
  | 4 =>
    let s := s.setRegion g 3
    if g % 2 = 1 then s
    else
      let m := (mget (fun _ => []) s.trl.reqs (g / 2)).map fun (q : MemPortReq) => { q with discard := true }
      { s with trl := { s.trl with reqs := mput (fun _ => []) s.trl.reqs (g / 2) m } }
  | 3 => (s.fenceRegion g).setRegion g 2
  | _ => s

/-- One step of a release for a region. -/
def State.releaseStep (s : State) (g : Nat) : State :=
  match s.regionSt g with
  | 2 => (s.unfence g).setRegion g 3
  | 3 => s.setRegion g 4
  | 4 => s.setRegion g 5
  | _ => s

/-- A region emptied: its frames, registers and fence are gone. -/
def State.emptyRegion (s : State) (g : Nat) : State :=
  let s := (s.unfence g).regionReset g
  let s := { s with trl := { s.trl with frames := mdrop (fun k => k / 0x8000 == g) s.trl.frames, cfgBad := sdel s.trl.cfgBad g } }
  s.setRegion g 0

/-- The regions of a mask. -/
def regions (mask : Nat) : List Nat := (List.range 8).filter fun g => tb mask g

/-- Regions that the device holds of itself, from the next edge on with GAP = 8, whatever is in progress for them: a release in progress
goes on without them (R413, R525). -/
def State.holdNow (s : State) (mask : Nat) : State :=
  let s := (regions mask).foldl (fun (s : State) g =>
    if s.regionSt g < 3 ∨ s.trl.forced.any (fun e => e.1 == g) then s
    else { s with trl := { s.trl with forced := s.trl.forced ++ [(g, 1)] } }) s
  match s.trl.job with
  | some j => if j.hold ∨ j.mask &&& mask = 0 then s
    else { s with trl := { s.trl with job := if j.mask - (j.mask &&& mask) = 0 then none else some { j with mask := j.mask - (j.mask &&& mask) } } }
  | none => s

/-- One clock edge of those holds. -/
def State.forcedEdge (s : State) : State :=
  let s := s.trl.forced.foldl (fun s e => if e.2 ≤ 1 then s.holdStep e.1 else s) s
  let left := s.trl.forced.filterMap fun e => if s.regionSt e.1 < 3 then none else some (e.1, if e.2 ≤ 1 then 8 else e.2 - 1)
  { s with trl := { s.trl with forced := left } }

/-- VDD_TRIO does not match the VIO of the loaded image (R525). -/
def State.vioBad (s : State) : Bool := s.trl.vioReq ≠ 0 && s.trl.vioReq ≠ s.rdF Reg.trlStat 25 24

/-- A region that no release may leave HELD: its configuration store failed, or VDD_TRIO does not match (R413, R525). -/
def State.noRelease (s : State) (g : Nat) : Bool := s.trl.cfgBad.contains g || s.vioBad

/-! ### Images (R405 to R409) -/

/-- The fields of an image's header. -/
structure FabricHdr where
  mask : Nat
  fence : Nat
  fmhz : Nat
  fmax : Nat
  vio : Nat
  bmInit : Bool
  deriving DecidableEq, Repr

def fabricHdr (p : List Byte) : FabricHdr :=
  { mask := leAt p 6 1, fence := leAt p 7 1, fmhz := leAt p 8 2, fmax := leAt p 10 2, vio := leAt p 12 1, bmInit := tb (leAt p 13 1) 0 }

/-- Bytes of one region's section. -/
def sectionLen (h : FabricHdr) : Nat := if h.bmInit then 262144 else 131072

/-- Where a region's section begins. -/
def sectionAt (h : FabricHdr) (g : Nat) : Nat := 128 + ((List.range g).filter fun i => tb h.mask i).length * sectionLen h

/-- A word of the frame that an image gives a cell. -/
def imageWord (p : List Byte) (h : FabricHdr) (c r w : Nat) : Nat :=
  leAt p (sectionAt h (regionOf c) + c % 8 * 0x4000 + r * 0x40 + w * 4) 4

/-- A cell at which a port attaches. -/
def attaches (c r : Nat) : Bool :=
  let i := (255 - r) * 8 + c % 8
  (decide (254 ≤ r) && decide (i < 12)) || (decide (r < 4) && c % 2 == 0) || r == 0 || (c % 8 == 7 && r == 128) ||
    (c % 16 == 7 && (r == 192 || (decide (196 ≤ r) && decide (r < 200)))) || (c == 63 && decide (136 ≤ r) && decide (r ≤ 138))

/-- A frame that keeps R391 to R395: legal operations and codes, reserved bits zero. -/
def frameOk (w : Nat → Nat) (c r : Nat) : Bool :=
  (List.range 8).all (fun e => decide (fld (w e) 31 27 ≤ 0x11)) &&
  (List.range 4).all (fun i =>
    let code := fld (w 8) (4 * i + 3) (4 * i)
    decide (code ≤ 0xC) && (code ≠ 0xA || attaches c r)) &&
  !tb (w 8) 31 && (List.range 8).all (fun d => decide (fld (w 9) (4 * d + 3) (4 * d) ≤ 0xA)) &&
  decide (w 11 < 65536) && (List.range 4).all fun i => w (12 + i) == 0

/-- The columns and rows of a mask. -/
def maskCells (mask : Nat) : List (Nat × Nat) :=
  (regions mask).flatMap fun g => (List.range 8).flatMap fun k => (List.range 256).map fun r => (8 * g + k, r)

/-- The operation of an entry uses operand B; the carry-in. -/
def usesB (e : Nat) : Bool := fld e 31 27 ≠ 0
def usesCin (e : Nat) : Bool := [1, 2, 0xF].contains (fld e 31 27)

/-- The signals that a signal of an image may depend on within a cycle: through entries with OREG = 0, by the operands that their
operations use (DEDUCED, log entry 49), and forwarding multiplexers, whichever entry may be selected (R396). -/
def sigDeps (w : Nat → Nat → Nat → Nat) (inMask : Nat → Bool) : Sig → List Sig
  | .q c r => if (List.range 8).any fun e => !tb (w c r e) 18 then [.res c r] else []
  | .res c r =>
    let es := (List.range 8).filter fun e => !tb (w c r e) 18
    let ins := (List.range 4).filter fun i =>
      es.any fun e => fld (w c r e) 26 24 == i || (usesB (w c r e) && fld (w c r e) 23 21 == i) ||
        (i == 3 && usesCin (w c r e) && fld (w c r e) 17 16 == 3)
    let ins := if fld (w c r 8) 17 16 = 1 then 3 :: ins else ins
    let cin := if 0 < r ∧ es.any fun e => usesCin (w c r e) && fld (w c r e) 17 16 == 2 then [Sig.carry c (r - 1)] else []
    ins.map (fun i => Sig.inp c r i) ++ cin
  | .carry c r => [.res c r]
  | .ctx c r => [.inp c r 3]
  | .inp c r i =>
    match fld (w c r 8) (4 * i + 3) (4 * i) with
    | 0x8 => [.trunk (r * 32 + fld (w c r 8) 30 26)]
    | 0xB => [.q c r]
    | d => if d < 8 then [.arrive d c r] else []
  | .arrive d c r =>
    match neighbour d c r with
    | some (e, c', r') => if inMask (regionOf c') then [.wire e c' r'] else []
    | none => []
  | .wire d c r =>
    match fld (w c r 9) (4 * d + 3) (4 * d) with
    | 0x1 => [.q c r]
    | 0xA => [.trunk (r * 32 + fld (w c r 8) 30 26)]
    | 0x2 => [.arrive 0 c r]
    | 0x3 => [.arrive 1 c r]
    | 0x4 => [.arrive 2 c r]
    | 0x5 => [.arrive 3 c r]
    | n => if 6 ≤ n ∧ n ≤ 9 then [.arrive (n - 2) c r] else []
  | .trunk t =>
    (List.range 64).filterMap fun c =>
      if inMask (regionOf c) ∧ 2 ≤ fld (w c (t / 32) 8) 25 24 ∧ fld (w c (t / 32) 8) 30 26 = t % 32 then some (.q c (t / 32)) else none

/-- The signals that `f` steps of dependence reach from a list. -/
def reach (deps : Sig → List Sig) : Nat → List Sig → List Sig
  | 0, l => l
  | f + 1, l =>
    let more := (l.flatMap deps).foldl (fun m x => if l.contains x || m.contains x then m else m ++ [x]) []
    if more.isEmpty then l else reach deps f (l ++ more)

/-- The first cell of an image that lies on a closed loop (R396). -/
def findLoop (w : Nat → Nat → Nat → Nat) (mask : Nat) : Option (Nat × Nat) :=
  let deps := sigDeps w (fun g => tb mask g)
  (maskCells mask).find? fun e =>
    (Sig.res e.1 e.2 :: (List.range 8).map fun d => Sig.wire d e.1 e.2).any fun x => (reach deps sigDepth (deps x)).contains x

/-- The first trunk whose drivers are not one-hot (R397), with the taps of every region that stays loaded. -/
def State.findTrunk (s : State) (w : Nat → Nat → Nat → Nat) (mask : Nat) : Option Nat :=
  let word := fun c r => if tb mask (regionOf c) then w c r 8 else if s.regionSt (regionOf c) = 0 then 0 else s.cellWord c r 8
  (List.range 8192).find? fun t =>
    let taps := (List.range 64).filterMap fun c =>
      let x := word c (t / 32)
      if 2 ≤ fld x 25 24 ∧ fld x 30 26 = t % 32 then some (fld x 25 24, fld x 23 21) else none
    let always := taps.filter fun e => e.1 == 2
    let ctxs := (taps.filter fun e => e.1 == 3).map (·.2)
    decide (1 < always.length) || (!always.isEmpty && !ctxs.isEmpty) || (List.range 8).any fun c => decide (1 < ctxs.count c)

/-- The checks of R406 on an image's payload: DETAIL and POS of the first that fails, or DETAIL 0. -/
def State.fabricCheck (s : State) (p : List Byte) : Nat × Nat :=
  let h := fabricHdr p
  let n := (regions h.mask).length
  if p.length < 128 ∨ leAt p 0 4 ≠ 0x534C5254 ∨ leAt p 4 2 ≠ 1 ∨ h.mask = 0 ∨ h.fmhz < 100 ∨ 800 < h.fmhz ∨ h.fmhz % 25 ≠ 0 ∨ 2 < h.vio ∨
      1 < leAt p 13 1 ∨ leAt p 14 2 ≠ 0 ∨ !zeroBytes p 100 28 ∨ p.length ≠ 128 + n * sectionLen h then (2, 0)
  else
    let w := imageWord p h
    match (maskCells h.mask).find? fun e => !frameOk (w e.1 e.2) e.1 e.2 with
    | some e => (2, cellKey e.1 e.2)
    | none =>
      match findLoop w h.mask with
      | some e => (3, cellKey e.1 e.2)
      | none =>
        match s.findTrunk w h.mask with
        | some t => (4, t)
        | none =>
          if h.fmax < h.fmhz then (5, 0)
          else if (List.range 32).any fun sp =>
              let l := leAt p (32 + 2 * sp) 2
              tb h.mask (sp / 4) && l ≠ 0xFFFF && (decide (271 ≤ l) || s.laneMode (l / 17) (l % 17) ≠ 6) then (6, 0)
          else (0, 0)

/-- A load that R409 answers BAD_STATE. -/
def State.loadBlocked (s : State) (h : FabricHdr) : Bool :=
  let othersEmpty := (List.range 8).all fun g => tb h.mask g || s.regionSt g == 0
  let anyLoaded := (List.range 8).any fun g => s.regionSt g ≠ 0
  (anyLoaded && !othersEmpty && (h.fmhz ≠ s.rdF Reg.trlStat 15 0 || h.vio ≠ s.trl.vioReq)) ||
    (h.vio ≠ 0 && h.vio ≠ s.rdF Reg.trlStat 25 24)

/-- The frames and block memories of one region written, its trunks' taps enabled again, and its ports set from the header. -/
def State.loadRegion (s : State) (p : List Byte) (h : FabricHdr) (g : Nat) : State :=
  let s := ((s.setRegion g 1).regionReset g).mapColumns fun c => c / 8 == g
  let off := sectionAt h g
  let words := (List.range 32768).filterMap fun i =>
    let w := leAt p (off + 4 * i) 4
    if w = 0 then none else some (g * 32768 + i, (BitVec.ofNat 32 w : Word))
  let s := { s with trl := { s.trl with
    frames := words.foldl (fun (m : List (Nat × Word)) (e : Nat × Word) => mins m e.1 e.2) (mdrop (fun k => k / 0x8000 == g) s.trl.frames)
    fence := if tb h.fence g then sins s.trl.fence g else sdel s.trl.fence g
    cfgBad := sdel s.trl.cfgBad g } }
  let ts := s.regionTrunks g
  let s := { s with trl := { s.trl with
    tapsOff := s.trl.tapsOff.filter fun t => !ts.contains t
    trunk := mdrop (fun t => ts.contains t) s.trl.trunk } }
  let base := 0x30100000 + g * 0x20000
  let s := s.forget base (base + 0x20000)
  let s := if h.bmInit then s.putDev base ((p.drop (off + 131072)).take 131072) else s
  let s := s.wr (Reg.trlEvp g) (leAt p (16 + 2 * g) 2 % 16384)
  let s := (List.range 4).foldl (fun s i =>
    let l := leAt p (32 + 2 * (4 * g + i)) 2
    s.wr (Reg.trlSp (4 * g + i)) (if l = 0xFFFF then 0 else 2 ^ 31 + l % 512)) s
  if g % 2 = 0 then s.wr (Reg.trlDpSc (g / 2)) (leAt p (96 + g / 2) 1 % 4) else s

/-- An image loaded into its regions, which must be HELD or EMPTY: they are LOADING until the next step. -/
def State.loadImage (s : State) (p : List Byte) : State :=
  let h := fabricHdr p
  let s := (s.wrF Reg.trlStat 15 0 h.fmhz).wrF Reg.trlStat 31 31 1
  let s := { s with trl := { s.trl with fmax := h.fmax, vioReq := h.vio } }
  (regions h.mask).foldl (fun s g => s.loadRegion p h g) s

/-! ### Jobs: releases, holds and loads, stepped by the clock (R411, R415, R416) -/

/-- GAP as it acts. -/
def gapOf (n : Nat) : Nat := max 8 n

/-- The register shows the job in progress. -/
def State.setJob (s : State) (j : Option TrlJob) : State :=
  ({ s with trl := { s.trl with job := j } } : State).wrF Reg.trlRel 30 30 (bn j.isSome)

/-- What follows a job's last step: the load, the release after it, or the end. -/
def State.jobDone (s : State) (j : TrlJob) : State :=
  if j.loading then
    let s := (regions j.mask).foldl (fun s g => s.setRegion g 2) s
    let mask := (regions j.mask).foldl (fun m g => if s.noRelease g then m else m + 2 ^ g) 0
    match j.autorel, mask with
    | some _, 0 => s.setJob none
    | some gap, _ => s.setJob (some { j with mask := mask, hold := false, gap := gapOf gap, count := 1, image := [], loading := false, autorel := none })
    | none, _ => s.setJob none
  else if j.hold && !j.image.isEmpty then
    let s := s.loadImage j.image
    s.setJob (some { j with image := [], loading := true, count := 1 })
  else if j.unload then ((regions j.mask).foldl (fun s g => s.emptyRegion g) s).setJob none
  else s.setJob none

/-- A job is at its end: every region held, or every one running. -/
def State.jobOver (s : State) (j : TrlJob) : Bool :=
  (regions j.mask).all fun g => if j.hold then decide (s.regionSt g ≤ 2) else s.regionSt g == 5

/-- A job begun: a hold of regions that need none goes on at once. -/
def State.startJob (s : State) (j : TrlJob) : State :=
  let s := s.setJob (some j)
  if j.hold && s.jobOver j then s.jobDone j else s

/-- One clock edge of the job in progress. -/
def State.jobEdge (s : State) : State :=
  match s.trl.job with
  | none => s
  | some j =>
    if 1 < j.count then s.setJob (some { j with count := j.count - 1 })
    else if j.loading then s.jobDone j
    else
      let s := (regions j.mask).foldl (fun s g =>
        if s.trl.forced.any (fun e => e.1 == g) then s else if j.hold then s.holdStep g else s.releaseStep g) s
      if s.jobOver j then s.jobDone j else s.setJob (some { j with count := j.gap })

/-- The taps of a trunk that are enabled in this cycle. -/
def State.tapsOn (s : State) (t : Nat) : List (Nat × Nat × Nat) :=
  (s.taps t).filter fun e => s.outsOn (regionOf e.1) && (e.2.1 == 2 || s.sig sigDepth (.ctx e.1 (t / 32)) == e.2.2)

/-- The contention guard on one trunk (R398): two or more enabled taps are disabled, recorded and counted; the firmware reports it by
`SYS_ERROR`. -/
def State.contention (s : State) (t : Nat) : State :=
  if s.trl.tapsOff.contains t ∨ (s.tapsOn t).length < 2 then s
  else
    let s := { s with trl := { s.trl with tapsOff := sins s.trl.tapsOff t } }
    let s := s.count Reg.trlGuardCnt 1
    if s.rdB Reg.trlGuard 31 then s.wrF Reg.trlGuard 30 30 1
    else (s.wr Reg.trlGuard (2 ^ 31 + s.rdF Reg.trlGuard 30 30 * 2 ^ 30 + t / 32 * 256 + t % 32)).wr Reg.trlGuardTime s.now32

/-- The guard over every trunk, before an edge. -/
def State.guardAll (s : State) : State :=
  ((s.framed.map fun e => e.2 * 32 + fld (s.cellWord e.1 e.2 8) 30 26).eraseDups.filter fun t => decide (2 ≤ (s.taps t).length)).foldl
    (fun s t => s.contention t) s

/-- `FABRIC_CLOCK_EDGE`: the pins as the edge finds them; the guard has acted before it; cells, block memories, streaming ports and trunks change at once, from the
values before the edge; responses and acknowledgements shown in this cycle end; then the job in progress steps. -/
def State.fabricEdge (s : State) (pins : Nat) : State :=
  if s.rdF Reg.trlStat 15 0 = 0 then s
  else
    let now := ({ s with trl := { s.trl with pins := pins % 2 ^ 96 } } : State).guardAll
    let t := now.framed.foldl (fun t e => t.cellEdge now e.1 e.2) now
    let t := (List.range 256).foldl (fun t b => t.bmEdge now b) t
    let t := (List.range 32).foldl (fun t sp => t.spEdge now sp) t
    let t := t.trunkEdge now
    let t := { t with trl := { t.trl with resp := [], subAck := none, notReady := [] } }
    let t := t.forcedEdge.jobEdge
    if (List.range 8).any fun g => t.outsOn g then t.emit (.pins t.pinsOut.1 t.pinsOut.2) else t

def execFabricClockEdge (pins : Nat) (s : State) : Answer := pcmd true s fun s => s.fabricEdge pins

/-- A write of `TRL.REL`: GO starts the operation, unless one is in progress, on the regions of the mask that can take it. -/
def State.relWrite (s : State) (v : Nat) : State :=
  let s := s.wr Reg.trlRel (s.rdF Reg.trlRel 30 30 * 2 ^ 30 + fld v 29 29 * 2 ^ 29 + fld v 23 16 * 2 ^ 16 + v % 65536)
  if !tb v 31 || s.trl.job.isSome then s
  else
    let hold := tb v 29
    let mask := (regions (fld v 23 16)).foldl (fun m g =>
      if (if hold then decide (3 ≤ s.regionSt g) else decide (2 ≤ s.regionSt g) && !s.noRelease g && !s.trl.forced.any fun e => e.1 == g) then m + 2 ^ g else m) 0
    if mask = 0 then s
    else s.startJob
      { mask := mask, hold := hold, gap := gapOf (v % 65536), count := 1, image := [], loading := false, autorel := none, unload := false }

def execTrlRelGo (i : Nat) (v : Word) (s : State) : Answer := pcmd (decide (i < 4)) s fun s => s.relWrite v.toNat

/-! ### Contention, the configuration store, the supply (R398, R413, R525) -/

/-- `TRUNK_CONTENTION`: the guard acts within the cycle. -/
def execTrunkContention (row trunk : Nat) (s : State) : Answer :=
  pcmd (decide (row < 256) && decide (trunk < 32)) s fun s => s.contention (row * 32 + trunk)

/-- `CONFIG_STORE_UE`: an uncorrectable word holds its region at once, and its column is to be retired (R413, R438). -/
def execConfigStoreUe (region addr : Nat) (s : State) : Answer :=
  pcmd (decide (region < 8)) s fun s =>
    if s.regionSt region = 0 then s
    else
      let off := region * 0x20000 + addr % 0x20000
      let s := (s.holdNow (2 ^ region)).wrF Reg.trlStat 30 30 1
      let s := ({ s with trl := { s.trl with cfgBad := sins s.trl.cfgBad region } } : State).ueRecord false 12 region off
      let c := off / 0x4000
      if s.unitPending 11 c || s.unitOut 11 c then s else s.pend { kind := 11, unit := c, reason := 1, degrade := false, redisp := 0 }

/-- `VIO_MISMATCH`: VDD_TRIO is measured anew; where it no longer matches the image, every region that is not EMPTY is held. -/
def execVioMismatch (v : Nat) (s : State) : Answer :=
  pcmd (decide (v < 3)) s fun s =>
    let s := ({ s with pwr := { s.pwr with vioV := v } } : State).wrF Reg.trlStat 25 24 v
    if s.vioBad then s.holdNow 255 else s

/-! ### The configuration window and the streaming ports (R401, R407) -/

/-- A write to the configuration window: by a control core, within the frames of a region that is LOADING. -/
def State.configWrite (s : State) (i : Init) (off : Nat) (bs : List Byte) : Bool × State :=
  let ctl := match i with | .ctl _ => true | _ => false
  if !ctl || bs.isEmpty || decide (0x100000 < off + bs.length) || s.regionSt (off / 0x20000) ≠ 1 ||
      s.regionSt ((off + bs.length - 1) / 0x20000) ≠ 1 then (false, s)
  else
    (true, (List.range bs.length).foldl (fun s k =>
      let a := off + k
      let w := mget (fun _ => (0 : Word)) s.trl.frames (a / 4)
      let w' : Word := BitVec.ofNat 32 (setFld w.toNat (a % 4 * 8 + 7) (a % 4 * 8) (bs.getD k 0).toNat)
      { s with trl := { s.trl with frames := mput (fun _ => 0) s.trl.frames (a / 4) w' } }) s)

/-- `TRELLIS_CONFIG_WRITE`: refused under R20 elsewhere. -/
def execTrellisConfigWrite (i : Init) (addr size v : Nat) (s : State) : Answer :=
  pcmd i.wf s fun s =>
    match locate addr with
    | .trlCfg off =>
      let r := s.configWrite i off (leBytes (size % 65) v)
      if r.1 then r.2 else (s.aerr i 4 true false addr).emit .error
    | _ => s

/-- The raw lane that a streaming port serves. -/
def State.spLane (s : State) (sp : Nat) : Option (Nat × Nat) :=
  let v := s.rd (Reg.trlSp sp)
  if tb v 31 then some (v % 512 / 17, v % 512 % 17) else none

/-- `STREAM_WORD_RX`: a word of the port's raw lane enters the FIFO, or is lost. Words pass from CDR lock on (R328); the one that contains a
shift is discarded, and the next clears BUSY (R329). RXINV inverts them. -/
def State.streamRx (s : State) (sp : Nat) (w : BitVec 64) : State :=
  match s.spLane sp with
  | none => s
  | some (g, l) =>
    let x := s.lane g l
    if s.laneMode g l ≠ 6 || !s.laneLive g l || x.own < 4 || !x.cdr then s
    else if x.skip then s.setLane g l { x with skip := false }
    else
      let s := s.wrF (Reg.laneRawctl g l) 31 31 0
      let w := if s.rdB (Reg.laneCtrl g l) 3 then ~~~w else w
      let rx := mget (fun _ => []) s.trl.rx sp
      if rx.length < 64 then { s with trl := { s.trl with rx := mput (fun _ => []) s.trl.rx sp (rx ++ [w]) } }
      else s.count (Reg.trlSpOvf sp) 1

def execStreamWordRx (sp : Nat) (w : BitVec 64) (s : State) : Answer := pcmd (decide (sp < 32)) s fun s => s.streamRx sp w

/-- `STREAM_WORD_TX`: the next word, or zero; TXINV inverts it. A raw lane has word clocks once its PLL has locked, while its transmitter is
awake (DEDUCED, log entry 49). -/
def State.streamTx (s : State) (sp : Nat) : State :=
  match s.spLane sp with
  | none => s
  | some (g, l) =>
    if s.laneMode g l ≠ 6 || !s.laneLive g l || (s.lane g l).own < 3 || s.rdB (Reg.laneCtrl g l) 0 then s
    else
      let tx := mget (fun _ => []) s.trl.tx sp
      let w := if s.rdB (Reg.laneCtrl g l) 4 then ~~~(tx.headD 0) else tx.headD 0
      ({ s with trl := { s.trl with tx := mput (fun _ => []) s.trl.tx sp (tx.drop 1) } } : State).emit (.rawWord sp w)

def execStreamWordTx (sp : Nat) (s : State) : Answer := pcmd (decide (sp < 32)) s fun s => s.streamTx sp

/-! ### Event ports and the submit port (R402, R404) -/

/-- An event port in a cycle, with the ready that it shows: a strobe posts its flags, or is counted as dropped. -/
def State.eventPort (s : State) (e : Nat) (ready : Bool) : State :=
  let c := 8 * e + 7
  let s := { s with trl := { s.trl with notReady := if ready then sdel s.trl.notReady e else sins s.trl.notReady e } }
  if !s.wesOpen e || s.cellQ c 128 % 2 = 0 then s
  else if !ready then s.count Reg.trlEvdrop 1
  else s.post (s.rdF (Reg.trlEvp e) 13 0) (s.cellQ c 129 + s.cellQ c 130 * 65536)

def execEventPortStrobe (e : Nat) (ready : Bool) (s : State) : Answer :=
  pcmd (decide (e < 8)) s fun s => s.eventPort e ready

/-- `SUBMIT_PORT_STROBE`: the descriptor at the address presented goes to the Trellis submit port. A descriptor read that is an access error is
recorded in AERR; R21 gives the submit port no error flag, and the strobe stays unacknowledged with nothing held (DESIGN CHOICE, log
entry 49). -/
def State.submitPort (s : State) : State :=
  if !s.wesOpen 7 || s.cellQ 63 136 % 2 = 0 || s.trl.subHeld || s.trl.subAck.isSome then s
  else
    let a := s.cellQ 63 137 + s.cellQ 63 138 * 65536 + s.cellQ 63 139 * 2 ^ 32
    if s.dramWaits false a 32 then s
    else match s.busRead .trl a 32 with
    | (.ok bs, s) => ({ s with trl := { s.trl with subHeld := true } } : State).hold .trellis (wordsOf bs) false
    | (_, s) => s

def execSubmitPortStrobe (s : State) : Answer := pcmd true s State.submitPort

end Sys2Proof.Machine
end

