-- ==== Sys2Proof/Machine/Csr.lean ====
section
/-! DEFINITION. One access to a register: which initiator may write it, what each field's access type does (R4), LO/HI pairs (R8),
the size rule (R7), access errors (R20 to R22), what the host may touch (R27 to R29), and what a write starts. -/

namespace Sys2Proof.Machine

/-! ### Who may write (R22, R29, R106, R149, R220, R254, R287, R319, R320, R361, R362, R390, R418, R447, R468, R491, R507, R521) -/

/-- The block of a register is written by control cores alone. -/
def ctlBlock (off : Nat) : Bool := [2, 4, 6, 7, 8, 9, 10, 12, 13, 14, 16, 17, 18, 19, 20, 21, 23].contains (off / 0x100000)

/-- A page of `CM.CP[i]` belongs to another control core. -/
def otherPort (i off : Nat) : Bool := decide (0x201000 ≤ off ∧ off < 0x201400 ∧ (off - 0x201000) / 0x100 ≠ i)

/-- The register of SEC is one that software writes (R507), and its owner is not the boot ROM (R508). -/
def State.secOpen (s : State) (off : Nat) : Bool :=
  off == Reg.secStat || (decide (0x1500300 ≤ off ∧ off < 0x1500500) && s.fwSt != 1)

/-- Debug access lets the host write beyond R29 (R505). -/
def State.hostDebug (s : State) : Bool := s.rdB Reg.secDbg 0

/-- A write by this initiator is refused. Reserved offsets ignore every write but the host's (R5); debug access lifts R29 from the host,
and no block's own rule. -/
def State.writeRefused (s : State) (i : Init) (off : Nat) : Bool :=
  match i, findReg off with
  | .host, none => !s.hostDebug
  | .host, some (row, _) => !row.host && (!s.hostDebug || ctlBlock off)
  | _, none => false
  | .ctl k, some _ => otherPort k off || (decide (off / 0x100000 = 21) && !s.secOpen off)
  | _, some _ => ctlBlock off || off == Reg.sysAerrStat

/-! ### What a register reads as -/

/-- `DSPC[c].CSTAT[k]` (R149). -/
def State.coreStat (s : State) (c k : Nat) : Nat :=
  let x := s.core c k
  match x.st with
  | .waiting => 0
  | .running => 2 ^ 28 + x.slot
  | .stopping => 2 * 2 ^ 28
  | .halted => 3 * 2 ^ 28
  | .clearing => 4 * 2 ^ 28
  | .off => 5 * 2 ^ 28

/-- `FLOW_CFG` of the selected flow (R106). -/
def flowWord (f : Flow) : Nat :=
  bn f.opened * 2 ^ 31 + f.home % 16 * 2 ^ 24 + bn f.pin * 2 ^ 23 + bn f.dlpol * 2 ^ 20 + f.recp % 4 * 2 ^ 18 + f.cq % 128

/-- STATE of `PWR.ENG[e]` (R468). -/
def State.engPower (s : State) (e : Nat) : Nat :=
  let st := if e < 76 then (s.engAt e).st else (s.nfeAt (e - 76)).st
  match st with
  | .idle => 1
  | .sleep => 2
  | .off => 4
  | .isolated => 4
  | _ => 0

/-- GRACE while OFF_REQ = 1 (R491), by the crystal's count: the part of a ms that remains may count or not (log entry 13). -/
def State.graceLeft (s : State) : Nat × State :=
  let ms := xtalUnit * 32768 / 1000
  let left := s.nw.grace * ms - (s.nw.ticks * xtalUnit + s.nw.sub - s.nw.graceFrom)
  if left % ms = 0 then (left / ms, s)
  else
    let (x, s) := s.free 2
    (left / ms + x, s)

/-- A key slot's page (R507). -/
def State.keyWord (s : State) (slot w : Nat) : Nat :=
  let k := s.keySlot slot
  match w with
  | 0 => k.id
  | 1 => bn k.debug * 4 + bn k.revoked * 2 + bn k.enrolled
  | w => leAt k.hash (4 * (w - 2)) 4

/-- The oldest stamp of a capture input, as its four registers give it; nothing is stated for an empty FIFO. -/
def State.capWord (s : State) (n w : Nat) : Nat × State :=
  match s.stamps n with
  | [] => s.free (if 2 ≤ w then 65536 else 2 ^ 32)
  | t :: _ =>
    let (ns, lo, hi, f) := timeRegs t
    (nth 0 [ns, lo, hi, f] w, s)

/-- What a register holds when it is read, where that is not what was last stored. -/
def State.regNow (s : State) (i : Init) (base : Nat) (ix : List Nat) (off : Nat) : Nat × State :=
  let a := nth 0 ix 0
  let b := nth 0 ix 1
  let v := s.rd off
  match base with
  | 0x0 => (s.sysId, s)
  | 0x200004 => (s.freeSlots, s)
  | 0x200008 => (s.now32, s)
  | 0x200080 => (s.watermark a % 2 ^ 18, s)
  | 0x201040 => ((s.flags (s.rdF (Reg.cmCpEvGrp a) 13 0)).toNat, s)
  | 0x201048 => (flowWord (s.flow (s.rdF (Reg.cmCpFlowSel a) 15 0)), s)
  | 0x20104C =>
    let f := s.rdF (Reg.cmCpFlowSel a) 15 0
    let ts := s.flowTasks f
    (bn (s.flow f).opened * 2 ^ 31 + bn (ts.any fun e => Sys2Proof.Machine.inService e.2) * 2 ^ 30 + ts.length, s)
  | 0x202018 => (s.credit a, s)
  | 0x20201C => (setFld v 31 31 (bn (s.ringIdle a)), s)
  | 0x401000 => (s.coreStat a b, s)
  | 0x601000 => (s.engStat a, s)
  | 0x700004 => (s.nfeStat a, s)
  | 0xC00004 =>
    if a ≠ 15 then (v, s)
    else if s.pcie.link then (setFld v 31 28 9, s)
    else let (x, s) := s.free 4; (setFld v 31 28 (x + 1), s)
  | 0xC00024 => if s.adapts a b then (let (x, s) := s.free 256; (setFld (setFld v 3 0 (x % 16)) 11 8 (x / 16), s)) else (v, s)
  | 0xA00004 => (setFld v 31 28 (s.dmcState a), s)
  | 0xC00034 => let r := s.gbx; (r.2.1 * 65536 + r.1, r.2.2)
  | 0xE0801C => (min 0xFFFFFFFF ((s.tlink a).stall * 4 / 5), s)
  | 0x1000000 => s.timeRead i
  | 0x1000004 => s.timeHalf i off
  | 0x1000008 => s.timeHalf i off
  | 0x100000C => s.timeHalf i off
  | 0x1000058 => (s.favgNow, s)
  | 0x1000108 => s.capWord a 0
  | 0x100010C => s.capWord a 1
  | 0x1000110 => s.capWord a 2
  | 0x1000114 => s.capWord a 3
  | 0x1200100 => (setFld v 3 0 (s.engPower a), s)
  | 0x1300800 => let (x, s) := s.free 1024; (x, s.wr off x)
  | 0x1300040 => (setFld v 30 30 (bn (s.rsv.active.contains a)), s)
  | 0x1500000 => (s.secStat, s)
  | 0x1500008 => (Config.uid.toNat % 2 ^ 32, s)
  | 0x150000C => (Config.uid.toNat / 2 ^ 32, s)
  | 0x1500010 => (s.sec.counter % 64, s)
  | 0x1500040 => (s.keyWord a 0, s)
  | 0x1500044 => (s.keyWord a 1, s)
  | 0x1500048 => (s.keyWord a (b + 2), s)
  | 0x1500300 => (setFld v 31 31 (bn (decide (2 ≤ s.fwSt))), s)
  | 0x1700000 =>
    if tb v 29 then let (x, s) := s.graceLeft; (setFld v 15 0 x, s) else (v, s)
  | _ => (v, s)

/-- The fields that a read shows: a WO field reads as zero. -/
def RegRow.shown (row : RegRow) (v : Nat) : Nat :=
  row.fields.foldl (fun x f => if f.acc = .wo then setFld x f.hi f.lo 0 else x) v

/-- A register whose RC fields a read has cleared. -/
def RegRow.cleared (row : RegRow) (v : Nat) : Nat :=
  row.fields.foldl (fun x f => if f.acc = .rc then setFld x f.hi f.lo 0 else x) v

/-- The registers after a read: RC fields are cleared. -/
def State.afterRead (s : State) (row : RegRow) (ix : List Nat) (off : Nat) : State :=
  if !row.fields.any (·.acc = .rc) then s
  else if row.base = 0xE0801C then s.setTlink (nth 0 ix 0) { s.tlink (nth 0 ix 0) with stall := 0 }
  else s.wr off (row.cleared (s.rd off))

/-- A read of the register at an offset: the value, and what the read does (R4, R8). -/
def State.regRead (s : State) (i : Init) (off : Nat) : Nat × State :=
  match findReg off with
  | none => (0, s)
  | some (row, ix) =>
    match row.pair, (s.pair i).latch with
    | 2, some (o, v) =>
      if o = off then (v.toNat, s.setPair i { s.pair i with latch := none })
      else let (v, s) := s.regNow i row.base ix off; (row.shown v, s)
    | 1, _ =>
      let (v, s) := s.regNow i row.base ix off
      match findReg (off + 4) with
      | none => (row.shown v, s)
      | some (hi, jx) =>
        let (h, s) := s.regNow i hi.base jx (off + 4)
        (row.shown v, s.setPair i { s.pair i with latch := some (off + 4, BitVec.ofNat 32 (hi.shown h)) })
    | _, _ =>
      let (v, s) := s.regNow i row.base ix off
      (row.shown v, s.afterRead row ix off)

/-! ### What a write does -/

/-- A register's value after a write of `v` (R4): `lock` freezes RWL fields; RO, WO and RC fields keep what they hold. -/
def RegRow.written (row : RegRow) (lock : Bool) (old v : Nat) : Nat :=
  row.fields.foldl (fun x f =>
    let o := fld old f.hi f.lo
    let n := fld v f.hi f.lo
    match f.acc with
    | .rw => setFld x f.hi f.lo n
    | .rwl => if lock then x else setFld x f.hi f.lo n
    | .w1s => setFld x f.hi f.lo (o ||| n)
    | .w1c => setFld x f.hi f.lo (o &&& (2 ^ (f.hi + 1 - f.lo) - 1 - n))
    | _ => x) old

/-- The value that a write of a LO register holds for the commit: its writable bits (R8). -/
def RegRow.heldBits (row : RegRow) (v : Nat) : Nat :=
  row.fields.foldl (fun x f => if f.acc = .rw ∨ f.acc = .wo then setFld x f.hi f.lo (fld v f.hi f.lo) else x) 0

/-- A register with no field that software writes. -/
def RegRow.readOnly (row : RegRow) : Bool := row.fields.all fun f => f.acc = .ro || f.acc = .rc

/-- `DSPC[c].PM_INV` written: the named cores' unlocked lines begin to be invalidated, unless BUSY (R116). The mask stands in
CORES, which reads as zero. -/
def State.pmInvWrite (s : State) (c v : Nat) : State :=
  if s.rdB (Reg.dspcPmInv c) 31 then s else s.wr (Reg.dspcPmInv c) (2 ^ 31 + v % 256)

/-- `PWR.RST` written (R468). -/
def State.rstWrite (s : State) (v : Nat) : State :=
  let kind := fld v 27 24
  let u := v % 65536
  let act : Option (State → State) :=
    match kind with
    | 1 => if s.nw.pstate = .run then some fun s => s.resetPayload .cold else none
    | 2 => if s.nw.pstate = .run then some fun s => s.resetPayload .warm else none
    | 3 => if u < 12 then some fun s => s.resetCluster u else none
    | 4 => if u < 96 then some fun s => s.resetCore (u / 8) (u % 8) else none
    | 5 => if u < 80 then some fun s => s.resetEngine u else none
    | _ => none
  match tb v 31, act with
  | true, some act => s.rstGo kind u act
  | _, _ => s.wr Reg.pwrRst (s.rdF Reg.pwrRst 30 30 * 2 ^ 30 + kind * 2 ^ 24 + u)

/-- `CFG` of a host ring written: enabling it starts the ring from zero indices and writes its shadow (R318). -/
def State.hringCfgWrite (s : State) (h v : Nat) : State :=
  let was := s.rdB (Reg.cmHringCfg h) 31
  let s := s.wr (Reg.cmHringCfg h) (fld v 31 31 * 2 ^ 31 + fld v 19 16 * 2 ^ 16 + fld v 3 0)
  if tb v 31 && !was then (s.setRing h .reset).ringShadow h else s

/-- Registers that ignore writes while something else holds them. -/
def State.writeIgnored (s : State) (base : Nat) (ix : List Nat) : Bool :=
  let a := nth 0 ix 0
  let mbx := [0x100008, 0x10000C, 0x100010, 0x100014, 0x100018, 0x10001C, 0x100020]
  let dmc := [0xA00008, 0xA0000C, 0xA00010, 0xA00014, 0xA00100]
  let lane := [0xC00008, 0xC00024]
  (mbx.contains base && s.mbxOn a) ||
  (dmc.contains base && s.rdB (Reg.dmcCtrl a) 31) ||
  (base == 0x900030 && (List.range 6).any fun n => s.rdB (Reg.dmcCtrl n) 31) ||
  (lane.contains base && (a == 15 || (nth 0 ix 1 != 16 && s.spared a (nth 0 ix 1)))) ||
  (base == 0x201000 && s.rdB (Reg.cmCpSubstat a) 0) ||
  (base == 0x1500400 && s.rdB Reg.secSpiStat 31)

/-- A timeline's page, but for CTRL. -/
def tlPage (base : Nat) : Bool := decide (0x1010004 ≤ base ∧ base < 0x1010050)

/-- A whole write of one register: its fields by their access types, or the operation that the write starts. -/
def State.regStore (s : State) (row : RegRow) (ix : List Nat) (off v : Nat) : State :=
  let a := nth 0 ix 0
  let b := nth 0 ix 1
  let w : Word := BitVec.ofNat 32 v
  let plain := s.wr off (row.written (s.rdB Reg.mbxLock 0) (s.rd off) v)
  match row.base with
  | 0x100000 => s.mbxCtrlWrite a v
  | 0x100024 => s.reqPiWrite a v
  | 0x100030 => s.rspCiWrite a v
  | 0x10003C => s.noticeWrite a v
  | 0x14000C => if tb v 0 then s.fwctrlReload else s
  | 0x201000 => if b = 7 then s.cpSubmit a w else plain
  | 0x201028 => s.cmCancel a w
  | 0x20102C => s.cmCancelFlow a w
  | 0x201038 => s.evPost a w
  | 0x20103C => s.evClr a w
  | 0x201048 => s.flowCfgWrite a w
  | 0x202000 => s.hringCfgWrite a v
  | 0x400000 => s.pmInvWrite a v
  | 0x801000 => s.dctCfgWrite a v
  | 0x801004 => s.dctCmdWrite a v
  | 0x900050 => s.vclrWrite v
  | 0xA00000 => s.dmcCtrl a v 0
  | 0xC00000 => s.laneCtrlWrite a b v
  | 0xC00020 => s.txeqWrite a b v
  | 0xC00024 => s.rxeqWrite a b (tb v 31)
  | 0xC00030 => s.rawctlWrite a b v
  | 0xE0800C => s.reqPi a v
  | 0x100002C => s.setTime v
  | 0x1000040 => s.servoWrite v
  | 0x1000054 => s.freqWrite v
  | 0x1000100 => s.capWrite a v
  | 0x1000118 => s.setStamps a ((s.stamps a).drop 1)
  | 0x1000200 => s.pulseWrite a v
  | 0x1010000 => s.tlCtrlWrite a v
  | 0x1100004 => s.relWrite v
  | 0x1200000 => s.rstWrite v
  | 0x1300000 => s.hctrlWrite v
  | 0x1300100 => (plain.applyVreq a).2
  | 0x1400000 => s.cenCtrlWrite v
  | 0x1400004 => if s.rdB Reg.cenCtrl 31 then plain.cenAlign else plain
  | 0x1500000 => if tb v 30 then { s with sec := { s.sec with otpErr := false } } else s
  | 0x1500304 => s.spiCmd v
  | 0x1700004 => s.nwbCtrlWrite v
  | 0x1700010 => s.txgo v
  | base =>
    if tlPage base then s.tlWrite a off (row.written false (s.rd off) v) else plain

/-- A write of HI: the LO value held for the pair is committed with it (R8). -/
def State.hiStore (s : State) (i : Init) (row : RegRow) (ix : List Nat) (off v : Nat) : State :=
  if off = Reg.mrdOffsetHi then s.offsetWrite i v
  else
    let s := if tlPage row.base then s.tlSnapshot (nth 0 ix 0) else s
    (s.takeLo i (off - 4)).regStore row ix off v

/-- A write of the register at an offset, not refused. -/
def State.regWrite (s : State) (i : Init) (off v : Nat) : State :=
  match findReg off with
  | none => s
  | some (row, ix) =>
    if row.readOnly then s
    else if row.pair = 1 then
      s.setPair i { s.pair i with held := some (off, BitVec.ofNat 32 (row.heldBits v)) }
    else if s.writeIgnored row.base ix then
      if row.pair = 2 ∧ (s.pair i).held.any (fun e => e.1 = off - 4) then s.setPair i { s.pair i with held := none } else s
    else if row.pair = 2 then s.hiStore i row ix off v
    else s.regStore row ix off v

/-! ### One access -/

/-- A read of CSR space; an access error is recorded (R7, R20). -/
def State.csrRead (s : State) (i : Init) (a n : Nat) : RdRes × State :=
  if n ≠ 4 ∨ a % 4 ≠ 0 then (.err 2, s.aerr i 2 false false a)
  else let (v, s) := s.regRead i (a - 0x20000000); (.ok (leBytes 4 v), s)

/-- A write to CSR space; an access error is recorded. -/
def State.csrWrite (s : State) (i : Init) (a : Nat) (bs : List Byte) : WrRes × State :=
  let off := a - 0x20000000
  if bs.length ≠ 4 ∨ a % 4 ≠ 0 then (.err 2, s.aerr i 2 true false a)
  else if s.writeRefused i off then (.err 4, s.aerr i 4 true false a)
  else (.ok, s.regWrite i off (ofLe bs))

/-- A read of the device address map by an initiator. -/
def State.devRead (s : State) (i : Init) (a n : Nat) : RdRes × State :=
  if inCsr a then s.csrRead i a n else s.busRead i a n

/-- A write to the device address map by an initiator: configuration frames take control cores' writes (R407). -/
def State.devWrite (s : State) (i : Init) (a : Nat) (bs : List Byte) : WrRes × State :=
  if inCsr a then s.csrWrite i a bs
  else
    match locate a with
    | .trlCfg off =>
      let (ok, t) := s.configWrite i off bs
      if ok then (.ok, t) else (.err 4, s.aerr i 4 true false a)
    | _ => s.busWrite i a bs

/-! ### The host (R27, R29) -/

/-- A grant that covers a range of cellar memory (R29, R318): BASE and LIMIT name its first and last 4 KiB. -/
def State.granted (s : State) (a n : Nat) : Bool :=
  (List.range 8).any fun g =>
    s.rdB (Reg.memGrantCtrl g) 31 &&
      decide (s.rdF (Reg.memGrantBase g) 25 12 * 4096 ≤ a ∧ a + n ≤ s.rdF (Reg.memGrantLimit g) 25 12 * 4096 + 4096)

/-- A host ring whose SQ_PI a write to cellar memory covers is told of it (R93). -/
def State.ringsSee (s : State) (a n : Nat) : State :=
  (List.range 64).foldl (fun (s : State) h =>
    let sq := s.rdF (Reg.cmHringSqbase h) 25 6 * 64
    if s.rdB (Reg.cmHringCfg h) 31 && decide (a < sq + 2 ∧ sq < a + n) then s.sqPiSeen h else s) s

/-- A host write through BAR2/3. -/
def State.hostCellar (s : State) (a : Nat) (bs : List Byte) : WrRes × State :=
  if s.granted a bs.length || s.hostDebug then
    match s.busWrite .host a bs with
    | (.ok, s) => (.ok, s.ringsSee a bs.length)
    | r => r
  else (.err 4, s.aerr .host 4 true false a)

/-- A host write of SQ_PI into the control block of a ring that is enabled (R92, R93). -/
def State.sqPiWrite (s : State) (h v : Nat) : State :=
  if !s.rdB (Reg.cmHringCfg h) 31 || !s.pcie.link || s.d3hot then s
  else (s.hostCellar (s.rdF (Reg.cmHringSqbase h) 25 6 * 64) (leBytes 2 v)).2

def execHostRingSqPiWrite (h v : Nat) (s : State) : Answer :=
  pcmd (decide (h < 64) && decide (v < 65536)) s fun s => s.sqPiWrite h v

/-- A dword of the MSI-X table. -/
def MsixEntry.word (e : MsixEntry) : Nat → Nat
  | 0 => e.addr % 2 ^ 32
  | 1 => e.addr / 2 ^ 32
  | 2 => e.data.toNat
  | _ => bn e.masked

/-- A dword of the MSI-X table written; a message pending is sent when its entry is unmasked. -/
def State.msixStore (s : State) (vec w v : Nat) : State :=
  let e := s.msixAt vec
  let e' : MsixEntry :=
    match w with
    | 0 => { e with addr := setFld e.addr 31 0 (v / 4 * 4) }
    | 1 => { e with addr := setFld e.addr 63 32 v }
    | 2 => { e with data := BitVec.ofNat 32 v }
    | _ => { e with masked := tb v 0 }
  let s := { s with pcie := { s.pcie with msix := mput (fun _ => .reset) s.pcie.msix vec e' } }
  if !s.vecMasked e' && s.pcie.pba.contains vec then
    ({ s with pcie := { s.pcie with pba := sdel s.pcie.pba vec } } : State).vector vec
  else s

/-- A dword of the table or of the pending-bit array, by its BAR4/5 offset. -/
def State.msixWord (s : State) (off : Nat) : Nat :=
  if off < 0x48000 then (s.msixAt ((off - 0x40000) / 16)).word (off % 16 / 4)
  else
    let first := (off - 0x48000) * 8
    ((List.range 32).map fun b => bn (s.pcie.pba.contains (first + b)) * 2 ^ b).foldl (· + ·) 0

/-- The aligned accesses that the table and the array accept. -/
def msixSize (off n : Nat) : Bool := (n == 4 && off % 4 == 0) || (n == 8 && off % 8 == 0)

/-- A host read through BAR4/5. -/
def State.bar45Read (s : State) (off n : Nat) : RdRes × State :=
  if off < 0x40000 then s.csrRead .host (0x20100000 + off) n
  else if 0x48100 ≤ off then (.err 1, s.aerr .host 1 false true off)
  else if !msixSize off n then (.err 2, s.aerr .host 2 false true off)
  else (.ok (leBytes 4 (s.msixWord off) ++ (if n = 8 then leBytes 4 (s.msixWord (off + 4)) else [])), s)

/-- A host write through BAR4/5; the pending-bit array ignores writes. -/
def State.bar45Write (s : State) (off : Nat) (bs : List Byte) : WrRes × State :=
  if off < 0x40000 then s.csrWrite .host (0x20100000 + off) bs
  else if 0x48100 ≤ off then (.err 1, s.aerr .host 1 true true off)
  else if !msixSize off bs.length then (.err 2, s.aerr .host 2 true true off)
  else if 0x48000 ≤ off then (.ok, s)
  else
    let put := fun (s : State) (w : Nat) => s.msixStore ((off + 4 * w - 0x40000) / 16) ((off + 4 * w) % 16 / 4) (leAt bs (4 * w) 4)
    (.ok, if bs.length = 8 then put (put s 0) 1 else put s 0)

/-! ### Configuration space (R25) -/

/-- The size in bytes of the largest payload that is in force. -/
def State.maxPayload (s : State) : Nat := 128 * 2 ^ fld s.pcie.devCtl 7 5

/-- A dword of configuration space: the identity of R25, the three capabilities whose fields R25 and R27 fix, and the words that no rule
gives. PRESUMED from the PCI Express Base Specification 5.0, which R25 names (log entry 49): the places of the fields. -/
def State.cfgDword (s : State) (off : Nat) : Nat :=
  if off = 0 then 0x96001E5B
  else if off = 8 then 0x120000B0
  else if off = 0x2C then s.pcie.subsys
  else if off = Config.pmCap + 4 then setFld (Config.cfgWord off).toNat 1 0 s.pcie.pmcsr
  else if off = Config.msixCap then s.pcie.msixCtl * 65536 + 2047 * 65536 + (Config.cfgWord off).toNat % 65536
  else if off = Config.msixCap + 4 then 0x40004
  else if off = Config.msixCap + 8 then 0x48004
  else if off = Config.pcieCap + 4 then setFld (setFld (Config.cfgWord off).toNat 2 0 2) 28 28 1
  else if off = Config.pcieCap + 8 then (Config.cfgWord off).toNat / 65536 * 65536 + s.pcie.devCtl
  else (Config.cfgWord off).toNat

/-- Messages pending whose vectors are no longer masked are sent. -/
def State.sendPending (s : State) : State :=
  s.pcie.pba.foldl (fun (s : State) v =>
    if s.vecMasked (s.msixAt v) then s else ({ s with pcie := { s.pcie with pba := sdel s.pcie.pba v } } : State).vector v) s

/-- A dword of configuration space written, once the bytes that the access leaves have been put back: D0 or D3hot, the MSI-X Enable and
Function Mask, a Max_Payload_Size of 128 to 512 bytes. Initiate Function Level Reset resets the function (R41). -/
def State.cfgStore (s : State) (off v : Nat) : State :=
  if off = Config.pmCap + 4 then
    if v % 4 = 0 ∨ v % 4 = 3 then ({ s with pcie := { s.pcie with pmcsr := v % 4 } } : State).sendPending else s
  else if off = Config.msixCap then ({ s with pcie := { s.pcie with msixCtl := fld v 31 30 * 2 ^ 14 } } : State).sendPending
  else if off = Config.pcieCap + 8 then
    if tb v 15 then s.functionReset
    else { s with pcie := { s.pcie with devCtl := setFld (v % 32768) 7 5 (min 2 (fld v 7 5)) } }
  else s

/-- A configuration read of 1, 2 or 4 bytes within a dword. -/
def State.cfgRead (s : State) (a n : Nat) : List Byte := ((leBytes 4 (s.cfgDword (a / 4 * 4))).drop (a % 4)).take n

/-- A configuration write of 1, 2 or 4 bytes within a dword. -/
def State.cfgWrite (s : State) (a : Nat) (bs : List Byte) : State :=
  s.cfgStore (a / 4 * 4) (ofLe ((patch (leBytes 4 (s.cfgDword (a / 4 * 4))) (a % 4) bs).take 4))

/-- The access reaches the device: the host has no BAR over other addresses, none while the link is down or the function is in D3hot;
only it has BAR4/5 and configuration space. -/
def State.reaches (s : State) (i : Init) (sp : Space) (a : Nat) : Bool :=
  match i, sp with
  | .host, .bar45 => s.pcie.link && !s.d3hot && decide (a < 0x80000)
  | .host, .dev => s.pcie.link && !s.d3hot && (inCsr a || decide (a < 0x04000000))
  | .host, .cfg => s.pcie.link && decide (a < 4096)
  | _, .dev => true
  | _, _ => false

/-- A read by an initiator, in any space. -/
def State.access (s : State) (i : Init) (sp : Space) (a n : Nat) : RdRes × State :=
  match sp with
  | .bar45 => s.bar45Read a n
  | .cfg => (.ok (s.cfgRead a n), s)
  | .dev => s.devRead i a n

/-- A write by an initiator, in any space. -/
def State.store (s : State) (i : Init) (sp : Space) (a : Nat) (bs : List Byte) : WrRes × State :=
  match sp with
  | .bar45 => s.bar45Write a bs
  | .cfg => (.ok, s.cfgWrite a bs)
  | .dev => if i = .host ∧ a < 0x04000000 then s.hostCellar a bs else s.devWrite i a bs

/-- `HOST_CELLAR_WRITE`: a write that is refused is discarded, and the host learns of it by `SYS.AERR_STAT` and vector 0 (R21, R29). -/
def execHostCellarWrite (off : Nat) (data : List Byte) (s : State) : Answer :=
  pcmd true s fun s =>
    if !s.pcie.link ∨ s.d3hot ∨ data.isEmpty ∨ s.maxPayload < data.length ∨ 0x04000000 < off + data.length then s
    else
      (s.hostCellar off data).2

end Sys2Proof.Machine
end

