-- ==== Sys2Proof/Machine/DecantRun.lean ====
section
/-! DEFINITION. What a Decant descriptor does: its read, the transfer in each mode (R264 to R266), completion, read-back and
submission (R273 to R276), errors (R282, R283) and aborts (R284). A command moves as many source reads, or list entries, as it names: those
are the reads in flight together (log entry 52). -/

namespace Sys2Proof.Machine

/-! ### Accesses -/

/-- A read by a channel: CSR space is open to a privileged channel's linear descriptor without a reshuffle only (R259). -/
def State.dctRead (s : State) (ch : Nat) (csr : Bool) (a n : Nat) : RdRes × State :=
  if inCsr a && !csr then (.err 4, s.aerr (.dct ch) 4 false false a) else s.devRead (.dct ch) a n

/-- A write by a channel. -/
def State.dctWrite (s : State) (ch : Nat) (csr : Bool) (a : Nat) (bs : List Byte) : WrRes × State :=
  if inCsr a && !csr then (.err 4, s.aerr (.dct ch) 4 true false a) else s.devWrite (.dct ch) a bs

/-- Whether CSR space is open to a descriptor. -/
def csrOpen (ch : Nat) (d : Desc) : Bool := decide (ch < 4) && gMode d == 0 && gRshf d == 0

/-- Destination bytes that are also source bytes end with their old value or the copied one (R266): each of them is written or not. -/
def State.mixRun (s : State) (ps : List (Nat × Nat)) (r : Run) : List Run × State :=
  let shared := fun (a : Nat) => ps.any fun p => decide (p.1 ≤ a ∧ a < p.1 + p.2)
  if (List.range r.2.length).any fun i => shared (r.1 + i) then
    let (bits, s) := s.freeBytes r.2.length
    (r.2.zipIdx.filterMap fun e => if shared (r.1 + e.2) && tb (nth 0 bits e.2).toNat 0 then none else some (r.1 + e.2, [e.1]), s)
  else ([r], s)

/-- Runs with overlapping bytes left open. -/
def State.mixRuns (s : State) (ps : List (Nat × Nat)) (rs : List Run) : List Run × State :=
  let r := rs.foldl (fun (x : List (List Run) × State) r => let (r', s) := x.2.mixRun ps r; (r' :: x.1, s)) ([], s)
  (r.1.reverse.flatten, r.2)

/-- Source bytes taken into the count since the engine was given; after 64 KiB it goes back where another descriptor is due (R286). -/
def State.dctYield (s : State) (ch n : Nat) : State :=
  let x := s.dctAt ch
  let run := x.run + n
  s.setDct ch { x with run := run % 65536, eng := decide (run < 65536) || !s.dctPressed ch }

/-- A transfer that ended well: the descriptor awaits its commit. -/
def State.dctMoved (s : State) (ch : Nat) (sat : Bool) (last : Option Nat) : State :=
  let x := s.dctAt ch
  let s := s.setDct ch { x with phase := .moved, summary := bn sat, last := last, eng := false, staged := [] }
  if sat then s.wrF (Reg.dctChStat ch) 24 24 1 else s

/-- A transfer that failed: the channel waits for the responses in flight (R282). -/
def State.dctFailed (s : State) (ch summary cause addr : Nat) : State :=
  let x := s.dctAt ch
  s.setDct ch { x with phase := .failed, eng := false, staged := [], summary := summary, cause := cause, dofs := 0, errAddr := addr }

/-! ### Modes -/

/-- The reads that one command issues: at least one, at most what 256 KiB of staging holds, and no more than `left` bytes beyond the first. -/
def takeBeats : Nat → Nat → List (Nat × Nat) → List (Nat × Nat)
  | 0, _, _ => []
  | _ + 1, _, [] => []
  | n + 1, left, b :: bs => b :: if b.2 < left then takeBeats n (left - b.2) bs else []

/-- LINEAR and TWO_D: the next `n` reads in flight together, and every write that follows from what has arrived. The first error ends the
reads (R282). -/
def State.moveRows (s : State) (ch : Nat) (d : Desc) (n : Nat) : State :=
  let x := s.dctAt ch
  let csr := csrOpen ch d
  let ps := sources d
  let total := (ps.map (·.2)).sum
  let beats := (ps.flatMap beatsOf).drop x.issued
  let now := takeBeats (max 1 n) (min (0x40000 - x.staged.length) (if s.dctPressed ch then 65536 - x.run else 0x40000)) beats
  let r := s.readBeats (fun s => s.dctRead ch csr) now
  let bytes := x.staged ++ r.bytes
  let read := x.passed + bytes.length
  let whole := decide (beats.length ≤ now.length)
  let cut := if whole || r.err.isSome then read else groupCut d read
  let got := List.replicate x.passed none ++ bytes.take (cut - x.passed) ++ List.replicate (total - cut) none
  let (runs, sat) := produces d (cutPieces ps got)
  let (runs, s) := r.st.mixRuns ps runs
  let w := s.writeRuns (fun s => s.dctWrite ch csr) runs
  let wrote := x.wrote + w.bytes
  let remain := inUnits d (total - read)
  let s := (w.st.dctTraffic ch r.bytes.length w.bytes bytes.length).dctShow ch (if r.err.isNone ∧ w.err.isNone then inUnits d cut else outUnits d wrote) remain
  let s := if sat then s.wrF (Reg.dctChStat ch) 24 24 1 else s
  let sat := sat || decide (x.summary = 1)
  match r.err.or w.err with
  | some (c, a) => s.dctFailed ch (if remain = 0 then 0x12 else 0x11) c a
  | none =>
    let last := w.last.or x.last
    if whole then s.dctMoved ch sat last
    else
      (s.setDct ch { s.dctAt ch with
        issued := x.issued + now.length, passed := cut, staged := bytes.drop (cut - x.passed), wrote := wrote, last := last
        summary := bn sat }).dctYield ch r.bytes.length

/-- A list entry: ADDR, ELEN and OFF. -/
def State.listEntry (s : State) (ch list i : Nat) : Except DErr (Nat × Nat × Nat) × State :=
  let a := list + 16 * i
  match s.dctRead ch false a 16 with
  | (.ok bs, s) =>
    let (addr, len, off) := (leAt bs 0 8, leAt bs 8 4, leAt bs 12 4)
    if 2 ^ 48 ≤ addr ∨ len = 0 ∨ 65536 < len then (.error (5, a), s) else (.ok (addr, len, off), s)
  | (.err _, s) => (.error (1, a), s)
  | (.ue _, s) => (.error (3, a), s)

/-- The first write of an entry that its check refuses, with the access error recorded. -/
def State.entryFails (s : State) (ch : Nat) (rs : List Run) : Option (Nat × State) :=
  (issues rs).foldl (fun (x : Option (Nat × State)) r =>
    match x, s.dctWrite ch false r.1 r.2 with
    | none, (.err _, t) => some (r.1, t)
    | x, _ => x) none

/-- A list transfer under way. -/
structure Listing where
  err : Option (Nat × DErr)          -- the entry that failed first
  ended : Bool                       -- no further entry is processed
  upTo : Nat                         -- the first entry not reached
  done : Nat
  read : Nat
  wrote : Nat
  last : Option Nat
  st : State

/-- One entry: read whole, then written (R283). A failed read-modify-write ends none of the entries that are under way with it. -/
def listStep (ch list : Nat) (gather : Bool) (base : Nat) (x : Listing) (i : Nat) : Listing :=
  if x.ended then x
  else
    let x := { x with upTo := i + 1 }
    let stop := fun (e : DErr) (s : State) => { x with err := x.err.or (some (i, e)), ended := true, st := s }
    match x.st.listEntry ch list i with
    | (.error e, s) => stop e s
    | (.ok (addr, len, off), s) =>
      let (src, dst) := if gather then (addr, base + off) else (base + off, addr)
      let r := (s.wr (Reg.dctChIndex ch) i).readBeats (fun s => s.dctRead ch false) (beatsOf (src, len))
      let x := { x with read := x.read + len }
      match r.err with
      | some e => { x with err := x.err.or (some (i, e)), ended := true, st := r.st }
      | none =>
        let (runs, s) := r.st.mixRun [(src, len)] (dst, r.bytes.map fun b => b.getD 0)
        match s.entryFails ch runs with
        | some (a, s) => { x with err := x.err.or (some (i, (2, a))), ended := true, st := s }
        | none =>
          let w := s.writeRuns (fun s => s.dctWrite ch false) runs
          let y := { x with wrote := x.wrote + w.bytes, last := w.last.or x.last, st := w.st }
          match w.err with
          | some e => { y with err := x.err.or (some (i, e)) }
          | none => { y with done := if x.err.isNone then x.done + len else x.done }

/-- The units of list entries, as the list stands. -/
def State.listUnits (s : State) (list : Nat) (is : List Nat) : Nat :=
  (is.map fun i => match (s.memRead (list + 16 * i) 16).1 with
    | .ok bs => leAt bs 8 4
    | _ => 0).sum

/-- GATHER and SCATTER: the next `n` entries in index order from GSTART. REMAIN of a failed list counts the entries that were not reached. -/
def State.moveList (s : State) (ch : Nat) (d : Desc) (gather : Bool) (n : Nat) : State :=
  let c := s.dctAt ch
  let list := if gather then gSrc d else gDst d
  let base := if gather then gDst d else gSrc d
  let first := gStart d + c.issued
  let n := min (if s.dctPressed ch then 1 else max 1 n) (gRows d - first)
  let x := ((List.range n).map (· + first)).foldl (listStep ch list gather base)
    { err := none, ended := false, upTo := first, done := c.passed, read := 0, wrote := 0, last := c.last, st := s }
  let s := x.st.dctTraffic ch x.read x.wrote x.read
  match x.err with
  | some (i, cause, a) =>
    ((s.dctShow ch x.done (s.listUnits list ((List.range (gRows d - x.upTo)).map (· + x.upTo)))).wr (Reg.dctChIndex ch) i).dctFailed ch 0x13 cause a
  | none =>
    let s := s.dctShow ch x.done (s.listUnits list ((List.range (gRows d - x.upTo)).map (· + x.upTo)))
    if gRows d ≤ first + n then s.dctMoved ch false x.last
    else (s.setDct ch { s.dctAt ch with issued := c.issued + n, passed := x.done, last := x.last }).dctYield ch x.read

/-- The pieces that a descriptor reads and writes, of a list those of the entries not yet processed, as the list stands. -/
def State.dctPieces (s : State) (ch : Nat) (d : Desc) : List (Bool × Nat × Nat) :=
  let x := s.dctAt ch
  if gMode d < 2 then ((sources d).map fun p => (false, p)) ++ (dests d).map fun p => (true, p)
  else
    let list := if gMode d = 2 then gSrc d else gDst d
    let base := if gMode d = 2 then gDst d else gSrc d
    let first := gStart d + x.issued
    ((List.range (gRows d - first)).map (· + first)).flatMap fun i =>
      let a := list + 16 * i
      (false, a, 16) :: match (s.memRead a 16).1 with
        | .ok bs =>
          let len := min 65536 (leAt bs 8 4)
          [(gMode d == 3, leAt bs 0 8, len), (gMode d == 2, base + leAt bs 12 4, len)]
        | _ => []

/-- A transfer waits for a DRAM channel that does not serve requests. -/
def State.dctWaits (s : State) (ch : Nat) (d : Desc) : Bool := (s.dctPieces ch d).any fun p => s.dramWaits p.1 p.2.1 p.2.2

/-- A fit descriptor is served where a read engine is its own or comes to it and its memory answers; until then it waits (R286). -/
def State.dctServe (s : State) (ch : Nat) (move : State → Desc → State) : State :=
  if s.dctServed ch && !s.dctWaits ch (s.dctAt ch).desc then move (s.dctTake ch) (s.dctAt ch).desc else s

/-- What follows the read of the descriptor at `cur`: its check, and then its service, if it is of the mode. -/
def State.dctFetched (s : State) (ch mode cur : Nat) (move : State → Desc → State) (r : RdRes × State) : State :=
  match r.1 with
  | .err _ => (r.2.dctClear ch).dctFailed ch 0x11 1 cur
  | .ue _ => (r.2.dctClear ch).dctFailed ch 0x11 3 cur
  | .ok bs =>
    let x := s.dctAt ch
    let d := withArg bs x.arg
    if gMode d ≠ mode then s
    else
      let t := (r.2.dctClear ch).setDct ch { x with desc := d, eng := false, run := 0, issued := 0, passed := 0, staged := [], wrote := 0, summary := 0 }
      match firstFault d (decide (ch < 4)) (t.dctOwner ch == 2) with
      | some o => t.dctStop ch 0x10 0 o cur
      | none => (t.setDct ch { t.dctAt ch with phase := .ready }).dctServe ch move

/-- The descriptor at CUR read and checked (R260, R263), then the transfer of a mode, or the transfer that is under way. -/
def State.dctRun (s : State) (ch mode : Nat) (move : State → Desc → State) : State :=
  let x := s.dctAt ch
  if x.abort then s
  else
    match x.phase with
    | .fetch =>
      let cur := s.rdPair (Reg.dctChCurLo ch) (Reg.dctChCurHi ch)
      if s.dramWaits false cur 64 then s else s.dctFetched ch mode cur move (s.dctRead ch false cur 64)
    | .ready =>
      if gMode x.desc ≠ mode then s
      else
        match s.bufferUse (stagingErr ch 0) x.staged.length with
        | (true, s) => s.unitFault (.channel ch) 0x20 false
        | (false, s) => (s.bufferClear (stagingErr ch 0) (2 ^ 18)).dctServe ch move
    | _ => s

/-- `LINEAR`: a privileged descriptor's register writes may start a reload, so the OTP is not held here. -/
def execLinear (p : Part) (s : State) : Answer := otpCmd p.wf s fun s => live s fun s => s.dctRun p.ch 0 fun s d => s.moveRows p.ch d p.n

/-- `TWO_D`. -/
def execTwoD (p : Part) (s : State) : Answer := pcmd p.wf s fun s => s.dctRun p.ch 1 fun s d => s.moveRows p.ch d p.n

/-- `GATHER`. -/
def execGather (p : Part) (s : State) : Answer := pcmd p.wf s fun s => s.dctRun p.ch 2 fun s d => s.moveList p.ch d true p.n

/-- `SCATTER`. -/
def execScatter (p : Part) (s : State) : Answer := pcmd p.wf s fun s => s.dctRun p.ch 3 fun s d => s.moveList p.ch d false p.n

/-! ### Completion (R273 to R276, R282, R284) -/

/-- The read-back of a privileged descriptor: its address, or none where it succeeds (R275). -/
def State.readBack (s : State) (ch : Nat) (ok : Bool) : Option Nat × State :=
  match (s.dctAt ch).last with
  | none => (none, s)
  | some a =>
    if 4 ≤ ch then (none, s)
    else
      let u := if inCsr a then 4 else 8
      let b := a / u * u
      match s.dctRead ch true b u with
      | (.ok _, s) => (if ok then none else some b, s)
      | (_, s) => (some b, s)

/-- The submission of a descriptor: its task descriptor is read and put at the port (R273). -/
def State.dctSubmit (s : State) (ch : Nat) : State :=
  let x := s.dctAt ch
  let a := gTask x.desc
  let idem := match x.slot with
    | some sl => (s.task? sl).any fun t => dIdem t.words
    | none => false
  match s.dctRead ch false a 32 with
  | (.ok bs, s) => ((s.setDct ch { x with phase := .held }).wrF (Reg.dctChStat ch) 31 28 2).hold (.decant ch) (wordsOf bs) idem
  | (.err _, s) => s.dctStop ch 0x12 1 0 a
  | (.ue _, s) => s.dctStop ch 0x12 3 0 a

/-- The descriptor commits after an abort came too late for it: its chain stops before the next one (R284). -/
def State.commitLate (s : State) (ch : Nat) : State :=
  let late := (s.dctAt ch).abort && !gChain (s.dctAt ch).desc
  let s := s.dctCommit ch
  if late then s.wrF (Reg.dctChStat ch) 27 26 2 else s

/-- `DCT_DESCRIPTOR_COMMIT`. -/
def State.dctCommitStep (s : State) (ch : Nat) (ok : Bool) : State :=
  let x := s.dctAt ch
  match x.phase with
  | .idle => s
  | .isolated => s
  | .submitted => s.commitLate ch
  | ph =>
    if x.abort then
      let s := if ph = .fetch then (s.wr (Reg.dctChDone ch) 0).wr (Reg.dctChRemain ch) 0 else s
      s.dctStop ch 8 0 0 0
    else if ph = .moved then
      match s.readBack ch ok with
      | (some a, s) => s.dctStop ch 0x12 6 0 a
      | (none, s) => if gSubmit x.desc then s.dctSubmit ch else s.commitLate ch
    else s

def execDctDescriptorCommit (ch : Nat) (ok : Bool) (s : State) : Answer := pcmd (decide (ch < 64)) s fun s => s.dctCommitStep ch ok

/-- `DCT_TRANSFER_ERROR`: no response is in flight any more, and the descriptor ends with the first error. -/
def execDctTransferError (ch : Nat) (s : State) : Answer :=
  pcmd (decide (ch < 64)) s fun s =>
    let x := s.dctAt ch
    if x.phase = .failed ∧ !x.abort then s.dctStop ch x.summary x.cause x.dofs x.errAddr else s

end Sys2Proof.Machine
end

