-- ==== Sys2Proof/Machine/PozelCore.lean ====
section
/-! DEFINITION. A Pozel core's registers by name and by physical number (R118 to R121), results on their way (R122 to R125),
circular and bit-reversed addressing (R119, R166), protection (R138), its memories as its own accesses meet them (R109, R140) and
its fault record (R141). -/

namespace Sys2Proof.Machine

/-! ### Registers -/

/-- The physical register that a D or V name reaches (R121). -/
def CoreState.phys (x : CoreState) (n : Nat) : Nat := if n < 16 then n else 16 + (n - 16 + x.rrb.toNat) % 16

def CoreState.dReg (x : CoreState) (n : Nat) : DReg := mget (fun _ => 0) x.d (x.phys n)
def CoreState.vReg (x : CoreState) (n : Nat) : VReg := mget (fun _ => 0) x.v (x.phys n)
def CoreState.aReg (x : CoreState) (n : Nat) : AReg := mget (fun _ => 0) x.a n
def CoreState.bReg (x : CoreState) (n : Nat) : AReg := mget (fun _ => 0) x.b n
def CoreState.lReg (x : CoreState) (n : Nat) : BitVec 24 := mget (fun _ => 0) x.l n
def CoreState.mReg (x : CoreState) (n : Nat) : BitVec 32 := mget (fun _ => 0) x.m n

/-- A predicate; P0 reads 1. -/
def CoreState.pReg (x : CoreState) (n : Nat) : Bool := n % 8 == 0 || x.p.getLsbD (n % 8)

def CoreState.lsReg (x : CoreState) (d : Nat) : Nat := (mget (fun _ => 0) x.ls d).toNat
def CoreState.leReg (x : CoreState) (d : Nat) : Nat := (mget (fun _ => 0) x.le d).toNat
def CoreState.lcReg (x : CoreState) (d : Nat) : Nat := (mget (fun _ => 0) x.lc d).toNat

/-- A control register as MVC reads it (R159). -/
def CoreState.crRead (x : CoreState) (cid : Nat) (n : Nat) : Nat :=
  match n with
  | 0x0 => x.sr.toNat
  | 0x1 => x.rrb.toNat
  | 0x2 => x.bxr.toNat
  | 0x3 => x.amode.toNat
  | 0x4 | 0x5 | 0x6 => fld (x.lsReg (n - 4)) 39 0
  | 0x7 | 0x8 | 0x9 => fld (x.leReg (n - 7)) 39 0
  | 0xA | 0xB | 0xC => x.lcReg (n - 10)
  | 0xD => x.ldepth
  | 0xE => cid
  | 0xF => x.cyc % 2 ^ 32
  | _ =>
    match x.cycHi with
    | some w => w.toNat
    | none => x.cyc / 2 ^ 32 % 2 ^ 32

/-- What a read of CYC_LO latches and a read of CYC_HI takes (R159). -/
def CoreState.crReadEffect (x : CoreState) (n : Nat) : CoreState :=
  if n = 0xF then { x with cycHi := some (BitVec.ofNat 32 (x.cyc / 2 ^ 32)) } else if n = 0x10 then { x with cycHi := none } else x

/-- A control register written from D; reserved bits stay zero. -/
def CoreState.crWrite (x : CoreState) (n v : Nat) : CoreState :=
  let w : Word := BitVec.ofNat 32 v
  let a : AReg := BitVec.ofNat 48 (v % 2 ^ 40)
  match n with
  | 0x0 => { x with sr := w &&& 0x3F }
  | 0x1 => { x with rrb := BitVec.ofNat 4 v }
  | 0x2 => { x with bxr := w &&& 0x00FF1F1F }
  | 0x3 => { x with amode := BitVec.ofNat 16 v }
  | 0x4 | 0x5 | 0x6 => { x with ls := mins x.ls (n - 4) a }
  | 0x7 | 0x8 | 0x9 => { x with le := mins x.le (n - 7) a }
  | 0xA | 0xB | 0xC => { x with lc := mins x.lc (n - 10) w }
  | 0xD => { x with ldepth := v % 4 }
  | _ => x

/-- One register written. A flag is ORed into SR and a headroom merged into BXR.HR (R160, R178). -/
def CoreState.putReg (x : CoreState) (r : PReg) (v : Nat) : CoreState :=
  match r with
  | .d n => { x with d := mins x.d n (BitVec.ofNat 40 v) }
  | .a n => { x with a := mins x.a n (BitVec.ofNat 48 v) }
  | .b n => { x with b := mins x.b n (BitVec.ofNat 48 v) }
  | .l n => { x with l := mins x.l n (BitVec.ofNat 24 v) }
  | .m n => { x with m := mins x.m n (BitVec.ofNat 32 v) }
  | .p n => if n = 0 then x else { x with p := BitVec.ofNat 8 (setFld x.p.toNat n n v) }
  | .v n => { x with v := mins x.v n (BitVec.ofNat 1024 v) }
  | .cr n => x.crWrite n v
  | .flags => { x with sr := x.sr ||| BitVec.ofNat 32 v }
  | .hr => { x with bxr := BitVec.ofNat 32 (setFld x.bxr.toNat 4 0 (min (fld x.bxr.toNat 4 0) v)) }
  | .bscale => { x with bxr := BitVec.ofNat 32 v }

/-! ### Results on their way (R122 to R125, R160) -/

/-- Flags and merges land after the writes of their boundary. -/
def PReg.rank : PReg → Nat
  | .flags => 1
  | .hr => 1
  | _ => 0

/-- The order in which results land. -/
def Flight.before (f g : Flight) : Bool :=
  decide (f.land < g.land) || (decide (f.land = g.land) &&
    (decide (f.reg.rank < g.reg.rank) || (decide (f.reg.rank = g.reg.rank) && decide (f.seq < g.seq))))

/-- A result put in its place among those on their way. -/
def insertFlight (f : Flight) : List Flight → List Flight
  | [] => [f]
  | g :: gs => if f.before g then f :: g :: gs else g :: insertFlight f gs

/-- The accumulators that the MACs see, after a write lands: their own slot's MACs they have already seen (R125). -/
def chainLand (f : Flight) (ch : List Chain) : List Chain :=
  ch.map fun e =>
    if e.reg = f.reg ∧ f.mac ≠ some e.slot ∧ (e.land < f.land ∨ (e.land = f.land ∧ e.seq < f.seq)) then
      { e with val := f.val, land := f.land, seq := f.seq }
    else e

/-- A result lands. -/
def CoreState.landOne (x : CoreState) (f : Flight) : CoreState :=
  let x := x.putReg f.reg f.val
  { x with chain := chainLand f x.chain }

/-- The results that bundle `n` and later read land (R122). -/
def CoreState.landAt (x : CoreState) (n : Nat) : CoreState :=
  let r := x.flight.foldr insertFlight []
  let now := r.filter fun f => decide (f.land ≤ n)
  let x := now.foldl CoreState.landOne x
  { x with flight := r.filter fun f => decide (n < f.land) }

/-- Every operation already issued completes (R136). -/
def CoreState.landAll (x : CoreState) : CoreState :=
  let x := (x.flight.foldr insertFlight []).foldl CoreState.landOne x
  { x with flight := [] }

/-- The accumulator input of a MAC on a slot (R125). -/
def CoreState.accum (x : CoreState) (slot : Nat) (r : PReg) (now : Nat) : Nat :=
  match x.chain.find? fun e => e.slot == slot && e.reg == r with
  | some e => e.val
  | none => now

/-- A MAC's result, as the later MACs of its slot see it. -/
def CoreState.chained (x : CoreState) (slot : Nat) (r : PReg) (v : Nat) : CoreState :=
  { x with chain := { slot := slot, reg := r, val := v, land := x.n + 1, seq := x.n } ::
      x.chain.filter fun e => !(e.slot == slot && e.reg == r) }

/-! ### Addresses (R119, R165, R166) -/

/-- The order of the low `k` bits of a number reversed. -/
def revBits (k v : Nat) : Nat :=
  (List.range k).foldl (fun acc i => acc + bn (tb v i) * 2 ^ (k - 1 - i)) 0

/-- An is bit-reversed with a length that R166 allows, or not bit-reversed. -/
def CoreState.lenOk (x : CoreState) (an : Nat) : Bool :=
  let l := (x.lReg an).toNat
  !x.amode.getLsbD an || (decide (2 ≤ l) && decide (l = 2 ^ Nat.log2 l))

/-- An after a post-modify by `m`. -/
def CoreState.postMod (x : CoreState) (an : Nat) (m : Int) : Nat :=
  let a := x.aReg an
  let b := x.bReg an
  let l := (x.lReg an).toNat
  let o : Int := (a.toNat : Int) - b.toNat
  if l = 0 then wrap 48 ((a.toNat : Int) + m)
  else if x.amode.getLsbD an then
    let k := Nat.log2 l
    let r := (revBits k (wrap k o) + revBits k (wrap k m)) % 2 ^ k
    (b.toNat + revBits k r) % 2 ^ 48
  else (b.toNat + ((o + m) % (l : Int)).toNat) % 2 ^ 48

/-- The bytes that an access moves (R163, R164). -/
def LOp.size : LOp → Nat
  | .ldB | .ldBU | .stB => 1
  | .ldH | .ldHU | .stH | .ldfH | .stfH => 2
  | .ldW | .ldWU | .stW | .ldfW | .stfW => 4
  | .ldD | .stD | .lda | .sta => 8
  | .vld | .vst => 128

def LOp.isStore : LOp → Bool
  | .stB | .stH | .stW | .stD | .stfW | .stfH | .sta | .vst => true
  | _ => false

def LOp.isVec : LOp → Bool
  | .vld | .vst => true
  | _ => false

/-- The post-modify of an operation: its A register and the modifier (R165). -/
def CoreState.modify (x : CoreState) : Oper → Option (Nat × Int)
  | .mem op _ an am _ mn imm =>
    match am with
    | 1 => some (an, (x.mReg mn).toInt)
    | 3 => some (an, sx 7 imm * (op.size : Int))
    | _ => none
  | .addaL an am mn imm => some (an, if am = 1 then (x.mReg mn).toInt else sx 7 imm)
  | .addaC an imm mn i9 => some (an, if imm then sx 9 i9 else (x.mReg mn).toInt)
  | _ => none

/-! ### A core's accesses -/

/-- The first address of the core's own X (R18). -/
def ownBase (c k : Nat) : Nat := 0x10000000 + c * 0x01000000 + k * 0x00100000 + 0x40000

/-- The address lies in the core's own X or Y. -/
def isOwn (c k a : Nat) : Bool := decide (ownBase c k ≤ a ∧ a < ownBase c k + 0x80000)

/-- Every byte of a range may be accessed (R138): `bit` is the permission's bit in `MPU_BASE`. -/
def CoreState.permits (x : CoreState) (c k a n bit : Nat) : Bool :=
  (blocksOf 4096 a n).all fun p => isOwn c k (p * 4096) ||
    x.mpu.any fun r => tb r.1 31 && tb r.1 bit && decide (fld r.1 27 0 ≤ p ∧ p ≤ fld r.2 27 0)

/-- One access of a bundle. -/
structure Access where
  slot : Nat
  addr : Nat
  size : Nat
  es : Nat                  -- element size in bytes
  align : Nat
  store : Bool
  op : Oper
  deriving DecidableEq, Repr

/-- ESIZE as `FLT_STAT` codes it. -/
def eszCode (es : Nat) : Nat := Nat.log2 es

/-- The access that an operation makes, if any (R163 to R165, R176). -/
def CoreState.accessOf (x : CoreState) (slot : Nat) (op : Oper) : Option Access :=
  match op with
  | .mem o _ an am esz _ imm =>
    let a := (x.aReg an).toNat
    let a := if am = 2 then wrap 48 ((a : Int) + sx 7 imm * (o.size : Int)) else a
    some { slot := slot, addr := a, size := o.size, es := if o.isVec then 2 ^ esz else o.size
           align := if o.isVec then 1 else o.size, store := o.isStore, op := op }
  | .submit _ an => some { slot := slot, addr := (x.aReg an).toNat, size := 32, es := 8, align := 32, store := false, op := op }
  | _ => none

/-- The access errors that the core finds before an access is issued (R20, R109): by the address map and the size; a load finds
every refusal, a store those of the PM windows only. -/
def State.coreAerr (s : State) (store : Bool) (a n total : Nat) : Option Nat :=
  if inCsr a ∨ inCsr (a + n - 1) then (if total = 4 ∧ a % 4 = 0 then none else some 2)
  else
    match locate a, s.rangeErr a n with
    | .pm _ _, _ => some 4
    | _, some 4 => if store then none else some 4
    | _, r => r

/-- The first element of an access that satisfies `p`. -/
def Access.element (x : Access) (p : Nat → Bool) : Option Nat :=
  ((List.range (x.size / x.es)).map fun i => x.addr + i * x.es).find? p

/-- The address of the lowest element with a byte in the protected unit at `u` (R139). -/
def Access.elementAt (x : Access) (u : Nat) : Nat := if u ≤ x.addr then x.addr else x.addr + (u - x.addr) / x.es * x.es

/-- The core fault of an access at an address. -/
def Access.fault (x : Access) (kind addr : Nat) : CoreFault :=
  { kind := kind, slot := x.slot, addr := addr, esz := eszCode x.es, write := x.store, deferred := false }

/-- What AG finds in an access: ALIGN before PROT, and PROT before AERR with the KIND that `SYS.AERR_STAT` records (R140). -/
def State.agFault (s : State) (x : CoreState) (c k : Nat) (acc : Access) : Option (CoreFault × Option Nat) :=
  if acc.addr % acc.align ≠ 0 then some (acc.fault 3 acc.addr, none)
  else
    match acc.element fun e => !x.permits c k e acc.es (if acc.store then 29 else 30) with
    | some e => some (acc.fault 1 e, none)
    | none =>
      match acc.element fun e => (s.coreAerr acc.store e acc.es acc.size).isSome with
      | some e => some (acc.fault 2 e, s.coreAerr acc.store e acc.es acc.size)
      | none => none

/-! ### Faults and idling (R139 to R142, R147) -/

/-- The fault registers: the first fault is recorded, a later one sets MORE (R141). -/
def State.fltRecord (s : State) (c k : Nat) (f : CoreFault) : State :=
  let x := s.core c k
  let r := Reg.dspcFltStat c k
  if s.rdB r 31 then s.wrF r 30 30 1
  else
    let s := s.wr r (2 ^ 31 + bn f.deferred * 2 ^ 29 + bn f.write * 2 ^ 28 + f.esz % 4 * 2 ^ 20 + f.slot % 8 * 2 ^ 16 + f.kind % 16 * 2 ^ 8)
    let s := s.wrPair (Reg.dspcFltAddrLo c k) (Reg.dspcFltAddrHi c k) 16 f.addr
    (s.wrPair (Reg.dspcFltPcLo c k) (Reg.dspcFltPcHi c k) 16 x.pc).wr (Reg.dspcFltHandle c k) (s.handleOf x.slot)

/-- A stopping core whose write buffer is empty: it waits again, or its unit fault is told (R137, R141, R147). -/
def State.coreIdle (s : State) (c k : Nat) : State :=
  let x := s.core c k
  if x.st ≠ .stopping ∨ !x.wb.isEmpty then s
  else if x.freeze = .drainUnit then s.unitFault (.core c k) 8 false
  else s.setCore c k { x with st := .waiting, freeze := .none, cancel := false, wbPend := none }

/-- A core stops: what has issued completes, and its write buffer drains. -/
def State.coreStop (s : State) (c k : Nat) (fz : Freeze) : State :=
  let x := (s.core c k).landAll
  (s.setCore c k { x with st := .stopping, freeze := fz, wbPend := none, ds := 0, rpt := 0, lend := none, dint := 0 }).coreIdle c k

/-- A core fault (R141): a program fault commits FAULT with PARTIAL; a LOCAL_UE is a unit fault once the buffer has drained. -/
def State.coreFault (s : State) (c k : Nat) (f : CoreFault) : State :=
  let s := s.fltRecord c k f
  let sl := (s.core c k).slot
  if f.kind = 8 then s.coreStop c k .drainUnit
  else
    let live := (s.task? sl).any fun t => t.st == TaskSt.running
    (if live then s.commitRunning sl 1 1 f.kind else s).coreStop c k .none

end Sys2Proof.Machine
end

