-- ==== Sys2Proof/Machine/PozelExec.lean ====
section
/-! DEFINITION. A Pozel core at work (chapters 4 and 5): fetch from PM, the ILLEGAL rules, one bundle's operations and their
results, loops and repetitions, the write buffer, SUBMIT, POST and DONE, and the interrupts CANCEL and HALT. -/

namespace Sys2Proof.Machine

/-! ### Fetch (R113 to R117) -/

/-- How the fetch of one word ends. -/
inductive Fetched
  | word (w : Nat)
  | miss                    -- its line is not in PM
  | fault (kind : Nat)      -- PROT or FETCH
  | ue                      -- an uncorrectable error in a locked line, already recorded
  deriving DecidableEq, Repr

/-- Where a locked code address is stored, if the address is locked (R114). -/
def CoreState.lockedAt (x : CoreState) (c k a : Nat) : Option Nat :=
  let lo := x.pmBase * 65536
  if lo ≤ a ∧ a < lo + x.pmWays * 0x8000 then some (ownBase c k - 0x40000 + (a - lo)) else none

/-- A code address that PM serves (R113). -/
def codeAddr (a : Nat) : Bool :=
  match locate a with
  | .cellar => true
  | .dram => true
  | _ => false

/-- One word fetched. -/
def State.fetchWord (s : State) (c k a : Nat) : Fetched × State :=
  let x := s.core c k
  if !x.permits c k a 4 28 then (.fault 1, s)
  else if !codeAddr a then (.fault 7, s)
  else
    match x.lockedAt c k a with
    | some p =>
      match s.checkUnits [p / 8 * 8] with
      | (some _, s) => (.ue, s)
      | (none, s) => (.word (ofLe (s.devBytes p 4)), s)
    | none =>
      match x.pm.find? fun e => e.1 = a / 128 with
      | some e => (.word (leAt e.2 (a % 128) 4), s)
      | none => (.miss, s)

/-- A bundle's words with their addresses, up to the one with E = 1 and at most five (R150, R151); or how its fetch ends and where. -/
def State.fetchBundle (s : State) (c k : Nat) : Nat → Nat → List (Nat × Nat) → (List (Nat × Nat) × Option (Nat × Fetched)) × State
  | 0, _, ws => ((ws, none), s)
  | n + 1, a, ws =>
    match s.fetchWord c k a with
    | (.word w, s) =>
      if wordEnds w then ((ws ++ [(a, w)], none), s) else s.fetchBundle c k n ((a + 4) % 2 ^ 48) (ws ++ [(a, w)])
    | (r, s) => ((ws, some (a, r)), s)

/-- A word of code as it stands, without a fetch. -/
def State.peekWord (s : State) (c k a : Nat) : Nat :=
  let x := s.core c k
  match x.lockedAt c k a with
  | some p => ofLe (s.devBytes p 4)
  | none =>
    match x.pm.find? fun e => e.1 = a / 128 with
    | some e => leAt e.2 (a % 128) 4
    | none => ofLe (s.devBytes a 4)

/-- The address after the bundle that holds the word at `a`, by the words from there on. -/
def State.bundleEnd (s : State) (c k : Nat) : Nat → Nat → Nat
  | 0, a => a
  | n + 1, a => if wordEnds (s.peekWord c k a) then (a + 4) % 2 ^ 48 else s.bundleEnd c k n ((a + 4) % 2 ^ 48)

/-- Line `l` placed in PM: its set gives up a line where its unlocked ways are full; which one is not stated. -/
def State.pmPlace (s : State) (c k l : Nat) (bytes : List Byte) : State :=
  let x := s.core c k
  if x.pm.any fun e => e.1 = l then s
  else
    let same := x.pm.filter fun e => decide (e.1 % 256 = l % 256)
    if same.length < 4 - x.pmWays then s.setCore c k { x with pm := x.pm ++ [(l, bytes)] }
    else
      let (i, s) := s.free same.length
      let out := (nth (0, []) same i).1
      s.setCore c k { x with pm := x.pm.filter (fun e => decide (e.1 ≠ out)) ++ [(l, bytes)] }

/-- The prefetch of the next sequential line: it is kept where it can be read (R113); for a locked line nothing is read (R114). -/
def State.pmPrefetch (s : State) (c k l : Nat) : State :=
  if codeAddr (l * 128) && ((s.core c k).lockedAt c k (l * 128)).isNone && (s.rangeErr (l * 128) 128).isNone && (unitsOf (l * 128) 128).all (fun u => s.errAt u != some true) then
    match s.memRead (l * 128) 128 with
    | (.ok bs, s) => s.pmPlace c k l bs
    | (_, s) => s
  else s

/-! ### What makes a bundle ILLEGAL (R124, R128 to R134, R166, R175) -/

/-- The registers that an operation writes, by physical number (R124); a write to P0 writes nothing. -/
def CoreState.dests (x : CoreState) (op : Oper) : List PReg :=
  let d := fun n => PReg.d (x.phys n)
  let v := fun n => PReg.v (x.phys n)
  let p := fun n => if n % 8 = 0 then [] else [PReg.p (n % 8)]
  let post := match x.modify op with
    | some (an, _) => [PReg.a an]
    | none => []
  match op with
  | .salu o dr _ _ _ _ => if o = .cmp ∨ o = .plog then p dr else [d dr]
  | .smac _ dr _ _ _ => [d dr]
  | .sfp o dr _ sb _ => if o = .fcmp then p dr else if o = .fcvt ∧ (fld sb 2 0 = 3 ∨ fld sb 2 0 = 5) then [d dr] else [v dr]
  | .vec o dr _ _ _ _ =>
    if o.pairDst then [v dr, v (dr + 1)] else if o = .vext ∨ o = .vradd then [d dr] else if o = .bexp then [] else [v dr]
  | .vmovi dr _ => [v dr]
  | .mem o reg _ _ _ _ _ =>
    (if o.isStore then [] else
      match o with
      | .lda => [.a reg]
      | .vld => [v reg]
      | .ldfW => [v reg]
      | .ldfH => [v reg]
      | _ => [d reg]) ++ post
  | .addaL .. => post
  | .addaC .. => post
  | .call _ => [.a 15]
  | .mvc w dr cr => if w then [.cr cr] else [d dr]
  | .mva _ kind n => [match kind with | 0 => .a n | 1 => .b n | 2 => .l n | _ => .m n]
  | .mvd dr _ _ => [d dr]
  | .submit dr _ => [d dr]
  | .seta _ an _ => [.a an]
  | .movi dr _ => [d dr]
  | .movh dr _ => [d dr]
  | _ => []

def Oper.isBranch : Oper → Bool
  | .br _ | .call _ | .brr _ => true
  | _ => false

/-- The operations that delay slots and repeated bundles must not hold (R128, R129). -/
def Oper.isControl : Oper → Bool
  | .br _ | .call _ | .brr _ | .rpt .. | .loop .. | .lpop | .dint _ | .getw | .submit .. | .post .. | .done .. => true
  | _ => false

/-- The count of RPT, from D[10:0] or the immediate; 0 means 1,024 (R129, R175). -/
def CoreState.rptCount (x : CoreState) (rg : Bool) (dr imm : Nat) : Nat :=
  let n := if rg then fld (x.dReg dr).toNat 10 0 else imm
  if n = 0 then 1024 else n

/-- Some active body's last word lies from `lo` up to `hi`, the code in between being part of that body. -/
def CoreState.endsIn (x : CoreState) (lo hi : Nat) : Bool :=
  (List.range x.ldepth).any fun d => decide (x.lsReg d ≤ lo ∧ lo ≤ x.leReg d ∧ x.leReg d < hi)

/-- An operation breaks a rule that names ILLEGAL; `near` says that its bundle is one of the last three of a body. -/
def CoreState.breaksRule (x : CoreState) (near : Bool) (op : Oper) : Bool :=
  (x.ds != 0 && op.isControl) ||
  (x.rpt != 0 && (op.isControl || (match op with
    | .mvc true _ cr => cr == 1 || (decide (4 ≤ cr) && decide (cr ≤ 13))
    | _ => false))) ||
  (match op with
    | .rpt rg dr imm => decide (1024 < x.rptCount rg dr imm) || (x.dint != 0 && x.dintRpt)
    | .loop .. => x.ldepth == 3
    | .dint _ => x.dint != 0
    | _ => op.isBranch && near) ||
  (match x.modify op with
    | some (an, _) => !x.lenOk an
    | none => false)

/-- The slot of the first operation, in slot order, that makes its bundle ILLEGAL. -/
def CoreState.illegalSlot (x : CoreState) (near : Bool) (ops : List (Nat × OpWord)) : Option Nat :=
  let clash := fun (o : Nat × OpWord) => ops.any fun q =>
    q.1 != o.1 && (x.dests o.2.op).any fun r => (x.dests q.2.op).contains r
  (List.range 5).find? fun i => ops.any fun o => o.1 == i && (x.breaksRule near o.2.op || clash o)

/-! ### What an operation yields -/

/-- A result that lands `lat` bundles after the one that issues. -/
def CoreState.fl (x : CoreState) (lat : Nat) (r : PReg) (v : Nat) : Flight :=
  { land := x.n + lat, seq := x.n, mac := none, reg := r, val := v }

/-- Flags to OR into SR, where any is set (R160). -/
def CoreState.flagFl (x : CoreState) (lat sr : Nat) : List Flight := if sr = 0 then [] else [x.fl lat .flags sr]

/-- A D or immediate second operand of format S: IMM5 is signed but for shift amounts (R154). -/
def CoreState.sOperand (x : CoreState) (imm : Bool) (sb : Nat) : DReg := if imm then d40 (sx 5 sb) else x.dReg sb

/-- A shift amount of `w` bits from IMM5 or a D register. -/
def CoreState.shiftBy (x : CoreState) (imm : Bool) (sb w : Nat) : Nat := if imm then sb else (x.dReg sb).toNat % 2 ^ w

/-- The scalar ALU (R174). -/
def CoreState.doAlu (x : CoreState) (op : SOp) (dr sa : Nat) (imm : Bool) (sb cc : Nat) : List Flight :=
  match op with
  | .cmp => [x.fl 1 (.p (dr % 8)) (bn (scalarCmp cc (x.dReg sa) (x.sOperand imm sb)))]
  | .plog => [x.fl 1 (.p (dr % 8)) (bn (predLogic cc (x.pReg sa) (x.pReg sb)))]
  | _ => [x.fl 1 (.d (x.phys dr)) (scalarAlu op (x.dReg sa) (x.sOperand imm sb) (x.shiftBy imm sb 6)).toNat]

/-- Scalar multiply and round (R169); a MAC's accumulator chains on its slot. -/
def CoreState.doMac (x : CoreState) (slot : Nat) (op : MOp) (dr sa : Nat) (imm : Bool) (sb : Nat) : List Flight × CoreState :=
  let r := PReg.d (x.phys dr)
  let acc := BitVec.ofNat 40 (x.accum slot r (x.dReg dr).toNat)
  let (v, sat) := scalarMul op acc (x.dReg sa) (x.sOperand imm sb) (x.shiftBy imm sb 5)
  match op with
  | .mac => ({ x.fl 3 r v.toNat with mac := some slot } :: x.flagFl 3 (bn sat), x.chained slot r v.toNat)
  | .msu => ({ x.fl 3 r v.toNat with mac := some slot } :: x.flagFl 3 (bn sat), x.chained slot r v.toNat)
  | .mpy => ([x.fl 3 r v.toNat], x)
  | _ => (x.fl 1 r v.toNat :: x.flagFl 1 (bn sat), x)

/-- Scalar floating point (R171 to R173). -/
def CoreState.doFp (x : CoreState) (op : FOp) (dr sa sb : Nat) (ty : Ty) : List Flight :=
  let f := ty.fmt
  let a := fld (x.vReg sa).toNat 31 0
  let at' := fun (g : FFmt) => a % 2 ^ g.width
  let v := PReg.v (x.phys dr)
  let d := PReg.d (x.phys dr)
  match op with
  | .fcmp =>
    let r := f.cmp (fld dr 4 3) (at' f) ((x.vReg sb).toNat % 2 ^ f.width)
    x.fl 4 (.p (dr % 8)) (bn r.1) :: x.flagFl 4 r.2.sr
  | .fcvt =>
    let (r, reg) : (Nat × FFlags) × PReg :=
      match fld sb 2 0 with
      | 0 => (f16.conv f32 (at' f16), v)
      | 1 => (f32.conv f16 (at' f32), v)
      | 2 => (f32.ofInt (x.dReg sa).toInt, v)
      | 3 => let r := f32.toInt (at' f32); ((wrap 40 r.1, r.2), d)
      | 4 => (f16.ofInt (x.dReg sa).toInt, v)
      | _ => let r := f16.toInt (at' f16); ((wrap 40 r.1, r.2), d)
    x.fl 4 reg r.1 :: x.flagFl 4 r.2.sr
  | _ =>
    let r := fpBin op f ((x.vReg dr).toNat % 2 ^ f.width) (at' f) ((x.vReg sb).toNat % 2 ^ f.width)
    x.fl 4 v r.1 :: x.flagFl 4 r.2.sr

/-- A vector operation (R174): VMAC chains on its slot, and X = 1 merges the headroom of the result (R178). -/
def CoreState.doVec (x : CoreState) (slot : Nat) (op : VOp) (dr sa sb : Nat) (ty : Ty) (hx : Bool) : List Flight × CoreState :=
  let r0 := PReg.v (x.phys dr)
  let r1 := PReg.v (x.phys (dr + 1))
  let mac := op == .vmac || op == .vmacS
  let acc := fun (r : PReg) (n : Nat) => if mac then BitVec.ofNat 1024 (x.accum slot r (x.vReg n).toNat) else x.vReg n
  let r := vecOp op ty
    { a := x.vReg sa, a1 := x.vReg (sa + 1), b := x.vReg sb, d := acc r0 dr, d1 := acc r1 (dr + 1)
      s := if op = .vbcast then x.dReg sa else x.dReg sb, sb := sb, sh := fld x.bxr.toNat 12 8 }
  let tag := fun (f : Flight) => if mac then { f with mac := some slot } else f
  let out :=
    match op, r.d with
    | .bexp, _ => [x.fl 4 .hr r.hr]
    | _, some d => [x.fl 4 (.d (x.phys dr)) d.toNat]
    | _, none => tag (x.fl 4 r0 r.lo.toNat) :: (match r.hi with | some h => [tag (x.fl 4 r1 h.toNat)] | none => [])
  let fls := x.flagFl 4 (bn r.sat ||| r.fl.sr) ++ (if hx then [x.fl 4 .hr (resultHeadroom ty r.lo)] else [])
  (out ++ fls, if mac then (x.chained slot r0 r.lo.toNat).chained slot r1 (r.hi.getD 0).toNat else x)

/-- BSCALE (R179). -/
def bscale (bxr g : Nat) : Nat :=
  let sh := g - fld bxr 4 0
  let e := min 127 (sx 8 (fld bxr 23 16) + (sh : Int))
  wrap 8 e * 2 ^ 16 + sh % 32 * 2 ^ 8 + 31

/-- The results of an operation that makes no access and changes no control flow, but for its post-modify. -/
def CoreState.results (x : CoreState) (cid slot ret : Nat) (op : Oper) : List Flight × CoreState :=
  match op with
  | .salu o dr sa imm sb cc => (x.doAlu o dr sa imm sb cc, x)
  | .smac o dr sa imm sb => x.doMac slot o dr sa imm sb
  | .sfp o dr sa sb ty => (x.doFp o dr sa sb ty, x)
  | .vec o dr sa sb ty hx => x.doVec slot o dr sa sb ty hx
  | .vmovi dr imm => ([x.fl 4 (.v (x.phys dr)) (ofLanes 16 (List.replicate 64 (wrap 16 (sx 14 imm)))).toNat], x)
  | .call _ => ([x.fl 1 (.a 15) ret], x)
  | .mvc w dr cr =>
    if w then ([x.fl 1 (.cr cr) (x.dReg dr).toNat], x)
    else ([x.fl 1 (.d (x.phys dr)) (x.crRead cid cr)], x.crReadEffect cr)
  | .mva dr kind n =>
    let v := (x.dReg dr).toNat
    ([match kind with
      | 0 => x.fl 1 (.a n) v
      | 1 => x.fl 1 (.b n) v
      | 2 => x.fl 1 (.l n) (v % 2 ^ 24)
      | _ => x.fl 1 (.m n) (v % 2 ^ 32)], x)
  | .mvd dr kind n =>
    let v := match kind with
      | 0 => (x.aReg n).toNat % 2 ^ 40
      | 1 => (x.bReg n).toNat % 2 ^ 40
      | 2 => (x.lReg n).toNat
      | _ => wrap 40 (x.mReg n).toInt
    ([x.fl 1 (.d (x.phys dr)) v], x)
  | .bscale g => ([x.fl 1 .bscale (bscale x.bxr.toNat g)], x)
  | .seta part an imm =>
    let old := (x.aReg an).toNat
    ([x.fl 1 (.a an) (match part with | 0 => imm | 1 => setFld old 31 16 imm | _ => setFld old 47 32 imm)], x)
  | .movi dr imm => ([x.fl 1 (.d (x.phys dr)) (wrap 40 (sx 16 imm))], x)
  | .movh dr imm =>
    let v := setFld (x.dReg dr).toNat 31 16 imm
    ([x.fl 1 (.d (x.phys dr)) (setFld v 39 32 (if tb imm 15 then 255 else 0))], x)
  | _ => ([], x)

/-- The results of a load from the bytes read (R163, R164). -/
def CoreState.loaded (x : CoreState) (op : Oper) (bs : List Byte) : List Flight :=
  let v := ofLe bs
  match op with
  | .mem o reg _ _ _ _ _ =>
    let d := fun n => [x.fl 3 (.d (x.phys reg)) n]
    match o with
    | .ldB => d (wrap 40 (sx 8 v))
    | .ldH => d (wrap 40 (sx 16 v))
    | .ldW => d (wrap 40 (sx 32 v))
    | .ldBU => d v
    | .ldHU => d v
    | .ldWU => d v
    | .ldD => d (v % 2 ^ 40)
    | .lda => [x.fl 3 (.a reg) (v % 2 ^ 48)]
    | _ => [x.fl 3 (.v (x.phys reg)) v]
  | _ => []

/-- The bytes that a store moves (R163, R164). -/
def CoreState.stored (x : CoreState) (op : Oper) : List Byte :=
  match op with
  | .mem o reg _ _ _ _ _ =>
    match o with
    | .stD => leBytes 8 (wrap 64 (x.dReg reg).toInt)
    | .stfW => leBytes 4 (x.vReg reg).toNat
    | .stfH => leBytes 2 (x.vReg reg).toNat
    | .sta => leBytes 8 (x.aReg reg).toNat
    | .vst => leBytes 128 (x.vReg reg).toNat
    | _ => leBytes o.size (x.dReg reg).toNat
  | _ => []

/-! ### The write buffer (R143, R144) -/

/-- A byte list put into an entry's bytes. -/
def wbBytes (bs : List (Nat × Byte)) (a : Nat) : List Byte → List (Nat × Byte)
  | [] => bs
  | b :: rest => wbBytes (mins bs a b) (a + 1) rest

/-- One piece of a store, within one block, put into the write buffer: it merges into the youngest entry where R143 lets it. -/
def wbPush (wb : List WbEntry) (st : Nat) (esz a : Nat) (bs : List Byte) : List WbEntry :=
  let fresh : WbEntry := { block := a / 128, bytes := wbBytes [] a bs, csr := inCsr a, issued := false, addr := st, esz := esz, merged := [(a, bs.length, esz)] }
  match wb.getLast? with
  | none => [fresh]
  | some e =>
    if e.block = a / 128 ∧ !e.csr ∧ !inCsr a ∧ !e.issued then wb.dropLast ++ [{ e with bytes := wbBytes e.bytes a bs, merged := e.merged ++ [(a, bs.length, esz)] }]
    else wb ++ [fresh]

/-- A store put into the write buffer, in one piece for each block it touches. -/
def wbStore (wb : List WbEntry) (acc : Access) (bs : List Byte) : List WbEntry :=
  let first := min bs.length (128 - acc.addr % 128)
  let wb := wbPush wb acc.addr (eszCode acc.es) acc.addr (bs.take first)
  if first < bs.length then wbPush wb acc.addr (eszCode acc.es) (acc.addr + first) (bs.drop first) else wb

/-- A range overlaps a buffered store. -/
def CoreState.overlaps (x : CoreState) (a n : Nat) : Bool :=
  x.wb.any fun e => e.bytes.any fun b => decide (a ≤ b.1 ∧ b.1 < a + n)

/-- The write buffer after a bundle's stores beyond X and Y. -/
def CoreState.wbAfter (x : CoreState) (c k : Nat) (accs : List Access) : List WbEntry :=
  accs.foldl (fun wb acc => if acc.store && !isOwn c k acc.addr then wbStore wb acc (x.stored acc.op) else wb) x.wb

/-- Bytes at consecutive addresses as one write each. -/
def byteRuns : List (Nat × Byte) → List (Nat × List Byte)
  | [] => []
  | (a, b) :: rest =>
    match byteRuns rest with
    | (a', bs) :: rs => if a + 1 = a' then (a, b :: bs) :: rs else (a, [b]) :: (a', bs) :: rs
    | [] => [(a, [b])]

/-! ### Loops, repetitions and the next bundle (R128 to R134) -/

/-- What the CB operation does to the order of bundles and to the task. -/
inductive Ctl
  | none
  | branch (t : Nat)
  | rpt (n : Nat)
  | loop (rot : Bool) (n le skip : Nat)
  | lpop
  | dint (n : Nat)
  | sync
  | post (grp flags : Nat)
  | submit (dreg : Nat)
  | done (ust : Nat)
  deriving DecidableEq, Repr

/-- The end of a body reached: innermost level first, a level whose count runs out is popped (R130, R132). -/
def CoreState.loopEnd : Nat → CoreState → (Nat → Bool) → CoreState
  | 0, x, _ => x
  | f + 1, x, here =>
    if x.ldepth = 0 then x
    else
      let d := x.ldepth - 1
      if !here (x.leReg d) then x
      else
        let x := if x.rot.contains d then { x with rrb := x.rrb - 1 } else x
        if x.lcReg d ≤ 1 then CoreState.loopEnd f { x with ldepth := d, lc := mins x.lc d 0, rot := sdel x.rot d } here
        else { x with lc := mins x.lc d (BitVec.ofNat 32 (x.lcReg d - 1)), pc := x.lsReg d }

/-- The end of the innermost body lies in a range of words. -/
def CoreState.endHere (x : CoreState) (lo hi : Nat) : Bool :=
  decide (0 < x.ldepth ∧ lo ≤ x.leReg (x.ldepth - 1) ∧ x.leReg (x.ldepth - 1) < hi)

/-- The DINT window after a bundle: repetitions of an RPT do not count (R134). -/
def CoreState.windowStep (x : CoreState) (ctl : Ctl) : CoreState :=
  match ctl with
  | .dint n => { x with dint := n, dintRpt := false }
  | .rpt _ => { x with dint := x.dint - 1, dintRpt := x.dint != 0 }
  | _ => if x.rpt = 0 then { x with dint := x.dint - 1 } else x

/-- Where the core goes after the bundle from `lo` to `fin`. A LOOP with a count of 0 goes on after its body; where that body ends with an
outer one, the outer iteration is not ended by it (DESIGN CHOICE, log entry 49). -/
def CoreState.goOn (x : CoreState) (lo fin : Nat) (ctl : Ctl) : CoreState :=
  let here := fun a => decide (lo ≤ a ∧ a < fin)
  match ctl with
  | .branch t => { x with pc := fin, ds := 2, target := t }
  | .rpt n => { x with pc := fin, rpt := n, lend := if x.endHere lo fin then some (lo, fin) else none }
  | .loop rot n le skip =>
    if n = 0 then { x with pc := skip }
    else
      let d := x.ldepth
      { x with
        pc := fin, ldepth := d + 1, ls := mins x.ls d (BitVec.ofNat 48 fin), le := mins x.le d (BitVec.ofNat 48 le)
        lc := mins x.lc d (BitVec.ofNat 32 n), rot := if rot then sins x.rot d else sdel x.rot d }
  | _ =>
    let x := if ctl = .lpop then { x with ldepth := x.ldepth - 1, rot := sdel x.rot (x.ldepth - 1) } else x
    if x.ds ≠ 0 then { x with ds := x.ds - 1, pc := if x.ds = 1 then x.target else fin }
    else if 1 < x.rpt then { x with rpt := x.rpt - 1 }
    else
      let ends := fun a => here a || (x.lend.any fun r => decide (r.1 ≤ a ∧ a < r.2))
      CoreState.loopEnd 3 { x with rpt := 0, lend := none, pc := fin } ends

/-- The CB operation's effect on the order of bundles (R175, R176). -/
def State.ctlOf (s : State) (c k : Nat) (x : CoreState) (lo : Nat) (o : OpWord) : Ctl :=
  let d := fun n => (x.dReg n).toNat
  match o.op with
  | .br disp => .branch (wrap 48 ((lo : Int) + sx 19 disp * 4))
  | .call disp => .branch (wrap 48 ((lo : Int) + sx 19 disp * 4))
  | .brr an => .branch ((x.aReg an).toNat / 4 * 4)
  | .rpt rg dr imm => .rpt (x.rptCount rg dr imm)
  | .loop rot rg dr imm8 imm10 =>
    let le := (o.addr + 4 * imm10) % 2 ^ 48
    .loop rot (if rg then d dr % 2 ^ 32 else imm8) le (s.bundleEnd c k 5 le)
  | .lpop => .lpop
  | .dint n => .dint n
  | .sync => .sync
  | .getw => .done 0
  | .submit dr _ => .submit (x.phys dr)
  | .post dr df => .post (d dr % 16384) (d df % 2 ^ 32)
  | .done rg dr imm => .done (if rg then d dr % 256 else imm)
  | _ => .none

/-! ### One bundle -/

/-- Accepting an interrupt is held off here (R134). -/
def CoreState.heldOff (x : CoreState) : Bool := x.ds != 0 || x.rpt != 0 || x.dint != 0

/-- Cycles of the core in Census (R513): `frozen` cycles owed to the counter in `stall`. -/
def State.countFrozen (s : State) (c k frozen : Nat) : State :=
  let x := s.core c k
  let u := s.physCore c k
  let s := s.tally 0 u 0 frozen
  let run := (s.task? x.slot).any fun t => t.st == TaskSt.running
  let s :=
    if !run then s
    else if x.stall = 7 then (s.tally 0 u 1 frozen).tally 0 u 7 (5 * frozen)
    else ((s.tally 0 u 1 frozen).tally 0 u 8 (5 * frozen)).tally 0 u x.stall frozen
  s.setCore c k { x with cyc := (x.cyc + frozen) % 2 ^ 64, stall := 11 }

/-- An issued bundle in Census: each slot retired or wasted. -/
def State.countIssue (s : State) (c k retired : Nat) : State :=
  let x := s.core c k
  let u := s.physCore c k
  let s := s.tally 0 u 0 1
  let run := (s.task? x.slot).any fun t => t.st == TaskSt.running
  let s := if run then (((s.tally 0 u 1 1).tally 0 u 4 1).tally 0 u 5 retired).tally 0 u 6 (5 - retired) else s
  s.setCore c k { x with cyc := (x.cyc + 1) % 2 ^ 64 }

/-- The operations of a bundle whose predicate is 1 (R152). -/
def CoreState.active (x : CoreState) (ops : List (Nat × OpWord)) : List (Nat × OpWord) := ops.filter fun o => x.pReg o.2.pg

/-- Their accesses, in slot order. -/
def CoreState.accesses (x : CoreState) (ops : List (Nat × OpWord)) : List Access :=
  [2, 3, 4].filterMap fun i => (ops.find? fun o => o.1 == i).bind fun o => x.accessOf o.1 o.2.op

/-- A load that waited at a DRAM channel when it failed: it returns uncorrectable data (R312). -/
def State.readLost (s : State) (c k a : Nat) : Bool :=
  match locate a with
  | .dram => (s.core c k).lost.contains (s.dramPlace a).1
  | _ => false

/-- M2 of a bundle (R140): every load and the descriptor of a SUBMIT read, and every store to the core's own X and Y checked, in slot
order; the first that fails is the bundle's fault. -/
def State.readAll (s : State) (c k : Nat) : List Access → List (Nat × List Byte) → (Option CoreFault × List (Nat × List Byte)) × State
  | [], got => ((none, got), s)
  | a :: rest, got =>
    if a.store then
      if isOwn c k a.addr then
        match s.partialUes a.addr a.size (unitsOf a.addr a.size) with
        | u :: us => ((some (a.fault 8 (a.elementAt u)), got), s.uesAt (u :: us))
        | [] => s.readAll c k rest got
      else s.readAll c k rest got
    else if isOwn c k a.addr then
      match s.memRead a.addr a.size with
      | (.ok bs, s) => s.readAll c k rest (got ++ [(a.slot, bs)])
      | (.ue u, s) => ((some (a.fault 8 (a.elementAt u)), got), s)
      | (.err kind, s) => ((some (a.fault 2 a.addr), got), s.aerr (.dsp c k) kind false false a.addr)
    else if s.readLost c k a.addr then ((some (a.fault 5 a.addr), got), s.ueAt false (a.addr / 64 * 64))
    else
      match s.devRead (.dsp c k) a.addr a.size with
      | (.ok bs, s) => s.readAll c k rest (got ++ [(a.slot, bs)])
      | (.ue u, s) => ((some (a.fault 5 (a.elementAt u)), got), s)
      | (.err _, s) => ((some (a.fault 2 a.addr), got), s)

/-- Stores to the core's own X and Y, in slot order. -/
def State.storeOwn (s : State) (c k : Nat) (x : CoreState) (accs : List Access) : State :=
  accs.foldl (fun (s : State) a => if a.store && isOwn c k a.addr then (s.memWrite a.addr (x.stored a.op)).2 else s) s

/-- The results of the operations in slot order, and the accumulators that they chain. -/
def CoreState.resultsAll (x : CoreState) (cid ret : Nat) : List (Nat × OpWord) → List Flight → List Flight × CoreState
  | [], acc => (acc, x)
  | o :: rest, acc =>
    let (fs, y) := x.results cid o.1 ret o.2.op
    let post := match x.modify o.2.op with
      | some (an, m) => [x.fl 1 (.a an) (x.postMod an m)]
      | none => []
    y.resultsAll cid ret rest (acc ++ fs ++ post)

/-- The handing over of a SUBMIT: the descriptor is held at the core's port, and the core is frozen (R84, R89). -/
def State.coreSubmit (s : State) (c k dreg : Nat) (ws : List Word) : State :=
  let x := s.core c k
  let idem := (s.task? x.slot).any fun t => dIdem t.words
  (s.hold (.core c k) ws idem).setCore c k { x with freeze := .submitHeld dreg, stall := 13 }

/-- DONE ends the work of the task: a running task is then in ENDING with its user status (R84, R100, R146). -/
def State.coreDone (s : State) (c k ust : Nat) : State :=
  let x := (s.core c k).landAll
  let s := s.setCore c k { x with freeze := .drainDone ust }
  match s.task? x.slot with
  | some t => if t.st = TaskSt.running then s.setTask x.slot (some { t with st := TaskSt.ending, ust := ust }) else s
  | none => s

/-- A drain that is over (R145): POST posts, SUBMIT submits unless a cancel has reached it (R137), DONE leaves the core waiting; a failed store comes first (R142). -/
def State.drained (s : State) (c k : Nat) : State :=
  let x := s.core c k
  if !x.wb.isEmpty then s
  else
    let go := s.setCore c k { x with freeze := .none }
    match x.freeze with
    | .drainSync => go
    | .preDrain _ => go
    | .drainPost g f => if x.wbPend.isSome then go else go.post g f
    | .drainSubmit d ws => if x.wbPend.isSome then go else if x.cancel then s else s.coreSubmit c k d ws
    | .drainDone _ => s.setCore c k { x with st := .waiting, freeze := .none, cancel := false, wbPend := none }
    | _ => s

/-- A bundle that has passed its checks: memory, results, the order of bundles, and what its CB operation does to the task. -/
def State.perform (s : State) (c k : Nat) (ops : List (Nat × OpWord)) (lo fin : Nat) : State :=
  let x := s.core c k
  let act := x.active ops
  let accs := x.accesses act
  match s.readAll c k accs [] with
  | ((some f, _), s) => s.coreFault c k f
  | ((none, got), s) =>
    let bytes := fun (slot : Nat) => ((got.find? fun g => g.1 == slot).map (·.2)).getD []
    let s := s.storeOwn c k x accs
    let s := s.countIssue c k (act.filter fun o => decide (o.2.op ≠ .nop)).length
    let ret := s.bundleEnd c k 5 (s.bundleEnd c k 5 fin)
    let ctl := match act.find? fun o => o.1 == 4 with
      | some o => s.ctlOf c k x lo o.2
      | none => .none
    let (fs, y) := x.resultsAll (c * 8 + k) ret act []
    let ld := accs.flatMap fun a => if a.store then [] else x.loaded a.op (bytes a.slot)
    let y := { (y.windowStep ctl) with
      flight := y.flight ++ fs ++ ld, wb := x.wbAfter c k accs, n := x.n + 1, cyc := (s.core c k).cyc, stall := 11 }
    let s := s.setCore c k (y.goOn lo fin ctl)
    let set := fun (fz : Freeze) => (s.setCore c k { s.core c k with freeze := fz, stall := 12 }).drained c k
    match ctl with
    | .sync => set .drainSync
    | .post g f => set (.drainPost g f)
    | .submit d => set (.drainSubmit d (wordsOf (bytes 4)))
    | .done ust => (s.coreDone c k ust).drained c k
    | _ => s

/-- A freeze before the bundle issues; the cycles count under `stall`. -/
def State.freezeCore (s : State) (c k : Nat) (fz : Freeze) (stall : Nat) : State :=
  s.setCore c k { s.core c k with freeze := fz, stall := stall }

/-- A core fault in fetch (R140): its element is the 4-byte word. -/
def fetchFault (kind a : Nat) : CoreFault := { kind := kind, slot := 5, addr := a, esz := 2, write := false, deferred := false }

/-- An ILLEGAL fault: it concerns no access, so nothing is stated for its address and element size, nor for the slot of a word that has
none. -/
def State.illegal (s : State) (c k : Nat) (slot : Option Nat) : State :=
  let (a, s) := s.free (2 ^ 48)
  let (e, s) := s.free 4
  let (i, s) := s.free 5
  s.coreFault c k { kind := 4, slot := slot.getD i, addr := a, esz := e, write := false, deferred := false }

/-- A bundle that cannot be decoded (R140, R151): the first slot, in slot order, whose word is undefined or whose operation breaks a rule; no slot
where there are too many operations or words. -/
def State.illegalBundle (s : State) (c k : Nat) (words : List (Nat × Nat)) (fin : Nat) : State :=
  let x := s.core c k
  let slots := wordSlots (words.map (·.2)) 0 0 0
  let ops := (List.zip slots words).filterMap fun p => p.1.bind fun i => (decodeWord p.2.1 p.2.2).map fun o => (i, o)
  let near := x.endsIn x.pc (s.bundleEnd c k 5 (s.bundleEnd c k 5 fin))
  let undef := (List.zip slots words).filterMap fun p => if (decodeWord p.2.1 p.2.2).isNone then p.1 else none
  s.illegal c k ((List.range 5).find? fun i => undef.contains i || x.illegalSlot near (x.active ops) == some i)

/-- A DEFERRED fault for the failed store at an address (R142); its slot is not stated. -/
def State.deferredFault (s : State) (c k a esz : Nat) : State :=
  let (i, s) := s.free 6
  s.coreFault c k { kind := 6, slot := i, addr := a, esz := esz, write := true, deferred := true }

/-- A decoded bundle with no failed store before it (R124, R140, R143 to R145): its faults by stage and slot, what freezes it, or its
execution. -/
def State.checkBundle (s : State) (c k : Nat) (words : List (Nat × Nat)) (ops : List (Nat × OpWord)) (fin : Nat) : State :=
  let x := s.core c k
  let act := x.active ops
  let before := act.find? fun o => match o.2.op with
    | .submit .. | .post .. => true
    | _ => false
  let outside := fun (a : Access) => !a.store && !isOwn c k a.addr
  let accs := x.accesses act
  match x.illegalSlot (x.endsIn x.pc (s.bundleEnd c k 5 (s.bundleEnd c k 5 fin))) act with
  | some slot => s.illegal c k (some slot)
  | none =>
    match accs.findSome? fun a => (s.agFault x c k a).map fun f => (a, f) with
    | some (a, f, some kind) => (s.aerr (.dsp c k) kind a.store false f.addr).coreFault c k f
    | some (_, f, none) => s.coreFault c k f
    | none =>
      if before.isSome && !x.wb.isEmpty then
        s.freezeCore c k (.preDrain (before.any fun o => match o.2.op with | .submit .. => true | _ => false)) 12
      else if accs.any fun a => outside a && x.overlaps a.addr a.size then s.freezeCore c k .wbOverlap 10
      else if 8 < (x.wbAfter c k accs).length then s.freezeCore c k .wbFull 12
      else if accs.any outside then s.freezeCore c k (.load words) 10
      else s.perform c k ops x.pc fin

/-- A bundle that has been decoded: a failed store is told at DONE, POST and SUBMIT at the latest (R142). -/
def State.tryBundle (s : State) (c k : Nat) (words : List (Nat × Nat)) (ops : List (Nat × OpWord)) (fin : Nat) : State :=
  let x := s.core c k
  let drains := (x.active ops).any fun o => match o.2.op with
    | .getw | .submit .. | .post .. | .done .. => true
    | _ => false
  match x.wbPend with
  | some (a, esz) => if drains then s.deferredFault c k a esz else s.checkBundle c k words ops fin
  | none => s.checkBundle c k words ops fin

/-- Upsets in the core's own memories: an uncorrectable one in an unlocked line of PM discards a line, which counts as a corrected
error (R117). -/
def State.strikeCore (s : State) (c k : Nat) (ups : List (Nat × List Nat)) : State :=
  ups.foldl (fun (s : State) u =>
    let x := s.core c k
    let pm := ownBase c k - 0x40000
    if isOwn c k u.1 ∨ (pm ≤ u.1 ∧ u.1 < pm + x.pmWays * 0x8000) then s.setErr (u.1 / 8 * 8) u.2
    else if pm ≤ u.1 ∧ u.1 < pm + 0x20000 ∧ u.2 ≠ [] then
      let (i, s) := (s.ceAt u.1).free (max 1 x.pm.length)
      if 2 ≤ u.2.length then s.setCore c k { x with pm := x.pm.eraseIdx i } else s
    else s) s

/-- The results that the next bundle reads land, and the youngest buffered store may have begun to issue. -/
def State.beginBundle (s : State) (c k : Nat) : State :=
  let x := (s.core c k).landAt (s.core c k).n
  let (i, s) := s.free 2
  let wb := match x.wb.getLast? with
    | some e => x.wb.dropLast ++ [{ e with issued := e.issued || i == 1 }]
    | none => x.wb
  s.setCore c k { x with wb := wb }

/-- A bundle issues: fetch, decode, and what follows. -/
def State.issue (s : State) (c k : Nat) : State :=
  let x := s.core c k
  match s.fetchBundle c k 5 x.pc [] with
  | ((_, some (a, .miss)), s) => (s.tally 0 (s.physCore c k) 9 1).freezeCore c k (.pmMiss a) 7
  | ((_, some (a, .fault kind)), s) => s.coreFault c k (fetchFault kind a)
  | ((_, some (a, _)), s) => s.coreFault c k (fetchFault 8 a)
  | ((words, none), s) =>
    if !(words.getLast?.any fun w => wordEnds w.2) then s.illegal c k none
    else
      match decodeBundle words with
      | none => s.illegalBundle c k words ((x.pc + 4 * words.length) % 2 ^ 48)
      | some ops => s.tryBundle c k words ops ((x.pc + 4 * words.length) % 2 ^ 48)

/-- `BUNDLE_ISSUE`: after `frozen` cycles; a boundary at which an interrupt must be accepted issues nothing. -/
def State.bundleIssue (s : State) (c k frozen : Nat) (ups : List (Nat × List Nat)) : State :=
  let x := s.core c k
  if x.st ≠ .running ∨ x.freeze ≠ .none ∨ (x.cancel && !x.heldOff && x.wbPend.isNone) then s
  else
    let s := ((s.strikeCore c k ups).countFrozen c k frozen).beginBundle c k
    match x.wbPend with
    | some (a, esz) => if x.heldOff then s.issue c k else s.deferredFault c k a esz
    | none => s.issue c k

def execBundleIssue (c k frozen : Nat) (ups : List (Nat × List Nat)) (s : State) : Answer :=
  pcmd (decide (c < 12) && decide (k < 8)) s fun s => s.bundleIssue c k frozen ups

/-- A bundle's access waits for its DRAM channel. -/
def State.accessWaits (s : State) (c k : Nat) (a : Access) : Bool := !a.store && !s.readLost c k a.addr && s.dramWaits false a.addr a.size

/-- The failed channels forgotten. -/
def State.clearLost (s : State) (c k : Nat) : State :=
  if (s.core c k).lost.isEmpty then s else s.setCore c k { s.core c k with lost := [] }

/-- `LOAD_DATA_RETURN`: the data of a frozen bundle's loads arrive, where their memory serves them, and the bundle goes on. -/
def State.loadReturn (s : State) (c k : Nat) (ups : List (Nat × List Nat)) : State :=
  let x := s.core c k
  match x.freeze with
  | .load words =>
    let s := s.struck ups
    match decodeBundle words with
    | some ops =>
      if (x.accesses (x.active ops)).any fun a => s.accessWaits c k a then s
      else ((s.setCore c k { s.core c k with freeze := .none }).perform c k ops x.pc ((x.pc + 4 * words.length) % 2 ^ 48)).clearLost c k
    | none => s.setCore c k { s.core c k with freeze := .none }
  | _ => s

def execLoadDataReturn (c k : Nat) (ups : List (Nat × List Nat)) (s : State) : Answer :=
  pcmd (decide (c < 12) && decide (k < 8)) s fun s => s.loadReturn c k ups

/-- `PM_MISS_FILL`: the missed line arrives, and the next sequential one with it; code that cannot be read faults (R113, R140). -/
def State.pmFill (s : State) (c k : Nat) (ok : Bool) : State :=
  let x := s.core c k
  match x.freeze with
  | .pmMiss a =>
    if s.dramWaits false (a / 128 * 128) 128 then s
    else
    let s := s.setCore c k { x with freeze := .none }
    match s.busRead (.dsp c k) (a / 128 * 128) 128 with
    | (.ok bs, s) =>
      if ok then (s.pmPlace c k (a / 128) bs).pmPrefetch c k (a / 128 + 1) else s.coreFault c k (fetchFault 7 a)
    | (.ue _, s) => s.coreFault c k (fetchFault 7 a)
    | (.err _, s) => s.coreFault c k (fetchFault 2 a)
  | _ => s

def execPmMissFill (c k : Nat) (ok : Bool) (s : State) : Answer :=
  pcmd (decide (c < 12) && decide (k < 8)) s fun s => s.pmFill c k ok

/-! ### The write buffer's acknowledgements (R12, R142, R143) -/

/-- The writes of an entry performed in rising address order; of those that fail the first is told: its range, or the protected word that was
uncorrectable. -/
def State.wbWrites (s : State) (c k : Nat) : List (Nat × List Byte) → Option (Nat × Nat) → Option (Nat × Nat) × State
  | [], bad => (bad, s)
  | (a, bs) :: rest, bad =>
    match s.devWrite (.dsp c k) a bs with
    | (.ok, s) => s.wbWrites c k rest bad
    | (.err _, s) => s.wbWrites c k rest (bad <|> some (a, bs.length))
    | (.ue u, s) => s.wbWrites c k rest (bad <|> some (u, unitBytes u))

/-- The store of an entry that a failed range belongs to, the oldest where several do; its address and element size. -/
def WbEntry.failedStore (e : WbEntry) (r : Nat × Nat) : Nat × Nat :=
  match e.merged.find? fun m => decide (m.1 < r.1 + r.2 ∧ r.1 < m.1 + m.2.1) with
  | some m => (m.1, m.2.2)
  | none => (e.addr, e.esz)

/-- A buffered store has failed: DEFERRED comes at the next boundary, or at once for a task whose DONE drains (R142). No bundle faults then:
the record holds the PC after DONE (DESIGN CHOICE, log entry 49). -/
def State.wbFailed (s : State) (c k : Nat) (st : Nat × Nat) : State :=
  let x := s.core c k
  match x.st, x.freeze with
  | .running, .drainDone _ =>
    let (i, s) := s.free 6
    let s := s.fltRecord c k { kind := 6, slot := i, addr := st.1, esz := st.2, write := true, deferred := true }
    let ending := (s.task? x.slot).any fun t => t.st == TaskSt.ending
    let s := if ending then s.commitRunning x.slot 1 2 6 else s
    s.setCore c k { s.core c k with st := .stopping, freeze := .none }
  | .running, _ => if x.wbPend.isSome then s else s.setCore c k { x with wbPend := some st }
  | .halted, _ => if x.wbPend.isSome then s else s.setCore c k { x with wbPend := some st }
  | _, _ => s

/-- An acknowledgement ends the freezes that wait for one. -/
def State.wbEased (s : State) (c k : Nat) : State :=
  let x := s.core c k
  if x.freeze = .wbOverlap ∨ x.freeze = .wbFull then s.setCore c k { x with freeze := .none }
  else if x.st = .stopping then s.coreIdle c k
  else s.drained c k

/-- `WRITE_BUFFER_ACK`: the oldest entry's write is performed and acknowledged; without `ok` its target returned an error. -/
def State.wbAck (s : State) (c k : Nat) (ok : Bool) : State :=
  let x := s.core c k
  match x.wb with
  | [] => s
  | e :: rest =>
    if (byteRuns e.bytes).any fun r => s.dramWaits true r.1 r.2.length then s
    else
    let s := s.setCore c k { x with wb := rest }
    let (bad, s) := if ok then s.wbWrites c k (byteRuns e.bytes) none else (some (e.block * 128, 128), s)
    (match bad with | some r => s.wbFailed c k (e.failedStore r) | none => s).wbEased c k

def execWriteBufferAck (c k : Nat) (ok : Bool) (s : State) : Answer :=
  otpCmd (decide (c < 12) && decide (k < 8)) s fun s => live s fun s => s.wbAck c k ok

/-! ### Interrupts (R133 to R137) -/

/-- `CANCEL_ACCEPT`: at a boundary that nothing holds off, or frozen in SUBMIT; what has issued completes and the buffer drains. -/
def execCancelAccept (c k : Nat) (s : State) : Answer :=
  pcmd (decide (c < 12) && decide (k < 8)) s fun s =>
    let x := s.core c k
    let inSubmit := match x.freeze with
      | .drainSubmit _ _ => true
      | .preDrain b => b
      | _ => false
    if (x.st == .running || x.st == .halted) && x.cancel && x.wbPend.isNone && (inSubmit || (x.freeze == .none && !x.heldOff)) then
      s.coreStop c k .none
    else s

/-- `HALT_ACCEPT`: from a debugger that `SEC.DBG` authorises to halt cores. -/
def execHaltAccept (c k : Nat) (s : State) : Answer :=
  pcmd (decide (c < 12) && decide (k < 8)) s fun s =>
    let x := s.core c k
    if s.rdB Reg.secDbg 3 && x.st == .running && x.freeze == .none && !x.heldOff && x.wbPend.isNone then
      s.setCore c k { x.landAll with st := .halted }
    else s

/-- `HALT_RESUME`. -/
def execHaltResume (c k : Nat) (s : State) : Answer :=
  pcmd (decide (c < 12) && decide (k < 8)) s fun s =>
    let x := s.core c k
    if x.st = .halted then s.setCore c k { x with st := .running } else s

/-! ### PM invalidation (R116) -/

/-- `PM_INV_DONE`: the unlocked lines of the named cores are gone, and BUSY reads 0. -/
def execPmInvDone (c : Nat) (s : State) : Answer :=
  pcmd (decide (c < 12)) s fun s =>
    if !s.rdB (Reg.dspcPmInv c) 31 then s
    else
      let mask := s.rdF (Reg.dspcPmInv c) 7 0
      ((List.range 8).foldl (fun (s : State) k => if tb mask k then s.setCore c k { s.core c k with pm := [] } else s) s).wr
        (Reg.dspcPmInv c) 0

end Sys2Proof.Machine
end

