-- ==== Sys2Proof/Machine/TrellisPorts.lean ====
section
/-! DEFINITION. Trellis memory ports (R400, R403): requests taken from the fabric's cells, performed in order, and their responses. -/

namespace Sys2Proof.Machine

/-- The requests that a port has taken and not yet answered, oldest first. -/
def State.portReqs (s : State) (d : Nat) : List MemPortReq := mget (fun _ => []) s.trl.reqs d

def State.setPortReqs (s : State) (d : Nat) (l : List MemPortReq) : State :=
  { s with trl := { s.trl with reqs := mput (fun _ => []) s.trl.reqs d l } }

/-- The request that the port's cells present: row 192 its kind, rows 193 to 195 its address, rows 196 to 199 its data (R400). -/
def State.portRequest (s : State) (d : Nat) : MemPortReq :=
  let c := 16 * d + 7
  let q := s.cellQ c 192
  let size := if tb q 2 then 4 else 8
  let a := s.cellQ c 193 + s.cellQ c 194 * 65536 + s.cellQ c 195 * 2 ^ 32
  let v := s.cellQ c 196 + s.cellQ c 197 * 65536 + s.cellQ c 198 * 2 ^ 32 + s.cellQ c 199 * 2 ^ 48
  { addr := a / size * size, size := size, discard := false, write := tb q 1, data := if tb q 1 then leBytes size v else [] }

/-- `MEM_PORT_REQUEST`: in a cycle in which request and ready are both 1; at most 16 requests wait. -/
def State.memPortTake (s : State) (d : Nat) (ready : Bool) : State :=
  let p := 8 + d
  let s := { s with trl := { s.trl with notReady := if ready then sdel s.trl.notReady p else sins s.trl.notReady p } }
  if !ready || !s.wesOpen (2 * d) || s.cellQ (16 * d + 7) 192 % 2 = 0 || decide (16 ≤ (s.portReqs d).length) then s
  else s.setPortReqs d (s.portReqs d ++ [s.portRequest d])

def execMemPortRequest (d : Nat) (ready : Bool) (s : State) : Answer := pcmd (decide (d < 4)) s fun s => s.memPortTake d ready

/-- The error flag of a port and the address that raised it first (R418). -/
def State.portError (s : State) (d a : Nat) : State :=
  if s.rdB (Reg.trlDpErr d) 31 then s
  else (s.wr (Reg.trlDpErr d) (2 ^ 31)).wrPair (Reg.trlDpErraddrLo d) (Reg.trlDpErraddrHi d) 16 a

/-- A request performed: the data that its response carries (2^64 for a write) and the error bit. CSR space takes reads only. What
the error bit shows for uncorrectable data is not stated. -/
def State.memPortDo (s : State) (d : Nat) (q : MemPortReq) : (Nat × Bool) × State :=
  if q.write then
    if inCsr q.addr then ((2 ^ 64, true), (s.aerr .trl (if q.size = 4 then 4 else 2) true false q.addr).portError d q.addr)
    else
      match s.devWrite .trl q.addr q.data with
      | (.ok, s) => ((2 ^ 64, false), s)
      | (.err _, s) => ((2 ^ 64, true), s.portError d q.addr)
      | (.ue _, s) => let (x, s) := s.free 2; ((2 ^ 64, x == 1), s)
  else
    match s.devRead .trl q.addr q.size with
    | (.ok bs, s) => ((ofLe bs, false), s)
    | (.err _, s) => ((0, true), s.portError d q.addr)
    | (.ue _, s) => let (x, s) := s.free 2; ((0, x == 1), s)

/-- `MEM_PORT_RESPONSE`: the oldest request is performed and its response shown, unless its region has been held (R411). -/
def State.memPortAnswer (s : State) (d : Nat) : State :=
  match s.portReqs d, s.dpResp d with
  | q :: qs, none =>
    if s.dramWaits q.write q.addr q.size then s
    else
      let (r, s) := (s.setPortReqs d qs).memPortDo d q
      if q.discard then s else { s with trl := { s.trl with resp := mput (fun _ => none) s.trl.resp d (some r) } }
  | _, _ => s

def execMemPortResponse (d : Nat) (s : State) : Answer := pcmd (decide (d < 4)) s fun s => s.memPortAnswer d

end Sys2Proof.Machine
end

