-- ==== Sys2Proof/Machine/Access.lean ====
section
/-! DEFINITION. A register access as a command of its initiator: the access (R4 to R8), and what the initiator receives where it ends in
an access error (R21). -/

namespace Sys2Proof.Machine

/-! ### What each initiator is told (R21) -/

/-- The access that a running core's load or store at an address makes; the L slot it stands in is not an operand (log entry 49). -/
def coreAccess (slot : Nat) (write : Bool) (a n : Nat) : Access :=
  { slot := slot, addr := a, size := n, es := n, align := n, store := write, op := .nop }

/-- How an access ends for its initiator: well, in an access error, or at uncorrectable data. -/
inductive Told | ok | err | ue
  deriving DecidableEq, Repr

/-- An access of a core that runs a task: what AG finds is the core fault that stops it, and is not issued (R140); any other access error is
AERR, uncorrectable data DATA_UE, and a narrow write that meets it DEFERRED (R292, R293). -/
def State.coreTells (s : State) (c k : Nat) (write : Bool) (a n : Nat) (go : State → Told × State) : State :=
  if (s.core c k).st ≠ .running then (go s).2
  else
    let (slot, s) := s.free 2
    let acc := coreAccess (2 + slot) write a n
    match s.agFault (s.core c k) c k acc with
    | some (f, some kind) => (s.aerr (.dsp c k) kind write false f.addr).coreFault c k f
    | some (f, none) => s.coreFault c k f
    | none =>
      match go s with
      | (.ok, s) => s
      | (.err, s) => s.coreFault c k (acc.fault 2 a)
      | (.ue, s) => if write then s.wbFailed c k (a, n) else s.coreFault c k (acc.fault 5 a)

/-- The descriptor that a channel performs ends in error with the faulting address (R282); whether source units were left unissued is not
an operand. -/
def State.channelTold (s : State) (ch : Nat) (write : Bool) (a : Nat) (r : Told) : State :=
  let x := s.dctAt ch
  if x.phase = .ready ∧ r ≠ .ok then
    let (left, s) := s.free 2
    s.dctFailed ch (0x11 + left) ((if write then 2 else 1) + if r = .ue then 2 else 0) a
  else s

/-- The job that an engine runs ends in a memory error at the address (R186). -/
def State.engineTold (s : State) (e a : Nat) (r : Told) : State :=
  match r, (s.engAt e).st, (s.engAt e).job with
  | .ok, _, _ => s
  | _, .running, some j => s.setJobOf e { j with summary := if r = .ue then 0x12 else 0x11, detail := 0, faultAddr := a }
  | _, _, _ => s

/-- The memory port of Trellis that issued an access: the one whose oldest request it is, or else one that no operand names. -/
def State.portOf (s : State) (a : Nat) (write : Bool) : Nat × State :=
  match (List.range 4).find? fun d => (s.portReqs d).head?.any fun q => q.addr == a && q.write == write with
  | some d => (d, s)
  | none => s.free 4

/-! ### The commands -/

/-- How many bytes a command's access moves: CSR space refuses every size but 4 (R7), and BAR2/3 takes any up to the max payload
size (R27). -/
def State.accessSize (s : State) (i : Init) (sp : Space) (a n : Nat) : Nat :=
  match i, sp with
  | .host, .dev => if inCsr a then min n 64 else min n s.maxPayload
  | _, .cfg => min n (4 - a % 4)
  | _, _ => min n 64

/-- An access and how it ends; the data of a read is given to the outside, zero where it met an error. A Decant channel's access is its
descriptor's, and an engine reaches memory alone (R184, R259). -/
def State.issueCmd (s : State) (i : Init) (sp : Space) (a n : Nat) (data : Option Nat) : Told × State :=
  let n := s.accessSize i sp a n
  match data with
  | some v =>
    let bs := leBytes n v
    let (r, s) :=
      match i with
      | .dct ch => s.dctWrite ch (csrOpen ch (s.dctAt ch).desc) a bs
      | .eng _ => s.busWrite i a bs
      | _ => s.store i sp a bs
    match r with
    | .ok => (.ok, s)
    | .err _ => (.err, s)
    | .ue _ => (.ue, s)
  | none =>
    let (r, s) :=
      match i with
      | .dct ch => s.dctRead ch (csrOpen ch (s.dctAt ch).desc) a n
      | .eng _ => s.busRead i a n
      | _ => s.access i sp a n
    match r with
    | .ok bs => (.ok, s.emit (.value (ofLe bs)))
    | .err _ => (.err, s.emit (.value 0))
    | .ue _ => (.ue, s.emit (.value 0))

/-- A command's access, and what its initiator receives of an error (R21, R292, R293): a DSP core its fault, a Decant channel and an engine the
end of what they run, Trellis the flag of the port; the host only the zero data; a control core or the barrier block an exception, or for a
narrow write that met uncorrectable data the memory-error interrupt. -/
def State.accessCmd (s : State) (i : Init) (sp : Space) (a n : Nat) (data : Option Nat) : State :=
  if !s.reaches i sp a || (sp == .dev && s.dramWaits data.isSome a (min n 64)) then s
  else
    match i with
    | .host => (s.issueCmd i sp a n data).2
    | .dsp c k => s.coreTells c k data.isSome a n fun s => s.issueCmd i sp a n data
    | .dct ch =>
      let r := s.issueCmd i sp a n data
      r.2.channelTold ch data.isSome a r.1
    | .eng e =>
      let r := s.issueCmd i sp a n data
      r.2.engineTold e a r.1
    | .trl =>
      let (d, s) := s.portOf a data.isSome
      let r := s.memPortDo d { addr := a, size := n, discard := false, write := data.isSome, data := leBytes (min n 64) (data.getD 0) }
      if data.isSome then r.2 else r.2.emit (.value r.1.1)
    | _ =>
      match s.issueCmd i sp a n data with
      | (.ok, s) => s
      | (.err, s) => s.emit .error
      | (.ue, s) => s.emit (if data.isSome then .memError else .error)

/-- `REGISTER_WRITE`. -/
def execRegisterWrite (i : Init) (sp : Space) (addr size v : Nat) (s : State) : Answer :=
  otpCmd i.wf s fun s => live s fun s => s.accessCmd i sp addr size (some v)

/-- `RC_COUNTER_READ`. -/
def execRcCounterRead (i : Init) (sp : Space) (addr size : Nat) (s : State) : Answer :=
  pcmd i.wf s fun s => s.accessCmd i sp addr size none

/-- `LO_READ_LATCH`. -/
def execLoReadLatch (i : Init) (sp : Space) (addr size : Nat) (s : State) : Answer :=
  pcmd i.wf s fun s => s.accessCmd i sp addr size none

/-- `HI_WRITE_COMMIT`. -/
def execHiWriteCommit (i : Init) (sp : Space) (addr size v : Nat) (s : State) : Answer :=
  otpCmd i.wf s fun s => live s fun s => s.accessCmd i sp addr size (some v)

/-- `PM_INV_WRITE`. -/
def execPmInvWrite (i : Init) (c : Nat) (v : Word) (s : State) : Answer :=
  pcmd (i.wf && decide (c < 12)) s fun s => s.accessCmd i .dev (0x20000000 + Reg.dspcPmInv c) 4 (some v.toNat)

end Sys2Proof.Machine
end

