-- ==== Sys2Proof/Machine/EngineEnd.lean ====
section
/-! DEFINITION. The commands that use what stands in an engine's buffers: the end of a job whose output waits there, and the start of a burst
(R189, R245, R292). -/

namespace Sys2Proof.Machine

/-- The output that waits in an engine's buffers is used: an uncorrectable word of it is a unit fault of the engine (R292). -/
def State.engBufferBad (s : State) (e : Nat) : Bool × State :=
  match (s.engAt e).job with
  | some j =>
    match j.out with
    | some (_, bs, _) => s.bufferUse (bufferErr (s.engPhys e) 0) bs.length
    | none => (false, s)
  | none => (false, s)

/-- `ENGINE_JOB_END`. -/
def execEngineJobEnd (e : Nat) (ok : Bool) (s : State) : Answer :=
  pcmd (decide (e < 76)) s fun s =>
    match s.engBufferBad e with
    | (true, s) => s.unitFault (.engine e) 0x20 false
    | (false, s) => s.engJobEnd e ok

/-- The data of a burst is used from its NFE's buffers. -/
def State.burstBufferBad (s : State) (n ctx : Nat) : Bool × State :=
  match s.burstAt n ctx with
  | some b =>
    if b.phase = .scheduled then s.bufferUse (bufferErr (s.engPhys (76 + n)) (ctx * 4096)) b.data.length else (false, s)
  | none => (false, s)

/-- `BURST_START`. -/
def execBurstStart (n ctx : Nat) (s : State) : Answer :=
  pcmd (decide (n < 4) && decide (ctx < 64)) s fun s =>
    match s.burstBufferBad n ctx with
    | (true, s) => s.unitFault (.burst n ctx) 0x20 false
    | (false, s) => s.burstStart n ctx

end Sys2Proof.Machine
end

