-- ==== Sys2Proof/Machine/Fronthaul.lean ====
section
/-! DEFINITION. The fronthaul block (R336 to R345, R378, R379): frames and stamps, receive windows, landing, egress and time-domain
streams. -/

namespace Sys2Proof.Machine

/-! ### Ports, MACs and stamps -/

/-- The MACs of a port in order: group, first position and mode (R337); NLANES > 1 in a one-lane mode makes one MAC per lane (R356). -/
def State.portMacs (s : State) (p : Nat) : List (Nat × Nat × Nat) :=
  (s.front.links.filter fun k => k.port == p && 1 ≤ k.mode && decide (k.mode ≤ 4)).flatMap fun k =>
    if k.mode = 4 then [(k.group, k.first, 4)] else (List.range k.lanes).map fun i => (k.group, k.first + i, k.mode)

/-- The capacity of a port in Mb/s: 90 % of its MACs' data rates. -/
def State.portCapacity (s : State) (p : Nat) : Nat :=
  ((s.portMacs p).map fun m => match m.2.2 with | 1 => 9000 | 4 => 90000 | _ => 22500).sum

/-- The physical lane of a MAC: the first lane of its link. -/
def State.macLane (s : State) (m : Nat × Nat × Nat) : Nat × Nat := (m.1, s.laneAt m.1 m.2.1)

/-- The fixed latencies of R344 in ps: transmit and receive. -/
def macLatency : Nat → Nat × Nat
  | 1 => (61400, 82600)
  | 2 => (24600, 33100)
  | 3 => (24600, 33100 + 56300)
  | _ => (31000, 120500)

/-- Picoseconds in 2^-16 ns, to the nearest. -/
def psFr16 (ps : Nat) : Nat := (ps * 65536 + 500) / 1000

/-- A stamp record (R378) of a time in 2^-16 ns. -/
def stampRecord (t tag whr : Nat) : List Byte :=
  let ns := t / 65536
  leBytes 6 (ns / 1000000000) ++ leBytes 4 (ns % 1000000000) ++ leBytes 2 (t % 65536) ++ leBytes 2 tag ++ leBytes 2 whr

/-! ### Received frames (R336, R338, R345) -/

/-- A big-endian 16-bit field of a frame. -/
def be16 (bs : List Byte) (off : Nat) : Nat := (bs.getD off 0).toNat * 256 + (bs.getD (off + 1) 0).toNat

/-- The Ethertype after up to two IEEE 802.1Q tags, and where its payload begins. -/
def ethertype (bs : List Byte) : Nat × Nat :=
  let tag := fun t => decide (t = 0x8100 ∨ t = 0x88A8)
  if tag (be16 bs 12) then
    if tag (be16 bs 16) then (be16 bs 20, 22) else (be16 bs 16, 18)
  else (be16 bs 12, 14)

/-- The UDP destination port of a frame, and where the datagram's payload begins. -/
def udpPort (bs : List Byte) : Option (Nat × Nat) :=
  let (ty, o) := ethertype bs
  if ty = 0x0800 ∧ (bs.getD (o + 9) 0).toNat = 17 then
    let h := o + (bs.getD o 0).toNat % 16 * 4
    some (be16 bs (h + 2), h + 8)
  else if ty = 0x86DD ∧ (bs.getD (o + 6) 0).toNat = 17 then some (be16 bs (o + 42), o + 48)
  else none

/-- An IPv4 header without options of a datagram that is no fragment (R338). -/
def plainIpv4 (bs : List Byte) (o : Nat) : Bool := (bs.getD o 0).toNat == 0x45 && be16 bs (o + 6) % 0x4000 == 0

/-- Where the eCPRI message of a frame begins (R338): by the port's transport, over UDP on the IP version that it names, protocol revision 1. -/
def State.ecpriAt (s : State) (p : Nat) (bs : List Byte) : Option Nat :=
  match mget (fun _ => none) s.front.ports p with
  | none => none
  | some c =>
    let (ty, o) := ethertype bs
    let here := fun (ok : Bool) => match udpPort bs with | some (q, at') => if ok && q == c.udp then some at' else none | none => none
    let r := match c.transport with
      | 0 => if ty = 0xAEFE then some o else none
      | 1 => here (ty == 0x0800 && plainIpv4 bs o)
      | 2 => here (ty == 0x86DD)
      | _ => none
    match r with
    | some o => if (bs.getD o 0).toNat / 16 = 1 then some o else none
    | none => none

/-- The eCPRI messages of a frame, one after another while the header says that another follows: type and bytes. Their lengths are rounded up
to four bytes (PRESUMED of the eCPRI specification, log entry 49). -/
def ecpriMessages : Nat → List Byte → List (Nat × List Byte)
  | 0, _ => []
  | n + 1, bs =>
    if bs.length < 4 then []
    else
      let len := 4 + be16 bs 2
      ((bs.getD 1 0).toNat, bs.take len) :: if (bs.getD 0 0).toNat % 2 = 1 then ecpriMessages n (bs.drop ((len + 3) / 4 * 4)) else []

/-- An IEEE 1588 event message, over Ethernet or over UDP (R345). -/
def ptpEvent (bs : List Byte) : Bool :=
  let (ty, o) := ethertype bs
  if ty = 0x88F7 then decide ((bs.getD o 0).toNat % 16 < 4)
  else match udpPort bs with
    | some (q, o) => (q == 319 || q == 320) && decide ((bs.getD o 0).toNat % 16 < 4)
    | none => false

/-- A frame of IEEE 1914.3 on a port of that transport: the fronthaul block handles it. -/
def State.isRoe (s : State) (p : Nat) (bs : List Byte) : Bool :=
  match mget (fun _ => none) s.front.ports p with
  | some c => c.transport == 3 && (ethertype bs).1 == 0xFC3D
  | none => false

/-- What a frame gives to the firmware, stamped or not: of an eCPRI frame the messages but type 0, of which type 5 is stamped; of the frames
that are neither eCPRI nor IEEE 1914.3 the whole. -/
def State.forFirmware (s : State) (p : Nat) (bs : List Byte) : List (Bool × List Byte) :=
  match s.ecpriAt p bs with
  | some o => ((ecpriMessages 2400 (bs.drop o)).filter fun m => m.1 != 0).map fun m => (m.1 == 5, m.2)
  | none => if s.isRoe p bs then [] else [(ptpEvent bs, bs)]

/-- Something passed to the firmware through a port's control queue. -/
def State.toInbox (s : State) (p : Nat) (bs : List Byte) : State :=
  { s with front := { s.front with inbox := s.front.inbox ++ [(p, bs)] } }

/-- A frame on MAC `mac` of a port, its SFD at MAC time `time` in 2^-16 ns: a bad FCS drops it; what R345 stamps reaches the firmware with its
record in front, U-plane data goes to the fronthaul block, the rest to the firmware. -/
def State.frameRx (s : State) (p mac : Nat) (bs : List Byte) (fcsOk : Bool) (time errs fc fu : Nat) : State :=
  match (s.portMacs p)[mac]? with
  | none => s
  | some m =>
    let (g, l) := s.macLane m
    if !s.linkIsUp g l then s
    else
      let s := (s.laneErr g l errs).laneFec g l fc fu
      if !fcsOk then s.count (Reg.fhmPortFcsDrop p) 1
      else if bs.length < 64 ∨ 9600 < bs.length then s
      else
        let s := ((s.count (Reg.fhmPortRxFrames p) 1).tally 7 p 0 1).tally 7 p 1 bs.length
        let (_, rx, s) := s.gbx
        let r := stampRecord (time - psFr16 (macLatency m.2.2).2 - psFr16 rx) 0 (g * 17 + l)
        (s.forFirmware p bs).foldl (fun s f => s.toInbox p (if f.1 then r ++ f.2 else f.2)) s

def execEthFrameRx (p mac : Nat) (bytes : List Byte) (fcsOk : Bool) (time errs fc fu : Nat) (s : State) : Answer :=
  pcmd (decide (p < 64) && decide (mac < 16)) s fun s => s.frameRx p mac bytes fcsOk time errs fc fu

/-- A MAC whose link is up and whose transmitter is awake (R330). -/
def State.macSends (s : State) (m : Nat × Nat × Nat) : Bool :=
  let (g, l) := s.macLane m
  s.linkIsUp g l && (s.linkLanes g l).all fun i => !s.rdB (Reg.laneCtrl g i) 0

/-- A stamp record put into the TX stamp ring at PI, or lost where the ring is full or its write fails (R379). LOG2 is held to 4 to 12. -/
def State.stampRing (s : State) (r : List Byte) : State :=
  let size := 2 ^ max 4 (min 12 (s.rdF Reg.mrdTsrLog2 3 0))
  let pi := s.rdF Reg.mrdTsrPi 15 0
  if (pi + 65536 - s.rdF Reg.mrdTsrCi 15 0) % 65536 = size then s.count Reg.mrdTsrLost 1
  else
    match s.memWrite (s.rdPair Reg.mrdTsrBaseLo Reg.mrdTsrBaseHi + pi % size * 16) r with
    | (.ok, s) => s.wr Reg.mrdTsrPi ((pi + 1) % 65536)
    | (_, s) => s.count Reg.mrdTsrLost 1

/-- A marked frame sent: its stamp record enters the TX stamp ring, or is lost (R379). The frame is the firmware's: how many bytes it has is
free. -/
def State.txStamp (s : State) (p mac tag time : Nat) : State :=
  match (s.portMacs p)[mac]? with
  | none => s
  | some m =>
    let (g, l) := s.macLane m
    if !s.macSends m then s
    else
      let len := s.free 9537
      let s := ((len.2.count (Reg.fhmPortTxFrames p) 1).tally 7 p 5 1).tally 7 p 6 (64 + len.1)
      let (tx, _, s) := s.gbx
      s.stampRing (stampRecord (time + psFr16 (macLatency m.2.2).1 + psFr16 tx) tag (32768 + g * 17 + l))

def execEthFrameTxStamp (p mac tag time : Nat) (s : State) : Answer :=
  pcmd (decide (p < 64) && decide (mac < 16)) s fun s => s.txStamp p mac tag time

/-! ### Streams (R339) -/

def State.stream? (s : State) (st : Nat) : Option StreamCfg := mget (fun _ => none) s.front.streams st

/-- The streams bound to a carrier in one direction, by number. -/
def State.carrierStreams (s : State) (c dir : Nat) : List (Nat × StreamCfg) :=
  s.front.streams.filterMap fun e =>
    match e.2 with
    | some k => if k.use == 0 && k.carrier == c && k.dir == dir then some (e.1, k) else none
    | none => none

/-- The stream that an identifier names on a port, inbound. -/
def State.streamOf (s : State) (p ident : Nat) : Option (Nat × StreamCfg) :=
  (s.front.streams.filterMap fun e => e.2.map fun k => (e.1, k)).find? fun e => e.2.port == p && e.2.ident == ident && e.2.dir == 0

/-- N_PRB of a carrier. -/
def State.carrierPrbs (s : State) (c : Nat) : Nat :=
  match s.carrier? c with
  | some k => leAt k.cfg 4 2
  | none => 0

/-! ### Uplink windows (R340) -/

/-- The symbol lies in a frame that the armed timeline drives. -/
def State.drives (s : State) (c sym : Nat) : Bool :=
  s.armed c && decide ((s.tl c).fromFrame ≤ sym / (14 * slotsPerFrame (s.tlMu c)))

/-- A signed register of the timeline page in force for a symbol. -/
def State.symbolReg (s : State) (c sym off : Nat) : Int := sx 32 (s.tlRd c (sym / (14 * slotsPerFrame (s.tlMu c))) off)

/-- When the window of a symbol opens: its air time plus RXWIN_OPEN. -/
def State.windowOpens (s : State) (c sym : Nat) : Nat := s.symbolTime c sym (-(s.symbolReg c sym (Reg.mrdTlRxwinOpen c)))

/-- When it closes: the symbol's end plus RXWIN_CLOSE. -/
def State.windowCloses (s : State) (c sym : Nat) : Nat := s.symbolTime c (sym + 1) (-(s.symbolReg c sym (Reg.mrdTlRxwinClose c)))

def State.window? (s : State) (c sym : Nat) : Option RxWindow := s.front.windows.find? fun w => w.carrier == c && w.symbol == sym

/-- A window's record replaced. -/
def State.setWindow (s : State) (w : RxWindow) : State :=
  { s with front := { s.front with windows := s.front.windows.map fun x => if x.carrier = w.carrier ∧ x.symbol = w.symbol then w else x } }

/-- `RX_WINDOW_OPEN`: for a symbol of a slot with its UL bit set (R381). -/
def State.openWindow (s : State) (c sym : Nat) : State :=
  if !s.drives c sym || !s.slotUl c (sym / 14) || (s.window? c sym).isSome then s
  else
    let s := s.until (s.windowOpens c sym)
    { s with front := { s.front with windows := s.front.windows ++ [{ carrier := c, symbol := sym, landed := [], posted := false }] } }

def execRxWindowOpen (c sym : Nat) (s : State) : Answer := pcmd (decide (c < 384)) s fun s => s.openWindow c sym

/-- Zeros for a PRB that was not received, at the address that the firmware sets (log entries 1, 52). -/
def State.landZeros (s : State) (st sym prb : Nat) : State :=
  match s.fhChannel with
  | (none, s) => s
  | (some ch, s) => (s.busWrite (.dct ch) ((Config.landAddr st sym).toNat + prb * 48) (List.replicate 48 0)).2

/-- The symbol's arrival flag posted in the carrier's group. -/
def State.arrive (s : State) (c sym : Nat) : State :=
  let e := Config.arrivalEvent c sym
  s.post e.1.toNat (2 ^ e.2.toNat)

/-- The PRBs of a symbol that have not landed. -/
def State.missingPrbs (s : State) (w : RxWindow) : List (Nat × StreamCfg × Nat) :=
  (s.carrierStreams w.carrier 0).flatMap fun e =>
    ((List.range (s.carrierPrbs w.carrier)).filter fun prb => !w.landed.contains (e.1, prb)).map fun prb => (e.1, e.2, prb)

/-- One section landed by a descriptor that decompresses it, class SC0: the state, and the PRBs that it marks as landed where it ended well
(log entry 52). -/
def State.landSection (s : State) (st sym w n start : Nat) (bs : List Byte) : State × List (Nat × Nat) :=
  let k := min (n - start) (bs.length / (1 + 3 * w))
  match decide (k = 0), s.fhChannel with
  | false, (some ch, s) =>
    let d := fhDesc true st ((Config.landAddr st sym).toNat + start * 48) (48 * k) 0 5 (w % 16)
    let (ok, s) := s.fhIngress ch d (bs.take (k * (1 + 3 * w)))
    (s, if ok then (List.range k).map fun i => (st, start + i) else [])
  | _, _ => (s, [])

/-- A message whose identifier matches no stream, as far as the command's operands carry it: the identifier and the sections' data (R339). -/
def unknownMessage (ident : Nat) (secs : List (Nat × Nat × List Byte)) : List Byte :=
  (leBytes 2 ident).reverse ++ secs.flatMap fun e => e.2.2

/-- The sections of a message landed one after another, each of its own width where the port has no static one: the PRBs that they land. -/
def State.landSections (s : State) (st sym static carrier : Nat) (secs : List (Nat × Nat × List Byte)) : State × List (Nat × Nat) :=
  secs.foldl (fun (a : State × List (Nat × Nat)) sec =>
    let w := if static = 0 then sec.2.1 else static
    if w = 0 ∨ 16 < w then a
    else
      let r := a.1.landSection st sym w (a.1.carrierPrbs carrier) sec.1 sec.2.2
      (r.1, a.2 ++ r.2)) (s, [])

/-- A U-plane message of stream identifier `id` for symbol `sym`: sections of first PRB, width and compressed PRBs. Outside the window it
is dropped and counted; when every bound stream has landed every PRB, the arrival flag is posted. -/
def State.uplane (s : State) (p ident sym : Nat) (secs : List (Nat × Nat × List Byte)) : State :=
  match s.streamOf p ident with
  | none => (s.count (Reg.fhmPortUnknown p) 1).toInbox p (unknownMessage ident secs)
  | some (st, k) =>
    if k.use ≠ 0 then s
    else
      match s.window? k.carrier sym with
      | none =>
        if s.mrd.time < s.windowOpens k.carrier sym then (s.count (Reg.fhmPortEarly p) 1).tally 7 p 4 1
        else (s.count (Reg.fhmPortLate p) 1).tally 7 p 3 1
      | some win =>
        let static := match mget (fun _ => none) s.front.ports p with | some c => c.staticW | none => 0
        let (s, got) := s.landSections st sym static k.carrier secs
        let landed := got.foldl (fun l e => if l.contains e then l else l ++ [e]) win.landed
        let full := (s.missingPrbs { win with landed := landed }).isEmpty
        let s := s.setWindow { win with landed := landed, posted := win.posted || full }
        if full && !win.posted then s.arrive k.carrier sym else s

def execUplaneMessage (p id sym : Nat) (secs : List (Nat × Nat × List Byte)) (s : State) : Answer :=
  pcmd (decide (p < 64)) s fun s => s.uplane p id sym secs

/-- `RX_WINDOW_CLOSE`: zeros in every PRB not received, counted in MISSING, and the arrival flag if it is still owed. -/
def State.closeWindow (s : State) (c sym : Nat) : State :=
  match s.window? c sym with
  | none => s
  | some w =>
    let s := s.until (s.windowCloses c sym)
    let gone := if w.posted then [] else s.missingPrbs w
    let s := gone.foldl (fun s e =>
      ((s.landZeros e.1 sym e.2.2).count (Reg.fhmPortMissing e.2.1.port) 1).tally 7 e.2.1.port 2 1) s
    let s := { s with front := { s.front with
      windows := s.front.windows.filter fun x => !(x.carrier == c && x.symbol == sym)
      missing := mmod (fun _ => 0) s.front.missing c fun n => (n + gone.length) % 2 ^ 32 } }
    if w.posted then s else s.arrive c sym

def execRxWindowClose (c sym : Nat) (s : State) : Answer := pcmd (decide (c < 384)) s fun s => s.closeWindow c sym

/-! ### Frames sent (R336, R338) -/

/-- An 802.1Q tag where the port has one (R356). -/
def vlanTag (c : PortCfg) : List Byte := if c.vlan = 0 then [] else beBytes 2 0x8100 ++ beBytes 2 c.vlan

/-- What stands between the tag and a message: the Ethertype, and for UDP its headers. Fields of the IP and UDP headers that the specification
does not give are free (PRESUMED of the IP layout, log entry 49). -/
def State.transportHead (s : State) (c : PortCfg) (n : Nat) : List Byte × State :=
  match c.transport with
  | 0 => (beBytes 2 0xAEFE, s)
  | 3 => (beBytes 2 0xFC3D, s)
  | 1 =>
    let r := s.freeBytes 9
    let f := r.1
    (beBytes 2 0x0800 ++ [0x45] ++ f.take 1 ++ beBytes 2 (n + 28) ++ (f.drop 1).take 2 ++ [0, 0] ++ (f.drop 3).take 1 ++ [17] ++ (f.drop 4).take 2 ++
      leBytes 4 (c.localIp % 2 ^ 32) ++ leBytes 4 (c.peerIp % 2 ^ 32) ++ beBytes 2 c.udp ++ beBytes 2 c.udp ++ beBytes 2 (n + 8) ++ (f.drop 6).take 2,
      r.2)
  | _ =>
    let r := s.freeBytes 7
    let f := r.1
    (beBytes 2 0x86DD ++ [0x60] ++ f.take 3 ++ beBytes 2 (n + 8) ++ [17] ++ (f.drop 3).take 1 ++ leBytes 16 c.localIp ++ leBytes 16 c.peerIp ++
      beBytes 2 c.udp ++ beBytes 2 c.udp ++ beBytes 2 (n + 8) ++ (f.drop 4).take 2, r.2)

/-- The head of a U-plane or time-domain message of `n` bytes of data: the eCPRI or RoE header with the stream's identifier. A sequence number
that R342 counts stands in it; another is free, as are the header fields that the specification leaves to O-RAN (log entry 49). -/
def State.messageHead (s : State) (c : PortCfg) (ident : Nat) (seq : Option Nat) (extra n : Nat) : List Byte × State :=
  let r := s.freeBytes (4 + extra)
  if c.transport = 3 then
    (r.1.take 1 ++ leBytes 1 ident ++ beBytes 2 (n + extra) ++ (seq.elim ((r.1.take 4)) (beBytes 4)) ++ r.1.drop 4, r.2)
  else ([0x10, 0x00] ++ beBytes 2 (4 + extra + n) ++ beBytes 2 ident ++ (seq.elim (r.1.take 2) (beBytes 2)) ++ r.1.drop 4, r.2)

/-- One message in a frame of its own: addresses, one tag, transport, data, padding to the least size, FCS; it is counted. -/
def State.sendMessage (s : State) (p mac : Nat) (c : PortCfg) (ident : Nat) (seq : Option Nat) (extra : Nat) (data : List Byte) : State :=
  let (head, s) := s.messageHead c ident seq extra data.length
  let (net, s) := s.transportHead c (head.length + data.length)
  let f := leBytes 6 c.peerMac ++ leBytes 6 c.localMac ++ vlanTag c ++ net ++ head ++ data
  let f := f ++ List.replicate (60 - f.length) 0
  let f := f ++ leBytes 4 (crc32 f)
  (((s.count (Reg.fhmPortTxFrames p) 1).tally 7 p 5 1).tally 7 p 6 f.length).emit (.frame p mac f)

/-- The MAC of a stream that sends: it exists, its link is up and it is awake. -/
def State.streamSends (s : State) (k : StreamCfg) : Option PortCfg :=
  match mget (fun _ => none) s.front.ports k.port, (s.portMacs k.port)[k.mac]? with
  | some c, some m => if s.macSends m then some c else none
  | _, _ => none

/-- A symbol's compressed PRBs sent in frames of at most 9,600 bytes; how many PRBs each carries the specification does not say. -/
def State.sendPrbs (p mac : Nat) (c : PortCfg) (ident extra per : Nat) : Nat → State → List Byte → State
  | 0, s, _ => s
  | n + 1, s, bs =>
    if bs.isEmpty then s
    else
      let r := s.free ((9600 - 128) / per)
      let k := (r.1 + 1) * per
      State.sendPrbs p mac c ident extra per n (r.2.sendMessage p mac c ident none extra (bs.take k)) (bs.drop k)

/-! ### Downlink egress (R341) -/

/-- The PRBs of a stream's symbol read from cellar memory and compressed by a descriptor of class SC0. -/
def State.egressPrbs (s : State) (st sym w n ch : Nat) : List Byte × State :=
  if n = 0 then ([], s)
  else
    let (bs, _, s) := s.fhEgress ch (fhDesc false (Config.egressAddr st sym).toNat st (48 * n) 0 6 (w % 16))
    (bs, s)

/-- One stream's symbol sent: read, compressed, in frames. Without a static width the section says it, of which no rule gives the choice. -/
def State.egressStream (s : State) (st sym c ch : Nat) (k : StreamCfg) (pc : PortCfg) : State :=
  let r := s.free 16
  let w := if pc.staticW = 0 then r.1 + 1 else pc.staticW
  let s := if pc.staticW = 0 then r.2 else s
  let (prbs, s) := s.egressPrbs st sym w (s.carrierPrbs c) ch
  State.sendPrbs k.port k.mac pc k.ident (if pc.staticW = 0 then 10 else 8) (1 + 3 * w) (s.carrierPrbs c) (s.emit (.uplane st sym prbs)) prbs

/-- One stream of a symbol that starts, or is counted late: for want of time, of a channel of the fronthaul block or of a link. -/
def State.egressOne (s : State) (late : Bool) (sym c : Nat) (e : Nat × StreamCfg) : State :=
  match late, s.fhChannel, s.streamSends e.2 with
  | false, (some ch, s), some pc => s.egressStream e.1 sym c ch e.2 pc
  | _, _, _ => (s.count (Reg.fhmPortTxLate e.2.port) 1).tally 7 e.2.port 7 1

/-- `FH_EGRESS_START`: TX_ADVANCE before the symbol's air time. What cannot start by the air time, for want of time or of a link, is counted in
TX_LATE. -/
def State.egress (s : State) (c sym : Nat) : State :=
  if !s.drives c sym || !s.slotDl c (sym / 14) then s
  else
    let s := s.until (s.symbolTime c sym (s.symbolReg c sym (Reg.mrdTlTxAdvance c)))
    let late := decide (s.symbolTime c sym 0 < s.mrd.time)
    (s.carrierStreams c 1).foldl (fun s e => s.egressOne late sym c e) s

def execFhEgressStart (c sym : Nat) (s : State) : Answer := pcmd (decide (c < 384)) s fun s => s.egress c sym

/-! ### Time-domain streams (R342) -/

/-- Messages per 10 ms frame of a time-domain stream: FS × 10 ms / SPM. FS codes are those of the plan header (R225). -/
def tdMessages (fs spm : Nat) : Nat := if spm = 0 then 0 else fs / spm

/-- FS × 10 ms for an FS code: 1.92, 3.84, 7.68, 15.36 or 30.72 Msps (R225). -/
def fsSamples (code : Nat) : Nat := 19200 * 2 ^ min 4 code

/-- Samples per second for an FS code. -/
def fsRate (code : Nat) : Nat := fsSamples code * 100

/-- 10 ms in the units of Meridian time. -/
def frameTime : Nat := 10000000 * 2 ^ 32

/-- The time of a sample of a time-domain stream (R342): B + (k × SPM + i) / FS + OFFSET, in units of Meridian time, rounded down. -/
def tdTime (k : StreamCfg) (frame seq i : Nat) : Int :=
  Int.ofNat (frame * frameTime) + Int.ofNat ((seq * k.ant + i) * (1000000000 * 2 ^ 32) / fsRate k.carrier) + k.offset * 2 ^ 32

/-- The frame to which message `seq` belongs that arrives at `t`: the latest whose time for its first sample is not after the arrival. -/
def tdFrame (k : StreamCfg) (t seq : Nat) : Nat := ((Int.ofNat t - tdTime k 0 seq 0) / Int.ofNat frameTime).toNat

/-- Samples of a stream as they travel, four bytes each. -/
def samplesOf (bs : List Byte) : List (BitVec 32) := (List.range (bs.length / 4)).map fun i => BitVec.ofNat 32 (leAt bs (4 * i) 4)

def State.tdIn? (s : State) (st : Nat) : Option TdIn := mget (fun _ => none) s.front.td st

/-- Message `seq` of an inbound time-domain stream: its samples take their place in stream time. The samples between the message before and
this one are lost (R223); one that is not later than the message before is dropped. -/
def State.tdRx (s : State) (st seq : Nat) (bs : List Byte) : State :=
  match s.stream? st with
  | some k =>
    let n := tdMessages (fsSamples k.carrier) k.ant
    if k.use = 1 ∧ k.dir = 0 ∧ seq < n ∧ bs.length = 4 * k.ant then
      let f := tdFrame k s.mrd.time seq
      let pos := f * n + seq
      let put := fun lost => { s with front := { s.front with
        td := mput (fun _ => none) s.front.td st (some { frame := f, seq := seq, lost := lost, samples := samplesOf bs }) } }
      match s.tdIn? st with
      | none => put 0
      | some x =>
        let lost := (pos - (x.frame * n + x.seq) - 1) * k.ant
        match decide (pos ≤ x.frame * n + x.seq), s.nfeRx? st with
        | true, _ => s
        | false, some e => if lost = 0 then put x.lost else (put (x.lost + lost)).streamGap e lost
        | false, none => put (x.lost + lost)
    else s
  | none => s

def execTdStreamMessage (st seq : Nat) (bytes : List Byte) (s : State) : Answer :=
  pcmd (decide (st < 4096)) s fun s => s.tdRx st seq bytes

/-- When message number `pos`, counted over all frames, of an outbound stream is sent: its first sample's time less TX_ADVANCE. -/
def tdSendTime (st : Nat) (k : StreamCfg) (pos : Nat) : Nat :=
  let n := tdMessages (fsSamples k.carrier) k.ant
  (tdTime k (pos / n) (pos % n) 0 - Int.ofNat (Config.tdAdvance st)).toNat

/-- The first message of an outbound stream, from `pos` on, whose time to be sent has not passed. -/
def State.tdNextAt (s : State) (st : Nat) (k : StreamCfg) (pos : Nat) : Nat :=
  let n := tdMessages (fsSamples k.carrier) k.ant
  let t := Int.ofNat s.mrd.time + Int.ofNat (Config.tdAdvance st) - k.offset * 2 ^ 32
  max pos ((t * Int.ofNat (n * 100) + (1000000000 * 2 ^ 32 - 1)) / (1000000000 * 2 ^ 32)).toNat

/-- Samples one after another, and the state that they leave. -/
def State.nfeSamples (s : State) (n : Nat) (den : Nat) : List Int → List (BitVec 32) × State
  | [] => ([], s)
  | t :: ts =>
    let (v, s) := s.nfeSample n t den
    let (vs, s) := s.nfeSamples n den ts
    (v :: vs, s)

/-- The samples of message `pos` of an outbound stream: those of the NFE whose plan names it, or zeros without one (R222). Each stands at its
own time, in ns over the sample rate. -/
def State.tdSamples (s : State) (st pos : Nat) (k : StreamCfg) : List (BitVec 32) × State :=
  let n := tdMessages (fsSamples k.carrier) k.ant
  let fs := fsRate k.carrier
  match s.nfeTx? st with
  | none => (List.replicate k.ant 0, s)
  | some e => s.nfeSamples e fs ((List.range k.ant).map fun i =>
      ((pos / n * 10000000 : Nat) + k.offset) * (fs : Int) + (((pos % n * k.ant + i) * 1000000000 : Nat) : Int))

/-- The next message of an outbound time-domain stream is sent, at its time. -/
def State.tdTx (s : State) (st : Nat) : State :=
  match s.stream? st with
  | some k =>
    let n := tdMessages (fsSamples k.carrier) k.ant
    match decide (k.use = 1 ∧ k.dir = 1 ∧ n ≠ 0), s.streamSends k with
    | true, some c =>
      let pos := s.tdNextAt st k (mget (fun _ => 0) s.front.tdNext st)
      let s := s.until (tdSendTime st k pos)
      let (xs, s) := s.tdSamples st pos k
      let s := (s.emit (.td st (pos % n) xs)).sendMessage k.port k.mac c k.ident (some (pos % n)) 0 (xs.flatMap fun x => leBytes 4 x.toNat)
      { s with front := { s.front with tdNext := mput (fun _ => 0) s.front.tdNext st (pos + 1) } }
    | _, _ => s
  | none => s

def execTdStreamSend (st : Nat) (s : State) : Answer := pcmd (decide (st < 4096)) s fun s => s.tdTx st

end Sys2Proof.Machine
end

