-- ==== Sys2Proof/Machine/MsgSys.lean ====
section
/-! DEFINITION. The messages of the families SYS and PWR and the notice SYS.ERROR as the control firmware answers them (R55, R57,
R443, R453 to R456). -/

namespace Sys2Proof.Machine

/-! ### SYS (R55, R57, R443) -/

/-- `SYS.RESTART`: the OK, then the restart. -/
def execSysRestart (m : Nat) (s : State) : Answer :=
  pcmd (decide (m < 64)) s fun s => s.handle m 0x0103 (fun _ => true) fun _ s => (.thenDo (.st stOk) .restart, s)

/-- `SYS.HEADROOM` with KIND 0: the answer waits for the changes of mode it leads to. -/
def State.headroomMode (bs : List Byte) (s : State) : Ans × State :=
  let md := leAt bs 17 1
  if md = 0xFF then (.ready (.ok s.headroomPayload), s)
  else if 2 < md then (.ready (.st stBadParam), s)
  else
    let s := { s with rsv := { s.rsv with forced := if md = 0 then none else some (md - 1) } }
    let s := if md = 0 then s.evalMode else s.wantMode (md - 1)
    (if s.changes = 0 then .ready (.ok s.headroomPayload) else .wait (.headroom s.changes), s)

def execSysHeadroomMode (m : Nat) (s : State) : Answer :=
  pcmd (decide (m < 64)) s fun s => s.handle m 0x0104 (fun bs => leAt bs 16 1 == 0) fun bs s => s.headroomMode bs

/-- VREQ of one cluster set and applied; true if it was clamped (R431). A FREQ of 0 leaves the frequency asked for. -/
def State.askVoltage (s : State) (c v f : Nat) : Bool × State :=
  let s := s.wrF (Reg.rsvVlVreq c) 9 0 v
  let s := if f = 0 then s else s.wrF (Reg.rsvVlVreq c) 26 16 f
  s.applyVreq c

/-- `SYS.HEADROOM` with KIND 1. -/
def State.headroomVoltage (bs : List Byte) (s : State) : Ans × State :=
  let c := leAt bs 18 1
  let v := leAt bs 20 2
  let f := leAt bs 22 2
  let okC := decide (c < 12) || c == 0xFF
  let okV := v == 0 || decide (620 ≤ v ∧ v ≤ 880)
  let okF := f == 0 || decide (400 ≤ f ∧ f ≤ 1600 ∧ f % 100 = 0)
  if !okC || !okV || !okF then (.ready (.st stBadParam), s)
  else
    let named := if c = 0xFF then List.range 12 else [c]
    let (clamped, s) := named.foldl (fun (r : Bool × State) d =>
      let (b, s) := r.2.askVoltage d v f
      (r.1 || b, s)) (false, s)
    let low := if c = 0xFF then 0 else c
    let p := s.headroomPayload ++ leBytes 2 (s.targetV low) ++ leBytes 2 (s.freqOf low)
    (.ready { status := if clamped then stClamped else stOk, flags := 0, payload := p }, s)

def execSysHeadroomVoltage (m : Nat) (s : State) : Answer :=
  pcmd (decide (m < 64)) s fun s => s.handle m 0x0104 (fun bs => leAt bs 16 1 == 1) fun bs s => s.headroomVoltage bs

/-- What an error source shows: UNIT, RECORD and ADDR, or none where its record holds no error (R57). The configuration store and the
scheduler store are recorded in `MEM.UE_STAT` (R413, R440). -/
def State.errorRecord (s : State) (src unit : Nat) : Option (Nat × Nat × Nat) :=
  let ue := s.rd Reg.memUeStat
  let ueAddr := s.rdPair Reg.memUeAddrLo Reg.memUeAddrHi
  match src with
  | 0 =>
    let v := s.rd Reg.sysAerrStat
    if tb v 31 then some (fld v 23 16, v, s.rdPair Reg.sysAerrAddrLo Reg.sysAerrAddrHi % 2 ^ 48) else none
  | 1 => if tb ue 31 then some (fld ue 15 8, ue, ueAddr) else none
  | 2 =>
    let v := s.rd Reg.trlGuard
    if tb v 31 then some (fld v 15 8 * 32 + fld v 4 0, v, 0) else none
  | 3 => if s.rdB Reg.trlStat 30 && s.trl.cfgBad.contains unit then some (unit, ue, ueAddr) else none
  | 4 => if unit < 6 && s.dmcState unit == 6 then some (unit, s.rd (Reg.dmcStat unit), 0) else none
  | 5 => if s.rsv.storeOut then some (0, ue, ueAddr) else none
  | 6 =>
    let v := s.rd (Reg.mbxStat unit)
    if unit < 64 && decide (fld v 4 1 ≠ 0) then some (unit, v, 0) else none
  | _ => none

/-- The notice: within 1 ms of the one before for the same source, the error is kept for MORE of the next. -/
def State.sysError (s : State) (src unit : Nat) : State :=
  if s.fwSt ≠ 3 then s
  else
    match s.errorRecord src unit with
    | none => s
    | some (u, r, a) =>
      let last := mget (fun _ => 0) s.fw.errTime src
      if last ≠ 0 ∧ s.ns + 1 < last + 1000000 then { s with fw := { s.fw with errMore := sins s.fw.errMore src } }
      else
        let more := s.fw.errMore.contains src
        let s := { s with fw := { s.fw with
          errTime := mput (fun _ => 0) s.fw.errTime src (s.ns + 1), errMore := sdel s.fw.errMore src } }
        s.notice 0x0106 0 (leBytes 1 src ++ leBytes 1 (bn more) ++ leBytes 2 u ++ leBytes 4 r ++ leBytes 8 a ++ taiBytes s.ns)

def execSysError (src unit : Nat) (s : State) : Answer := pcmd (decide (src < 7)) s fun s => s.sysError src unit

/-! ### PWR.SET and PWR.QUERY (R453 to R456) -/

/-- SCOPE and STATE of a PWR.SET. -/
def pwrPair (bs : List Byte) : Nat × Nat := (leAt bs 16 1, leAt bs 17 1)

/-- A PWR.SET of a pair whose STATE takes no WAKE_AT: it is answered BAD_PARAM with one (R453). -/
def State.pwrUntimed (bs : List Byte) (s : State) (f : Nat → State → Nat × State) (unitOk : Nat → Bool) : Ans × State :=
  let u := leAt bs 18 2
  if !unitOk u || decide (leAt bs 24 8 ≠ 0) then (.ready (.st stBadParam), s)
  else
    let (st, s) := f u s
    (.ready (.st st), s)

/-- The handling of a PWR.SET with this pair. -/
def State.pwrSet (s : State) (m scope st : Nat) (unitOk : Nat → Bool) (f : Nat → State → Nat × State) : State :=
  s.handle m 0x0201 (fun bs => pwrPair bs == (scope, st)) fun bs s => s.pwrUntimed bs f unitOk

/-- Device RUN: nothing. -/
def execPwrSetDeviceRun (m : Nat) (s : State) : Answer :=
  pcmd (decide (m < 64)) s fun s => s.pwrSet m 0 0 (fun u => u == 0) fun _ s => (stOk, s)

/-- WAKE_AT in ns, 0 where the request names none; none where it is out of range for a request consumed at `t` (R453). -/
def State.wakeAtOf (s : State) (bs : List Byte) (t : Nat) : Option Nat :=
  let sec := leAt bs 24 4
  let n := leAt bs 28 4
  if sec = 0 ∧ n = 0 then some 0
  else
    let w := s.fullNs sec n
    if n < 1000000000 ∧ t + 1000000000 ≤ w ∧ w ≤ t + 36 * 3600 * 1000000000 then some w else none

/-- An entry that a request answered OK will begin. -/
def State.entryDue (s : State) : Bool :=
  s.mbx.any fun e => e.2.reqs.any fun q => match q.ans with
    | .thenDo _ (.power _) => true
    | _ => false

/-- Device DEEP and OFF: OK and then the entry, or BAD_STATE (R454). -/
def State.pwrDevice (s : State) (m : Nat) (deep : Bool) : State :=
  let t := s.consumed m
  s.handle m 0x0201 (fun bs => pwrPair bs == (0, if deep then 3 else 4)) fun bs s =>
    if leAt bs 18 2 ≠ 0 ∨ s.wakeAtOf bs t = none then (.ready (.st stBadParam), s)
    else if s.entryRefused || s.nw.pstate != .run || s.entryDue then (.ready (.st stBadState), s)
    else (.thenDo (.st stOk) (.power deep), s)

def execPwrSetDeviceDeep (m : Nat) (s : State) : Answer := pcmd (decide (m < 64)) s fun s => s.pwrDevice m true

def execPwrSetDeviceOff (m : Nat) (s : State) : Answer := pcmd (decide (m < 64)) s fun s => s.pwrDevice m false

/-- Cluster RUN: HOLD, and the cluster is awake. -/
def State.clusterRun (s : State) (c : Nat) : Nat × State :=
  if !s.clusterIn c then (stBadState, s)
  else
    let old := s.rdF (Reg.pwrCl c) 3 0
    (stOk, (((s.wrF (Reg.pwrCl c) 31 31 1).wakeCluster c).unaskSleep c).pwrNotice 1 c old 0)

def execPwrSetClusterRun (m : Nat) (s : State) : Answer :=
  pcmd (decide (m < 64)) s fun s => s.pwrSet m 1 0 (fun u => decide (u < 12)) fun u s => s.clusterRun u

/-- Cluster SLEEP: HOLD is cleared and automatic SLEEP resumes; a cluster that may sleep does so at once, and elsewhere the state asked
for takes effect when the cluster sleeps (R450, R456). -/
def State.clusterSleep (s : State) (c : Nat) : Nat × State :=
  if s.mode = 1 then (stBadState, s)
  else
    let old := s.rdF (Reg.pwrCl c) 3 0
    let s := s.wrF (Reg.pwrCl c) 31 31 0
    (stOk,
      if old = 2 then s.pwrNotice 1 c old 2
      else if s.clusterMaySleep c then ((s.clusterDown c).unaskSleep c).pwrNotice 1 c old 2
      else s.askSleep c)

def execPwrSetClusterSleep (m : Nat) (s : State) : Answer :=
  pcmd (decide (m < 64)) s fun s => s.pwrSet m 1 2 (fun u => decide (u < 12)) fun u s => s.clusterSleep u

/-- Cluster OFF: without power its memories lose their contents. -/
def State.clusterOff (s : State) (c : Nat) : Nat × State :=
  if s.clusterIn c then (stBadState, s)
  else
    let old := s.rdF (Reg.pwrCl c) 3 0
    let base := 0x10000000 + c * 0x01000000
    let s := (s.forget base (base + 0x01000000)).wrF (Reg.pwrCl c) 3 0 4
    let s := (s.wrF (Reg.rsvLoad c) 31 31 0).wrF (Reg.rsvLoad c) 7 0 0
    (stOk, (s.unaskSleep c).pwrNotice 1 c old 4)

def execPwrSetClusterOff (m : Nat) (s : State) : Answer :=
  pcmd (decide (m < 64)) s fun s => s.pwrSet m 1 4 (fun u => decide (u < 12)) fun u s => s.clusterOff u

/-- Engine RUN: HOLD, and the engine is awake. -/
def State.engineRun (s : State) (e : Nat) : Nat × State :=
  if !s.engIn e then (stBadState, s)
  else
    let old := s.engPower e
    (stOk, (((s.wrF (Reg.pwrEng e) 31 31 1).engineWake e).unaskSleep (12 + e)).pwrNotice 2 e old 0)

def execPwrSetEngineRun (m : Nat) (s : State) : Answer :=
  pcmd (decide (m < 64)) s fun s => s.pwrSet m 2 0 (fun u => decide (u < 80)) fun u s => s.engineRun u

/-- Engine SLEEP: HOLD is cleared, and the state asked for takes effect when the engine sleeps; an NFE with RX_EN = 1 refuses it (R255). -/
def State.engineSleepAsk (s : State) (e : Nat) : Nat × State :=
  if 76 ≤ e && s.rdB (Reg.nfeCtrl (e - 76)) 0 then (stBadState, s)
  else
    let old := s.engPower e
    let s := s.wrF (Reg.pwrEng e) 31 31 0
    (stOk, if old = 2 then s.pwrNotice 2 e old 2 else s.askSleep (12 + e))

def execPwrSetEngineSleep (m : Nat) (s : State) : Answer :=
  pcmd (decide (m < 64)) s fun s => s.pwrSet m 2 2 (fun u => decide (u < 80)) fun u s => s.engineSleepAsk u

/-- An engine is awake: it is neither in SLEEP nor without power. -/
def State.engineAwake (s : State) (e : Nat) : Bool :=
  let st := s.engPower e
  st != 2 && st != 4

/-- The bits of a predicate over `n` units. -/
def unitBits (n : Nat) (p : Nat → Bool) : Nat := ((List.range n).map fun i => bn (p i) * 2 ^ i).sum

/-- `PWR.QUERY`: a device whose firmware answers is in RUN. -/
def State.pwrQuery (s : State) : List Byte :=
  [0, 0] ++ leBytes 2 (unitBits 12 fun c => decide (s.rdF (Reg.pwrCl c) 3 0 = 0)) ++ leBytes 10 (unitBits 80 s.engineAwake) ++ [0, 0] ++
    leBytes 1 s.pwr.wsrc ++ leBytes 1 (bn s.pwr.refb) ++ [0, 0] ++ leBytes 2 (s.rdF Reg.pwrAvs 9 0)

def execPwrQuery (m : Nat) (s : State) : Answer :=
  pcmd (decide (m < 64)) s fun s => s.handle m 0x0202 (fun _ => true) fun _ s => (.ready (.ok s.pwrQuery), s)

end Sys2Proof.Machine
end

