-- ==== Sys2Proof/Machine/MsgCarrier.lean ====
section
/-! DEFINITION. The messages of the families CARRIER, SLOT, BLEND and FLOW as the control firmware answers them (R57 to R67). -/

namespace Sys2Proof.Machine

/-! ### A carrier's configuration: bytes 16 to 43 of CARRIER.CONFIG -/

def cRat (c : Carrier) : Nat := leAt c.cfg 2 1
def cMu (c : Carrier) : Nat := leAt c.cfg 3 1
def cPrb (c : Carrier) : Nat := leAt c.cfg 4 2
def cAnt (c : Carrier) : Nat := leAt c.cfg 6 2
def cBlend (c : Carrier) (dir : Nat) : Nat := leAt c.cfg (if dir = 0 then 12 else 14) 2
def cPort (c : Carrier) : Nat := leAt c.cfg 16 2
def cBand (c : Carrier) : Nat := leAt c.cfg 18 1
def cLead (c : Carrier) : Nat := if leAt c.cfg 20 2 = 0 then 400 else leAt c.cfg 20 2
def cMaxTasks (c : Carrier) : Nat := leAt c.cfg 22 2
def cAirOfs (c : Carrier) : Int := sx 32 (leAt c.cfg 24 4)

/-- The fields of a CARRIER.CONFIG are in range. -/
def cfgInRange (id : Nat) (c : Carrier) : Bool :=
  let lay := fun off => decide (1 ≤ leAt c.cfg off 1 ∧ leAt c.cfg off 1 ≤ 16)
  decide (id < 384 ∧ cRat c ≤ 3 ∧ cMu c ≤ 2) && (cRat c == 0 || cMu c == 0) && decide (1 ≤ cAnt c ∧ cAnt c ≤ 64) && lay 8 && lay 9 &&
    decide (leAt c.cfg 10 1 ≤ 1 ∧ cBlend c 0 ≤ 4095 ∧ cBlend c 1 ≤ 4095 ∧ cPort c < 64 ∧ cBand c ≤ 15) &&
    decide (1 ≤ cMaxTasks c) && decide (-10000000 < cAirOfs c ∧ cAirOfs c < 10000000)

/-- The configured carriers but for `id`. -/
def State.otherCarriers (s : State) (id : Nat) : List Carrier := s.fw.carriers.filterMap fun e => if e.1 = id then none else e.2

/-- The load of a carrier on its port at width W, in bits per second and direction (R337). -/
def portLoad (w : Nat) (c : Carrier) : Nat := cAnt c * (cPrb c * (1 + 3 * w) + 64) * 8 * (14000 * 2 ^ cMu c)

/-- A carrier fits the rated streams and its port beside the others. The W of a port whose sections give their own widths is the firmware's
reckoning, a free value. -/
def State.carrierFits (s : State) (id : Nat) (c : Carrier) : Bool × State :=
  let others := s.otherCarriers id
  let streams := ((c :: others).map carrierLoad).sum
  let static := match mget (fun _ => none) s.front.ports (cPort c) with
    | some p => p.staticW
    | none => 0
  let (x, s) := s.free 16
  let w := if static = 0 then x + 1 else static
  let bits := ((c :: others.filter fun d => cPort d == cPort c).map (portLoad w)).sum
  (decide (streams ≤ 546 * s.rsv.rated) && decide (bits ≤ s.portCapacity (cPort c) * 1000000), s)

/-- Flows opened or closed. -/
def State.openFlows (s : State) (base n : Nat) : State :=
  (List.range n).foldl (fun s i => s.setFlow (base + i) { Flow.reset with opened := true }) s

/-- A carrier's flows closed. -/
def State.closeFlows (s : State) (c : Carrier) : State :=
  (List.range c.flowCount).foldl (fun s i =>
    let f := c.flowBase + i
    s.setFlow f { s.flow f with opened := false }) s

/-- `CARRIER.CONFIG` with the flows that the firmware opens for it: free ones, beside those of the carrier itself. -/
def State.carrierConfig (base n : Nat) (bs : List Byte) (s : State) : Ans × State :=
  let id := leAt bs 16 2
  let new : Carrier := {
    cfg := (List.range 28).map (fun i => bs.getD (16 + i) 0), flowBase := base, flowCount := n, st := .stopped, plans := 0, late := 0
    expired := 0, cancelled := 0, completed := 0 }
  if !cfgInRange id new then (.ready (.st stBadParam), s)
  else if ((s.carrier? id).map started).getD false then (.ready (.st stBadState), s)
  else
    match s.carrierFits id new with
    | (false, s) => (.ready (.st stNoResource), s)
    | (true, s) =>
      let t := match s.carrier? id with
        | some old => s.closeFlows old
        | none => s
      if 65535 < n || 65536 < base + n || (List.range n).any fun i => (t.flow (base + i)).opened then (.none, s)
      else
        let old := s.carrier? id
        let keep := match old with
          | some o => { new with plans := o.plans, late := o.late, expired := o.expired }
          | none => new
        let t := if old.isNone then { t with front := { t.front with missing := mput (fun _ => 0) t.front.missing id 0 } } else t
        (.ready (.ok (leBytes 4 base ++ leBytes 2 n)), (t.openFlows base n).setCarrier id (some keep))

def execCarrierConfig (m flowBase flowCount : Nat) (s : State) : Answer :=
  pcmd (decide (m < 64)) s fun s => s.handle m 0x0301 (fun _ => true) (State.carrierConfig flowBase flowCount)

/-! ### CARRIER.START, STOP and QUERY -/

/-- Every antenna has its stream on the carrier's port in both directions (R339). -/
def State.antennasBound (s : State) (id : Nat) (c : Carrier) : Bool :=
  (List.range (cAnt c)).all fun a => [0, 1].all fun dir => (s.carrierStreams id dir).any fun e => e.2.ant == a && e.2.port == cPort c

/-- The version of a loaded blend; 0 where none is loaded under the ID. -/
def State.blendVer (s : State) (id : Nat) : Nat := ((s.fw.blends.find? fun b => b.id == id).map (·.ver)).getD 0

/-- What a register of a timeline's page holds after CARRIER.START by what the carrier's blends say; nothing gives it (log entry 49). -/
def State.fromBlend (s : State) (c : Carrier) (k : Nat) : Nat :=
  Config.blendTimeline c.cfg (s.blendVer (cBlend c 0)) (s.blendVer (cBlend c 1)) k

/-- The timeline programmed from the configuration (R58): MU, AIR_OFS and, for FDD, both masks of all ones (R381). The TDD pattern, the
windows, TX_ADVANCE and the rules come from the blends. -/
def State.programTimeline (s : State) (id : Nat) (c : Carrier) : State :=
  if s.armed id then s
  else
    let b := s.fromBlend c
    let fdd := leAt c.cfg 10 1 == 0
    let s := ((s.wrF (Reg.mrdTlCtrl id) 1 0 (cMu c)).wrF (Reg.mrdTlCtrl id) 14 8 (if fdd then 1 else b 0 % 64 + 1)).wr (Reg.mrdTlAirOfs id) (leAt c.cfg 24 4)
    let s := s.wrPair (Reg.mrdTlUlMaskLo id) (Reg.mrdTlUlMaskHi id) 32 (if fdd then 2 ^ 64 - 1 else b 1 % 2 ^ 64)
    let s := s.wrPair (Reg.mrdTlDlMaskLo id) (Reg.mrdTlDlMaskHi id) 32 (if fdd then 2 ^ 64 - 1 else b 2 % 2 ^ 64)
    let s := ((s.wr (Reg.mrdTlRxwinOpen id) (b 3 % 2 ^ 32)).wr (Reg.mrdTlRxwinClose id) (b 4 % 2 ^ 32)).wr (Reg.mrdTlTxAdvance id) (b 5 % 2 ^ 32)
    (List.range 8).foldl (fun (s : State) r =>
      let s := s.wr (Reg.mrdTlRuleCfg id r) (b (3 * r + 6) % 2 ^ 32 &&& 0xFF3FFF1F)
      (s.wr (Reg.mrdTlRuleAdvance id r) (b (3 * r + 7) % 2 ^ 32)).wr (Reg.mrdTlRuleDmcmask id r) (b (3 * r + 8) % 64)) s

/-- A carrier as its start leaves it: every count runs from there (R60). -/
def Carrier.begun (c : Carrier) : Carrier := { c with st := .started, plans := 0, late := 0, expired := 0, cancelled := 0, completed := 0 }

/-- `CARRIER.START`. -/
def State.carrierStart (bs : List Byte) (s : State) : Ans × State :=
  let id := leAt bs 16 2
  if 383 < id then (.ready (.st stBadParam), s)
  else
    match s.carrier? id with
    | none => (.ready (.st stBadState), s)
    | some c =>
      if started c || !s.antennasBound id c then (.ready (.st stBadState), s)
      else
        let s := (s.programTimeline id c).setCarrier id (some c.begun)
        let s := { s with front := { s.front with missing := mput (fun _ => 0) s.front.missing id 0 } }
        let now := s.mrdState == 2
        let s := if now && !s.armed id then s.armTl id else s
        let sfn := if now then (s.tl id).fromFrame % 1024 else 65535
        (.ready (.ok (leBytes 1 (bn now) ++ [0] ++ leBytes 2 sfn)), s.evalMode)

def execCarrierStart (m : Nat) (s : State) : Answer :=
  pcmd (decide (m < 64)) s fun s => s.handle m 0x0302 (fun _ => true) State.carrierStart

/-- A plan's record. -/
def State.plan? (s : State) (h : Nat) : Option Plan := s.fw.plans.find? fun p => p.handle == h

/-- A plan's record changed. -/
def State.onPlan (s : State) (h : Nat) (f : Plan → Plan) : State :=
  { s with fw := { s.fw with plans := s.fw.plans.map fun p => if p.handle = h then f p else p } }

/-- Tasks of a plan that have committed. -/
def planCommitted (p : Plan) : Nat := p.done + p.fault + p.expired + p.cancelled

/-- A plan whose last task has committed ends; one that no cancel ended writes its DONE_ADDR. -/
def State.endPlan (s : State) (h : Nat) : State :=
  match s.plan? h with
  | none => s
  | some p =>
    if p.ended.isSome || !p.todo.isEmpty || planCommitted p != p.total then s
    else
      let flag := !p.killed && p.doneAddr != 0
      let s := if flag then s.toHost p.doneAddr (leBytes 4 p.doneValue) else s
      s.onPlan h fun p => { p with ended := some s.ns, doneWritten := flag }

/-- A carrier's entry changed. -/
def State.onCarrier (s : State) (id : Nat) (f : Carrier → Carrier) : State :=
  match s.carrier? id with
  | some c => s.setCarrier id (some (f c))
  | none => s

/-- A plan ended by a cancel: every uncommitted task under the commit rule (R101); what was never submitted counts as cancelled, for the
plan and for its carrier. -/
def State.killPlan (s : State) (h : Nat) : State :=
  match s.plan? h with
  | none => s
  | some p =>
    if p.ended.isSome then s
    else
      let s := s.onPlan h fun p => { p with killed := true, todo := [], cancelled := p.cancelled + p.todo.length }
      let s := s.onCarrier p.carrier fun c => { c with cancelled := c.cancelled + p.todo.length }
      (p.tasks.foldl (fun (s : State) t => (s.cancelHandle t).2) s).endPlan h

/-- The plans of a carrier. -/
def State.plansOf (s : State) (id : Nat) : List Plan := s.fw.plans.filter fun p => p.carrier == id

/-- Every task of the carrier's plans has committed. -/
def State.plansEnded (s : State) (id : Nat) : Bool := (s.plansOf id).all fun p => p.ended.isSome

/-- CANCELLED and COMPLETED of a carrier's plans that have uncommitted tasks, so far: each plan's tasks counted as in R62 (R59). -/
def State.stopCounts (s : State) (id : Nat) : Nat × Nat :=
  let ps := (s.plansOf id).filter fun p => p.ended.isNone
  ((ps.map (·.cancelled)).sum, (ps.map fun p => p.done + p.fault + p.expired).sum)

/-- `CARRIER.STOP`: the counts of its response cover the plans that have uncommitted tasks now, as R62 counts a plan's (R59). -/
def State.carrierStop (drain : Bool) (bs : List Byte) (s : State) : Ans × State :=
  let id := leAt bs 16 2
  let remove := tb (leAt bs 18 1) 1
  if 383 < id then (.ready (.st stBadParam), s)
  else
    match s.carrier? id with
    | none => (.ready (.st stBadState), s)
    | some c =>
      if !started c && !remove then (.ready (.st stBadState), s)
      else
        let n := s.stopCounts id
        let s := s.setCarrier id (some { c with cancelled := n.1, completed := n.2 })
        if !started c then (.wait (.stop id remove), s)
        else
        let s := s.onCarrier id fun c => { c with st := if drain then .draining else .stopped }
        let s := if drain then s else ((s.plansOf id).map (·.handle)).foldl (fun s h => s.killPlan h) (s.disarm id)
        (.wait (.stop id remove), if drain then s else s.evalMode)

def execCarrierStop (m : Nat) (s : State) : Answer :=
  pcmd (decide (m < 64)) s fun s => s.handle m 0x0303 (fun bs => !tb (leAt bs 18 1) 0) (State.carrierStop false)

def execCarrierStopDrain (m : Nat) (s : State) : Answer :=
  pcmd (decide (m < 64)) s fun s => s.handle m 0x0303 (fun bs => tb (leAt bs 18 1) 0) (State.carrierStop true)

/-- A drained carrier is disarmed at the end of the slot of its last plan. -/
def State.stopDrained (s : State) (id : Nat) : State :=
  match s.carrier? id with
  | some c =>
    if c.st ≠ .draining then s
    else
      let last := ((s.plansOf id).map fun p => p.start + p.slotNs).foldl max 0
      (((s.until (last * 2 ^ 32)).disarm id).setCarrier id (some { c with st := .stopped })).evalMode
  | none => s

/-- A STOP takes its last step: the counts of its response, and with REMOVE the flows are closed and the configuration deleted. -/
def State.stopped (s : State) (id : Nat) (remove : Bool) : Resp × State :=
  let s := s.stopDrained id
  match s.carrier? id with
  | none => (.ok (leBytes 4 0 ++ leBytes 4 0), s)
  | some c =>
    let r := Resp.ok (leBytes 4 c.cancelled ++ leBytes 4 c.completed)
    if remove && !started c then
      (r, { (s.closeFlows c).setCarrier id none with front := { s.front with missing := mput (fun _ => 0) s.front.missing id 0 } })
    else (r, s)

/-- `CARRIER.QUERY`. -/
def State.carrierQuery (bs : List Byte) (s : State) : Ans × State :=
  let id := leAt bs 16 2
  if 383 < id then (.ready (.st stBadParam), s)
  else
    match s.carrier? id with
    | none => (.ready (.ok (List.replicate 32 0)), s)
    | some c =>
      let st := match c.st with
        | .stopped => 1
        | .started => if s.armed id then 2 else 3
        | .draining => 4
      (.ready (.ok (leBytes 1 st ++ leBytes 1 (cRat c) ++ leBytes 1 (cMu c) ++ leBytes 1 (cBand c) ++ leBytes 2 (cPrb c) ++
        leBytes 2 (cAnt c) ++ leBytes 4 c.flowBase ++ leBytes 2 c.flowCount ++ leBytes 2 (carrierLoad c * 16 / 546) ++
        leBytes 4 c.plans ++ leBytes 4 c.late ++ leBytes 4 c.expired ++ leBytes 4 (mget (fun _ => 0) s.front.missing id))), s)

def execCarrierQuery (m : Nat) (s : State) : Answer :=
  pcmd (decide (m < 64)) s fun s => s.handle m 0x0304 (fun _ => true) State.carrierQuery

/-! ### SLOT.PLAN (R61) -/

/-- The carrier frame with this SFN whose number is nearest to that of the frame at time `t` in ns. -/
def frameOf (ofs : Int) (sfn t : Nat) : Nat :=
  let k0 := (((t : Int) - frameStart 0 - ofs) / 10000000).toNat
  let d := (sfn + 1024 - k0 % 1024) % 1024
  if d < 512 ∨ k0 + d < 1024 then k0 + d else k0 + d - 1024

/-- The start of a slot at the antenna, in ns (R380). -/
def slotStart (c : Carrier) (k slot : Nat) : Nat :=
  ((frameStart k + cAirOfs c).toNat * 2 ^ 32 + tsTime (symbolTs (cMu c) (14 * slot))) / 2 ^ 32

/-- A task's descriptor with the plan-release event in its mask: in its own group, or in `grp` where it awaits nothing else. -/
def withRelease (grp flag : Nat) (ws : List Word) : List Word :=
  if dMask ws = 0 then
    (ws.set 4 (BitVec.ofNat 32 (2 ^ flag))).set 5 (BitVec.ofNat 32 (setFld (dw ws 5) 13 0 grp))
  else ws.set 4 (BitVec.ofNat 32 (dMask ws ||| 2 ^ flag))

/-- The groups in which the plan-release event is posted. -/
def releaseGroups (tasks : List (List Word)) : List Nat := (tasks.map dWaitGrp).eraseDups

/-- The firmware's event serves the plan: every task awaits all of its flags, and the event's flag is clear. -/
def State.releaseOk (s : State) (flag : Nat) (tasks : List (List Word)) : Bool :=
  (tasks.all fun ws => !dAny ws) && (releaseGroups tasks).all fun g => !tb (s.flags g).toNat flag

/-- The tasks still to submit, as far as back-pressure allows: 0 held, 1 all submitted, 2 one rejected. -/
def State.submitTodo (s : State) (h : Nat) : List (List Word) → Nat × State
  | [] => (1, s)
  | ws :: rest =>
    match s.submitNow ws 131072 with
    | (some x, s) =>
      if x < 2 ^ 31 then (s.onPlan h fun p => { p with tasks := p.tasks ++ [x], todo := rest }).submitTodo h rest else (2, s)
    | (none, s) => (0, s)

/-- A plan without a trace. -/
def State.dropPlan (s : State) (h : Nat) : State :=
  { (s.killPlan h) with fw := { (s.killPlan h).fw with plans := (s.killPlan h).fw.plans.filter fun p => p.handle != h } }

/-- What a submission's result means: the event is posted after the last submission; a plan with a rejected task runs no task. DESIGN CHOICE
(log entry 49): a plan that back-pressure held and a CARRIER.STOP then killed is answered ACCEPTED, and its event is posted. -/
def State.planResult (s : State) (h : Nat) (r : Nat) : Ans × State :=
  match r, s.plan? h with
  | 1, some p =>
    let s := (s.onPlan h fun p => { p with released := true }).onCarrier p.carrier fun c => { c with plans := (c.plans + 1) % 2 ^ 32 }
    let s := p.relGrps.foldl (fun s g => s.post g (2 ^ p.relFlag)) s
    (.ready { status := stAccepted, flags := 0, payload := leBytes 4 p.total ++ leBytes 4 h }, s.endPlan h)
  | 0, some _ => (.wait (.plan h), s)
  | _, _ => (.ready (.st stFault), s.dropPlan h)

/-- The next task of a plan is still held back. -/
def State.planHeld (s : State) (h : Nat) : Bool :=
  match s.plan? h with
  | some p =>
    match p.todo with
    | ws :: _ => (s.rejects false false ws).isNone && !(decide (s.watermark (dPrio ws) < s.freeSlots) && !s.rsv.storeOut)
    | [] => false
  | none => false

/-- Submission of a plan goes on. -/
def State.planOn (s : State) (h : Nat) : Ans × State :=
  match s.plan? h with
  | none => (.ready (.st stFault), s)
  | some p =>
    let (r, s) := s.submitTodo h p.todo
    s.planResult h r

/-- Plans whose records the firmware no longer keeps: 1 s after the last task, and not before the slot's end. -/
def State.oldPlan (s : State) (p : Plan) : Bool := (p.ended.any fun t => decide (t + 1000000000 < s.ns)) && decide (p.start + p.slotNs < s.ns)

/-- The fields of a SLOT.PLAN are in range for its carrier and blend (R503). -/
def State.planInRange (s : State) (bs : List Byte) (c : Carrier) (b : Option Blend) : Bool :=
  let len := leAt bs 32 4
  let done := leAt bs 40 8
  decide (leAt bs 18 2 < 1024 ∧ leAt bs 20 1 < slotsPerFrame (cMu c) ∧ leAt bs 21 1 ≤ 1 ∧ len ≤ 65536) &&
    (b.map fun b => b.planLen == len).getD false && s.inWindow (leAt bs 24 8) len &&
    (done == 0 || (done % 4 == 0 && s.inWindow done 4))

/-- `SLOT.PLAN` consumed at `t` ns; `tasks` are the descriptors that the blend's templates make, the event is flag `flag`. -/
def State.slotPlan (t : Nat) (tasks : List (List Word)) (grp flag : Nat) (bs : List Byte) (s : State) : Ans × State :=
  let id := leAt bs 16 2
  let dir := leAt bs 21 1
  if 383 < id then (.ready (.st stBadParam), s)
  else
    match s.carrier? id with
    | none => (.ready (.st stBadState), s)
    | some c =>
      let bid := if leAt bs 22 2 = 0 then cBlend c dir else leAt bs 22 2
      let blend := s.fw.blends.find? fun b => b.id == bid
      if !s.planInRange bs c blend then (.ready (.st stBadParam), s)
      else
        let k := frameOf (cAirOfs c) (leAt bs 18 2) t
        let start := slotStart c k (leAt bs 20 1)
        if start < t + cLead c * 1000 then
          (.ready (.st stLate), s.setCarrier id (some { c with late := (c.late + 1) % 2 ^ 32 }))
        else if s.mrdState ≠ 2 ∨ c.st ≠ .started ∨ k < (s.tl id).fromFrame then (.ready (.st stBadState), s)
        else if cMaxTasks c < tasks.length then (.ready (.st stNoResource), s)
        else
          let todo := tasks.map (withRelease grp flag)
          if !s.releaseOk flag todo then (.none, s)
          else
            let h := s.fw.nextPlan
            let p : Plan := {
              handle := h, carrier := id, blend := bid, blendVer := (blend.map (·.ver)).getD 0, start := start
              slotNs := 1000000 / 2 ^ cMu c, todo := todo, tasks := [], total := tasks.length, relGrps := releaseGroups todo, relFlag := flag
              released := false, done := 0, fault := 0, expired := 0, cancelled := 0, started := false, killed := false
              doneAddr := leAt bs 40 8, doneValue := leAt bs 48 4, doneWritten := false, ended := none }
            let s := { s with fw := { s.fw with nextPlan := h % (2 ^ 32 - 1) + 1, plans := (s.fw.plans.filter fun p => !s.oldPlan p) ++ [p] } }
            s.planOn h

def execSlotPlan (m : Nat) (tasks : List (List Word)) (relGrp relFlag : Nat) (s : State) : Answer :=
  pcmd (decide (m < 64) && decide (relGrp < 16384) && decide (relFlag < 32)) s fun s =>
    s.handle m 0x0401 (fun _ => true) (State.slotPlan (s.consumed m) tasks relGrp relFlag)

/-- The requests that wait for a plan answered. -/
def State.answerPlan (s : State) (h : Nat) (r : Resp) : State :=
  let f := fun (q : MbxReq) => match q.ans with
    | .wait (.plan x) => if x = h then { q with ans := .ready r } else q
    | _ => q
  { s with mbx := s.mbx.map fun e => (e.1, { e.2 with reqs := e.2.reqs.map f }) }

/-- `PLAN_SUBMIT_LATE`: the slot has started and submission is still held: every task ends CANCELLED and the answer is LATE. -/
def State.planLate (s : State) (h : Nat) : State :=
  match s.plan? h with
  | none => s
  | some p =>
    if p.released then s
    else
      let s := s.until (p.start * 2 ^ 32)
      let s := s.onCarrier p.carrier fun c => { c with late := (c.late + 1) % 2 ^ 32 }
      (s.dropPlan h).answerPlan h (.st stLate)

def execPlanSubmitLate (handle : Nat) (s : State) : Answer := pcmd true s fun s => s.planLate handle

/-! ### SLOT.CANCEL and SLOT.QUERY (R62, R63) -/

/-- The record of a handle that the firmware knows. -/
def State.knownPlan (s : State) (h : Nat) : Option Plan :=
  match s.plan? h with
  | some p => if p.released && !(p.ended.any fun t => decide (t + 1000000000 < s.ns)) then some p else none
  | none => none

/-- `SLOT.CANCEL`. DESIGN CHOICE (log entry 49): a handle that the firmware does not know, or whose record it has discarded, is answered
BAD_PARAM, as R63 answers SLOT.QUERY. -/
def State.slotCancel (bs : List Byte) (s : State) : Ans × State :=
  let h := leAt bs 16 4
  match s.knownPlan h with
  | none => (.ready (.st stBadParam), s)
  | some p =>
    if p.ended.isSome then (.ready (.st stAlreadyDone), s)
    else
      let s := s.onPlan h fun p => { p with killed := true }
      let (n, s) := p.tasks.foldl (fun (r : Nat × State) t =>
        let (b, s) := r.2.cancelHandle t
        (r.1 + bn b, s)) (p.cancelled, s)
      (.ready (.ok (leBytes 4 n ++ leBytes 4 (p.total - n))), s.endPlan h)

def execSlotCancel (m : Nat) (s : State) : Answer :=
  pcmd (decide (m < 64)) s fun s => s.handle m 0x0402 (fun _ => true) State.slotCancel

/-- A task of the plan has started. -/
def State.planStarted (s : State) (p : Plan) : Bool :=
  p.started || p.tasks.any fun h => match (s.slotOf h).bind s.task? with
    | some t => t.st == .running || t.st == .ending || t.st == .stopping
    | none => false

/-- `SLOT.QUERY`. -/
def State.slotQuery (bs : List Byte) (s : State) : Ans × State :=
  match s.knownPlan (leAt bs 16 4) with
  | none => (.ready (.st stBadParam), s)
  | some p =>
    let st := if p.ended.isSome then (if p.killed then 4 else 3) else if s.planStarted p then 2 else 1
    (.ready (.ok (leBytes 1 st ++ leBytes 1 (bn p.doneWritten) ++ leBytes 2 p.carrier ++ leBytes 4 p.total ++
      leBytes 4 (planCommitted p) ++ leBytes 4 p.done ++ leBytes 4 p.fault ++ leBytes 4 p.expired ++ leBytes 4 p.cancelled)), s)

def execSlotQuery (m : Nat) (s : State) : Answer :=
  pcmd (decide (m < 64)) s fun s => s.handle m 0x0403 (fun _ => true) State.slotQuery

/-! ### BLEND (R64, R65) -/

/-- The blend with an ID. -/
def State.blend? (s : State) (id : Nat) : Option Blend := s.fw.blends.find? fun b => b.id == id

/-- The plans on a blend with uncommitted tasks. DESIGN CHOICE (log entry 49): a plan whose submission back-pressure still holds counts. -/
def State.blendUse (s : State) (id : Nat) : Nat := (s.fw.plans.filter fun p => p.blend == id && p.ended.isNone).length

/-- A load whose response is committed takes effect: plans accepted from now on run on it (R64). -/
def State.blendInForce (s : State) (id : Nat) : State :=
  match s.fw.loading.find? fun b => b.id == id with
  | none => s
  | some b => { s with fw := { s.fw with
      loading := s.fw.loading.filter fun b => b.id != id, blends := (s.fw.blends.filter fun b => b.id != id) ++ [b] } }

/-- `BLEND.LOAD`: the blend is in force once its response is committed, and until then the load is in progress. IDEM of a template and the length that a PLANDESC declares lie in section bodies whose layout is not given: both
are free values. -/
def State.blendLoad (bs : List Byte) (s : State) : Ans × State :=
  let id := leAt bs 16 2
  if id = 0 ∨ 4095 < id then (.ready (.st stBadParam), s)
  else
    match s.hostImage (leAt bs 24 8) (leAt bs 32 4) with
    | none => (.ready (.st stBadParam), s)
    | some img =>
      let c := s.checkImage 2 img
      if c ≠ 0 then (.ready (badImage c), s)
      else if (s.blend? id).isSome && !tb (leAt bs 18 2) 0 then (.ready (.st stBadState), s)
      else if s.fw.loading.any fun b => b.id == id then (.ready (.st stBusy), s)
      else
        let p := krvPayload img
        let kept := (s.fw.blends.filter fun b => b.id != id) ++ s.fw.loading
        if 16777216 + Config.blendStore < p.length + (kept.map (·.len)).sum then (.ready (.st stNoResource), s)
        else
          let secs := (blendSections p (p.length + 1) 0).getD []
          let n := (secs.filter fun x => x.1 == 1).length
          let (idem, s) := s.free (n + 1)
          let (len, s) := s.free 65537
          let b : Blend := {
            id := id, ver := s.fw.blendVer + 1, templates := n, idem := idem, planLen := len, len := p.length, keyId := leAt img 8 4
            svn := leAt img 12 1 }
          (.thenDo (.ok (leBytes 2 n ++ leBytes 2 idem)) (.blend id),
            { s with fw := { s.fw with loading := s.fw.loading ++ [b], blendVer := s.fw.blendVer + 1 } })

def execBlendLoad (m : Nat) (s : State) : Answer :=
  pcmd (decide (m < 64)) s fun s => s.handle m 0x0501 (fun _ => true) State.blendLoad

/-- `BLEND.UNLOAD`. -/
def State.blendUnload (bs : List Byte) (s : State) : Ans × State :=
  let id := leAt bs 16 2
  if (s.blend? id).isNone then (.ready (.st stBadParam), s)
  else if s.fw.carriers.any fun e => match e.2 with
      | some c => cBlend c 0 == id || cBlend c 1 == id
      | none => false then (.ready (.st stBadState), s)
  else if s.blendUse id ≠ 0 then (.ready (.st stBusy), s)
  else (.ready (.st stOk), { s with fw := { s.fw with blends := s.fw.blends.filter fun b => b.id != id } })

def execBlendUnload (m : Nat) (s : State) : Answer :=
  pcmd (decide (m < 64)) s fun s => s.handle m 0x0502 (fun _ => true) State.blendUnload

/-- `BLEND.QUERY`. -/
def State.blendQuery (bs : List Byte) (s : State) : Ans × State :=
  let id := leAt bs 16 2
  match s.blend? id with
  | none => (.ready (.ok (List.replicate 24 0)), s)
  | some b =>
    (.ready (.ok ([1, 0] ++ leBytes 2 b.templates ++ leBytes 2 b.idem ++ [0, 0] ++ leBytes 4 b.planLen ++ leBytes 4 b.keyId ++
      leBytes 1 b.svn ++ [0, 0, 0] ++ leBytes 4 (s.blendUse id))), s)

def execBlendQuery (m : Nat) (s : State) : Answer :=
  pcmd (decide (m < 64)) s fun s => s.handle m 0x0503 (fun _ => true) State.blendQuery

/-! ### FLOW (R66, R67) -/

/-- `FLOW.PIN`: a flow that is not open is a BAD_STATE; a cluster with no core in service cannot take it. -/
def State.flowPin (bs : List Byte) (s : State) : Ans × State :=
  let f := leAt bs 16 4
  let c := leAt bs 20 1
  if 65535 < f ∨ (12 ≤ c ∧ c ≠ 0xFF) then (.ready (.st stBadParam), s)
  else
    let old := s.flow f
    if !old.opened then (.ready (.st stBadState), s)
    else if c = 0xFF then (.ready (.st stOk), (s.setFlow f { old with pin := false }).advanceFlow f)
    else if !s.clusterIn c then (.ready (.st stNoResource), s)
    else
      let s := if old.home = c then s else s.setHome f c
      (.ready (.st stOk), (s.setFlow f { old with pin := true, home := c }).advanceFlow f)

def execFlowPin (m : Nat) (s : State) : Answer :=
  pcmd (decide (m < 64)) s fun s => s.handle m 0x0601 (fun _ => true) State.flowPin

/-- VECTOR and EV_GRP of a FLOW.NOTIFY are in range. -/
def bindInRange (bs : List Byte) : Bool := decide (130 ≤ leAt bs 16 2 ∧ leAt bs 16 2 ≤ 2047 ∧ leAt bs 20 2 < 16384)

/-- `FLOW.NOTIFY` with UNBIND = 0: the group is tested when the vector is bound. -/
def State.notifyBind (bs : List Byte) (s : State) : Ans × State :=
  let fl := leAt bs 18 2
  let b : Bind := { vector := leAt bs 16 2, any := tb fl 1, rep := tb fl 2, grp := leAt bs 20 2, mask := leAt bs 24 4 }
  if !bindInRange bs || b.mask == 0 then (.ready (.st stBadParam), s)
  else if s.fw.binds.any fun x => x.vector == b.vector then (.ready (.st stBadState), s)
  else (.ready (.st stOk), ({ s with fw := { s.fw with binds := s.fw.binds ++ [b] } } : State).testBind b)

def execFlowNotifyBind (m : Nat) (s : State) : Answer :=
  pcmd (decide (m < 64)) s fun s => s.handle m 0x0602 (fun bs => !tb (leAt bs 18 2) 0) State.notifyBind

/-- `FLOW.NOTIFY` with UNBIND = 1. -/
def State.notifyUnbind (bs : List Byte) (s : State) : Ans × State :=
  let v := leAt bs 16 2
  if !bindInRange bs then (.ready (.st stBadParam), s)
  else if !(s.fw.binds.any fun x => x.vector == v) then (.ready (.st stBadState), s)
  else (.ready (.st stOk), { s with fw := { s.fw with binds := s.fw.binds.filter fun x => x.vector != v } })

def execFlowNotifyUnbind (m : Nat) (s : State) : Answer :=
  pcmd (decide (m < 64)) s fun s => s.handle m 0x0602 (fun bs => tb (leAt bs 18 2) 0) State.notifyUnbind

/-- `FLOW.QUERY`. -/
def State.flowQuery (bs : List Byte) (s : State) : Ans × State :=
  let f := leAt bs 16 4
  if 65535 < f then (.ready (.st stBadParam), s)
  else
    let x := s.flow f
    let ts := s.flowTasks f
    (.ready (.ok (leBytes 1 (bn x.opened) ++ leBytes 1 (bn (ts.any fun e => Sys2Proof.Machine.inService e.2)) ++ leBytes 1 x.home ++ leBytes 1 (bn x.pin) ++
      leBytes 1 (bn x.dlpol) ++ leBytes 1 x.recp ++ leBytes 1 x.cq ++ [0] ++ leBytes 4 ts.length)), s)

def execFlowQuery (m : Nat) (s : State) : Answer :=
  pcmd (decide (m < 64)) s fun s => s.handle m 0x0603 (fun _ => true) State.flowQuery

end Sys2Proof.Machine
end

