-- ==== Sys2Proof/Machine/MsgUnits.lean ====
section
/-! DEFINITION. The messages of the families MEM, LANE, TIME, FSK, TRELLIS, SPARE, CENSUS and DEBUG as the control firmware answers
them (R224, R252, R253, R316 to R318, R356 to R358, R387 to R389, R415 to R417, R444, R445, R505, R506, R520). -/

namespace Sys2Proof.Machine

/-! ### MEM (R316 to R318) -/

/-- Two ranges meet. -/
def meets (a n b k : Nat) : Bool := decide (a < b + k ∧ b < a + n)

/-- The range of a pool: cellar, general; cellar, retention, without the resident area (R500); DRAM, without what R307 reserves. -/
def State.pool (s : State) (kind : Nat) : Nat × Nat :=
  match kind with
  | 0 => (0, 0x03800000)
  | 1 => (0x03800000, residentBase)
  | _ => (dramBase, dramBase + (s.dramCap - 0x200000))

/-- A range of DRAM meets a 64 KiB region that contains a row listed for hard repair: the pools leave it out (R439). -/
def State.rowsWithdrawn (s : State) (kind addr n : Nat) : Bool :=
  kind == 2 && s.rsv.dramRows.any fun l =>
    let lo := addr / 65536 * 65536
    (unitsOf lo (alignUp (addr + n) 65536 - lo)).any fun a => s.dramRow a == s.dramRow l

/-- A range lies in a pool and meets no allocation that `keep` leaves. -/
def State.rangeFree (s : State) (kind addr n : Nat) (keep : Alloc → Bool) : Bool :=
  decide ((s.pool kind).1 ≤ addr ∧ addr + n ≤ (s.pool kind).2) && !(s.fw.allocs.any fun x => keep x && meets addr n x.addr x.len)

/-- A range cleared under R298, through the registers. -/
def State.clearRange (s : State) (addr n : Nat) : State :=
  let s := s.wrPair Reg.memVclrBaseLo Reg.memVclrBaseHi 16 addr
  (s.wrPair Reg.memVclrLimitLo Reg.memVclrLimitHi 16 (addr + n - 1)).vclrWrite 1

/-- `MEM.ALLOC`; `addr` is the range that the firmware finds. -/
def State.memAlloc (addr : Nat) (bs : List Byte) (s : State) : Ans × State :=
  let kind := leAt bs 16 1
  let lg := leAt bs 17 1
  let n := leAt bs 24 8
  if 2 < kind ∨ lg < 6 ∨ 30 < lg ∨ n = 0 then (.ready (.st stBadParam), s)
  else if addr % 2 ^ lg ≠ 0 || !s.rangeFree kind addr n (fun _ => true) || s.rowsWithdrawn kind addr n then (.ready (.st stNoResource), s)
  else
    let s := if tb (leAt bs 18 2) 0 then s.clearRange addr n else s
    let h := s.fw.nextAlloc
    (.ready (.ok (leBytes 8 addr ++ leBytes 4 h)),
      { s with fw := { s.fw with allocs := s.fw.allocs ++ [{ handle := h, addr := addr, len := n }], nextAlloc := h % (2 ^ 32 - 1) + 1 } })

def execMemAlloc (m addr : Nat) (s : State) : Answer :=
  pcmd (decide (m < 64)) s fun s => s.handle m 0x0701 (fun _ => true) (State.memAlloc addr)

/-- A grant or an enabled host ring lies in a range. -/
def State.rangeInUse (s : State) (addr n : Nat) : Bool :=
  ((List.range 8).any fun g =>
    let base := s.rdF (Reg.memGrantBase g) 25 12 * 4096
    s.rdB (Reg.memGrantCtrl g) 31 && meets addr n base (s.rdF (Reg.memGrantLimit g) 25 12 * 4096 + 4096 - base)) ||
  (List.range 64).any fun h =>
    s.rdB (Reg.cmHringCfg h) 31 && meets addr n (s.rdF (Reg.cmHringSqbase h) 25 6 * 64) (64 + s.hringSize h * 32)

/-- `MEM.FREE`; handle 0 is the firmware's own. -/
def State.memFree (bs : List Byte) (s : State) : Ans × State :=
  let h := leAt bs 16 4
  match s.fw.allocs.find? fun x => x.handle == h && h != 0 with
  | none => (.ready (.st stBadParam), s)
  | some x =>
    if s.rangeInUse x.addr x.len then (.ready (.st stBadState), s)
    else
      let s := if tb (leAt bs 20 2) 0 then s.clearRange x.addr x.len else s
      (.ready (.st stOk), { s with fw := { s.fw with allocs := s.fw.allocs.filter fun y => y.handle != h } })

def execMemFree (m : Nat) (s : State) : Answer :=
  pcmd (decide (m < 64)) s fun s => s.handle m 0x0702 (fun _ => true) State.memFree

/-- A grant held. -/
def State.grant? (s : State) (g : Nat) : Option Grant := mget (fun _ => none) s.fw.grants g
def State.setGrant (s : State) (g : Nat) (x : Option Grant) : State :=
  { s with fw := { s.fw with grants := mput (fun _ => none) s.fw.grants g x } }

/-- The fields of a grant, and of the ring that it opens, are in range. -/
def State.grantInRange (s : State) (bs : List Byte) : Bool :=
  let addr := leAt bs 24 8
  let len := leAt bs 32 4
  let lg := leAt bs 36 1
  let ring := tb (leAt bs 18 1) 1
  leAt bs 16 2 == 0 && addr % 4096 == 0 && len != 0 && len % 4096 == 0 && decide (addr + len ≤ 0x04000000) &&
    (!ring || (decide (leAt bs 19 1 < 64 ∧ 4 ≤ lg ∧ lg ≤ 12 ∧ leAt bs 37 1 < 16 ∧ 64 + 2 ^ lg * 32 ≤ len) &&
      decide (leAt bs 40 8 % (16 * 2 ^ lg) = 0 ∧ leAt bs 48 8 % 8 = 0) && s.inWindow (leAt bs 40 8) (16 * 2 ^ lg) && s.inWindow (leAt bs 48 8) 8))

/-- A host ring opened in a granted range: its control block zeroed, its registers set, its indices zero (R318). -/
def State.openRing (s : State) (h addr lg band cq sh : Nat) : State :=
  let s := (s.busWrite (.ctl 0) addr (List.replicate 64 0)).2
  let s := s.wr (Reg.cmHringSqbase h) addr
  let s := (s.wrPair (Reg.cmHringCqbaseLo h) (Reg.cmHringCqbaseHi h) 32 cq).wrPair (Reg.cmHringShadowLo h) (Reg.cmHringShadowHi h) 32 sh
  s.hringCfgWrite h (2 ^ 31 + lg * 2 ^ 16 + band)

/-- `MEM.GRANT`. -/
def State.memGrant (bs : List Byte) (s : State) : Ans × State :=
  let addr := leAt bs 24 8
  let h := leAt bs 19 1
  let ring := tb (leAt bs 18 1) 1
  if !s.grantInRange bs then (.ready (.st stBadParam), s)
  else if ring && (s.rdB (Reg.cmHringCfg h) 31 || s.fw.grants.any fun g => (g.2.bind (·.ring)) == some h) then (.ready (.st stBadState), s)
  else
    match (List.range 8).find? fun g => (s.grant? g).isNone with
    | none => (.ready (.st stNoResource), s)
    | some g =>
      let s := s.setGrant g (some { ring := if ring then some h else none, revoking := false })
      let s := (s.wr (Reg.memGrantBase g) addr).wr (Reg.memGrantLimit g) (addr + leAt bs 32 4 - 4096)
      let s := s.wr (Reg.memGrantCtrl g) (2 ^ 31)
      let s := if ring then s.openRing h addr (leAt bs 36 1) (leAt bs 37 1) (leAt bs 40 8) (leAt bs 48 8) else s
      (.ready (.ok (leBytes 2 g)), s)

def execMemGrant (m : Nat) (s : State) : Answer :=
  pcmd (decide (m < 64)) s fun s => s.handle m 0x0703 (fun bs => !tb (leAt bs 18 1) 0) State.memGrant

/-- A ring disabled by a revoke: what was not taken is discarded, an entry held for admission with it. -/
def State.ringRevoke (s : State) (h : Nat) : State :=
  let x := s.ringAt h
  let n := (x.sqPi + 65536 - x.sqCi) % 65536 + bn (s.held? (.ring h)).isSome
  ((s.wrF (Reg.cmHringCfg h) 31 31 0).setRing h { x with discarded := n }).withdraw (.ring h)

/-- A revoke is at its last step: the ring is idle. -/
def State.revokeReady (s : State) (g : Nat) : Bool :=
  match (s.grant? g).bind (·.ring) with
  | some h => s.ringIdle h
  | none => true

/-- The grant removed, and how many entries its ring discarded. -/
def State.revoked (s : State) (g : Nat) : Resp × State :=
  let n := match (s.grant? g).bind (·.ring) with
    | some h => (s.ringAt h).discarded
    | none => 0
  (.ok (leBytes 4 n), (s.setGrant g none).wr (Reg.memGrantCtrl g) 0)

/-- `MEM.GRANT` with REVOKE. -/
def State.memRevoke (bs : List Byte) (s : State) : Ans × State :=
  let g := leAt bs 16 2
  match s.grant? g with
  | none => (.ready (.st stBadParam), s)
  | some x =>
    if x.revoking then (.ready (.st stBadState), s)
    else
      let s := s.setGrant g (some { x with revoking := true })
      (.wait (.revoke g), match x.ring with
        | some h => s.ringRevoke h
        | none => s)

def execMemGrantRevoke (m : Nat) (s : State) : Answer :=
  pcmd (decide (m < 64)) s fun s => s.handle m 0x0703 (fun bs => tb (leAt bs 18 1) 0) State.memRevoke

/-! ### LANE (R356 to R358) -/

/-- A started carrier uses a port. -/
def State.portCarrier (s : State) (p : Nat) : Bool :=
  s.fw.carriers.any fun e => match e.2 with
    | some c => started c && cPort c == p
    | none => false

/-- A running NFE plan uses a stream. -/
def State.planStream (s : State) (st : Nat) : Bool :=
  s.nfes.any fun e => !e.2.plan.isEmpty && (leAt e.2.plan 8 2 == st || leAt e.2.plan 10 2 == st)

/-- A port in use by a started carrier or a running NFE plan. -/
def State.portUsed (s : State) (p : Nat) : Bool :=
  s.portCarrier p || s.front.streams.any fun e => match e.2 with
    | some k => k.port == p && s.planStream e.1
    | none => false

/-- A link in use by a started carrier, a running NFE plan or a Tether request. -/
def State.linkUsed (s : State) (k : LinkCfg) : Bool :=
  if k.mode = 5 then decide (k.port < 3) && s.rd (Reg.fhmTlPi k.port) != s.rd (Reg.fhmTlCi k.port)
  else decide (1 ≤ k.mode ∧ k.mode ≤ 4 ∧ k.port < 64) && s.portUsed k.port

/-- The links' fields as a message gives them. -/
def linkOf (bs : List Byte) : LinkCfg :=
  { group := leAt bs 18 1, first := leAt bs 19 1, lanes := leAt bs 20 1, mode := leAt bs 21 1, port := leAt bs 22 1, mult := leAt bs 24 1
    div := leAt bs 25 1, trate := leAt bs 26 1, tlId := leAt bs 28 2 }

/-- Width and place of a link suit its mode. -/
def linkShape (k : LinkCfg) : Bool :=
  match k.mode with
  | 1 => true
  | 2 => true
  | 3 => true
  | 4 => k.lanes == 4 && k.first % 4 == 0
  | 5 => decide (12 ≤ k.group) && (k.lanes == 4 || k.lanes == 8 || k.lanes == 16) && k.first % k.lanes == 0 && decide (k.trate ≤ 1)
  | 6 => k.lanes == 1 && decide (8 ≤ k.mult ∧ k.mult ≤ 180 ∧ k.div ≤ 3 ∧ 64 * 2 ^ k.div ≤ k.mult * 8)
  | _ => false

/-- A link's fields are in range. -/
def linkInRange (k : LinkCfg) : Bool :=
  decide (k.group ≤ 14 ∧ 1 ≤ k.lanes ∧ k.first + k.lanes ≤ 16) && linkShape k &&
    (k.port == 0xFF || decide (k.port < (if k.mode = 5 then 3 else 64)))

/-- A link lies on the same positions as another. -/
def linkMeets (a b : LinkCfg) : Bool := a.group == b.group && meets a.first a.lanes b.first b.lanes

/-- The two PLLs of the group serve the links with their references and rates (R322), and a port keeps to sixteen MACs of one group and
mode (R337). -/
def linksFit (ls : List LinkCfg) (k : LinkCfg) : Bool :=
  let all := k :: ls
  let rates : List (Bool × Nat) := ((all.filter fun x => x.group == k.group).map linkRate).eraseDups
  let mates := all.filter fun x => x.port == k.port && x.port != 0xFF && decide (1 ≤ x.mode ∧ x.mode ≤ 4)
  let macs : Nat := (mates.map fun x => if x.mode = 4 then 1 else x.lanes).sum
  decide (rates.length ≤ 2) && (k.mode == 5 || k.mode == 6 || (mates.all (fun (x : LinkCfg) => x.group == k.group && x.mode == k.mode) && decide (macs ≤ 16)))

/-- The modes of a link's lanes set; a lane that is out of service stays down. -/
def State.setLink (s : State) (k : LinkCfg) (mode : Nat) : State :=
  (List.range k.lanes).foldl (fun s i =>
    let l := s.laneAt k.group (k.first + i)
    if !s.laneLive k.group l then s
    else
      let s := if mode = 6 then s.wr (Reg.laneRate k.group l) (k.div * 256 + k.mult) else s
      s.setLaneMode k.group l mode) s

/-- A link removed: its lanes are OFF. -/
def State.dropLink (s : State) (k : LinkCfg) : State :=
  let s := s.setLink k 0
  { s with front := { s.front with links := s.front.links.filter fun x => !(x.group == k.group && x.first == k.first) } }

/-- A link made: its lanes begin bring-up. -/
def State.makeLink (s : State) (k : LinkCfg) : State :=
  let s := { s with front := { s.front with links := s.front.links ++ [k] } }
  let s := if k.mode = 5 ∧ k.port < 3 then s.wr (Reg.fhmTlTlId k.port) k.tlId else s
  s.setLink k k.mode

/-- `LANE.CONFIG` KIND 0. -/
def State.configLink (bs : List Byte) (s : State) : Ans × State :=
  let k := linkOf bs
  let old := s.front.links.find? fun x => x.group == k.group && x.first == k.first
  let others := s.front.links.filter fun x => !(x.group == k.group && x.first == k.first)
  if tb (leAt bs 17 1) 0 then
    match old with
    | none => (.ready (.st stBadParam), s)
    | some o =>
      if o.lanes ≠ k.lanes then (.ready (.st stBadParam), s)
      else if s.linkUsed o then (.ready (.st stBadState), s)
      else (.ready (.st stOk), s.dropLink o)
  else
    let taken := k.mode == 5 && k.port != 0xFF && others.any fun x => x.mode == 5 && x.port == k.port
    if !linkInRange k || others.any (linkMeets k) || taken then (.ready (.st stBadParam), s)
    else if (old.map s.linkUsed).getD false then (.ready (.st stBadState), s)
    else if !linksFit others k then (.ready (.st stNoResource), s)
    else
      let s := match old with
        | some o => s.dropLink o
        | none => s
      (.ready (.st stOk), s.makeLink k)

def execLaneConfigLink (m : Nat) (s : State) : Answer :=
  pcmd (decide (m < 64)) s fun s => s.handle m 0x0801 (fun bs => leAt bs 16 1 == 0) State.configLink

/-- `LANE.CONFIG` KIND 1. -/
def State.configPort (bs : List Byte) (s : State) : Ans × State :=
  let p := leAt bs 18 1
  let old := mget (fun _ => none) s.front.ports p
  let set := fun (x : Option PortCfg) => { s with front := { s.front with ports := mput (fun _ => none) s.front.ports p x } }
  if 63 < p then (.ready (.st stBadParam), s)
  else if tb (leAt bs 17 1) 0 then
    if old.isNone then (.ready (.st stBadParam), s)
    else if s.portUsed p then (.ready (.st stBadState), s)
    else (.ready (.st stOk), set none)
  else if 3 < leAt bs 19 1 ∨ 16 < leAt bs 22 1 then (.ready (.st stBadParam), s)
  else if old.isSome && s.portUsed p then (.ready (.st stBadState), s)
  else
    (.ready (.st stOk), set (some {
      transport := leAt bs 19 1, vlan := leAt bs 20 2, staticW := leAt bs 22 1, localMac := leAt bs 24 6, peerMac := leAt bs 32 6
      udp := leAt bs 40 2, localIp := leAt bs 48 16, peerIp := leAt bs 64 16 }))

def execLaneConfigPort (m : Nat) (s : State) : Answer :=
  pcmd (decide (m < 64)) s fun s => s.handle m 0x0801 (fun bs => leAt bs 16 1 == 1) State.configPort

/-- A stream in use by a started carrier or a running NFE plan. -/
def State.streamUsed (s : State) (st : Nat) (k : StreamCfg) : Bool :=
  (k.use == 0 && ((s.carrier? k.carrier).map started).getD false) || (k.use == 1 && s.planStream st)

/-- A stream's fields are in range: SPM divides the samples of a frame (R342). -/
def streamInRange (st : Nat) (k : StreamCfg) : Bool :=
  decide (st < 4096 ∧ k.port < 64 ∧ k.dir ≤ 1 ∧ k.use ≤ 1 ∧ k.mac < 16) &&
    (if k.use = 0 then decide (k.carrier < 384 ∧ k.ant < 64) else decide (k.carrier ≤ 4 ∧ 0 < k.ant ∧ fsSamples k.carrier % k.ant = 0))

/-- `LANE.CONFIG` KIND 2. -/
def State.configStream (bs : List Byte) (s : State) : Ans × State :=
  let st := leAt bs 18 2
  let old := s.stream? st
  let k : StreamCfg := {
    port := leAt bs 20 1, dir := leAt bs 21 1, ident := leAt bs 22 2, use := leAt bs 24 1, carrier := leAt bs 26 2, ant := leAt bs 28 2
    mac := leAt bs 30 1, offset := sx 32 (leAt bs 32 4) }
  let set := fun (x : Option StreamCfg) => { s with front := { s.front with
    streams := mput (fun _ => none) s.front.streams st x, tdNext := mput (fun _ => 0) s.front.tdNext st 0, td := mput (fun _ => none) s.front.td st none } }
  let used := (old.map (s.streamUsed st)).getD false
  if tb (leAt bs 17 1) 0 then
    if 4095 < st ∨ old.isNone then (.ready (.st stBadParam), s)
    else if used then (.ready (.st stBadState), s)
    else (.ready (.st stOk), set none)
  else if !streamInRange st k then (.ready (.st stBadParam), s)
  else if used then (.ready (.st stBadState), s)
  else (.ready (.st stOk), set (some k))

def execLaneConfigStream (m : Nat) (s : State) : Answer :=
  pcmd (decide (m < 64)) s fun s => s.handle m 0x0801 (fun bs => leAt bs 16 1 == 2) State.configStream

/-- A lane that LANE messages may name: not of PG15 (R355), and no retired position (R335). -/
def State.laneNamed (s : State) (g l : Nat) : Bool := decide (g < 15 ∧ l < 17) && !(l != 16 && s.spared g l)

/-- `LANE.STATUS`: the counts since the one before. -/
def State.laneStatus (bs : List Byte) (s : State) : Ans × State :=
  let g := leAt bs 16 1
  let l := leAt bs 17 1
  if !s.laneNamed g l then (.ready (.st stBadParam), s)
  else
    let (st, s) := s.regNow (.ctl 0) 0xC00004 [g, l] (Reg.laneStat g l)
    let x := s.lane g l
    let eye := s.rd (Reg.laneEye g l)
    let p := leBytes 1 (fld st 31 28) ++ leBytes 1 (st % 256) ++ leBytes 1 (s.laneMode g l) ++ leBytes 1 (fld st 27 24) ++
      leBytes 4 x.retry ++ leBytes 4 x.errs ++ leBytes 4 x.fecC ++ leBytes 4 x.fecU ++ leBytes 2 (fld eye 7 0) ++ leBytes 2 (fld eye 27 16)
    (.ready (.ok p), s.setLane g l { x with retry := 0, errs := 0, fecC := 0, fecU := 0 })

def execLaneStatus (m : Nat) (s : State) : Answer :=
  pcmd (decide (m < 64)) s fun s => s.handle m 0x0802 (fun _ => true) State.laneStatus

/-- A `LANE.EQ` on a lane of an FG or XG group. -/
def State.laneEq (bs : List Byte) (s : State) (f : Nat → Nat → State → Ans × State) : Ans × State :=
  let g := leAt bs 16 1
  let l := leAt bs 17 1
  if !s.laneNamed g l then (.ready (.st stBadParam), s) else f g l s

/-- OP 0: the taps. -/
def State.eqTaps (bs : List Byte) (s : State) : Ans × State :=
  let (pre, main, post) := (leAt bs 20 1, leAt bs 21 1, leAt bs 22 1)
  s.laneEq bs fun g l s =>
    if tapsOk pre main post then (.ready (.st stOk), s.txeqWrite g l (post * 2 ^ 16 + main * 2 ^ 8 + pre)) else (.ready (.st stBadParam), s)

/-- OP 1 and OP 2: the receiver frozen or released. -/
def State.eqFreeze (v : Nat) (bs : List Byte) (s : State) : Ans × State :=
  s.laneEq bs fun g l s => (.ready (.st stOk), s.rxeqWrite g l (v == 1))

def execLaneEqTaps (m : Nat) (s : State) : Answer :=
  pcmd (decide (m < 64)) s fun s => s.handle m 0x0803 (fun bs => leAt bs 18 1 == 0) State.eqTaps

def execLaneEqFreeze (m : Nat) (s : State) : Answer :=
  pcmd (decide (m < 64)) s fun s => s.handle m 0x0803 (fun bs => leAt bs 18 1 == 1) (State.eqFreeze 1)

def execLaneEqRelease (m : Nat) (s : State) : Answer :=
  pcmd (decide (m < 64)) s fun s => s.handle m 0x0803 (fun bs => leAt bs 18 1 == 2) (State.eqFreeze 0)

/-! ### TIME (R387 to R389) -/

/-- The handling of a TIME.SET of one kind: OK, or BAD_PARAM where `ok` says so. -/
def State.timeSet (s : State) (m kind : Nat) (ok : List Byte → Bool) (f : List Byte → State → State) : State :=
  s.handle m 0x0901 (fun bs => leAt bs 16 1 == kind) fun bs s =>
    if ok bs then (.ready (.st stOk), f bs s) else (.ready (.st stBadParam), s)

/-- KIND 0. -/
def State.setAbsolute (bs : List Byte) (s : State) : State :=
  ((s.wr Reg.mrdSetNs (leAt bs 32 4)).wrPair Reg.mrdSetSLo Reg.mrdSetSHi 16 (leAt bs 24 6)).setTime 1

def execTimeSetAbsolute (m : Nat) (s : State) : Answer :=
  pcmd (decide (m < 64)) s fun s => s.timeSet m 0 (fun bs => decide (leAt bs 32 4 < 1000000000)) State.setAbsolute

/-- KIND 1. -/
def State.setStep (bs : List Byte) (s : State) : State := (s.wrPair Reg.mrdStepLo Reg.mrdStepHi 32 (leAt bs 24 8)).setTime 2

def execTimeSetStep (m : Nat) (s : State) : Answer := pcmd (decide (m < 64)) s fun s => s.timeSet m 1 (fun _ => true) State.setStep

/-- The fields of KIND 2 are in range. -/
def servoInRange (bs : List Byte) : Bool :=
  let src := leAt bs 20 1
  (decide (src ≤ 2) || decide (8 ≤ src ∧ src ≤ 15)) && decide (1 ≤ leAt bs 46 2 ∧ leAt bs 46 2 ≤ 1024)

/-- KIND 2: SRC 1 and 2 both make the hardware source OFFSET. -/
def State.setServo (bs : List Byte) (s : State) : State :=
  let src := leAt bs 20 1
  let fl := leAt bs 21 1
  let s := (s.wr Reg.mrdKp (leAt bs 24 4)).wr Reg.mrdKi (leAt bs 28 4)
  let s := (s.wr Reg.mrdLock (leAt bs 34 1 * 2 ^ 16 + leAt bs 32 2)).wr Reg.mrdUnlockNs (leAt bs 36 4)
  let s := (s.wr Reg.mrdStepNs (leAt bs 40 4)).wr Reg.mrdHold (leAt bs 46 2 * 2 ^ 16 + leAt bs 44 2)
  let s := { s with mrd := { s.mrd with hostSrc := src == 2 } }
  s.servoWrite (bn (tb fl 0) * 2 ^ 31 + bn (tb fl 1) * 2 ^ 30 + (if src = 2 then 1 else src))

def execTimeSetServo (m : Nat) (s : State) : Answer := pcmd (decide (m < 64)) s fun s => s.timeSet m 2 servoInRange State.setServo

/-- The fields of KIND 3 are in range (R375): PERIOD and WIDTH where the mode uses them. -/
def outputInRange (bs : List Byte) : Bool :=
  let mode := leAt bs 20 1
  let w := leAt bs 44 4
  decide (leAt bs 17 1 < 4 ∧ mode ≤ 2 ∧ leAt bs 32 4 < 1000000000) &&
    (mode != 1 || (decide (100 ≤ leAt bs 36 4) && decide ((w + 8) * 65536 ≤ leAt bs 36 4 * 65536 + leAt bs 40 2))) && (mode == 0 || decide (8 ≤ w))

/-- KIND 3. -/
def State.setOutput (bs : List Byte) (s : State) : State :=
  let k := leAt bs 17 1
  let fl := leAt bs 21 1
  let s := (s.wr (Reg.mrdOutStartNs k) (leAt bs 32 4)).wrPair (Reg.mrdOutStartSLo k) (Reg.mrdOutStartSHi k) 16 (leAt bs 24 6)
  let s := ((s.wr (Reg.mrdOutPeriodNs k) (leAt bs 36 4)).wr (Reg.mrdOutPeriodFr k) (leAt bs 40 2)).wr (Reg.mrdOutWidthNs k) (leAt bs 44 4)
  s.pulseWrite k (bn (tb fl 1) * 8 + bn (tb fl 0) * 4 + leAt bs 20 1)

def execTimeSetOutput (m : Nat) (s : State) : Answer := pcmd (decide (m < 64)) s fun s => s.timeSet m 3 outputInRange State.setOutput

/-- The fields of KIND 4 are in range. -/
def captureInRange (bs : List Byte) : Bool :=
  decide (leAt bs 17 1 < 8 ∧ leAt bs 20 1 ≤ 3 ∧ leAt bs 22 2 < 16384) && (decide (leAt bs 24 1 < 32) || leAt bs 24 1 == 0xFF)

/-- KIND 4. -/
def State.setCapture (bs : List Byte) (s : State) : State :=
  let k := leAt bs 17 1
  let flag := leAt bs 24 1
  let s := s.wr (Reg.mrdCapOfs k) (leAt bs 28 4)
  s.capWrite k (leAt bs 20 1 * 2 ^ 30 + (if flag = 0xFF then 0 else 2 ^ 29 + flag * 2 ^ 24) + leAt bs 22 2 * 2 ^ 8)

def execTimeSetCapture (m : Nat) (s : State) : Answer := pcmd (decide (m < 64)) s fun s => s.timeSet m 4 captureInRange State.setCapture

/-- `TIME.OFFSET`: one sample, where the servo's source is the host. -/
def State.timeOffset (bs : List Byte) (s : State) : Ans × State :=
  if s.timeSrc ≠ 2 then (.ready (.st stBadState), s)
  else
    let s := if tb (leAt bs 24 1) 0 then s.servoWrite (s.rd Reg.mrdServo ||| 2 ^ 30) else s
    let s := s.wr Reg.mrdOffsetLo (leAt bs 16 4)
    (.ready (.st stOk), s.offsetWrite (.ctl 0) (leAt bs 20 4))

def execTimeOffset (m : Nat) (s : State) : Answer :=
  pcmd (decide (m < 64)) s fun s => s.handle m 0x0902 (fun _ => true) State.timeOffset

def execTimeQuery (m : Nat) (s : State) : Answer :=
  pcmd (decide (m < 64)) s fun s => s.handle m 0x0903 (fun _ => true) fun _ s => (.ready (.ok s.timeQuery), s)

/-! ### FSK (R224, R252, R253) -/

/-- BAD_PARAM with the offset of a plan block's faulty field. -/
def badPlan (off : Nat) : Resp := { status := stBadParam, flags := 0, payload := leBytes 2 off }

/-- A time-domain stream in a direction is configured. -/
def State.tdBound (s : State) (st dir : Nat) : Bool :=
  match s.stream? st with
  | some k => k.use == 1 && k.dir == dir
  | none => false

/-- `FSK.PLAN`: which field of a block that breaks only R227 is named is free (log entry 1). -/
def State.fskPlan (bs : List Byte) (s : State) : Ans × State :=
  let n := leAt bs 16 1
  if 3 < n ∨ leAt bs 32 4 ≠ 1600 then (.ready (.st stBadParam), s)
  else
    match s.hostImage (leAt bs 24 8) 1600 with
    | none => (.ready (.st stBadParam), s)
    | some b =>
      match planRange b with
      | some off => (.ready (badPlan off), s)
      | none =>
        if !planFits b then
          let (off, s) := s.free 1600
          (.ready (badPlan off), s)
        else if !s.engIn (76 + n) || !s.tdBound (leAt b 8 2) 0 || (leAt b 10 2 != 0xFFFF && !s.tdBound (leAt b 10 2) 1) then
          (.ready (.st stNoResource), s)
        else (.ready (.st stOk), s.planApply n b)

def execFskPlan (m : Nat) (s : State) : Answer :=
  pcmd (decide (m < 64)) s fun s => s.handle m 0x0A01 (fun bs => !tb (leAt bs 17 1) 0) State.fskPlan

/-- `FSK.PLAN` with STOP. -/
def State.fskStop (bs : List Byte) (s : State) : Ans × State :=
  let n := leAt bs 16 1
  if 3 < n then (.ready (.st stBadParam), s)
  else (.ready (.st stOk), s.planStop n)

def execFskPlanStop (m : Nat) (s : State) : Answer :=
  pcmd (decide (m < 64)) s fun s => s.handle m 0x0A01 (fun bs => tb (leAt bs 17 1) 0) State.fskStop

/-- The job descriptor of a burst (R244): its status record behind it, then the data. -/
def burstJob (bs : List Byte) (job : Nat) : List Byte :=
  let b := fun i => bs.getD i 0
  [7, 1, 0, 0, 0, 0, 0, 0] ++ leBytes 8 (job + 128) ++ List.replicate 16 0 ++ [b 17, b 18, b 19, b 20, b 22, b 23, b 40, b 41] ++
    (List.range 8).map (fun i => b (24 + i)) ++ [b 21, 0, b 42, b 43, 0, 0, 0, 0] ++ leBytes 8 (job + 192) ++ List.replicate 64 0

/-- The task descriptor of a burst: class 39 + n, no event awaited, priority 0. -/
def burstTask (n flow job : Nat) : List Word :=
  [BitVec.ofNat 32 job, BitVec.ofNat 32 (flow * 2 ^ 16 + job / 2 ^ 32), 0, BitVec.ofNat 32 ((39 + n) * 2 ^ 20), 0, 0, 0, 0]

/-- Device memory that the firmware may use for a burst. -/
def State.burstPlace (s : State) (job : Nat) : Bool :=
  job % 64 == 0 && (decide (job + 2304 ≤ residentBase) || decide (dramBase ≤ job ∧ job + 2304 ≤ dramBase + s.dramCap))

/-- `FSK.TX`: `flow`, `job` and `sl` are the firmware's flow, device memory and the slot admitted. A burst that back-pressure holds is
not yet submitted. -/
def State.fskTx (flow job sl : Nat) (bs : List Byte) (s : State) : Ans × State :=
  let n := leAt bs 16 1
  let res := leAt bs 48 8
  let d := burstJob bs job
  if 3 < n || res % 16 != 0 || !s.inWindow res 16 || (s.burstFault n (2 ^ 96) d d).isSome then (.ready (.st stBadParam), s)
  else
    match s.hostImage (leAt bs 32 8) (leAt bs 40 2) with
    | none => (.ready (.st stBadParam), s)
    | some data =>
      if !s.burstPlace job then (.none, s)
      else
        let t := (s.busWrite (.ctl 0) job (d ++ List.replicate 64 0)).2
        let t := (t.busWrite (.ctl 0) (job + 192) data).2
        match t.submitNow (burstTask n flow job) sl with
        | (none, _) => (.none, s)
        | (some h, t) =>
          if 2 ^ 31 ≤ h then (.ready (.st stNoResource), t)
          else
            (.ready { status := stAccepted, flags := 0, payload := leBytes 4 h },
              { t with fw := { t.fw with fskTx := t.fw.fskTx ++ [{ handle := h, result := res, status := job + 128, record := none }] } })

def execFskTx (m flow job sl : Nat) (s : State) : Answer :=
  pcmd (decide (m < 64) && decide (flow < 65536) && decide (sl < 131072)) s fun s => s.handle m 0x0A02 (fun _ => true) (State.fskTx flow job sl)

/-- `FSK_TX_RESULT_WRITE`: the burst has committed; its record is written behind its results. -/
def State.fskResult (s : State) (h : Nat) (ok : Bool) : State :=
  match s.fw.fskTx.find? fun x => x.handle == h && x.record.isSome with
  | none => s
  | some x =>
    let s := { s with fw := { s.fw with fskTx := s.fw.fskTx.filter fun y => y.handle != h } }
    if ok then s.toHost x.result (x.record.getD []) else s

def execFskTxResultWrite (handle : Nat) (ok : Bool) (s : State) : Answer := pcmd true s fun s => s.fskResult handle ok

/-- `FSK.TXABORT`: the answer waits for the engine's status record. A handle that is no burst of the firmware's is a BAD_PARAM while its
task lives. -/
def State.fskAbort (bs : List Byte) (s : State) : Ans × State :=
  let h := leAt bs 16 4
  match s.fw.fskTx.find? fun x => x.handle == h with
  | none => (.ready (.st (if (s.slotOf h).isSome then stBadParam else stAlreadyDone)), s)
  | some x =>
    match s.cancelHandle h with
    | (true, s) => (.wait (.burst h x.status), s)
    | (false, s) => (.ready (.st stAlreadyDone), s)

def execFskTxabort (m : Nat) (s : State) : Answer :=
  pcmd (decide (m < 64)) s fun s => s.handle m 0x0A03 (fun _ => true) State.fskAbort

/-- A cancelled burst's unit has stopped writing for it. -/
def State.burstOver (s : State) (h : Nat) : Bool :=
  match (s.slotOf h).bind s.task? with
  | some t => t.st == .recorded
  | none => true

/-- RADIATED and BYTES from the status record. -/
def State.burstAnswer (s : State) (status : Nat) : Resp × State :=
  match s.busRead (.ctl 0) status 32 with
  | (.ok r, s) => (.ok (leBytes 1 (leAt r 4 1 % 4) ++ [0] ++ leBytes 2 (leAt r 2 2)), s)
  | (_, s) => (.st stFault, s)

/-! ### TRELLIS (R415 to R417) -/

/-- BAD_IMAGE of a Trellis load: DETAIL and POS. -/
def badFabric (detail pos : Nat) : Resp := { status := stBadImage, flags := 0, payload := leBytes 1 detail ++ [0, 0, 0] ++ leBytes 4 pos }

/-- A named region has a column that cannot be mapped (R441). -/
def State.regionLost (s : State) (mask : Nat) : Bool := s.rsv.out.any fun e => e.1 == 11 && tb mask (e.2 / 8)

/-- `TRELLIS.LOAD`. -/
def State.trellisLoad (bs : List Byte) (s : State) : Ans × State :=
  if s.trl.job.isSome then (.ready (.st stBusy), s)
  else
    match s.hostImage (leAt bs 24 8) (leAt bs 32 4) with
    | none => (.ready (.st stBadParam), s)
    | some img =>
      let c := s.checkImage 3 img
      let p := krvPayload img
      let f := s.fabricCheck p
      let h := fabricHdr p
      if c ≠ 0 then (.ready (badFabric 1 c), s)
      else if f.1 ≠ 0 then (.ready (badFabric f.1 f.2), s)
      else if s.regionLost h.mask then (.ready (.st stNoResource), s)
      else if s.loadBlocked h then (.ready (.st stBadState), s)
      else
        let gap := leAt bs 18 2
        let auto := if tb (leAt bs 16 1) 0 then some gap else none
        (.wait (.trellis h.mask), s.startJob
          { mask := h.mask, hold := true, gap := gapOf gap, count := 1, image := p, loading := false, autorel := auto, unload := false })

def execTrellisLoad (m : Nat) (s : State) : Answer :=
  pcmd (decide (m < 64)) s fun s => s.handle m 0x0B01 (fun _ => true) State.trellisLoad

/-- A `TRELLIS.RELEASE` of one OP: `bad` says which regions refuse it. -/
def State.trellisOp (s : State) (bs : List Byte) (bad : Nat → Bool) (hold unload : Bool) : Ans × State :=
  let mask := leAt bs 16 1
  if s.trl.job.isSome then (.ready (.st stBusy), s)
  else if (regions mask).any bad then (.ready (.st stBadState), s)
  else if mask = 0 then (.ready (.st stOk), s)
  else
    (.wait (.trellis mask), s.startJob
      { mask := mask, hold := hold, gap := gapOf (leAt bs 18 2), count := 1, image := [], loading := false, autorel := none, unload := unload })

def execTrellisRelease (m : Nat) (s : State) : Answer :=
  pcmd (decide (m < 64)) s fun s => s.handle m 0x0B02 (fun bs => leAt bs 17 1 == 0) fun bs s =>
    s.trellisOp bs (fun g => s.regionSt g != 2 || s.noRelease g) false false

def execTrellisHold (m : Nat) (s : State) : Answer :=
  pcmd (decide (m < 64)) s fun s => s.handle m 0x0B02 (fun bs => leAt bs 17 1 == 1) fun bs s =>
    s.trellisOp bs (fun g => decide (s.regionSt g < 2)) true false

def execTrellisUnload (m : Nat) (s : State) : Answer :=
  pcmd (decide (m < 64)) s fun s => s.handle m 0x0B02 (fun bs => leAt bs 17 1 == 2) fun bs s =>
    s.trellisOp bs (fun _ => false) true true

/-- `TRELLIS.QUERY`. -/
def State.trellisQuery (s : State) : List Byte :=
  let g := s.rd Reg.trlGuard
  leBytes 4 (s.rd Reg.trlRstat) ++ leBytes 2 (s.rdF Reg.trlStat 15 0) ++ leBytes 1 (s.rdF Reg.trlStat 25 24) ++ [0] ++
    leBytes 4 (s.rd Reg.trlGuardCnt) ++ leBytes 2 (fld g 15 8 * 32 + fld g 4 0)

def execTrellisQuery (m : Nat) (s : State) : Answer :=
  pcmd (decide (m < 64)) s fun s => s.handle m 0x0B03 (fun _ => true) fun _ s => (.ready (.ok s.trellisQuery), s)

/-! ### SPARE (R444, R445) -/

def execSpareQuery (m : Nat) (s : State) : Answer :=
  pcmd (decide (m < 64)) s fun s => s.handle m 0x0C02 (fun _ => true) fun bs s =>
    let k := leAt bs 16 1
    if 13 < k ∧ k ≠ 0xFF then (.ready (.st stBadParam), s)
    else
      let (p, s) := s.spareQuery k
      (.ready (.ok p), s)

def execSpareRetire (m : Nat) (s : State) : Answer :=
  pcmd (decide (m < 64)) s fun s => s.handle m 0x0C03 (fun _ => true) fun bs s =>
    let (st, s) := s.spareRetire (leAt bs 16 1) (leAt bs 17 1) (leAt bs 18 2) (leAt bs 24 8)
    (.ready (.st st), s)

/-! ### CENSUS (R520) -/

/-- The bytes of a record of these groups in this view (R516, R517). -/
def State.recordLen (s : State) (physical : Bool) (groups : Nat) : Nat :=
  let sect := fun g =>
    let (v, h) := groupShape g
    16 + (s.cenUnits physical g).length * (8 + 8 * v + 256 * h)
  alignUp (64 + (((List.range 10).filter fun g => tb groups g).map sect).sum) 64

/-- The fields of a CENSUS.CONFIG are in range: PERIOD is not below the reader time (R511). -/
def State.cenInRange (s : State) (bs : List Byte) : Bool :=
  let per := leAt bs 16 4
  let lg := leAt bs 23 1
  let host := leAt bs 24 8
  let hlg := leAt bs 32 1
  decide (1 ≤ per ∧ per ≤ 10000000 ∧ leAt bs 20 2 < 1024 ∧ leAt bs 22 1 ≤ 1 ∧ 16 ≤ lg ∧ lg ≤ 32) &&
    decide (10000 + s.recordLen (leAt bs 22 1 == 1) (leAt bs 20 2) ≤ per * 20000) &&
    (host == 0 || (decide (hlg < 40) && s.inWindow host (2 ^ hlg) && leAt bs 40 8 % 8 == 0 && s.inWindow (leAt bs 40 8) 16))

/-- Every channel in use is READY. -/
def State.dramReady (s : State) : Bool := (List.range s.nch).all fun n => s.dmcState n == 2

/-- `CENSUS.CONFIG`; `addr` is the DRAM ring that the firmware allocates. -/
def State.censusConfig (addr : Nat) (bs : List Byte) (s : State) : Ans × State :=
  let lg := leAt bs 23 1
  if s.rdB Reg.cenCtrl 31 then (.ready (.st stBadState), s)
  else if !s.cenInRange bs then (.ready (.st stBadParam), s)
  else if !s.dramReady || addr % 2 ^ lg != 0 || !s.rangeFree 2 addr (2 ^ lg) (fun x => x.handle != 0) then (.ready (.st stNoResource), s)
  else
    let s := s.cenCtrlWrite (leAt bs 22 1 * 2 ^ 16 + leAt bs 20 2)
    let s := (s.wr Reg.cenPeriod (leAt bs 16 4)).wr Reg.cenRingLog2 lg
    let s := (s.wrPair Reg.cenRingLo Reg.cenRingHi 16 addr).wr Reg.cenCi (s.rd Reg.cenPi)
    let fw : FwState := { s.fw with
      allocs := (s.fw.allocs.filter fun x => x.handle != 0) ++ [{ handle := 0, addr := addr, len := 2 ^ lg }], cenCfg := true
      cenHost := leAt bs 24 8, cenHostLog2 := leAt bs 32 1, cenHostShadow := leAt bs 40 8, cenHostPi := 0, cenCopied := s.rd Reg.cenPi }
    (.ready (.ok (leBytes 8 addr)), { s with fw := fw })

def execCensusConfig (m addr : Nat) (s : State) : Answer :=
  pcmd (decide (m < 64)) s fun s => s.handle m 0x0D01 (fun _ => true) (State.censusConfig addr)

/-- `CENSUS.START`: the first tick is the next multiple of the period. -/
def State.censusStart (s : State) : Ans × State :=
  if !s.fw.cenCfg then (.ready (.st stBadState), s)
  else
    let s := s.cenCtrlWrite (2 ^ 31 + s.rd Reg.cenCtrl % 2 ^ 17)
    (.ready (.ok (taiBytes s.cen.next)), s)

def execCensusStart (m : Nat) (s : State) : Answer :=
  pcmd (decide (m < 64)) s fun s => s.handle m 0x0D02 (fun _ => true) fun _ s => s.censusStart

/-- `CENSUS.STOP`: answered once the last record is in the ring. -/
def execCensusStop (m : Nat) (s : State) : Answer :=
  pcmd (decide (m < 64)) s fun s => s.handle m 0x0D03 (fun _ => true) fun _ s =>
    (.wait .census, s.cenCtrlWrite (s.rd Reg.cenCtrl % 2 ^ 17))

/-! ### DEBUG (R505, R506) -/

/-- `DEBUG.AUTH` OP 0: a fresh challenge. -/
def State.authChallenge (s : State) : Ans × State :=
  let (c, s) := s.freeBytes 32
  (.ready (.ok c), { s with sec := { s.sec with challenge := some c } })

def execDebugAuthChallenge (m : Nat) (s : State) : Answer :=
  pcmd (decide (m < 64)) s fun s => s.handle m 0x0E01 (fun bs => leAt bs 16 1 == 0) fun _ s => s.authChallenge

/-- The verifier accepts a request: an owner key with DEBUG = 1 signed challenge, UID, SCOPE and KEY_ID. -/
def State.authOk (s : State) (bs : List Byte) : Bool :=
  let field := fun off n => (List.range n).map fun i => bs.getD (off + i) 0
  let id := leAt bs 20 4
  match s.sec.challenge with
  | none => false
  | some c =>
    ((List.range 8).any fun n =>
      let k := s.keySlot n
      k.enrolled && !k.revoked && k.debug && k.id == id && k.hash == sha384 (field 32 96)) &&
    ecdsaOk (field 32 96) (field 128 96) (sha384 (c ++ leBytes 8 Config.uid.toNat ++ field 24 1 ++ field 20 4))

/-- OP 1: accepted or not, the challenge is discarded. -/
def State.authVerify (bs : List Byte) (s : State) : Ans × State :=
  let t := { s with sec := { s.sec with challenge := none } }
  if s.authOk bs then (.ready (.st stOk), t.wr Reg.secDbg (leAt bs 24 1 % 16)) else (.ready (.st stDenied), t)

def execDebugAuthVerify (m : Nat) (s : State) : Answer :=
  pcmd (decide (m < 64)) s fun s => s.handle m 0x0E01 (fun bs => leAt bs 16 1 == 1) State.authVerify

/-- OP 2. -/
def execDebugAuthClear (m : Nat) (s : State) : Answer :=
  pcmd (decide (m < 64)) s fun s => s.handle m 0x0E01 (fun bs => leAt bs 16 1 == 2) fun _ s => (.ready (.st stOk), s.wr Reg.secDbg 0)

/-- ADDR and LEN of a debug access that SCOPE bit 1 allows. -/
def State.debugAccess (s : State) (bs : List Byte) (f : Nat → Nat → State → Ans × State) : Ans × State :=
  let n := leAt bs 24 1
  if !s.rdB Reg.secDbg 1 then (.ready (.st stDenied), s)
  else if n = 0 ∨ 32 < n then (.ready (.st stBadParam), s)
  else f (leAt bs 16 8) n s

/-- `DEBUG.READ`: as control core 0; an access that fails is answered FAULT. -/
def State.debugRead (bs : List Byte) (s : State) : Ans × State :=
  s.debugAccess bs fun a n s =>
    match s.devRead (.ctl 0) a n with
    | (.ok d, s) => (.ready (.ok d), s)
    | (_, s) => (.ready (.st stFault), s)

def execDebugRead (m : Nat) (s : State) : Answer :=
  pcmd (decide (m < 64)) s fun s => s.handle m 0x0E02 (fun _ => true) State.debugRead

/-- `DEBUG.WRITE`. -/
def State.debugWrite (bs : List Byte) (s : State) : Ans × State :=
  s.debugAccess bs fun a n s =>
    match s.devWrite (.ctl 0) a ((List.range n).map fun i => bs.getD (32 + i) 0) with
    | (.ok, s) => (.ready (.st stOk), s)
    | (_, s) => (.ready (.st stFault), s)

def execDebugWrite (m : Nat) (s : State) : Answer :=
  pcmd (decide (m < 64)) s fun s => s.handle m 0x0E03 (fun _ => true) State.debugWrite

end Sys2Proof.Machine
end

