-- ==== Sys2Proof/Machine/Firmware.lean ====
section
/-! DEFINITION. The control firmware's part of a response (R38, R39) and its reaching RUNNING (R50, R56). -/

namespace Sys2Proof.Machine

/-! ### Requests that no message of the command set handles -/

/-- The pairs of SCOPE and STATE that PWR.SET accepts (R453). -/
def pwrPairs : List (Nat × Nat) := [(0, 0), (0, 3), (0, 4), (1, 0), (1, 2), (1, 4), (2, 0), (2, 2)]

/-- Opcodes whose requests the firmware handles in one form only (R53). -/
def plainOps : List Nat :=
  [0x0101, 0x0102, 0x0103, 0x0202, 0x0301, 0x0302, 0x0303, 0x0304, 0x0401, 0x0402, 0x0403, 0x0501, 0x0502, 0x0503, 0x0601, 0x0602,
   0x0603, 0x0701, 0x0702, 0x0703, 0x0802, 0x0902, 0x0903, 0x0A01, 0x0A02, 0x0A03, 0x0B01, 0x0B03, 0x0C02, 0x0C03, 0x0D01, 0x0D02,
   0x0D03, 0x0E02, 0x0E03]

/-- A request that names a message in one of its forms; any other is answered BAD_PARAM (R42, R44, R453). -/
def namesMessage (bs : List Byte) : Bool :=
  let op := mOp bs
  plainOps.contains op ||
    match op with
    | 0x0104 => decide (leAt bs 16 1 < 2)
    | 0x0201 => pwrPairs.contains (pwrPair bs)
    | 0x0801 => decide (leAt bs 16 1 < 3)
    | 0x0803 => decide (leAt bs 18 1 < 3)
    | 0x0901 => decide (leAt bs 16 1 < 5)
    | 0x0B02 => decide (leAt bs 17 1 < 3)
    | 0x0E01 => decide (leAt bs 16 1 < 3)
    | _ => false

/-- The messages of the boot ROM in ROM hold (R502). -/
def romOps : List Nat := [0x0101, 0x0102, 0x0180, 0x0181]

/-- The answer to a request that names no message, or none where it names one. -/
def State.strayAnswer (s : State) (m : Nat) (bs : List Byte) : Option Resp :=
  if (if s.fwSt = 3 then namesMessage bs else !s.romServes m || romOps.contains (mOp bs)) then none
  else some ((s.refuse m bs).getD (.st stBadParam))

/-! ### `RESPONSE_COMMIT` (R38, R39) -/

/-- An entry to DEEP or OFF begins (R68, R454): WAKE_AT is kept for Nightwatch. -/
def State.entryBegins (s : State) (deep : Bool) (wake : Option Nat) : State :=
  ({ s with nw := { s.nw with wakeAt := wake } } : State).beginEntry deep

/-- A response that an effect follows (R55, R68). -/
def State.respondThen (s : State) (m k : Nat) (q : MbxReq) (r : Resp) (w : Wait) (ok : Bool) : State :=
  match w with
  | .restart => (s.respond m k r ok).enterRestarting
  | .blend id => (s.respond m k r ok).blendInForce id
  | .power deep =>
    if s.nw.pstate != .run then s.respond m k (.st stBadState) ok
    else (s.respond m k r ok).entryBegins deep (s.wakeAtOf q.bytes (q.time / 2 ^ 32))
  | _ => s.respond m k r ok

/-- The answer of a request whose wait is over, or none while it waits, and what its last step leaves. -/
def State.waitOver (s : State) (q : MbxReq) (w : Wait) : Option Resp × State :=
  let put := fun (x : Resp × State) => (some x.1, x.2)
  match w with
  | .stop id remove => if s.plansEnded id then put (s.stopped id remove) else (none, s)
  | .census => (if s.cen.record.isNone then some (.ok (leBytes 4 (s.rdF Reg.cenStat 30 0))) else none, s)
  | .revoke g => if s.revokeReady g then put (s.revoked g) else (none, s)
  | .plan h =>
    if s.planHeld h then (none, s)
    else
      match s.planOn h with
      | (.ready r, t) => (some r, t)
      | (_, t) => (none, t)
  | .trellis mask =>
    (if s.trl.job.isSome then none else some (if mOp q.bytes = 0x0B01 then .ok (leBytes 1 mask) else .st stOk), s)
  | .burst h status => if s.burstOver h then put (s.burstAnswer status) else (none, s)
  | _ => (none, s)

/-- The firmware commits the response to request `k` of mailbox m, once there is one to commit. -/
def State.responseCommit (s : State) (m k : Nat) (ok : Bool) : State :=
  match (s.mbxAt m).reqs[k]? with
  | none => s
  | some q =>
    match q.ans with
    | .ready r => s.respond m k r ok
    | .thenDo r w => s.respondThen m k q r w ok
    | .wait w =>
      match s.waitOver q w with
      | (some r, t) => t.respond m k r ok
      | (none, t) => t
    | .none =>
      if s.nextReq m ≠ some (k, q.bytes) then s
      else
        match s.strayAnswer m q.bytes with
        | some r => s.respond m k r ok
        | none => s

def execResponseCommit (m k : Nat) (ok : Bool) (s : State) : Answer := pcmd (decide (m < 64)) s fun s => s.responseCommit m k ok

/-! ### The repair record at a cold boot (R434, R504) -/

/-- A unit shown out of service by the record. -/
def State.bookOut (s : State) (kind unit : Nat) : State :=
  if kind = 13 then { s with rsv := { s.rsv with rowsOut := sins s.rsv.rowsOut unit } } else s.mapOut kind unit

/-- A unit put onto its spare by the record. -/
def State.bookMap (s : State) (kind unit sp : Nat) : State :=
  let s := { s with rsv := { s.rsv with usedSpares := s.rsv.usedSpares ++ [(kind, sp)] } }
  match kind with
  | 1 => { s with rsv := { s.rsv with ctlMap := mput id s.rsv.ctlMap unit sp } }
  | 2 => { s with mem := { s.mem with bank := mput id s.mem.bank unit sp } }
  | 3 => s.spareLane (unit / 17) (unit % 17)
  | 11 => { s with trl := { s.trl with colMap := mput id s.trl.colMap unit sp } }
  | _ =>
    match kindUnit kind unit with
    | some u => s.onSpare u sp
    | none => s

/-- One entry applied: a unit that has gone from spare to spare takes the last one. -/
def State.recordApply (s : State) (b : List Byte) : State :=
  match repairRead b with
  | none => s
  | some (kind, unit, new) =>
    if !kindHas kind unit || s.unitOut kind unit then s
    else if new = 0xFFFF then s.bookOut kind unit
    else if (sparesFor kind unit).contains new && !s.rsv.usedSpares.contains (kind, new) then s.bookMap kind unit new
    else s

/-- Every entry of the record in order. -/
def State.recordBoot (s : State) : State :=
  match s.repairArea with
  | none => s
  | some base =>
    let s := (s.repairUsed base).foldl (fun (s : State) i => s.recordApply (s.repairAt base i)) s
    s.rerate 0 0

/-! ### `FW_RUNNING` (R50, R56) -/

/-- A memory grant of the instance before freed, its ring disabled. -/
def State.dropGrant (s : State) (g : Nat) : State :=
  match s.grant? g with
  | none => s
  | some x =>
    let s := match x.ring with
      | some h => s.ringRevoke h
      | none => s
    (s.setGrant g none).wr (Reg.memGrantCtrl g) 0

/-- A flow of the former instance freed: closed now, or with the commit of its last task (R50, R80). -/
def State.dropFlow (s : State) (f : Nat) : State :=
  if (s.flow f).opened then ({ s with fw := { s.fw with closing := sins s.fw.closing f } } : State).closeFlow f else s

/-- What the firmware that starts next ends (R50): carrier timelines, flows, blends and memory grants, and with them what the former
instance kept for its carriers, plans and bindings. -/
def State.freshInstance (s : State) : State :=
  let s := (List.range 384).foldl (fun (s : State) c => if s.armed c then s.disarm c else s) s
  let s := (s.cm.flows.map (·.1)).foldl (fun (s : State) f => s.dropFlow f) s
  let s := (List.range 8).foldl (fun (s : State) g => s.dropGrant g) s
  { s with
    front := { s.front with missing := [] }
    fw := { s.fw with
      carriers := [], plans := [], blends := [], loading := [], binds := [], fskTx := [], cenCfg := false, cenHost := 0, errTime := [], errMore := [] } }

/-- A control core that the ROM has put onto the spare: `SPARE.USED` follows the restart with REASON 0 (R437). -/
def State.controlUsed (s : State) : State :=
  match s.rsv.retiring.find? fun r => decide (r.kind = 1 ∧ s.ctlPhys r.unit = 4) with
  | some r =>
    ({ s with rsv := { s.rsv with usedSpares := s.rsv.usedSpares.filter fun e => e != (1, 4) } } : State).spareTaken 1 0 r.unit r.unit 4 0
  | none => s

/-- The wake in progress starts from nothing kept: a cold boot. -/
def State.coldBoot (s : State) : Bool := s.nw.pstate == .waking && (s.nw.kind == .fromOff || s.nw.kind == .cold)

/-- A start of the firmware: every session is due its SYS.READY, whose fields are those of this start (R50, R56). -/
def State.started (s : State) : State :=
  { s with fw := { s.fw with ready := s.readyPayload }, mbx := s.mbx.map fun e => (e.1, { e.2 with readySent := false }) }

/-- The firmware reaches RUNNING. -/
def State.fwRunning (s : State) : State :=
  if s.fwSt ≠ 2 then s
  else
    let s := if s.coldBoot then s.recordBoot else s
    let s := if s.fw.restarted then s.freshInstance else s
    let s := if s.nw.pstate == .waking then s.mapColumns (fun _ => true) else s
    let s := ((s.setFwSt 3).setAlive true 0).started
    let s := (List.range 64).foldl (fun (s : State) m => s.readyTo m) s
    let s := if s.mrdState = 4 ∧ !s.fw.restarted then s.timeNotice 0 5 else s
    (s.controlUsed).evalMode

def execFwRunning (s : State) : Answer := pcmd true s State.fwRunning

end Sys2Proof.Machine
end

