-- ==== Sys2Proof/Machine/Dispatch.lean ====
section
/-! DEFINITION. One arm per command: its meaning. -/

namespace Sys2Proof.Machine

def exec (i : Instr) (s : State) : Host.Outcome State Fault Refusal :=
  match i with
  | .registerWrite x1 x2 x3 x4 x5 => Sys2Proof.Machine.execRegisterWrite x1 x2 x3 x4 x5 s
  | .rcCounterRead x1 x2 x3 x4 => Sys2Proof.Machine.execRcCounterRead x1 x2 x3 x4 s
  | .loReadLatch x1 x2 x3 x4 => Sys2Proof.Machine.execLoReadLatch x1 x2 x3 x4 s
  | .hiWriteCommit x1 x2 x3 x4 x5 => Sys2Proof.Machine.execHiWriteCommit x1 x2 x3 x4 x5 s
  | .hostCellarWrite x1 x2 => Sys2Proof.Machine.execHostCellarWrite x1 x2 s
  | .pcieFlr => Sys2Proof.Machine.execPcieFlr s
  | .pcieConventionalReset => Sys2Proof.Machine.execPcieConventionalReset s
  | .pcieLinkDown x1 => Sys2Proof.Machine.execPcieLinkDown x1 s
  | .mbxEnable x1 x2 x3 => Sys2Proof.Machine.execMbxEnable x1 x2 x3 s
  | .mbxDisable x1 x2 x3 => Sys2Proof.Machine.execMbxDisable x1 x2 x3 s
  | .mbxIdle x1 => Sys2Proof.Machine.execMbxIdle x1 s
  | .mbxReqPiWrite x1 x2 x3 x4 => Sys2Proof.Machine.execMbxReqPiWrite x1 x2 x3 x4 s
  | .mbxRspCiWrite x1 x2 x3 => Sys2Proof.Machine.execMbxRspCiWrite x1 x2 x3 s
  | .mbxLockSet x1 x2 => Sys2Proof.Machine.execMbxLockSet x1 x2 s
  | .mbxFwctrlReload x1 x2 => Sys2Proof.Machine.execMbxFwctrlReload x1 x2 s
  | .requestConsume x1 x2 => Sys2Proof.Machine.execRequestConsume x1 x2 s
  | .responseCommit x1 x2 x3 => Sys2Proof.Machine.execResponseCommit x1 x2 x3 s
  | .responseTimeout x1 x2 x3 => Sys2Proof.Machine.execResponseTimeout x1 x2 x3 s
  | .noticeDeliver x1 x2 => Sys2Proof.Machine.execNoticeDeliver x1 x2 s
  | .fwWatchdogExpire => Sys2Proof.Machine.execFwWatchdogExpire s
  | .controlCoreException x1 => Sys2Proof.Machine.execControlCoreException x1 s
  | .fwRestart => Sys2Proof.Machine.execFwRestart s
  | .fwRunning => Sys2Proof.Machine.execFwRunning s
  | .sysPing x1 => Sys2Proof.Machine.execSysPing x1 s
  | .sysInfo x1 => Sys2Proof.Machine.execSysInfo x1 s
  | .sysRestart x1 => Sys2Proof.Machine.execSysRestart x1 s
  | .sysHeadroomMode x1 => Sys2Proof.Machine.execSysHeadroomMode x1 s
  | .sysHeadroomVoltage x1 => Sys2Proof.Machine.execSysHeadroomVoltage x1 s
  | .sysError x1 x2 => Sys2Proof.Machine.execSysError x1 x2 s
  | .sysBootrun x1 => Sys2Proof.Machine.execSysBootrun x1 s
  | .sysFlashwr x1 x2 => Sys2Proof.Machine.execSysFlashwr x1 x2 s
  | .pwrSetDeviceRun x1 => Sys2Proof.Machine.execPwrSetDeviceRun x1 s
  | .pwrSetDeviceDeep x1 => Sys2Proof.Machine.execPwrSetDeviceDeep x1 s
  | .pwrSetDeviceOff x1 => Sys2Proof.Machine.execPwrSetDeviceOff x1 s
  | .pwrSetClusterRun x1 => Sys2Proof.Machine.execPwrSetClusterRun x1 s
  | .pwrSetClusterSleep x1 => Sys2Proof.Machine.execPwrSetClusterSleep x1 s
  | .pwrSetClusterOff x1 => Sys2Proof.Machine.execPwrSetClusterOff x1 s
  | .pwrSetEngineRun x1 => Sys2Proof.Machine.execPwrSetEngineRun x1 s
  | .pwrSetEngineSleep x1 => Sys2Proof.Machine.execPwrSetEngineSleep x1 s
  | .pwrQuery x1 => Sys2Proof.Machine.execPwrQuery x1 s
  | .carrierConfig x1 x2 x3 => Sys2Proof.Machine.execCarrierConfig x1 x2 x3 s
  | .carrierStart x1 => Sys2Proof.Machine.execCarrierStart x1 s
  | .carrierStop x1 => Sys2Proof.Machine.execCarrierStop x1 s
  | .carrierStopDrain x1 => Sys2Proof.Machine.execCarrierStopDrain x1 s
  | .carrierQuery x1 => Sys2Proof.Machine.execCarrierQuery x1 s
  | .slotPlan x1 x2 x3 x4 => Sys2Proof.Machine.execSlotPlan x1 x2 x3 x4 s
  | .planSubmitLate x1 => Sys2Proof.Machine.execPlanSubmitLate x1 s
  | .slotCancel x1 => Sys2Proof.Machine.execSlotCancel x1 s
  | .slotQuery x1 => Sys2Proof.Machine.execSlotQuery x1 s
  | .blendLoad x1 => Sys2Proof.Machine.execBlendLoad x1 s
  | .blendUnload x1 => Sys2Proof.Machine.execBlendUnload x1 s
  | .blendQuery x1 => Sys2Proof.Machine.execBlendQuery x1 s
  | .flowPin x1 => Sys2Proof.Machine.execFlowPin x1 s
  | .flowNotifyBind x1 => Sys2Proof.Machine.execFlowNotifyBind x1 s
  | .flowNotifyUnbind x1 => Sys2Proof.Machine.execFlowNotifyUnbind x1 s
  | .flowQuery x1 => Sys2Proof.Machine.execFlowQuery x1 s
  | .memAlloc x1 x2 => Sys2Proof.Machine.execMemAlloc x1 x2 s
  | .memFree x1 => Sys2Proof.Machine.execMemFree x1 s
  | .memGrant x1 => Sys2Proof.Machine.execMemGrant x1 s
  | .memGrantRevoke x1 => Sys2Proof.Machine.execMemGrantRevoke x1 s
  | .laneConfigLink x1 => Sys2Proof.Machine.execLaneConfigLink x1 s
  | .laneConfigPort x1 => Sys2Proof.Machine.execLaneConfigPort x1 s
  | .laneConfigStream x1 => Sys2Proof.Machine.execLaneConfigStream x1 s
  | .laneStatus x1 => Sys2Proof.Machine.execLaneStatus x1 s
  | .laneEqTaps x1 => Sys2Proof.Machine.execLaneEqTaps x1 s
  | .laneEqFreeze x1 => Sys2Proof.Machine.execLaneEqFreeze x1 s
  | .laneEqRelease x1 => Sys2Proof.Machine.execLaneEqRelease x1 s
  | .timeSetAbsolute x1 => Sys2Proof.Machine.execTimeSetAbsolute x1 s
  | .timeSetStep x1 => Sys2Proof.Machine.execTimeSetStep x1 s
  | .timeSetServo x1 => Sys2Proof.Machine.execTimeSetServo x1 s
  | .timeSetOutput x1 => Sys2Proof.Machine.execTimeSetOutput x1 s
  | .timeSetCapture x1 => Sys2Proof.Machine.execTimeSetCapture x1 s
  | .timeOffset x1 => Sys2Proof.Machine.execTimeOffset x1 s
  | .timeQuery x1 => Sys2Proof.Machine.execTimeQuery x1 s
  | .fskPlan x1 => Sys2Proof.Machine.execFskPlan x1 s
  | .fskPlanStop x1 => Sys2Proof.Machine.execFskPlanStop x1 s
  | .fskTx x1 x2 x3 x4 => Sys2Proof.Machine.execFskTx x1 x2 x3 x4 s
  | .fskTxResultWrite x1 x2 => Sys2Proof.Machine.execFskTxResultWrite x1 x2 s
  | .fskTxabort x1 => Sys2Proof.Machine.execFskTxabort x1 s
  | .trellisLoad x1 => Sys2Proof.Machine.execTrellisLoad x1 s
  | .trellisRelease x1 => Sys2Proof.Machine.execTrellisRelease x1 s
  | .trellisHold x1 => Sys2Proof.Machine.execTrellisHold x1 s
  | .trellisUnload x1 => Sys2Proof.Machine.execTrellisUnload x1 s
  | .trellisQuery x1 => Sys2Proof.Machine.execTrellisQuery x1 s
  | .spareQuery x1 => Sys2Proof.Machine.execSpareQuery x1 s
  | .spareRetire x1 => Sys2Proof.Machine.execSpareRetire x1 s
  | .censusConfig x1 x2 => Sys2Proof.Machine.execCensusConfig x1 x2 s
  | .censusStart x1 => Sys2Proof.Machine.execCensusStart x1 s
  | .censusStop x1 => Sys2Proof.Machine.execCensusStop x1 s
  | .debugAuthChallenge x1 => Sys2Proof.Machine.execDebugAuthChallenge x1 s
  | .debugAuthVerify x1 => Sys2Proof.Machine.execDebugAuthVerify x1 s
  | .debugAuthClear x1 => Sys2Proof.Machine.execDebugAuthClear x1 s
  | .debugRead x1 => Sys2Proof.Machine.execDebugRead x1 s
  | .debugWrite x1 => Sys2Proof.Machine.execDebugWrite x1 s
  | .cpSubmit x1 x2 => Sys2Proof.Machine.execCpSubmit x1 x2 s
  | .taskAdmit x1 x2 => Sys2Proof.Machine.execTaskAdmit x1 x2 s
  | .evPost x1 x2 => Sys2Proof.Machine.execEvPost x1 x2 s
  | .evClr x1 x2 => Sys2Proof.Machine.execEvClr x1 x2 s
  | .taskSelect x1 => Sys2Proof.Machine.execTaskSelect x1 s
  | .cmCancel x1 x2 => Sys2Proof.Machine.execCmCancel x1 x2 s
  | .cmCancelFlow x1 x2 => Sys2Proof.Machine.execCmCancelFlow x1 x2 s
  | .flowCfgWrite x1 x2 => Sys2Proof.Machine.execFlowCfgWrite x1 x2 s
  | .deadlineSweep => Sys2Proof.Machine.execDeadlineSweep s
  | .taskCommit x1 => Sys2Proof.Machine.execTaskCommit x1 s
  | .completionRecordWrite x1 x2 => Sys2Proof.Machine.execCompletionRecordWrite x1 x2 s
  | .unitFault x1 x2 => Sys2Proof.Machine.execUnitFault x1 x2 s
  | .hostRingSqPiWrite x1 x2 => Sys2Proof.Machine.execHostRingSqPiWrite x1 x2 s
  | .hostRingEntry x1 x2 x3 => Sys2Proof.Machine.execHostRingEntry x1 x2 x3 s
  | .hostRingPost x1 => Sys2Proof.Machine.execHostRingPost x1 s
  | .bundleIssue x1 x2 x3 x4 => Sys2Proof.Machine.execBundleIssue x1 x2 x3 x4 s
  | .writeBufferAck x1 x2 x3 => Sys2Proof.Machine.execWriteBufferAck x1 x2 x3 s
  | .pmMissFill x1 x2 x3 => Sys2Proof.Machine.execPmMissFill x1 x2 x3 s
  | .cancelAccept x1 x2 => Sys2Proof.Machine.execCancelAccept x1 x2 s
  | .haltAccept x1 x2 => Sys2Proof.Machine.execHaltAccept x1 x2 s
  | .pmInvWrite x1 x2 x3 => Sys2Proof.Machine.execPmInvWrite x1 x2 x3 s
  | .pmInvDone x1 => Sys2Proof.Machine.execPmInvDone x1 s
  | .coreClearDone x1 x2 => Sys2Proof.Machine.execCoreClearDone x1 x2 s
  | .cov x1 => Sys2Proof.Machine.execCov x1 s
  | .chol x1 => Sys2Proof.Machine.execChol x1 s
  | .trsolve x1 => Sys2Proof.Machine.execTrsolve x1 s
  | .mmse x1 => Sys2Proof.Machine.execMmse x1 s
  | .apply x1 => Sys2Proof.Machine.execApply x1 s
  | .decode x1 => Sys2Proof.Machine.execDecode x1 s
  | .encode x1 => Sys2Proof.Machine.execEncode x1 s
  | .uciDecode x1 => Sys2Proof.Machine.execUciDecode x1 s
  | .rmDecode x1 => Sys2Proof.Machine.execRmDecode x1 s
  | .dciEncode x1 => Sys2Proof.Machine.execDciEncode x1 s
  | .pbchEncode x1 => Sys2Proof.Machine.execPbchEncode x1 s
  | .turboDecode x1 => Sys2Proof.Machine.execTurboDecode x1 s
  | .turboEncode x1 => Sys2Proof.Machine.execTurboEncode x1 s
  | .tbccDecode x1 => Sys2Proof.Machine.execTbccDecode x1 s
  | .fft x1 => Sys2Proof.Machine.execFft x1 s
  | .ifft x1 => Sys2Proof.Machine.execIfft x1 s
  | .dft x1 => Sys2Proof.Machine.execDft x1 s
  | .idft x1 => Sys2Proof.Machine.execIdft x1 s
  | .engineJobEnd x1 x2 => Sys2Proof.Machine.execEngineJobEnd x1 x2 s
  | .engineStop x1 x2 => Sys2Proof.Machine.execEngineStop x1 x2 s
  | .burst x1 x2 => Sys2Proof.Machine.execBurst x1 x2 s
  | .burstStart x1 x2 => Sys2Proof.Machine.execBurstStart x1 x2 s
  | .burstEnd x1 x2 => Sys2Proof.Machine.execBurstEnd x1 x2 s
  | .blankResume x1 x2 => Sys2Proof.Machine.execBlankResume x1 x2 s
  | .streamGap x1 x2 => Sys2Proof.Machine.execStreamGap x1 x2 s
  | .preambleDetect x1 x2 x3 x4 x5 => Sys2Proof.Machine.execPreambleDetect x1 x2 x3 x4 x5 s
  | .captureDecision x1 x2 x3 x4 => Sys2Proof.Machine.execCaptureDecision x1 x2 x3 x4 s
  | .syncTimeout x1 x2 => Sys2Proof.Machine.execSyncTimeout x1 x2 s
  | .sfdFound x1 x2 x3 x4 x5 => Sys2Proof.Machine.execSfdFound x1 x2 x3 x4 x5 s
  | .ncoTrackUpdate x1 x2 x3 => Sys2Proof.Machine.execNcoTrackUpdate x1 x2 x3 s
  | .packetEnd x1 x2 x3 x4 => Sys2Proof.Machine.execPacketEnd x1 x2 x3 x4 s
  | .nfeReportWrite x1 => Sys2Proof.Machine.execNfeReportWrite x1 s
  | .dctGo x1 x2 => Sys2Proof.Machine.execDctGo x1 x2 s
  | .dctAbort x1 x2 => Sys2Proof.Machine.execDctAbort x1 x2 s
  | .linear x1 => Sys2Proof.Machine.execLinear x1 s
  | .twoD x1 => Sys2Proof.Machine.execTwoD x1 s
  | .gather x1 => Sys2Proof.Machine.execGather x1 s
  | .scatter x1 => Sys2Proof.Machine.execScatter x1 s
  | .dctDescriptorCommit x1 x2 => Sys2Proof.Machine.execDctDescriptorCommit x1 x2 s
  | .dctTransferError x1 => Sys2Proof.Machine.execDctTransferError x1 s
  | .walkerVisit x1 x2 => Sys2Proof.Machine.execWalkerVisit x1 x2 s
  | .bankCopyDone x1 => Sys2Proof.Machine.execBankCopyDone x1 s
  | .validMapFill x1 => Sys2Proof.Machine.execValidMapFill x1 s
  | .memVclrGo x1 x2 => Sys2Proof.Machine.execMemVclrGo x1 x2 s
  | .dmcInit x1 x2 x3 => Sys2Proof.Machine.execDmcInit x1 x2 x3 s
  | .dmcInitTimeout x1 x2 => Sys2Proof.Machine.execDmcInitTimeout x1 x2 s
  | .dmcEnable x1 x2 => Sys2Proof.Machine.execDmcEnable x1 x2 s
  | .dmcSrEnter x1 x2 => Sys2Proof.Machine.execDmcSrEnter x1 x2 s
  | .dmcSrExit x1 x2 => Sys2Proof.Machine.execDmcSrExit x1 x2 s
  | .dramRefresh x1 => Sys2Proof.Machine.execDramRefresh x1 s
  | .dramAgePromote x1 x2 x3 => Sys2Proof.Machine.execDramAgePromote x1 x2 x3 s
  | .dramAlert x1 => Sys2Proof.Machine.execDramAlert x1 s
  | .dramReplay x1 x2 => Sys2Proof.Machine.execDramReplay x1 x2 s
  | .retrainDue x1 => Sys2Proof.Machine.execRetrainDue x1 s
  | .retrainForced x1 x2 => Sys2Proof.Machine.execRetrainForced x1 x2 s
  | .laneStageReady x1 x2 x3 x4 => Sys2Proof.Machine.execLaneStageReady x1 x2 x3 x4 s
  | .laneStageTimeout x1 x2 => Sys2Proof.Machine.execLaneStageTimeout x1 x2 s
  | .laneLockLoss x1 x2 x3 => Sys2Proof.Machine.execLaneLockLoss x1 x2 x3 s
  | .laneRestart x1 x2 x3 => Sys2Proof.Machine.execLaneRestart x1 x2 x3 s
  | .laneTxsleep x1 x2 x3 => Sys2Proof.Machine.execLaneTxsleep x1 x2 x3 s
  | .laneRxsleep x1 x2 x3 => Sys2Proof.Machine.execLaneRxsleep x1 x2 x3 s
  | .rawSlip x1 x2 x3 => Sys2Proof.Machine.execRawSlip x1 x2 x3 s
  | .rawSlipDone x1 x2 => Sys2Proof.Machine.execRawSlipDone x1 x2 s
  | .rawUp x1 x2 x3 => Sys2Proof.Machine.execRawUp x1 x2 x3 s
  | .rawDown x1 x2 x3 => Sys2Proof.Machine.execRawDown x1 x2 x3 s
  | .eyeMeasure x1 x2 x3 x4 => Sys2Proof.Machine.execEyeMeasure x1 x2 x3 x4 s
  | .ethFrameRx x1 x2 x3 x4 x5 x6 x7 x8 => Sys2Proof.Machine.execEthFrameRx x1 x2 x3 x4 x5 x6 x7 x8 s
  | .ethFrameTxStamp x1 x2 x3 x4 => Sys2Proof.Machine.execEthFrameTxStamp x1 x2 x3 x4 s
  | .uplaneMessage x1 x2 x3 x4 => Sys2Proof.Machine.execUplaneMessage x1 x2 x3 x4 s
  | .rxWindowOpen x1 x2 => Sys2Proof.Machine.execRxWindowOpen x1 x2 s
  | .rxWindowClose x1 x2 => Sys2Proof.Machine.execRxWindowClose x1 x2 s
  | .fhEgressStart x1 x2 => Sys2Proof.Machine.execFhEgressStart x1 x2 s
  | .tdStreamMessage x1 x2 x3 => Sys2Proof.Machine.execTdStreamMessage x1 x2 x3 s
  | .tdStreamSend x1 => Sys2Proof.Machine.execTdStreamSend x1 s
  | .tetherWriteFrame x1 x2 => Sys2Proof.Machine.execTetherWriteFrame x1 x2 s
  | .tetherPostFrame x1 x2 => Sys2Proof.Machine.execTetherPostFrame x1 x2 s
  | .tetherLinkBlock x1 x2 => Sys2Proof.Machine.execTetherLinkBlock x1 x2 s
  | .tetherMarker x1 x2 x3 x4 x5 => Sys2Proof.Machine.execTetherMarker x1 x2 x3 x4 x5 s
  | .tetherLinkSend x1 => Sys2Proof.Machine.execTetherLinkSend x1 s
  | .tetherMarkerSend x1 => Sys2Proof.Machine.execTetherMarkerSend x1 s
  | .tetherReqPiWrite x1 x2 => Sys2Proof.Machine.execTetherReqPiWrite x1 x2 s
  | .tetherEntryComplete x1 => Sys2Proof.Machine.execTetherEntryComplete x1 s
  | .servoSample x1 x2 => Sys2Proof.Machine.execServoSample x1 x2 s
  | .sampleTimeout => Sys2Proof.Machine.execSampleTimeout s
  | .mrdTimeRead x1 => Sys2Proof.Machine.execMrdTimeRead x1 s
  | .tsInEdge x1 x2 => Sys2Proof.Machine.execTsInEdge x1 x2 s
  | .capPop x1 => Sys2Proof.Machine.execCapPop x1 s
  | .tsOutEdge x1 => Sys2Proof.Machine.execTsOutEdge x1 s
  | .timingFrame => Sys2Proof.Machine.execTimingFrame s
  | .timelineArm x1 x2 => Sys2Proof.Machine.execTimelineArm x1 x2 s
  | .timelineDisarm x1 x2 => Sys2Proof.Machine.execTimelineDisarm x1 x2 s
  | .symbol x1 x2 x3 => Sys2Proof.Machine.execSymbol x1 x2 x3 s
  | .slot x1 x2 x3 => Sys2Proof.Machine.execSlot x1 x2 x3 s
  | .frame x1 x2 x3 => Sys2Proof.Machine.execFrame x1 x2 x3 s
  | .gap x1 x2 x3 => Sys2Proof.Machine.execGap x1 x2 x3 s
  | .trellisConfigWrite x1 x2 x3 x4 => Sys2Proof.Machine.execTrellisConfigWrite x1 x2 x3 x4 s
  | .trunkContention x1 x2 => Sys2Proof.Machine.execTrunkContention x1 x2 s
  | .configStoreUe x1 x2 => Sys2Proof.Machine.execConfigStoreUe x1 x2 s
  | .eventPortStrobe x1 x2 => Sys2Proof.Machine.execEventPortStrobe x1 x2 s
  | .memPortRequest x1 x2 => Sys2Proof.Machine.execMemPortRequest x1 x2 s
  | .memPortResponse x1 => Sys2Proof.Machine.execMemPortResponse x1 s
  | .submitPortStrobe => Sys2Proof.Machine.execSubmitPortStrobe s
  | .streamWordRx x1 x2 => Sys2Proof.Machine.execStreamWordRx x1 x2 s
  | .vioMismatch x1 => Sys2Proof.Machine.execVioMismatch x1 s
  | .hctrlModeWrite x1 x2 => Sys2Proof.Machine.execHctrlModeWrite x1 x2 s
  | .shieldReady => Sys2Proof.Machine.execShieldReady s
  | .effEvaluate x1 => Sys2Proof.Machine.execEffEvaluate x1 s
  | .taskMove x1 x2 => Sys2Proof.Machine.execTaskMove x1 x2 s
  | .prestageEnd x1 => Sys2Proof.Machine.execPrestageEnd x1 s
  | .slackReport x1 => Sys2Proof.Machine.execSlackReport x1 s
  | .voltageStep => Sys2Proof.Machine.execVoltageStep s
  | .choldClear x1 x2 x3 => Sys2Proof.Machine.execCholdClear x1 x2 x3 s
  | .retireWear x1 x2 => Sys2Proof.Machine.execRetireWear x1 x2 s
  | .drainTimeout x1 x2 => Sys2Proof.Machine.execDrainTimeout x1 x2 s
  | .remap x1 x2 x3 => Sys2Proof.Machine.execRemap x1 x2 x3 s
  | .schedStoreUe x1 x2 x3 => Sys2Proof.Machine.execSchedStoreUe x1 x2 x3 s
  | .clusterSleepEnter x1 => Sys2Proof.Machine.execClusterSleepEnter x1 s
  | .clusterWake x1 => Sys2Proof.Machine.execClusterWake x1 s
  | .engineSleepEnter x1 => Sys2Proof.Machine.execEngineSleepEnter x1 s
  | .engineWake x1 => Sys2Proof.Machine.execEngineWake x1 s
  | .wakeNAssert => Sys2Proof.Machine.execWakeNAssert s
  | .wsenseTrip x1 => Sys2Proof.Machine.execWsenseTrip x1 s
  | .wakeTimer => Sys2Proof.Machine.execWakeTimer s
  | .wakeStageReady x1 => Sys2Proof.Machine.execWakeStageReady x1 s
  | .wakeStageTimeout x1 => Sys2Proof.Machine.execWakeStageTimeout x1 s
  | .regulatorRetry => Sys2Proof.Machine.execRegulatorRetry s
  | .powerGoodFall x1 => Sys2Proof.Machine.execPowerGoodFall x1 s
  | .pwrRstCold x1 => Sys2Proof.Machine.execPwrRstCold x1 s
  | .pwrRstWarm x1 => Sys2Proof.Machine.execPwrRstWarm x1 s
  | .pwrRstCluster x1 x2 => Sys2Proof.Machine.execPwrRstCluster x1 x2 s
  | .pwrRstCore x1 x2 x3 => Sys2Proof.Machine.execPwrRstCore x1 x2 x3 s
  | .pwrRstEngine x1 x2 => Sys2Proof.Machine.execPwrRstEngine x1 x2 s
  | .vddCoreUndervolt => Sys2Proof.Machine.execVddCoreUndervolt s
  | .tempSample x1 => Sys2Proof.Machine.execTempSample x1 s
  | .overtempReset => Sys2Proof.Machine.execOvertempReset s
  | .avsNoAck x1 => Sys2Proof.Machine.execAvsNoAck x1 s
  | .sbVinRise x1 => Sys2Proof.Machine.execSbVinRise x1 s
  | .sbVinFall x1 => Sys2Proof.Machine.execSbVinFall x1 s
  | .sbVinLow x1 => Sys2Proof.Machine.execSbVinLow x1 s
  | .strapSample x1 => Sys2Proof.Machine.execStrapSample x1 s
  | .keepaliveSend => Sys2Proof.Machine.execKeepaliveSend s
  | .keepaliveLoss => Sys2Proof.Machine.execKeepaliveLoss s
  | .nwWatchdogExpire => Sys2Proof.Machine.execNwWatchdogExpire s
  | .smbBlockWrite x1 x2 x3 => Sys2Proof.Machine.execSmbBlockWrite x1 x2 x3 s
  | .smbBlockRead x1 => Sys2Proof.Machine.execSmbBlockRead x1 s
  | .smbTimeout x1 => Sys2Proof.Machine.execSmbTimeout x1 s
  | .smbAlertResponse x1 => Sys2Proof.Machine.execSmbAlertResponse x1 s
  | .uartFrame x1 => Sys2Proof.Machine.execUartFrame x1 s
  | .nwStatus => Sys2Proof.Machine.execNwStatus s
  | .nwPowerOn => Sys2Proof.Machine.execNwPowerOn s
  | .nwPowerOff => Sys2Proof.Machine.execNwPowerOff s
  | .nwPowerOffForced => Sys2Proof.Machine.execNwPowerOffForced s
  | .nwPowerOffNow => Sys2Proof.Machine.execNwPowerOffNow s
  | .nwPowerDeep => Sys2Proof.Machine.execNwPowerDeep s
  | .nwPowerCold => Sys2Proof.Machine.execNwPowerCold s
  | .nwPowerWarm => Sys2Proof.Machine.execNwPowerWarm s
  | .nwPowerClearFault => Sys2Proof.Machine.execNwPowerClearFault s
  | .offGraceExpire => Sys2Proof.Machine.execOffGraceExpire s
  | .nwbOffAck x1 x2 => Sys2Proof.Machine.execNwbOffAck x1 x2 s
  | .nwWakecfgRead => Sys2Proof.Machine.execNwWakecfgRead s
  | .nwWakecfgWrite => Sys2Proof.Machine.execNwWakecfgWrite s
  | .nwSensor x1 => Sys2Proof.Machine.execNwSensor x1 s
  | .nwEventRead => Sys2Proof.Machine.execNwEventRead s
  | .nwEventRemove => Sys2Proof.Machine.execNwEventRemove s
  | .ejectAssert => Sys2Proof.Machine.execEjectAssert s
  | .ejectRelease => Sys2Proof.Machine.execEjectRelease s
  | .vauxPArrive => Sys2Proof.Machine.execVauxPArrive s
  | .vauxPLoss x1 => Sys2Proof.Machine.execVauxPLoss x1 s
  | .nwbTxgo x1 x2 => Sys2Proof.Machine.execNwbTxgo x1 x2 s
  | .nwbRxMessage x1 => Sys2Proof.Machine.execNwbRxMessage x1 s
  | .nwbRxlenRead x1 => Sys2Proof.Machine.execNwbRxlenRead x1 s
  | .nwbAlive x1 x2 => Sys2Proof.Machine.execNwbAlive x1 x2 s
  | .spiCmdGo x1 x2 => Sys2Proof.Machine.execSpiCmdGo x1 x2 s
  | .spiDone x1 => Sys2Proof.Machine.execSpiDone x1 s
  | .censusTick => Sys2Proof.Machine.execCensusTick s
  | .cenManualTick x1 => Sys2Proof.Machine.execCenManualTick x1 s
  | .censusRecordWrite x1 => Sys2Proof.Machine.execCensusRecordWrite x1 s
  | .pcieLinkUp => Sys2Proof.Machine.execPcieLinkUp s
  | .loadDataReturn x1 x2 x3 => Sys2Proof.Machine.execLoadDataReturn x1 x2 x3 s
  | .haltResume x1 x2 => Sys2Proof.Machine.execHaltResume x1 x2 s
  | .fabricClockEdge x1 => Sys2Proof.Machine.execFabricClockEdge x1 s
  | .streamWordTx x1 => Sys2Proof.Machine.execStreamWordTx x1 s
  | .trlRelGo x1 x2 => Sys2Proof.Machine.execTrlRelGo x1 x2 s
  | .xtal32Start => Sys2Proof.Machine.execXtal32Start s
  | .entryRailsDown => Sys2Proof.Machine.execEntryRailsDown s
  | .refclkALoss => Sys2Proof.Machine.execRefclkALoss s
  | .vretLow x1 => Sys2Proof.Machine.execVretLow x1 s

end Sys2Proof.Machine
end

