-- ==== Sys2Proof/Safety.lean ====
section
/-! DEFINITION. What claims call a safe state, a safe run, the canonical form of what a state lists, and what a command leaves. -/

namespace Sys2Proof.Machine

/-- A step that ends in a next state. -/
def Completes (a : Answer) : Prop := ∃ t, a = .next t

/-- The memory of a state is in its canonical form. -/
def MemInv (s : State) : Prop := Memory.wf s.mem = true

/-- The registers of a state are in their canonical form: rising offsets, none listed at its Reset value. -/
def RegInv (s : State) : Prop := mwf regDefault s.csr = true

/-- `n` steps in a row, none of which stops. -/
def runs : Nat → State → Option State
  | 0, s => some s
  | n + 1, s =>
    match step s with
    | .next t => runs n t
    | _ => none

/-- Every command of the queue names what the device has. -/
def QueueOk (s : State) : Prop := ∀ i ∈ s.pending, i.wf = true

/-- What a command that leaves the OTP alone makes of the state `t` that its effect gives: the queue and the OTP are those of `s`. -/
def after (s t : State) : State := { keepOtp s t with pending := s.pending }

/-- An answer is a next state of which `P` holds. -/
def Leads' (a : Answer) (P : State → Prop) : Prop := ∃ t, a = .next t ∧ P t

/-- A command answers a next state of which `P` holds. -/
def Leads (i : Instr) (s : State) (P : State → Prop) : Prop := ∃ t, exec i s = .next t ∧ P t

/-- The OTP bits of two states are the same (R496, R498). -/
def SameOtp (s t : State) : Prop := t.sec.keys = s.sec.keys ∧ t.sec.owned = s.sec.owned ∧ t.sec.counter = s.sec.counter

/-- The commands after which the boot ROM may have run: a start of the firmware, and accesses that can write `MBX.FWCTRL`. -/
def mayRunRom : Instr → Bool
  | .fwRestart => true
  | .mbxFwctrlReload _ _ => true
  | .sysBootrun _ => true
  | .wakeStageReady _ => true
  | .registerWrite _ _ _ _ _ => true
  | .hiWriteCommit _ _ _ _ _ => true
  | .linear _ => true
  | .writeBufferAck _ _ _ => true
  | _ => false

/-! ### Register accesses (R21) -/

/-- The initiators whose access to CSR space is made as it stands: not an engine, which reaches memory alone, nor Trellis, whose ports have
their own answer, nor a core that runs a task, whose AG stage looks first, nor a channel that CSR space is closed to. -/
def State.plainInit (s : State) : Init → Bool
  | .dsp c k => decide ((s.core c k).st ≠ .running)
  | .dct ch => csrOpen ch (s.dctAt ch).desc
  | .eng _ => false
  | .trl => false
  | _ => true

/-- What such an initiator is told of an access error. -/
def State.toldErr (s : State) (i : Init) (write : Bool) (a : Nat) : State :=
  match i with
  | .ctl _ => s.emit .error
  | .nwb => s.emit .error
  | .cm => s.emit .error
  | .dct ch => s.channelTold ch write a .err
  | _ => s

/-! ### Messages -/

/-- The running firmware finds request `k` of mailbox `m` next: the message `op` with the bytes `bs`, which neither R42 nor R45 refuses. -/
abbrev Asked (s : State) (m k op : Nat) (bs : List Byte) : Prop :=
  s.pwr.up = true ∧ m < 64 ∧ s.fwSt = 3 ∧ s.nextReq m = some (k, bs) ∧ mOp bs = op ∧ s.refuse m bs = none

/-- A command leaves the state `t` with the answer `a` given to request `k` of mailbox `m`. -/
abbrev Answers (i : Instr) (s : State) (m k : Nat) (a : Ans) (t : State) : Prop := exec i s = .next (after s (t.setAns m k a))

/-- The answer of STATUS `st` without a payload. -/
abbrev said (st : Nat) : Ans := .ready (.st st)

/-- The answer OK with a payload. -/
abbrev saidOk (p : List Byte) : Ans := .ready (.ok p)

/-- A command as a message of the control firmware (R53): its mailbox, its opcode and the form of its row. -/
def msgOf : Instr → Option (Nat × Nat × (List Byte → Bool))
  | .sysRestart m => some (m, 0x0103, fun _ => true)
  | .sysHeadroomMode m => some (m, 0x0104, fun bs => leAt bs 16 1 == 0)
  | .sysHeadroomVoltage m => some (m, 0x0104, fun bs => leAt bs 16 1 == 1)
  | .pwrSetDeviceRun m => some (m, 0x0201, fun bs => pwrPair bs == (0, 0))
  | .pwrSetDeviceDeep m => some (m, 0x0201, fun bs => pwrPair bs == (0, 3))
  | .pwrSetDeviceOff m => some (m, 0x0201, fun bs => pwrPair bs == (0, 4))
  | .pwrSetClusterRun m => some (m, 0x0201, fun bs => pwrPair bs == (1, 0))
  | .pwrSetClusterSleep m => some (m, 0x0201, fun bs => pwrPair bs == (1, 2))
  | .pwrSetClusterOff m => some (m, 0x0201, fun bs => pwrPair bs == (1, 4))
  | .pwrSetEngineRun m => some (m, 0x0201, fun bs => pwrPair bs == (2, 0))
  | .pwrSetEngineSleep m => some (m, 0x0201, fun bs => pwrPair bs == (2, 2))
  | .pwrQuery m => some (m, 0x0202, fun _ => true)
  | .carrierConfig m _ _ => some (m, 0x0301, fun _ => true)
  | .carrierStart m => some (m, 0x0302, fun _ => true)
  | .carrierStop m => some (m, 0x0303, fun bs => !tb (leAt bs 18 1) 0)
  | .carrierStopDrain m => some (m, 0x0303, fun bs => tb (leAt bs 18 1) 0)
  | .carrierQuery m => some (m, 0x0304, fun _ => true)
  | .slotPlan m _ _ _ => some (m, 0x0401, fun _ => true)
  | .slotCancel m => some (m, 0x0402, fun _ => true)
  | .slotQuery m => some (m, 0x0403, fun _ => true)
  | .blendLoad m => some (m, 0x0501, fun _ => true)
  | .blendUnload m => some (m, 0x0502, fun _ => true)
  | .blendQuery m => some (m, 0x0503, fun _ => true)
  | .flowPin m => some (m, 0x0601, fun _ => true)
  | .flowNotifyBind m => some (m, 0x0602, fun bs => !tb (leAt bs 18 2) 0)
  | .flowNotifyUnbind m => some (m, 0x0602, fun bs => tb (leAt bs 18 2) 0)
  | .flowQuery m => some (m, 0x0603, fun _ => true)
  | .memAlloc m _ => some (m, 0x0701, fun _ => true)
  | .memFree m => some (m, 0x0702, fun _ => true)
  | .memGrant m => some (m, 0x0703, fun bs => !tb (leAt bs 18 1) 0)
  | .memGrantRevoke m => some (m, 0x0703, fun bs => tb (leAt bs 18 1) 0)
  | .laneConfigLink m => some (m, 0x0801, fun bs => leAt bs 16 1 == 0)
  | .laneConfigPort m => some (m, 0x0801, fun bs => leAt bs 16 1 == 1)
  | .laneConfigStream m => some (m, 0x0801, fun bs => leAt bs 16 1 == 2)
  | .laneStatus m => some (m, 0x0802, fun _ => true)
  | .laneEqTaps m => some (m, 0x0803, fun bs => leAt bs 18 1 == 0)
  | .laneEqFreeze m => some (m, 0x0803, fun bs => leAt bs 18 1 == 1)
  | .laneEqRelease m => some (m, 0x0803, fun bs => leAt bs 18 1 == 2)
  | .timeSetAbsolute m => some (m, 0x0901, fun bs => leAt bs 16 1 == 0)
  | .timeSetStep m => some (m, 0x0901, fun bs => leAt bs 16 1 == 1)
  | .timeSetServo m => some (m, 0x0901, fun bs => leAt bs 16 1 == 2)
  | .timeSetOutput m => some (m, 0x0901, fun bs => leAt bs 16 1 == 3)
  | .timeSetCapture m => some (m, 0x0901, fun bs => leAt bs 16 1 == 4)
  | .timeOffset m => some (m, 0x0902, fun _ => true)
  | .timeQuery m => some (m, 0x0903, fun _ => true)
  | .fskPlan m => some (m, 0x0A01, fun bs => !tb (leAt bs 17 1) 0)
  | .fskPlanStop m => some (m, 0x0A01, fun bs => tb (leAt bs 17 1) 0)
  | .fskTx m _ _ _ => some (m, 0x0A02, fun _ => true)
  | .fskTxabort m => some (m, 0x0A03, fun _ => true)
  | .trellisLoad m => some (m, 0x0B01, fun _ => true)
  | .trellisRelease m => some (m, 0x0B02, fun bs => leAt bs 17 1 == 0)
  | .trellisHold m => some (m, 0x0B02, fun bs => leAt bs 17 1 == 1)
  | .trellisUnload m => some (m, 0x0B02, fun bs => leAt bs 17 1 == 2)
  | .trellisQuery m => some (m, 0x0B03, fun _ => true)
  | .spareQuery m => some (m, 0x0C02, fun _ => true)
  | .spareRetire m => some (m, 0x0C03, fun _ => true)
  | .censusConfig m _ => some (m, 0x0D01, fun _ => true)
  | .censusStart m => some (m, 0x0D02, fun _ => true)
  | .censusStop m => some (m, 0x0D03, fun _ => true)
  | .debugAuthChallenge m => some (m, 0x0E01, fun bs => leAt bs 16 1 == 0)
  | .debugAuthVerify m => some (m, 0x0E01, fun bs => leAt bs 16 1 == 1)
  | .debugAuthClear m => some (m, 0x0E01, fun bs => leAt bs 16 1 == 2)
  | .debugRead m => some (m, 0x0E02, fun _ => true)
  | .debugWrite m => some (m, 0x0E03, fun _ => true)
  | _ => none

end Sys2Proof.Machine
end

