-- ==== Sys2Proof/Certificates/Slice0/Obligations.lean ====
section
/-! DEFINITION. The statements for the provers. `after s t` (Safety) is what a command that leaves the OTP alone makes of the state `t` that its
effect gives: the whole next state, so that what a statement does not name in `t` is unchanged. `begin s` is the state as a command
finds it: what the command before gave to the outside is gone. -/

open Sys2Proof Sys2Proof.Machine

/-- For every command c and state s, a step of s with c at the front of its queue is exec of c on s with the queue's rest. -/
def Obligations.StepRunsFront : Prop :=
  ∀ (c : Instr) (s : State) (rest : List Instr),
    step { s with pending := c :: rest } = exec c { s with pending := rest }

/-- On an empty queue a step is one tick of the counter clock and nothing else: the queue stays empty, the counter clock of a
powered payload whose counter runs advances by one increment, nothing is given to the outside, and registers of the mailboxes,
tasks, cores, engines, memory and firmware stand. That an empty queue lets a tick pass is the model's choice (log entry 4). -/
def Obligations.StepIdle : Prop :=
  ∀ s : State, s.pending = [] →
    Leads' (step s) fun t =>
      t.pending = [] ∧ t.out = [] ∧ t.mbx = s.mbx ∧ t.cm = s.cm ∧ t.cores = s.cores ∧ t.engs = s.engs ∧ t.mem = s.mem ∧ t.fw = s.fw ∧
      (s.pwr.up = true → s.mrd.run = true → t.cen.clock = s.cen.clock + s.incr)

/-- A command whose operands name what the device has answers a next state on every state; a command whose operands name nothing the
device has stops with the fault noSuchUnit; no command is refused. -/
def Obligations.ExecTotal : Prop :=
  ∀ (i : Instr) (s : State),
    (i.wf = true → Completes (exec i s)) ∧ (i.wf = false → exec i s = .fault .noSuchUnit)

/-- Whatever a command does, the commands that wait behind it stay as they are and in their order. -/
def Obligations.QueueKept : Prop :=
  ∀ (i : Instr) (s t : State), exec i s = .next t → t.pending = s.pending

/-- A step leaves every OTP bit (the key slots, OWNED, the firmware counter) as it is unless its command is one after which the boot
ROM may have run: a start of the firmware or an access that can write MBX.FWCTRL (R496, R498, R499). An idle step leaves them
too. -/
def Obligations.OtpOnlyByRom : Prop :=
  ∀ s t : State, step s = .next t →
    (∀ i rest, s.pending = i :: rest → mayRunRom i = false) → SameOtp s t

/-- Where every waiting command names what the device has, as many steps as there are commands run without a stop, and the queue is
then empty. -/
def Obligations.QueueDrains : Prop :=
  ∀ s : State, QueueOk s → ∃ t, runs s.pending.length s = some t ∧ t.pending = []

/-- A step of a state whose waiting commands all name what the device has leads to such a state, and it does not stop. -/
def Obligations.QueueOkKept : Prop :=
  ∀ s : State, QueueOk s → Completes (step s) ∧ ∀ t, step s = .next t → QueueOk t

/-- At reset no command waits, memory and registers are in canonical form and nothing is listed, the payload has no power and is
ABSENT. The registers that the tables give a value read it: the part number, mailbox 0 alone privileged, vector 2 + m of mailbox
m, the watermarks, FLOW_CFG, the maps of cores and engines, the masks of the timelines and lane mode 7 of group 15. That the
counters and stores hold nothing where the specification states no value is the model's choice (log entry 2). -/
def Obligations.ResetState : Prop :=
  QueueOk State.reset ∧ MemInv State.reset ∧ RegInv State.reset ∧ State.reset.mem.dev = [] ∧ State.reset.pwr.up = false ∧ State.reset.nw.pstate = .absent ∧
    State.reset.rd Reg.sysId / 256 = 0x9600B0 ∧
    (∀ m, m < 64 → State.reset.rd (Reg.mbxCtrl m) = bn (m == 0) * 2 ^ 30 + 2 ^ 12 + 2 + m) ∧
    (∀ p, p < 16 → State.reset.rd (Reg.cmWm p) = 4096 * p) ∧
    (∀ i, i < 4 → State.reset.rd (Reg.cmCpFlowCfg i) = 0xF * 2 ^ 24 + 2 ^ 18) ∧
    (∀ c, c < 12 → State.reset.rd (Reg.rsvCmap c) = 0x76543210) ∧
    (∀ e, e < 80 → State.reset.rd (Reg.rsvEmap e) = e) ∧
    (∀ g l, g < 16 → l < 17 → ¬(g = 15 ∧ l = 16) → State.reset.rdF (Reg.laneCtrl g l) 31 28 = if g = 15 then 7 else 0) ∧
    (∀ c, c < 384 → State.reset.rd (Reg.mrdTlUlMaskLo c) = 0xFFFFFFFF)

/-- An aligned 32-bit write to CSR space that reaches the device and is not refused acts as regWrite says and leaves the queue
alone; one that is refused changes nothing but the error record (KIND 4); one of another size, or not aligned, is KIND 2; and
the initiator is told: a control core by an exception, a Decant channel by the end of the descriptor it performs, the host by
nothing. An engine's access to CSR space is KIND 4 and the end of its job, a Trellis port's a write error of that port. A core
that runs a task is looked at by AG first: what it finds is the core fault. The same for the write of a HI register. Through
BAR4/5 a host write of a mailbox page is the same write (offset m × 0x1000 is CSR offset 0x100000 + m × 0x1000). -/
def Obligations.RegisterWriteLands : Prop :=
  ∀ (i : Init) (off n v : Nat) (s : State),
    i.wf = true → s.pwr.up = true → (i = .host → s.pcie.link = true ∧ s.d3hot = false) → off < 0x10000000 →
    let b := begin s
    let a := 0x20000000 + off
    let both := fun (n : Nat) (t : State) =>
      exec (.registerWrite i .dev a n v) s = .next { t with pending := s.pending } ∧ exec (.hiWriteCommit i .dev a n v) s = .next { t with pending := s.pending }
    (b.plainInit i = true →
      (off % 4 = 0 → b.writeRefused i off = false → both 4 (b.regWrite i off (v % 2 ^ 32))) ∧
      (off % 4 = 0 → b.writeRefused i off = true → both 4 ((b.aerr i 4 true false a).toldErr i true a)) ∧
      (off % 4 ≠ 0 ∨ min n 64 ≠ 4 → both n ((b.aerr i 2 true false a).toldErr i true a))) ∧
    (∀ e, i = .eng e → both n ((b.aerr i 4 true false a).engineTold e a .err)) ∧
    (∀ ch, i = .dct ch → csrOpen ch (b.dctAt ch).desc = false → both n ((b.aerr i 4 true false a).channelTold ch true a .err)) ∧
    (i = .trl → let r := b.portOf a true; both n ((r.2.aerr .trl (if n = 4 then 4 else 2) true false a).portError r.1 a)) ∧
    (∀ c k, i = .dsp c k → (b.core c k).st = .running →
      let r := b.free 2
      let look := fun n => r.2.agFault (r.2.core c k) c k (coreAccess (2 + r.1) true a n)
      (∀ f kind, look n = some (f, some kind) → both n ((r.2.aerr i kind true false f.addr).coreFault c k f)) ∧
      (∀ f, look n = some (f, none) → both n (r.2.coreFault c k f)) ∧
      (look 4 = none → off % 4 = 0 → r.2.writeRefused i off = false → both 4 (r.2.regWrite i off (v % 2 ^ 32)))) ∧
    (off < 0x40000 → off % 4 = 0 → s.pcie.link = true → s.d3hot = false → b.writeRefused .host (0x100000 + off) = false →
      exec (.registerWrite .host .bar45 off 4 v) s = .next { b.regWrite .host (0x100000 + off) (v % 2 ^ 32) with pending := s.pending })

/-- A write of PCIE.HWBASE_LO by the host or a control core holds its writable bits for that initiator and changes no register; its
write of HWBASE_HI then commits both halves at once and consumes the held value, and other registers stand. A read of HWBASE_LO
gives its value and latches HWBASE_HI for that initiator. -/
def Obligations.PairCommit : Prop :=
  ∀ (i : Init) (x y : Nat) (s : State),
    (i = .host ∧ s.pcie.link = true ∧ s.d3hot = false ∨ ∃ k, i = .ctl k ∧ k < 4) → s.pwr.up = true → RegInv s → mwf (fun _ => PairSt.reset) s.pairs = true →
    let lo := Reg.pcieHwbaseLo
    let hi := Reg.pcieHwbaseHi
    Leads (.registerWrite i .dev (0x20000000 + lo) 4 x) s (fun t =>
      t.csr = s.csr ∧ t.mem = s.mem ∧ (t.pair i).held = some (lo, BitVec.ofNat 32 (x % 2 ^ 32 / 4096 * 4096))) ∧
    (∀ w : Word, (s.pair i).held = some (lo, w) →
      Leads (.hiWriteCommit i .dev (0x20000000 + hi) 4 y) s fun t =>
        t.rd lo = w.toNat ∧ t.rd hi = y % 2 ^ 32 ∧ (t.pair i).held = none ∧ t.mem = s.mem ∧ ∀ o, o ≠ lo → o ≠ hi → t.rd o = s.rd o) ∧
    Leads (.loReadLatch i .dev (0x20000000 + lo) 4) s (fun t =>
      t.out = [.value (s.rd lo)] ∧ t.csr = s.csr ∧ t.mem = s.mem ∧ (t.pair i).latch = some (hi, BitVec.ofNat 32 (s.rd hi)))

/-- An aligned 32-bit read of CSR space gives what regRead gives and leaves what it leaves (a latched HI, a cleared counter), and
one of another size or not aligned is an access error of KIND 2 that gives zero. Whoever reads SYS.AERR_CNT is given the errors
counted since the last read and leaves the count zero, and every other register and all memory stand (R22): the host, a control
core, the barrier block, Cellarmaster, Trellis, a core that runs no task or whose AG stage finds no fault in the access, a
channel whose descriptor CSR space is open to. An engine's read is an access error (KIND 4), and so is that of a channel that
CSR space is closed to. -/
def Obligations.RcCounterClears : Prop :=
  ∀ (i : Init) (s : State),
    i.wf = true → s.pwr.up = true → (i = .host → s.pcie.link = true ∧ s.d3hot = false) → RegInv s →
    let b := begin s
    let c := fun i => Instr.rcCounterRead i .dev (0x20000000 + Reg.sysAerrCnt) 4
    let clears := Leads (c i) s fun t =>
      t.out = [.value (s.rd Reg.sysAerrCnt)] ∧ t.rd Reg.sysAerrCnt = 0 ∧ t.mem = s.mem ∧ t.mbx = s.mbx ∧ t.cm = s.cm ∧ ∀ o, o ≠ Reg.sysAerrCnt → t.rd o = s.rd o
    (∀ o n, b.plainInit i = true → o < 0x10000000 →
      let a := 0x20000000 + o
      let both := fun (n : Nat) (t : State) => exec (.rcCounterRead i .dev a n) s = .next (after s t) ∧ exec (.loReadLatch i .dev a n) s = .next (after s t)
      (o % 4 = 0 → both 4 ((b.regRead i o).2.emit (.value ((b.regRead i o).1 % 2 ^ 32)))) ∧
      (o % 4 ≠ 0 ∨ min n 64 ≠ 4 → both n (((b.aerr i 2 false false a).emit (.value 0)).toldErr i false a))) ∧
    (b.plainInit i = true ∨ i = .trl → clears) ∧
    (∀ d k, i = .dsp d k → (b.core d k).st = .running →
      (b.free 2).2.agFault ((b.free 2).2.core d k) d k (coreAccess (2 + (b.free 2).1) false (0x20000000 + Reg.sysAerrCnt) 4) = none → clears) ∧
    (∀ e, i = .eng e → exec (c i) s = .next (after s (((b.aerr i 4 false false (0x20000000 + Reg.sysAerrCnt)).emit (.value 0)).engineTold e (0x20000000 + Reg.sysAerrCnt) .err))) ∧
    (∀ ch, i = .dct ch → csrOpen ch (b.dctAt ch).desc = false →
      exec (c i) s = .next (after s (((b.aerr i 4 false false (0x20000000 + Reg.sysAerrCnt)).emit (.value 0)).channelTold ch false (0x20000000 + Reg.sysAerrCnt) .err)))

/-- Over registers in canonical form, a field set by the device reads as the value written cut to its width; bits outside it and
other registers are unchanged, and the registers stay in canonical form. -/
def Obligations.FieldWriteReads : Prop :=
  ∀ (s : State) (off hi lo v : Nat), RegInv s → lo ≤ hi → hi < 32 →
    RegInv (s.wrF off hi lo v) ∧ (s.wrF off hi lo v).rdF off hi lo = v % 2 ^ (hi + 1 - lo) ∧
    (∀ n, n < lo ∨ hi < n → (s.wrF off hi lo v).rdB off n = s.rdB off n) ∧
    ∀ o, o ≠ off → (s.wrF off hi lo v).rd o = s.rd o

/-- Over memory in canonical form, a write to cellar memory that succeeds puts each of its bytes at its address; every other byte of
the device and all host memory are unchanged, and the memory stays in canonical form. -/
def Obligations.CellarWriteReads : Prop :=
  ∀ (s t : State) (i : Init) (a : Nat) (bs : List Byte),
    MemInv s → a + bs.length ≤ 0x04000000 → s.busWrite i a bs = (.ok, t) →
    MemInv t ∧ (∀ j, j < bs.length → t.devByte (a + j) = bs.getD j 0) ∧
    (∀ x, x < a ∨ a + bs.length ≤ x → t.devByte x = s.devByte x) ∧ ∀ x, t.hostByte x = s.hostByte x

/-- A host write through BAR2/3 that a grant covers, or one with debug access, is performed, and host rings whose SQ_PI it covers
are told; one outside every grant without debug access is refused with KIND 4 and changes no memory. One that the link cannot
carry (no bytes, above the max payload size, the link down, D3hot) or that lies beyond the 64 MiB does not reach the device. -/
def Obligations.HostCellarGranted : Prop :=
  ∀ (off : Nat) (data : List Byte) (s u : State),
    s.pwr.up = true →
    let b := begin s
    let carried := s.pcie.link = true ∧ s.d3hot = false ∧ data ≠ [] ∧ data.length ≤ s.maxPayload ∧ off + data.length ≤ 0x04000000
    (carried → b.granted off data.length = true ∨ b.hostDebug = true → b.busWrite .host off data = (.ok, u) →
      exec (.hostCellarWrite off data) s = .next (after s (u.ringsSee off data.length))) ∧
    (carried → b.granted off data.length = true ∨ b.hostDebug = true → ∀ r, b.busWrite .host off data = (r, u) → r ≠ .ok →
      exec (.hostCellarWrite off data) s = .next (after s u)) ∧
    (carried → b.granted off data.length = false → b.hostDebug = false →
      exec (.hostCellarWrite off data) s = .next (after s (b.aerr .host 4 true false off))) ∧
    (¬carried → exec (.hostCellarWrite off data) s = .next (after s b))

/-- An FLR and a conventional reset of a powered payload end every session and abandon what mailboxes hold, return the mailbox
pages, LOCK, HWBASE and configuration space to their Reset values, set DEVERR.FLR and leave tasks, cores, engines, carriers,
memory and Meridian alone; the loss of the data link does the same, puts back the posted writes that had not reached the link,
and takes the link down; on a link that is down already it changes nothing but the outputs, and LINK_UP sets the link up. -/
def Obligations.FunctionResets : Prop :=
  ∀ s : State, s.pwr.up = true → RegInv s →
    let reset := fun t : State => (∀ m, (t.mbxAt m).reqs = [] ∧ (t.mbxAt m).notices = []) ∧ t.rdB Reg.mbxDeverr 4 = true ∧ t.rd Reg.mbxLock = 0 ∧ t.rd Reg.pcieHwbaseLo = 0 ∧
      t.rd Reg.pcieHwbaseHi = 0 ∧ (∀ m, m < 64 → t.mbxOn m = false) ∧ t.pcie.msix = [] ∧ t.pcie.pmcsr = 0 ∧ t.pcie.msixCtl = 0 ∧ t.pcie.devCtl = 0 ∧
      t.cm = s.cm ∧ t.cores = s.cores ∧ t.engs = s.engs ∧ t.fw = { s.fw with loading := [] } ∧ t.mrd = s.mrd
    Leads .pcieFlr s (fun t => reset t ∧ t.mem = s.mem) ∧
    Leads .pcieConventionalReset s (fun t => reset t ∧ t.mem = s.mem) ∧
    (∀ kept, s.pcie.link = true → Leads (.pcieLinkDown kept) s fun t => reset t ∧ t.pcie.link = false ∧ t.mem.dev = s.mem.dev ∧
      t.mem.host = (State.unpost { begin s with pcie := { (begin s).pcie with posted := s.pcie.posted } } kept).mem.host) ∧
    (∀ kept, s.pcie.link = false → exec (.pcieLinkDown kept) s = .next (after s (begin s))) ∧
    exec .pcieLinkUp s = .next (after s { begin s with pcie := { (begin s).pcie with link := true } })

/-- Writing EN of a disabled mailbox with a valid SIZE, bases and shadow sets the four indices to 0, clears IDLE, sets EN, writes
the shadow and makes SYS.READY due; with an invalid configuration EN stays 0, CFG_ERR and DEVERR.MBX_ERR are set. Writing EN = 0
to an enabled mailbox stops it: its requests are no longer answered, its notices counted in NLOST. An enable of an enabled
mailbox and a disable of a disabled one change nothing. IDLE becomes 1 once a disabled mailbox has no write in flight. A 1
written to LOCK sets it, a 0 does nothing. Nothing else changes. -/
def Obligations.MailboxSessions : Prop :=
  ∀ (i : Init) (m : Nat) (v : Word) (s : State),
    i.hostOrCtl = true → m < 64 → s.pwr.up = true →
    let b := begin s
    let c := b.ctrlFields m (v.toNat ||| 2 ^ 31)
    let d := b.ctrlFields m (setFld v.toNat 31 31 0)
    let zeroed := (((c.wr (Reg.mbxReqPi m) 0).wr (Reg.mbxReqCi m) 0).wr (Reg.mbxRspPi m) 0).wr (Reg.mbxRspCi m) 0
    let opened := ((zeroed.setMbx m (zeroed.mbxAt m).close).wrF (Reg.mbxStat m) 31 31 0).wrF (Reg.mbxCtrl m) 31 31 1
    (b.mbxOn m = true → exec (.mbxEnable i m v) s = .next (after s b)) ∧
    (b.mbxOn m = false → c.mbxCfgOk m = true →
      exec (.mbxEnable i m v) s = .next (after s ((opened.shadow m).readyTo m))) ∧
    (b.mbxOn m = false → c.mbxCfgOk m = false →
      exec (.mbxEnable i m v) s = .next (after s ((c.wrF (Reg.mbxStat m) 2 2 1).devErr 1))) ∧
    (b.mbxOn m = false → exec (.mbxDisable i m v) s = .next (after s b)) ∧
    (b.mbxOn m = true →
      exec (.mbxDisable i m v) s = .next (after s
        (((d.wrF (Reg.mbxCtrl m) 31 31 0).count (Reg.mbxNlost m) (d.mbxAt m).notices.length).setMbx m (d.mbxAt m).close))) ∧
    (b.mbxOn m = false → exec (.mbxIdle m) s = .next (after s (b.wrF (Reg.mbxStat m) 31 31 1))) ∧
    (b.mbxOn m = true → exec (.mbxIdle m) s = .next (after s b)) ∧
    (tb v.toNat 0 = true → exec (.mbxLockSet i v) s = .next (after s (b.wrF Reg.mbxLock 0 0 1))) ∧
    (tb v.toNat 0 = false → exec (.mbxLockSet i v) s = .next (after s b))

/-- A REQ_PI write to an enabled mailbox whose occupancy stays within the request ring sets REQ_PI; one beyond it is discarded, sets
OVERRUN, disables the mailbox and sets DEVERR.MBX_ERR. An RSP_CI write up to RSP_PI sets RSP_CI; one beyond it is the same
error. Both are ignored while the mailbox is disabled. What the host wrote to its own memory before the doorbell stands in host
memory. -/
def Obligations.MailboxDoorbells : Prop :=
  ∀ (i : Init) (m : Nat) (v : Word) (hw : List (Nat × List Byte)) (s : State),
    i.hostOrCtl = true → m < 64 → s.pwr.up = true →
    let b := begin s
    let u := hw.foldl (fun (s : State) w => s.putHost w.1 w.2) b
    let occ := (v.toNat % 65536 + 65536 - b.rd (Reg.mbxReqCi m)) % 65536
    let room := (b.rd (Reg.mbxRspPi m) + 65536 - b.rd (Reg.mbxRspCi m)) % 65536
    let step := (v.toNat % 65536 + 65536 - b.rd (Reg.mbxRspCi m)) % 65536
    (b.mbxOn m = true → occ ≤ b.reqSize m → exec (.mbxReqPiWrite i m v hw) s = .next (after s (u.wr (Reg.mbxReqPi m) (v.toNat % 65536)))) ∧
    (b.mbxOn m = true → b.reqSize m < occ → exec (.mbxReqPiWrite i m v hw) s = .next (after s (u.mbxError m 1))) ∧
    (b.mbxOn m = false → exec (.mbxReqPiWrite i m v hw) s = .next (after s u)) ∧
    (b.mbxOn m = true → step ≤ room → exec (.mbxRspCiWrite i m v) s = .next (after s (b.wr (Reg.mbxRspCi m) (v.toNat % 65536)))) ∧
    (b.mbxOn m = true → room < step → exec (.mbxRspCiWrite i m v) s = .next (after s (b.mbxError m 1))) ∧
    (b.mbxOn m = false → exec (.mbxRspCiWrite i m v) s = .next (after s b))

/-- While responses fit the response ring (R37), REQUEST_CONSUME on an enabled mailbox whose next request lies whole in the ring
takes it: REQ_CI advances by its slots, the shadow is written, and the request waits with its bytes, its time and the TMO in
force, with the hardware's answer where the firmware state gives one (R48). A failed ring read is DMA_ERR, a LENGTH above 224
FORMAT; either disables the mailbox. Where there is no room for the response, no request or not the whole of it, nothing
happens. -/
def Obligations.RequestConsumed : Prop :=
  ∀ (m : Nat) (s : State), m < 64 → s.pwr.up = true →
    let b := begin s
    let x := b.mbxAt m
    let ci := b.rd (Reg.mbxReqCi m)
    let occ := (b.rd (Reg.mbxReqPi m) + 65536 - ci) % 65536
    let used := (b.rd (Reg.mbxRspPi m) + 65536 - b.rd (Reg.mbxRspCi m)) % 65536
    let base := b.rdPair (Reg.mbxReqBaseLo m) (Reg.mbxReqBaseHi m)
    let len := leAt (b.ringBytes base (b.reqSize m) ci 1) 8 2
    let n := slotsFor len
    (b.mbxOn m = false ∨ occ = 0 ∨ b.rspSize m ≤ x.open + used + 1 → ∀ ok, exec (.requestConsume m ok) s = .next (after s b)) ∧
    (b.mbxOn m = true → occ ≠ 0 → x.open + used + 1 < b.rspSize m →
    (b.pcie.link = true → len ≤ 224 → n ≤ occ →
      exec (.requestConsume m true) s = .next (after s (((b.wr (Reg.mbxReqCi m) ((ci + n) % 65536)).setMbx m
        { x with reqs := x.reqs ++ [{ bytes := (b.ringBytes base (b.reqSize m) ci n).take (16 + len), time := b.mrd.time, tmo := b.rdF (Reg.mbxTmo m) 15 0
                                      ans := hwAnswer b.fwSt m, gone := false }] }).shadow m))) ∧
    (b.pcie.link = true → len ≤ 224 → occ < n → exec (.requestConsume m true) s = .next (after s b)) ∧
    (∀ ok, ok = false ∨ b.pcie.link = false → exec (.requestConsume m ok) s = .next (after s (b.mbxError m 3))) ∧
    (b.pcie.link = true → 224 < len → exec (.requestConsume m true) s = .next (after s (b.mbxError m 4))))

/-- A ready response is committed: its request is done, and unless the deadline's response came first or the session has ended, its
slot is written at RSP_PI, then the shadow, then the vector. An answer that an effect follows is committed and the effect comes
then: the restart of SYS.RESTART, a blend's replacement, the entry of PWR.SET. A request that waits is answered when its wait is
over; one that names no message is answered as R42 and R45 say, or BAD_PARAM; other requests stay. When the deadline of a
request passes, BUSY with TIMED_OUT is written, and the request is handled on; without a deadline, or once it was written,
nothing. The oldest notice, marked LOST where notices were lost, is written only while the sum of R37 with one slot for it stays
below the ring size. A write that fails on PCIe, or finds the link down, sets DMA_ERR. -/
def Obligations.ResponsesAndNotices : Prop :=
  ∀ (m k : Nat) (ok : Bool) (s : State), m < 64 → s.pwr.up = true →
    let b := begin s
    let x := b.mbxAt m
    let lost := ok = false ∨ b.pcie.link = false
    let slot := fun (u : State) => u.rdPair (Reg.mbxRspBaseLo m) (Reg.mbxRspBaseHi m) + u.rd (Reg.mbxRspPi m) % u.rspSize m * 64
    let next := fun (u w : State) => ((w.wr (Reg.mbxRspPi m) ((u.rd (Reg.mbxRspPi m) + 1) % 65536)).shadow m).mbxVector m
    let commits := fun (t : State) => exec (.responseCommit m k ok) s = .next (after s t)
    (x.reqs[k]? = none → commits b ∧ exec (.responseTimeout m k ok) s = .next (after s b)) ∧
    (∀ q, x.reqs[k]? = some q →
      let done := b.setMbx m { x with reqs := x.reqs.eraseIdx k }
      (∀ r, b.respond m k r ok = if q.gone then done else if ok = false ∨ b.pcie.link = false then done.mbxError m 3 else
        next done (done.post1 (slot done) (slotBytes (mOp q.bytes) r.flags (leAt q.bytes 4 4) r.status r.payload))) ∧
      (∀ r, q.ans = .ready r → commits (b.respond m k r ok)) ∧
      (∀ r, q.ans = .thenDo r .restart → commits (b.respond m k r ok).enterRestarting) ∧
      (∀ r id, q.ans = .thenDo r (.blend id) → commits ((b.respond m k r ok).blendInForce id)) ∧
      (∀ r deep, q.ans = .thenDo r (.power deep) → b.nw.pstate = .run → commits ((b.respond m k r ok).entryBegins deep (b.wakeAtOf q.bytes (q.time / 2 ^ 32)))) ∧
      (∀ r deep, q.ans = .thenDo r (.power deep) → b.nw.pstate ≠ .run → commits (b.respond m k (.st stBadState) ok)) ∧
      (∀ w r t, q.ans = .wait w → b.waitOver q w = (some r, t) → commits (t.respond m k r ok)) ∧
      (∀ w t, q.ans = .wait w → b.waitOver q w = (none, t) → commits t) ∧
      (∀ r, q.ans = .none → b.nextReq m = some (k, q.bytes) → b.strayAnswer m q.bytes = some r → commits (b.respond m k r ok)) ∧
      (q.ans = .none → b.nextReq m ≠ some (k, q.bytes) ∨ b.strayAnswer m q.bytes = none → commits b) ∧
      (q.tmo ≠ 0 → q.gone = false →
        let u := b.until (q.time + q.tmo * 1000000 * 2 ^ 32)
        let v := u.setMbx m { u.mbxAt m with reqs := (u.mbxAt m).reqs.set k { q with gone := true } }
        exec (.responseTimeout m k ok) s = .next (after s (v.writeResponse m q { status := stBusy, flags := 2, payload := [] } ok))) ∧
      (q.tmo = 0 ∨ q.gone = true → exec (.responseTimeout m k ok) s = .next (after s b))) ∧
    (x.notices = [] ∨ b.mbxOn m = false ∨ b.rspSize m ≤ x.open + (b.rd (Reg.mbxRspPi m) + 65536 - b.rd (Reg.mbxRspCi m)) % 65536 + 1 →
      exec (.noticeDeliver m ok) s = .next (after s b)) ∧
    (∀ (n : List Byte) (rest : List (List Byte)), x.notices = n :: rest → b.mbxOn m = true →
      x.open + (b.rd (Reg.mbxRspPi m) + 65536 - b.rd (Reg.mbxRspCi m)) % 65536 + 1 < b.rspSize m →
      (lost → exec (.noticeDeliver m ok) s = .next (after s (b.mbxError m 3))) ∧
      (¬lost →
        let w := b.post1 (slot b) (if x.lost then patch n 2 (leBytes 2 (leAt n 2 2 ||| 8)) else n)
        exec (.noticeDeliver m ok) s = .next (after s
          ((((w.wr (Reg.mbxRspPi m) ((b.rd (Reg.mbxRspPi m) + 1) % 65536)).setMbx m { x with notices := rest, lost := false }).shadow m).mbxVector m))))

/-- While the firmware runs or starts, its watchdog's expiry and a control-core exception enter RESTARTING: every request consumed
and not yet answered gets FAULT with RESTART, the restart is recorded and counted; in other states they do nothing. In
RESTARTING the boot ROM loads the firmware again, or STATE becomes FAILED at the image's limit; a load that finds no image is
one more failed restart. RELOAD starts a load from flash in FAILED alone; where no image is accepted the ROM holds. A firmware
that starts sets STATE = RUNNING and ALIVE and sends SYS.READY, whose fields are kept for later sessions, to every open session:
after a restart it first ends what the former instance had opened (R50), after a cold boot it records the boot, at a wake it
maps the columns, and a TIME.STATE notice follows where time is in HOLDOVER at a first start; outside STARTING the row does
nothing. -/
def Obligations.FirmwareRestarts : Prop :=
  ∀ (s : State), s.pwr.up = true →
    let b := begin s
    let restart := fun (t : State) => exec .fwRestart s = .next { t with pending := s.pending }
    (b.fwSt = 2 ∨ b.fwSt = 3 → exec .fwWatchdogExpire s = .next (after s b.enterRestarting) ∧
      ∀ i, i < 4 → exec (.controlCoreException i) s = .next (after s b.enterRestarting)) ∧
    (b.fwSt ≠ 2 → b.fwSt ≠ 3 → exec .fwWatchdogExpire s = .next (after s b) ∧ (∀ i, i < 4 → exec (.controlCoreException i) s = .next (after s b)) ∧
      (b.fwSt ≠ 4 → restart b)) ∧
    (b.fwSt = 2 ∨ b.fwSt = 3 → restart b.enterRestarting.fwReload) ∧
    (b.fwSt = 4 → restart b.fwReload) ∧
    (∀ r : State, r.fw.limit ≤ r.recentRestarts → r.fwReload = r.fwFailed) ∧
    (∀ r u : State, r.recentRestarts < r.fw.limit → r.romBoot true = (true, u) → r.fwReload = u) ∧
    (∀ r u : State, r.recentRestarts < r.fw.limit → r.romBoot true = (false, u) →
      let v : State := { u with fw := { u.fw with restarts := u.ns :: u.fw.restarts } }
      r.fwReload = if v.fw.limit ≤ v.recentRestarts then v.fwFailed else v) ∧
    (∀ (i : Init) (v : Word) u, i.hostOrCtl = true → tb v.toNat 0 = true → b.fwSt = 5 →
      ((b.setFwSt 1).romRemap.romLoad = (true, u) → exec (.mbxFwctrlReload i v) s = .next { u with fw := { u.fw with restarted := true }, pending := s.pending }) ∧
      ((b.setFwSt 1).romRemap.romLoad = (false, u) → exec (.mbxFwctrlReload i v) s = .next { u with sec := { u.sec with hold := true }, pending := s.pending })) ∧
    (∀ (i : Init) (v : Word), i.hostOrCtl = true → b.fwSt ≠ 5 ∨ tb v.toNat 0 = false → exec (.mbxFwctrlReload i v) s = .next { b with pending := s.pending }) ∧
    (b.fwSt ≠ 2 → exec .fwRunning s = .next (after s b)) ∧
    (b.fwSt = 2 →
      let c := if b.coldBoot then b.recordBoot else b
      let d := if c.fw.restarted then c.freshInstance else c
      let e := if d.nw.pstate == .waking then d.mapColumns (fun _ => true) else d
      let u := (List.range 64).foldl (fun (s : State) m => s.readyTo m) ((e.setFwSt 3).setAlive true 0).started
      exec .fwRunning s = .next (after s ((if u.mrdState = 4 ∧ !u.fw.restarted then u.timeNotice 0 5 else u).controlUsed.evalMode)))

/-- For every message of the control firmware: a next request that is this message but breaks R42, or is privileged on a mailbox
with PRIV = 0, is answered so (BAD_PARAM, DENIED) and nothing else happens; where no request may start (R38), or the next one is
another message or another form of it, the row does nothing. The same for SYS.PING and SYS.INFO, which the ROM serves in ROM
hold too, and for SYS.BOOTRUN and SYS.FLASHWR, which the ROM alone serves; where nobody serves the mailbox the row does nothing.
The order of the two refusals is the model's (log entry 40). -/
def Obligations.MessagesRefused : Prop :=
  (∀ (i : Instr) (m op : Nat) (form : List Byte → Bool) (s : State),
    msgOf i = some (m, op, form) → i.wf = true → s.pwr.up = true → s.fwSt = 3 →
    (∀ k bs r, s.nextReq m = some (k, bs) → mOp bs = op → form bs = true → s.refuse m bs = some r →
      Answers i s m k (.ready r) (begin s)) ∧
    (∀ k bs, s.nextReq m = some (k, bs) → mOp bs ≠ op ∨ form bs = false → exec i s = .next (after s (begin s))) ∧
    (s.nextReq m = none → exec i s = .next (after s (begin s)))) ∧
  (∀ (i : Instr) (m op : Nat) (v : Bool) (s : State), s.pwr.up = true → m < 64 →
    let rom := (begin s).romServes m = true
    ((i = .sysPing m ∧ op = 0x0101 ∨ i = .sysInfo m ∧ op = 0x0102 ∨ i = .sysBootrun m ∧ op = 0x0180 ∨ i = .sysFlashwr m v ∧ op = 0x0181) →
      (∀ k bs r, rom ∨ (op < 0x0180 ∧ s.fwSt = 3) → s.nextReq m = some (k, bs) → mOp bs = op → s.refuse m bs = some r → Answers i s m k (.ready r) (begin s)) ∧
      (∀ k bs, s.nextReq m = some (k, bs) → mOp bs ≠ op → exec i s = .next (after s (begin s))) ∧
      (s.nextReq m = none ∨ ¬rom ∧ (0x0180 ≤ op ∨ s.fwSt ≠ 3) → exec i s = .next (after s (begin s)))))

/-- SYS.RESTART, SYS.HEADROOM, every PWR message, MEM.GRANT, TRELLIS.LOAD, BLEND.LOAD, BLEND.UNLOAD and every DEBUG message are
privileged: on a mailbox with PRIV = 0, with a header that R42 allows, each is answered DENIED and does nothing else. -/
def Obligations.PrivilegedDenied : Prop :=
  ∀ (i : Instr) (m k op : Nat) (form : List Byte → Bool) (bs : List Byte) (s : State),
    msgOf i = some (m, op, form) → i.wf = true → s.pwr.up = true → s.fwSt = 3 → s.nextReq m = some (k, bs) → mOp bs = op → form bs = true →
    badHeader bs = false → s.rdB (Reg.mbxCtrl m) 30 = false →
    (op = 0x0103 ∨ op = 0x0104 ∨ op / 256 = 0x02 ∨ op = 0x0703 ∨ op = 0x0B01 ∨ op = 0x0501 ∨ op = 0x0502 ∨ op / 256 = 0x0E) →
    Answers i s m k (said stDenied) (begin s)

/-- SYS.PING and SYS.INFO are answered OK by whoever serves the mailbox, the ROM in ROM hold or the running firmware: FWSTATE and
NOW32; identity, and from the running firmware the version, mode, ratings and digest. PWR.QUERY, TIME.QUERY and TRELLIS.QUERY
answer OK with the values they read. CARRIER.QUERY answers zeros for a carrier without a configuration and its state,
configuration and counts otherwise; BLEND.QUERY zeros for a blend not loaded and its image's values and use otherwise;
FLOW.QUERY the flow's state; SLOT.QUERY a known plan's state and counts, SPARE.QUERY the ratings (KIND 0xFF) or a kind's counts,
whose nominal numbers for DRAM rows are open. A number out of range, a handle not known, a KIND above 13 and a lane that does
not exist are answered BAD_PARAM. Nothing but the answer changes; LANE.STATUS also clears the counts that it gives. -/
def Obligations.QueriesAnswer : Prop :=
  ∀ (m k : Nat) (bs : List Byte) (s : State),
    let b := begin s
    let served := fun (op : Nat) => s.pwr.up = true ∧ m < 64 ∧ (s.fwSt = 3 ∨ b.romServes m = true) ∧ s.nextReq m = some (k, bs) ∧ mOp bs = op ∧ s.refuse m bs = none
    (served 0x0101 → Answers (.sysPing m) s m k (saidOk (leBytes 4 (s.rd Reg.mbxFwstate) ++ leBytes 4 (s.ns / 32 % 2 ^ 32))) b) ∧
    (served 0x0102 →
      let head := leBytes 4 b.sysId ++ leBytes 4 b.secStat ++ leBytes 8 Config.uid.toNat
      (s.fwSt = 3 → Answers (.sysInfo m) s m k (saidOk (head ++ leBytes 4 s.fw.keyId ++ leBytes 1 s.fw.svn ++ leBytes 1 (s.rdF Reg.mbxFwstate 15 8) ++
        leBytes 1 (b.mode + 128 * bn s.rsv.forced.isSome) ++ leBytes 1 (s.rdF Reg.mrdState 3 0) ++ leBytes 2 s.rsv.rated ++ leBytes 2 s.rsv.fskCh ++
        leBytes 4 s.rsv.taskSlots ++ (s.fw.digest ++ List.replicate 8 0).take 8 ++ List.replicate 8 0)) b) ∧
      (s.fwSt ≠ 3 → Answers (.sysInfo m) s m k (saidOk (head ++ List.replicate 32 0)) b)) ∧
    (Asked s m k 0x0202 bs → Answers (.pwrQuery m) s m k (saidOk ([0, 0] ++ leBytes 2 (unitBits 12 fun c => decide (s.rdF (Reg.pwrCl c) 3 0 = 0)) ++
      leBytes 10 (unitBits 80 b.engineAwake) ++ [0, 0] ++ leBytes 1 s.pwr.wsrc ++ leBytes 1 (bn s.pwr.refb) ++ [0, 0] ++ leBytes 2 (s.rdF Reg.pwrAvs 9 0))) b) ∧
    (Asked s m k 0x0903 bs → Answers (.timeQuery m) s m k (saidOk (leBytes 1 b.mrdState ++ leBytes 1 b.timeSrc ++ leBytes 2 ((List.range 384).countP b.armed) ++ b.timeTail)) b) ∧
    (Asked s m k 0x0B03 bs → Answers (.trellisQuery m) s m k (saidOk (leBytes 4 (s.rd Reg.trlRstat) ++ leBytes 2 (s.rdF Reg.trlStat 15 0) ++ leBytes 1 (s.rdF Reg.trlStat 25 24) ++ [0] ++
      leBytes 4 (s.rd Reg.trlGuardCnt) ++ leBytes 2 (s.rdF Reg.trlGuard 15 8 * 32 + s.rdF Reg.trlGuard 4 0))) b) ∧
    (Asked s m k 0x0C02 bs →
      let kind := leAt bs 16 1
      (kind = 0xFF → Answers (.spareQuery m) s m k (saidOk (leBytes 2 b.ratedNow.1 ++ leBytes 2 b.ratedNow.2 ++ leBytes 2 b.fskNow ++ [0, 0] ++ leBytes 4 b.slotsNow ++
        leBytes 2 ((List.range 14).map fun k => bn (s.rsv.degraded.any fun e => e.1 == k) * 2 ^ k).sum)) b) ∧
      (kind < 14 →
        let r := b.freeBytes 8
        let four := if kind = 12 then r.1 else leBytes 2 (r.2.inService kind) ++ leBytes 2 (nth 0 kindNominal kind) ++ leBytes 2 (nth 0 kindSpares kind) ++ leBytes 2 (r.2.sparesLeft kind)
        Answers (.spareQuery m) s m k (saidOk (four ++ leBytes 2 (s.rsv.retiring.filter fun r => r.kind == kind).length ++
          leBytes 2 (if kind = 13 then s.rsv.rowsOut.length else (s.rsv.out.filter fun e => e.1 == kind).length) ++ leBytes 2 (r.2.worst kind))) r.2) ∧
      (13 < kind → kind ≠ 0xFF → Answers (.spareQuery m) s m k (said stBadParam) b)) ∧
    (Asked s m k 0x0304 bs →
      let id := leAt bs 16 2
      (383 < id → Answers (.carrierQuery m) s m k (said stBadParam) b) ∧
      (id < 384 → b.carrier? id = none → Answers (.carrierQuery m) s m k (saidOk (List.replicate 32 0)) b) ∧
      ∀ c st, id < 384 → b.carrier? id = some c →
        c.st = .stopped ∧ st = 1 ∨ c.st = .started ∧ b.armed id = true ∧ st = 2 ∨ c.st = .started ∧ b.armed id = false ∧ st = 3 ∨ c.st = .draining ∧ st = 4 →
        Answers (.carrierQuery m) s m k (saidOk (leBytes 1 st ++ leBytes 1 (cRat c) ++ leBytes 1 (cMu c) ++ leBytes 1 (cBand c) ++ leBytes 2 (cPrb c) ++
          leBytes 2 (cAnt c) ++ leBytes 4 c.flowBase ++ leBytes 2 c.flowCount ++ leBytes 2 (carrierLoad c * 16 / 546) ++ leBytes 4 c.plans ++
          leBytes 4 c.late ++ leBytes 4 c.expired ++ leBytes 4 (mget (fun _ => 0) s.front.missing id))) b) ∧
    (Asked s m k 0x0403 bs →
      (b.knownPlan (leAt bs 16 4) = none → Answers (.slotQuery m) s m k (said stBadParam) b) ∧
      ∀ p st, b.knownPlan (leAt bs 16 4) = some p →
        p.ended = none ∧ b.planStarted p = false ∧ st = 1 ∨ p.ended = none ∧ b.planStarted p = true ∧ st = 2 ∨ p.ended ≠ none ∧ p.killed = false ∧ st = 3 ∨ p.ended ≠ none ∧ p.killed = true ∧ st = 4 →
        Answers (.slotQuery m) s m k (saidOk (leBytes 1 st ++ leBytes 1 (bn p.doneWritten) ++ leBytes 2 p.carrier ++ leBytes 4 p.total ++
          leBytes 4 (p.done + p.fault + p.expired + p.cancelled) ++ leBytes 4 p.done ++ leBytes 4 p.fault ++ leBytes 4 p.expired ++ leBytes 4 p.cancelled)) b) ∧
    (Asked s m k 0x0503 bs →
      (b.blend? (leAt bs 16 2) = none → Answers (.blendQuery m) s m k (saidOk (List.replicate 24 0)) b) ∧
      ∀ d, b.blend? (leAt bs 16 2) = some d →
        Answers (.blendQuery m) s m k (saidOk ([1, 0] ++ leBytes 2 d.templates ++ leBytes 2 d.idem ++ [0, 0] ++ leBytes 4 d.planLen ++ leBytes 4 d.keyId ++
          leBytes 1 d.svn ++ [0, 0, 0] ++ leBytes 4 (b.blendUse (leAt bs 16 2)))) b) ∧
    (Asked s m k 0x0603 bs →
      let n := leAt bs 16 4
      let f := b.flow n
      (65535 < n → Answers (.flowQuery m) s m k (said stBadParam) b) ∧
      (n < 65536 →
        Answers (.flowQuery m) s m k (saidOk (leBytes 1 (bn f.opened) ++ leBytes 1 (bn ((b.flowTasks n).any fun e => Sys2Proof.Machine.inService e.2)) ++ leBytes 1 f.home ++ leBytes 1 (bn f.pin) ++
          leBytes 1 (bn f.dlpol) ++ leBytes 1 f.recp ++ leBytes 1 f.cq ++ [0] ++ leBytes 4 (b.flowTasks n).length)) b)) ∧
    (Asked s m k 0x0802 bs →
      let g := leAt bs 16 1
      let l := leAt bs 17 1
      let r := b.regNow (.ctl 0) 0xC00004 [g, l] (Reg.laneStat g l)
      let u := r.2
      let x := u.lane g l
      let eye := u.rd (Reg.laneEye g l)
      (b.laneNamed g l = false → Answers (.laneStatus m) s m k (said stBadParam) b) ∧
      (b.laneNamed g l = true →
        Answers (.laneStatus m) s m k (saidOk (leBytes 1 (fld r.1 31 28) ++ leBytes 1 (r.1 % 256) ++ leBytes 1 (u.laneMode g l) ++
          leBytes 1 (fld r.1 27 24) ++ leBytes 4 x.retry ++ leBytes 4 x.errs ++ leBytes 4 x.fecC ++ leBytes 4 x.fecU ++ leBytes 2 (fld eye 7 0) ++
          leBytes 2 (fld eye 27 16)))
        (u.setLane g l { x with retry := 0, errs := 0, fecC := 0, fecU := 0 })))

/-- SYS.RESTART is given the answer OK, after whose commit the firmware restarts. SYS.HEADROOM KIND 0 with MODE 0xFF answers the
present headroom; a MODE of 1 or 2 forces CONSOLIDATE or SHIELD and MODE 0 leaves the choice to the evaluation; the answer is OK
at once or waits for the changes begun; another MODE is BAD_PARAM. KIND 1 with values in range sets the voltage and frequency
asked for of the named cluster, or with 0xFF of all twelve, and answers OK, or CLAMPED where FLOOR holds one; out of range it
answers BAD_PARAM. SYS.ERROR raises the notice for an error that its source's record shows, at most once a millisecond for one
source, a further one marked MORE in the next; without an error or a running firmware it does nothing. In ROM hold SYS.BOOTRUN
of an image that passes R495 starts it, and SYS.FLASHWR of such an image erases and programs it at OFFSET, FAULT where the flash
does not verify; an image that fails is answered BAD_IMAGE with its CHECK, one that the host's memory cannot give or an OFFSET
that is no multiple of 4,096 BAD_PARAM. -/
def Obligations.SystemMessages : Prop :=
  ∀ (m k : Nat) (bs : List Byte) (s : State),
    let b := begin s
    let headroom := fun (u : State) => leBytes 1 u.mode ++ leBytes 1 (bn u.rsv.forced.isSome) ++ leBytes 2 (min 65535 (u.load / 546)) ++ leBytes 2 u.rsv.rated
    (Asked s m k 0x0103 bs → Answers (.sysRestart m) s m k (.thenDo (.st stOk) .restart) b) ∧
    (Asked s m k 0x0104 bs → leAt bs 16 1 = 0 →
      let md := leAt bs 17 1
      let forced := fun (f : Option Nat) => ({ b with rsv := { b.rsv with forced := f } } : State)
      let waits := fun (u : State) => Answers (.sysHeadroomMode m) s m k (if u.changes = 0 then saidOk (headroom u) else .wait (.headroom u.changes)) u
      (md = 0xFF → Answers (.sysHeadroomMode m) s m k (saidOk (headroom b)) b) ∧
      (2 < md → md ≠ 0xFF → Answers (.sysHeadroomMode m) s m k (said stBadParam) b) ∧
      (1 ≤ md → md ≤ 2 → waits ((forced (some (md - 1))).wantMode (md - 1))) ∧
      (md = 0 → waits (forced none).evalMode)) ∧
    (Asked s m k 0x0104 bs → leAt bs 16 1 = 1 →
      let c := leAt bs 18 1
      let v := leAt bs 20 2
      let f := leAt bs 22 2
      let ok := (c < 12 ∨ c = 0xFF) ∧ (v = 0 ∨ 620 ≤ v ∧ v ≤ 880) ∧ (f = 0 ∨ 400 ≤ f ∧ f ≤ 1600 ∧ f % 100 = 0)
      let gives := fun (held : Bool) (low : Nat) (u : State) => Answers (.sysHeadroomVoltage m) s m k
        (.ready { status := if held then stClamped else stOk, flags := 0, payload := headroom u ++ leBytes 2 (u.targetV low) ++ leBytes 2 (u.freqOf low) }) u
      (ok → c ≠ 0xFF → gives (b.askVoltage c v f).1 c (b.askVoltage c v f).2) ∧
      (ok → c = 0xFF →
        let r := (List.range 12).foldl (fun (r : Bool × State) d => (r.1 || (r.2.askVoltage d v f).1, (r.2.askVoltage d v f).2)) (false, b)
        gives r.1 0 r.2) ∧
      (¬ok → Answers (.sysHeadroomVoltage m) s m k (said stBadParam) b)) ∧
    (∀ src unit, src < 7 → s.pwr.up = true →
      let last := mget (fun _ => 0) b.fw.errTime src
      let soon := last ≠ 0 ∧ b.ns + 1 < last + 1000000
      (s.fwSt ≠ 3 ∨ b.errorRecord src unit = none → exec (.sysError src unit) s = .next (after s b)) ∧
      (∀ n rec a, s.fwSt = 3 → b.errorRecord src unit = some (n, rec, a) →
        (soon → exec (.sysError src unit) s = .next (after s { b with fw := { b.fw with errMore := sins b.fw.errMore src } })) ∧
        (¬soon →
          let u := { b with fw := { b.fw with errTime := mput (fun _ => 0) b.fw.errTime src (b.ns + 1), errMore := sdel b.fw.errMore src } }
          exec (.sysError src unit) s = .next (after s (u.notice 0x0106 0 (leBytes 1 src ++ leBytes 1 (bn (b.fw.errMore.contains src)) ++ leBytes 2 n ++
            leBytes 4 rec ++ leBytes 8 a ++ taiBytes b.ns)))))) ∧
    (s.pwr.up = true → m < 64 → b.romServes m = true → b.nextReq m = some (k, bs) → b.refuse m bs = none →
      let found := b.hostImage (leAt bs 24 8) (leAt bs 32 4)
      let off := leAt bs 36 4
      let bad := fun (c : Nat) => Ans.ready { status := stBadImage, flags := 0, payload := leBytes 1 c }
      let runs := fun (u : State) (a : Ans) => exec (.sysBootrun m) s = .next { u.setAns m k a with pending := s.pending }
      let writes := fun (v : Bool) (u : State) (a : Ans) => Answers (.sysFlashwr m v) s m k a u
      (mOp bs = 0x0180 →
        (found = none → runs b (said stBadParam)) ∧
        (∀ img, found = some img → b.checkImage 1 img = 0 →
          let u := b.placeResident (krvPayload img)
          runs (({ u with fw := { u.fw with restarted := true } } : State).startImage (img.take 512) (krvPayload img)) (said stOk)) ∧
        (∀ img c, found = some img → b.checkImage 1 img = c + 1 → runs (b.lastCheck (c + 1)) (bad (c + 1)))) ∧
      (mOp bs = 0x0181 → ∀ v,
        (off % 4096 ≠ 0 ∨ found = none → writes v b (said stBadParam)) ∧
        (∀ img, off % 4096 = 0 → found = some img →
          let checked := b.checkImage (if leAt img 6 1 = 4 then 4 else 1) img
          let erased := b.eraseFlash off (alignUp img.length 4096)
          (checked = 0 → writes true (erased.programFlash off img) (said stOk)) ∧
          (checked = 0 → writes false ((erased.freeBytes img.length).2.programFlash off (erased.freeBytes img.length).1) (said stFault)) ∧
          (∀ c, checked = c + 1 → writes v (b.lastCheck (c + 1)) (bad (c + 1))))))

/-- PWR.SET of the device in RUN answers OK and does nothing; for DEEP and OFF, from RUN without a started carrier, an NFE plan, a
pending Tether request or an entry already due, it is given the answer OK, after whose commit entry begins; otherwise BAD_STATE.
RUN of a cluster or an engine in service sets HOLD and wakes it, SLEEP clears HOLD (a cluster only outside SHIELD; an NFE only
with RX_EN = 0), and the sleep is at once where the unit may sleep, asked for otherwise; OFF of a cluster without a core in
service loses its memories; each answers OK and raises PWR.STATE when the state asked for holds, or answers BAD_STATE. A unit
that does not exist, and a WAKE_AT out of range or where the state takes none, is BAD_PARAM. -/
def Obligations.PowerMessages : Prop :=
  ∀ (m k : Nat) (bs : List Byte) (s : State),
    let b := begin s
    let unit := leAt bs 18 2
    let free := b.entryRefused = false ∧ b.nw.pstate = .run ∧ b.entryDue = false
    let cl := b.rdF (Reg.pwrCl unit) 3 0
    let en := b.engPower unit
    Asked s m k 0x0201 bs →
    (∀ i n, i = .pwrSetDeviceRun m ∧ pwrPair bs = (0, 0) ∧ n = 1 ∨ i = .pwrSetClusterRun m ∧ pwrPair bs = (1, 0) ∧ n = 12 ∨ i = .pwrSetClusterSleep m ∧ pwrPair bs = (1, 2) ∧ n = 12 ∨
        i = .pwrSetClusterOff m ∧ pwrPair bs = (1, 4) ∧ n = 12 ∨ i = .pwrSetEngineRun m ∧ pwrPair bs = (2, 0) ∧ n = 80 ∨ i = .pwrSetEngineSleep m ∧ pwrPair bs = (2, 2) ∧ n = 80 →
      n ≤ unit ∨ leAt bs 24 8 ≠ 0 → Answers i s m k (said stBadParam) b) ∧
    (pwrPair bs = (0, 0) → unit = 0 → leAt bs 24 8 = 0 → Answers (.pwrSetDeviceRun m) s m k (said stOk) b) ∧
    (∀ i deep, i = .pwrSetDeviceDeep m ∧ pwrPair bs = (0, 3) ∧ deep = true ∨ i = .pwrSetDeviceOff m ∧ pwrPair bs = (0, 4) ∧ deep = false →
      (unit ≠ 0 ∨ b.wakeAtOf bs (b.consumed m) = none → Answers i s m k (said stBadParam) b) ∧
      (unit = 0 → b.wakeAtOf bs (b.consumed m) ≠ none → free → Answers i s m k (.thenDo (.st stOk) (.power deep)) b) ∧
      (unit = 0 → b.wakeAtOf bs (b.consumed m) ≠ none → ¬free → Answers i s m k (said stBadState) b)) ∧
    (leAt bs 24 8 = 0 → unit < 12 →
      (pwrPair bs = (1, 0) →
        (b.clusterIn unit = false → Answers (.pwrSetClusterRun m) s m k (said stBadState) b) ∧
        (b.clusterIn unit = true →
          Answers (.pwrSetClusterRun m) s m k (said stOk) ((((b.wrF (Reg.pwrCl unit) 31 31 1).wakeCluster unit).unaskSleep unit).pwrNotice 1 unit cl 0))) ∧
      (pwrPair bs = (1, 2) →
        let u := b.wrF (Reg.pwrCl unit) 31 31 0
        (b.mode = 1 → Answers (.pwrSetClusterSleep m) s m k (said stBadState) b) ∧
        (b.mode ≠ 1 → cl = 2 → Answers (.pwrSetClusterSleep m) s m k (said stOk) (u.pwrNotice 1 unit cl 2)) ∧
        (b.mode ≠ 1 → cl ≠ 2 → u.clusterMaySleep unit = true → Answers (.pwrSetClusterSleep m) s m k (said stOk) (((u.clusterDown unit).unaskSleep unit).pwrNotice 1 unit cl 2)) ∧
        (b.mode ≠ 1 → cl ≠ 2 → u.clusterMaySleep unit = false → Answers (.pwrSetClusterSleep m) s m k (said stOk) (u.askSleep unit))) ∧
      (pwrPair bs = (1, 4) →
        let u := (b.forget (0x10000000 + unit * 0x01000000) (0x10000000 + unit * 0x01000000 + 0x01000000)).wrF (Reg.pwrCl unit) 3 0 4
        (b.clusterIn unit = true → Answers (.pwrSetClusterOff m) s m k (said stBadState) b) ∧
        (b.clusterIn unit = false → Answers (.pwrSetClusterOff m) s m k (said stOk) (((u.wrF (Reg.rsvLoad unit) 31 31 0).wrF (Reg.rsvLoad unit) 7 0 0).unaskSleep unit |>.pwrNotice 1 unit cl 4)))) ∧
    (leAt bs 24 8 = 0 → unit < 80 →
      (pwrPair bs = (2, 0) →
        (b.engIn unit = false → Answers (.pwrSetEngineRun m) s m k (said stBadState) b) ∧
        (b.engIn unit = true →
          Answers (.pwrSetEngineRun m) s m k (said stOk) ((((b.wrF (Reg.pwrEng unit) 31 31 1).engineWake unit).unaskSleep (12 + unit)).pwrNotice 2 unit en 0))) ∧
      (pwrPair bs = (2, 2) →
        let u := b.wrF (Reg.pwrEng unit) 31 31 0
        let held := 76 ≤ unit ∧ b.rdB (Reg.nfeCtrl (unit - 76)) 0 = true
        (held → Answers (.pwrSetEngineSleep m) s m k (said stBadState) b) ∧
        (¬held → en = 2 → Answers (.pwrSetEngineSleep m) s m k (said stOk) (u.pwrNotice 2 unit 2 2)) ∧
        (¬held → en ≠ 2 → Answers (.pwrSetEngineSleep m) s m k (said stOk) (u.askSleep (12 + unit)))))

/-- CARRIER.CONFIG of fields in range, for a carrier that is not started and fits the rated streams and its port, closes the flows
of the configuration it replaces, opens its own at FLOW_CFG's defaults, keeps the configuration (and the counts since the last
START) and answers OK with FLOW_BASE and FLOW_COUNT; fields out of range are BAD_PARAM, a started carrier BAD_STATE, one that
does not fit NO_RESOURCE; with flows that are not free the row does nothing. CARRIER.START of a configured carrier that is not
started, with every antenna bound, programs its timeline, starts its counts from zero and, while Meridian is LOCKED, arms it; it
answers OK with ARMED and the first SFN; otherwise BAD_STATE. CARRIER.STOP of a started carrier disarms it and cancels its
plans; with DRAIN it stops taking plans only; the answer waits for the last task and counts the plans that have uncommitted
tasks now. Of a stopped carrier it waits only with REMOVE; otherwise it is BAD_STATE. A carrier above 383 is BAD_PARAM. -/
def Obligations.CarrierMessages : Prop :=
  ∀ (m k base n : Nat) (bs : List Byte) (s : State),
    let b := begin s
    let id := leAt bs 16 2
    (Asked s m k 0x0301 bs →
      let new : Carrier := { cfg := (List.range 28).map (fun i => bs.getD (16 + i) 0), flowBase := base, flowCount := n, st := .stopped, plans := 0, late := 0, expired := 0, cancelled := 0, completed := 0 }
      let running := ((b.carrier? id).map started).getD false
      let r := b.carrierFits id new
      let u := r.2
      let free := fun (v : State) => n < 65536 ∧ base + n ≤ 65536 ∧ ∀ i, i < n → (v.flow (base + i)).opened = false
      let gives := fun (a : Ans) (v : State) => Answers (.carrierConfig m base n) s m k a v
      (cfgInRange id new = false → gives (said stBadParam) b) ∧
      (cfgInRange id new = true → running = true → gives (said stBadState) b) ∧
      (cfgInRange id new = true → running = false → r.1 = false → gives (said stNoResource) u) ∧
      (cfgInRange id new = true → running = false → r.1 = true →
        (u.carrier? id = none →
          let v : State := { u with front := { u.front with missing := mput (fun _ => 0) u.front.missing id 0 } }
          (free u → gives (saidOk (leBytes 4 base ++ leBytes 2 n)) ((v.openFlows base n).setCarrier id (some new))) ∧ (¬free u → gives .none u)) ∧
        (∀ o, u.carrier? id = some o →
          let v := u.closeFlows o
          (free v →
            gives (saidOk (leBytes 4 base ++ leBytes 2 n)) ((v.openFlows base n).setCarrier id (some { new with plans := o.plans, late := o.late, expired := o.expired }))) ∧
          (¬free v → gives .none u)))) ∧
    (Asked s m k 0x0302 bs →
      let gives := fun (a : Ans) (v : State) => Answers (.carrierStart m) s m k a v
      (383 < id → gives (said stBadParam) b) ∧
      (id < 384 → b.carrier? id = none → gives (said stBadState) b) ∧
      (∀ c, id < 384 → b.carrier? id = some c → c.st ≠ .stopped ∨ b.antennasBound id c = false → gives (said stBadState) b) ∧
      (∀ c, id < 384 → b.carrier? id = some c → c.st = .stopped → b.antennasBound id c = true →
        let u := (b.programTimeline id c).setCarrier id (some { c with st := .started, plans := 0, late := 0, expired := 0, cancelled := 0, completed := 0 })
        let v : State := { u with front := { u.front with missing := mput (fun _ => 0) u.front.missing id 0 } }
        let w := if v.armed id then v else v.armTl id
        (v.mrdState = 2 → gives (saidOk ([1, 0] ++ leBytes 2 ((w.tl id).fromFrame % 1024))) w.evalMode) ∧
        (v.mrdState ≠ 2 → gives (saidOk ([0, 0] ++ leBytes 2 65535)) v.evalMode))) ∧
    (Asked s m k 0x0303 bs → ∀ i, i = (if tb (leAt bs 18 1) 0 then .carrierStopDrain m else .carrierStop m) →
      let remove := tb (leAt bs 18 1) 1
      let gives := fun (a : Ans) (v : State) => Answers i s m k a v
      (383 < id → gives (said stBadParam) b) ∧
      (id < 384 → b.carrier? id = none → gives (said stBadState) b) ∧
      (∀ c, id < 384 → b.carrier? id = some c →
        let u := b.setCarrier id (some { c with cancelled := (b.stopCounts id).1, completed := (b.stopCounts id).2 })
        (c.st = .stopped → remove = false → gives (said stBadState) b) ∧
        (c.st = .stopped → remove = true → gives (.wait (.stop id true)) u) ∧
        (c.st ≠ .stopped → tb (leAt bs 18 1) 0 = true → gives (.wait (.stop id remove)) (u.onCarrier id fun c => { c with st := .draining })) ∧
        (c.st ≠ .stopped → tb (leAt bs 18 1) 0 = false →
          let v := u.onCarrier id fun c => { c with st := .stopped }
          gives (.wait (.stop id remove)) (((v.plansOf id).map (·.handle)).foldl (fun s h => s.killPlan h) (v.disarm id)).evalMode)))

/-- SLOT.PLAN of fields in range for a started, armed carrier, in time by its lead, with a task count within MAX_TASKS, takes the
next plan handle, forgets plans ended more than a second ago, records the plan with its tasks, each awaiting the plan-release
event, and submits them: the answer is ACCEPTED with the count and the handle once all are submitted, waits under back-pressure,
and is FAULT where one is rejected. Fields out of range are BAD_PARAM, an unconfigured carrier, one that is not started or a
frame before the timeline's first BAD_STATE, too many tasks NO_RESOURCE; too late, it is LATE and counted; with tasks that the
plan's event does not serve the row does nothing. PLAN_SUBMIT_LATE of a plan still held at the slot's start drops it and answers
LATE, and does nothing to another handle. SLOT.CANCEL of a live plan cancels what has not committed and answers how many ended
cancelled and how many not; of an ended one ALREADY_DONE; of an unknown one BAD_PARAM (the model's choice, log entry 49). -/
def Obligations.SlotMessages : Prop :=
  ∀ (m k grp flag : Nat) (tasks : List (List Word)) (bs : List Byte) (s : State),
    let b := begin s
    let id := leAt bs 16 2
    let gives := fun (a : Ans) (v : State) => Answers (.slotPlan m tasks grp flag) s m k a v
    (Asked s m k 0x0401 bs → grp < 16384 → flag < 32 →
      (383 < id → gives (said stBadParam) b) ∧
      (id < 384 → b.carrier? id = none → gives (said stBadState) b) ∧
      ∀ c, id < 384 → b.carrier? id = some c →
        let blend := b.fw.blends.find? (fun x => x.id == (if leAt bs 22 2 = 0 then cBlend c (leAt bs 21 1) else leAt bs 22 2))
        let t := b.consumed m
        let frame := frameOf (cAirOfs c) (leAt bs 18 2) t
        let start := slotStart c frame (leAt bs 20 1)
        let todo := tasks.map (withRelease grp flag)
        (b.planInRange bs c blend = false → gives (said stBadParam) b) ∧
        (b.planInRange bs c blend = true → start < t + cLead c * 1000 → gives (said stLate) (b.setCarrier id (some { c with late := (c.late + 1) % 2 ^ 32 }))) ∧
        (b.planInRange bs c blend = true → t + cLead c * 1000 ≤ start →
          (b.mrdState ≠ 2 ∨ c.st ≠ .started ∨ frame < (b.tl id).fromFrame → gives (said stBadState) b) ∧
          (b.mrdState = 2 → c.st = .started → (b.tl id).fromFrame ≤ frame →
            (cMaxTasks c < tasks.length → gives (said stNoResource) b) ∧
            (tasks.length ≤ cMaxTasks c → b.releaseOk flag todo = false → gives .none b) ∧
            (tasks.length ≤ cMaxTasks c → b.releaseOk flag todo = true →
              let h := b.fw.nextPlan
              let p : Plan := { handle := h, carrier := id, blend := if leAt bs 22 2 = 0 then cBlend c (leAt bs 21 1) else leAt bs 22 2, blendVer := (blend.map (·.ver)).getD 0, start := start, slotNs := 1000000 / 2 ^ cMu c, todo := todo, tasks := [], total := tasks.length, relGrps := releaseGroups todo, relFlag := flag, released := false, done := 0, fault := 0, expired := 0, cancelled := 0, started := false, killed := false, doneAddr := leAt bs 40 8, doneValue := leAt bs 48 4, doneWritten := false, ended := none }
              let u : State := { b with fw := { b.fw with nextPlan := h % (2 ^ 32 - 1) + 1, plans := (b.fw.plans.filter fun x => !b.oldPlan x) ++ [p] } }
              gives (u.planOn h).1 (u.planOn h).2)))) ∧
    (∀ (u v : State) h p, u.plan? h = some p →
      (∀ q, u.submitTodo h p.todo = (1, v) → v.plan? h = some q →
        let w := (v.onPlan h fun p => { p with released := true }).onCarrier q.carrier fun c => { c with plans := (c.plans + 1) % 2 ^ 32 }
        u.planOn h = (.ready { status := stAccepted, flags := 0, payload := leBytes 4 q.total ++ leBytes 4 h }, (q.relGrps.foldl (fun s g => s.post g (2 ^ q.relFlag)) w).endPlan h)) ∧
      (∀ q, u.submitTodo h p.todo = (0, v) → v.plan? h = some q → u.planOn h = (.wait (.plan h), v)) ∧
      (∀ n, u.submitTodo h p.todo = (n + 2, v) → u.planOn h = (said stFault, v.dropPlan h))) ∧
    (∀ h, s.pwr.up = true →
      (b.plan? h = none → exec (.planSubmitLate h) s = .next (after s b)) ∧
      (∀ p, b.plan? h = some p → p.released = true → exec (.planSubmitLate h) s = .next (after s b)) ∧
      (∀ p, b.plan? h = some p → p.released = false →
        let u := (b.until (p.start * 2 ^ 32)).onCarrier p.carrier fun c => { c with late := (c.late + 1) % 2 ^ 32 }
        exec (.planSubmitLate h) s = .next (after s ((u.dropPlan h).answerPlan h (.st stLate))))) ∧
    (Asked s m k 0x0402 bs →
      let h := leAt bs 16 4
      (b.knownPlan h = none → Answers (.slotCancel m) s m k (said stBadParam) b) ∧
      (∀ p, b.knownPlan h = some p → p.ended ≠ none → Answers (.slotCancel m) s m k (said stAlreadyDone) b) ∧
      (∀ p, b.knownPlan h = some p → p.ended = none →
        let r := p.tasks.foldl (fun (r : Nat × State) t => (r.1 + bn (r.2.cancelHandle t).1, (r.2.cancelHandle t).2)) (p.cancelled, b.onPlan h fun p => { p with killed := true })
        Answers (.slotCancel m) s m k (saidOk (leBytes 4 r.1 ++ leBytes 4 (p.total - r.1))) (r.2.endPlan h)))

/-- BLEND.LOAD of an image that fails R495 is BAD_IMAGE with its CHECK; of one that passes, under a free ID or with REPLACE, and
that the store holds, loads the blend under a new version and gives the answer OK with its template counts, after whose commit
the blend is in force; an ID out of range or an image that the host does not give is BAD_PARAM, an ID in use BAD_STATE, a load
in progress BUSY, a full store NO_RESOURCE. BLEND.UNLOAD of a loaded blend that no carrier has as its default and no live plan
uses removes it; otherwise BAD_PARAM, BAD_STATE, BUSY. FLOW.PIN of an open flow sets PIN and HOME to a cluster in service, or
clears PIN with 0xFF; a closed flow is BAD_STATE, a cluster without a core NO_RESOURCE. FLOW.NOTIFY binds a vector to an event
group that is tested at once, or unbinds it; a bound vector, or one that is not, is BAD_STATE, values out of range BAD_PARAM. -/
def Obligations.BlendFlowMessages : Prop :=
  ∀ (m k : Nat) (bs : List Byte) (s : State),
    let b := begin s
    let id := leAt bs 16 2
    let f := leAt bs 16 4
    (Asked s m k 0x0501 bs →
      let gives := fun (a : Ans) (v : State) => Answers (.blendLoad m) s m k a v
      let found := b.hostImage (leAt bs 24 8) (leAt bs 32 4)
      (id = 0 ∨ 4095 < id ∨ found = none → gives (said stBadParam) b) ∧
      ∀ img, 1 ≤ id → id ≤ 4095 → found = some img →
        let p := krvPayload img
        let kept := (b.fw.blends.filter fun x => x.id != id) ++ b.fw.loading
        let inUse := b.blend? id ≠ none ∧ tb (leAt bs 18 2) 0 = false
        let fits := p.length + (kept.map (·.len)).sum ≤ 16777216 + Config.blendStore
        (∀ c, b.checkImage 2 img = c + 1 → gives (.ready { status := stBadImage, flags := 0, payload := leBytes 1 (c + 1) }) b) ∧
        (b.checkImage 2 img = 0 →
          (inUse → gives (said stBadState) b) ∧
          (¬inUse → (∃ x ∈ b.fw.loading, x.id = id) → gives (said stBusy) b) ∧
          (¬inUse → (∀ x ∈ b.fw.loading, x.id ≠ id) → ¬fits → gives (said stNoResource) b) ∧
          (¬inUse → (∀ x ∈ b.fw.loading, x.id ≠ id) → fits →
            let n := (((blendSections p (p.length + 1) 0).getD []).filter fun x => x.1 == 1).length
            let idem := (b.free (n + 1)).1
            let u := (b.free (n + 1)).2
            let plen := (u.free 65537).1
            let v := (u.free 65537).2
            let d : Blend := { id := id, ver := b.fw.blendVer + 1, templates := n, idem := idem, planLen := plen, len := p.length, keyId := leAt img 8 4, svn := leAt img 12 1 }
            gives (.thenDo (.ok (leBytes 2 n ++ leBytes 2 idem)) (.blend id)) { v with fw := { v.fw with loading := v.fw.loading ++ [d], blendVer := v.fw.blendVer + 1 } }))) ∧
    (∀ (u : State) (d : Blend), u.fw.loading.find? (fun x => x.id == id) = some d →
      u.blendInForce id = { u with fw := { u.fw with loading := u.fw.loading.filter fun x => x.id != id, blends := (u.fw.blends.filter fun x => x.id != id) ++ [d] } }) ∧
    (Asked s m k 0x0502 bs →
      let gives := fun (a : Ans) (v : State) => Answers (.blendUnload m) s m k a v
      let default := ∃ e ∈ b.fw.carriers, ∃ c, e.2 = some c ∧ (cBlend c 0 = id ∨ cBlend c 1 = id)
      (b.blend? id = none → gives (said stBadParam) b) ∧
      (b.blend? id ≠ none → default → gives (said stBadState) b) ∧
      (b.blend? id ≠ none → ¬default → b.blendUse id ≠ 0 → gives (said stBusy) b) ∧
      (b.blend? id ≠ none → ¬default → b.blendUse id = 0 → gives (said stOk) { b with fw := { b.fw with blends := b.fw.blends.filter fun x => x.id != id } })) ∧
    (Asked s m k 0x0601 bs →
      let gives := fun (a : Ans) (v : State) => Answers (.flowPin m) s m k a v
      let c := leAt bs 20 1
      let bad := 65535 < f ∨ 12 ≤ c ∧ c ≠ 0xFF
      (bad → gives (said stBadParam) b) ∧
      (¬bad → (b.flow f).opened = false → gives (said stBadState) b) ∧
      (¬bad → (b.flow f).opened = true →
        (c = 0xFF → gives (said stOk) ((b.setFlow f { b.flow f with pin := false }).advanceFlow f)) ∧
        (c < 12 → b.clusterIn c = false → gives (said stNoResource) b) ∧
        (c < 12 → b.clusterIn c = true → (b.flow f).home = c → gives (said stOk) ((b.setFlow f { b.flow f with pin := true, home := c }).advanceFlow f)) ∧
        (c < 12 → b.clusterIn c = true → (b.flow f).home ≠ c → gives (said stOk) (((b.setHome f c).setFlow f { b.flow f with pin := true, home := c }).advanceFlow f)))) ∧
    (Asked s m k 0x0602 bs →
      let inRange := 130 ≤ id ∧ id ≤ 2047 ∧ leAt bs 20 2 < 16384
      let bound := ∃ x ∈ b.fw.binds, x.vector = id
      (tb (leAt bs 18 2) 0 = false →
        let x : Bind := { vector := id, any := tb (leAt bs 18 2) 1, rep := tb (leAt bs 18 2) 2, grp := leAt bs 20 2, mask := leAt bs 24 4 }
        (¬inRange ∨ leAt bs 24 4 = 0 → Answers (.flowNotifyBind m) s m k (said stBadParam) b) ∧
        (inRange → leAt bs 24 4 ≠ 0 → bound → Answers (.flowNotifyBind m) s m k (said stBadState) b) ∧
        (inRange → leAt bs 24 4 ≠ 0 → ¬bound →
          Answers (.flowNotifyBind m) s m k (said stOk) (({ b with fw := { b.fw with binds := b.fw.binds ++ [x] } } : State).testBind x))) ∧
      (tb (leAt bs 18 2) 0 = true →
        (¬inRange → Answers (.flowNotifyUnbind m) s m k (said stBadParam) b) ∧
        (inRange → ¬bound → Answers (.flowNotifyUnbind m) s m k (said stBadState) b) ∧
        (inRange → bound → Answers (.flowNotifyUnbind m) s m k (said stOk) { b with fw := { b.fw with binds := b.fw.binds.filter fun x => x.vector != id } })))

/-- MEM.ALLOC of a kind, an alignment and a length in range answers OK with a free aligned range of the pool, none of whose rows is
withdrawn, and the next handle, clearing the range first where CLEAR asks for it; BAD_PARAM out of range, NO_RESOURCE where the
range is not free. MEM.GRANT of a page-aligned cellar range sets up the lowest free grant and, with RING, opens the host ring:
control block zeroed, indices zero, enabled; BAD_PARAM out of range, BAD_STATE for a ring in use, NO_RESOURCE where all eight
grants are taken. With REVOKE the ring is disabled and what it held is discarded; the answer waits until the ring is idle; a
grant that does not exist is BAD_PARAM, one being revoked BAD_STATE. -/
def Obligations.MemoryMessages : Prop :=
  ∀ (m k addr : Nat) (bs : List Byte) (s : State),
    let b := begin s
    (Asked s m k 0x0701 bs →
      let kind := leAt bs 16 1
      let lg := leAt bs 17 1
      let len := leAt bs 24 8
      let gives := fun (a : Ans) (v : State) => Answers (.memAlloc m addr) s m k a v
      let bad := 2 < kind ∨ lg < 6 ∨ 30 < lg ∨ len = 0
      let found := addr % 2 ^ lg = 0 ∧ b.rangeFree kind addr len (fun _ => true) = true ∧ b.rowsWithdrawn kind addr len = false
      (bad → gives (said stBadParam) b) ∧
      (¬bad → ¬found → gives (said stNoResource) b) ∧
      (¬bad → found →
        let u := if tb (leAt bs 18 2) 0 then b.clearRange addr len else b
        let h := u.fw.nextAlloc
        let a : Alloc := { handle := h, addr := addr, len := len }
        gives (saidOk (leBytes 8 addr ++ leBytes 4 h)) { u with fw := { u.fw with allocs := u.fw.allocs ++ [a], nextAlloc := h % (2 ^ 32 - 1) + 1 } })) ∧
    (Asked s m k 0x0703 bs → tb (leAt bs 18 1) 0 = false →
      let h := leAt bs 19 1
      let base := leAt bs 24 8
      let ring := tb (leAt bs 18 1) 1
      let used := ring = true ∧ (b.rdB (Reg.cmHringCfg h) 31 = true ∨ ∃ e ∈ b.fw.grants, e.2.bind (·.ring) = some h)
      let gives := fun (a : Ans) (v : State) => Answers (.memGrant m) s m k a v
      let opened := fun (g : Nat) (r : Option Nat) =>
        (((b.setGrant g (some { ring := r, revoking := false })).wr (Reg.memGrantBase g) base).wr (Reg.memGrantLimit g) (base + leAt bs 32 4 - 4096)).wr (Reg.memGrantCtrl g) (2 ^ 31)
      (b.grantInRange bs = false → gives (said stBadParam) b) ∧
      (b.grantInRange bs = true → used → gives (said stBadState) b) ∧
      (b.grantInRange bs = true → ¬used → (∀ g, g < 8 → b.grant? g ≠ none) → gives (said stNoResource) b) ∧
      (∀ g, b.grantInRange bs = true → ¬used → g < 8 → b.grant? g = none → (∀ j, j < g → b.grant? j ≠ none) →
        (ring = false → gives (saidOk (leBytes 2 g)) (opened g none)) ∧
        (ring = true →
          let u := ((opened g (some h)).busWrite (.ctl 0) base (List.replicate 64 0)).2
          let v := ((u.wr (Reg.cmHringSqbase h) base).wrPair (Reg.cmHringCqbaseLo h) (Reg.cmHringCqbaseHi h) 32 (leAt bs 40 8)).wrPair (Reg.cmHringShadowLo h) (Reg.cmHringShadowHi h) 32 (leAt bs 48 8)
          gives (saidOk (leBytes 2 g)) (v.hringCfgWrite h (2 ^ 31 + leAt bs 36 1 * 2 ^ 16 + leAt bs 37 1))))) ∧
    (Asked s m k 0x0703 bs → tb (leAt bs 18 1) 0 = true →
      let g := leAt bs 16 2
      let gives := fun (a : Ans) (v : State) => Answers (.memGrantRevoke m) s m k a v
      (b.grant? g = none → gives (said stBadParam) b) ∧
      (∀ x, b.grant? g = some x →
        let u := b.setGrant g (some { x with revoking := true })
        (x.revoking = true → gives (said stBadState) b) ∧
        (x.revoking = false → x.ring = none → gives (.wait (.revoke g)) u) ∧
        (∀ h, x.revoking = false → x.ring = some h → gives (.wait (.revoke g)) (u.ringRevoke h))))

/-- MEM.FREE carries HANDLE and FLAGS, where bit 0 DISCARD clears the range under R298 before the answer; it is answered BAD_STATE
if a grant or a host ring lies in the range, BAD_PARAM for an unknown handle, otherwise OK, and the allocation is gone. -/
def Obligations.MemFreeAnswers : Prop :=
  ∀ (m k : Nat) (bs : List Byte) (s : State),
    let b := begin s
    let h := leAt bs 16 4
    Asked s m k 0x0702 bs →
    ((∀ x ∈ b.fw.allocs, x.handle ≠ h ∨ h = 0) → Answers (.memFree m) s m k (said stBadParam) b) ∧
    (∀ x, b.fw.allocs.find? (fun x => x.handle == h) = some x → h ≠ 0 →
      (b.rangeInUse x.addr x.len = true → Answers (.memFree m) s m k (said stBadState) b) ∧
      (b.rangeInUse x.addr x.len = false →
        let u := if tb (leAt bs 20 2) 0 then b.clearRange x.addr x.len else b
        Answers (.memFree m) s m k (said stOk) { u with fw := { u.fw with allocs := u.fw.allocs.filter fun y => y.handle != h } }))

/-- On a lane that the message may name, OP = 0 sets the TX taps from PRE, MAIN and POST in bytes 20 to 22, OP = 1 freezes the
receiver (whose adaptation holds its values), OP = 2 releases the freeze, each answered OK; taps that break R332 are answered
BAD_PARAM, as is each OP on another lane. (Which lanes it may name is the model's, log entry 42.) -/
def Obligations.LaneEqAnswers : Prop :=
  ∀ (m k : Nat) (bs : List Byte) (s : State),
    let b := begin s
    let g := leAt bs 16 1
    let l := leAt bs 17 1
    let pre := leAt bs 20 1
    let main := leAt bs 21 1
    let post := leAt bs 22 1
    let good := pre ≤ 15 ∧ post ≤ 31 ∧ 24 ≤ main ∧ main ≤ 63 ∧ pre + main + post ≤ 63 ∧ 16 + pre + post ≤ main
    let frozen := if b.adapts g l then b.holdEq g l else b
    Asked s m k 0x0803 bs →
    (b.laneNamed g l = true →
      (leAt bs 18 1 = 0 → good → Answers (.laneEqTaps m) s m k (said stOk)
        (b.wr (Reg.laneTxeq g l) (b.rdF (Reg.laneTxeq g l) 31 31 * 2 ^ 31 + post * 2 ^ 16 + main * 2 ^ 8 + pre))) ∧
      (leAt bs 18 1 = 0 → ¬good → Answers (.laneEqTaps m) s m k (said stBadParam) b) ∧
      (leAt bs 18 1 = 1 → Answers (.laneEqFreeze m) s m k (said stOk) (frozen.wrF (Reg.laneRxeq g l) 31 31 1)) ∧
      (leAt bs 18 1 = 2 → Answers (.laneEqRelease m) s m k (said stOk) (b.wrF (Reg.laneRxeq g l) 31 31 0))) ∧
    (b.laneNamed g l = false →
      (leAt bs 18 1 = 0 → Answers (.laneEqTaps m) s m k (said stBadParam) b) ∧
      (leAt bs 18 1 = 1 → Answers (.laneEqFreeze m) s m k (said stBadParam) b) ∧
      (leAt bs 18 1 = 2 → Answers (.laneEqRelease m) s m k (said stBadParam) b))

/-- A link in range that meets no other link, and whose reference and rate the group's two PLLs and the port can serve is made, in
place of the one at its first lane if that is not in use: its lanes enter its mode and begin bring-up. A port or stream in range
and not in use is set. With REMOVE an object not in use is undone; an unknown one is BAD_PARAM. A field out of range is
BAD_PARAM, an object in use by a started carrier, a running NFE plan or a Tether request BAD_STATE, a link that does not fit
NO_RESOURCE. -/
def Obligations.LaneConfigMessages : Prop :=
  ∀ (m k : Nat) (bs : List Byte) (s : State),
    let b := begin s
    let key := fun (x : LinkCfg) => x.group == leAt bs 18 1 && x.first == leAt bs 19 1
    let new := linkOf bs
    let others := b.front.links.filter fun x => !key x
    let shares := leAt bs 21 1 = 5 ∧ leAt bs 22 1 ≠ 0xFF ∧ ∃ x ∈ others, x.mode = 5 ∧ x.port = leAt bs 22 1
    let remove := tb (leAt bs 17 1) 0
    let port := leAt bs 18 1
    let st := leAt bs 18 2
    let setPort := fun (x : Option PortCfg) => ({ b with front := { b.front with ports := mput (fun _ => none) b.front.ports port x } } : State)
    let setStream := fun (x : Option StreamCfg) => ({ b with front := { b.front with
      streams := mput (fun _ => none) b.front.streams st x, tdNext := mput (fun _ => 0) b.front.tdNext st 0, td := mput (fun _ => none) b.front.td st none } } : State)
    Asked s m k 0x0801 bs →
    (leAt bs 16 1 = 0 →
      let gives := fun (a : Ans) (v : State) => Answers (.laneConfigLink m) s m k a v
      (remove = false →
        let bad := linkInRange new = false ∨ (∃ x ∈ others, linkMeets new x = true) ∨ shares
        (bad → gives (said stBadParam) b) ∧
        (¬bad → b.front.links.find? key = none → linksFit others new = true → gives (said stOk) (b.makeLink new)) ∧
        (¬bad → b.front.links.find? key = none → linksFit others new = false → gives (said stNoResource) b) ∧
        (∀ x, ¬bad → b.front.links.find? key = some x →
          (b.linkUsed x = true → gives (said stBadState) b) ∧
          (b.linkUsed x = false → linksFit others new = true → gives (said stOk) ((b.dropLink x).makeLink new)) ∧
          (b.linkUsed x = false → linksFit others new = false → gives (said stNoResource) b))) ∧
      (remove = true → b.front.links.find? key = none → gives (said stBadParam) b) ∧
      (∀ x, remove = true → b.front.links.find? key = some x →
        (x.lanes ≠ leAt bs 20 1 → gives (said stBadParam) b) ∧
        (x.lanes = leAt bs 20 1 → b.linkUsed x = true → gives (said stBadState) b) ∧
        (x.lanes = leAt bs 20 1 → b.linkUsed x = false → gives (said stOk) (b.dropLink x)))) ∧
    (leAt bs 16 1 = 1 →
      let gives := fun (a : Ans) (v : State) => Answers (.laneConfigPort m) s m k a v
      let known := mget (fun _ => none) b.front.ports port ≠ none
      let good := port < 64 ∧ leAt bs 19 1 ≤ 3 ∧ leAt bs 22 1 ≤ 16
      (remove = false → ¬good → gives (said stBadParam) b) ∧
      (remove = false → good → known → b.portUsed port = true → gives (said stBadState) b) ∧
      (remove = false → good → ¬(known ∧ b.portUsed port = true) →
        let p : PortCfg := { transport := leAt bs 19 1, vlan := leAt bs 20 2, staticW := leAt bs 22 1, localMac := leAt bs 24 6, peerMac := leAt bs 32 6, udp := leAt bs 40 2, localIp := leAt bs 48 16, peerIp := leAt bs 64 16 }
        gives (said stOk) (setPort (some p))) ∧
      (remove = true → 64 ≤ port ∨ ¬known → gives (said stBadParam) b) ∧
      (remove = true → port < 64 → known → b.portUsed port = true → gives (said stBadState) b) ∧
      (remove = true → port < 64 → known → b.portUsed port = false → gives (said stOk) (setPort none))) ∧
    (leAt bs 16 1 = 2 →
      let gives := fun (a : Ans) (v : State) => Answers (.laneConfigStream m) s m k a v
      let x : StreamCfg := { port := leAt bs 20 1, dir := leAt bs 21 1, ident := leAt bs 22 2, use := leAt bs 24 1, carrier := leAt bs 26 2, ant := leAt bs 28 2, mac := leAt bs 30 1, offset := sx 32 (leAt bs 32 4) }
      let used := ∃ y, b.stream? st = some y ∧ b.streamUsed st y = true
      (remove = false → streamInRange st x = false → gives (said stBadParam) b) ∧
      (remove = false → streamInRange st x = true → used → gives (said stBadState) b) ∧
      (remove = false → streamInRange st x = true → ¬used → gives (said stOk) (setStream (some x))) ∧
      (remove = true → 4096 ≤ st ∨ b.stream? st = none → gives (said stBadParam) b) ∧
      (remove = true → st < 4096 → used → gives (said stBadState) b) ∧
      (remove = true → st < 4096 → b.stream? st ≠ none → ¬used → gives (said stOk) (setStream none)))

/-- TIME.SET with its fields in range answers OK: KIND 0 loads the time, KIND 1 adds the step, KIND 2 sets the servo's registers and
source, KIND 3 sets and commits an output, KIND 4 sets a capture input. A field out of range is BAD_PARAM and changes nothing. -/
def Obligations.TimeMessages : Prop :=
  ∀ (m k : Nat) (bs : List Byte) (s : State),
    let b := begin s
    let fl := leAt bs 21 1
    let ix := leAt bs 17 1
    Asked s m k 0x0901 bs →
    (leAt bs 16 1 = 0 →
      (leAt bs 32 4 < 1000000000 → Answers (.timeSetAbsolute m) s m k (said stOk) (((b.wr Reg.mrdSetNs (leAt bs 32 4)).wrPair Reg.mrdSetSLo Reg.mrdSetSHi 16 (leAt bs 24 6)).setTime 1)) ∧
      (1000000000 ≤ leAt bs 32 4 → Answers (.timeSetAbsolute m) s m k (said stBadParam) b)) ∧
    (leAt bs 16 1 = 1 → Answers (.timeSetStep m) s m k (said stOk) ((b.wrPair Reg.mrdStepLo Reg.mrdStepHi 32 (leAt bs 24 8)).setTime 2)) ∧
    (leAt bs 16 1 = 2 →
      let src := leAt bs 20 1
      (servoInRange bs = true →
        let u := (b.wr Reg.mrdKp (leAt bs 24 4)).wr Reg.mrdKi (leAt bs 28 4)
        let v := (u.wr Reg.mrdLock (leAt bs 34 1 * 2 ^ 16 + leAt bs 32 2)).wr Reg.mrdUnlockNs (leAt bs 36 4)
        let w := (v.wr Reg.mrdStepNs (leAt bs 40 4)).wr Reg.mrdHold (leAt bs 46 2 * 2 ^ 16 + leAt bs 44 2)
        let x : State := { w with mrd := { w.mrd with hostSrc := src == 2 } }
        Answers (.timeSetServo m) s m k (said stOk) (x.servoWrite (bn (tb fl 0) * 2 ^ 31 + bn (tb fl 1) * 2 ^ 30 + (if src = 2 then 1 else src)))) ∧
      (servoInRange bs = false → Answers (.timeSetServo m) s m k (said stBadParam) b)) ∧
    (leAt bs 16 1 = 3 →
      (outputInRange bs = true →
        let u := (b.wr (Reg.mrdOutStartNs ix) (leAt bs 32 4)).wrPair (Reg.mrdOutStartSLo ix) (Reg.mrdOutStartSHi ix) 16 (leAt bs 24 6)
        let v := ((u.wr (Reg.mrdOutPeriodNs ix) (leAt bs 36 4)).wr (Reg.mrdOutPeriodFr ix) (leAt bs 40 2)).wr (Reg.mrdOutWidthNs ix) (leAt bs 44 4)
        Answers (.timeSetOutput m) s m k (said stOk) (v.pulseWrite ix (bn (tb fl 1) * 8 + bn (tb fl 0) * 4 + leAt bs 20 1))) ∧
      (outputInRange bs = false → Answers (.timeSetOutput m) s m k (said stBadParam) b)) ∧
    (leAt bs 16 1 = 4 →
      (captureInRange bs = true →
        let event := if leAt bs 24 1 = 0xFF then 0 else 2 ^ 29 + leAt bs 24 1 * 2 ^ 24
        Answers (.timeSetCapture m) s m k (said stOk) ((b.wr (Reg.mrdCapOfs ix) (leAt bs 28 4)).capWrite ix (leAt bs 20 1 * 2 ^ 30 + event + leAt bs 22 2 * 2 ^ 8))) ∧
      (captureInRange bs = false → Answers (.timeSetCapture m) s m k (said stBadParam) b))

/-- TIME.OFFSET carries a signed offset at byte 16 (8 bytes) and FLAGS at byte 24, in which bit 0 is SRC_CHG. Where the servo's
source is the host, the firmware writes the offset as one sample, after telling the servo of a new master if SRC_CHG is set, and
answers OK; otherwise it answers BAD_STATE. -/
def Obligations.TimeOffsetAnswers : Prop :=
  ∀ (m k : Nat) (bs : List Byte) (s : State),
    let b := begin s
    Asked s m k 0x0902 bs →
    (b.rdF Reg.mrdServo 3 0 = 1 → b.mrd.hostSrc = true →
      let u := if tb (leAt bs 24 1) 0 then b.servoWrite (b.rd Reg.mrdServo ||| 2 ^ 30) else b
      Answers (.timeOffset m) s m k (said stOk) ((u.wr Reg.mrdOffsetLo (leAt bs 16 4)).offsetWrite (.ctl 0) (leAt bs 20 4))) ∧
    (¬(b.rdF Reg.mrdServo 3 0 = 1 ∧ b.mrd.hostSrc = true) → Answers (.timeOffset m) s m k (said stBadState) b)

/-- FSK.PLAN of a 1,600-byte block in range, whose channels fit and whose streams are configured, puts the plan into effect and
answers OK; a block out of range is BAD_PARAM with the field's offset, streams that are not configured (or an engine that is not
in service) NO_RESOURCE; with STOP the plan ends. An engine above 3, or a block that the host does not give, is BAD_PARAM.
FSK.TX of a burst that the engine could run places its job in device memory, submits its task and answers ACCEPTED with the
handle, or NO_RESOURCE where the submission is rejected; field errors are BAD_PARAM, and with no place for the job, or a
submission that is held, the row does nothing. When the task has committed its record goes to the result address. FSK.TXABORT of
a known burst cancels it and answers once the engine has stopped, ALREADY_DONE if it had committed; of another task's handle it
is BAD_PARAM. -/
def Obligations.FskMessages : Prop :=
  ∀ (m k : Nat) (bs : List Byte) (s : State),
    let b := begin s
    let n := leAt bs 16 1
    (Asked s m k 0x0A01 bs → tb (leAt bs 17 1) 0 = false →
      let gives := fun (a : Ans) (v : State) => Answers (.fskPlan m) s m k a v
      let found := b.hostImage (leAt bs 24 8) 1600
      (4 ≤ n ∨ leAt bs 32 4 ≠ 1600 ∨ found = none → gives (said stBadParam) b) ∧
      ∀ p, n < 4 → leAt bs 32 4 = 1600 → found = some p →
        let streams := b.tdBound (leAt p 8 2) 0 = true ∧ (leAt p 10 2 = 0xFFFF ∨ b.tdBound (leAt p 10 2) 1 = true)
        (∀ off, planRange p = some off → gives (.ready { status := stBadParam, flags := 0, payload := leBytes 2 off }) b) ∧
        (planRange p = none → planFits p = false → gives (.ready { status := stBadParam, flags := 0, payload := leBytes 2 (b.free 1600).1 }) (b.free 1600).2) ∧
        (planRange p = none → planFits p = true → b.engIn (76 + n) = true → streams → gives (said stOk) (b.planApply n p)) ∧
        (planRange p = none → planFits p = true → ¬(b.engIn (76 + n) = true ∧ streams) → gives (said stNoResource) b)) ∧
    (Asked s m k 0x0A01 bs → tb (leAt bs 17 1) 0 = true →
      (n < 4 → Answers (.fskPlanStop m) s m k (said stOk) (b.planStop n)) ∧ (4 ≤ n → Answers (.fskPlanStop m) s m k (said stBadParam) b)) ∧
    (∀ flow job sl, Asked s m k 0x0A02 bs → flow < 65536 → sl < 131072 →
      let gives := fun (a : Ans) (v : State) => Answers (.fskTx m flow job sl) s m k a v
      let d := burstJob bs job
      let found := b.hostImage (leAt bs 32 8) (leAt bs 40 2)
      let good := n < 4 ∧ leAt bs 48 8 % 16 = 0 ∧ b.inWindow (leAt bs 48 8) 16 = true ∧ b.burstFault n (2 ^ 96) d d = none
      (¬good ∨ found = none → gives (said stBadParam) b) ∧
      ∀ data, good → found = some data →
        (b.burstPlace job = false → gives .none b) ∧
        (b.burstPlace job = true →
          let u := ((b.busWrite (.ctl 0) job (d ++ List.replicate 64 0)).2.busWrite (.ctl 0) (job + 192) data).2
          ∀ r t, u.submitNow (burstTask n flow job) sl = (r, t) →
            (r = none → gives .none b) ∧
            (∀ h, r = some h → h < 2 ^ 31 →
              let rec_ : FskTx := { handle := h, result := leAt bs 48 8, status := job + 128, record := none }
              gives (.ready { status := stAccepted, flags := 0, payload := leBytes 4 h }) { t with fw := { t.fw with fskTx := t.fw.fskTx ++ [rec_] } }) ∧
            (∀ h, r = some h → 2 ^ 31 ≤ h → gives (said stNoResource) t))) ∧
    (∀ h x r ok, s.pwr.up = true → b.fw.fskTx.find? (fun x => x.handle == h && x.record.isSome) = some x → x.record = some r →
      let u : State := { b with fw := { b.fw with fskTx := b.fw.fskTx.filter fun y => y.handle != h } }
      exec (.fskTxResultWrite h ok) s = .next (after s (if ok then u.toHost x.result r else u))) ∧
    (Asked s m k 0x0A03 bs →
      let h := leAt bs 16 4
      let gives := fun (a : Ans) (v : State) => Answers (.fskTxabort m) s m k a v
      (∀ x t, b.fw.fskTx.find? (fun x => x.handle == h) = some x → b.cancelHandle h = (true, t) → gives (.wait (.burst h x.status)) t) ∧
      (∀ x t, b.fw.fskTx.find? (fun x => x.handle == h) = some x → b.cancelHandle h = (false, t) → gives (said stAlreadyDone) t) ∧
      (b.fw.fskTx.find? (fun x => x.handle == h) = none → b.slotOf h = none → gives (said stAlreadyDone) b) ∧
      (b.fw.fskTx.find? (fun x => x.handle == h) = none → b.slotOf h ≠ none → gives (said stBadParam) b))

/-- Without a job in progress, a TRELLIS.LOAD whose image the host window holds is answered BAD_IMAGE for the first check that
fails, NO_RESOURCE for a region with a lost column, BAD_STATE under R409, and otherwise begins a load of the named regions (held
first), answered once it has taken effect; an image that the host does not give is BAD_PARAM. TRELLIS.RELEASE begins a release
of HELD regions, a hold of regions neither EMPTY nor LOADING, or an unload; it is BAD_STATE where a region forbids it (also a
HELD one that may not be released, R410), and OK at once where it names no region. Every one is BUSY while a job is in progress. -/
def Obligations.TrellisMessages : Prop :=
  ∀ (m k : Nat) (bs : List Byte) (s : State),
    let b := begin s
    let mask := leAt bs 16 1
    let job := fun (hold unload : Bool) => ({ mask := mask, hold := hold, gap := max 8 (leAt bs 18 2), count := 1, image := [], loading := false, autorel := none, unload := unload } : TrlJob)
    (Asked s m k 0x0B01 bs →
      let gives := fun (a : Ans) (v : State) => Answers (.trellisLoad m) s m k a v
      let found := b.hostImage (leAt bs 24 8) (leAt bs 32 4)
      (b.trl.job ≠ none → gives (said stBusy) b) ∧
      (b.trl.job = none → found = none → gives (said stBadParam) b) ∧
      ∀ img, b.trl.job = none → found = some img →
        let p := krvPayload img
        let h := fabricHdr p
        let bad := fun (detail pos : Nat) => Ans.ready { status := stBadImage, flags := 0, payload := leBytes 1 detail ++ [0, 0, 0] ++ leBytes 4 pos }
        let load : TrlJob := { mask := h.mask, hold := true, gap := max 8 (leAt bs 18 2), count := 1, image := p, loading := false, autorel := if tb (leAt bs 16 1) 0 then some (leAt bs 18 2) else none, unload := false }
        let r : Ans × State :=
          if b.checkImage 3 img ≠ 0 then (bad 1 (b.checkImage 3 img), b)
          else if (b.fabricCheck p).1 ≠ 0 then (bad (b.fabricCheck p).1 (b.fabricCheck p).2, b)
          else if b.regionLost h.mask then (said stNoResource, b)
          else if b.loadBlocked h then (said stBadState, b)
          else (.wait (.trellis h.mask), b.startJob load)
        gives r.1 r.2) ∧
    (Asked s m k 0x0B02 bs → ∀ i bad hold unload,
      leAt bs 17 1 = 0 ∧ i = .trellisRelease m ∧ bad = (fun g => b.regionSt g ≠ 2 ∨ b.noRelease g = true) ∧ hold = false ∧ unload = false ∨
      leAt bs 17 1 = 1 ∧ i = .trellisHold m ∧ bad = (fun g => b.regionSt g < 2) ∧ hold = true ∧ unload = false ∨
      leAt bs 17 1 = 2 ∧ i = .trellisUnload m ∧ bad = (fun _ => False) ∧ hold = true ∧ unload = true →
      let gives := fun (a : Ans) (v : State) => Answers i s m k a v
      (b.trl.job ≠ none → gives (said stBusy) b) ∧
      (b.trl.job = none → (∃ g ∈ regions mask, bad g) → gives (said stBadState) b) ∧
      (b.trl.job = none → mask = 0 → gives (said stOk) b) ∧
      (b.trl.job = none → mask ≠ 0 → (∀ g ∈ regions mask, ¬bad g) → gives (.wait (.trellis mask)) (b.startJob (job hold unload))))

/-- SPARE.RETIRE of a unit in service that a spare can serve begins its retirement with REASON 2 and answers ACCEPTED, at once as a
unit fault with NOW; without a spare it takes the unit out of service (isolated first) with DEGRADE and is NO_RESOURCE without;
a DRAM row's retirement is marked in its channel, and KIND 12 retires the row of a populated DRAM address that is not yet
listed; of a unit pending or out, or a row listed, it is BAD_STATE; a field out of range is BAD_PARAM. CENSUS.CONFIG in range
while Census stands and DRAM is READY takes a ring of DRAM, sets the registers and answers OK with its address; it is BAD_STATE
while Census runs, BAD_PARAM out of range, NO_RESOURCE where the ring cannot be allocated. CENSUS.START after it sets EN and
answers OK with the first tick's time; before it, BAD_STATE. CENSUS.STOP clears EN and answers once the last record is in the
ring. -/
def Obligations.SpareCensusMessages : Prop :=
  ∀ (m k : Nat) (bs : List Byte) (s : State),
    let b := begin s
    let kind := leAt bs 16 1
    let fl := leAt bs 17 1
    let unit := leAt bs 18 2
    let addr12 := leAt bs 24 8
    (Asked s m k 0x0C03 bs →
      let gives := fun (st : Nat) (v : State) => Answers (.spareRetire m) s m k (said st) v
      (kind = 12 →
        let good := locate addr12 = .dram ∧ addr12 < dramBase + b.dramCap
        (¬good → gives stBadParam b) ∧
        (good → b.rowListed addr12 = true → gives stBadState b) ∧
        (good → b.rowListed addr12 = false → gives stAccepted (b.retireRow addr12 2))) ∧
      (kind ≠ 12 →
        let good := kind ≤ 13 ∧ fl ≤ 3 ∧ kindHas kind unit = true
        let busy := b.unitPending kind unit = true ∨ b.unitOut kind unit = true
        (¬good → gives stBadParam b) ∧
        (good → busy → gives stBadState b) ∧
        (good → ¬busy →
          (b.spareFor kind unit = none → tb fl 1 = false → gives stNoResource b) ∧
          (kind = 13 → ¬(b.spareFor kind unit = none ∧ tb fl 1 = false) → gives stAccepted (b.markRow unit 2)) ∧
          (kind ≠ 13 → b.spareFor kind unit = none → tb fl 1 = true →
            let u := match kindUnit kind unit with
              | some x => if b.faultable x then (b.isolate x 0x20).2 else b
              | none => b
            let v := if kind = 3 then u.dropLane (unit / 17) (unit % 17) 0 4 else u
            gives stAccepted (v.takeOut kind unit)) ∧
          (∀ sp, kind ≠ 13 → b.spareFor kind unit = some sp →
            let u := b.retireWith kind unit 2 sp (tb fl 1)
            gives stAccepted (if tb fl 0 then u.drainTimeout kind unit else u))))) ∧
    (∀ addr, Asked s m k 0x0D01 bs →
      let gives := fun (a : Ans) (v : State) => Answers (.censusConfig m addr) s m k a v
      let lg := leAt bs 23 1
      let fits := b.dramReady = true ∧ addr % 2 ^ lg = 0 ∧ b.rangeFree 2 addr (2 ^ lg) (fun x => x.handle != 0) = true
      (b.rdB Reg.cenCtrl 31 = true → gives (said stBadState) b) ∧
      (b.rdB Reg.cenCtrl 31 = false → b.cenInRange bs = false → gives (said stBadParam) b) ∧
      (b.rdB Reg.cenCtrl 31 = false → b.cenInRange bs = true → ¬fits → gives (said stNoResource) b) ∧
      (b.rdB Reg.cenCtrl 31 = false → b.cenInRange bs = true → fits →
        let u := ((b.cenCtrlWrite (leAt bs 22 1 * 2 ^ 16 + leAt bs 20 2)).wr Reg.cenPeriod (leAt bs 16 4)).wr Reg.cenRingLog2 lg
        let v := (u.wrPair Reg.cenRingLo Reg.cenRingHi 16 addr).wr Reg.cenCi (u.rd Reg.cenPi)
        let fw : FwState := { v.fw with
          allocs := (v.fw.allocs.filter fun x => x.handle != 0) ++ [{ handle := 0, addr := addr, len := 2 ^ lg }], cenCfg := true
          cenHost := leAt bs 24 8, cenHostLog2 := leAt bs 32 1, cenHostShadow := leAt bs 40 8, cenHostPi := 0, cenCopied := v.rd Reg.cenPi }
        gives (saidOk (leBytes 8 addr)) { v with fw := fw })) ∧
    (Asked s m k 0x0D02 bs →
      (b.fw.cenCfg = false → Answers (.censusStart m) s m k (said stBadState) b) ∧
      (b.fw.cenCfg = true →
        let u := b.cenCtrlWrite (2 ^ 31 + b.rd Reg.cenCtrl % 2 ^ 17)
        Answers (.censusStart m) s m k (saidOk (leBytes 4 (u.cen.next / 1000000000) ++ leBytes 4 (u.cen.next % 1000000000))) u)) ∧
    (Asked s m k 0x0D03 bs → Answers (.censusStop m) s m k (.wait .census) (b.cenCtrlWrite (b.rd Reg.cenCtrl % 2 ^ 17)))

/-- DEBUG.AUTH OP 0 answers OK with a fresh 32-byte challenge and holds it. OP 1 sets SEC.DBG to SCOPE and answers OK where the
verifier accepts the request, and is DENIED otherwise; either way the challenge is gone. OP 2 clears SEC.DBG. With SCOPE bit 1,
DEBUG.READ and DEBUG.WRITE of 1 to 32 bytes perform the access as a control core, and are FAULT where it fails, BAD_PARAM with
another length; without it both are DENIED. -/
def Obligations.DebugMessages : Prop :=
  ∀ (m k : Nat) (bs : List Byte) (s : State),
    let b := begin s
    (Asked s m k 0x0E01 bs →
      (leAt bs 16 1 = 0 →
        let c := (b.freeBytes 32).1
        let u := (b.freeBytes 32).2
        Answers (.debugAuthChallenge m) s m k (saidOk c) { u with sec := { u.sec with challenge := some c } }) ∧
      (leAt bs 16 1 = 1 →
        let u : State := { b with sec := { b.sec with challenge := none } }
        (b.authOk bs = true → Answers (.debugAuthVerify m) s m k (said stOk) (u.wr Reg.secDbg (leAt bs 24 1 % 16))) ∧
        (b.authOk bs = false → Answers (.debugAuthVerify m) s m k (said stDenied) u)) ∧
      (leAt bs 16 1 = 2 → Answers (.debugAuthClear m) s m k (said stOk) (b.wr Reg.secDbg 0))) ∧
    (Asked s m k 0x0E02 bs →
      (b.rdB Reg.secDbg 1 = false → Answers (.debugRead m) s m k (said stDenied) b) ∧
      (b.rdB Reg.secDbg 1 = true → leAt bs 24 1 = 0 ∨ 32 < leAt bs 24 1 → Answers (.debugRead m) s m k (said stBadParam) b) ∧
      (b.rdB Reg.secDbg 1 = true → 1 ≤ leAt bs 24 1 → leAt bs 24 1 ≤ 32 → ∀ r t, b.devRead (.ctl 0) (leAt bs 16 8) (leAt bs 24 1) = (r, t) →
        (∀ d, r = .ok d → Answers (.debugRead m) s m k (saidOk d) t) ∧ ((∀ d, r ≠ .ok d) → Answers (.debugRead m) s m k (said stFault) t))) ∧
    (Asked s m k 0x0E03 bs →
      (b.rdB Reg.secDbg 1 = false → Answers (.debugWrite m) s m k (said stDenied) b) ∧
      (b.rdB Reg.secDbg 1 = true → leAt bs 24 1 = 0 ∨ 32 < leAt bs 24 1 → Answers (.debugWrite m) s m k (said stBadParam) b) ∧
      (b.rdB Reg.secDbg 1 = true → 1 ≤ leAt bs 24 1 → leAt bs 24 1 ≤ 32 → 
        ∀ r t, b.devWrite (.ctl 0) (leAt bs 16 8) ((List.range (leAt bs 24 1)).map fun i => bs.getD (32 + i) 0) = (r, t) →
        (r = .ok → Answers (.debugWrite m) s m k (said stOk) t) ∧ (r ≠ .ok → Answers (.debugWrite m) s m k (said stFault) t)))

/-- A write of SUB_D7 to a port that is not BUSY puts the eight words up for submission and sets BUSY; to a BUSY port it does
nothing. A post ORs the flags into the group named by EV_GRP and then tests the tasks and bindings that wait on it; a clear
resets them and nothing else. A write of FLOW_CFG sets the flow and lets its oldest task advance; a close is ignored while a
task is uncommitted. A submission that any port holds is rejected for the first reason of R70 (its reject handle delivered, or a
host ring's record written); admitted to a free slot while FREE exceeds its priority's watermark and the scheduler store serves,
its handle delivered; or goes on being held, each onset of back-pressure counted once. -/
def Obligations.SubmissionPorts : Prop :=
  ∀ (i : Nat) (v : Word) (s : State), s.pwr.up = true →
    let b := begin s
    let g := b.rdF (Reg.cmCpEvGrp i) 13 0
    let f := b.rdF (Reg.cmCpFlowSel i) 15 0
    (i < 4 →
      (b.rdB (Reg.cmCpSubstat i) 0 = false →
        let u := b.wr (Reg.cmCpSubD i 7) v.toNat
        exec (.cpSubmit i v) s = .next (after s ((u.wr (Reg.cmCpSubstat i) 1).hold (.ctl i) ((List.range 8).map fun w => BitVec.ofNat 32 (u.rd (Reg.cmCpSubD i w))) false))) ∧
      (b.rdB (Reg.cmCpSubstat i) 0 = true → exec (.cpSubmit i v) s = .next (after s b)) ∧
      (let u : State := { b with cm := { b.cm with groups := mmod (fun _ => 0) b.cm.groups g fun w => w ||| v } }
       let w := u.wakeTasks g
       exec (.evPost i v) s = .next (after s (((w.2.heads w.1).foldl (fun s f => s.advanceFlow f) w.2).testBinds g))) ∧
      exec (.evClr i v) s = .next (after s { b with cm := { b.cm with groups := mmod (fun _ => 0) b.cm.groups g fun w => w &&& ~~~v } }) ∧
      (tb v.toNat 31 = true ∨ (b.flow f).opened = false ∨ b.flowTasks f = [] →
        let new : Flow := { opened := tb v.toNat 31, home := fld v.toNat 27 24, pin := tb v.toNat 23, dlpol := tb v.toNat 20, recp := fld v.toNat 19 18, cq := fld v.toNat 6 0 }
        exec (.flowCfgWrite i v) s = .next (after s (((if new.home ≠ (b.flow f).home then b.setHome f new.home else b).setFlow f new).advanceFlow f))) ∧
      (tb v.toNat 31 = false → (b.flow f).opened = true → b.flowTasks f ≠ [] → exec (.flowCfgWrite i v) s = .next (after s b))) ∧
    (∀ (p : Port) (sl : Nat), p.wf = true → sl < 131072 →
      let gives := fun (t : State) => exec (.taskAdmit p sl) s = .next (after s t)
      (b.held? p = none → gives b) ∧
      ∀ x, b.held? p = some x → ∀ ring : Option Nat, (∀ h, ring = some h ↔ p = .ring h) →
        let refused := b.rejects ring.isSome x.idem x.words
        let u := ((b.count (Reg.cmCnt 5) 1).tally 3 0 7 1).withdraw p
        (∀ r, refused = some r → ring = none → gives (u.deliver p (2 ^ 31 + r))) ∧
        (∀ r h, refused = some r → ring = some h → gives (u.pushRecord (8 + h) none (recordBytes (2 ^ 31 + r) (dTag x.words) 1 0 (dFlow x.words) r u.now32))) ∧
        (let room := b.watermark (dPrio x.words) < b.freeSlots ∧ b.rsv.storeOut = false
         (refused = none → room → b.pickSlot sl = none → gives b) ∧
         (∀ sl', refused = none → room → b.pickSlot sl = some sl' →
           let u := b.hist 3 0 3 (b.clockNs - x.since)
           gives (((u.withdraw p).admitTask sl' x.words ring).deliver p (u.handleOf sl'))) ∧
         (refused = none → ¬room → x.bp = true → gives b) ∧
         (refused = none → ¬room → x.bp = false →
           let u := b.count (Reg.cmCnt 6) 1
           gives { u with cm := { u.cm with subs := u.cm.subs.map fun (e : Port × Sub) => if e.1 = p then (e.1, { e.2 with bp := true }) else e } })))

/-- A host write of SQ_PI of an enabled ring, while the link is up and the function in D0, is a write of cellar memory under the
host's grants, and each ring whose index it covers sees it: new entries are known, and one beyond the ring disables it with
OVERRUN; otherwise the write does nothing. A ring that is disabled, empty or still holding a submission takes nothing.
HOST_RING_ENTRY takes the next entry that is no POST: SQ_CI advances, the shadow is written, and the descriptor is submitted
with its PRIO replaced by BAND. A POST entry posts EVMASK to WAIT_GRP, or is rejected with DISABLED or RESERVED. A read that
fails, or finds a word uncorrectable, disables the ring with DMA_ERR. The oldest completion record of a queue with room is
written and its slot freed, for a host ring with its shadow and vector; in a full queue it waits; one that cannot be written is
discarded and counted. -/
def Obligations.HostRings : Prop :=
  ∀ (h sl : Nat) (s : State), h < 64 → sl < 131072 → s.pwr.up = true →
    let b := begin s
    let x := b.ringAt h
    let sq := b.rdF (Reg.cmHringSqbase h) 25 6 * 64
    let at_ := sq + 64 + x.sqCi % b.hringSize h * 32
    let stands := b.rdB (Reg.cmHringCfg h) 31 = false ∨ x.sqPi = x.sqCi ∨ b.held? (.ring h) ≠ none
    (∀ v, v < 65536 →
      (b.rdB (Reg.cmHringCfg h) 31 = false ∨ b.pcie.link = false ∨ b.d3hot = true → exec (.hostRingSqPiWrite h v) s = .next (after s b)) ∧
      (b.rdB (Reg.cmHringCfg h) 31 = true → b.pcie.link = true → b.d3hot = false →
        (b.granted sq 2 = false → b.hostDebug = false → exec (.hostRingSqPiWrite h v) s = .next (after s (b.aerr .host 4 true false sq))) ∧
        (b.granted sq 2 = true ∨ b.hostDebug = true → ∀ r u, b.busWrite .host sq (leBytes 2 v) = (r, u) →
          (r = .ok → exec (.hostRingSqPiWrite h v) s = .next (after s (u.ringsSee sq 2))) ∧
          (r ≠ .ok → exec (.hostRingSqPiWrite h v) s = .next (after s u))))) ∧
    (∀ (w : State) v u, w.ringIndex h 0 = (some v, u) →
      let occ := (v + 65536 - (u.ringAt h).sqCi) % 65536
      (occ ≤ u.hringSize h → w.sqPiSeen h = u.setRing h { u.ringAt h with sqPi := v }) ∧ (u.hringSize h < occ → w.sqPiSeen h = u.ringStop h 1)) ∧
    (stands → (∀ ok, exec (.hostRingEntry h ok sl) s = .next (after s b)) ∧ exec (.hostRingPost h) s = .next (after s b)) ∧
    (¬stands → ∀ r u, b.busRead .cm at_ 32 = (r, u) →
      ((∀ d, r ≠ .ok d) → (∀ ok, exec (.hostRingEntry h ok sl) s = .next (after s (u.ringStop h 0))) ∧ exec (.hostRingPost h) s = .next (after s (u.ringStop h 0))) ∧
      ∀ bs, r = .ok bs →
        let ws := wordsOf bs
        let taken := (u.setRing h { u.ringAt h with sqCi := ((u.ringAt h).sqCi + 1) % 65536 }).ringShadow h
        let refused := fun (n : Nat) => ((taken.count (Reg.cmCnt 5) 1).tally 3 0 7 1).ringReject h ws n
        exec (.hostRingEntry h false sl) s = .next (after s ((u.ueAt false at_).ringStop h 0)) ∧
        (dClass ws ≠ 63 → exec (.hostRingPost h) s = .next (after s u)) ∧
        (dClass ws ≠ 63 → exec (.hostRingEntry h true sl) s =
          .next (after s ((taken.hold (.ring h) (setNth ws 3 (BitVec.ofNat 32 (setFld (dw ws 3) 19 16 (u.rdF (Reg.cmHringCfg h) 3 0)))) false).taskAdmit (.ring h) sl))) ∧
        (dClass ws = 63 → exec (.hostRingEntry h true sl) s = .next (after s u)) ∧
        (dClass ws = 63 → taken.rdB Reg.cmCtrl 0 = true → postReserved ws = false → exec (.hostRingPost h) s = .next (after s (taken.post (dWaitGrp ws) (dMask ws)))) ∧
        (dClass ws = 63 → taken.rdB Reg.cmCtrl 0 = true → postReserved ws = true → exec (.hostRingPost h) s = .next (after s (refused 4))) ∧
        (dClass ws = 63 → taken.rdB Reg.cmCtrl 0 = false → exec (.hostRingPost h) s = .next (after s (refused 6)))) ∧
    (∀ q ok, q < 72 →
      let gives := fun (t : State) => exec (.completionRecordWrite q ok) s = .next (after s t)
      let found := b.cm.records.find? (fun r => decide (r.q = q))
      let n := q - 8
      let open_ := b.rdB (Reg.cmHringCfg n) 31 = true ∨ ∃ e ∈ b.fw.grants, ∃ g, e.2 = some g ∧ g.revoking = true ∧ g.ring = some n
      (found = none → gives b) ∧
      (∀ r, found = some r → q < 8 →
        let pi := b.rd (Reg.cmFcqPi q)
        let size := 2 ^ max 4 (min 12 (b.rdF (Reg.cmFcqLog2 q) 3 0))
        let full := size ≤ (pi + 65536 - b.rd (Reg.cmFcqCi q)) % 65536
        (full → gives (b.heldRecords q)) ∧
        (¬full → ∀ a u, b.busWrite .cm (b.rdF (Reg.cmFcqBase q) 25 4 * 16 + pi % size * 16) r.bytes = (a, u) →
          (a = .ok → gives ((u.wr (Reg.cmFcqPi q) ((pi + 1) % 65536)).dropRecord r)) ∧ (a ≠ .ok → gives ((u.count (Reg.cmCnt 8) 1).dropRecord r)))) ∧
      (∀ r, found = some r → 8 ≤ q → ¬open_ → gives ((b.count (Reg.cmCnt 8) 1).dropRecord r)) ∧
      (∀ r a u, found = some r → 8 ≤ q → open_ → b.ringIndex n 4 = (a, u) →
        let y := b.ringAt n
        (a = none → gives ((u.count (Reg.cmCnt 8) 1).dropRecord r)) ∧
        (a ≠ none → u.cqFull q = true → gives (u.heldRecords q)) ∧
        (a ≠ none → u.cqFull q = false → ¬(ok = true ∧ u.pcie.link = true) → gives (((u.ringStop n 0).count (Reg.cmCnt 8) 1).dropRecord r)) ∧
        (a ≠ none → u.cqFull q = false → ok = true → u.pcie.link = true →
          let v := u.post1 (u.rdPair (Reg.cmHringCqbaseLo n) (Reg.cmHringCqbaseHi n) + y.cqPi % ringSize (b.rdF (Reg.cmHringCfg n) 19 16) * 16) r.bytes
          gives ((((v.setRing n { y with cqPi := (y.cqPi + 1) % 65536 }).ringShadow n).vector (66 + n)).dropRecord r))))

/-- A free unit takes the best task of its FIFOs (a channel the best prestage chain, where that stands before it); unless its
deadline has passed the task starts on the lowest free unit that serves it, otherwise it starts late or commits EXPIRED, as its
flow says. The sweep commits EXPIRED every unstarted task whose deadline has passed under EXPIRE. A task in ENDING whose unit is
quiet commits DONE, or REDISPATCHED; one that a cancel ended gets its flag and record. A cancel of a task that has not started
commits CANCELLED, NOT_STARTED (and a prestage chain that has not begun is dropped); of one that runs it commits CANCELLED,
PARTIAL and tells the unit to stop; of one in ENDING CANCELLED, WORK_ENDED; of one that has committed it is ALREADY_DONE. A flow
cancel does the same to each uncommitted task in order and gives the count. A unit fault ends or re-dispatches the unit's task
and isolates the unit, which then awaits a spare or leaves service; one in a cluster's shared part does so to each of its cores. -/
def Obligations.TaskLife : Prop :=
  ∀ (u : TUnit) (sl i : Nat) (v : Word) (s : State), u.wf = true → sl < 131072 → i < 4 → s.pwr.up = true →
    let b := begin s
    (let gives := fun (t : State) => exec (.taskSelect u) s = .next (after s t)
     let chain := match u with | .channel _ => b.bestChain | _ => none
     let first := fun (p : Prestage) => ∀ n t, b.best u = some (n, t) → before (p.prio, p.stamp) (dPrio t.words, t.stamp) = true
     (b.unitFree u = false → gives b) ∧
     (chain = none → b.best u = none → gives b) ∧
     (∀ p ch, b.unitFree u = true → u = .channel ch → chain = some p → first p → gives (b.startPrestage ch p)) ∧
     (∀ n t, b.unitFree u = true → (∀ p, chain = some p → ¬first p) → b.best u = some (n, t) →
       (dDlEn t.words = false ∨ b.passed (dDeadline t.words) = false ∨ 0 < t.rd → gives (b.startTask (b.lowestFree u t) n t)) ∧
       (t.rd = 0 → dDlEn t.words = true → b.passed (dDeadline t.words) = true →
         ((b.flow (dFlow t.words)).dlpol = false → gives (b.commit n 3 0 0)) ∧
         ((b.flow (dFlow t.words)).dlpol = true → gives (((b.count (Reg.cmCnt 1) 1).tally 3 0 6 1).startTask (b.lowestFree u t) n { t with late := true }))))) ∧
    exec .deadlineSweep s = .next (after s (b.taskList.foldl (fun w e => match w.task? e.1 with
      | some t => if (t.st = .waiting ∨ t.st = .held ∨ t.st = .queued ∧ t.rd = 0) ∧ dDlEn t.words = true ∧ w.passed (dDeadline t.words) = true ∧ (w.flow (dFlow t.words)).dlpol = false ∧ t.order = e.2.order
          then w.commit e.1 3 0 0 else w
      | none => w) b)) ∧
    (let gives := fun (t : State) => exec (.taskCommit sl) s = .next (after s t)
     (b.task? sl = none → gives b) ∧
     (∀ t, b.task? sl = some t →
       (b.unitQuiet sl t = false → gives b) ∧
       (b.unitQuiet sl t = true → t.st = .ending → gives (b.commit sl (if 0 < t.rd then 4 else 0) 2 t.ust)) ∧
       (b.unitQuiet sl t = true → t.st = .stopping → gives (b.finish sl)) ∧
       (t.st ≠ .ending → t.st ≠ .stopping → gives b))) ∧
    (∀ (w : State) n,
      (w.task? n = none → w.cancelTask n = (false, w)) ∧
      (∀ t, w.task? n = some t →
        (t.st = .waiting ∨ t.st = .queued → w.cancelTask n = (true, w.commit n 2 0 0)) ∧
        (t.st = .held → w.cancelTask n =
          (true, { w with rsv := { w.rsv with prestage := w.rsv.prestage.filter fun p => decide (p.slot ≠ n) || p.channel.isSome } }.commit n 2 0 0)) ∧
        (∀ x, t.st = .running → t.unit = some x → w.cancelTask n = (true, (w.commitRunning n 2 1 0).stopUnit n x)) ∧
        (t.st = .running → t.unit = none → w.cancelTask n = (true, w.commit n 2 1 0)) ∧
        (t.st = .ending → w.cancelTask n = (true, w.commitRunning n 2 2 t.ust)) ∧
        (t.st = .stopping ∨ t.st = .recorded → w.cancelTask n = (false, w)))) ∧
    (∀ n c w, b.slotOf v.toNat = some n → b.cancelTask n = (c, w) → exec (.cmCancel i v) s = .next (after s (w.wr (Reg.cmCpCancelRes i) (if c = true then 1 else 2 ^ 28)))) ∧
    (b.slotOf v.toNat = none → exec (.cmCancel i v) s = .next (after s (b.wr (Reg.cmCpCancelRes i) (2 ^ 28)))) ∧
    (let r := (b.flowTasks (v.toNat % 65536)).foldl (fun (r : Nat × State) e => (r.1 + bn (r.2.cancelTask e.1).1, (r.2.cancelTask e.1).2)) (0, b)
     exec (.cmCancelFlow i v) s = .next (after s (r.2.wr (Reg.cmCpCancelRes i) (if r.1 = 0 then 2 ^ 28 else r.1)))) ∧
    (∀ shared, (∀ c k, u = .core c k → shared = false) →
      (b.faultable u = false → exec (.unitFault u shared) s = .next (after s b)) ∧
      (∀ kind unit, unitKind u = some (kind, unit) → b.faultable u = true → exec (.unitFault u shared) s = .next (after s ((b.isolate u 0x20).2.faultRetire kind unit (b.isolate u 0x20).1 false))) ∧
      (unitKind u = none → b.faultable u = true → exec (.unitFault u shared) s = .next (after s (b.isolate u 0x20).2))) ∧
    (∀ c k, u = .core c k → exec (.unitFault u true) s = .next (after s
      (((List.range 8).foldl (fun w k => (if w.faultable (.core c k) then (w.isolate (.core c k) 0x20).2 else w).takeOut 0 (c * 8 + k)) (b.wakeCluster c)).clearShared c)))

/-- At BUNDLE_ISSUE a running core that nothing freezes or interrupts takes the upsets, counts its frozen cycles, lets the results
due land, and fetches at the PC, unless a failed store is to be told first. A line that is not in PM freezes it, a fetch that
fails is its fault, and words that make no bundle are ILLEGAL. A bundle that decodes is looked at in order: a failed store
(where it drains), a rule that a slot breaks, an access that is not allowed, the drain before POST and SUBMIT, a load that
overlaps a buffered store, a full write buffer, data from outside the core's own X and Y, for which it freezes; else it is
performed. LOAD_DATA_RETURN performs a frozen bundle once its memory serves it. PM_MISS_FILL places the missed line and its
successor, or raises FETCH at the missed address. A core that waits, is frozen or must accept a CANCEL issues nothing. -/
def Obligations.PozelIssue : Prop :=
  ∀ (c k frozen : Nat) (ups : List (Nat × List Nat)) (s : State), c < 12 → k < 8 → s.pwr.up = true →
    let b := begin s
    let x := b.core c k
    (let r := ((b.strikeCore c k ups).countFrozen c k frozen).beginBundle c k
     let stands := x.st ≠ .running ∨ x.freeze ≠ .none ∨ (x.cancel = true ∧ x.heldOff = false ∧ x.wbPend = none)
     let gives := fun (t : State) => exec (.bundleIssue c k frozen ups) s = .next (after s t)
     (stands → gives b) ∧ (¬stands → x.wbPend = none ∨ x.heldOff = true → gives (r.issue c k)) ∧
     (∀ a e, ¬stands → x.wbPend = some (a, e) → x.heldOff = false → gives (r.deferredFault c k a e))) ∧
    (∀ (r u : State) (words : List (Nat × Nat)),
      let pc := (r.core c k).pc
      let fin := (pc + 4 * words.length) % 2 ^ 48
      let ends := (words.getLast?.any fun w => wordEnds w.2) = true
      (∀ a, r.fetchBundle c k 5 pc [] = ((words, some (a, .miss)), u) → r.issue c k = (u.tally 0 (u.physCore c k) 9 1).freezeCore c k (.pmMiss a) 7) ∧
      (∀ a kind, r.fetchBundle c k 5 pc [] = ((words, some (a, .fault kind)), u) → r.issue c k = u.coreFault c k (fetchFault kind a)) ∧
      (∀ a, r.fetchBundle c k 5 pc [] = ((words, some (a, .ue)), u) → r.issue c k = u.coreFault c k (fetchFault 8 a)) ∧
      (r.fetchBundle c k 5 pc [] = ((words, none), u) →
        (¬ends → r.issue c k = u.illegal c k none) ∧
        (ends → decodeBundle words = none → r.issue c k = u.illegalBundle c k words fin) ∧
        (∀ ops, ends → decodeBundle words = some ops → r.issue c k = u.tryBundle c k words ops fin))) ∧
    (∀ (w : State) (words : List (Nat × Nat)) (ops : List (Nat × OpWord)) (fin : Nat),
      let y := w.core c k
      let act := y.active ops
      let accs := y.accesses act
      let drains := act.any fun o => match o.2.op with | .getw | .submit .. | .post .. | .done .. => true | _ => false
      let submits := act.find? fun o => match o.2.op with | .submit .. | .post .. => true | _ => false
      let outside := fun (a : Access) => a.store = false ∧ isOwn c k a.addr = false
      let illegal := y.illegalSlot (y.endsIn y.pc (w.bundleEnd c k 5 (w.bundleEnd c k 5 fin))) act
      (∀ a e, y.wbPend = some (a, e) → drains = true → w.tryBundle c k words ops fin = w.deferredFault c k a e) ∧
      (y.wbPend = none ∨ drains = false → w.tryBundle c k words ops fin = w.checkBundle c k words ops fin) ∧
      (∀ i, illegal = some i → w.checkBundle c k words ops fin = w.illegal c k (some i)) ∧
      (illegal = none →
        (∀ a f q, accs.findSome? (fun a => (w.agFault y c k a).map fun f => (a, f)) = some (a, f, q) →
          (∀ kind, q = some kind → w.checkBundle c k words ops fin = (w.aerr (.dsp c k) kind a.store false f.addr).coreFault c k f) ∧
          (q = none → w.checkBundle c k words ops fin = w.coreFault c k f)) ∧
        ((∀ a ∈ accs, w.agFault y c k a = none) →
          let early := submits ≠ none ∧ y.wb ≠ []
          let overlaps := ∃ a ∈ accs, outside a ∧ y.overlaps a.addr a.size = true
          (early → w.checkBundle c k words ops fin = w.freezeCore c k (.preDrain (submits.any fun o => match o.2.op with | .submit .. => true | _ => false)) 12) ∧
          (¬early → overlaps → w.checkBundle c k words ops fin = w.freezeCore c k .wbOverlap 10) ∧
          (¬early → ¬overlaps → 8 < (y.wbAfter c k accs).length → w.checkBundle c k words ops fin = w.freezeCore c k .wbFull 12) ∧
          (¬early → ¬overlaps → (y.wbAfter c k accs).length ≤ 8 →
            ((∃ a ∈ accs, outside a) → w.checkBundle c k words ops fin = w.freezeCore c k (.load words) 10) ∧
            ((∀ a ∈ accs, ¬outside a) → w.checkBundle c k words ops fin = w.perform c k ops y.pc fin))))) ∧
    (let gives := fun (t : State) => exec (.loadDataReturn c k ups) s = .next (after s t)
     let u := b.struck ups
     ((∀ words, x.freeze ≠ .load words) → gives b) ∧
     (∀ words, x.freeze = .load words →
       (decodeBundle words = none → gives (u.setCore c k { u.core c k with freeze := .none })) ∧
       (∀ ops, decodeBundle words = some ops →
         let waits := ((x.accesses (x.active ops)).any fun a => u.accessWaits c k a) = true
         (waits → gives u) ∧
         (¬waits → gives (((u.setCore c k { u.core c k with freeze := .none }).perform c k ops x.pc ((x.pc + 4 * words.length) % 2 ^ 48)).clearLost c k))))) ∧
    (∀ ok,
      let gives := fun (t : State) => exec (.pmMissFill c k ok) s = .next (after s t)
      ((∀ a, x.freeze ≠ .pmMiss a) → gives b) ∧
      (∀ a, x.freeze = .pmMiss a →
        let line := a / 128 * 128
        (b.dramWaits false line 128 = true → gives b) ∧
        (b.dramWaits false line 128 = false → ∀ r u, (b.setCore c k { x with freeze := .none }).busRead (.dsp c k) line 128 = (r, u) →
          (∀ bs, r = .ok bs → ok = true → gives ((u.pmPlace c k (a / 128) bs).pmPrefetch c k (a / 128 + 1))) ∧
          (∀ bs, r = .ok bs → ok = false → gives (u.coreFault c k (fetchFault 7 a))) ∧
          (∀ p, r = .ue p → gives (u.coreFault c k (fetchFault 7 a))) ∧
          (∀ kind, r = .err kind → gives (u.coreFault c k (fetchFault 2 a))))))

/-- The oldest store of a core's write buffer leaves the buffer and its bytes are written at their targets in rising order, which
eases what waited for the buffer; one whose target returns an error, or meets an uncorrectable word, does not end silently: a
running or halted core's DEFERRED fault is pending from then on (its first failed store is kept), and a task whose DONE drains
faults at once. Where a target's memory does not serve it the store waits, and with nothing buffered an acknowledgement changes
nothing. -/
def Obligations.PozelStores : Prop :=
  ∀ (c k : Nat) (ok : Bool) (s : State), c < 12 → k < 8 → s.pwr.up = true →
    let b := begin s
    let x := b.core c k
    let gives := fun (t : State) => exec (.writeBufferAck c k ok) s = .next { t with pending := s.pending }
    (x.wb = [] → gives b) ∧
    (∀ e rest, x.wb = e :: rest →
      let waits := ∃ r ∈ byteRuns e.bytes, b.dramWaits true r.1 r.2.length = true
      let r := b.setCore c k { x with wb := rest }
      (waits → gives b) ∧
      (¬waits → ok = true → ∀ u, r.wbWrites c k (byteRuns e.bytes) none = (none, u) → gives (u.wbEased c k)) ∧
      (∀ q, ¬waits → ok = true → ∀ u, r.wbWrites c k (byteRuns e.bytes) none = (some q, u) → gives ((u.wbFailed c k (e.failedStore q)).wbEased c k)) ∧
      (¬waits → ok = false → gives ((r.wbFailed c k (e.failedStore (e.block * 128, 128))).wbEased c k))) ∧
    (∀ (w u : State) a bs more bad, (w.wbWrites c k [] bad = (bad, w)) ∧
      (w.devWrite (.dsp c k) a bs = (.ok, u) → w.wbWrites c k ((a, bs) :: more) bad = u.wbWrites c k more bad) ∧
      (∀ kind, w.devWrite (.dsp c k) a bs = (.err kind, u) → w.wbWrites c k ((a, bs) :: more) bad = u.wbWrites c k more (bad <|> some (a, bs.length))) ∧
      (∀ p, w.devWrite (.dsp c k) a bs = (.ue p, u) → w.wbWrites c k ((a, bs) :: more) bad = u.wbWrites c k more (bad <|> some (p, unitBytes p)))) ∧
    (∀ (w : State) st,
      let y := w.core c k
      let live := (y.st = .running ∧ ∀ us, y.freeze ≠ .drainDone us) ∨ y.st = .halted
      (live → y.wbPend = none → w.wbFailed c k st = w.setCore c k { y with wbPend := some st }) ∧
      (live → y.wbPend ≠ none → w.wbFailed c k st = w) ∧
      (∀ us, y.st = .running → y.freeze = .drainDone us →
        let u := (w.free 6).2.fltRecord c k { kind := 6, slot := (w.free 6).1, addr := st.1, esz := st.2, write := true, deferred := true }
        let v := if ((u.task? y.slot).any fun t => t.st == TaskSt.ending) = true then u.commitRunning y.slot 1 2 6 else u
        w.wbFailed c k st = v.setCore c k { v.core c k with st := .stopping, freeze := .none }) ∧
      (y.st ≠ .running → y.st ≠ .halted → w.wbFailed c k st = w))

/-- A CANCEL is accepted at a boundary that nothing holds off, and in SUBMIT or the drain before it: the core stops, its issued
operations complete; elsewhere it waits. A debugger that SEC.DBG authorises halts a running core at a boundary and resumes it. A
write of PM_INV, a register write like any other, starts an invalidation of the named cores' unlocked lines unless one is BUSY,
which PM_INV_DONE ends, and only those cores' lines are gone; the end of the clearing of X and Y lets the core accept tasks, and
ends a reset in progress with the last core. -/
def Obligations.PozelControl : Prop :=
  ∀ (i : Init) (c k : Nat) (v : Word) (s : State), i.wf = true → c < 12 → k < 8 → s.pwr.up = true →
    let b := begin s
    let x := b.core c k
    let reg := Reg.dspcPmInv c
    (let inSubmit := (∃ d ws, x.freeze = .drainSubmit d ws) ∨ x.freeze = .preDrain true
     let accepts := (x.st = .running ∨ x.st = .halted) ∧ x.cancel = true ∧ x.wbPend = none ∧ (inSubmit ∨ x.freeze = .none ∧ x.heldOff = false)
     (accepts → exec (.cancelAccept c k) s = .next (after s (b.coreStop c k .none))) ∧ (¬accepts → exec (.cancelAccept c k) s = .next (after s b))) ∧
    (let halts := b.rdB Reg.secDbg 3 = true ∧ x.st = .running ∧ x.freeze = .none ∧ x.heldOff = false ∧ x.wbPend = none
     (halts → exec (.haltAccept c k) s = .next (after s (b.setCore c k { x.landAll with st := .halted }))) ∧ (¬halts → exec (.haltAccept c k) s = .next (after s b))) ∧
    (x.st = .halted → exec (.haltResume c k) s = .next (after s (b.setCore c k { x with st := .running }))) ∧
    (x.st ≠ .halted → exec (.haltResume c k) s = .next (after s b)) ∧
    (∀ t, exec (.registerWrite i .dev (0x20000000 + reg) 4 v.toNat) s = .next t → exec (.pmInvWrite i c v) s = .next (after s t)) ∧
    (b.plainInit i = true → (i = .host → s.pcie.link = true ∧ s.d3hot = false) → b.writeRefused i reg = false →
      (b.rdB reg 31 = false → exec (.pmInvWrite i c v) s = .next (after s (b.wr reg (2 ^ 31 + v.toNat % 256)))) ∧
      (b.rdB reg 31 = true → exec (.pmInvWrite i c v) s = .next (after s b))) ∧
    (b.rdB reg 31 = true → exec (.pmInvDone c) s = .next (after s
      (((List.range 8).foldl (fun (w : State) j => if tb (b.rdF reg 7 0) j = true then w.setCore c j { w.core c j with pm := [] } else w) b).wr reg 0))) ∧
    (b.rdB reg 31 = true → mwf (fun _ => CoreState.reset) s.cores = true → RegInv s →
      Leads (.pmInvDone c) s fun t => t.rd reg = 0 ∧ (∀ j, j < 8 → tb (b.rdF reg 7 0) j = true → (t.core c j).pm = []) ∧
        (∀ n, n / 8 ≠ c → t.core (n / 8) (n % 8) = s.core (n / 8) (n % 8)) ∧ t.mem = s.mem ∧ ∀ o, o ≠ reg → t.rd o = s.rd o) ∧
    (b.rdB reg 31 = false → exec (.pmInvDone c) s = .next (after s b)) ∧
    (x.st = .clearing →
      let r := b.setCore c k { x with st := .waiting }
      let more := ∃ n, n < 96 ∧ (r.core (n / 8) (n % 8)).st = .clearing ∧ r.coreIn (n / 8) (n % 8) = true
      (more → exec (.coreClearDone c k) s = .next (after s r)) ∧
      (¬more → exec (.coreClearDone c k) s = .next (after s (r.wrF Reg.pwrRst 30 30 0)))) ∧
    (x.st ≠ .clearing → exec (.coreClearDone c k) s = .next (after s b))

/-- On a running engine whose task's descriptor is fit, each operation's command runs exactly that operation: the outputs are
written, the job's result is kept for its status record and the work is counted; the command of another operation, or on an
engine without such a job, does nothing, and memory that does not answer yet holds any of it up. A job that cannot run ends at
once with the SUMMARY of its fault. At the end of a job its waiting output is written (an uncorrectable word of it is a unit
fault of the engine); without a follow-on task the job then ends: its status record is written (a failed write is STATUS_ERR),
the end counted and handed to Cellarmaster, and the engine idle; with one, the follow-on descriptor is read and submitted first.
An engine told to stop reaches its boundary after the units given and ends with SUMMARY 0x08, or as a failed access has ended
it. -/
def Obligations.EngineJobs : Prop :=
  ∀ (e : Nat) (s : State), e < 76 → s.pwr.up = true →
    let b := begin s
    let x := b.engAt e
    let ops : List (Instr × Nat) := [(.cov e, 0x101), (.chol e, 0x102), (.trsolve e, 0x103), (.mmse e, 0x104), (.apply e, 0x105), (.decode e, 0x201), (.encode e, 0x301), (.uciDecode e, 0x401), (.rmDecode e, 0x402),
      (.dciEncode e, 0x403), (.pbchEncode e, 0x404), (.turboDecode e, 0x501), (.turboEncode e, 0x502), (.tbccDecode e, 0x503), (.fft e, 0x601), (.ifft e, 0x602), (.dft e, 0x603), (.idft e, 0x604)]
    (∀ o ∈ ops,
      (x.st ≠ .running ∨ x.job ≠ none ∨ b.task? x.slot = none → exec o.1 s = .next (after s b)) ∧
      (∀ t r j u, x.st = .running → x.job = none → b.task? x.slot = some t → b.startJobAt e (dEntry t.words) (dArg t.words) = (r, j, u) →
        (r = none → exec o.1 s = .next (after s b)) ∧
        (∀ d, r = some d →
          let w := u.runJob e d j
          (opKey d ≠ o.2 → exec o.1 s = .next (after s b)) ∧
          (opKey d = o.2 → w.jobWaits e = false → exec o.1 s = .next (after s w)) ∧
          (opKey d = o.2 → w.jobWaits e = true → exec o.1 s = .next (after s b))))) ∧
    (∀ n,
      let gives := fun (t : State) => exec (.engineStop e n) s = .next (after s t)
      (x.st ≠ .stopping → gives b) ∧
      (∀ j, x.st = .stopping → x.job = some j → gives (b.engFinish e { stoppedJob j with nextHandle := if j.submitted = true then j.nextHandle else 0xFFFFFFFF } true)) ∧
      (x.st = .stopping → x.job = none → b.task? x.slot = none → gives (b.setEng e .reset)) ∧
      (∀ t r j u, x.st = .stopping → x.job = none → b.task? x.slot = some t → b.startJobAt e (dEntry t.words) (dArg t.words) = (r, j, u) →
        (r = none → j.summary = memWaits → gives b) ∧
        (r = none → j.summary ≠ memWaits → gives (u.engFinish e j true)) ∧
        (∀ d o w, r = some d → u.opRun e d (min n (2 ^ 20)) = (o, w) →
          (o.summary = memWaits → gives b) ∧
          (o.summary ≠ memWaits → gives ((w.tally 2 (w.engPhys e) 7 o.work).engFinish e (stoppedJob (jobRes j o)) true))))) ∧
    (∀ ok bad v, b.engBufferBad e = (bad, v) →
      let y := v.engAt e
      let gives := fun (t : State) => exec (.engineJobEnd e ok) s = .next (after s t)
      (bad = true → gives (v.unitFault (.engine e) 0x20 false)) ∧
      (bad = false → y.st ≠ .running → gives v) ∧
      (bad = false → y.st = .running → y.job = none → v.task? y.slot = none → gives v) ∧
      (∀ t r j u, bad = false → y.st = .running → y.job = none → v.task? y.slot = some t → v.startJobAt e (dEntry t.words) (dArg t.words) = (r, j, u) →
        (r ≠ none ∨ j.summary = memWaits → gives v) ∧ (r = none → j.summary ≠ memWaits → gives (u.engFinish e j true))) ∧
      (∀ j k u, bad = false → y.st = .running → y.job = some j → v.flushOut e j = (k, u) →
        (k.summary = memWaits → gives v) ∧
        (k.summary ≠ memWaits → k.submitted = true ∨ 0x10 ≤ k.summary ∨ k.next = none → gives (u.engFinish e (withHandle k) ok)) ∧
        (∀ a, k.summary < 0x10 → k.submitted = false → k.next = some a → k.held = true → gives u) ∧
        (∀ a f bs w, k.summary < 0x10 → k.submitted = false → k.next = some a → k.held = false → u.engRead e a 32 = (f, bs, w) →
          (f = none → gives ((w.hold (.engine e) (wordsOf bs) (match w.task? (w.engAt e).slot with | some t => dIdem t.words | none => false)).setJobOf e { k with held := true })) ∧
          (∀ p, f = some (memWaits, p) → gives (w.setJobOf e k)) ∧
          (∀ m p, f = some (m, p) → m ≠ memWaits → gives (w.engFinish e { k with summary := m, detail := 0, faultAddr := p } ok)))))

/-- A context's new job reads its descriptor; one that breaks a rule ends DESC_ERR with the field's offset (with IDEM = 1 the offset
is free); else PENDING is written, the data is read, and the burst takes its interval: START and the ramps and symbols behind
it. An access that fails ends the job, and memory that does not answer yet holds it up. One whose interval another burst of its
channel holds ends CONFLICT, one too near ends LATE. At START the burst goes up with its symbols (an uncorrectable word of its
buffered data is a unit fault instead), and a channel with BLANK stops searching; a burst that is up comes down at its end, and
its status is written when nothing more follows, or its follow-on submitted first; a burst cancelled before START never
radiates. Blanking ends 10 µs after the last burst. -/
def Obligations.NfeBursts : Prop :=
  ∀ (n ctx ch : Nat) (s : State), n < 4 → ctx < 64 → ch < 128 → s.pwr.up = true →
    let b := begin s
    let gives := fun (i : Instr) (t : State) => exec i s = .next (after s t)
    let none_ := b.burstAt n ctx = none
    (none_ → gives (.burst n ctx) b ∧ gives (.burstStart n ctx) b ∧ gives (.burstEnd n ctx) b) ∧
    (∀ x, b.burstAt n ctx = some x →
      (x.phase ≠ .fresh ∨ b.task? x.slot = none → gives (.burst n ctx) b) ∧
      (∀ t f d u, x.phase = .fresh → b.task? x.slot = some t → b.engRead (76 + n) (dEntry t.words) 128 = (f, d, u) →
        let y := engArg d (dArg t.words)
        let sa := leAt y 8 8
        let j : EngJob := { x.job with statusAddr := if leAt d 8 8 < 2 ^ 48 ∧ sa % 32 = 0 then sa + 1 else 0 }
        let bad := u.burstFault n x.disp d y
        (∀ m p, f = some (m, p) → gives (.burst n ctx) (if m = memWaits then u else u.burstFinish n ctx x (failJob x.job m 0 p))) ∧
        (∀ o, f = none → bad = some o → gives (.burst n ctx) (u.burstFinish n ctx x (failJob j 0x10 o 0))) ∧
        (f = none → bad = none → dIdem t.words = true → gives (.burst n ctx) ((u.free 256).2.burstFinish n ctx x (failJob j 0x10 (u.free 256).1 0))) ∧
        (∀ g v, f = none → bad = none → dIdem t.words = false → u.engWrite (76 + n) sa pendingRecord = (g, v) →
          (∀ m p, g = some (m, p) → gives (.burst n ctx) (if m = memWaits then v else v.burstFinish n ctx x (failJob j 0x13 0 sa))) ∧
          (∀ h data w, g = none → v.engRead (76 + n) (leAt y 56 8) (leAt d 38 2) = (h, data, w) →
            let k : EngJob := { j with next := if tb (leAt d 2 1) 1 then some (leAt y 16 8) else none }
            let p := profRec (w.plan n) (leAt d 33 1)
            let start := if leAt d 40 8 = 0 then x.disp + 4000 else w.fullNs (leAt d 40 4) (leAt d 44 4)
            let stop := start + 2 * rampNs d + symNs p (burstSyms p d)
            let clash := w.burstConflict n ctx (leAt d 32 1) start stop
            (∀ m q, h = some (m, q) → gives (.burst n ctx) (if m = memWaits then w else w.burstFinish n ctx x (failJob k m 0 q))) ∧
            (h = none → clash = true → gives (.burst n ctx) (w.burstFinish n ctx x (failJob k 0x14 0 0))) ∧
            (h = none → clash = false → start < x.disp + 4000 → gives (.burst n ctx) (w.burstFinish n ctx x (failJob k 0x15 0 0))) ∧
            (h = none → clash = false → x.disp + 4000 ≤ start →
              let r := (w.bufferClear (bufferErr (w.engPhys (76 + n)) (ctx * 4096)) 4096).free (2 ^ 32)
              gives (.burst n ctx) (r.2.setBurst n ctx (some { x with job := k, phase := .scheduled, desc := y, prof := p, start := start, stop := stop, turn0 := r.1, data := data })))))) ∧
      (∀ bad v, b.burstBufferBad n ctx = (bad, v) → (bad = true → gives (.burstStart n ctx) (v.unitFault (.burst n ctx) 0x20 false)) ∧ (bad = false → gives (.burstStart n ctx) (v.burstStart n ctx))) ∧
      (x.phase = .up → gives (.burstEnd n ctx) ((b.burstDown n ctx x).burstNext n ctx)) ∧
      (x.phase = .ended → gives (.burstEnd n ctx) (b.burstNext n ctx)) ∧
      (∀ c, x.phase = .scheduled → x.stopAt = some c → gives (.burstEnd n ctx) (if c < x.start then b.burstFinish n ctx x { x.job with ran := true, summary := 8 } else b)) ∧
      (x.phase = .fresh ∨ x.phase = .scheduled ∧ x.stopAt = none → gives (.burstEnd n ctx) b)) ∧
    (∀ (v : State) x, v.burstAt n ctx = some x →
      let c := leAt x.desc 32 1
      let early := ∃ t, x.stopAt = some t ∧ t < x.start
      let u := ((v.until (x.start * 2 ^ 32)).setBurst n ctx (some { x with phase := .up })).emit (.burst n c x.start (burstSymbols x.prof x.desc x.data))
      (x.phase ≠ .scheduled ∨ early → v.burstStart n ctx = v) ∧
      (x.phase = .scheduled → ¬early → chanBlank (chanRec (u.plan n) c) = false → v.burstStart n ctx = u) ∧
      (x.phase = .scheduled → ¬early → chanBlank (chanRec (u.plan n) c) = true →
        let w := u.dropPacket n c 5
        v.burstStart n ctx = w.setChan n c { w.chan n c with blanked := true, resume := 0 }) ∧
      (x.phase ≠ .ended ∨ x.job.held = true ∧ x.stopAt = none → v.burstNext n ctx = v) ∧
      (x.phase = .ended → x.stopAt ≠ none → v.burstNext n ctx = v.burstFinish n ctx x { x.job with summary := 8 }) ∧
      (x.phase = .ended → x.stopAt = none → x.job.held = false →
        (x.job.submitted = true ∨ x.job.next = none → v.burstNext n ctx = v.burstFinish n ctx x (withHandle x.job)) ∧
        (∀ a f bs w, x.job.submitted = false → x.job.next = some a → v.engRead (76 + n) a 32 = (f, bs, w) →
          (∀ m p, f = some (m, p) → v.burstNext n ctx = if m = memWaits then w else w.burstFinish n ctx x { x.job with summary := m, detail := 0, faultAddr := p }) ∧
          (f = none → v.burstNext n ctx =
            (w.hold (.burst n ctx) (wordsOf bs) (match w.task? x.slot with | some t => dIdem t.words | none => false)).setBurst n ctx (some { x with job := { x.job with held := true } }))))) ∧
    ((b.chan n ch).blanked = true → b.chanUp n ch = false → gives (.blankResume n ch) ((b.until ((b.chan n ch).resume * 2 ^ 32)).setChan n ch .reset)) ∧
    ((b.chan n ch).blanked = false ∨ b.chanUp n ch = true → gives (.blankResume n ch) b)

/-- Of the profiles of a channel that detect in one sample the one of higher correlation, then of lower number, is taken: on a
searching channel it makes it SYNC with the detection; on a busy one it awaits its decision, at which each second preamble
stronger by MARGIN takes the channel over, ending the packet CAPTURED, or is ignored. A sync timeout counts NOSYNC. The sync
word or SFD makes it RECEIVE; a header that ends the packet does so, another reserves its data; the end of the packet gives its
status by the FCS or CRC. The errors of the symbols not yet measured come with the decision or the end. Tracking moves the NCO
within its limit. A stream gap ends every reception. The oldest packet's report is written, or lost when the report ring is
full. -/
def Obligations.NfeReception : Prop :=
  ∀ (n ch : Nat) (s : State), n < 4 → ch < 128 → s.pwr.up = true →
    let b := begin s
    let x := b.chan n ch
    let gives := fun (i : Instr) (t : State) => exec i s = .next (after s t)
    (∀ (profs corrs : List Nat) (sigs : List (Nat × Int)),
      let hits := profs.zip (corrs.zip sigs)
      let best := bestHit (hits.filter fun h => (profSet (chanRec (b.plan n) ch)).contains h.1 && h.2.2.1 != 0)
      (b.rxOn n ch = false ∨ best = none → gives (.preambleDetect n ch profs corrs sigs) b) ∧
      (∀ h, b.rxOn n ch = true → best = some h →
        let lim := min ((profRs (profRec (b.plan n) h.1) * 2 ^ 19 : Nat) : Int) (ncoLimit (chanWs (b.plan n) ch))
        let d : Detect := { profile := h.1, rssi := rssiOf h.2.2.1 + sx 16 (leAt (b.plan n) 6 2), nco := held lim (h.2.2.2 * 1024) }
        (x.phase = .search → gives (.preambleDetect n ch profs corrs sigs) (b.toSync n ch d)) ∧
        (x.phase ≠ .search → gives (.preambleDetect n ch profs corrs sigs) (b.setChan n ch { x with second := x.second ++ [d] })))) ∧
    (∀ errs bits,
      let w := b.ncoTrack n ch errs
      let y := w.chan n ch
      (x.second = [] → gives (.captureDecision n ch errs bits) b) ∧
      (x.second ≠ [] → gives (.captureDecision n ch errs bits) (y.second.foldl (fun w d => w.contend n ch bits d) (w.setChan n ch { y with second := [] })))) ∧
    (∀ (w : State) bits d,
      let y := w.chan n ch
      let margin : Int := 2 * w.rdF (Reg.nfeCtrl n) 11 8
      (margin ≤ d.rssi - y.det.rssi → y.phase = .receive → w.contend n ch bits d = (w.endPacket n ch 2 (w.heldData n ch bits)).toSync n ch d) ∧
      (margin ≤ d.rssi - y.det.rssi → y.phase ≠ .receive → w.contend n ch bits d = (w.count (Reg.nfeNosync n) 1).toSync n ch d) ∧
      (d.rssi - y.det.rssi < margin → w.contend n ch bits d = w)) ∧
    (x.phase = .sync → gives (.syncTimeout n ch) ((b.count (Reg.nfeNosync n) 1).nextPacket n ch x.second)) ∧
    (x.phase ≠ .sync → gives (.syncTimeout n ch) b) ∧
    (∀ word bits time,
      let p := b.profOf n x.det
      (x.phase ≠ .sync ∨ syncMatch p word = none → gives (.sfdFound n ch word bits time) b) ∧
      (∀ fec, x.phase = .sync → syncMatch p word = some fec →
        let h := headerIn p fec bits
        let r := b.stamp n ch time
        let u := r.2.setChan n ch { x with phase := .receive, fec := fec, time := r.1, hdr := h, bits := bits }
        (h = 65536 → gives (.sfdFound n ch word bits time) u) ∧
        (h ≠ 65536 → (hdrOf p h).ends = none → gives (.sfdFound n ch word bits time) (u.reserve n ch (hdrOf p h).length)) ∧
        (∀ st, h ≠ 65536 → (hdrOf p h).ends = some st → gives (.sfdFound n ch word bits time) ((u.endPacket n ch st []).nextPacket n ch x.second)))) ∧
    (∀ errs : List Int,
      (x.phase ≠ .receive → gives (.ncoTrackUpdate n ch errs) b) ∧
      (x.phase = .receive → gives (.ncoTrackUpdate n ch errs) (b.setChan n ch (errs.foldl (errStep (b.profOf n x.det) (ncoLimit (chanWs (b.plan n) ch))) x)))) ∧
    (∀ (p : List Byte) (lim e : Int) (y : RxChan),
      let z := { y with errs := y.errs ++ [e], errSq := y.errSq + e.natAbs ^ 2, errN := y.errN + 1 }
      let sum := y.det.nco + z.errs.sum * ((2 ^ (7 - profTrk p) : Nat) : Int)
      (y.errs.length ≠ 7 → errStep p lim y e = z) ∧
      (y.errs.length = 7 → profTrk p = 15 → errStep p lim y e = { z with errs := [] }) ∧
      (y.errs.length = 7 → profTrk p ≠ 15 → errStep p lim y e = { z with errs := [], det := { y.det with nco := held lim sum }, trkLimit := y.trkLimit || decide (lim ≤ sum.natAbs) })) ∧
    (∀ errs bits,
      (x.phase ≠ .receive ∨ b.hdrHeld n x = none → gives (.packetEnd n ch errs bits) b) ∧
      (∀ h, x.phase = .receive → b.hdrHeld n x = some h →
        let data := b.heldData n ch bits
        (data.length < h.length → gives (.packetEnd n ch errs bits) b) ∧
        (h.length ≤ data.length → gives (.packetEnd n ch errs bits) (((b.ncoTrack n ch errs).endPacket n ch (if packetOk (b.profOf n x.det) h data then 0 else 1) data).nextPacket n ch x.second)))) ∧
    (∀ lost,
      (b.nfeOn n = false → gives (.streamGap n lost) b) ∧
      (b.nfeOn n = true →
        let u := b.count (Reg.nfeGap n) lost
        gives (.streamGap n lost) ((u.busyChans n).foldl (fun s ch => if (s.chan n ch).phase = .receive then s.dropPacket n ch 3 else s) u))) ∧
    ((b.nfeAt n).plan = [] ∨ (b.nfeAt n).done = [] → gives (.nfeReportWrite n) b) ∧
    (∀ p rest, (b.nfeAt n).plan ≠ [] → (b.nfeAt n).done = p :: rest →
      let f := b.nfeAt n
      let pi := b.rdF (Reg.nfeRxPi n) 15 0
      let size := 2 ^ leAt f.plan 12 1
      let dsize := 2 ^ leAt f.plan 13 1
      let held := (pi + 65536 - b.rdF (Reg.nfeRxCi n) 15 0) % 65536
      let lost := b.count (Reg.nfeRxLost n) 1
      let passed := fun (u : State) => u.wr (Reg.nfeRxdPi n) ((u.rd (Reg.nfeRxdPi n) + p.res) % 2 ^ 32)
      (size ≤ held → (p.off + p.res) % dsize = f.rxdRes % dsize → gives (.nfeReportWrite n) (lost.setNfe n { f with done := rest, rxdRes := (f.rxdRes + 2 ^ 32 - p.res) % 2 ^ 32 })) ∧
      (size ≤ held → (p.off + p.res) % dsize ≠ f.rxdRes % dsize → gives (.nfeReportWrite n) ((passed lost).setNfe n { f with done := rest })) ∧
      (held < size →
        let u := ((b.ringWrite n (leAt f.plan 24 8) dsize p.off p.data).engWrite (76 + n) (leAt f.plan 16 8 + pi % size * 32) (reportBytes p f.seq)).2
        let w := (passed (u.wrF (Reg.nfeRxPi n) 15 0 ((pi + 1) % 65536))).setNfe n { u.nfeAt n with done := rest, seq := (f.seq + 1) % 2 ^ 32 }
        let y := if p.status = 2 then w.count (Reg.nfeCaptures n) 1 else w
        gives (.nfeReportWrite n) (((y.tally 2 (y.engPhys (76 + n)) 7 1).post (leAt f.plan 14 2) (2 ^ leAt f.plan 32 1)).notice 0x0A04 0 (leBytes 4 n ++ reportBytes p f.seq))))

/-- A write of CMD acts on ABORT first and then on GO: GO starts the chain at HEAD on an idle, enabled channel that firmware owns,
and does nothing on another; ABORT of an idle channel is ALREADY_DONE, of a busy one makes its descriptor end STOPPED. A command
of a mode serves a descriptor of that mode only, of a channel not being aborted: the descriptor is read (an error ends it),
checked (the lowest failing offset ends it DESC_ERR), and moved where a read engine comes to the channel and its memory answers;
until then it waits. A descriptor that has moved commits (a privileged one after its read-back), submitting its task first where
it has one; one whose transfer failed ends with its first error. In every other state a command does nothing. -/
def Obligations.DecantChannels : Prop :=
  ∀ (ch n : Nat) (v : Word) (s : State), ch < 64 → s.pwr.up = true →
    let b := begin s
    let x := b.dctAt ch
    let cur := b.rdPair (Reg.dctChCurLo ch) (Reg.dctChCurHi ch)
    let writes := fun (t : State) => exec (.dctGo ch v) s = .next (after s t) ∧ exec (.dctAbort ch v) s = .next (after s t)
    let served := fun (t : State) => t.dctServed ch = true ∧ t.dctWaits ch (t.dctAt ch).desc = false
    let runs := fun (m : Nat) (mv : State → Desc → State) (gives : State → Prop) =>
      (x.abort = true ∨ x.phase ≠ .fetch ∧ x.phase ≠ .ready → gives b) ∧
      (x.abort = false → x.phase = .fetch →
        (b.dramWaits false cur 64 = true → gives b) ∧
        (b.dramWaits false cur 64 = false → ∀ q t, b.dctRead ch false cur 64 = (q, t) →
          (∀ e, q = .err e → gives ((t.dctClear ch).dctFailed ch 0x11 1 cur)) ∧
          (∀ e, q = .ue e → gives ((t.dctClear ch).dctFailed ch 0x11 3 cur)) ∧
          (∀ bs, q = .ok bs →
            let d := withArg bs x.arg
            (gMode d ≠ m → gives b) ∧
            (gMode d = m →
              let u := (t.dctClear ch).setDct ch { x with desc := d, eng := false, run := 0, issued := 0, passed := 0, staged := [], wrote := 0, summary := 0 }
              (∀ o, firstFault d (decide (ch < 4)) (u.dctOwner ch == 2) = some o → gives (u.dctStop ch 0x10 0 o cur)) ∧
              (firstFault d (decide (ch < 4)) (u.dctOwner ch == 2) = none →
                let w := u.setDct ch { u.dctAt ch with phase := .ready }
                (served w → gives (mv (w.dctTake ch) (w.dctAt ch).desc)) ∧ (¬ served w → gives w)))))) ∧
      (x.abort = false → x.phase = .ready →
        (gMode x.desc ≠ m → gives b) ∧
        (gMode x.desc = m → ∀ bad t, b.bufferUse (stagingErr ch 0) x.staged.length = (bad, t) →
          (bad = true → gives (t.unitFault (.channel ch) 0x20 false)) ∧
          (bad = false →
            let w := t.bufferClear (stagingErr ch 0) (2 ^ 18)
            (served w → gives (mv (w.dctTake ch) (w.dctAt ch).desc)) ∧ (¬ served w → gives w))))
    ((tb v.toNat 1 = false → tb v.toNat 0 = false → writes b) ∧ (tb v.toNat 1 = false → tb v.toNat 0 = true → writes (b.dctGo ch)) ∧
      (tb v.toNat 1 = true → tb v.toNat 0 = false → writes (b.dctAbort ch)) ∧ (tb v.toNat 1 = true → tb v.toNat 0 = true → writes ((b.dctAbort ch).dctGo ch))) ∧
    (∀ w : State,
      let y := w.dctAt ch
      (w.rdB Reg.dctCtrl 0 = true → w.rdB (Reg.dctChCfg ch) 31 = true → w.dctOwner ch = 0 → y.phase = .idle →
        w.dctGo ch = w.startChain ch none (w.rdPair (Reg.dctChHeadLo ch) (Reg.dctChHeadHi ch) / 64 * 64) 0) ∧
      (w.rdB Reg.dctCtrl 0 = false ∨ w.rdB (Reg.dctChCfg ch) 31 = false ∨ w.dctOwner ch ≠ 0 ∨ y.phase ≠ .idle → w.dctGo ch = w) ∧
      (w.dctOwner ch ≠ 0 ∨ y.phase = .isolated ∨ (y.phase ≠ .idle ∧ y.abort = true) → w.dctAbort ch = w) ∧
      (w.dctOwner ch = 0 → y.phase = .idle → w.dctAbort ch = w.wrF (Reg.dctChStat ch) 27 26 2) ∧
      (w.dctOwner ch = 0 → y.phase ≠ .idle → y.phase ≠ .isolated → y.abort = false →
        w.dctAbort ch = (((w.withdraw (.decant ch)).setDct ch { y with abort := true }).wrF (Reg.dctChStat ch) 31 28 3).wrF (Reg.dctChStat ch) 27 26 1)) ∧
    runs 0 (fun t d => t.moveRows ch d n) (fun t => exec (.linear ⟨ch, n⟩) s = .next { t with pending := s.pending }) ∧
    runs 1 (fun t d => t.moveRows ch d n) (fun t => exec (.twoD ⟨ch, n⟩) s = .next (after s t)) ∧
    runs 2 (fun t d => t.moveList ch d true n) (fun t => exec (.gather ⟨ch, n⟩) s = .next (after s t)) ∧
    runs 3 (fun t d => t.moveList ch d false n) (fun t => exec (.scatter ⟨ch, n⟩) s = .next (after s t)) ∧
    (∀ ok,
      let gives := fun (t : State) => exec (.dctDescriptorCommit ch ok) s = .next (after s t)
      (x.phase = .idle ∨ x.phase = .isolated → gives b) ∧
      (x.phase = .submitted → gives (b.commitLate ch)) ∧
      (x.phase = .fetch → x.abort = true → gives (((b.wr (Reg.dctChDone ch) 0).wr (Reg.dctChRemain ch) 0).dctStop ch 8 0 0 0)) ∧
      (x.phase = .ready ∨ x.phase = .moved ∨ x.phase = .failed ∨ x.phase = .held → x.abort = true → gives (b.dctStop ch 8 0 0 0)) ∧
      (x.phase = .fetch ∨ x.phase = .ready ∨ x.phase = .failed ∨ x.phase = .held → x.abort = false → gives b) ∧
      (x.phase = .moved → x.abort = false →
        (∀ a t, b.readBack ch ok = (some a, t) → gives (t.dctStop ch 0x12 6 0 a)) ∧
        (∀ t, b.readBack ch ok = (none, t) → (gSubmit x.desc = true → gives (t.dctSubmit ch)) ∧ (gSubmit x.desc = false → gives (t.commitLate ch))))) ∧
    (∀ (w : State) (ok : Bool),
      let y := w.dctAt ch
      (4 ≤ ch ∨ y.last = none → w.readBack ch ok = (none, w)) ∧
      (∀ a r t, ch < 4 → y.last = some a →
        let u := if inCsr a then 4 else 8
        w.dctRead ch true (a / u * u) u = (r, t) →
          (∀ bs, r = .ok bs → ok = true → w.readBack ch ok = (none, t)) ∧ ((∀ bs, r ≠ .ok bs) ∨ ok = false → w.readBack ch ok = (some (a / u * u), t))) ∧
      (∀ r t, w.dctRead ch false (gTask y.desc) 32 = (r, t) →
        (∀ bs, r = .ok bs → w.dctSubmit ch = ((t.setDct ch { y with phase := .held }).wrF (Reg.dctChStat ch) 31 28 2).hold (.decant ch) (wordsOf bs)
          (match y.slot with | some sl => (w.task? sl).any fun t => dIdem t.words | none => false)) ∧
        (∀ e, r = .err e → w.dctSubmit ch = t.dctStop ch 0x12 1 0 (gTask y.desc)) ∧ (∀ e, r = .ue e → w.dctSubmit ch = t.dctStop ch 0x12 3 0 (gTask y.desc)))) ∧
    (x.phase = .failed → x.abort = false → exec (.dctTransferError ch) s = .next (after s (b.dctStop ch x.summary x.cause x.dofs x.errAddr))) ∧
    (x.phase ≠ .failed ∨ x.abort = true → exec (.dctTransferError ch) s = .next (after s b))

/-- A fill makes a region of populated DRAM that was never written read zero and sets its valid bit, once; every other byte stands.
MEM.VCLR makes every cellar line that its range touches, or every DRAM region wholly inside it, read zero, and changes no other
byte; a range that is reversed or mixes the two sets ERR and changes nothing else. A walker's visit corrects and counts the
correctable errors of its line, records the uncorrectable ones, and moves on; a stopped walker moves nowhere. The end of a bank
copy puts the spare at the bank's address lines, unless the bank holds too many bad words. -/
def Obligations.MemoryUpkeep : Prop :=
  ∀ (s : State), s.pwr.up = true →
    let b := begin s
    (∀ r,
      let gives := fun (t : State) => exec (.validMapFill r) s = .next (after s t)
      (b.mem.vmap.contains r = true ∨ b.dramCap < (r + 1) * 65536 → gives b) ∧
      (b.mem.vmap.contains r = false → (r + 1) * 65536 ≤ b.dramCap → gives (((b.free 4).2.fillRegion r).fillWrites (b.free 4).1 r))) ∧
    (∀ (w : State) (r cls : Nat), MemInv w → w.mem.vmap.contains r = false →
      let t := (w.fillRegion r).fillWrites cls r
      MemInv t ∧ t.mem.vmap = sins w.mem.vmap r ∧
        ∀ a, t.devByte a = if dramBase + r * 65536 ≤ a ∧ a < dramBase + (r + 1) * 65536 then 0 else w.devByte a) ∧
    (∀ i (v : Word), i < 4 →
      let gives := fun (t : State) => exec (.memVclrGo i v) s = .next (after s t)
      ∀ w, (tb v.toNat 1 = true → w = b.wrF Reg.memVclrCtrl 1 1 0) → (tb v.toNat 1 = false → w = b) →
        let got := w.vclr (w.rdPair Reg.memVclrBaseLo Reg.memVclrBaseHi) (w.rdPair Reg.memVclrLimitLo Reg.memVclrLimitHi)
        (tb v.toNat 0 = false → gives w) ∧ (tb v.toNat 0 = true → (∀ t, got = some t → gives t) ∧ (got = none → gives (w.wrF Reg.memVclrCtrl 1 1 1)))) ∧
    (∀ (w : State) (lo hi : Nat), MemInv w →
      (hi < lo → w.vclr lo hi = none) ∧
      (¬ (locate lo = .cellar ∧ locate hi = .cellar) → ¬ (locate lo = .dram ∧ locate hi = .dram) → w.vclr lo hi = none) ∧
      (lo ≤ hi → locate lo = .cellar → locate hi = .cellar →
        ∃ t, w.vclr lo hi = some t ∧ MemInv t ∧ t.csr = w.csr ∧ ∀ a, t.devByte a = if lo / 64 * 64 ≤ a ∧ a < hi / 64 * 64 + 64 then 0 else w.devByte a) ∧
      (lo ≤ hi → locate lo = .dram → locate hi = .dram →
        let first := (alignUp lo 65536 - dramBase) / 65536
        let past := (hi + 1 - dramBase) / 65536
        (past ≤ first → w.vclr lo hi = some w) ∧
        (first < past → w.mapStuck first past = [] → ∃ t, w.vclr lo hi = some t ∧ MemInv t ∧ t.csr = w.csr ∧
          ∀ a, t.devByte a = if dramBase ≤ a ∧ first ≤ (a - dramBase) / 65536 ∧ (a - dramBase) / 65536 < past then 0 else w.devByte a))) ∧
    (∀ k ups, k < 10 →
      let gives := fun (t : State) => exec (.walkerVisit k ups) s = .next (after s t)
      let w := b.struck ups
      (w.rdB (Reg.memRidCtrl k) 31 = false → gives w) ∧
      (w.rdB (Reg.memRidCtrl k) 31 = true → ∀ pos early u,
        (k = 2 → w.skipCores 256 (w.rd (Reg.memRidPos k)) false = (pos, early)) → (k ≠ 2 → (w.rd (Reg.memRidPos k), false) = (pos, early)) →
        (early = true → u = w.count (Reg.memRidPass k) 1) → (early = false → u = w) →
        let v := u.walkVisit k pos
        (v.walkNext k pos < v.walkLines k → gives (v.wr (Reg.memRidPos k) (v.walkNext k pos))) ∧
        (v.walkLines k ≤ v.walkNext k pos → gives ((v.wr (Reg.memRidPos k) 0).count (Reg.memRidPass k) 1)))) ∧
    (∀ (w : State) k pos,
      (w.walkAddr k pos = none → w.walkVisit k pos = w) ∧
      (∀ a, w.walkAddr k pos = some a →
        (k = 3 → w.walkVisit k pos = w.walkUnit k a) ∧ (k < 3 → w.walkVisit k pos = (unitsOf a 64).foldl (fun s x => s.walkUnit k x) w) ∧
        (4 ≤ k → w.walkVisit k pos = (unitsOf a 64).foldl (fun s x => s.walkUnit k x) (w.queueRead 3 a)))) ∧
    (∀ (w : State) k u,
      (w.written u = false → w.walkUnit k u = w) ∧
      (w.written u = true → (w.errAt u = none → w.walkUnit k u = w) ∧
        (w.errAt u = some false → w.walkUnit k u = ((w.ceAt u).count (Reg.memRidCe k) 1).clearErr u) ∧ (w.errAt u = some true → w.walkUnit k u = w.ueAt true u))) ∧
    (∀ p, p < 34 →
      let gives := fun (t : State) => exec (.bankCopyDone p) s = .next (after s t)
      let u := { b with mem := { b.mem with copy := b.mem.copy.filter fun e => e.1 != p } }
      (b.mem.copy.find? (fun e => e.1 == p) = none ∨ b.rsv.retiring.find? (fun r => r.kind == 2 && mget id b.mem.bank r.unit == p) = none → gives b) ∧
      (∀ q sp r, b.mem.copy.find? (fun e => e.1 == p) = some (q, sp) → b.rsv.retiring.find? (fun r => r.kind == 2 && mget id b.mem.bank r.unit == p) = some r →
        (b.bankUes p ≤ 64 → gives (({ u with mem := { u.mem with bank := mput id u.mem.bank r.unit sp } } : State).spareTaken 2 r.reason r.unit p sp 0)) ∧
        (64 < b.bankUes p → gives (u.degrade 2 r.unit))))

/-- A write of CTRL runs INIT of an UNINIT or FAILED channel to READY, or leaves it in INIT, whose timeout fails it at the step; it
takes EN only with masks that R308 allows and shows MAP_ERR otherwise; SR puts a READY channel into SELF_REFRESH and takes it
out. Refreshes, promotions and alerts of a channel that can have them are counted and act, and do nothing on another; a replay
without a further alert ends the event and the third failure in a row fails the channel; a due or forced retraining makes it
pause. -/
def Obligations.DramChannels : Prop :=
  ∀ (n step c line k : Nat) (v : Word) (s : State), n < 6 → step < 10 → c < 4 → k < 10 → s.pwr.up = true →
    let b := begin s
    let st := b.dmcState n
    let d := b.dmcAt n
    (exec (.dmcInit n v k) s = .next (after s (b.dmcCtrl n v.toNat k)) ∧ exec (.dmcEnable n v) s = .next (after s (b.dmcCtrl n v.toNat 0)) ∧
      exec (.dmcSrEnter n v) s = .next (after s (b.dmcCtrl n v.toNat 0)) ∧ exec (.dmcSrExit n v) s = .next (after s (b.dmcCtrl n v.toNat 0))) ∧
    (∀ (w x y : State) (m j : Nat),
      (tb m 0 = true → w.dmcState n = 0 ∨ w.dmcState n = 6 → j = 0 → x = w.dmcReady n (w.dmcState n == 6)) →
      (tb m 0 = true → w.dmcState n = 0 ∨ w.dmcState n = 6 → j ≠ 0 → x = (w.wrF (Reg.dmcStat n) 31 28 1).wrF (Reg.dmcStat n) 19 16 0) →
      (tb m 0 = false ∨ (w.dmcState n ≠ 0 ∧ w.dmcState n ≠ 6) → x = w) →
      (tb m 31 = true → x.masksOk n = true → y = (x.wrF (Reg.dmcStat n) 8 8 0).wr (Reg.dmcCtrl n) (2 ^ 31 + bn (tb m 4) * 16)) →
      (tb m 31 = true → x.masksOk n = false → y = (x.wrF (Reg.dmcStat n) 8 8 1).wr (Reg.dmcCtrl n) (bn (tb m 4) * 16)) →
      (tb m 31 = false → y = (x.wrF (Reg.dmcStat n) 8 8 0).wr (Reg.dmcCtrl n) (bn (tb m 4) * 16)) →
      (tb m 4 = true → y.dmcState n = 2 → w.dmcCtrl n m j = y.wrF (Reg.dmcStat n) 31 28 3) ∧
      (tb m 4 = false → y.dmcState n = 3 → w.dmcCtrl n m j = y.wrF (Reg.dmcStat n) 31 28 2) ∧
      (tb m 4 = true → y.dmcState n ≠ 2 → w.dmcCtrl n m j = y) ∧ (tb m 4 = false → y.dmcState n ≠ 3 → w.dmcCtrl n m j = y)) ∧
    (let gives := fun (t : State) => exec (.dmcInitTimeout n step) s = .next (after s t)
     (st = 1 → step ≠ 0 → gives (b.wr (Reg.dmcStat n) (setFld (setFld (b.rd (Reg.dmcStat n)) 31 28 6) 19 16 step))) ∧ (st ≠ 1 ∨ step = 0 → gives b)) ∧
    (let gives := fun (t : State) => exec (.dramRefresh n) s = .next (after s t)
     let r := b.free (2 ^ 32)
     (st = 2 → gives ((r.2.setDmc n { r.2.dmcAt n with refreshes := (r.2.dmcAt n).refreshes + 1 }).tallyTime 5 n 5 r.1)) ∧ (st ≠ 2 → gives b)) ∧
    (let gives := fun (t : State) => exec (.dramAgePromote n c line) s = .next (after s t)
     let u := b.tally 5 n 4 1
     let age := u.rdF (Reg.dmcAge n c) 15 0 * 2 ^ 32
     (st ≠ 2 ∨ b.chanCap / 64 ≤ line → gives b) ∧
     (st = 2 → line < b.chanCap / 64 →
       ((u.dmcAt n).writes.find? (fun w => w.line == u.lineAddr n line && w.cls == c) = none → gives u) ∧
       (∀ w, (u.dmcAt n).writes.find? (fun w => w.line == u.lineAddr n line && w.cls == c) = some w →
         let x := u.until ((w.since + age + u.mrd.time) - u.cen.clock)
         (x.dramServes n = true → gives (x.issueWrite n w)) ∧ (x.dramServes n = false → gives x)))) ∧
    (let gives := fun (t : State) => exec (.dramAlert n) s = .next (after s t)
     (st = 2 ∨ st = 5 → gives ((b.wrF (Reg.dmcStat n) 31 28 4).setDmc n { d with fails := 0, pause := 0, alert := b.cen.clock })) ∧ (st ≠ 2 → st ≠ 5 → gives b)) ∧
    (let gives := fun (t : State) => exec (.retrainDue n) s = .next (after s t)
     (b.rdB (Reg.dmcRtr n) 31 = true → st = 2 → gives (b.setDmc n { d with due := true })) ∧ (b.rdB (Reg.dmcRtr n) 31 = false ∨ st ≠ 2 → gives b)) ∧
    (let u := b.count (Reg.dmcRtrForced n) 1
     (b.rdB (Reg.dmcRtr n) 31 = true → st = 2 → exec (.retrainForced n true) s = .next (after s ((u.conflict 3 2 n).retrain n))) ∧
     (b.rdB (Reg.dmcRtr n) 31 = true → st = 2 → d.due = true → exec (.retrainForced n false) s = .next (after s ((u.conflict 3 1 n).retrain n))) ∧
     (∀ temp, b.rdB (Reg.dmcRtr n) 31 = false → st = 2 → temp = true ∨ d.due = true → exec (.retrainForced n temp) s = .next (after s ((u.conflict 3 3 n).retrain n))) ∧
     (∀ temp, st ≠ 2 ∨ (temp = false ∧ d.due = false) → exec (.retrainForced n temp) s = .next (after s b))) ∧
    (∀ ok,
      let gives := fun (t : State) => exec (.dramReplay n ok) s = .next (after s t)
      let u := ((b.count (Reg.dmcReplayCnt n) 1).tally 5 n 9 1).tallyTime 5 n 6 (b.rdF (Reg.dmcAlertT n) 15 0 * 5 / 4)
      let x := (u.setDmc n { u.dmcAt n with rows := [] }).emit (.replay n (u.retried n))
      (st ≠ 4 → gives b) ∧
      (st = 4 →
        (ok = true → gives ((x.wrF (Reg.dmcStat n) 31 28 2).setDmc n { x.dmcAt n with fails := 0 })) ∧
        (ok = false → (x.dmcAt n).fails < 2 → gives (x.setDmc n { x.dmcAt n with fails := (x.dmcAt n).fails + 1 })) ∧
        (ok = false → 2 ≤ (x.dmcAt n).fails → gives (x.failChannel n))))

/-- On a live lane that is on, the condition of the stage it works on takes it to the next: a receiver asleep stays in stage 3, a
raw lane in stage 4; stage 6 inverts an inverted lane and goes back to stage 5, and lets a one-lane link straight to stage 9. A
timeout counts a retry and sends the lane back; a loss of signal, CDR lock or block lock sends it to stage 3, 4 or 5. RESTART
sends a lane that is on to stage 1, a receiver put to sleep to stage 3. In raw mode SLIP moves the boundary one UI and is busy
until done, UP takes the lane from stage 4 to stage 9 and back. The eye of a lane in stage 4 or above is kept. In every other
state a command does nothing. -/
def Obligations.LaneBringUp : Prop :=
  ∀ (g l order : Nat) (inv : Bool) (v : Word) (s : State), g < 16 → l < 17 → order < 16 → s.pwr.up = true →
    let b := begin s
    let x := b.lane g l
    let mode := b.laneMode g l
    let live := b.laneLive g l
    let go := fun (t : State) (n : Nat) => t.restage g l 0 fun i own => if i = l then n else own
    let ready := fun (t : State) => exec (.laneStageReady g l inv order) s = .next (after s t)
    let late := fun (t : State) => exec (.laneStageTimeout g l) s = .next (after s t)
    (live = false ∨ mode = 0 ∨ mode = 7 → ready b) ∧
    (live = true → mode ≠ 0 → mode ≠ 7 →
      (x.own = 0 ∨ 10 ≤ x.own → ready b) ∧ (x.own = 1 → ready (go b 2)) ∧
      (x.own = 2 → (b.lanePllRuns g l = true → ready (go b 3)) ∧ (b.lanePllRuns g l = false → ready b)) ∧
      (x.own = 3 → (b.rdB (Reg.laneCtrl g l) 1 = false → ready (go (b.wrF (Reg.laneStat g l) 0 0 1) 4)) ∧ (b.rdB (Reg.laneCtrl g l) 1 = true → ready b)) ∧
      (x.own = 4 →
        let t := b.setLane g l { x with timeouts4 := 0, cdr := true, slip := if x.cdr then x.slip else 0 }
        (mode ≠ 6 → ready (go t 5)) ∧ (mode = 6 → ready t)) ∧
      (x.own = 5 → ready (go b 6)) ∧
      (x.own = 6 → (inv = false → ready (go b (if multiLane mode then 7 else 9))) ∧
        (inv = true →
          let t := b.wrF (Reg.laneCtrl g l) 3 3 (1 - b.rdF (Reg.laneCtrl g l) 3 3)
          ready (go (t.wrF (Reg.laneStat g l) 1 1 1) 5))) ∧
      (x.own = 7 →
        let all := (b.linkLanes g l).all fun i => decide (7 ≤ (b.lane g i).own)
        (all = false → ready b) ∧
        (all = true → mode = 5 → (b.tetherOrder g l = true → ready (go b 8)) ∧ (b.tetherOrder g l = false → ready b)) ∧
        (all = true → mode ≠ 5 → (b.orderOk g l order = true → ready (go (b.wrF (Reg.laneStat g l) 27 24 order) 8)) ∧ (b.orderOk g l order = false → ready b))) ∧
      (x.own = 8 →
        let all := (b.linkLanes g l).all fun i => decide (8 ≤ (b.lane g i).own)
        (all = true → ready (go b 9)) ∧ (all = false → ready b)) ∧
      (x.own = 9 → (mode ≠ 5 → ready (go b 10)) ∧ (mode = 5 → ready b))) ∧
    (backStage x.own = none ∨ live = false ∨ (mode = 6 ∧ x.own = 4 ∧ x.cdr = true) → late b) ∧
    (live = true → ¬ (mode = 6 ∧ x.own = 4 ∧ x.cdr = true) → ∀ back, backStage x.own = some back →
      let t := b.laneRetry g l
      let frozen := t.rdB (Reg.laneRxeq g l) 31
      (x.own ≠ 4 ∨ frozen = false → late ((t.setLane g l { t.lane g l with timeouts4 := 0 }).dropLane g l back 2)) ∧
      (x.own = 4 → frozen = true →
        let u := t.setLane g l { t.lane g l with timeouts4 := x.timeouts4 + 1 }
        (x.timeouts4 < 2 → late (u.dropLane g l back 2)) ∧ (2 ≤ x.timeouts4 → late ((u.conflict 2 1 (g * 17 + l)).dropLane g l back 2)))) ∧
    (∀ lost, lost < 6 →
      let gives := fun (t : State) => exec (.laneLockLoss g l lost) s = .next (after s t)
      let on := live = true ∧ (9 ≤ x.own ∨ (mode = 6 ∧ x.own = 4 ∧ x.cdr = true)) ∧ 3 ≤ lost ∧ ¬ (mode = 6 ∧ lost = 5)
      (¬ on → gives b) ∧
      (on → ∀ p q r, (lost = 3 → p = b.wrF (Reg.laneStat g l) 0 0 0) → (lost ≠ 3 → p = b) → (mode = 6 → q = p.wrF (Reg.laneRawctl g l) 1 1 0) → (mode ≠ 6 → q = p) →
        (lost < 5 → r = q.setLane g l { x with cdr := false }) → (lost = 5 → r = q) → gives (r.dropLane g l lost (if lost = 3 then 1 else 2)))) ∧
    (exec (.laneRestart g l v) s = .next (after s (b.laneCtrlWrite g l v.toNat)) ∧ exec (.laneTxsleep g l v) s = .next (after s (b.laneCtrlWrite g l v.toNat)) ∧
      exec (.laneRxsleep g l v) s = .next (after s (b.laneCtrlWrite g l v.toNat))) ∧
    (exec (.rawSlip g l v) s = .next (after s (b.rawctlWrite g l v.toNat)) ∧ exec (.rawUp g l v) s = .next (after s (b.rawctlWrite g l v.toNat)) ∧
      exec (.rawDown g l v) s = .next (after s (b.rawctlWrite g l v.toNat))) ∧
    (∀ (w : State) (m : Nat),
      (g = 15 ∨ (l ≠ 16 ∧ w.spared g l = true) → w.laneCtrlWrite g l m = w) ∧
      (g ≠ 15 → (l = 16 ∨ w.spared g l = false) → ∀ p q,
        let u := w.wr (Reg.laneCtrl g l) (w.laneMode g l * 2 ^ 28 + fld m 4 3 * 8 + m % 4)
        (w.laneLive g l = true ∧ fld m 31 28 < 7 → p = u.setLaneMode g l (fld m 31 28)) → (w.laneLive g l = false ∨ 7 ≤ fld m 31 28 → p = u) →
        q = p.laneSleep g l (tb m 0 && !w.rdB (Reg.laneCtrl g l) 0) (tb m 1 && !w.rdB (Reg.laneCtrl g l) 1) →
        (tb m 7 = true → (q.lane g l).own ≠ 0 → w.laneCtrlWrite g l m = q.dropLane g l 1 5) ∧ (tb m 7 = false ∨ (q.lane g l).own = 0 → w.laneCtrlWrite g l m = q))) ∧
    (∀ (w : State) (tx rx : Bool),
      (rx = true → 3 < (w.lane g l).own → w.laneSleep g l tx rx = w.dropLane g l 3 6) ∧
      (rx = false ∨ (w.lane g l).own ≤ 3 →
        ((tx = true ∨ rx = true) → 1 < (w.linkLanes g l).length → w.laneSleep g l tx rx = w.restage g l 6 fun _ own => min own 7) ∧
        ((tx = false ∧ rx = false) ∨ (w.linkLanes g l).length ≤ 1 → w.laneSleep g l tx rx = w))) ∧
    (∀ (w : State) (m : Nat),
      let y := w.lane g l
      (w.laneLive g l = false ∨ w.laneMode g l ≠ 6 → w.rawctlWrite g l m = w) ∧
      (w.laneLive g l = true → w.laneMode g l = 6 → ∀ p,
        (tb m 0 = true → w.rdB (Reg.laneRawctl g l) 31 = false → p = (w.wrF (Reg.laneRawctl g l) 31 31 1).setLane g l { y with slip := (y.slip + 1) % 64, skip := true }) →
        (tb m 0 = false ∨ w.rdB (Reg.laneRawctl g l) 31 = true → p = w) →
        (tb m 1 = true → y.own = 4 → w.rawctlWrite g l m = (p.wrF (Reg.laneRawctl g l) 1 1 1).restage g l 0 fun _ _ => 10) ∧
        (tb m 1 = false → 9 ≤ y.own → w.rawctlWrite g l m = (p.wrF (Reg.laneRawctl g l) 1 1 0).restage g l 5 fun _ _ => 4) ∧
        ((tb m 1 = true ∧ y.own ≠ 4) ∨ (tb m 1 = false ∧ y.own < 9) → w.rawctlWrite g l m = p))) ∧
    exec (.rawSlipDone g l) s = .next (after s ((b.wrF (Reg.laneRawctl g l) 31 31 0).setLane g l { x with skip := false })) ∧
    (∀ h vv, h < 256 → vv < 4096 →
      let gives := fun (t : State) => exec (.eyeMeasure g l h vv) s = .next (after s t)
      let e := b.rd (Reg.laneEye g l)
      (4 ≤ x.own → gives ((((b.extreme 6 (g * 17 + l) 5 min (fld e 7 0) h).extreme 6 (g * 17 + l) 6 min (fld e 27 16) vv).wr (Reg.laneEye g l) (vv * 2 ^ 16 + h)).eyeTrend g l h vv)) ∧
      (x.own < 4 → gives b))

/-- A frame with a bad FCS is dropped and counted; a good one is counted, and what of it is the firmware's is handed over, its
receive stamp in front where the MACs stamp it. A marked frame sent has its record put into the TX stamp ring, or lost when the
ring is full or its write fails. U-plane data of an identifier no stream has is counted and passed to the firmware; outside its
window it is early or late; inside it lands, and the symbol's flag is posted once all has landed. A window opens only for an
uplink symbol of a frame the timeline drives; at its close what is missing is zero and counted. Egress is counted late where it
cannot start in time. Time-domain messages take their place; those between are lost, and one that is not later is dropped. -/
def Obligations.FronthaulData : Prop :=
  ∀ (p mac : Nat) (s : State), p < 64 → mac < 16 → s.pwr.up = true →
    let b := begin s
    (∀ bs good time errs fc fu,
      let gives := fun (t : State) => exec (.ethFrameRx p mac bs good time errs fc fu) s = .next (after s t)
      ((b.portMacs p)[mac]? = none → gives b) ∧
      (∀ m, (b.portMacs p)[mac]? = some m →
        let g := (b.macLane m).1
        let l := (b.macLane m).2
        (b.linkIsUp g l = false → gives b) ∧
        (b.linkIsUp g l = true →
          let u := (b.laneErr g l errs).laneFec g l fc fu
          (good = false → gives (u.count (Reg.fhmPortFcsDrop p) 1)) ∧
          (good = true → bs.length < 64 ∨ 9600 < bs.length → gives u) ∧
          (good = true → 64 ≤ bs.length → bs.length ≤ 9600 →
            ∀ tx rx w, (((u.count (Reg.fhmPortRxFrames p) 1).tally 7 p 0 1).tally 7 p 1 bs.length).gbx = (tx, rx, w) →
              gives ((w.forFirmware p bs).foldl (fun x f => x.toInbox p (if f.1 then stampRecord (time - psFr16 (macLatency m.2.2).2 - psFr16 rx) 0 (g * 17 + l) ++ f.2 else f.2)) w))))) ∧
    (∀ tag time,
      let gives := fun (t : State) => exec (.ethFrameTxStamp p mac tag time) s = .next (after s t)
      ((b.portMacs p)[mac]? = none → gives b) ∧
      (∀ m, (b.portMacs p)[mac]? = some m →
        (b.macSends m = false → gives b) ∧
        (b.macSends m = true →
          let u := (((b.free 9537).2.count (Reg.fhmPortTxFrames p) 1).tally 7 p 5 1).tally 7 p 6 (64 + (b.free 9537).1)
          ∀ tx rx w, u.gbx = (tx, rx, w) →
            gives (w.stampRing (stampRecord (time + psFr16 (macLatency m.2.2).1 + psFr16 tx) tag (32768 + (b.macLane m).1 * 17 + (b.macLane m).2)))))) ∧
    (∀ (w : State) (bs : List Byte),
      let size := 2 ^ max 4 (min 12 (w.rdF Reg.mrdTsrLog2 3 0))
      let pi := w.rdF Reg.mrdTsrPi 15 0
      let used := (pi + 65536 - w.rdF Reg.mrdTsrCi 15 0) % 65536
      (used = size → w.stampRing bs = w.count Reg.mrdTsrLost 1) ∧
      (used ≠ size → ∀ r x, w.memWrite (w.rdPair Reg.mrdTsrBaseLo Reg.mrdTsrBaseHi + pi % size * 16) bs = (r, x) →
        (r = .ok → w.stampRing bs = x.wr Reg.mrdTsrPi ((pi + 1) % 65536)) ∧ (r ≠ .ok → w.stampRing bs = x.count Reg.mrdTsrLost 1))) ∧
    (∀ id sym secs,
      let gives := fun (t : State) => exec (.uplaneMessage p id sym secs) s = .next (after s t)
      (b.streamOf p id = none → gives ((b.count (Reg.fhmPortUnknown p) 1).toInbox p (unknownMessage id secs))) ∧
      (∀ st k, b.streamOf p id = some (st, k) →
        (k.use ≠ 0 → gives b) ∧
        (k.use = 0 → b.window? k.carrier sym = none →
          (b.mrd.time < b.windowOpens k.carrier sym → gives ((b.count (Reg.fhmPortEarly p) 1).tally 7 p 4 1)) ∧
          (b.windowOpens k.carrier sym ≤ b.mrd.time → gives ((b.count (Reg.fhmPortLate p) 1).tally 7 p 3 1))) ∧
        (k.use = 0 → ∀ win static w got, b.window? k.carrier sym = some win →
          (mget (fun _ => none) b.front.ports p = none → static = 0) → (∀ c, mget (fun _ => none) b.front.ports p = some c → static = c.staticW) →
          b.landSections st sym static k.carrier secs = (w, got) →
          let landed := got.foldl (fun l e => if l.contains e then l else l ++ [e]) win.landed
          let full := (w.missingPrbs { win with landed := landed }).isEmpty
          let t := w.setWindow { win with landed := landed, posted := win.posted || full }
          (full = true → win.posted = false → gives (t.arrive k.carrier sym)) ∧ (full = false ∨ win.posted = true → gives t)))) ∧
    (∀ (x : State) st sym static c start width bytes,
      x.landSections st sym static c [] = (x, []) ∧
      ((static = 0 → width = 0 ∨ 16 < width) → 16 < static ∨ static = 0 → x.landSections st sym static c [(start, width, bytes)] = (x, [])) ∧
      (static = 0 → 1 ≤ width → width ≤ 16 → x.landSections st sym static c [(start, width, bytes)] = x.landSection st sym width (x.carrierPrbs c) start bytes) ∧
      (1 ≤ static → static ≤ 16 → x.landSections st sym static c [(start, width, bytes)] = x.landSection st sym static (x.carrierPrbs c) start bytes)) ∧
    (∀ c sym, c < 384 →
      let gives := fun (t : State) => exec (.rxWindowOpen c sym) s = .next (after s t)
      let u := b.until (b.windowOpens c sym)
      (b.drives c sym = true → b.slotUl c (sym / 14) = true → b.window? c sym = none →
        gives { u with front := { u.front with windows := u.front.windows ++ [{ carrier := c, symbol := sym, landed := [], posted := false }] } }) ∧
      (b.drives c sym = false ∨ b.slotUl c (sym / 14) = false ∨ b.window? c sym ≠ none → gives b)) ∧
    (∀ c sym, c < 384 →
      let gives := fun (t : State) => exec (.rxWindowClose c sym) s = .next (after s t)
      let u := b.until (b.windowCloses c sym)
      (b.window? c sym = none → gives b) ∧
      (∀ w gone, b.window? c sym = some w → (w.posted = true → gone = []) → (w.posted = false → gone = u.missingPrbs w) →
        let v := gone.foldl (fun s e => ((s.landZeros e.1 sym e.2.2).count (Reg.fhmPortMissing e.2.1.port) 1).tally 7 e.2.1.port 2 1) u
        let t := { v with front := { v.front with windows := v.front.windows.filter fun x => !(x.carrier == c && x.symbol == sym), missing := mmod (fun _ => 0) v.front.missing c fun n => (n + gone.length) % 2 ^ 32 } }
        (w.posted = true → gives t) ∧ (w.posted = false → gives (t.arrive c sym)))) ∧
    (∀ c sym, c < 384 →
      let gives := fun (t : State) => exec (.fhEgressStart c sym) s = .next (after s t)
      (b.drives c sym = false ∨ b.slotDl c (sym / 14) = false → gives b) ∧
      (b.drives c sym = true → b.slotDl c (sym / 14) = true →
        let u := b.until (b.symbolTime c sym (b.symbolReg c sym (Reg.mrdTlTxAdvance c)))
        gives ((u.carrierStreams c 1).foldl (fun x e => x.egressOne (decide (u.symbolTime c sym 0 < u.mrd.time)) sym c e) u))) ∧
    (∀ (x : State) late sym c e,
      let lost := (x.count (Reg.fhmPortTxLate e.2.port) 1).tally 7 e.2.port 7 1
      (late = true ∨ (x.fhChannel).1 = none ∨ x.streamSends e.2 = none → x.egressOne late sym c e = lost) ∧
      (∀ ch y pc, late = false → x.fhChannel = (some ch, y) → x.streamSends e.2 = some pc → x.egressOne late sym c e = y.egressStream e.1 sym c ch e.2 pc)) ∧
    (∀ st seq bytes, st < 4096 →
      let gives := fun (t : State) => exec (.tdStreamMessage st seq bytes) s = .next (after s t)
      (b.stream? st = none → gives b) ∧
      (∀ k, b.stream? st = some k →
        let n := tdMessages (fsSamples k.carrier) k.ant
        let f := tdFrame k b.mrd.time seq
        let fit := k.use = 1 ∧ k.dir = 0 ∧ seq < n ∧ bytes.length = 4 * k.ant
        let put := fun (lost : Nat) => { b with front := { b.front with td := mput (fun _ => none) b.front.td st (some { frame := f, seq := seq, lost := lost, samples := samplesOf bytes }) } }
        (¬ fit → gives b) ∧
        (fit →
          (b.tdIn? st = none → gives (put 0)) ∧
          (∀ x, b.tdIn? st = some x →
            let lost := (f * n + seq - (x.frame * n + x.seq) - 1) * k.ant
            (f * n + seq ≤ x.frame * n + x.seq → gives b) ∧
            (x.frame * n + x.seq < f * n + seq →
              (lost = 0 ∨ b.nfeRx? st = none → gives (put (x.lost + lost))) ∧
              (∀ e, lost ≠ 0 → b.nfeRx? st = some e → gives ((put (x.lost + lost)).streamGap e lost))))))) ∧
    (∀ st, st < 4096 →
      let gives := fun (t : State) => exec (.tdStreamSend st) s = .next (after s t)
      (b.stream? st = none → gives b) ∧
      (∀ k, b.stream? st = some k →
        let n := tdMessages (fsSamples k.carrier) k.ant
        (k.use ≠ 1 ∨ k.dir ≠ 1 ∨ n = 0 ∨ b.streamSends k = none → gives b) ∧
        (∀ c, k.use = 1 → k.dir = 1 → n ≠ 0 → b.streamSends k = some c →
          let pos := b.tdNextAt st k (mget (fun _ => 0) b.front.tdNext st)
          ∀ xs w, (b.until (tdSendTime st k pos)).tdSamples st pos k = (xs, w) →
            let t := (w.emit (.td st (pos % n) xs)).sendMessage k.port k.mac c k.ident (some (pos % n)) 0 (xs.flatMap fun x => leBytes 4 x.toNat)
            gives { t with front := { t.front with tdNext := mput (fun _ => 0) t.front.tdNext st (pos + 1) } })))

/-- On a link that is up a whole WRITE frame with the SEQ expected is performed within a receive window and refused outside, its
credits freed; a POST frame sets its flags; one that is not whole or has another SEQ is discarded and a NAK is owed; one without
its START block is a block error. A LINK block takes the credits; INIT goes on with the handshake; otherwise its ACK frees the
replay buffer, a NAK has it sent again, and sending goes on. A LINK block sent carries the acknowledgement, the NAK and the
credits. A MARKER numbers its lane in stage 7. A write of REQ_PI takes the new entries in order; the oldest entry that is done
completes. -/
def Obligations.TetherLinks : Prop :=
  ∀ (t : Nat) (bs : List Byte) (s : State), t < 3 → s.pwr.up = true →
    let b := begin s
    let x := b.tlink t
    let n := leAt bs 14 2
    let c := b.tcount t 2 1
    (let gives := fun (r : State) => exec (.tetherWriteFrame t bs) s = .next (after s r)
     let fit := frameWhole 1 bs = true ∧ 1 ≤ n ∧ n ≤ 256 ∧ leAt bs 4 1 = (n + 7) / 8
     let y := { x with rxNext := (x.rxNext + 1) % 4096, wFreed := (x.wFreed + (n + 63) / 64) % 65536 }
     (x.up = false → gives b) ∧ (x.up = true → isFrame 1 bs = false → gives (b.blockError t)) ∧
     (x.up = true → isFrame 1 bs = true →
       (¬ fit ∨ leAt bs 2 2 ≠ x.rxNext → gives (b.tetherNak t)) ∧
       (fit → leAt bs 2 2 = x.rxNext →
         (c.inTwin t (leAt bs 8 6) n = true → gives ((c.busWrite c.tetherInit (leAt bs 8 6) ((bs.drop 16).take n)).2.setTlink t y)) ∧
         (c.inTwin t (leAt bs 8 6) n = false → gives (((c.count (Reg.fhmTlRefused t) 1).tcount t 4 1).setTlink t { y with refused := some (leAt bs 2 2) }))))) ∧
    (let gives := fun (r : State) => exec (.tetherPostFrame t bs) s = .next (after s r)
     let fit := frameWhole 2 bs = true ∧ leAt bs 4 1 = 0
     let r := c.setTlink t { x with rxNext := (x.rxNext + 1) % 4096, eFreed := (x.eFreed + 1) % 256 }
     (x.up = false → gives b) ∧ (x.up = true → isFrame 2 bs = false → gives (b.blockError t)) ∧
     (x.up = true → isFrame 2 bs = true →
       (¬ fit ∨ leAt bs 2 2 ≠ x.rxNext → gives (b.tetherNak t)) ∧
       (fit → leAt bs 2 2 = x.rxNext → (leAt bs 8 2 < 16384 → gives (r.post (leAt bs 8 2) (leAt bs 10 4))) ∧ (16384 ≤ leAt bs 8 2 → gives r)))) ∧
    (let gives := fun (r : State) => exec (.tetherLinkBlock t bs) s = .next (after s r)
     let w := leAt bs 1 2
     let y := { x with wGiven := leAt bs 3 2, eGiven := leAt bs 5 1 }
     (bs.length ≠ 8 ∨ leAt bs 0 1 ≠ 0x2D → gives (b.blockError t)) ∧
     (bs.length = 8 → leAt bs 0 1 = 0x2D → b.tetherLanes t = [] → gives b) ∧
     (∀ g l rest, bs.length = 8 → leAt bs 0 1 = 0x2D → b.tetherLanes t = (g, l) :: rest →
       (b.linkIn9 g l = false → gives b) ∧
       (b.linkIn9 g l = true →
         (tb w 13 = true → gives ((b.setTlink t { y with initRx := true }).handshake t)) ∧
         (tb w 13 = false → x.up = false → gives b) ∧
         (tb w 13 = false → x.up = true → ∀ z, (tb w 14 = true → z = refuseFrame y (leAt bs 6 2 % 4096)) → (tb w 14 = false → z = y) →
           (tb w 12 = false → gives ((b.setTlink t (acked z (w % 4096))).pump pumpFuel t)) ∧
           (tb w 12 = true → gives (((b.setTlink t (acked z (w % 4096))).resend t).pump pumpFuel t)))))) ∧
    (let gives := fun (r : State) => exec (.tetherLinkSend t) s = .next (after s r)
     let w := (if x.up then (x.rxNext + 4095) % 4096 else 0xFFF) + bn (x.nak && x.up) * 4096 + bn (!x.up) * 8192 + bn x.refused.isSome * 16384
     let blk := [0x2D] ++ leBytes 2 w ++ leBytes 2 ((x.wFreed + 4096) % 65536) ++ leBytes 1 ((x.eFreed + 64) % 256) ++ leBytes 2 (x.refused.getD 0)
     (b.tetherSends t = false → gives b) ∧
     (b.tetherSends t = true → gives (((b.setTlink t { x with nak := false, refused := none, initTx := true }).sendBlocks t blk).handshake t))) ∧
    (∀ lane phys width ok, phys < 16 → width < 4 →
      let gives := fun (r : State) => exec (.tetherMarker t lane phys width ok) s = .next (after s r)
      ((b.tetherLanes t)[phys]? = none → gives b) ∧
      (∀ g l, (b.tetherLanes t)[phys]? = some (g, l) →
        let m := (b.tetherLanes t).length
        ((b.lane g l).own < 6 → gives b) ∧
        (6 ≤ (b.lane g l).own → ∀ u, (ok = true → u = b) → (ok = false → u = b.laneErr g l 1) →
          ((u.lane g l).own ≠ 7 → gives u) ∧
          ((u.lane g l).own = 7 → 4 * 2 ^ width = m ∧ lane < m → gives ((u.wrF (Reg.laneStat g l) 27 24 lane).setLane g l { u.lane g l with marked := some lane })) ∧
          ((u.lane g l).own = 7 → ¬ (4 * 2 ^ width = m ∧ lane < m) → gives (u.setLane g l { u.lane g l with marked := none }))))) ∧
    (let gives := fun (r : State) => exec (.tetherMarkerSend t) s = .next (after s r)
     let m := (b.tetherLanes t).length
     (m = 0 → gives b) ∧
     (m ≠ 0 →
       let r := b.free (2 ^ 18)
       let i := idleBlocks t m r.1 (b.tlink t).line
       let q := idleBlocks t m ((m - i.1.blk) % m) i.1
       let row := markerRow t m (match m with | 4 => 0 | 8 => 1 | _ => 2) (b.rdF (Reg.fhmTlTlId t) 15 0) m 0 q.1
       gives ((r.2.setTlink t { b.tlink t with line := row.1 }).emit (.tether t row.2.1 (i.2 ++ q.2 ++ row.2.2))))) ∧
    (∀ v : Word, exec (.tetherReqPiWrite t v) s = .next (after s ((State.takeEntries 65536 (b.wr (Reg.fhmTlPi t) (v.toNat % 65536)) t).pump pumpFuel t))) ∧
    (∀ (w : State) (f : Nat),
      State.takeEntries 0 w t = w ∧ ((w.tlink t).taken = w.rdF (Reg.fhmTlPi t) 15 0 → State.takeEntries f w t = w) ∧
      (∀ e u, (w.tlink t).taken ≠ w.rdF (Reg.fhmTlPi t) 15 0 → w.readEntry t (w.tlink t).taken = (e, u) →
        State.takeEntries (f + 1) w t = State.takeEntries f (u.setTlink t { w.tlink t with entries := (w.tlink t).entries ++ [e], taken := ((w.tlink t).taken + 1) % 65536 }) t)) ∧
    (let gives := fun (r : State) => exec (.tetherEntryComplete t) s = .next (after s r)
     (x.entries = [] → gives b) ∧
     (∀ e rest, x.entries = e :: rest →
       (entryDone x e = none → gives b) ∧
       (∀ st, entryDone x e = some st →
         let u := ((b.busWrite b.tetherInit (b.tentryAt t e.idx + 35) (leBytes 1 st ++ leBytes 4 e.done)).2.setTlink t { x with entries := rest }).wr (Reg.fhmTlCi t) ((e.idx + 1) % 65536)
         (e.lgrp < 16384 → gives (u.post e.lgrp (2 ^ (e.lflag % 32)))) ∧ (16384 ≤ e.lgrp → gives u))))

/-- An OFFSET write is a sample where the source is OFFSET and the servo is on: one above STEP_NS steps the counter and starts
acquisition, any other steers and makes R372's transition. A read of TIME_NS latches the other halves. An enabled edge is
stamped while the FIFO has room, counted as lost when it has none and as ignored within 100 ns of the one before. An output ends
its pulse or starts the next one, held back by QUAL outside LOCKED and HOLDOVER. A timing frame records the crystal's phase and
measures its period. A timeline is armed in LOCKED only and disarmed at once; boundaries fire the rules of their kind, each once
and in order, at their time, in the frames it drives. -/
def Obligations.MeridianTime : Prop :=
  ∀ (s : State), s.pwr.up = true →
    let b := begin s
    (∀ i (v : Word), i < 4 →
      let gives := fun (t : State) => exec (.servoSample i v) s = .next (after s t)
      let u := (b.takeLo (.ctl i) Reg.mrdOffsetLo).wr Reg.mrdOffsetHi v.toNat
      let θ := sx 64 (u.rdPair Reg.mrdOffsetLo Reg.mrdOffsetHi)
      let c := (u.count Reg.mrdSamples 1).tally 8 0 0 1
      let d : State := { c with mrd := { c.mrd with theta := θ } }
      let e := d.extreme 8 0 2 max u.thetaNs.natAbs d.thetaNs.natAbs
      (u.rdF Reg.mrdServo 3 0 ≠ 1 ∨ u.servoOn = false → gives u) ∧
      (u.rdF Reg.mrdServo 3 0 = 1 → u.servoOn = true →
        (e.rd Reg.mrdStepNs * 65536 < θ.natAbs → gives (((e.stepBy (-θ)).setGood 0).toTime 1 2)) ∧
        (θ.natAbs ≤ e.rd Reg.mrdStepNs * 65536 → gives ((e.steer θ).sampleState θ)))) ∧
    (∀ (w : State) (θ : Int),
      let good := w.rdF Reg.mrdState 15 8
      (w.mrdState = 1 → (w.rdF Reg.mrdLock 23 16 ≤ good → w.sampleState θ = w.toTime 2 0) ∧ (good < w.rdF Reg.mrdLock 23 16 → w.sampleState θ = w)) ∧
      (w.mrdState = 2 →
        (w.rd Reg.mrdUnlockNs * 65536 < θ.natAbs → w.sampleState θ = w.toTime 1 1) ∧
        (θ.natAbs ≤ w.rd Reg.mrdUnlockNs * 65536 →
          w.sampleState θ = ({ w with mrd := { w.mrd with window := (w.clockNs, sx 32 (w.rd Reg.mrdFreq)) :: w.mrd.window } } : State).favg.2)) ∧
      (w.mrdState = 3 ∨ w.mrdState = 4 → w.sampleState θ = w.toTime 1 7) ∧ (w.mrdState = 0 ∨ 5 ≤ w.mrdState → w.sampleState θ = w)) ∧
    (b.rdF Reg.mrdHold 15 0 ≠ 0 → b.mrdState = 1 ∨ b.mrdState = 2 → exec .sampleTimeout s = .next (after s (b.toTime 3 3))) ∧
    (b.rdF Reg.mrdHold 15 0 = 0 ∨ (b.mrdState ≠ 1 ∧ b.mrdState ≠ 2) → exec .sampleTimeout s = .next (after s b)) ∧
    (∀ i, i.wf = true →
      let r := timeRegs b.mrd.time
      exec (.mrdTimeRead i) s =
        .next (after s ((b.setPair i { b.pair i with time := [(Reg.mrdTimeSLo, BitVec.ofNat 32 r.2.1), (Reg.mrdTimeSHi, BitVec.ofNat 32 r.2.2.1), (Reg.mrdTimeFr, BitVec.ofNat 32 r.2.2.2)] }).emit (.value r.1)))) ∧
    (∀ n rising, n < 8 →
      let gives := fun (t : State) => exec (.tsInEdge n rising) s = .next (after s t)
      let last := mget (fun _ => 0) b.mrd.lastEdge n
      let u : State := { b with mrd := { b.mrd with lastEdge := mput (fun _ => 0) b.mrd.lastEdge n (b.clockNs + 1) } }
      let l := u.stamps n
      let on := b.rdB (Reg.mrdCapCtrl n) (if rising then 30 else 31)
      (on = false → gives b) ∧
      (on = true → last ≠ 0 → b.clockNs + 1 < last + 100 → gives (u.capCount n 31 16)) ∧
      (on = true → last = 0 ∨ last + 100 ≤ b.clockNs + 1 →
        (16 ≤ l.length → gives ((u.capCount n 15 0).stampSample n)) ∧
        (l.length < 16 →
          let w := u.setStamps n (l ++ [u.mrd.time / 65536])
          (w.rdB (Reg.mrdCapCtrl n) 29 = false → gives (w.stampSample n)) ∧
          (w.rdB (Reg.mrdCapCtrl n) 29 = true → gives ((w.post (w.rdF (Reg.mrdCapCtrl n) 21 8) (2 ^ w.rdF (Reg.mrdCapCtrl n) 28 24)).stampSample n)))) ∧
      exec (.capPop n) s = .next (after s (b.setStamps n ((b.stamps n).drop 1)))) ∧
    (∀ (w : State) n,
      let last := mget (fun _ => 0) w.mrd.lastCap n
      let sampled := w.rdF Reg.mrdServo 3 0 = 8 + n ∧ (last = 0 ∨ last + 500000000 ≤ w.clockNs + 1)
      (¬ sampled → w.stampSample n = w) ∧
      (sampled →
        let x : State := { w with mrd := { w.mrd with lastCap := mput (fun _ => 0) w.mrd.lastCap n (w.clockNs + 1) } }
        w.stampSample n = x.sample (foldSecond x.taiN (sx 32 (x.rd (Reg.mrdCapOfs n))) * 65536))) ∧
    (∀ m, m < 4 →
      let gives := fun (t : State) => exec (.tsOutEdge m) s = .next (after s t)
      let p := b.pulse m
      (∀ e level, p.fall = some (e, level) → gives (((b.until (e * 65536)).setPulse m { p with fall := none }).emit (.tsOut m level e))) ∧
      (p.fall = none → p.mode = 0 ∨ (p.mode = 2 ∧ p.next ≠ 0) → gives b) ∧
      (p.fall = none → p.mode ≠ 0 → (p.mode ≠ 2 ∨ p.next = 0) →
        let u := b.until (p.edge p.next)
        let q := { p with next := p.next + 1 }
        let held := p.qual = true ∧ u.mrdState ≠ 2 ∧ u.mrdState ≠ 3
        let fits := p.inRange = true ∨ (p.mode = 2 ∧ 8 ≤ p.width)
        (held → gives (u.setPulse m q)) ∧
        (¬ held → fits → gives ((u.setPulse m { q with fall := some (p.edge p.next / 65536 + p.width * 65536, p.pol) }).emit (.tsOut m (!p.pol) (p.edge p.next / 65536)))) ∧
        (¬ held → ¬ fits → gives (((u.free (2 ^ 96)).2.setPulse m { q with fall := some ((u.free (2 ^ 96)).1 + p.width * 65536, p.pol) }).emit (.tsOut m (!p.pol) (u.free (2 ^ 96)).1))))) ∧
    (let gives := fun (t : State) => exec .timingFrame s = .next (after s t)
     let x := b.nw.ticks * xtalUnit + b.nw.sub
     let y := b.nw.tstopTick * xtalUnit + b.nw.tstopSub
     let rec' := fun (period : Nat) => { b with nw := { b.nw with tstop := b.mrd.time, tstopTick := b.nw.ticks, tstopSub := b.nw.sub, period := period } }
     (b.nw.link = false ∨ b.nw.xtal = false ∨ b.mrd.run = false → gives b) ∧
     (b.nw.link = true → b.nw.xtal = true → b.mrd.run = true →
       (y < x ∧ b.nw.tstop < b.mrd.time ∧ b.nw.tstop ≠ 0 → gives (rec' ((b.mrd.time - b.nw.tstop) * xtalUnit / (x - y)))) ∧
       (¬ (y < x ∧ b.nw.tstop < b.mrd.time ∧ b.nw.tstop ≠ 0) → gives (rec' b.nw.period)))) ∧
    (∀ c (v : Word), c < 384 → exec (.timelineArm c v) s = .next (after s (b.tlCtrlWrite c v.toNat)) ∧ exec (.timelineDisarm c v) s = .next (after s (b.tlCtrlWrite c v.toNat))) ∧
    (∀ (w x y : State) (c m : Nat),
      (tb m 30 = true → x = (w.tlSnapshot c).wrF (Reg.mrdTlCtrl c) 30 30 0) → (tb m 30 = false → x = w.tlSnapshot c) →
      (w.armed c = true → y = x.wrF (Reg.mrdTlCtrl c) 14 8 (fld m 14 8)) → (w.armed c = false → y = (x.wrF (Reg.mrdTlCtrl c) 14 8 (fld m 14 8)).wrF (Reg.mrdTlCtrl c) 1 0 (m % 4)) →
      (tb m 31 = false → w.tlCtrlWrite c m = y.disarm c) ∧ (tb m 31 = true → w.armed c = true → w.tlCtrlWrite c m = y) ∧
      (tb m 31 = true → w.armed c = false → (y.mrdState = 2 → w.tlCtrlWrite c m = y.armTl c) ∧ (y.mrdState ≠ 2 → w.tlCtrlWrite c m = y.wrF (Reg.mrdTlCtrl c) 30 30 1))) ∧
    (∀ c r k, c < 384 → r < 8 →
      let t := b.tl c
      let fires := fun (kind : Nat) (i : Instr) =>
        let sl := b.ruleSlot c kind k
        let f := sl / slotsPerFrame (b.tlMu c)
        let cfg := b.tlRd c f (Reg.mrdTlRuleCfg c r)
        let at' := b.ruleTime c r kind k
        let hit := b.armed c = true ∧ fld cfg 31 29 = kind ∧ t.fromFrame ≤ f ∧ mget (fun _ => 0) t.fired r ≤ k ∧ (fld cfg 28 27 = 1 → b.slotUl c sl = true) ∧ (fld cfg 28 27 = 2 → b.slotDl c sl = true) ∧
          t.last.1 ≤ at' ∧ (at' = t.last.1 → t.last.2 ≤ r)
        (hit → exec i s = .next (after s (((b.until at').setTl c { t with fired := mput (fun _ => 0) t.fired r (k + 1), last := (at', r) }).ruleEffect c r kind k))) ∧
        (¬ hit → exec i s = .next (after s b))
      fires 1 (.symbol c r k) ∧ fires 2 (.slot c r k) ∧ fires 3 (.frame c r k) ∧ fires 4 (.gap c r k)) ∧
    (∀ (w : State) c r k kind,
      let sl := w.ruleSlot c kind k
      let f := sl / slotsPerFrame (w.tlMu c)
      let cfg := w.tlRd c f (Reg.mrdTlRuleCfg c r)
      let mask := w.tlRd c f (Reg.mrdTlRuleDmcmask c r) % 64
      (kind = 4 → w.ruleEffect c r kind k = (w.emit (.gap mask)).offerGap mask) ∧
      (kind ≠ 4 → w.ruleEffect c r kind k = ((w.tally 8 0 5 1).hist 8 0 0 ((w.mrd.time - w.ruleTime c r kind k) / 2 ^ 32)).post
        ((fld cfg 21 8 + w.slotIndex c sl % 2 ^ min 6 (fld cfg 26 24)) % 16384) (2 ^ (if kind = 1 then k % 14 else fld cfg 4 0))))

/-- A clock edge with FMHZ = 0 does nothing; any other latches the pins, lets the guard act, writes U0, U1 and a registered Q of
every cell of a running region from the values before the edge, ends the responses shown and steps the holds and the job in
progress: a release takes its regions one stage up, a hold one stage down. Configuration bytes are written by a control core in
LOADING regions, and refused elsewhere. A contended trunk is disabled and counted, the first recorded. An uncorrectable
configuration word, or a supply that no longer matches, holds the regions. Streaming, event, memory and submit ports act as
their rules say. GO begins a release or a hold of the regions that it applies to, unless an operation is in progress. -/
def Obligations.FabricData : Prop :=
  ∀ (s : State), s.pwr.up = true →
    let b := begin s
    (∀ pins,
      let gives := fun (t : State) => exec (.fabricClockEdge pins) s = .next (after s t)
      let now := ({ b with trl := { b.trl with pins := pins % 2 ^ 96 } } : State).guardAll
      let c := now.framed.foldl (fun t e => t.cellEdge now e.1 e.2) now
      let m := (List.range 256).foldl (fun t n => t.bmEdge now n) c
      let p := ((List.range 32).foldl (fun t n => t.spEdge now n) m).trunkEdge now
      let t := ({ p with trl := { p.trl with resp := [], subAck := none, notReady := [] } } : State).forcedEdge.jobEdge
      (b.rdF Reg.trlStat 15 0 = 0 → gives b) ∧
      (b.rdF Reg.trlStat 15 0 ≠ 0 →
        (((List.range 8).any fun g => t.outsOn g) = true → gives (t.emit (.pins t.pinsOut.1 t.pinsOut.2))) ∧ (((List.range 8).any fun g => t.outsOn g) = false → gives t))) ∧
    (∀ (w now : State) c r,
      let key := cellKey c r
      let e := now.cellWord c r (now.sig sigDepth (.ctx c r))
      let v : BitVec 16 := BitVec.ofNat 16 (now.sig sigDepth (.res c r))
      let x := w.cellEdge now c r
      (now.runs (regionOf c) = false → x = w) ∧
      (now.runs (regionOf c) = true →
        (tb e 20 = true → x.trl.u0 = mput (fun _ => BitVec.ofNat 16 (now.cellWord c r 10 / 2 ^ 0)) w.trl.u0 key v) ∧ (tb e 20 = false → x.trl.u0 = w.trl.u0) ∧
        (tb e 19 = true → x.trl.u1 = mput (fun _ => BitVec.ofNat 16 (now.cellWord c r 10 / 2 ^ 16)) w.trl.u1 key v) ∧ (tb e 19 = false → x.trl.u1 = w.trl.u1) ∧
        (tb e 18 = true → x.trl.q = mput (fun _ => BitVec.ofNat 16 (now.cellWord c r 11 / 2 ^ 0)) w.trl.q key v) ∧ (tb e 18 = false → x.trl.q = w.trl.q) ∧
        x = { w with trl := { w.trl with u0 := x.trl.u0, u1 := x.trl.u1, q := x.trl.q, seq := x.trl.seq } })) ∧
    (∀ (w : State),
      (w.trl.job = none → w.jobEdge = w) ∧
      (∀ j, w.trl.job = some j →
        (1 < j.count → w.jobEdge = w.setJob (some { j with count := j.count - 1 })) ∧ (j.count ≤ 1 → j.loading = true → w.jobEdge = w.jobDone j) ∧
        (j.count ≤ 1 → j.loading = false → ∀ x,
          x = (regions j.mask).foldl (fun s g => if s.trl.forced.any (fun e => e.1 == g) then s else if j.hold then s.holdStep g else s.releaseStep g) w →
          (x.jobOver j = true → w.jobEdge = x.jobDone j) ∧ (x.jobOver j = false → w.jobEdge = x.setJob (some { j with count := j.gap })))) ∧
      (∀ g,
        (w.regionSt g = 2 → w.releaseStep g = (w.unfence g).setRegion g 3 ∧ w.holdStep g = w) ∧
        (w.regionSt g = 3 → w.releaseStep g = w.setRegion g 4 ∧ w.holdStep g = (w.fenceRegion g).setRegion g 2) ∧
        (w.regionSt g = 4 → w.releaseStep g = w.setRegion g 5) ∧ (w.regionSt g = 5 → w.releaseStep g = w ∧ w.holdStep g = (w.regionReset g).setRegion g 4) ∧
        (w.regionSt g < 2 → w.releaseStep g = w ∧ w.holdStep g = w))) ∧
    (∀ (i : Init) addr size v, i.wf = true →
      let gives := fun (t : State) => exec (.trellisConfigWrite i addr size v) s = .next (after s t)
      ((∀ off, locate addr ≠ .trlCfg off) → gives b) ∧
      (∀ off, locate addr = .trlCfg off → ∀ ok t, b.configWrite i off (leBytes (size % 65) v) = (ok, t) →
        (ok = true → gives t) ∧ (ok = false → gives ((b.aerr i 4 true false addr).emit .error)))) ∧
    (∀ (w : State) (i : Init) off (bs : List Byte),
      let fit := (∃ k, i = .ctl k) ∧ bs ≠ [] ∧ off + bs.length ≤ 0x100000 ∧ w.regionSt (off / 0x20000) = 1 ∧ w.regionSt ((off + bs.length - 1) / 0x20000) = 1
      (¬ fit → w.configWrite i off bs = (false, w)) ∧
      (fit → w.configWrite i off bs = (true, (List.range bs.length).foldl (fun s k =>
        let a := off + k
        let x := mget (fun _ => (0 : Word)) s.trl.frames (a / 4)
        { s with trl := { s.trl with frames := mput (fun _ => 0) s.trl.frames (a / 4) (BitVec.ofNat 32 (setFld x.toNat (a % 4 * 8 + 7) (a % 4 * 8) (bs.getD k 0).toNat)) } }) w))) ∧
    (∀ row trunk, row < 256 → trunk < 32 →
      let gives := fun (t : State) => exec (.trunkContention row trunk) s = .next (after s t)
      let n := row * 32 + trunk
      let c := ({ b with trl := { b.trl with tapsOff := sins b.trl.tapsOff n } } : State).count Reg.trlGuardCnt 1
      (b.trl.tapsOff.contains n = true ∨ (b.tapsOn n).length < 2 → gives b) ∧
      (b.trl.tapsOff.contains n = false → 2 ≤ (b.tapsOn n).length →
        (c.rdB Reg.trlGuard 31 = true → gives (c.wrF Reg.trlGuard 30 30 1)) ∧
        (c.rdB Reg.trlGuard 31 = false → gives ((c.wr Reg.trlGuard (2 ^ 31 + c.rdF Reg.trlGuard 30 30 * 2 ^ 30 + n / 32 * 256 + n % 32)).wr Reg.trlGuardTime c.now32)))) ∧
    (∀ g addr, g < 8 →
      let gives := fun (t : State) => exec (.configStoreUe g addr) s = .next (after s t)
      let off := g * 0x20000 + addr % 0x20000
      let h := (b.holdNow (2 ^ g)).wrF Reg.trlStat 30 30 1
      let u := ({ h with trl := { h.trl with cfgBad := sins h.trl.cfgBad g } } : State).ueRecord false 12 g off
      let taken := u.unitPending 11 (off / 0x4000) = true ∨ u.unitOut 11 (off / 0x4000) = true
      (b.regionSt g = 0 → gives b) ∧
      (b.regionSt g ≠ 0 → (taken → gives u) ∧ (¬ taken → gives (u.pend { kind := 11, unit := off / 0x4000, reason := 1, degrade := false, redisp := 0 })))) ∧
    (∀ v, v < 3 →
      let gives := fun (t : State) => exec (.vioMismatch v) s = .next (after s t)
      let u := ({ b with pwr := { b.pwr with vioV := v } } : State).wrF Reg.trlStat 25 24 v
      (u.vioBad = true → gives (u.holdNow 255)) ∧ (u.vioBad = false → gives u)) ∧
    (∀ sp (w : BitVec 64), sp < 32 →
      let gives := fun (t : State) => exec (.streamWordRx sp w) s = .next (after s t)
      (b.spLane sp = none → gives b) ∧
      (∀ g l, b.spLane sp = some (g, l) →
        let x := b.lane g l
        let clocked := b.laneMode g l = 6 ∧ b.laneLive g l = true ∧ 4 ≤ x.own ∧ x.cdr = true
        let u := b.wrF (Reg.laneRawctl g l) 31 31 0
        let rx := mget (fun _ => []) u.trl.rx sp
        (¬ clocked → gives b) ∧ (clocked → x.skip = true → gives (b.setLane g l { x with skip := false })) ∧
        (clocked → x.skip = false →
          (64 ≤ rx.length → gives (u.count (Reg.trlSpOvf sp) 1)) ∧
          (rx.length < 64 → gives { u with trl := { u.trl with rx := mput (fun _ => []) u.trl.rx sp (rx ++ [if u.rdB (Reg.laneCtrl g l) 3 then ~~~w else w]) } })))) ∧
    (∀ sp, sp < 32 →
      let gives := fun (t : State) => exec (.streamWordTx sp) s = .next (after s t)
      (b.spLane sp = none → gives b) ∧
      (∀ g l, b.spLane sp = some (g, l) →
        let sends := b.laneMode g l = 6 ∧ b.laneLive g l = true ∧ 3 ≤ (b.lane g l).own ∧ b.rdB (Reg.laneCtrl g l) 0 = false
        let tx := mget (fun _ => []) b.trl.tx sp
        (¬ sends → gives b) ∧
        (sends → gives (({ b with trl := { b.trl with tx := mput (fun _ => []) b.trl.tx sp (tx.drop 1) } } : State).emit (.rawWord sp (if b.rdB (Reg.laneCtrl g l) 4 then ~~~(tx.headD 0) else tx.headD 0)))))) ∧
    (∀ e ready, e < 8 →
      let gives := fun (t : State) => exec (.eventPortStrobe e ready) s = .next (after s t)
      let u : State := { b with trl := { b.trl with notReady := if ready then sdel b.trl.notReady e else sins b.trl.notReady e } }
      let strobe := u.wesOpen e = true ∧ u.cellQ (8 * e + 7) 128 % 2 ≠ 0
      (¬ strobe → gives u) ∧ (strobe → ready = false → gives (u.count Reg.trlEvdrop 1)) ∧
      (strobe → ready = true → gives (u.post (u.rdF (Reg.trlEvp e) 13 0) (u.cellQ (8 * e + 7) 129 + u.cellQ (8 * e + 7) 130 * 65536)))) ∧
    (∀ d ready, d < 4 →
      let gives := fun (t : State) => exec (.memPortRequest d ready) s = .next (after s t)
      let u : State := { b with trl := { b.trl with notReady := if ready then sdel b.trl.notReady (8 + d) else sins b.trl.notReady (8 + d) } }
      let taken := ready = true ∧ u.wesOpen (2 * d) = true ∧ u.cellQ (16 * d + 7) 192 % 2 ≠ 0 ∧ (u.portReqs d).length < 16
      (taken → gives (u.setPortReqs d (u.portReqs d ++ [u.portRequest d]))) ∧ (¬ taken → gives u)) ∧
    (∀ d, d < 4 →
      let gives := fun (t : State) => exec (.memPortResponse d) s = .next (after s t)
      (b.portReqs d = [] ∨ b.dpResp d ≠ none → gives b) ∧
      (∀ q qs, b.portReqs d = q :: qs → b.dpResp d = none →
        (b.dramWaits q.write q.addr q.size = true → gives b) ∧
        (b.dramWaits q.write q.addr q.size = false → ∀ r v, (b.setPortReqs d qs).memPortDo d q = (r, v) →
          (q.discard = true → gives v) ∧ (q.discard = false → gives { v with trl := { v.trl with resp := mput (fun _ => none) v.trl.resp d (some r) } })))) ∧
    (∀ (w : State) d q,
      (q.write = false → ∀ r v, w.devRead .trl q.addr q.size = (r, v) →
        (∀ bs, r = .ok bs → w.memPortDo d q = ((ofLe bs, false), v)) ∧ (∀ e, r = .err e → w.memPortDo d q = ((0, true), v.portError d q.addr))) ∧
      (q.write = true → inCsr q.addr = true → w.memPortDo d q = ((2 ^ 64, true), (w.aerr .trl (if q.size = 4 then 4 else 2) true false q.addr).portError d q.addr)) ∧
      (q.write = true → inCsr q.addr = false → ∀ r v, w.devWrite .trl q.addr q.data = (r, v) →
        (r = .ok → w.memPortDo d q = ((2 ^ 64, false), v)) ∧ (∀ e, r = .err e → w.memPortDo d q = ((2 ^ 64, true), v.portError d q.addr)))) ∧
    (let gives := fun (t : State) => exec .submitPortStrobe s = .next (after s t)
     let a := b.cellQ 63 137 + b.cellQ 63 138 * 65536 + b.cellQ 63 139 * 2 ^ 32
     let strobe := b.wesOpen 7 = true ∧ b.cellQ 63 136 % 2 ≠ 0 ∧ b.trl.subHeld = false ∧ b.trl.subAck = none
     (¬ strobe ∨ b.dramWaits false a 32 = true → gives b) ∧
     (strobe → b.dramWaits false a 32 = false → ∀ r u, b.busRead .trl a 32 = (r, u) →
       (∀ bs, r = .ok bs → gives (({ u with trl := { u.trl with subHeld := true } } : State).hold .trellis (wordsOf bs) false)) ∧ ((∀ bs, r ≠ .ok bs) → gives u))) ∧
    (∀ i (v : Word), i < 4 →
      let gives := fun (t : State) => exec (.trlRelGo i v) s = .next (after s t)
      let u := b.wr Reg.trlRel (b.rdF Reg.trlRel 30 30 * 2 ^ 30 + fld v.toNat 29 29 * 2 ^ 29 + fld v.toNat 23 16 * 2 ^ 16 + v.toNat % 65536)
      (tb v.toNat 31 = false ∨ u.trl.job.isSome = true → gives u) ∧
      (tb v.toNat 31 = true → u.trl.job.isSome = false → ∀ mask,
        mask = (regions (fld v.toNat 23 16)).foldl (fun m g =>
          if (if tb v.toNat 29 then decide (3 ≤ u.regionSt g) else decide (2 ≤ u.regionSt g) && !u.noRelease g && !u.trl.forced.any fun e => e.1 == g) then m + 2 ^ g else m) 0 →
        (mask = 0 → gives u) ∧
        (mask ≠ 0 → gives (u.startJob { mask := mask, hold := tb v.toNat 29, gap := gapOf (v.toNat % 65536), count := 1, image := [], loading := false, autorel := none, unload := false }))))

/-- Setting MODE to SHIELD wakes the clusters and shows BUSY, and READY sets REDISP where it ends a change; setting CONSOLIDATE
leaves cluster 0 and the pinned homes active. EFF is B plus 32 for each queued task, at most 255; a cluster below PACK_LO for
longer than IDLE_US leaves the active set, or is a conflict where a pin holds it. A task that may move keeps its stamp and its
flow's HOME moves. A prestage's end queues its task or faults it. SLACK below 10 ps stretches the clock and raises the target by
25 mV, up to 880 mV; the stretch ends from 40 ps on. A voltage step measures the aging (free values), and moves the target 5 mV,
or the frequency 100 MHz, by SLACK; a lowered frequency returns only while nothing throttles it and AVSBus commands are
acknowledged. RETIRE_WEAR begins a retirement where the measures have reached their threshold and a spare is free, and degrades
the unit where none is; DRAIN_TIMEOUT is a unit fault of a unit that is pending; REMAP gives a unit that holds no task to the
spare proposed where it is free, else to the first free one, else takes it out of service or degrades it. A scheduler-store
error faults the task and marks its row; both copies put the store out of use. -/
def Obligations.HeadroomAndSpares : Prop :=
  ∀ (s : State), s.pwr.up = true →
    let b := begin s
    (∀ i (v : Word), i < 4 →
      let gives := fun (t : State) => exec (.hctrlModeWrite i v) s = .next (after s t)
      let w := b.setMode (v.toNat % 2)
      (w.rsv.target = some 0 ∧ w.mode = 0 → gives w.endChange) ∧ (¬(w.rsv.target = some 0 ∧ w.mode = 0) → gives w)) ∧
    (∀ (w : State) m,
      let up := (w.wrF Reg.rsvHctrl 0 0 1).wrF Reg.rsvHctrl 30 30 1
      let dn := ((w.wrF Reg.rsvHctrl 0 0 0).wrF Reg.rsvHctrl 30 30 0).wrF Reg.rsvHctrl 31 31 0
      (w.mode = m → w.setMode m = w) ∧ (w.mode ≠ m → m = 1 → w.setMode m = up.clusters.foldl (fun s c => s.wakeCluster c) up) ∧
      (w.mode ≠ m → m ≠ 1 → w.setMode m = { dn with rsv := { dn.rsv with active := 0 :: ((List.range 11).map (· + 1)).filter dn.pinnedHome, lowSince := [] } })) ∧
    (let gives := fun (t : State) => exec .shieldReady s = .next (after s t)
     let u := (b.wrF Reg.rsvHctrl 30 30 0).wrF Reg.rsvHctrl 31 31 1
     (b.mode = 1 → b.rdB Reg.rsvHctrl 30 = true →
       (u.rsv.target = some 1 → gives (u.wrF Reg.cmCtrl 8 8 1).endChange) ∧ (u.rsv.target ≠ some 1 → gives u)) ∧
     (b.mode ≠ 1 ∨ b.rdB Reg.rsvHctrl 30 = false → gives b)) ∧
    (∀ busy, exec (.effEvaluate busy) s = .next (after s ((List.range 12).foldl (fun s c => s.evalCluster c (busy.getD c 0)) b))) ∧
    (∀ (w : State) c n,
      let eff := w.effOf c n
      let x := w.showEff c n eff
      (w.rdF (Reg.pwrCl c) 3 0 = 0 → eff = min 255 (n + 32 * w.queuedIn c)) ∧ (w.rdF (Reg.pwrCl c) 3 0 ≠ 0 → eff = 0) ∧
      (x.mode = 1 ∨ c = 0 ∨ x.rsv.active.contains c = false → w.evalCluster c n = x) ∧
      (x.mode ≠ 1 → c ≠ 0 → x.rsv.active.contains c = true → w.evalCluster c n = x.packCluster c eff)) ∧
    (∀ (w : State) c eff,
      let idle := w.rdF Reg.rsvPtime 31 16
      let old := mget (fun _ => 0) w.rsv.lowSince c
      let low := w.lowCount c eff
      let l : State := { w with rsv := { w.rsv with lowSince := mput (fun _ => 0) w.rsv.lowSince c (min low (idle + 1)) } }
      (eff < w.rdF Reg.rsvPlace 15 8 → low = old + 1) ∧ (w.rdF Reg.rsvPlace 15 8 ≤ eff → low = 0) ∧ (low ≤ idle → w.packCluster c eff = l) ∧
      (idle < low → l.pinnedHome c = true → (old ≤ idle → w.packCluster c eff = l.conflict 1 1 c) ∧ (idle < old → w.packCluster c eff = l)) ∧
      (idle < low → l.pinnedHome c = false →
        w.packCluster c eff = { l with rsv := { l.rsv with active := sdel l.rsv.active c, lowSince := mput (fun _ => 0) l.rsv.lowSince c 0 } })) ∧
    (∀ sl d, sl < 131072 → d < 12 →
      let gives := fun (t : State) => exec (.taskMove sl d) s = .next (after s t)
      (b.task? sl = none → gives b) ∧
      (∀ t, b.task? sl = some t →
        (b.mayMove t d = true → gives (((b.setTask sl (some { t with cluster := d })).setHome (dFlow t.words) d).tally 1 d 4 1)) ∧ (b.mayMove t d = false → gives b))) ∧
    (∀ (w : State) t d, w.mayMove t d = true ↔
      t.st = .queued ∧ dClass t.words = 12 ∧ t.cluster ≠ d ∧ (w.flow (dFlow t.words)).pin = false ∧ (w.prestageEntry (dFlow t.words)).1 = none ∧
      t.since + w.rdF Reg.rsvPtime 15 0 * 1000 * 2 ^ 32 < w.cen.clock ∧ (w.mode = 0 → w.rsv.active.contains d = true) ∧ w.rdF (Reg.pwrCl d) 3 0 = 0 ∧
      (∃ k, k < 8 ∧ w.coreIn d k = true ∧ (w.core d k).st = .waiting) ∧
      ∀ e ∈ w.taskList, ¬(e.2.st = .queued ∧ dPrio e.2.words ≤ dPrio t.words ∧ (dClass e.2.words = d ∨ (dClass e.2.words = 12 ∧ e.2.cluster = d)))) ∧
    (∀ sl, sl < 131072 →
      let gives := fun (t : State) => exec (.prestageEnd sl) s = .next (after s t)
      let found := b.rsv.prestage.find? fun p => decide (p.slot = sl) && p.result.isSome
      (found = none → gives b) ∧
      (∀ p, found = some p →
        let x := b.prestageOver p
        (x.task? sl = none → gives x) ∧
        (∀ t, x.task? sl = some t →
          (prestageFor p t = true → p.result = some true → gives (x.enqueue sl t p.cluster)) ∧ (prestageFor p t = true → p.result ≠ some true → gives (x.commit sl 1 0 0xFE)) ∧
          (prestageFor p t = false → gives x)))) ∧
    (∀ (w : State) (p : Prestage),
      let u : State := { w with rsv := { w.rsv with prestage := w.rsv.prestage.filter fun q => decide (q ≠ p) } }
      (p.result = some true → (u.flow p.flow).home = p.cluster → w.prestageOver p = { u with rsv := { u.rsv with staged := u.rsv.staged ++ [(p.flow, p.cluster)] } }) ∧
      (p.result = some true → (u.flow p.flow).home ≠ p.cluster → w.prestageOver p = u) ∧
      (p.result ≠ some true → w.prestageOver p = (u.setHome p.flow 15).tally 1 p.cluster 6 1) ∧
      (∀ t, prestageFor p t = true ↔ t.prestage = true ∧ t.st = .held ∧ dFlow t.words = p.flow)) ∧
    (∀ slack, exec (.slackReport slack) s = .next (after s (b.awake.foldl (fun s c => match slack[c]? with
      | some x => s.slackOne c x
      | none => s) b).followV)) ∧
    (∀ (w : State) c (x : Int),
      let v := w.wr (Reg.rsvVlSlack c) (min 255 x.toNat)
      let e := ((v.wrF (Reg.rsvVlVstat c) 30 30 1).count (Reg.rsvVlEmerg c) 1).tally 1 c 7 1
      (v.rdB (Reg.rsvVlVstat c) 30 = true → (40 ≤ x → w.slackOne c x = v.wrF (Reg.rsvVlVstat c) 30 30 0) ∧ (x < 40 → w.slackOne c x = v)) ∧
      (v.rdB (Reg.rsvVlVstat c) 30 = false → (x < 10 → w.slackOne c x = e.setTarget c (min 880 (e.targetV c + 25))) ∧ (10 ≤ x → w.slackOne c x = v))) ∧
    (∀ (w : State) c n,
      let f := w.fixedV c
      let t := (w.wrF (Reg.rsvVlVstat c) 9 0 n).gauge 1 c 9 n
      (f ≠ 0 ∧ f < n ∧ w.targetV c < n → w.setTarget c n = t.conflict 0 2 c) ∧ (¬(f ≠ 0 ∧ f < n ∧ w.targetV c < n) → w.setTarget c n = t)) ∧
    (exec .voltageStep s = .next (after s (b.awake.foldl (fun s c => s.voltageOne c) b).followV)) ∧
    (∀ (w : State) c,
      let a := w.ageCluster c
      let slack := a.rdF (Reg.rsvVlSlack c) 7 0
      let t := a.targetV c
      let fl := a.floorOf c
      let v := a.wrF (Reg.rsvVlVstat c) 25 16 fl
      let z := v.slower c
      let r := if v.freqOf c < v.wantFreq c ∧ v.mayRaise c = true then v.setFreq c (min (v.wantFreq c) (v.freqOf c + 100)) else v
      (v.mayRaise c = true ↔ v.rdB Reg.sysTemp 31 = false ∧ v.pwr.cooling.contains c = false ∧ v.pwr.avsFail = false) ∧
      (a = ((267 + c) :: (List.range 9).map fun k => c * 9 + k).foldl (fun s u => (s.free 1024).2.wr (Reg.rsvAge u) (s.free 1024).1) w) ∧
      (slack < 40 → t < 880 → w.voltageOne c = v.setTarget c (max fl (min 880 (t + 5)))) ∧
      (slack < 40 → 880 ≤ t → (z.freqOf c < z.wantFreq c → w.voltageOne c = z.conflict 0 3 c) ∧ (z.wantFreq c ≤ z.freqOf c → w.voltageOne c = z)) ∧
      (40 ≤ slack → t < fl → w.voltageOne c = v.setTarget c fl) ∧ (40 ≤ slack → slack ≤ 70 → fl ≤ t → w.voltageOne c = v) ∧
      (70 < slack → fl ≤ t → (r.fixedV c = 0 ∧ fl < t → w.voltageOne c = r.setTarget c (max fl (t - 5))) ∧ (¬(r.fixedV c = 0 ∧ fl < t) → w.voltageOne c = r))) ∧
    (∀ i c (v : Word), i < 4 → c < 12 → exec (.choldClear i c v) s = .next (after s (b.wr (Reg.rsvChold c) (fld (b.rd (Reg.rsvChold c) &&& (2 ^ 32 - 1 - v.toNat)) 7 0)))) ∧
    (∀ kind unit, kind < 14 →
      let gives := fun (t : State) => exec (.retireWear kind unit) s = .next (after s t)
      let row := locate unit = .dram ∧ unit < dramBase + b.dramCap ∧ b.rowListed unit = false ∧ b.worn 12 unit = true
      let m := b.measureAge kind unit
      (kind = 12 → (row → gives (b.retireRow unit 0)) ∧ (¬ row → gives b)) ∧
      (kind = 0 → 96 ≤ unit → unit < 108 → gives (b.degrade 0 unit)) ∧
      (kind ≠ 12 → ¬(kind = 0 ∧ 96 ≤ unit ∧ unit < 108) →
        (kindHas kind unit = false ∨ b.unitPending kind unit = true ∨ b.unitOut kind unit = true → gives b) ∧
        (kindHas kind unit = true → b.unitPending kind unit = false → b.unitOut kind unit = false →
          (m.worn kind unit = false → gives m) ∧
          (m.worn kind unit = true → (kind = 13 → gives (m.markRow unit 0)) ∧
            (kind ≠ 13 → (m.spareFor kind unit = none → gives (m.degrade kind unit)) ∧
              (∀ sp, m.spareFor kind unit = some sp →
                let u := m.pend { kind := kind, unit := unit, reason := 0, degrade := false, redisp := 0 }
                (kind = 2 → gives (u.startCopy unit sp)) ∧ (kind ≠ 2 → gives u))))))) ∧
    (∀ (w : State) kind unit,
      let th := w.rdF Reg.rsvThrAge 9 0
      (w.ageIndex kind unit = none → w.measureAge kind unit = w) ∧
      (∀ n, w.ageIndex kind unit = some n →
        (w.worn kind unit = true → w.measureAge kind unit = w) ∧
        (w.worn kind unit = false → ∀ r v, w.free (1024 - th) = (r, v) → w.measureAge kind unit = v.wr (Reg.rsvAge n) (th + r)))) ∧
    (∀ kind unit, kind < 14 →
      let gives := fun (t : State) => exec (.drainTimeout kind unit) s = .next (after s t)
      (kindUnit kind unit = none ∨ kindHas kind unit = false ∨ b.unitPending kind unit = false → gives b) ∧
      (∀ u, kindUnit kind unit = some u → kindHas kind unit = true → b.unitPending kind unit = true → gives (b.unitFault u 0x20 true))) ∧
    (∀ kind unit sp, kind < 14 →
      let gives := fun (t : State) => exec (.remap kind unit sp) s = .next (after s t)
      let found := b.rsv.retiring.find? fun r => r.kind == kind && r.unit == unit
      (found = none → gives b) ∧
      (∀ r, found = some r →
        (kind = 13 → gives (b.swapRow unit)) ∧ (kind = 3 → gives (b.remapLane r)) ∧
        (kind ≠ 13 → kind ≠ 3 →
          (kindUnit kind unit = none → gives b) ∧
          (∀ u, kindUnit kind unit = some u →
            (b.holdsNone u = false → gives b) ∧
            (b.holdsNone u = true → ∀ pick,
              ((sparesFor kind unit).contains sp = true ∧ b.spareFree kind sp = true → pick = some sp) →
              (¬((sparesFor kind unit).contains sp = true ∧ b.spareFree kind sp = true) → pick = b.spareFor kind unit) →
              (∀ q, pick = some q → gives ((b.onSpare u q).spareTaken kind r.reason unit (b.physOf kind unit) q r.redisp)) ∧
              (pick = none → (r.reason = 1 ∨ r.degrade = true → gives (b.takeOut kind unit)) ∧ (¬(r.reason = 1 ∨ r.degrade = true) → gives (b.degrade kind unit)))))))) ∧
    (∀ sl row, sl < 131072 →
      let lost := (b.ueRecord false 4 0 0).wrF Reg.cmCtrl 0 0 0
      let gives := fun (t : State) => exec (.schedStoreUe sl row true) s = .next (after s { t with rsv := { t.rsv with storeOut := true } })
      exec (.schedStoreUe sl row false) s = .next (after s ((b.storeFault sl).markRow (sl / 64) 1)) ∧
      (row < 2048 → lost.unitOut 13 row = false → gives (lost.markRow row 1)) ∧ (2048 ≤ row ∨ lost.unitOut 13 row = true → gives lost)) ∧
    (∀ (w : State) sl,
      (w.task? sl = none → w.storeFault sl = w) ∧
      (∀ t, w.task? sl = some t →
        (t.st = .running → (∀ u, t.unit = some u → w.storeFault sl = (w.commitRunning sl 1 1 0xFD).stopUnit sl u) ∧ (t.unit = none → w.storeFault sl = w.commit sl 1 1 0xFD)) ∧
        (t.st = .ending → w.storeFault sl = w.commitRunning sl 1 1 0xFD) ∧ (t.st = .stopping ∨ t.st = .recorded → w.storeFault sl = w) ∧
        (t.st = .waiting ∨ t.st = .held ∨ t.st = .queued → w.storeFault sl = w.commit sl 1 0 0xFD)))

/-- A cluster that may sleep enters SLEEP with EFF 0, and an IDLE engine does where ESLEEP is not 0 and nothing holds it; each wakes
again. A reset through PWR.RST shows its KIND and unit, is told to the outside and is performed unless one is in progress; an
out-of-service unit is left alone, a running task ends as on a unit fault, and the unit is cleared. A payload cold or warm reset
in RUN asserts the reset, the rails left on, and begins the memory stage; elsewhere it does nothing. The loss of REFCLK_A where
the main PLL runs is a fall-back to REFCLK_B. A second AVSBus failure is a conflict and slows the clusters that are awake. An
undervoltage and the limit of 120 °C assert the payload resets and clear payload alive. Throttling slows every cluster that is
awake by 100 MHz with a conflict, from 108 °C until the reading has fallen to 105 °C; its frequency may return once the reading
is at or below 100 °C. -/
def Obligations.SleepAndResets : Prop :=
  ∀ (s : State),
    let b := begin s
    exec .refclkALoss s = .next (after s { b with pwr := { b.pwr with refA := false, refb := b.pwr.refb || (b.pwr.up || (b.nw.pstate == .waking && decide (3 ≤ b.nw.stage))) } }) ∧
    (s.pwr.up = true →
      (∀ c, c < 12 →
        let enter := fun (t : State) => exec (.clusterSleepEnter c) s = .next (after s t)
        let wake := fun (t : State) => exec (.clusterWake c) s = .next (after s t)
        let may := b.rdB Reg.rsvHctrl 0 = false ∧ b.rsv.active.contains c = false ∧ b.fifosEmpty c = true ∧ b.rdB (Reg.pwrCl c) 31 = false ∧ b.rdF (Reg.pwrCl c) 3 0 = 0 ∧
          ∀ k, k < 8 → b.coreIn c k = true → (b.core c k).st = .waiting
        (may → enter ((((b.wrF (Reg.pwrCl c) 3 0 2).wrF (Reg.rsvLoad c) 31 31 0).wrF (Reg.rsvLoad c) 7 0 0).sleepTaken c 1 c 0)) ∧ (¬ may → enter b) ∧
        (b.rdF (Reg.pwrCl c) 3 0 = 2 → wake (((b.wrF (Reg.pwrCl c) 3 0 0).wrF (Reg.rsvLoad c) 31 31 1).tally 1 c 3 1)) ∧ (b.rdF (Reg.pwrCl c) 3 0 ≠ 2 → wake b)) ∧
      (∀ e, e < 80 →
        let enter := fun (t : State) => exec (.engineSleepEnter e) s = .next (after s t)
        let wake := fun (t : State) => exec (.engineWake e) s = .next (after s t)
        let held := b.rdF Reg.pwrEsleep 15 0 = 0 ∨ b.rdB (Reg.pwrEng e) 31 = true
        let f := b.nfeAt (e - 76)
        let idle := (f.st = .idle ∨ f.st = .running) ∧ b.rdB (Reg.nfeCtrl (e - 76)) 0 = false ∧ f.ctx.all (fun c => c.2.isNone) = true
        (held → enter b) ∧
        (¬ held → e < 76 → ((b.engAt e).st = .idle → enter (((b.setEng e { b.engAt e with st := .sleep }).wrF (Reg.pwrEng e) 3 0 2).sleepTaken (12 + e) 2 e 1)) ∧ ((b.engAt e).st ≠ .idle → enter b)) ∧
        (¬ held → 76 ≤ e → (idle → enter (((b.setNfe (e - 76) { f with st := .sleep }).wrF (Reg.pwrEng e) 3 0 2).sleepTaken (12 + e) 2 e 1)) ∧ (¬ idle → enter b)) ∧
        (e < 76 → ((b.engAt e).st = .sleep → wake ((b.setEng e { b.engAt e with st := .idle }).wrF (Reg.pwrEng e) 3 0 1)) ∧ ((b.engAt e).st ≠ .sleep → wake b)) ∧
        (76 ≤ e → (f.st = .sleep → wake ((b.setNfe (e - 76) { f with st := if f.plan.isEmpty then .idle else .running }).wrF (Reg.pwrEng e) 3 0 1)) ∧ (f.st ≠ .sleep → wake b))) ∧
      (let rst := fun (i : Instr) (kind unit : Nat) (act : State → State) =>
         let u := b.wr Reg.pwrRst (bn (b.rdB Reg.pwrRst 30) * 2 ^ 30 + kind * 2 ^ 24 + unit)
         (b.rdB Reg.pwrRst 30 = true → exec i s = .next (after s u)) ∧ (b.rdB Reg.pwrRst 30 = false → exec i s = .next (after s ((act u).emit (.reset kind unit))))
       (∀ i c, i < 4 → c < 12 → rst (.pwrRstCluster i c) 3 c fun u => u.resetCluster c) ∧
       (∀ i c k, i < 4 → c < 12 → k < 8 → rst (.pwrRstCore i c k) 4 (c * 8 + k) fun u => u.resetCore c k) ∧
       (∀ i e, i < 4 → e < 80 → rst (.pwrRstEngine i e) 5 e fun u => u.resetEngine e) ∧
       (∀ i, i < 4 → b.nw.pstate = .run → rst (.pwrRstCold i) 1 0 (fun u => u.resetPayload .cold) ∧ rst (.pwrRstWarm i) 2 0 fun u => u.resetPayload .warm) ∧
       (∀ i, i < 4 → b.nw.pstate ≠ .run → exec (.pwrRstCold i) s = .next (after s b) ∧ exec (.pwrRstWarm i) s = .next (after s b))) ∧
      exec (.avsNoAck false) s = .next (after s b) ∧
      (let u : State := { b.conflict 0 3 0 with pwr := { b.pwr with avsFail := true } }
       exec (.avsNoAck true) s = .next (after s (u.awake.foldl (fun s c => s.slower c) u))) ∧
      exec .vddCoreUndervolt s = .next (after s (b.setAlive false 2).payloadDown) ∧ exec .overtempReset s = .next (after s (b.setAlive false 3).payloadDown) ∧
      (∀ (temps : List Int) i t, hottest (temps.take 24) = (i, t) →
        let gives := fun (x : State) => exec (.tempSample temps) s = .next (after s x)
        let hot := 216 ≤ t ∨ (b.rdB Reg.sysTemp 31 = true ∧ 210 < t)
        let v := b.wr Reg.sysTemp (bn (b.throttles t) * 2 ^ 31 + i * 2 ^ 16 + wrap 16 t)
        let u : State := { v with pwr := { v.pwr with temps := (temps.take 24).map (wrap 16) }, nw := { v.nw with plTemp := wrap 16 t } }
        (b.throttles t = true ↔ hot) ∧ (hot → gives (u.awake.foldl (fun s c => s.throttle c) u)) ∧
        (¬ hot → t ≤ 200 → gives { u with pwr := { u.pwr with cooling := [] } }) ∧ (¬ hot → 200 < t → gives u))) ∧
    (∀ (w : State) c,
      let x := ((w.setFreq c (max 100 (w.freqOf c - 100)))).conflict 0 3 c
      w.throttle c = { x with pwr := { x.pwr with cooling := sins x.pwr.cooling c } }) ∧
    (∀ (w : State) c k, ∀ x,
      let base := 0x10000000 + c * 0x01000000 + k * 0x00100000
      x = (w.dropCoreTask c k).clearCore c k →
      (w.coreIn c k = false → w.resetCore c k = w) ∧
      (w.coreIn c k = true → w.resetCore c k = (x.setCore c k { x.core c k with pm := [] }).wrF Reg.pwrRst 30 30 1) ∧
      w.clearCore c k = (w.forget (base + 0x40000) (base + 0xC0000)).setCore c k { CoreState.reset with pm := (w.core c k).pm } ∧
      ∀ u, u = w.withdraw (.core c k) →
        (u.taskOn (.core c k) = none → w.dropCoreTask c k = u) ∧
        (∀ sl, u.taskOn (.core c k) = some sl → w.dropCoreTask c k = ((u.setCore c k { u.core c k with st := .clearing }).faultTask (.core c k) sl 0x20).2)) ∧
    (∀ (w : State) c, ∀ x y,
      x = (List.range 8).foldl (fun s k => if s.coreIn c k then s.dropCoreTask c k else s) (w.wrF (Reg.pwrCl c) 3 0 0) →
      y = ((List.range 8).foldl (fun s k =>
        if !s.coreIn c k then s
        else
          let s := s.clearCore c k
          let s := s.setCore c k { s.core c k with pm := [] }
          if s.rdF (Reg.dspcPmLock c k) 1 0 = 0 then s else (s.wrF (Reg.rsvChold c) k k 1).wrF (Reg.dspcPmLock c k) 1 0 0) x).clearShared c →
      let busy := (List.range 8).any fun k => y.coreIn c k && (y.core c k).st == .clearing
      (busy = true → w.resetCluster c = y.wrF Reg.pwrRst 30 30 1) ∧ (busy = false → w.resetCluster c = y)) ∧
    (∀ (w : State) e,
      let x := w.engAt e
      let f := w.nfeAt (e - 76)
      let u := (w.withdraw (.engine e)).setEng e .reset
      let slots := f.ctx.filterMap fun c => c.2.map fun b => (c.1, b.slot)
      let v := slots.foldl (fun s c => s.withdraw (.burst (e - 76) c.1)) w
      (w.engIn e = false → w.resetEngine e = w) ∧
      (w.engIn e = true → e < 76 → x.st = .isolated ∨ x.st = .off → w.resetEngine e = w) ∧
      (w.engIn e = true → e < 76 → x.st ≠ .isolated → x.st ≠ .off →
        (u.taskOn (.engine e) = none → w.resetEngine e = u) ∧ (∀ sl, u.taskOn (.engine e) = some sl → w.resetEngine e = (u.faultTask (.engine e) sl 0x20).2)) ∧
      (w.engIn e = true → 76 ≤ e → f.st = .isolated ∨ f.st = .off → w.resetEngine e = w) ∧
      (w.engIn e = true → 76 ≤ e → f.st ≠ .isolated → f.st ≠ .off →
        w.resetEngine e = slots.foldl (fun s c => (s.faultTask (.burst (e - 76) c.1) c.2 0x20).2)
          (v.setNfe (e - 76) { f with st := .idle, plan := [], ctx := [], chans := [], done := [], rxdRes := v.rd (Reg.nfeRxdPi (e - 76)) }))) ∧
    (∀ (w : State) (kind : WakeKind), ∀ x,
      let y := w.lastFrame.saveMap
      let d := x.payloadDown.wr Reg.nwbCtrl 0
      (kind = .warm → x = ({ y with nw := { y.nw with flops := y.fw.resident, flopCrc := crc32 y.fw.resident, vretLow := false } } : State)) →
      (kind ≠ .warm → x = ({ w with pwr := { w.pwr with accounted := false } } : State)) →
      w.resetPayload kind = ({ d with nw := { d.nw with kind := kind, stage := 3, rstReq := true, wsrc := 0, offReq := false } } : State).toPstate .waking) ∧
    (∀ (w : State) v cause,
      let u := w.wrF Reg.nwbCtrl 0 0 (bn v)
      (w.rdB Reg.nwbCtrl 0 = true → v = false → w.nw.pstate = .run → w.setAlive v cause = u.nwFault 6 cause) ∧
      (w.rdB Reg.nwbCtrl 0 = false ∨ v = true ∨ w.nw.pstate ≠ .run → w.setAlive v cause = u)) ∧
    (∀ (w : State) key scope unit old,
      let u : State := { w with pwr := { w.pwr with asked := sdel w.pwr.asked key } }
      (w.pwr.asked.contains key = true → w.sleepTaken key scope unit old = u.pwrNotice scope unit old 2) ∧ (w.pwr.asked.contains key = false → w.sleepTaken key scope unit old = w))

/-- A wake source that is enabled and armed starts a wake from OFF or DEEP and is latched during an entry. Each stage of a wake
leads to the next, takes a power-off request at its boundary, and fails as R461 says: three regulator attempts, one fall-back of
the oscillator, no retry of the others. A power-good that falls in RUN or DEEP, a lost keepalive and a lost VAUX_P drop every
enable at once. SB_VIN and the straps bring Nightwatch up. An entry ends when its rails are down, an orderly OFF at OFF_ACK or
at the end of its grace. -/
def Obligations.WakeAndSupply : Prop :=
  ∀ (s : State),
    let b := begin s
    (let gives := fun (t : State) => exec .wakeNAssert s = .next (after s t)
     (b.nw.on = true → gives (b.source 0)) ∧ (b.nw.on = false → gives b)) ∧
    (∀ (w : State) n,
      let mayWake := n = 2 ∨ (w.nw.disarmed = false ∧ tb (w.nw.wakecfg.getD 0 0).toNat n = true)
      (¬ mayWake → w.source n = w) ∧ (mayWake → w.nw.pstate = .entering → w.source n = { w with nw := { w.nw with latched := w.nw.latched ||| 2 ^ n } }) ∧
      (mayWake → w.nw.pstate ≠ .entering → w.source n = w.startWake (2 ^ n))) ∧
    (∀ (w : State) m,
      let at1 := fun (k : WakeKind) (rails : Nat) => (({ w with nw := { w.nw with
        pstate := .waking, stage := 1, kind := k, tries := 1, wait := false, offReq := false, wsrc := m, latched := 0 } } : State).railsOn rails)
      (w.nw.pstate = .off → w.startWake m = at1 .fromOff 0xFF) ∧ (w.nw.pstate = .deep → w.startWake m = at1 .fromDeep 0x0F) ∧
      (w.nw.pstate ≠ .off → w.nw.pstate ≠ .deep → w.startWake m = w) ∧
      (w.railsOn m = ({ w with nw := { w.nw with en := w.nw.en ||| m } } : State).emit (.rails ([6, 5, 7, 4, 1, 0, 3, 2].filter fun n => tb m n) true)) ∧
      (w.railsOff m = w.emit (.rails ([2, 3, 0, 1, 4, 7, 5, 6].filter fun n => tb w.nw.en n && tb m n) false))) ∧
    (∀ code, code < 256 →
      let gives := fun (t : State) => exec (.wsenseTrip code) s = .next (after s t)
      let cfg := fun i => (b.nw.wakecfg.getD i 0).toNat
      (b.nw.on = false ∨ tb (cfg 0) 1 = false → gives { b with nw := { b.nw with wsense := code } }) ∧
      (b.nw.on = true → tb (cfg 0) 1 = true → ∀ past back : Bool,
        (tb (cfg 2) 0 = true → (past = true ↔ code < cfg 1) ∧ (back = true ↔ cfg 1 + fld (cfg 2) 6 4 ≤ code)) →
        (tb (cfg 2) 0 = false → (past = true ↔ cfg 1 ≤ code) ∧ (back = true ↔ code + fld (cfg 2) 6 4 < cfg 1)) →
        let u := fun (a : Bool) => ({ b with nw := { b.nw with wsense := code, wsArmed := a } } : State)
        (b.nw.wsArmed = true → (past = true → gives ((u false).source 1)) ∧ (past = false → gives (u true))) ∧ (b.nw.wsArmed = false → gives (u back)))) ∧
    (let gives := fun (t : State) => exec .wakeTimer s = .next (after s t)
     (b.nw.on = false ∨ b.nw.xtal = false ∨ b.nw.wakeTick = none → gives b) ∧
     (∀ t, b.nw.on = true → b.nw.xtal = true → b.nw.wakeTick = some t → gives (({ b with nw := { b.nw with wakeTick := none, ticks := max b.nw.ticks t } } : State).source 3))) ∧
    (∀ us,
      let gives := fun (t : State) => exec (.wakeStageReady us) s = .next { t with pending := s.pending }
      let on1 : State := { b with nw := { b.nw with pg := b.nw.en } }
      let off := fun (w : State) => (w.railsOff 0xFF).endOff false
      (b.nw.pstate ≠ .waking ∨ b.nw.stage = 0 ∨ 4 < b.nw.stage → gives b) ∧
      (b.nw.pstate = .waking →
        (b.nw.stage = 1 → b.nw.wait = true ∨ b.nw.link = false → gives b) ∧
        (b.nw.stage = 1 → b.nw.wait = false → b.nw.link = true →
          (b.nw.offReq = true → gives (off on1)) ∧ (b.nw.offReq = false → gives { on1 with nw := { on1.nw with stage := 2 }, pwr := { on1.pwr with refb := false } })) ∧
        (b.nw.stage = 2 →
          (b.nw.offReq = true → gives (off b)) ∧ (b.nw.offReq = false → gives { b with nw := { b.nw with stage := 3 }, pwr := { b.pwr with refA := b.pwr.refA || !b.pwr.refb } })) ∧
        (b.nw.stage = 3 → keepsIt b.nw.kind = true → b.retentionOk = false → gives (b.wakeFail 3 2)) ∧
        (b.nw.stage = 3 → keepsIt b.nw.kind = true → b.retentionOk = true → b.savedOk = false → gives (b.wakeFail 3 4)) ∧
        (b.nw.stage = 3 → keepsIt b.nw.kind = false ∨ (b.retentionOk = true ∧ b.savedOk = true) → (b.nw.offReq = true → gives (off b)) ∧ (b.nw.offReq = false → gives b.logicStage)) ∧
        (b.nw.stage = 4 → b.rdB Reg.nwbCtrl 0 = true → (b.nw.offReq = true → gives (off b)) ∧ (b.nw.offReq = false → gives (b.wakeDone us))) ∧
        (b.nw.stage = 4 → b.rdB Reg.nwbCtrl 0 = false → gives b))) ∧
    (∀ (w : State),
      (∀ f, w.endOff f = (w.dropAll.toPstate .off).nwEvent 6 (bn f * 256)) ∧ (∀ stage detail, w.wakeFail stage detail = ((w.railsOff 0xFF).dropAll.toPstate .off).nwFault stage detail) ∧
      (∀ us,
        let r := w.wrF Reg.pwrWakeStat 15 0 (min 65535 (us / 10))
        let v := ({ r with nw := { r.nw with stage := 0 } } : State).toPstate .run
        let e := v.nwEvent 4 (v.rdF Reg.pwrWakeStat 23 20 + bn v.pwr.refb * 256 + v.rdF Reg.pwrWakeStat 18 18 * 512)
        (e.nw.kind = .fromOff → w.wakeDone us = e.pwrNotice 0 0 4 0) ∧ (e.nw.kind = .fromDeep → w.wakeDone us = e.pwrNotice 0 0 3 0) ∧
        (e.nw.kind = .warm ∨ e.nw.kind = .cold → w.wakeDone us = e))) ∧
    (∀ d,
      let gives := fun (t : State) => exec (.wakeStageTimeout d) s = .next (after s t)
      (b.nw.pstate ≠ .waking ∨ b.nw.stage = 0 ∨ 4 < b.nw.stage → gives b) ∧
      (b.nw.pstate = .waking →
        (b.nw.stage = 1 → b.nw.wait = true → gives b) ∧
        (b.nw.stage = 1 → b.nw.wait = false →
          (3 ≤ b.nw.tries → gives (b.wakeFail 1 (d % 256))) ∧
          (b.nw.tries < 3 → ∀ off, (b.nw.kind = .fromDeep → off = 0x0F) → (b.nw.kind ≠ .fromDeep → off = 0xFF) → gives { b with nw := { b.nw with wait := true, en := b.nw.en &&& (0xFF - off) } })) ∧
        (b.nw.stage = 2 → (b.pwr.refb = false → gives { b with pwr := { b.pwr with refb := true } }) ∧ (b.pwr.refb = true → gives (b.wakeFail 2 1))) ∧
        (b.nw.stage = 3 → (d = 3 ∨ d = 4 → gives (b.wakeFail 3 d)) ∧ (d ≠ 3 → d ≠ 4 → gives (b.wakeFail 3 1))) ∧ (b.nw.stage = 4 → gives (b.wakeFail 4 1)))) ∧
    (let gives := fun (t : State) => exec .regulatorRetry s = .next (after s t)
     let u : State := { b with nw := { b.nw with wait := false, tries := b.nw.tries + 1 } }
     let due := b.nw.pstate = .waking ∧ b.nw.stage = 1 ∧ b.nw.wait = true
     (due → b.nw.kind = .fromDeep → gives (u.railsOn 0x0F)) ∧ (due → b.nw.kind ≠ .fromDeep → gives (u.railsOn 0xFF)) ∧ (¬ due → gives b)) ∧
    (∀ n, n < 8 →
      let gives := fun (t : State) => exec (.powerGoodFall n) s = .next (after s t)
      let u : State := { b with nw := { b.nw with pg := setFld b.nw.pg n n 0 } }
      (tb b.nw.en n = false → gives b) ∧
      (tb b.nw.en n = true → (b.nw.pstate = .run ∨ b.nw.pstate = .deep → gives ((u.dropAll.toPstate .off).nwFault 5 (u.nw.en &&& (0xFF - u.nw.pg % 256)))) ∧
        (b.nw.pstate ≠ .run → b.nw.pstate ≠ .deep → gives u))) ∧
    (∀ mv,
      let sb : State := { b with nw := { b.nw with sbVin := mv } }
      (b.nw.on = true ∨ mv ≤ 4300 → exec (.sbVinRise mv) s = .next (after s sb)) ∧
      (b.nw.on = false → 4300 < mv →
        exec (.sbVinRise mv) s = .next (after s { b.payloadDown.resetRegs (fun o => shelfReg o || o == Reg.nwbCtrl) with nw := { NwState.reset with on := true, sbVin := mv } })) ∧
      (b.nw.on = false ∨ 4100 ≤ mv → exec (.sbVinFall mv) s = .next (after s sb)) ∧
      (b.nw.on = true → mv < 4100 → exec (.sbVinFall mv) s = .next (after s { b.dropAll with nw := { NwState.reset with sbVin := mv } })) ∧
      (b.nw.on = true ∧ mv < 4600 → exec (.sbVinLow mv) s = .next (after s (sb.nwEvent 0xC mv))) ∧ (¬(b.nw.on = true ∧ mv < 4600) → exec (.sbVinLow mv) s = .next (after s sb)) ∧
      (let low := b.nw.pstate = .deep ∨ b.nw.pstate = .entering ∨ b.nw.pstate = .waking
       (mv < 550 ∧ low → exec (.vretLow mv) s = .next (after s { b with nw := { b.nw with vret := mv, vretLow := true } })) ∧
       (¬(mv < 550 ∧ low) → exec (.vretLow mv) s = .next (after s { b with nw := { b.nw with vret := mv } })))) ∧
    (∀ a, a < 8 →
      let gives := fun (t : State) => exec (.strapSample a) s = .next (after s t)
      (b.nw.on = true → b.nw.sampled = false → gives (({ b with nw := { b.nw with strapA := a, sampled := true } } : State).nwEvent 1 a)) ∧
      (b.nw.on = false ∨ b.nw.sampled = true → gives b)) ∧
    ((b.nw.on = true → exec .xtal32Start s = .next (after s { b with nw := { b.nw with xtal := true } })) ∧ (b.nw.on = false → exec .xtal32Start s = .next (after s b))) ∧
    (let up := b.nw.link || b.nw.vauxp
     (b.nw.on = true → exec .keepaliveSend s = .next (after s ((({ b with nw := { b.nw with keepalives := b.nw.keepalives + 1, link := up } } : State).wrF Reg.nwbStat 31 31 (bn up)).emit .keepalive))) ∧
     (b.nw.on = false → exec .keepaliveSend s = .next (after s b))) ∧
    (let gives := fun (t : State) => exec .keepaliveLoss s = .next (after s t)
     let u := (({ b with nw := { b.nw with link := false } } : State).wrF Reg.nwbStat 31 31 0).wrF Reg.nwbIrq 3 3 1
     (b.nw.link = false → gives b) ∧
     (b.nw.link = true → (b.nw.pstate = .off ∨ b.nw.pstate = .absent → gives u) ∧ (b.nw.pstate ≠ .off → b.nw.pstate ≠ .absent → gives ((u.dropAll.toPstate .off).nwFault 7 0)))) ∧
    (let ports := (b.nw.ports.map fun e => (e.1, { ShelfPort.reset with bad := e.2.bad })).filter fun e => decide (e.2 ≠ ShelfPort.reset)
     (b.nw.on = true → exec .nwWatchdogExpire s = .next (after s (({ b with nw := { b.nw with ports := ports, order := [] } } : State).nwEvent 0xB 0))) ∧
     (b.nw.on = false → exec .nwWatchdogExpire s = .next (after s b))) ∧
    (let gives := fun (t : State) => exec .offGraceExpire s = .next (after s t)
     let due := b.nw.pstate = .entering ∧ b.rdB Reg.nwbStat 29 = true
     (due → gives b.forcedPath) ∧ (¬ due → gives b)) ∧
    (let gives := fun (t : State) => exec .ejectAssert s = .next (after s t)
     let e := b.ejectSeen
     let u := ((({ b with nw := { b.nw with eject := true } } : State).wrF Reg.nwbStat 30 30 1).wrF Reg.nwbIrq 0 0 1).nwEvent 7 0
     let offs := tb b.policy 1 = true ∧ (b.nw.pstate = .run ∨ b.nw.pstate = .waking)
     (b.nw.on = false ∨ b.nw.eject = true → gives b) ∧
     (b.nw.on = true → b.nw.eject = false → (offs → gives (e.nwPower 1 1000).2) ∧ (¬ offs → gives e)) ∧
     (b.nw.pstate = .off ∨ b.nw.pstate = .absent → e = u.nwEvent 9 0) ∧ (b.nw.pstate ≠ .off → b.nw.pstate ≠ .absent → e = u)) ∧
    ((b.nw.eject = true → exec .ejectRelease s = .next (after s (((({ b with nw := { b.nw with eject := false } } : State).wrF Reg.nwbStat 30 30 0).wrF Reg.nwbIrq 0 0 1).nwEvent 8 0))) ∧
     (b.nw.eject = false → exec .ejectRelease s = .next (after s b))) ∧
    (let gives := fun (t : State) => exec .vauxPArrive s = .next (after s t)
     let v := ((({ b with nw := { b.nw with vauxp := true, link := true, en := 0 } } : State).wrF Reg.nwbStat 31 31 1).toPstate .off).nwEvent 2 0
     let wakes := tb v.policy 0 = true ∧ v.nw.eject = false
     (b.nw.on = true → b.nw.pstate = .absent → (wakes → gives (v.source 2)) ∧ (¬ wakes → gives v)) ∧ (b.nw.on = false ∨ b.nw.pstate ≠ .absent → gives b)) ∧
    (∀ (first : Bool),
      let gives := fun (t : State) => exec (.vauxPLoss first) s = .next (after s t)
      let g := b.vauxGone first
      let u := ({ b with nw := { b.nw with vauxp := false, link := false } } : State).wrF Reg.nwbStat 31 31 0
      (b.nw.pstate = .absent → gives b) ∧ (b.nw.pstate ≠ .absent → gives ((g.toPstate .absent).nwEvent 3 (pcode b.nw.pstate))) ∧
      (b.nw.pstate = .off → g = u) ∧
      (b.nw.pstate ≠ .off → (first = true → g = (u.dropAll.toPstate .off).nwFault 5 (b.nw.en &&& (0xFF - b.nw.pg % 256))) ∧ (first = false → g = (u.dropAll.toPstate .off).nwFault 7 0))) ∧
    (let gives := fun (t : State) => exec .entryRailsDown s = .next (after s t)
     (b.nw.pstate ≠ .entering → gives b) ∧
     (b.nw.pstate = .entering →
       (∀ deep forced, b.pwr.entry = .rails deep forced → gives (b.railsDown deep forced)) ∧
       (∀ deep, b.pwr.entry = .prep deep →
         let done := b.isQuiet = true ∧ (deep = false ∨ b.dramAsleep = true)
         (done → gives ((b.entrySteps deep).railsDown deep false)) ∧ (¬ done → gives b)) ∧
       (b.pwr.entry = .none ∨ (∃ deep, b.pwr.entry = .ack deep) → gives b))) ∧
    (∀ (w : State) (deep forced : Bool), ∀ x y code,
      let rails := if deep then 0x0F else 0xFF
      let en := if deep then 0xF0 else 0
      let d := (w.railsOff rails).dropAll
      x = ({ d with nw := { d.nw with en := en, pg := en }, pwr := { d.pwr with accounted := w.pwr.accounted && !forced } } : State) →
      (deep = true → y = x.toPstate .deep) → (deep = false → y = x.toPstate .off) → (deep = true → code = 3) → (deep = false → code = 0) →
      let z := y.nwEvent 6 (code + bn forced * 256)
      (w.nw.latched = 0 → w.railsDown deep forced = z) ∧ (w.nw.latched ≠ 0 → w.railsDown deep forced = z.startWake w.nw.latched)) ∧
    (∀ i (v : Word), i < 4 → s.pwr.up = true →
      exec (.nwbOffAck i v) s = .next (after s (b.nwbCtrlWrite (v.toNat ||| 2))) ∧ exec (.nwbAlive i v) s = .next (after s (b.nwbCtrlWrite (setFld v.toNat 1 1 0)))) ∧
    (∀ (w : State) v,
      let alive := w.setAlive (tb v 0) 1
      let d := (w.entrySteps false).payloadDown
      let u : State := { d with pwr := { d.pwr with entry := .rails false false } }
      (tb v 1 = true → w.nwbCtrlWrite v = (alive.wrF Reg.nwbCtrl 1 1 1).offAck) ∧ (tb v 1 = false → w.nwbCtrlWrite v = alive) ∧
      (w.rdB Reg.nwbStat 29 = false → w.offAck = w) ∧ (w.rdB Reg.nwbStat 29 = true → w.offAck = (u.wrF Reg.nwbStat 29 29 0).wrF Reg.nwbStat 15 0 0))

/-- A Block Write with its PEC delivers a request of 2 to 32 bytes; a wrong PEC discards and counts it. A Block Read returns the
response, or BUSY while the request is not committed, with count and PEC. The UART receiver looks for frames and delivers their
messages. Requests commit one at a time in order of arrival: NW.STATUS, NW.POWER in each OP and state, NW.WAKECFG, NW.SENSOR and
NW.EVENT answer as their rules say, and each waits for the request that it serves. A message of 1 to 63 bytes crosses the
barrier either way while the buffer is free. -/
def Obligations.ShelfPorts : Prop :=
  ∀ (s : State),
    let b := begin s
    (∀ p bs (pec : Byte), p < 2 →
      let gives := fun (t : State) => exec (.smbBlockWrite p bs pec) s = .next (after s t)
      let sum := crc8 (leBytes 1 (b.smbAddr * 2) ++ [0xC0] ++ leBytes 1 bs.length ++ bs)
      (b.nw.sampled = false → gives b) ∧
      (b.nw.sampled = true →
        (sum ≠ pec.toNat → gives (b.setPort p { b.port p with bad := (b.port p).bad + 1 })) ∧
        (sum = pec.toNat → (2 ≤ bs.length ∧ bs.length ≤ 32 → gives (b.nwArrive p bs)) ∧ (¬(2 ≤ bs.length ∧ bs.length ≤ 32) → gives b)))) ∧
    (∀ (w : State) p rq,
      let u := w.setPort p { w.port p with req := some rq, resp := [] }
      w.nwArrive p rq = ({ u with nw := { u.nw with order := u.nw.order.filter (· ≠ p) ++ [p] } } : State).nwSkip 4) ∧
    (∀ (w : State) n,
      (w.nw.order = [] → w.nwSkip n = w) ∧
      (∀ p rest, w.nw.order = p :: rest →
        ((w.port p).req = none → w.nwSkip n = w) ∧ (∀ rq, (w.port p).req = some rq → (nwKnown rq = true → w.nwSkip n = w) ∧ (nwKnown rq = false → w.nwSkip (n + 1) = (w.nwRespond p rq stBadParam []).nwSkip n)))) ∧
    (∀ (w : State) p rq st pl,
      let bs := (rq.take 2 ++ leBytes 2 st ++ pl).take 32
      let u : State := { w with nw := { w.nw with order := w.nw.order.filter (· ≠ p) } }
      (p = 2 → w.nwRespond p rq st pl = (u.setPort p { w.port p with req := none }).emit (.uart (uartFrame bs))) ∧
      (p ≠ 2 → w.nwRespond p rq st pl = u.setPort p { w.port p with req := none, resp := bs })) ∧
    (∀ p, p < 2 → ∀ data,
      let body := leBytes 1 data.length ++ data
      let alert := b.nw.sampled = true ∧ tb b.policy 2 = true ∧ b.nw.events ≠ []
      (∀ rq, (b.port p).req = some rq → data = rq.take 2 ++ leBytes 2 stBusy) → ((b.port p).req = none → data = (b.port p).resp) →
      (b.nw.sampled = true →
        exec (.smbBlockRead p) s = .next (after s (b.emit (.smbus p (body ++ leBytes 1 (crc8 (leBytes 1 (b.smbAddr * 2) ++ [0xC1] ++ leBytes 1 (b.smbAddr * 2 + 1) ++ body))))))) ∧
      (b.nw.sampled = false → exec (.smbBlockRead p) s = .next (after s b)) ∧
      exec (.smbTimeout p) s = .next (after s b) ∧
      (alert → exec (.smbAlertResponse p) s = .next (after s (b.emit (.smbus p (leBytes 1 (b.smbAddr * 2)))))) ∧ (¬ alert → exec (.smbAlertResponse p) s = .next (after s b))) ∧
    (∀ bs,
      (b.nw.sampled = true → exec (.uartFrame bs) s = .next (after s (b.uartRx bs.length bs))) ∧ (b.nw.sampled = false → exec (.uartFrame bs) s = .next (after s b))) ∧
    (∀ (w : State) n (x : Byte) rest,
      let len := leAt rest 0 1
      let body := rest.take (len + 1)
      let frame := x = 0x7E ∧ 2 ≤ len ∧ len ≤ 32 ∧ len + 2 ≤ rest.length ∧ crc8 body = leAt rest (len + 1) 1
      w.uartRx n [] = w ∧ (frame → w.uartRx (n + 1) (x :: rest) = (w.nwArrive 2 (body.drop 1)).uartRx n (rest.drop (len + 2))) ∧ (¬ frame → w.uartRx (n + 1) (x :: rest) = w.uartRx n rest)) ∧
    (let handles := fun (i : Instr) (op : Nat) (form : List Byte → Prop) (f : List Byte → Nat × List Byte × State) =>
       (b.nw.order = [] → exec i s = .next (after s b)) ∧
       (∀ p rest, b.nw.order = p :: rest →
         ((b.port p).req = none → exec i s = .next (after s b)) ∧
         (∀ rq, (b.port p).req = some rq →
           (¬(leAt rq 0 1 = op ∧ form rq) → exec i s = .next (after s b)) ∧
           (leAt rq 0 1 = op → form rq → ∀ st pl t, f rq = (st, pl, t) → exec i s = .next (after s ((t.nwRespond p rq st pl).nwSkip 4)))))
     (handles .nwStatus 1 (fun _ => True) (fun _ => (stOk, b.nwStatusPayload, b)) ∧
       handles .nwPowerOn 2 (fun rq => leAt rq 2 1 = 0) (fun rq => ((b.nwPower 0 (leAt rq 4 2)).1, [], (b.nwPower 0 (leAt rq 4 2)).2)) ∧
       handles .nwPowerOff 2 (fun rq => leAt rq 2 1 = 1) (fun rq => ((b.nwPower 1 (leAt rq 4 2)).1, [], (b.nwPower 1 (leAt rq 4 2)).2)) ∧
       handles .nwPowerOffForced 2 (fun rq => leAt rq 2 1 = 2) (fun rq => ((b.nwPower 2 (leAt rq 4 2)).1, [], (b.nwPower 2 (leAt rq 4 2)).2)) ∧
       handles .nwPowerOffNow 2 (fun rq => leAt rq 2 1 = 3) (fun rq => ((b.nwPower 3 (leAt rq 4 2)).1, [], (b.nwPower 3 (leAt rq 4 2)).2)) ∧
       handles .nwPowerDeep 2 (fun rq => leAt rq 2 1 = 4) (fun rq => ((b.nwPower 4 (leAt rq 4 2)).1, [], (b.nwPower 4 (leAt rq 4 2)).2)) ∧
       handles .nwPowerCold 2 (fun rq => leAt rq 2 1 = 5) (fun rq => ((b.nwPower 5 (leAt rq 4 2)).1, [], (b.nwPower 5 (leAt rq 4 2)).2)) ∧
       handles .nwPowerWarm 2 (fun rq => leAt rq 2 1 = 6) (fun rq => ((b.nwPower 6 (leAt rq 4 2)).1, [], (b.nwPower 6 (leAt rq 4 2)).2)) ∧
       handles .nwPowerClearFault 2 (fun rq => leAt rq 2 1 = 7) (fun rq => ((b.nwPower 7 (leAt rq 4 2)).1, [], (b.nwPower 7 (leAt rq 4 2)).2)) ∧
       handles .nwWakecfgRead 3 (fun rq => leAt rq 2 1 = 0) (fun _ => (stOk, b.gpioIn.2.nw.wakecfg ++ leBytes 1 b.gpioIn.1, b.gpioIn.2)) ∧
       handles .nwWakecfgWrite 3 (fun rq => leAt rq 2 1 = 1) (fun rq => (stOk, (b.setWakecfg rq).gpioIn.2.nw.wakecfg ++ leBytes 1 (b.setWakecfg rq).gpioIn.1, (b.setWakecfg rq).gpioIn.2)) ∧
       (∀ vals, handles (.nwSensor vals) 4 (fun _ => True) (fun _ => (stOk, b.sensorPayload vals, b))) ∧
       handles .nwEventRead 5 (fun rq => leAt rq 2 1 = 0) (fun _ => (stOk, b.eventPayload, b)) ∧ handles .nwEventRemove 5 (fun rq => leAt rq 2 1 = 1) (fun rq => b.eventRemove rq))) ∧
    (∀ (w : State) rq,
      (w.nw.events = [] → w.eventPayload = List.replicate 12 0 ∧ w.eventRemove rq = (stBadParam, [], w)) ∧
      (∀ e es, w.nw.events = e :: es →
        w.eventPayload = leBytes 1 e.code ++ leBytes 1 (bn e.lost) ++ leBytes 2 e.eseq ++ leBytes 4 e.uptime ++ leBytes 4 e.data ∧
        (e.eseq = leAt rq 4 2 → w.eventRemove rq = (stOk, [], { w with nw := { w.nw with events := es } })) ∧ (e.eseq ≠ leAt rq 4 2 → w.eventRemove rq = (stBadParam, [], w)))) ∧
    (∀ (w : State) g,
      let ps := w.nw.pstate
      let u := if w.nw.fstage = 0 then w else w.nwEvent 0xA w.nw.fstage
      (w.nwPower 7 g = (stOk, { u with nw := { u.nw with faults := 0, fstage := 0, fdetail := 0, ftime := 0, disarmed := false } })) ∧
      (∀ op, 1 ≤ op → op ≤ 3 → ps = .waking → w.nwPower op g = (stAccepted, { w with nw := { w.nw with offReq := true } })) ∧
      (∀ op, op < 7 → ps = .entering ∨ (ps = .waking ∧ ¬(1 ≤ op ∧ op ≤ 3)) → w.nwPower op g = (stBusy, w)) ∧
      (ps = .off ∨ ps = .deep → w.nwPower 0 g = (stAccepted, w.source 2)) ∧ (ps = .run ∨ ps = .absent → w.nwPower 0 g = (stBadState, w)) ∧
      (∀ op, 1 ≤ op → op ≤ 3 → ps = .off ∨ ps = .absent → w.nwPower op g = (stBadState, w)) ∧
      (ps = .run → w.nwPower 1 g = (stAccepted, w.orderlyOff g)) ∧ (ps = .deep → w.nwPower 1 g = (stAccepted, ({ w with pwr := { w.pwr with entry := .rails false false } } : State).toPstate .entering)) ∧
      (ps = .run ∨ ps = .deep → w.nwPower 2 g = (stAccepted, w.forcedPath) ∧ w.nwPower 3 g = (stAccepted, w.endOff false)) ∧
      (ps = .run → w.fwSt = 3 → w.entryRefused = false → w.nwPower 4 g = (stAccepted, w.beginEntry true)) ∧ (ps = .run → w.fwSt ≠ 3 ∨ w.entryRefused = true → w.nwPower 4 g = (stBadState, w)) ∧
      (ps = .run → w.nwPower 5 g = (stAccepted, w.resetPayload .cold) ∧ w.nwPower 6 g = (stAccepted, w.resetPayload .warm)) ∧
      (∀ op, 4 ≤ op → op ≤ 6 → ps = .off ∨ ps = .deep ∨ ps = .absent → w.nwPower op g = (stBadState, w))) ∧
    (s.pwr.up = true →
      (∀ i (v : Word), i < 4 →
        let n := fld v.toNat 5 0
        (b.rdB Reg.nwbStat 28 = false → n ≠ 0 → b.nw.link = true → exec (.nwbTxgo i v) s = .next (after s { b with nw := { b.nw with inbox := b.txbuf.take n } })) ∧
        (b.rdB Reg.nwbStat 28 = true ∨ n = 0 ∨ b.nw.link = false → exec (.nwbTxgo i v) s = .next (after s b))) ∧
      (∀ bs,
        let fits := b.rdF Reg.nwbRxlen 5 0 = 0 ∧ bs ≠ [] ∧ bs.length ≤ 63
        let u := (List.range 16).foldl (fun s w => s.wr (Reg.nwbRxbuf w) (leAt (bs ++ List.replicate (64 - bs.length) 0) (4 * w) 4)) b
        (fits → exec (.nwbRxMessage bs) s = .next (after s ((u.wrF Reg.nwbRxlen 5 0 bs.length).wrF Reg.nwbIrq 2 2 1))) ∧ (¬ fits → exec (.nwbRxMessage bs) s = .next (after s b))) ∧
      (∀ i, i.wf = true → exec (.nwbRxlenRead i) s = .next (after s ((b.wrF Reg.nwbRxlen 5 0 0).emit (.value (b.rdF Reg.nwbRxlen 5 0))))))

/-- A tick falls at the next multiple of the period and latches a record, the extremes restarting, unless one is still unread, which
counts it as skipped; a manual tick does so at once while Census runs. A record enters its ring and PI passes it by its length,
or is lost and counted where it does not fit or its write fails. A write of SPI_CMD starts a transaction, refused while the ROM
owns the controller and ignored while one runs; at its end BUSY falls, the flash has done what the command asks (by log entry
39, as SPI NOR devices define the commands) and a read's bytes are in SPI_BUF. -/
def Obligations.CensusAndFlash : Prop :=
  ∀ (s : State), s.pwr.up = true →
    let b := begin s
    (let u := b.until (b.cen.next * 2 ^ 32)
     (b.rdB Reg.cenCtrl 31 = false → exec .censusTick s = .next (after s b)) ∧ (b.rdB Reg.cenCtrl 31 = true → exec .censusTick s = .next (after s (u.cenTick false b.cen.next).cenAlign))) ∧
    (∀ i, i < 4 →
      (b.rdB Reg.cenCtrl 31 = false → exec (.cenManualTick i) s = .next (after s b)) ∧ (b.rdB Reg.cenCtrl 31 = true → exec (.cenManualTick i) s = .next (after s (b.cenTick true b.ns)))) ∧
    (∀ (w : State) manual tick,
      (w.cen.record = none →
        let v := w.wrF Reg.cenStat 31 31 1
        w.cenTick manual tick = State.extremesRestart { v with cen := { v.cen with
          record := some ⟨w.cenRecord manual tick⟩, seq := v.cen.seq + 1, first := false, stepped := false, remapped := [], skipped := 0, last := v.cen.clock } }) ∧
      (∀ r, w.cen.record = some r →
        let v := w.count Reg.cenSkipped 1
        w.cenTick manual tick = { v with cen := { v.cen with skipped := v.cen.skipped + 1 } })) ∧
    (∀ (w : State),
      let put := fun (l : List (Nat × Nat)) g i v => mput (fun _ => 0) l (cenKey g 0 i) (v + 1)
      w.extremesRestart = { w with cen := { w.cen with
        vals := put (put (put (mdrop extremeKey w.cen.vals) 3 10 w.freeSlots) 4 5 (w.stagingKib 64 0)) 8 2 w.thetaNs.natAbs } }) ∧
    (∀ ok,
      let gives := fun (t : State) => exec (.censusRecordWrite ok) s = .next (after s t)
      (b.cen.record = none → gives b) ∧
      (∀ r, b.cen.record = some r →
        let pi := b.rd Reg.cenPi
        let full := b.cenRing.2 < (pi + 2 ^ 32 - b.rd Reg.cenCi) % 2 ^ 32 + r.bytes.length
        (ok = false ∨ full → gives b.cenLose) ∧
        (ok = true → ¬ full → ∀ stored t, b.cenPut (b.cenBytes r.bytes) = (stored, t) →
          (stored = false → gives t.cenLose) ∧ (stored = true → gives (t.cenPass pi r.bytes).cenForHost)))) ∧
    (∀ (w : State) (bs : List Byte) pi,
      let lost := (w.count Reg.cenLost 1).wrF Reg.cenStat 31 31 0
      let u := (w.wr Reg.cenPi ((pi + bs.length) % 2 ^ 32)).wr Reg.cenStat (leAt bs 8 4 % 2 ^ 31)
      w.cenLose = { lost with cen := { lost.cen with record := none, lost := lost.cen.lost + 1, lostFlag := true } } ∧
      w.cenPass pi bs = { u with cen := { u.cen with record := none, lost := 0, lostFlag := false } } ∧
      (w.cen.lostFlag = false → w.cenBytes bs = bs) ∧ (w.cen.lostFlag = true → w.cenBytes bs = patch (patch bs 12 [(bs.getD 12 0) ||| 2]) 20 (leBytes 4 w.cen.lost)) ∧
      (w.rd Reg.cenPi % w.cenRing.2 + bs.length ≤ w.cenRing.2 → ∀ t, w.memWrite (w.cenRing.1 + w.rd Reg.cenPi % w.cenRing.2) bs = (.ok, t) → w.cenPut bs = (true, t)) ∧
      (w.fw.cenHost ≠ 0 ∧ w.fwSt = 3 → w.cenForHost = State.cenCopy 4096 w) ∧ (¬(w.fw.cenHost ≠ 0 ∧ w.fwSt = 3) → w.cenForHost = w)) ∧
    (∀ i (v : Word), i < 4 →
      (b.fwSt = 1 → exec (.spiCmdGo i v) s = .next (after s ((b.aerr (.ctl i) 4 true false (0x20000000 + Reg.secSpiCmd)).emit .error))) ∧
      (b.fwSt ≠ 1 → exec (.spiCmdGo i v) s = .next (after s (b.spiCmd (v.toNat ||| 2 ^ 31))))) ∧
    (∀ (w : State) v, ∀ alen,
      (fld v 28 27 = 1 → alen = 3) → (fld v 28 27 = 2 → alen = 4) → (fld v 28 27 ≠ 1 → fld v 28 27 ≠ 2 → alen = 0) →
      let t : SpiTxn := { write := tb v 30, quad := tb v 29, alen := alen, addr := w.rd Reg.secSpiAddr, dummy := fld v 26 23, len := min 256 (fld v 17 8), opcode := fld v 7 0 }
      (w.sec.spi ≠ none ∨ tb v 31 = false → w.spiCmd v = w) ∧
      (w.sec.spi = none → tb v 31 = true → w.spiCmd v = ({ w with sec := { w.sec with spi := some t } } : State).wrF Reg.secSpiStat 31 31 1)) ∧
    (∀ data,
      let gives := fun (t : State) => exec (.spiDone data) s = .next (after s t)
      (b.sec.spi = none → gives b) ∧
      (∀ x, b.sec.spi = some x → ∀ u,
        u = (({ b with sec := { b.sec with spi := none } } : State).wrF Reg.secSpiStat 31 31 0).flashOp x →
        (x.write = true → gives u) ∧
        (x.write = false → x.opcode = 0x03 ∨ x.opcode = 0x13 ∨ x.opcode = 0xEB → gives (u.setSpiBuf (u.flashBytes (x.addr % 256 ^ (max 1 x.alen)) x.len))) ∧
        (x.write = false → x.opcode ≠ 0x03 → x.opcode ≠ 0x13 → x.opcode ≠ 0xEB → gives (u.setSpiBuf ((data ++ List.replicate x.len 0).take x.len))))) ∧
    (∀ (w : State) (x : SpiTxn), ∀ a,
      let wel := fun (u : State) v => ({ u with sec := { u.sec with wel := v } } : State)
      (x.alen = 0 → a = 0) → (x.alen ≠ 0 → a = x.addr % 256 ^ x.alen) →
      (x.opcode = 0x06 → w.flashOp x = wel w true) ∧ (x.opcode = 0x04 → w.flashOp x = wel w false) ∧
      (x.opcode = 0x02 ∨ x.opcode = 0x20 ∨ x.opcode = 0xD8 ∨ x.opcode = 0xC7 → w.sec.wel = false → w.flashOp x = w) ∧
      (w.sec.wel = true →
        (x.opcode = 0x02 → (x.write = true → w.flashOp x = wel (w.programFlash a (w.spiBuf.take x.len)) false) ∧ (x.write = false → w.flashOp x = wel w false)) ∧
        (x.opcode = 0x20 → w.flashOp x = wel (w.eraseFlash (a / 4096 * 4096) 4096) false) ∧ (x.opcode = 0xD8 → w.flashOp x = wel (w.eraseFlash (a / 65536 * 65536) 65536) false) ∧
        (x.opcode = 0xC7 → w.flashOp x = wel (w.eraseFlash 0 (2 ^ 32)) false)) ∧
      (x.opcode = 0x03 ∨ x.opcode = 0x13 ∨ x.opcode = 0xEB ∨ x.opcode = 0x05 → w.flashOp x = w))
end

