-- ==== Sys2Proof/Laws/State.lean ====
section
/-! SUPPORT. What each update of State leaves alone: one lemma per field and update, so that no proof unfolds a record update. -/

namespace Sys2Proof.Machine

variable (s : State)

/-! ### `State.wr` writes `csr` -/

@[simp] theorem State.wr_pending (off v : Nat) : (s.wr off v).pending = s.pending := (rfl)
@[simp] theorem State.wr_out (off v : Nat) : (s.wr off v).out = s.out := (rfl)
@[simp] theorem State.wr_fresh (off v : Nat) : (s.wr off v).fresh = s.fresh := (rfl)
@[simp] theorem State.wr_pairs (off v : Nat) : (s.wr off v).pairs = s.pairs := (rfl)
@[simp] theorem State.wr_pcie (off v : Nat) : (s.wr off v).pcie = s.pcie := (rfl)
@[simp] theorem State.wr_mbx (off v : Nat) : (s.wr off v).mbx = s.mbx := (rfl)
@[simp] theorem State.wr_fw (off v : Nat) : (s.wr off v).fw = s.fw := (rfl)
@[simp] theorem State.wr_cm (off v : Nat) : (s.wr off v).cm = s.cm := (rfl)
@[simp] theorem State.wr_cores (off v : Nat) : (s.wr off v).cores = s.cores := (rfl)
@[simp] theorem State.wr_engs (off v : Nat) : (s.wr off v).engs = s.engs := (rfl)
@[simp] theorem State.wr_nfes (off v : Nat) : (s.wr off v).nfes = s.nfes := (rfl)
@[simp] theorem State.wr_dct (off v : Nat) : (s.wr off v).dct = s.dct := (rfl)
@[simp] theorem State.wr_dctTurn (off v : Nat) : (s.wr off v).dctTurn = s.dctTurn := (rfl)
@[simp] theorem State.wr_mem (off v : Nat) : (s.wr off v).mem = s.mem := (rfl)
@[simp] theorem State.wr_dmc (off v : Nat) : (s.wr off v).dmc = s.dmc := (rfl)
@[simp] theorem State.wr_front (off v : Nat) : (s.wr off v).front = s.front := (rfl)
@[simp] theorem State.wr_mrd (off v : Nat) : (s.wr off v).mrd = s.mrd := (rfl)
@[simp] theorem State.wr_trl (off v : Nat) : (s.wr off v).trl = s.trl := (rfl)
@[simp] theorem State.wr_rsv (off v : Nat) : (s.wr off v).rsv = s.rsv := (rfl)
@[simp] theorem State.wr_pwr (off v : Nat) : (s.wr off v).pwr = s.pwr := (rfl)
@[simp] theorem State.wr_nw (off v : Nat) : (s.wr off v).nw = s.nw := (rfl)
@[simp] theorem State.wr_sec (off v : Nat) : (s.wr off v).sec = s.sec := (rfl)
@[simp] theorem State.wr_cen (off v : Nat) : (s.wr off v).cen = s.cen := (rfl)

/-! ### `State.wrF` writes `csr` -/

@[simp] theorem State.wrF_pending (off hi lo v : Nat) : (s.wrF off hi lo v).pending = s.pending := (rfl)
@[simp] theorem State.wrF_out (off hi lo v : Nat) : (s.wrF off hi lo v).out = s.out := (rfl)
@[simp] theorem State.wrF_fresh (off hi lo v : Nat) : (s.wrF off hi lo v).fresh = s.fresh := (rfl)
@[simp] theorem State.wrF_pairs (off hi lo v : Nat) : (s.wrF off hi lo v).pairs = s.pairs := (rfl)
@[simp] theorem State.wrF_pcie (off hi lo v : Nat) : (s.wrF off hi lo v).pcie = s.pcie := (rfl)
@[simp] theorem State.wrF_mbx (off hi lo v : Nat) : (s.wrF off hi lo v).mbx = s.mbx := (rfl)
@[simp] theorem State.wrF_fw (off hi lo v : Nat) : (s.wrF off hi lo v).fw = s.fw := (rfl)
@[simp] theorem State.wrF_cm (off hi lo v : Nat) : (s.wrF off hi lo v).cm = s.cm := (rfl)
@[simp] theorem State.wrF_cores (off hi lo v : Nat) : (s.wrF off hi lo v).cores = s.cores := (rfl)
@[simp] theorem State.wrF_engs (off hi lo v : Nat) : (s.wrF off hi lo v).engs = s.engs := (rfl)
@[simp] theorem State.wrF_nfes (off hi lo v : Nat) : (s.wrF off hi lo v).nfes = s.nfes := (rfl)
@[simp] theorem State.wrF_dct (off hi lo v : Nat) : (s.wrF off hi lo v).dct = s.dct := (rfl)
@[simp] theorem State.wrF_dctTurn (off hi lo v : Nat) : (s.wrF off hi lo v).dctTurn = s.dctTurn := (rfl)
@[simp] theorem State.wrF_mem (off hi lo v : Nat) : (s.wrF off hi lo v).mem = s.mem := (rfl)
@[simp] theorem State.wrF_dmc (off hi lo v : Nat) : (s.wrF off hi lo v).dmc = s.dmc := (rfl)
@[simp] theorem State.wrF_front (off hi lo v : Nat) : (s.wrF off hi lo v).front = s.front := (rfl)
@[simp] theorem State.wrF_mrd (off hi lo v : Nat) : (s.wrF off hi lo v).mrd = s.mrd := (rfl)
@[simp] theorem State.wrF_trl (off hi lo v : Nat) : (s.wrF off hi lo v).trl = s.trl := (rfl)
@[simp] theorem State.wrF_rsv (off hi lo v : Nat) : (s.wrF off hi lo v).rsv = s.rsv := (rfl)
@[simp] theorem State.wrF_pwr (off hi lo v : Nat) : (s.wrF off hi lo v).pwr = s.pwr := (rfl)
@[simp] theorem State.wrF_nw (off hi lo v : Nat) : (s.wrF off hi lo v).nw = s.nw := (rfl)
@[simp] theorem State.wrF_sec (off hi lo v : Nat) : (s.wrF off hi lo v).sec = s.sec := (rfl)
@[simp] theorem State.wrF_cen (off hi lo v : Nat) : (s.wrF off hi lo v).cen = s.cen := (rfl)

/-! ### `State.wrPair` writes `csr` -/

@[simp] theorem State.wrPair_pending (lo hi w v : Nat) : (s.wrPair lo hi w v).pending = s.pending := (rfl)
@[simp] theorem State.wrPair_out (lo hi w v : Nat) : (s.wrPair lo hi w v).out = s.out := (rfl)
@[simp] theorem State.wrPair_fresh (lo hi w v : Nat) : (s.wrPair lo hi w v).fresh = s.fresh := (rfl)
@[simp] theorem State.wrPair_pairs (lo hi w v : Nat) : (s.wrPair lo hi w v).pairs = s.pairs := (rfl)
@[simp] theorem State.wrPair_pcie (lo hi w v : Nat) : (s.wrPair lo hi w v).pcie = s.pcie := (rfl)
@[simp] theorem State.wrPair_mbx (lo hi w v : Nat) : (s.wrPair lo hi w v).mbx = s.mbx := (rfl)
@[simp] theorem State.wrPair_fw (lo hi w v : Nat) : (s.wrPair lo hi w v).fw = s.fw := (rfl)
@[simp] theorem State.wrPair_cm (lo hi w v : Nat) : (s.wrPair lo hi w v).cm = s.cm := (rfl)
@[simp] theorem State.wrPair_cores (lo hi w v : Nat) : (s.wrPair lo hi w v).cores = s.cores := (rfl)
@[simp] theorem State.wrPair_engs (lo hi w v : Nat) : (s.wrPair lo hi w v).engs = s.engs := (rfl)
@[simp] theorem State.wrPair_nfes (lo hi w v : Nat) : (s.wrPair lo hi w v).nfes = s.nfes := (rfl)
@[simp] theorem State.wrPair_dct (lo hi w v : Nat) : (s.wrPair lo hi w v).dct = s.dct := (rfl)
@[simp] theorem State.wrPair_dctTurn (lo hi w v : Nat) : (s.wrPair lo hi w v).dctTurn = s.dctTurn := (rfl)
@[simp] theorem State.wrPair_mem (lo hi w v : Nat) : (s.wrPair lo hi w v).mem = s.mem := (rfl)
@[simp] theorem State.wrPair_dmc (lo hi w v : Nat) : (s.wrPair lo hi w v).dmc = s.dmc := (rfl)
@[simp] theorem State.wrPair_front (lo hi w v : Nat) : (s.wrPair lo hi w v).front = s.front := (rfl)
@[simp] theorem State.wrPair_mrd (lo hi w v : Nat) : (s.wrPair lo hi w v).mrd = s.mrd := (rfl)
@[simp] theorem State.wrPair_trl (lo hi w v : Nat) : (s.wrPair lo hi w v).trl = s.trl := (rfl)
@[simp] theorem State.wrPair_rsv (lo hi w v : Nat) : (s.wrPair lo hi w v).rsv = s.rsv := (rfl)
@[simp] theorem State.wrPair_pwr (lo hi w v : Nat) : (s.wrPair lo hi w v).pwr = s.pwr := (rfl)
@[simp] theorem State.wrPair_nw (lo hi w v : Nat) : (s.wrPair lo hi w v).nw = s.nw := (rfl)
@[simp] theorem State.wrPair_sec (lo hi w v : Nat) : (s.wrPair lo hi w v).sec = s.sec := (rfl)
@[simp] theorem State.wrPair_cen (lo hi w v : Nat) : (s.wrPair lo hi w v).cen = s.cen := (rfl)

/-! ### `State.count` writes `csr` -/

@[simp] theorem State.count_pending (off n : Nat) : (s.count off n).pending = s.pending := (rfl)
@[simp] theorem State.count_out (off n : Nat) : (s.count off n).out = s.out := (rfl)
@[simp] theorem State.count_fresh (off n : Nat) : (s.count off n).fresh = s.fresh := (rfl)
@[simp] theorem State.count_pairs (off n : Nat) : (s.count off n).pairs = s.pairs := (rfl)
@[simp] theorem State.count_pcie (off n : Nat) : (s.count off n).pcie = s.pcie := (rfl)
@[simp] theorem State.count_mbx (off n : Nat) : (s.count off n).mbx = s.mbx := (rfl)
@[simp] theorem State.count_fw (off n : Nat) : (s.count off n).fw = s.fw := (rfl)
@[simp] theorem State.count_cm (off n : Nat) : (s.count off n).cm = s.cm := (rfl)
@[simp] theorem State.count_cores (off n : Nat) : (s.count off n).cores = s.cores := (rfl)
@[simp] theorem State.count_engs (off n : Nat) : (s.count off n).engs = s.engs := (rfl)
@[simp] theorem State.count_nfes (off n : Nat) : (s.count off n).nfes = s.nfes := (rfl)
@[simp] theorem State.count_dct (off n : Nat) : (s.count off n).dct = s.dct := (rfl)
@[simp] theorem State.count_dctTurn (off n : Nat) : (s.count off n).dctTurn = s.dctTurn := (rfl)
@[simp] theorem State.count_mem (off n : Nat) : (s.count off n).mem = s.mem := (rfl)
@[simp] theorem State.count_dmc (off n : Nat) : (s.count off n).dmc = s.dmc := (rfl)
@[simp] theorem State.count_front (off n : Nat) : (s.count off n).front = s.front := (rfl)
@[simp] theorem State.count_mrd (off n : Nat) : (s.count off n).mrd = s.mrd := (rfl)
@[simp] theorem State.count_trl (off n : Nat) : (s.count off n).trl = s.trl := (rfl)
@[simp] theorem State.count_rsv (off n : Nat) : (s.count off n).rsv = s.rsv := (rfl)
@[simp] theorem State.count_pwr (off n : Nat) : (s.count off n).pwr = s.pwr := (rfl)
@[simp] theorem State.count_nw (off n : Nat) : (s.count off n).nw = s.nw := (rfl)
@[simp] theorem State.count_sec (off n : Nat) : (s.count off n).sec = s.sec := (rfl)
@[simp] theorem State.count_cen (off n : Nat) : (s.count off n).cen = s.cen := (rfl)

/-! ### `State.emit` writes `out` -/

@[simp] theorem State.emit_pending (o : Out) : (s.emit o).pending = s.pending := (rfl)
@[simp] theorem State.emit_fresh (o : Out) : (s.emit o).fresh = s.fresh := (rfl)
@[simp] theorem State.emit_csr (o : Out) : (s.emit o).csr = s.csr := (rfl)
@[simp] theorem State.emit_pairs (o : Out) : (s.emit o).pairs = s.pairs := (rfl)
@[simp] theorem State.emit_pcie (o : Out) : (s.emit o).pcie = s.pcie := (rfl)
@[simp] theorem State.emit_mbx (o : Out) : (s.emit o).mbx = s.mbx := (rfl)
@[simp] theorem State.emit_fw (o : Out) : (s.emit o).fw = s.fw := (rfl)
@[simp] theorem State.emit_cm (o : Out) : (s.emit o).cm = s.cm := (rfl)
@[simp] theorem State.emit_cores (o : Out) : (s.emit o).cores = s.cores := (rfl)
@[simp] theorem State.emit_engs (o : Out) : (s.emit o).engs = s.engs := (rfl)
@[simp] theorem State.emit_nfes (o : Out) : (s.emit o).nfes = s.nfes := (rfl)
@[simp] theorem State.emit_dct (o : Out) : (s.emit o).dct = s.dct := (rfl)
@[simp] theorem State.emit_dctTurn (o : Out) : (s.emit o).dctTurn = s.dctTurn := (rfl)
@[simp] theorem State.emit_mem (o : Out) : (s.emit o).mem = s.mem := (rfl)
@[simp] theorem State.emit_dmc (o : Out) : (s.emit o).dmc = s.dmc := (rfl)
@[simp] theorem State.emit_front (o : Out) : (s.emit o).front = s.front := (rfl)
@[simp] theorem State.emit_mrd (o : Out) : (s.emit o).mrd = s.mrd := (rfl)
@[simp] theorem State.emit_trl (o : Out) : (s.emit o).trl = s.trl := (rfl)
@[simp] theorem State.emit_rsv (o : Out) : (s.emit o).rsv = s.rsv := (rfl)
@[simp] theorem State.emit_pwr (o : Out) : (s.emit o).pwr = s.pwr := (rfl)
@[simp] theorem State.emit_nw (o : Out) : (s.emit o).nw = s.nw := (rfl)
@[simp] theorem State.emit_sec (o : Out) : (s.emit o).sec = s.sec := (rfl)
@[simp] theorem State.emit_cen (o : Out) : (s.emit o).cen = s.cen := (rfl)

/-! ### `State.setPair` writes `pairs` -/

@[simp] theorem State.setPair_pending (i : Init) (x : PairSt) : (s.setPair i x).pending = s.pending := (rfl)
@[simp] theorem State.setPair_out (i : Init) (x : PairSt) : (s.setPair i x).out = s.out := (rfl)
@[simp] theorem State.setPair_fresh (i : Init) (x : PairSt) : (s.setPair i x).fresh = s.fresh := (rfl)
@[simp] theorem State.setPair_csr (i : Init) (x : PairSt) : (s.setPair i x).csr = s.csr := (rfl)
@[simp] theorem State.setPair_pcie (i : Init) (x : PairSt) : (s.setPair i x).pcie = s.pcie := (rfl)
@[simp] theorem State.setPair_mbx (i : Init) (x : PairSt) : (s.setPair i x).mbx = s.mbx := (rfl)
@[simp] theorem State.setPair_fw (i : Init) (x : PairSt) : (s.setPair i x).fw = s.fw := (rfl)
@[simp] theorem State.setPair_cm (i : Init) (x : PairSt) : (s.setPair i x).cm = s.cm := (rfl)
@[simp] theorem State.setPair_cores (i : Init) (x : PairSt) : (s.setPair i x).cores = s.cores := (rfl)
@[simp] theorem State.setPair_engs (i : Init) (x : PairSt) : (s.setPair i x).engs = s.engs := (rfl)
@[simp] theorem State.setPair_nfes (i : Init) (x : PairSt) : (s.setPair i x).nfes = s.nfes := (rfl)
@[simp] theorem State.setPair_dct (i : Init) (x : PairSt) : (s.setPair i x).dct = s.dct := (rfl)
@[simp] theorem State.setPair_dctTurn (i : Init) (x : PairSt) : (s.setPair i x).dctTurn = s.dctTurn := (rfl)
@[simp] theorem State.setPair_mem (i : Init) (x : PairSt) : (s.setPair i x).mem = s.mem := (rfl)
@[simp] theorem State.setPair_dmc (i : Init) (x : PairSt) : (s.setPair i x).dmc = s.dmc := (rfl)
@[simp] theorem State.setPair_front (i : Init) (x : PairSt) : (s.setPair i x).front = s.front := (rfl)
@[simp] theorem State.setPair_mrd (i : Init) (x : PairSt) : (s.setPair i x).mrd = s.mrd := (rfl)
@[simp] theorem State.setPair_trl (i : Init) (x : PairSt) : (s.setPair i x).trl = s.trl := (rfl)
@[simp] theorem State.setPair_rsv (i : Init) (x : PairSt) : (s.setPair i x).rsv = s.rsv := (rfl)
@[simp] theorem State.setPair_pwr (i : Init) (x : PairSt) : (s.setPair i x).pwr = s.pwr := (rfl)
@[simp] theorem State.setPair_nw (i : Init) (x : PairSt) : (s.setPair i x).nw = s.nw := (rfl)
@[simp] theorem State.setPair_sec (i : Init) (x : PairSt) : (s.setPair i x).sec = s.sec := (rfl)
@[simp] theorem State.setPair_cen (i : Init) (x : PairSt) : (s.setPair i x).cen = s.cen := (rfl)

/-! ### `State.tally` writes `cen` -/

@[simp] theorem State.tally_pending (g u i n : Nat) : (s.tally g u i n).pending = s.pending := (rfl)
@[simp] theorem State.tally_out (g u i n : Nat) : (s.tally g u i n).out = s.out := (rfl)
@[simp] theorem State.tally_fresh (g u i n : Nat) : (s.tally g u i n).fresh = s.fresh := (rfl)
@[simp] theorem State.tally_csr (g u i n : Nat) : (s.tally g u i n).csr = s.csr := (rfl)
@[simp] theorem State.tally_pairs (g u i n : Nat) : (s.tally g u i n).pairs = s.pairs := (rfl)
@[simp] theorem State.tally_pcie (g u i n : Nat) : (s.tally g u i n).pcie = s.pcie := (rfl)
@[simp] theorem State.tally_mbx (g u i n : Nat) : (s.tally g u i n).mbx = s.mbx := (rfl)
@[simp] theorem State.tally_fw (g u i n : Nat) : (s.tally g u i n).fw = s.fw := (rfl)
@[simp] theorem State.tally_cm (g u i n : Nat) : (s.tally g u i n).cm = s.cm := (rfl)
@[simp] theorem State.tally_cores (g u i n : Nat) : (s.tally g u i n).cores = s.cores := (rfl)
@[simp] theorem State.tally_engs (g u i n : Nat) : (s.tally g u i n).engs = s.engs := (rfl)
@[simp] theorem State.tally_nfes (g u i n : Nat) : (s.tally g u i n).nfes = s.nfes := (rfl)
@[simp] theorem State.tally_dct (g u i n : Nat) : (s.tally g u i n).dct = s.dct := (rfl)
@[simp] theorem State.tally_dctTurn (g u i n : Nat) : (s.tally g u i n).dctTurn = s.dctTurn := (rfl)
@[simp] theorem State.tally_mem (g u i n : Nat) : (s.tally g u i n).mem = s.mem := (rfl)
@[simp] theorem State.tally_dmc (g u i n : Nat) : (s.tally g u i n).dmc = s.dmc := (rfl)
@[simp] theorem State.tally_front (g u i n : Nat) : (s.tally g u i n).front = s.front := (rfl)
@[simp] theorem State.tally_mrd (g u i n : Nat) : (s.tally g u i n).mrd = s.mrd := (rfl)
@[simp] theorem State.tally_trl (g u i n : Nat) : (s.tally g u i n).trl = s.trl := (rfl)
@[simp] theorem State.tally_rsv (g u i n : Nat) : (s.tally g u i n).rsv = s.rsv := (rfl)
@[simp] theorem State.tally_pwr (g u i n : Nat) : (s.tally g u i n).pwr = s.pwr := (rfl)
@[simp] theorem State.tally_nw (g u i n : Nat) : (s.tally g u i n).nw = s.nw := (rfl)
@[simp] theorem State.tally_sec (g u i n : Nat) : (s.tally g u i n).sec = s.sec := (rfl)

/-! ### `State.hist` writes `cen` -/

@[simp] theorem State.hist_pending (g u h x : Nat) : (s.hist g u h x).pending = s.pending := (rfl)
@[simp] theorem State.hist_out (g u h x : Nat) : (s.hist g u h x).out = s.out := (rfl)
@[simp] theorem State.hist_fresh (g u h x : Nat) : (s.hist g u h x).fresh = s.fresh := (rfl)
@[simp] theorem State.hist_csr (g u h x : Nat) : (s.hist g u h x).csr = s.csr := (rfl)
@[simp] theorem State.hist_pairs (g u h x : Nat) : (s.hist g u h x).pairs = s.pairs := (rfl)
@[simp] theorem State.hist_pcie (g u h x : Nat) : (s.hist g u h x).pcie = s.pcie := (rfl)
@[simp] theorem State.hist_mbx (g u h x : Nat) : (s.hist g u h x).mbx = s.mbx := (rfl)
@[simp] theorem State.hist_fw (g u h x : Nat) : (s.hist g u h x).fw = s.fw := (rfl)
@[simp] theorem State.hist_cm (g u h x : Nat) : (s.hist g u h x).cm = s.cm := (rfl)
@[simp] theorem State.hist_cores (g u h x : Nat) : (s.hist g u h x).cores = s.cores := (rfl)
@[simp] theorem State.hist_engs (g u h x : Nat) : (s.hist g u h x).engs = s.engs := (rfl)
@[simp] theorem State.hist_nfes (g u h x : Nat) : (s.hist g u h x).nfes = s.nfes := (rfl)
@[simp] theorem State.hist_dct (g u h x : Nat) : (s.hist g u h x).dct = s.dct := (rfl)
@[simp] theorem State.hist_dctTurn (g u h x : Nat) : (s.hist g u h x).dctTurn = s.dctTurn := (rfl)
@[simp] theorem State.hist_mem (g u h x : Nat) : (s.hist g u h x).mem = s.mem := (rfl)
@[simp] theorem State.hist_dmc (g u h x : Nat) : (s.hist g u h x).dmc = s.dmc := (rfl)
@[simp] theorem State.hist_front (g u h x : Nat) : (s.hist g u h x).front = s.front := (rfl)
@[simp] theorem State.hist_mrd (g u h x : Nat) : (s.hist g u h x).mrd = s.mrd := (rfl)
@[simp] theorem State.hist_trl (g u h x : Nat) : (s.hist g u h x).trl = s.trl := (rfl)
@[simp] theorem State.hist_rsv (g u h x : Nat) : (s.hist g u h x).rsv = s.rsv := (rfl)
@[simp] theorem State.hist_pwr (g u h x : Nat) : (s.hist g u h x).pwr = s.pwr := (rfl)
@[simp] theorem State.hist_nw (g u h x : Nat) : (s.hist g u h x).nw = s.nw := (rfl)
@[simp] theorem State.hist_sec (g u h x : Nat) : (s.hist g u h x).sec = s.sec := (rfl)

/-! ### `State.putHost` writes `mem` -/

@[simp] theorem State.putHost_pending (a : Nat) (bs : List Byte) : (s.putHost a bs).pending = s.pending := (rfl)
@[simp] theorem State.putHost_out (a : Nat) (bs : List Byte) : (s.putHost a bs).out = s.out := (rfl)
@[simp] theorem State.putHost_fresh (a : Nat) (bs : List Byte) : (s.putHost a bs).fresh = s.fresh := (rfl)
@[simp] theorem State.putHost_csr (a : Nat) (bs : List Byte) : (s.putHost a bs).csr = s.csr := (rfl)
@[simp] theorem State.putHost_pairs (a : Nat) (bs : List Byte) : (s.putHost a bs).pairs = s.pairs := (rfl)
@[simp] theorem State.putHost_pcie (a : Nat) (bs : List Byte) : (s.putHost a bs).pcie = s.pcie := (rfl)
@[simp] theorem State.putHost_mbx (a : Nat) (bs : List Byte) : (s.putHost a bs).mbx = s.mbx := (rfl)
@[simp] theorem State.putHost_fw (a : Nat) (bs : List Byte) : (s.putHost a bs).fw = s.fw := (rfl)
@[simp] theorem State.putHost_cm (a : Nat) (bs : List Byte) : (s.putHost a bs).cm = s.cm := (rfl)
@[simp] theorem State.putHost_cores (a : Nat) (bs : List Byte) : (s.putHost a bs).cores = s.cores := (rfl)
@[simp] theorem State.putHost_engs (a : Nat) (bs : List Byte) : (s.putHost a bs).engs = s.engs := (rfl)
@[simp] theorem State.putHost_nfes (a : Nat) (bs : List Byte) : (s.putHost a bs).nfes = s.nfes := (rfl)
@[simp] theorem State.putHost_dct (a : Nat) (bs : List Byte) : (s.putHost a bs).dct = s.dct := (rfl)
@[simp] theorem State.putHost_dctTurn (a : Nat) (bs : List Byte) : (s.putHost a bs).dctTurn = s.dctTurn := (rfl)
@[simp] theorem State.putHost_dmc (a : Nat) (bs : List Byte) : (s.putHost a bs).dmc = s.dmc := (rfl)
@[simp] theorem State.putHost_front (a : Nat) (bs : List Byte) : (s.putHost a bs).front = s.front := (rfl)
@[simp] theorem State.putHost_mrd (a : Nat) (bs : List Byte) : (s.putHost a bs).mrd = s.mrd := (rfl)
@[simp] theorem State.putHost_trl (a : Nat) (bs : List Byte) : (s.putHost a bs).trl = s.trl := (rfl)
@[simp] theorem State.putHost_rsv (a : Nat) (bs : List Byte) : (s.putHost a bs).rsv = s.rsv := (rfl)
@[simp] theorem State.putHost_pwr (a : Nat) (bs : List Byte) : (s.putHost a bs).pwr = s.pwr := (rfl)
@[simp] theorem State.putHost_nw (a : Nat) (bs : List Byte) : (s.putHost a bs).nw = s.nw := (rfl)
@[simp] theorem State.putHost_sec (a : Nat) (bs : List Byte) : (s.putHost a bs).sec = s.sec := (rfl)
@[simp] theorem State.putHost_cen (a : Nat) (bs : List Byte) : (s.putHost a bs).cen = s.cen := (rfl)

/-! ### `State.putDev` writes `mem` -/

@[simp] theorem State.putDev_pending (a : Nat) (bs : List Byte) : (s.putDev a bs).pending = s.pending := (rfl)
@[simp] theorem State.putDev_out (a : Nat) (bs : List Byte) : (s.putDev a bs).out = s.out := (rfl)
@[simp] theorem State.putDev_fresh (a : Nat) (bs : List Byte) : (s.putDev a bs).fresh = s.fresh := (rfl)
@[simp] theorem State.putDev_csr (a : Nat) (bs : List Byte) : (s.putDev a bs).csr = s.csr := (rfl)
@[simp] theorem State.putDev_pairs (a : Nat) (bs : List Byte) : (s.putDev a bs).pairs = s.pairs := (rfl)
@[simp] theorem State.putDev_pcie (a : Nat) (bs : List Byte) : (s.putDev a bs).pcie = s.pcie := (rfl)
@[simp] theorem State.putDev_mbx (a : Nat) (bs : List Byte) : (s.putDev a bs).mbx = s.mbx := (rfl)
@[simp] theorem State.putDev_fw (a : Nat) (bs : List Byte) : (s.putDev a bs).fw = s.fw := (rfl)
@[simp] theorem State.putDev_cm (a : Nat) (bs : List Byte) : (s.putDev a bs).cm = s.cm := (rfl)
@[simp] theorem State.putDev_cores (a : Nat) (bs : List Byte) : (s.putDev a bs).cores = s.cores := (rfl)
@[simp] theorem State.putDev_engs (a : Nat) (bs : List Byte) : (s.putDev a bs).engs = s.engs := (rfl)
@[simp] theorem State.putDev_nfes (a : Nat) (bs : List Byte) : (s.putDev a bs).nfes = s.nfes := (rfl)
@[simp] theorem State.putDev_dct (a : Nat) (bs : List Byte) : (s.putDev a bs).dct = s.dct := (rfl)
@[simp] theorem State.putDev_dctTurn (a : Nat) (bs : List Byte) : (s.putDev a bs).dctTurn = s.dctTurn := (rfl)
@[simp] theorem State.putDev_dmc (a : Nat) (bs : List Byte) : (s.putDev a bs).dmc = s.dmc := (rfl)
@[simp] theorem State.putDev_front (a : Nat) (bs : List Byte) : (s.putDev a bs).front = s.front := (rfl)
@[simp] theorem State.putDev_mrd (a : Nat) (bs : List Byte) : (s.putDev a bs).mrd = s.mrd := (rfl)
@[simp] theorem State.putDev_trl (a : Nat) (bs : List Byte) : (s.putDev a bs).trl = s.trl := (rfl)
@[simp] theorem State.putDev_rsv (a : Nat) (bs : List Byte) : (s.putDev a bs).rsv = s.rsv := (rfl)
@[simp] theorem State.putDev_pwr (a : Nat) (bs : List Byte) : (s.putDev a bs).pwr = s.pwr := (rfl)
@[simp] theorem State.putDev_nw (a : Nat) (bs : List Byte) : (s.putDev a bs).nw = s.nw := (rfl)
@[simp] theorem State.putDev_sec (a : Nat) (bs : List Byte) : (s.putDev a bs).sec = s.sec := (rfl)
@[simp] theorem State.putDev_cen (a : Nat) (bs : List Byte) : (s.putDev a bs).cen = s.cen := (rfl)

/-! ### `State.setMbx` writes `mbx` -/

@[simp] theorem State.setMbx_pending (m : Nat) (x : MbxState) : (s.setMbx m x).pending = s.pending := (rfl)
@[simp] theorem State.setMbx_out (m : Nat) (x : MbxState) : (s.setMbx m x).out = s.out := (rfl)
@[simp] theorem State.setMbx_fresh (m : Nat) (x : MbxState) : (s.setMbx m x).fresh = s.fresh := (rfl)
@[simp] theorem State.setMbx_csr (m : Nat) (x : MbxState) : (s.setMbx m x).csr = s.csr := (rfl)
@[simp] theorem State.setMbx_pairs (m : Nat) (x : MbxState) : (s.setMbx m x).pairs = s.pairs := (rfl)
@[simp] theorem State.setMbx_pcie (m : Nat) (x : MbxState) : (s.setMbx m x).pcie = s.pcie := (rfl)
@[simp] theorem State.setMbx_fw (m : Nat) (x : MbxState) : (s.setMbx m x).fw = s.fw := (rfl)
@[simp] theorem State.setMbx_cm (m : Nat) (x : MbxState) : (s.setMbx m x).cm = s.cm := (rfl)
@[simp] theorem State.setMbx_cores (m : Nat) (x : MbxState) : (s.setMbx m x).cores = s.cores := (rfl)
@[simp] theorem State.setMbx_engs (m : Nat) (x : MbxState) : (s.setMbx m x).engs = s.engs := (rfl)
@[simp] theorem State.setMbx_nfes (m : Nat) (x : MbxState) : (s.setMbx m x).nfes = s.nfes := (rfl)
@[simp] theorem State.setMbx_dct (m : Nat) (x : MbxState) : (s.setMbx m x).dct = s.dct := (rfl)
@[simp] theorem State.setMbx_dctTurn (m : Nat) (x : MbxState) : (s.setMbx m x).dctTurn = s.dctTurn := (rfl)
@[simp] theorem State.setMbx_mem (m : Nat) (x : MbxState) : (s.setMbx m x).mem = s.mem := (rfl)
@[simp] theorem State.setMbx_dmc (m : Nat) (x : MbxState) : (s.setMbx m x).dmc = s.dmc := (rfl)
@[simp] theorem State.setMbx_front (m : Nat) (x : MbxState) : (s.setMbx m x).front = s.front := (rfl)
@[simp] theorem State.setMbx_mrd (m : Nat) (x : MbxState) : (s.setMbx m x).mrd = s.mrd := (rfl)
@[simp] theorem State.setMbx_trl (m : Nat) (x : MbxState) : (s.setMbx m x).trl = s.trl := (rfl)
@[simp] theorem State.setMbx_rsv (m : Nat) (x : MbxState) : (s.setMbx m x).rsv = s.rsv := (rfl)
@[simp] theorem State.setMbx_pwr (m : Nat) (x : MbxState) : (s.setMbx m x).pwr = s.pwr := (rfl)
@[simp] theorem State.setMbx_nw (m : Nat) (x : MbxState) : (s.setMbx m x).nw = s.nw := (rfl)
@[simp] theorem State.setMbx_sec (m : Nat) (x : MbxState) : (s.setMbx m x).sec = s.sec := (rfl)
@[simp] theorem State.setMbx_cen (m : Nat) (x : MbxState) : (s.setMbx m x).cen = s.cen := (rfl)

/-! ### `State.setCore` writes `cores` -/

@[simp] theorem State.setCore_pending (c k : Nat) (x : CoreState) : (s.setCore c k x).pending = s.pending := (rfl)
@[simp] theorem State.setCore_out (c k : Nat) (x : CoreState) : (s.setCore c k x).out = s.out := (rfl)
@[simp] theorem State.setCore_fresh (c k : Nat) (x : CoreState) : (s.setCore c k x).fresh = s.fresh := (rfl)
@[simp] theorem State.setCore_csr (c k : Nat) (x : CoreState) : (s.setCore c k x).csr = s.csr := (rfl)
@[simp] theorem State.setCore_pairs (c k : Nat) (x : CoreState) : (s.setCore c k x).pairs = s.pairs := (rfl)
@[simp] theorem State.setCore_pcie (c k : Nat) (x : CoreState) : (s.setCore c k x).pcie = s.pcie := (rfl)
@[simp] theorem State.setCore_mbx (c k : Nat) (x : CoreState) : (s.setCore c k x).mbx = s.mbx := (rfl)
@[simp] theorem State.setCore_fw (c k : Nat) (x : CoreState) : (s.setCore c k x).fw = s.fw := (rfl)
@[simp] theorem State.setCore_cm (c k : Nat) (x : CoreState) : (s.setCore c k x).cm = s.cm := (rfl)
@[simp] theorem State.setCore_engs (c k : Nat) (x : CoreState) : (s.setCore c k x).engs = s.engs := (rfl)
@[simp] theorem State.setCore_nfes (c k : Nat) (x : CoreState) : (s.setCore c k x).nfes = s.nfes := (rfl)
@[simp] theorem State.setCore_dct (c k : Nat) (x : CoreState) : (s.setCore c k x).dct = s.dct := (rfl)
@[simp] theorem State.setCore_dctTurn (c k : Nat) (x : CoreState) : (s.setCore c k x).dctTurn = s.dctTurn := (rfl)
@[simp] theorem State.setCore_mem (c k : Nat) (x : CoreState) : (s.setCore c k x).mem = s.mem := (rfl)
@[simp] theorem State.setCore_dmc (c k : Nat) (x : CoreState) : (s.setCore c k x).dmc = s.dmc := (rfl)
@[simp] theorem State.setCore_front (c k : Nat) (x : CoreState) : (s.setCore c k x).front = s.front := (rfl)
@[simp] theorem State.setCore_mrd (c k : Nat) (x : CoreState) : (s.setCore c k x).mrd = s.mrd := (rfl)
@[simp] theorem State.setCore_trl (c k : Nat) (x : CoreState) : (s.setCore c k x).trl = s.trl := (rfl)
@[simp] theorem State.setCore_rsv (c k : Nat) (x : CoreState) : (s.setCore c k x).rsv = s.rsv := (rfl)
@[simp] theorem State.setCore_pwr (c k : Nat) (x : CoreState) : (s.setCore c k x).pwr = s.pwr := (rfl)
@[simp] theorem State.setCore_nw (c k : Nat) (x : CoreState) : (s.setCore c k x).nw = s.nw := (rfl)
@[simp] theorem State.setCore_sec (c k : Nat) (x : CoreState) : (s.setCore c k x).sec = s.sec := (rfl)
@[simp] theorem State.setCore_cen (c k : Nat) (x : CoreState) : (s.setCore c k x).cen = s.cen := (rfl)

/-! ### `State.setEng` writes `engs` -/

@[simp] theorem State.setEng_pending (e : Nat) (x : EngState) : (s.setEng e x).pending = s.pending := (rfl)
@[simp] theorem State.setEng_out (e : Nat) (x : EngState) : (s.setEng e x).out = s.out := (rfl)
@[simp] theorem State.setEng_fresh (e : Nat) (x : EngState) : (s.setEng e x).fresh = s.fresh := (rfl)
@[simp] theorem State.setEng_csr (e : Nat) (x : EngState) : (s.setEng e x).csr = s.csr := (rfl)
@[simp] theorem State.setEng_pairs (e : Nat) (x : EngState) : (s.setEng e x).pairs = s.pairs := (rfl)
@[simp] theorem State.setEng_pcie (e : Nat) (x : EngState) : (s.setEng e x).pcie = s.pcie := (rfl)
@[simp] theorem State.setEng_mbx (e : Nat) (x : EngState) : (s.setEng e x).mbx = s.mbx := (rfl)
@[simp] theorem State.setEng_fw (e : Nat) (x : EngState) : (s.setEng e x).fw = s.fw := (rfl)
@[simp] theorem State.setEng_cm (e : Nat) (x : EngState) : (s.setEng e x).cm = s.cm := (rfl)
@[simp] theorem State.setEng_cores (e : Nat) (x : EngState) : (s.setEng e x).cores = s.cores := (rfl)
@[simp] theorem State.setEng_nfes (e : Nat) (x : EngState) : (s.setEng e x).nfes = s.nfes := (rfl)
@[simp] theorem State.setEng_dct (e : Nat) (x : EngState) : (s.setEng e x).dct = s.dct := (rfl)
@[simp] theorem State.setEng_dctTurn (e : Nat) (x : EngState) : (s.setEng e x).dctTurn = s.dctTurn := (rfl)
@[simp] theorem State.setEng_mem (e : Nat) (x : EngState) : (s.setEng e x).mem = s.mem := (rfl)
@[simp] theorem State.setEng_dmc (e : Nat) (x : EngState) : (s.setEng e x).dmc = s.dmc := (rfl)
@[simp] theorem State.setEng_front (e : Nat) (x : EngState) : (s.setEng e x).front = s.front := (rfl)
@[simp] theorem State.setEng_mrd (e : Nat) (x : EngState) : (s.setEng e x).mrd = s.mrd := (rfl)
@[simp] theorem State.setEng_trl (e : Nat) (x : EngState) : (s.setEng e x).trl = s.trl := (rfl)
@[simp] theorem State.setEng_rsv (e : Nat) (x : EngState) : (s.setEng e x).rsv = s.rsv := (rfl)
@[simp] theorem State.setEng_pwr (e : Nat) (x : EngState) : (s.setEng e x).pwr = s.pwr := (rfl)
@[simp] theorem State.setEng_nw (e : Nat) (x : EngState) : (s.setEng e x).nw = s.nw := (rfl)
@[simp] theorem State.setEng_sec (e : Nat) (x : EngState) : (s.setEng e x).sec = s.sec := (rfl)
@[simp] theorem State.setEng_cen (e : Nat) (x : EngState) : (s.setEng e x).cen = s.cen := (rfl)

/-! ### `State.setNfe` writes `nfes` -/

@[simp] theorem State.setNfe_pending (n : Nat) (x : NfeState) : (s.setNfe n x).pending = s.pending := (rfl)
@[simp] theorem State.setNfe_out (n : Nat) (x : NfeState) : (s.setNfe n x).out = s.out := (rfl)
@[simp] theorem State.setNfe_fresh (n : Nat) (x : NfeState) : (s.setNfe n x).fresh = s.fresh := (rfl)
@[simp] theorem State.setNfe_csr (n : Nat) (x : NfeState) : (s.setNfe n x).csr = s.csr := (rfl)
@[simp] theorem State.setNfe_pairs (n : Nat) (x : NfeState) : (s.setNfe n x).pairs = s.pairs := (rfl)
@[simp] theorem State.setNfe_pcie (n : Nat) (x : NfeState) : (s.setNfe n x).pcie = s.pcie := (rfl)
@[simp] theorem State.setNfe_mbx (n : Nat) (x : NfeState) : (s.setNfe n x).mbx = s.mbx := (rfl)
@[simp] theorem State.setNfe_fw (n : Nat) (x : NfeState) : (s.setNfe n x).fw = s.fw := (rfl)
@[simp] theorem State.setNfe_cm (n : Nat) (x : NfeState) : (s.setNfe n x).cm = s.cm := (rfl)
@[simp] theorem State.setNfe_cores (n : Nat) (x : NfeState) : (s.setNfe n x).cores = s.cores := (rfl)
@[simp] theorem State.setNfe_engs (n : Nat) (x : NfeState) : (s.setNfe n x).engs = s.engs := (rfl)
@[simp] theorem State.setNfe_dct (n : Nat) (x : NfeState) : (s.setNfe n x).dct = s.dct := (rfl)
@[simp] theorem State.setNfe_dctTurn (n : Nat) (x : NfeState) : (s.setNfe n x).dctTurn = s.dctTurn := (rfl)
@[simp] theorem State.setNfe_mem (n : Nat) (x : NfeState) : (s.setNfe n x).mem = s.mem := (rfl)
@[simp] theorem State.setNfe_dmc (n : Nat) (x : NfeState) : (s.setNfe n x).dmc = s.dmc := (rfl)
@[simp] theorem State.setNfe_front (n : Nat) (x : NfeState) : (s.setNfe n x).front = s.front := (rfl)
@[simp] theorem State.setNfe_mrd (n : Nat) (x : NfeState) : (s.setNfe n x).mrd = s.mrd := (rfl)
@[simp] theorem State.setNfe_trl (n : Nat) (x : NfeState) : (s.setNfe n x).trl = s.trl := (rfl)
@[simp] theorem State.setNfe_rsv (n : Nat) (x : NfeState) : (s.setNfe n x).rsv = s.rsv := (rfl)
@[simp] theorem State.setNfe_pwr (n : Nat) (x : NfeState) : (s.setNfe n x).pwr = s.pwr := (rfl)
@[simp] theorem State.setNfe_nw (n : Nat) (x : NfeState) : (s.setNfe n x).nw = s.nw := (rfl)
@[simp] theorem State.setNfe_sec (n : Nat) (x : NfeState) : (s.setNfe n x).sec = s.sec := (rfl)
@[simp] theorem State.setNfe_cen (n : Nat) (x : NfeState) : (s.setNfe n x).cen = s.cen := (rfl)

/-! ### `State.setDct` writes `dct` -/

@[simp] theorem State.setDct_pending (ch : Nat) (x : DctChan) : (s.setDct ch x).pending = s.pending := (rfl)
@[simp] theorem State.setDct_out (ch : Nat) (x : DctChan) : (s.setDct ch x).out = s.out := (rfl)
@[simp] theorem State.setDct_fresh (ch : Nat) (x : DctChan) : (s.setDct ch x).fresh = s.fresh := (rfl)
@[simp] theorem State.setDct_csr (ch : Nat) (x : DctChan) : (s.setDct ch x).csr = s.csr := (rfl)
@[simp] theorem State.setDct_pairs (ch : Nat) (x : DctChan) : (s.setDct ch x).pairs = s.pairs := (rfl)
@[simp] theorem State.setDct_pcie (ch : Nat) (x : DctChan) : (s.setDct ch x).pcie = s.pcie := (rfl)
@[simp] theorem State.setDct_mbx (ch : Nat) (x : DctChan) : (s.setDct ch x).mbx = s.mbx := (rfl)
@[simp] theorem State.setDct_fw (ch : Nat) (x : DctChan) : (s.setDct ch x).fw = s.fw := (rfl)
@[simp] theorem State.setDct_cm (ch : Nat) (x : DctChan) : (s.setDct ch x).cm = s.cm := (rfl)
@[simp] theorem State.setDct_cores (ch : Nat) (x : DctChan) : (s.setDct ch x).cores = s.cores := (rfl)
@[simp] theorem State.setDct_engs (ch : Nat) (x : DctChan) : (s.setDct ch x).engs = s.engs := (rfl)
@[simp] theorem State.setDct_nfes (ch : Nat) (x : DctChan) : (s.setDct ch x).nfes = s.nfes := (rfl)
@[simp] theorem State.setDct_dctTurn (ch : Nat) (x : DctChan) : (s.setDct ch x).dctTurn = s.dctTurn := (rfl)
@[simp] theorem State.setDct_mem (ch : Nat) (x : DctChan) : (s.setDct ch x).mem = s.mem := (rfl)
@[simp] theorem State.setDct_dmc (ch : Nat) (x : DctChan) : (s.setDct ch x).dmc = s.dmc := (rfl)
@[simp] theorem State.setDct_front (ch : Nat) (x : DctChan) : (s.setDct ch x).front = s.front := (rfl)
@[simp] theorem State.setDct_mrd (ch : Nat) (x : DctChan) : (s.setDct ch x).mrd = s.mrd := (rfl)
@[simp] theorem State.setDct_trl (ch : Nat) (x : DctChan) : (s.setDct ch x).trl = s.trl := (rfl)
@[simp] theorem State.setDct_rsv (ch : Nat) (x : DctChan) : (s.setDct ch x).rsv = s.rsv := (rfl)
@[simp] theorem State.setDct_pwr (ch : Nat) (x : DctChan) : (s.setDct ch x).pwr = s.pwr := (rfl)
@[simp] theorem State.setDct_nw (ch : Nat) (x : DctChan) : (s.setDct ch x).nw = s.nw := (rfl)
@[simp] theorem State.setDct_sec (ch : Nat) (x : DctChan) : (s.setDct ch x).sec = s.sec := (rfl)
@[simp] theorem State.setDct_cen (ch : Nat) (x : DctChan) : (s.setDct ch x).cen = s.cen := (rfl)

/-! ### `State.setDmc` writes `dmc` -/

@[simp] theorem State.setDmc_pending (n : Nat) (x : DmcState) : (s.setDmc n x).pending = s.pending := (rfl)
@[simp] theorem State.setDmc_out (n : Nat) (x : DmcState) : (s.setDmc n x).out = s.out := (rfl)
@[simp] theorem State.setDmc_fresh (n : Nat) (x : DmcState) : (s.setDmc n x).fresh = s.fresh := (rfl)
@[simp] theorem State.setDmc_csr (n : Nat) (x : DmcState) : (s.setDmc n x).csr = s.csr := (rfl)
@[simp] theorem State.setDmc_pairs (n : Nat) (x : DmcState) : (s.setDmc n x).pairs = s.pairs := (rfl)
@[simp] theorem State.setDmc_pcie (n : Nat) (x : DmcState) : (s.setDmc n x).pcie = s.pcie := (rfl)
@[simp] theorem State.setDmc_mbx (n : Nat) (x : DmcState) : (s.setDmc n x).mbx = s.mbx := (rfl)
@[simp] theorem State.setDmc_fw (n : Nat) (x : DmcState) : (s.setDmc n x).fw = s.fw := (rfl)
@[simp] theorem State.setDmc_cm (n : Nat) (x : DmcState) : (s.setDmc n x).cm = s.cm := (rfl)
@[simp] theorem State.setDmc_cores (n : Nat) (x : DmcState) : (s.setDmc n x).cores = s.cores := (rfl)
@[simp] theorem State.setDmc_engs (n : Nat) (x : DmcState) : (s.setDmc n x).engs = s.engs := (rfl)
@[simp] theorem State.setDmc_nfes (n : Nat) (x : DmcState) : (s.setDmc n x).nfes = s.nfes := (rfl)
@[simp] theorem State.setDmc_dct (n : Nat) (x : DmcState) : (s.setDmc n x).dct = s.dct := (rfl)
@[simp] theorem State.setDmc_dctTurn (n : Nat) (x : DmcState) : (s.setDmc n x).dctTurn = s.dctTurn := (rfl)
@[simp] theorem State.setDmc_mem (n : Nat) (x : DmcState) : (s.setDmc n x).mem = s.mem := (rfl)
@[simp] theorem State.setDmc_front (n : Nat) (x : DmcState) : (s.setDmc n x).front = s.front := (rfl)
@[simp] theorem State.setDmc_mrd (n : Nat) (x : DmcState) : (s.setDmc n x).mrd = s.mrd := (rfl)
@[simp] theorem State.setDmc_trl (n : Nat) (x : DmcState) : (s.setDmc n x).trl = s.trl := (rfl)
@[simp] theorem State.setDmc_rsv (n : Nat) (x : DmcState) : (s.setDmc n x).rsv = s.rsv := (rfl)
@[simp] theorem State.setDmc_pwr (n : Nat) (x : DmcState) : (s.setDmc n x).pwr = s.pwr := (rfl)
@[simp] theorem State.setDmc_nw (n : Nat) (x : DmcState) : (s.setDmc n x).nw = s.nw := (rfl)
@[simp] theorem State.setDmc_sec (n : Nat) (x : DmcState) : (s.setDmc n x).sec = s.sec := (rfl)
@[simp] theorem State.setDmc_cen (n : Nat) (x : DmcState) : (s.setDmc n x).cen = s.cen := (rfl)

/-! ### `State.setTask` writes `cm` -/

@[simp] theorem State.setTask_pending (sl : Nat) (t : Option Task) : (s.setTask sl t).pending = s.pending := (rfl)
@[simp] theorem State.setTask_out (sl : Nat) (t : Option Task) : (s.setTask sl t).out = s.out := (rfl)
@[simp] theorem State.setTask_fresh (sl : Nat) (t : Option Task) : (s.setTask sl t).fresh = s.fresh := (rfl)
@[simp] theorem State.setTask_csr (sl : Nat) (t : Option Task) : (s.setTask sl t).csr = s.csr := (rfl)
@[simp] theorem State.setTask_pairs (sl : Nat) (t : Option Task) : (s.setTask sl t).pairs = s.pairs := (rfl)
@[simp] theorem State.setTask_pcie (sl : Nat) (t : Option Task) : (s.setTask sl t).pcie = s.pcie := (rfl)
@[simp] theorem State.setTask_mbx (sl : Nat) (t : Option Task) : (s.setTask sl t).mbx = s.mbx := (rfl)
@[simp] theorem State.setTask_fw (sl : Nat) (t : Option Task) : (s.setTask sl t).fw = s.fw := (rfl)
@[simp] theorem State.setTask_cores (sl : Nat) (t : Option Task) : (s.setTask sl t).cores = s.cores := (rfl)
@[simp] theorem State.setTask_engs (sl : Nat) (t : Option Task) : (s.setTask sl t).engs = s.engs := (rfl)
@[simp] theorem State.setTask_nfes (sl : Nat) (t : Option Task) : (s.setTask sl t).nfes = s.nfes := (rfl)
@[simp] theorem State.setTask_dct (sl : Nat) (t : Option Task) : (s.setTask sl t).dct = s.dct := (rfl)
@[simp] theorem State.setTask_dctTurn (sl : Nat) (t : Option Task) : (s.setTask sl t).dctTurn = s.dctTurn := (rfl)
@[simp] theorem State.setTask_mem (sl : Nat) (t : Option Task) : (s.setTask sl t).mem = s.mem := (rfl)
@[simp] theorem State.setTask_dmc (sl : Nat) (t : Option Task) : (s.setTask sl t).dmc = s.dmc := (rfl)
@[simp] theorem State.setTask_front (sl : Nat) (t : Option Task) : (s.setTask sl t).front = s.front := (rfl)
@[simp] theorem State.setTask_mrd (sl : Nat) (t : Option Task) : (s.setTask sl t).mrd = s.mrd := (rfl)
@[simp] theorem State.setTask_trl (sl : Nat) (t : Option Task) : (s.setTask sl t).trl = s.trl := (rfl)
@[simp] theorem State.setTask_rsv (sl : Nat) (t : Option Task) : (s.setTask sl t).rsv = s.rsv := (rfl)
@[simp] theorem State.setTask_pwr (sl : Nat) (t : Option Task) : (s.setTask sl t).pwr = s.pwr := (rfl)
@[simp] theorem State.setTask_nw (sl : Nat) (t : Option Task) : (s.setTask sl t).nw = s.nw := (rfl)
@[simp] theorem State.setTask_sec (sl : Nat) (t : Option Task) : (s.setTask sl t).sec = s.sec := (rfl)
@[simp] theorem State.setTask_cen (sl : Nat) (t : Option Task) : (s.setTask sl t).cen = s.cen := (rfl)

/-! ### `State.setFlow` writes `cm` -/

@[simp] theorem State.setFlow_pending (f : Nat) (x : Flow) : (s.setFlow f x).pending = s.pending := (rfl)
@[simp] theorem State.setFlow_out (f : Nat) (x : Flow) : (s.setFlow f x).out = s.out := (rfl)
@[simp] theorem State.setFlow_fresh (f : Nat) (x : Flow) : (s.setFlow f x).fresh = s.fresh := (rfl)
@[simp] theorem State.setFlow_csr (f : Nat) (x : Flow) : (s.setFlow f x).csr = s.csr := (rfl)
@[simp] theorem State.setFlow_pairs (f : Nat) (x : Flow) : (s.setFlow f x).pairs = s.pairs := (rfl)
@[simp] theorem State.setFlow_pcie (f : Nat) (x : Flow) : (s.setFlow f x).pcie = s.pcie := (rfl)
@[simp] theorem State.setFlow_mbx (f : Nat) (x : Flow) : (s.setFlow f x).mbx = s.mbx := (rfl)
@[simp] theorem State.setFlow_fw (f : Nat) (x : Flow) : (s.setFlow f x).fw = s.fw := (rfl)
@[simp] theorem State.setFlow_cores (f : Nat) (x : Flow) : (s.setFlow f x).cores = s.cores := (rfl)
@[simp] theorem State.setFlow_engs (f : Nat) (x : Flow) : (s.setFlow f x).engs = s.engs := (rfl)
@[simp] theorem State.setFlow_nfes (f : Nat) (x : Flow) : (s.setFlow f x).nfes = s.nfes := (rfl)
@[simp] theorem State.setFlow_dct (f : Nat) (x : Flow) : (s.setFlow f x).dct = s.dct := (rfl)
@[simp] theorem State.setFlow_dctTurn (f : Nat) (x : Flow) : (s.setFlow f x).dctTurn = s.dctTurn := (rfl)
@[simp] theorem State.setFlow_mem (f : Nat) (x : Flow) : (s.setFlow f x).mem = s.mem := (rfl)
@[simp] theorem State.setFlow_dmc (f : Nat) (x : Flow) : (s.setFlow f x).dmc = s.dmc := (rfl)
@[simp] theorem State.setFlow_front (f : Nat) (x : Flow) : (s.setFlow f x).front = s.front := (rfl)
@[simp] theorem State.setFlow_mrd (f : Nat) (x : Flow) : (s.setFlow f x).mrd = s.mrd := (rfl)
@[simp] theorem State.setFlow_trl (f : Nat) (x : Flow) : (s.setFlow f x).trl = s.trl := (rfl)
@[simp] theorem State.setFlow_rsv (f : Nat) (x : Flow) : (s.setFlow f x).rsv = s.rsv := (rfl)
@[simp] theorem State.setFlow_pwr (f : Nat) (x : Flow) : (s.setFlow f x).pwr = s.pwr := (rfl)
@[simp] theorem State.setFlow_nw (f : Nat) (x : Flow) : (s.setFlow f x).nw = s.nw := (rfl)
@[simp] theorem State.setFlow_sec (f : Nat) (x : Flow) : (s.setFlow f x).sec = s.sec := (rfl)
@[simp] theorem State.setFlow_cen (f : Nat) (x : Flow) : (s.setFlow f x).cen = s.cen := (rfl)

/-! ### `State.setRing` writes `cm` -/

@[simp] theorem State.setRing_pending (h : Nat) (x : RingSt) : (s.setRing h x).pending = s.pending := (rfl)
@[simp] theorem State.setRing_out (h : Nat) (x : RingSt) : (s.setRing h x).out = s.out := (rfl)
@[simp] theorem State.setRing_fresh (h : Nat) (x : RingSt) : (s.setRing h x).fresh = s.fresh := (rfl)
@[simp] theorem State.setRing_csr (h : Nat) (x : RingSt) : (s.setRing h x).csr = s.csr := (rfl)
@[simp] theorem State.setRing_pairs (h : Nat) (x : RingSt) : (s.setRing h x).pairs = s.pairs := (rfl)
@[simp] theorem State.setRing_pcie (h : Nat) (x : RingSt) : (s.setRing h x).pcie = s.pcie := (rfl)
@[simp] theorem State.setRing_mbx (h : Nat) (x : RingSt) : (s.setRing h x).mbx = s.mbx := (rfl)
@[simp] theorem State.setRing_fw (h : Nat) (x : RingSt) : (s.setRing h x).fw = s.fw := (rfl)
@[simp] theorem State.setRing_cores (h : Nat) (x : RingSt) : (s.setRing h x).cores = s.cores := (rfl)
@[simp] theorem State.setRing_engs (h : Nat) (x : RingSt) : (s.setRing h x).engs = s.engs := (rfl)
@[simp] theorem State.setRing_nfes (h : Nat) (x : RingSt) : (s.setRing h x).nfes = s.nfes := (rfl)
@[simp] theorem State.setRing_dct (h : Nat) (x : RingSt) : (s.setRing h x).dct = s.dct := (rfl)
@[simp] theorem State.setRing_dctTurn (h : Nat) (x : RingSt) : (s.setRing h x).dctTurn = s.dctTurn := (rfl)
@[simp] theorem State.setRing_mem (h : Nat) (x : RingSt) : (s.setRing h x).mem = s.mem := (rfl)
@[simp] theorem State.setRing_dmc (h : Nat) (x : RingSt) : (s.setRing h x).dmc = s.dmc := (rfl)
@[simp] theorem State.setRing_front (h : Nat) (x : RingSt) : (s.setRing h x).front = s.front := (rfl)
@[simp] theorem State.setRing_mrd (h : Nat) (x : RingSt) : (s.setRing h x).mrd = s.mrd := (rfl)
@[simp] theorem State.setRing_trl (h : Nat) (x : RingSt) : (s.setRing h x).trl = s.trl := (rfl)
@[simp] theorem State.setRing_rsv (h : Nat) (x : RingSt) : (s.setRing h x).rsv = s.rsv := (rfl)
@[simp] theorem State.setRing_pwr (h : Nat) (x : RingSt) : (s.setRing h x).pwr = s.pwr := (rfl)
@[simp] theorem State.setRing_nw (h : Nat) (x : RingSt) : (s.setRing h x).nw = s.nw := (rfl)
@[simp] theorem State.setRing_sec (h : Nat) (x : RingSt) : (s.setRing h x).sec = s.sec := (rfl)
@[simp] theorem State.setRing_cen (h : Nat) (x : RingSt) : (s.setRing h x).cen = s.cen := (rfl)

/-! ### `State.setCarrier` writes `fw` -/

@[simp] theorem State.setCarrier_pending (c : Nat) (x : Option Carrier) : (s.setCarrier c x).pending = s.pending := (rfl)
@[simp] theorem State.setCarrier_out (c : Nat) (x : Option Carrier) : (s.setCarrier c x).out = s.out := (rfl)
@[simp] theorem State.setCarrier_fresh (c : Nat) (x : Option Carrier) : (s.setCarrier c x).fresh = s.fresh := (rfl)
@[simp] theorem State.setCarrier_csr (c : Nat) (x : Option Carrier) : (s.setCarrier c x).csr = s.csr := (rfl)
@[simp] theorem State.setCarrier_pairs (c : Nat) (x : Option Carrier) : (s.setCarrier c x).pairs = s.pairs := (rfl)
@[simp] theorem State.setCarrier_pcie (c : Nat) (x : Option Carrier) : (s.setCarrier c x).pcie = s.pcie := (rfl)
@[simp] theorem State.setCarrier_mbx (c : Nat) (x : Option Carrier) : (s.setCarrier c x).mbx = s.mbx := (rfl)
@[simp] theorem State.setCarrier_cm (c : Nat) (x : Option Carrier) : (s.setCarrier c x).cm = s.cm := (rfl)
@[simp] theorem State.setCarrier_cores (c : Nat) (x : Option Carrier) : (s.setCarrier c x).cores = s.cores := (rfl)
@[simp] theorem State.setCarrier_engs (c : Nat) (x : Option Carrier) : (s.setCarrier c x).engs = s.engs := (rfl)
@[simp] theorem State.setCarrier_nfes (c : Nat) (x : Option Carrier) : (s.setCarrier c x).nfes = s.nfes := (rfl)
@[simp] theorem State.setCarrier_dct (c : Nat) (x : Option Carrier) : (s.setCarrier c x).dct = s.dct := (rfl)
@[simp] theorem State.setCarrier_dctTurn (c : Nat) (x : Option Carrier) : (s.setCarrier c x).dctTurn = s.dctTurn := (rfl)
@[simp] theorem State.setCarrier_mem (c : Nat) (x : Option Carrier) : (s.setCarrier c x).mem = s.mem := (rfl)
@[simp] theorem State.setCarrier_dmc (c : Nat) (x : Option Carrier) : (s.setCarrier c x).dmc = s.dmc := (rfl)
@[simp] theorem State.setCarrier_front (c : Nat) (x : Option Carrier) : (s.setCarrier c x).front = s.front := (rfl)
@[simp] theorem State.setCarrier_mrd (c : Nat) (x : Option Carrier) : (s.setCarrier c x).mrd = s.mrd := (rfl)
@[simp] theorem State.setCarrier_trl (c : Nat) (x : Option Carrier) : (s.setCarrier c x).trl = s.trl := (rfl)
@[simp] theorem State.setCarrier_rsv (c : Nat) (x : Option Carrier) : (s.setCarrier c x).rsv = s.rsv := (rfl)
@[simp] theorem State.setCarrier_pwr (c : Nat) (x : Option Carrier) : (s.setCarrier c x).pwr = s.pwr := (rfl)
@[simp] theorem State.setCarrier_nw (c : Nat) (x : Option Carrier) : (s.setCarrier c x).nw = s.nw := (rfl)
@[simp] theorem State.setCarrier_sec (c : Nat) (x : Option Carrier) : (s.setCarrier c x).sec = s.sec := (rfl)
@[simp] theorem State.setCarrier_cen (c : Nat) (x : Option Carrier) : (s.setCarrier c x).cen = s.cen := (rfl)

/-! ### `begin` and `keepOtp` -/

@[simp] theorem begin_pending : (begin s).pending = s.pending := (rfl)
@[simp] theorem begin_fresh : (begin s).fresh = s.fresh := (rfl)
@[simp] theorem begin_csr : (begin s).csr = s.csr := (rfl)
@[simp] theorem begin_pairs : (begin s).pairs = s.pairs := (rfl)
@[simp] theorem begin_mbx : (begin s).mbx = s.mbx := (rfl)
@[simp] theorem begin_fw : (begin s).fw = s.fw := (rfl)
@[simp] theorem begin_cm : (begin s).cm = s.cm := (rfl)
@[simp] theorem begin_cores : (begin s).cores = s.cores := (rfl)
@[simp] theorem begin_engs : (begin s).engs = s.engs := (rfl)
@[simp] theorem begin_nfes : (begin s).nfes = s.nfes := (rfl)
@[simp] theorem begin_dct : (begin s).dct = s.dct := (rfl)
@[simp] theorem begin_dctTurn : (begin s).dctTurn = s.dctTurn := (rfl)
@[simp] theorem begin_mem : (begin s).mem = s.mem := (rfl)
@[simp] theorem begin_dmc : (begin s).dmc = s.dmc := (rfl)
@[simp] theorem begin_front : (begin s).front = s.front := (rfl)
@[simp] theorem begin_mrd : (begin s).mrd = s.mrd := (rfl)
@[simp] theorem begin_trl : (begin s).trl = s.trl := (rfl)
@[simp] theorem begin_rsv : (begin s).rsv = s.rsv := (rfl)
@[simp] theorem begin_pwr : (begin s).pwr = s.pwr := (rfl)
@[simp] theorem begin_nw : (begin s).nw = s.nw := (rfl)
@[simp] theorem begin_sec : (begin s).sec = s.sec := (rfl)
@[simp] theorem begin_cen : (begin s).cen = s.cen := (rfl)
@[simp] theorem begin_out : (begin s).out = [] := (rfl)
@[simp] theorem begin_link : (begin s).pcie.link = s.pcie.link := (rfl)
@[simp] theorem keepOtp_pending (t : State) : (keepOtp s t).pending = t.pending := (rfl)
@[simp] theorem keepOtp_out (t : State) : (keepOtp s t).out = t.out := (rfl)
@[simp] theorem keepOtp_fresh (t : State) : (keepOtp s t).fresh = t.fresh := (rfl)
@[simp] theorem keepOtp_csr (t : State) : (keepOtp s t).csr = t.csr := (rfl)
@[simp] theorem keepOtp_pairs (t : State) : (keepOtp s t).pairs = t.pairs := (rfl)
@[simp] theorem keepOtp_pcie (t : State) : (keepOtp s t).pcie = t.pcie := (rfl)
@[simp] theorem keepOtp_mbx (t : State) : (keepOtp s t).mbx = t.mbx := (rfl)
@[simp] theorem keepOtp_fw (t : State) : (keepOtp s t).fw = t.fw := (rfl)
@[simp] theorem keepOtp_cm (t : State) : (keepOtp s t).cm = t.cm := (rfl)
@[simp] theorem keepOtp_cores (t : State) : (keepOtp s t).cores = t.cores := (rfl)
@[simp] theorem keepOtp_engs (t : State) : (keepOtp s t).engs = t.engs := (rfl)
@[simp] theorem keepOtp_nfes (t : State) : (keepOtp s t).nfes = t.nfes := (rfl)
@[simp] theorem keepOtp_dct (t : State) : (keepOtp s t).dct = t.dct := (rfl)
@[simp] theorem keepOtp_dctTurn (t : State) : (keepOtp s t).dctTurn = t.dctTurn := (rfl)
@[simp] theorem keepOtp_mem (t : State) : (keepOtp s t).mem = t.mem := (rfl)
@[simp] theorem keepOtp_dmc (t : State) : (keepOtp s t).dmc = t.dmc := (rfl)
@[simp] theorem keepOtp_front (t : State) : (keepOtp s t).front = t.front := (rfl)
@[simp] theorem keepOtp_mrd (t : State) : (keepOtp s t).mrd = t.mrd := (rfl)
@[simp] theorem keepOtp_trl (t : State) : (keepOtp s t).trl = t.trl := (rfl)
@[simp] theorem keepOtp_rsv (t : State) : (keepOtp s t).rsv = t.rsv := (rfl)
@[simp] theorem keepOtp_pwr (t : State) : (keepOtp s t).pwr = t.pwr := (rfl)
@[simp] theorem keepOtp_nw (t : State) : (keepOtp s t).nw = t.nw := (rfl)
@[simp] theorem keepOtp_cen (t : State) : (keepOtp s t).cen = t.cen := (rfl)

end Sys2Proof.Machine
end

