-- ==== Sys2Proof/Laws/Commands.lean ====
section
/-! SUPPORT. What running a command means, whatever its effect: when it completes, what it leaves alone. -/

namespace Sys2Proof.Machine

/-- How a command ends: with a next state when its operands name what the device has, with the one fault otherwise. -/
theorem cmd_cases (ok : Bool) (s : State) (f : State → State) :
    (ok = true ∧ cmd ok s f = .next (after s (f (begin s)))) ∨ (ok = false ∧ cmd ok s f = .fault .noSuchUnit) := by
  cases ok
  · exact .inr ⟨rfl, rfl⟩
  · exact .inl ⟨rfl, rfl⟩

theorem cmd_next {ok : Bool} (h : ok = true) (s : State) (f : State → State) : cmd ok s f = .next (after s (f (begin s))) := by
  subst h
  rfl

theorem otpCmd_next {ok : Bool} (h : ok = true) (s : State) (f : State → State) :
    otpCmd ok s f = .next { f (begin s) with pending := s.pending } := by
  subst h
  rfl

/-- An effect of a powered payload. -/
theorem live_up {s : State} (h : s.pwr.up = true) (f : State → State) : live s f = f s := by
  unfold live
  rw [if_pos h]

/-- An unpowered payload takes no part. -/
theorem live_down {s : State} (h : s.pwr.up = false) (f : State → State) : live s f = s := by
  unfold live
  rw [if_neg (by rw [h]; decide)]

theorem pcmd_next {ok : Bool} (h : ok = true) {s : State} (hu : s.pwr.up = true) (f : State → State) :
    pcmd ok s f = .next (after s (f (begin s))) := by
  unfold pcmd
  rw [cmd_next h, live_up (s := begin s) hu]

/-- A command of a powered payload after which the boot ROM may have run. -/
theorem otpCmd_live {ok : Bool} (h : ok = true) {s : State} (hu : s.pwr.up = true) (f : State → State) :
    otpCmd ok s (fun s => live s f) = .next { f (begin s) with pending := s.pending } := by
  rw [otpCmd_next h, live_up (s := begin s) hu]

/-- A command of the payload while the payload is unpowered. -/
theorem pcmd_down {ok : Bool} (h : ok = true) {s : State} (hu : s.pwr.up = false) (f : State → State) :
    pcmd ok s f = .next (after s (begin s)) := by
  unfold pcmd
  rw [cmd_next h, live_down (s := begin s) hu]

/-! ### What `after` leaves -/

@[simp] theorem after_pending (s t : State) : (after s t).pending = s.pending := (rfl)

@[simp] theorem after_out (s t : State) : (after s t).out = t.out := (rfl)
@[simp] theorem after_fresh (s t : State) : (after s t).fresh = t.fresh := (rfl)
@[simp] theorem after_csr (s t : State) : (after s t).csr = t.csr := (rfl)
@[simp] theorem after_pairs (s t : State) : (after s t).pairs = t.pairs := (rfl)
@[simp] theorem after_pcie (s t : State) : (after s t).pcie = t.pcie := (rfl)
@[simp] theorem after_mbx (s t : State) : (after s t).mbx = t.mbx := (rfl)
@[simp] theorem after_fw (s t : State) : (after s t).fw = t.fw := (rfl)
@[simp] theorem after_cm (s t : State) : (after s t).cm = t.cm := (rfl)
@[simp] theorem after_cores (s t : State) : (after s t).cores = t.cores := (rfl)
@[simp] theorem after_engs (s t : State) : (after s t).engs = t.engs := (rfl)
@[simp] theorem after_nfes (s t : State) : (after s t).nfes = t.nfes := (rfl)
@[simp] theorem after_dct (s t : State) : (after s t).dct = t.dct := (rfl)
@[simp] theorem after_mem (s t : State) : (after s t).mem = t.mem := (rfl)
@[simp] theorem after_dmc (s t : State) : (after s t).dmc = t.dmc := (rfl)
@[simp] theorem after_front (s t : State) : (after s t).front = t.front := (rfl)
@[simp] theorem after_mrd (s t : State) : (after s t).mrd = t.mrd := (rfl)
@[simp] theorem after_trl (s t : State) : (after s t).trl = t.trl := (rfl)
@[simp] theorem after_rsv (s t : State) : (after s t).rsv = t.rsv := (rfl)
@[simp] theorem after_pwr (s t : State) : (after s t).pwr = t.pwr := (rfl)
@[simp] theorem after_nw (s t : State) : (after s t).nw = t.nw := (rfl)
@[simp] theorem after_cen (s t : State) : (after s t).cen = t.cen := (rfl)

theorem after_otp (s t : State) : SameOtp s (after s t) := ⟨rfl, rfl, rfl⟩

/-- What a command that cannot run the boot ROM answers: the queue and the OTP as they were. -/
theorem cmd_keeps {ok : Bool} {s t : State} {f : State → State} (h : cmd ok s f = .next t) :
    t.pending = s.pending ∧ SameOtp s t := by
  rcases cmd_cases ok s f with ⟨_, e⟩ | ⟨_, e⟩
  · rw [e] at h
    cases h
    exact ⟨rfl, after_otp s _⟩
  · rw [e] at h
    cases h

theorem pcmd_keeps {ok : Bool} {s t : State} {f : State → State} (h : pcmd ok s f = .next t) : t.pending = s.pending ∧ SameOtp s t :=
  cmd_keeps h

theorem otpCmd_keeps {ok : Bool} {s t : State} {f : State → State} (h : otpCmd ok s f = .next t) : t.pending = s.pending := by
  cases ok
  · cases h
  · cases h
    rfl

end Sys2Proof.Machine
end

