-- ==== Sys2Proof/Laws/Access.lean ====
section
/-! SUPPORT. A register access: where it lands, and what its initiator is told where it does not. -/

namespace Sys2Proof.Machine

theorem inCsr_off {off : Nat} (h : off < 0x10000000) : inCsr (0x20000000 + off) = true := decide_eq_true ⟨by omega, by omega⟩

theorem locate_csr {off : Nat} (h : off < 0x10000000) : locate (0x20000000 + off) = .csr off := by
  unfold locate
  simp only [show ¬(0x20000000 + off < 0x04000000) by omega, show ¬(0x20000000 + off < 0x10000000) by omega, show ¬(0x20000000 + off < 0x1C000000) by omega,
    show ¬(0x20000000 + off < 0x20000000) by omega, show 0x20000000 + off < 0x30000000 by omega, if_false, if_true, Loc.csr.injEq]
  omega

/-- No register waits for DRAM. -/
theorem dramWaits_csr (s : State) {off : Nat} (h : off < 0x10000000) (w : Bool) (n : Nat) : s.dramWaits w (0x20000000 + off) n = false := by
  unfold State.dramWaits
  rw [locate_csr h]

theorem devWrite_csr (s : State) (i : Init) {off : Nat} (h : off < 0x10000000) (bs : List Byte) :
    s.devWrite i (0x20000000 + off) bs = s.csrWrite i (0x20000000 + off) bs := by
  unfold State.devWrite
  rw [inCsr_off h, if_pos rfl]

theorem devRead_csr (s : State) (i : Init) {off : Nat} (h : off < 0x10000000) (n : Nat) :
    s.devRead i (0x20000000 + off) n = s.csrRead i (0x20000000 + off) n := by
  unfold State.devRead
  rw [inCsr_off h, if_pos rfl]

/-- A command's write of CSR space is a write there, whoever makes it that reaches it. -/
theorem issueCmd_csr (s : State) (i : Init) {off : Nat} (h : off < 0x10000000) (n v : Nat) (hp : s.plainInit i = true ∨ ∃ c k, i = .dsp c k) :
    s.issueCmd i .dev (0x20000000 + off) n (some v) =
      match s.csrWrite i (0x20000000 + off) (leBytes (min n 64) v) with
      | (.ok, s) => (.ok, s)
      | (.err _, s) => (.err, s)
      | (.ue _, s) => (.ue, s) := by
  have hc : ¬(0x20000000 + off < 0x04000000) := by omega
  unfold State.issueCmd State.accessSize State.store
  cases i with
  | host => simp only [inCsr_off h, if_true, hc, and_false, if_false, devWrite_csr s _ h]; generalize s.csrWrite _ _ _ = p; rcases p with ⟨_ | _ | _, t⟩ <;> rfl
  | eng e => rcases hp with hp | ⟨c, k, hp⟩ <;> cases hp
  | trl => rcases hp with hp | ⟨c, k, hp⟩ <;> cases hp
  | dct ch =>
    rcases hp with hp | ⟨c, k, hp⟩
    · have hp' : csrOpen ch (s.dctAt ch).desc = true := hp
      simp only [State.dctWrite, inCsr_off h, hp', Bool.not_true, Bool.and_false, Bool.false_eq_true, if_false, devWrite_csr s _ h]
      generalize s.csrWrite _ _ _ = p; rcases p with ⟨_ | _ | _, t⟩ <;> rfl
    · cases hp
  | _ => simp only [reduceCtorEq, false_and, if_false, devWrite_csr s _ h]; generalize s.csrWrite _ _ _ = p; rcases p with ⟨_ | _ | _, t⟩ <;> rfl

/-- A write to CSR space lands, is refused, or has the wrong form (R7, R20). -/
theorem csrWrite_lands (s : State) (i : Init) {off n : Nat} (v : Nat) (hn : min n 64 = 4) (ha : off % 4 = 0) (hw : s.writeRefused i off = false) :
    s.csrWrite i (0x20000000 + off) (leBytes (min n 64) v) = (.ok, s.regWrite i off (ofLe (leBytes 4 v))) := by
  unfold State.csrWrite
  have hl : (leBytes 4 v).length = 4 := rfl
  simp only [hn, hl, ne_eq, not_true_eq_false, false_or, show (0x20000000 + off) % 4 = 0 by omega, Nat.add_sub_cancel_left, hw, Bool.false_eq_true, if_false]

theorem csrWrite_refused (s : State) (i : Init) {off n : Nat} (v : Nat) (hn : min n 64 = 4) (ha : off % 4 = 0) (hw : s.writeRefused i off = true) :
    s.csrWrite i (0x20000000 + off) (leBytes (min n 64) v) = (.err 4, s.aerr i 4 true false (0x20000000 + off)) := by
  unfold State.csrWrite
  have hl : (leBytes 4 v).length = 4 := rfl
  simp only [hn, hl, ne_eq, not_true_eq_false, false_or, show (0x20000000 + off) % 4 = 0 by omega, Nat.add_sub_cancel_left, hw, if_true, if_false]

theorem leBytes_length (n v : Nat) : (leBytes n v).length = n := by
  induction n generalizing v with
  | zero => rfl
  | succ n ih => exact congrArg (· + 1) (ih _)

theorem csrWrite_wrong (s : State) (i : Init) {off n : Nat} (v : Nat) (h : off % 4 ≠ 0 ∨ min n 64 ≠ 4) :
    s.csrWrite i (0x20000000 + off) (leBytes (min n 64) v) = (.err 2, s.aerr i 2 true false (0x20000000 + off)) := by
  unfold State.csrWrite
  rw [if_pos]
  rw [leBytes_length]
  omega

/-- A register write as a command of an initiator whose access is made as it stands. -/
theorem accessCmd_csr_write {s : State} {i : Init} {off : Nat} (h : off < 0x10000000) (n v : Nat) (hp : s.plainInit i = true)
    (hr : i = .host → s.pcie.link = true ∧ s.d3hot = false) :
    s.accessCmd i .dev (0x20000000 + off) n (some v) =
      match s.csrWrite i (0x20000000 + off) (leBytes (min n 64) v) with
      | (.ok, t) => t
      | (.err _, t) => t.toldErr i true (0x20000000 + off)
      | (.ue _, t) => (match i with | .ctl _ => t.emit .memError | .nwb => t.emit .memError | .cm => t.emit .memError | .dct ch => t.channelTold ch true (0x20000000 + off) .ue | _ => t) := by
  have hreach : s.reaches i .dev (0x20000000 + off) = true := by
    cases i <;> first | rfl | (obtain ⟨h1, h2⟩ := hr rfl; simp only [State.reaches, h1, h2, inCsr_off h, Bool.not_false, Bool.and_self, Bool.true_or])
  unfold State.accessCmd
  rw [hreach, dramWaits_csr s h]
  simp only [Bool.not_true, Bool.and_false, Bool.or_self, Bool.false_eq_true, if_false]
  have hi := issueCmd_csr s i h n v (.inl hp)
  cases i with
  | eng e => cases hp
  | trl => cases hp
  | dsp c k =>
    have hp' : (s.core c k).st ≠ .running := of_decide_eq_true hp
    simp only [State.coreTells, if_pos hp', hi]
    generalize s.csrWrite _ _ _ = p; rcases p with ⟨_ | _ | _, t⟩ <;> rfl
  | dct ch =>
    simp only [hi]
    generalize s.csrWrite _ _ _ = p
    rcases p with ⟨_ | _ | _, t⟩
    · simp only [State.channelTold, ne_eq, not_true_eq_false, and_false, if_false]
    · rfl
    · rfl
  | _ =>
    simp only [hi]
    generalize s.csrWrite _ _ _ = p; rcases p with ⟨_ | _ | _, t⟩ <;> rfl

/-! ### Reads -/

theorem csrRead_reads (s : State) (i : Init) {off : Nat} (ha : off % 4 = 0) :
    s.csrRead i (0x20000000 + off) 4 = (.ok (leBytes 4 (s.regRead i off).1), (s.regRead i off).2) := by
  unfold State.csrRead
  rw [if_neg (by omega), Nat.add_sub_cancel_left]

/-- A command's read of CSR space that reaches the device, of the right form. -/
theorem issueCmd_csr_read (s : State) (i : Init) {off : Nat} (h : off < 0x10000000) (ha : off % 4 = 0) (hp : s.plainInit i = true ∨ ∃ c k, i = .dsp c k) :
    s.issueCmd i .dev (0x20000000 + off) 4 none = (.ok, (s.regRead i off).2.emit (.value (ofLe (leBytes 4 (s.regRead i off).1)))) := by
  have hd : s.devRead i (0x20000000 + off) 4 = (.ok (leBytes 4 (s.regRead i off).1), (s.regRead i off).2) :=
    (devRead_csr s i h 4).trans (csrRead_reads s i ha)
  generalize s.regRead i off = q at hd ⊢
  unfold State.issueCmd State.accessSize State.access
  cases i with
  | host => simp only [inCsr_off h, if_true, show min 4 64 = 4 from rfl, hd]
  | eng e => rcases hp with hp | ⟨c, k, hp⟩ <;> cases hp
  | trl => rcases hp with hp | ⟨c, k, hp⟩ <;> cases hp
  | dct ch =>
    rcases hp with hp | ⟨c, k, hp⟩
    · have hp' : csrOpen ch (s.dctAt ch).desc = true := hp
      simp only [State.dctRead, inCsr_off h, hp', Bool.not_true, Bool.and_false, Bool.false_eq_true, if_false, show min 4 64 = 4 from rfl, hd]
    · cases hp
  | _ => simp only [show min 4 64 = 4 from rfl, hd]

/-- A register read as a command of an initiator whose access is made as it stands. -/
theorem accessCmd_csr_read {s : State} {i : Init} {off : Nat} (h : off < 0x10000000) (ha : off % 4 = 0) (hp : s.plainInit i = true)
    (hr : i = .host → s.pcie.link = true ∧ s.d3hot = false) :
    s.accessCmd i .dev (0x20000000 + off) 4 none = (s.regRead i off).2.emit (.value (ofLe (leBytes 4 (s.regRead i off).1))) := by
  have hreach : s.reaches i .dev (0x20000000 + off) = true := by
    cases i <;> first | rfl | (obtain ⟨h1, h2⟩ := hr rfl; simp only [State.reaches, h1, h2, inCsr_off h, Bool.not_false, Bool.and_self, Bool.true_or])
  have hi := issueCmd_csr_read s i h ha (.inl hp)
  unfold State.accessCmd
  rw [hreach, dramWaits_csr s h]
  simp only [Bool.not_true, Bool.and_false, Bool.or_self, Bool.false_eq_true, if_false]
  cases i with
  | eng e => cases hp
  | trl => cases hp
  | dsp c k =>
    have hp' : (s.core c k).st ≠ .running := of_decide_eq_true hp
    simp only [State.coreTells, if_pos hp', hi]
  | dct ch => simp only [hi, State.channelTold, ne_eq, not_true_eq_false, and_false, if_false]
  | _ => simp only [hi]

end Sys2Proof.Machine
end

