-- ==== Sys2Proof/Laws/Engines.lean ====
section
/-! SUPPORT. What a channel engine's operation does, once its task's descriptor has been read. -/

namespace Sys2Proof.Machine

/-- A running engine that has not begun its job has the task of its slot before it. -/
theorem engFresh_running {s : State} {e : Nat} {t : Task} (hj : (s.engAt e).job = none) (ht : s.task? (s.engAt e).slot = some t)
    (hs : (s.engAt e).st = .running ∨ (s.engAt e).st = .stopping) : s.engFresh e = some t := by
  unfold State.engFresh
  rcases hs with h | h <;> simp only [hj, ht, h, Option.isNone_none, beq_self_eq_true, Bool.true_or, Bool.or_true, Bool.and_self, if_true]

/-- The command of the operation that the descriptor names runs it whole, unless memory that it uses does not answer yet. -/
theorem engOp_runs {s u : State} {e key : Nat} {t : Task} {d : List Byte} {j : EngJob} (hs : (s.engAt e).st = .running)
    (hf : s.engFresh e = some t) (hd : s.startJobAt e (dEntry t.words) (dArg t.words) = (some d, j, u)) (hk : opKey d = key) :
    s.engOp e key = if (u.runJob e d j).jobWaits e then s else u.runJob e d j := by
  have hn : s.engNamed e key (some d, j, u) = u.runJob e d j := if_neg (not_not_intro hk)
  unfold State.engOp
  rw [if_neg (not_not_intro hs), hf]
  dsimp only
  rw [hd, hn]

/-- The command of another operation does nothing. -/
theorem engOp_other {s u : State} {e key : Nat} {t : Task} {d : List Byte} {j : EngJob} (hs : (s.engAt e).st = .running)
    (hf : s.engFresh e = some t) (hd : s.startJobAt e (dEntry t.words) (dArg t.words) = (some d, j, u)) (hk : opKey d ≠ key) :
    s.engOp e key = s := by
  have hn : s.engNamed e key (some d, j, u) = s := if_pos hk
  unfold State.engOp
  rw [if_neg (not_not_intro hs), hf]
  dsimp only
  rw [hd, hn, ite_self]

end Sys2Proof.Machine
end

