-- ==== Sys2Proof/Laws/Maps.lean ====
section
/-! SUPPORT. The laws of the sparse maps: a read after a write, and that a write keeps the canonical form. -/

namespace Sys2Proof.Machine

theorem msorted_weaken {α : Type} {lo lo' : Nat} (h : lo' ≤ lo) {m : List (Nat × α)} (hm : msorted lo m = true) :
    msorted lo' m = true := by
  cases m with
  | nil => rfl
  | cons e m =>
    simp only [msorted, Bool.and_eq_true, decide_eq_true_eq] at hm ⊢
    exact ⟨Nat.le_trans h hm.1, hm.2⟩

/-- A key below every listed one holds its default. -/
theorem mget_below {α : Type} (d : Nat → α) {lo k : Nat} (hk : k < lo) {m : List (Nat × α)} (hm : msorted lo m = true) :
    mget d m k = d k := by
  cases m with
  | nil => rfl
  | cons e m =>
    simp only [msorted, Bool.and_eq_true, decide_eq_true_eq] at hm
    simp only [mget]
    rw [if_neg (by omega), if_pos (by omega)]

theorem msorted_mins {α : Type} (k : Nat) (v : α) {lo : Nat} (hk : lo ≤ k) {m : List (Nat × α)} (hm : msorted lo m = true) :
    msorted lo (mins m k v) = true := by
  induction m generalizing lo with
  | nil => simp [mins, msorted, hk]
  | cons e m ih =>
    simp only [msorted, Bool.and_eq_true, decide_eq_true_eq] at hm
    simp only [mins]
    split
    · simp only [msorted, Bool.and_eq_true, decide_eq_true_eq]
      exact ⟨hk, by subst_vars; exact hm.2⟩
    · split
      · simp only [msorted, Bool.and_eq_true, decide_eq_true_eq]
        exact ⟨hk, by omega, hm.2⟩
      · simp only [msorted, Bool.and_eq_true, decide_eq_true_eq]
        exact ⟨hm.1, ih (by omega) hm.2⟩

theorem msorted_mdel {α : Type} (k : Nat) {lo : Nat} {m : List (Nat × α)} (hm : msorted lo m = true) :
    msorted lo (mdel m k) = true := by
  induction m generalizing lo with
  | nil => rfl
  | cons e m ih =>
    have hm' := hm
    simp only [msorted, Bool.and_eq_true, decide_eq_true_eq] at hm
    simp only [mdel]
    split
    · exact msorted_weaken (by omega) hm.2
    · split
      · exact hm'
      · simp only [msorted, Bool.and_eq_true, decide_eq_true_eq]
        exact ⟨hm.1, ih hm.2⟩

theorem mget_mins_same {α : Type} (d : Nat → α) (k : Nat) (v : α) (m : List (Nat × α)) : mget d (mins m k v) k = v := by
  induction m with
  | nil => simp [mins, mget]
  | cons e m ih =>
    simp only [mins]
    split
    · simp [mget]
    · split
      · simp [mget]
      · simp only [mget]
        rw [if_neg (by omega), if_neg (by omega)]
        exact ih

theorem mget_mins_ne {α : Type} (d : Nat → α) {k j : Nat} (hj : j ≠ k) (v : α) {lo : Nat} {m : List (Nat × α)}
    (hm : msorted lo m = true) : mget d (mins m k v) j = mget d m j := by
  induction m generalizing lo with
  | nil =>
    simp only [mins, mget]
    split
    · omega
    · split <;> rfl
  | cons e m ih =>
    simp only [msorted, Bool.and_eq_true, decide_eq_true_eq] at hm
    simp only [mins]
    split
    · subst_vars
      simp only [mget]
      rw [if_neg (Ne.symm hj), if_neg (Ne.symm hj)]
    · split
      · simp only [mget]
        rw [if_neg (by omega)]
        split
        · rw [if_neg (by omega), if_pos (by omega)]
        · rfl
      · simp only [mget]
        split
        · rfl
        · split
          · rfl
          · exact ih hm.2

theorem mget_mdel_same {α : Type} (d : Nat → α) (k : Nat) {lo : Nat} {m : List (Nat × α)} (hm : msorted lo m = true) :
    mget d (mdel m k) k = d k := by
  induction m generalizing lo with
  | nil => rfl
  | cons e m ih =>
    simp only [msorted, Bool.and_eq_true, decide_eq_true_eq] at hm
    simp only [mdel]
    split
    · exact mget_below d (by omega) hm.2
    · split
      · simp only [mget]
        rw [if_neg (by omega), if_pos (by omega)]
      · simp only [mget]
        rw [if_neg (by omega), if_neg (by omega)]
        exact ih hm.2

theorem mget_mdel_ne {α : Type} (d : Nat → α) {k j : Nat} (hj : j ≠ k) {lo : Nat} {m : List (Nat × α)}
    (hm : msorted lo m = true) : mget d (mdel m k) j = mget d m j := by
  induction m generalizing lo with
  | nil => rfl
  | cons e m ih =>
    simp only [msorted, Bool.and_eq_true, decide_eq_true_eq] at hm
    simp only [mdel]
    split
    · subst_vars
      simp only [mget]
      rw [if_neg (by omega)]
      split
      · exact mget_below d (by omega) hm.2
      · rfl
    · split
      · rfl
      · simp only [mget]
        split
        · rfl
        · split
          · rfl
          · exact ih hm.2

/-- A read after a write to the same key gives what was written. -/
theorem mget_mput_same {α : Type} [DecidableEq α] (d : Nat → α) (k : Nat) (v : α) {lo : Nat} {m : List (Nat × α)}
    (hm : msorted lo m = true) : mget d (mput d m k v) k = v := by
  unfold mput
  split
  · rename_i h
    rw [h, mget_mdel_same d k hm]
  · exact mget_mins_same d k v m

/-- A write leaves every other key alone. -/
theorem mget_mput_ne {α : Type} [DecidableEq α] (d : Nat → α) {k j : Nat} (hj : j ≠ k) (v : α) {lo : Nat}
    {m : List (Nat × α)} (hm : msorted lo m = true) : mget d (mput d m k v) j = mget d m j := by
  unfold mput
  split
  · exact mget_mdel_ne d hj hm
  · exact mget_mins_ne d hj v hm

theorem mem_mins {α : Type} (k : Nat) (v : α) {m : List (Nat × α)} {e : Nat × α} (he : e ∈ mins m k v) : e = (k, v) ∨ e ∈ m := by
  induction m with
  | nil => simp_all [mins]
  | cons f m ih =>
    simp only [mins] at he
    split at he
    · rcases List.mem_cons.mp he with h | h
      · exact .inl h
      · exact .inr (List.mem_cons_of_mem _ h)
    · split at he
      · exact List.mem_cons.mp he
      · rcases List.mem_cons.mp he with h | h
        · exact .inr (List.mem_cons.mpr (.inl h))
        · exact (ih h).imp_right (List.mem_cons_of_mem _)

theorem mem_mdel {α : Type} (k : Nat) {m : List (Nat × α)} {e : Nat × α} (he : e ∈ mdel m k) : e ∈ m := by
  induction m with
  | nil => simp_all [mdel]
  | cons f m ih =>
    simp only [mdel] at he
    split at he
    · exact List.mem_cons_of_mem _ he
    · split at he
      · exact he
      · simp only [List.mem_cons] at he ⊢
        rcases he with h | h
        · exact .inl h
        · exact .inr (ih h)

/-- A write keeps the canonical form. -/
theorem mwf_mput {α : Type} [DecidableEq α] (d : Nat → α) (k : Nat) (v : α) {m : List (Nat × α)} (hm : mwf d m = true) :
    mwf d (mput d m k v) = true := by
  simp only [mwf, Bool.and_eq_true, List.all_eq_true, decide_eq_true_eq] at hm ⊢
  unfold mput
  split
  · exact ⟨msorted_mdel k hm.1, fun e he => hm.2 e (mem_mdel k he)⟩
  · refine ⟨msorted_mins k v (Nat.zero_le k) hm.1, fun e he => ?_⟩
    rcases mem_mins k v he with h | h
    · subst h
      assumption
    · exact hm.2 e h

theorem msorted_filter {α : Type} (p : Nat × α → Bool) {lo : Nat} {m : List (Nat × α)} (hm : msorted lo m = true) :
    msorted lo (m.filter p) = true := by
  induction m generalizing lo with
  | nil => rfl
  | cons e m ih =>
    simp only [msorted, Bool.and_eq_true, decide_eq_true_eq] at hm
    simp only [List.filter_cons]
    split
    · simp only [msorted, Bool.and_eq_true, decide_eq_true_eq]
      exact ⟨hm.1, ih hm.2⟩
    · exact ih (msorted_weaken (by omega) hm.2)

/-- Taking entries away keeps the canonical form. -/
theorem mwf_mdrop {α : Type} [DecidableEq α] (d : Nat → α) (p : Nat → Bool) {m : List (Nat × α)} (hm : mwf d m = true) :
    mwf d (mdrop p m) = true := by
  simp only [mwf, Bool.and_eq_true, List.all_eq_true, decide_eq_true_eq] at hm ⊢
  exact ⟨msorted_filter _ hm.1, fun e he => hm.2 e (List.mem_filter.mp he |>.1)⟩

theorem mwf_sorted {α : Type} [DecidableEq α] {d : Nat → α} {m : List (Nat × α)} (hm : mwf d m = true) : msorted 0 m = true := by
  simp only [mwf, Bool.and_eq_true] at hm
  exact hm.1

/-- A dropped key reads its default, a kept one what it did. -/
theorem mget_mdrop {α : Type} (d : Nat → α) (p : Nat → Bool) (k : Nat) {lo : Nat} {m : List (Nat × α)} (hm : msorted lo m = true) :
    mget d (mdrop p m) k = if p k then d k else mget d m k := by
  induction m generalizing lo with
  | nil => simp only [mdrop, List.filter_nil, mget, ite_self]
  | cons e m ih =>
    simp only [msorted, Bool.and_eq_true, decide_eq_true_eq] at hm
    have ih := ih hm.2
    have hb : k < e.1 → mget d (mdrop p m) k = d k := fun h => mget_below d (show k < e.1 + 1 by omega) (msorted_filter _ hm.2)
    unfold mdrop at ih hb ⊢
    rw [List.filter_cons]
    cases hp : p e.1 with
    | true =>
      simp only [Bool.not_true, Bool.false_eq_true, if_false, mget]
      rw [ih]
      by_cases hk : e.1 = k
      · simp only [← hk, hp, if_true]
      · by_cases hlt : k < e.1
        · have := mget_below d (show k < e.1 + 1 by omega) hm.2
          simp only [hk, hlt, this, ite_self, if_true, if_false]
        · simp only [hk, hlt, if_false]
    | false =>
      simp only [Bool.not_false, if_true, mget]
      by_cases hk : e.1 = k
      · simp only [hk, hk ▸ hp, if_true, Bool.false_eq_true, if_false]
      · by_cases hlt : k < e.1
        · simp only [hk, hlt, if_true, if_false, ite_self]
        · simp only [hk, hlt, if_false, ih]

end Sys2Proof.Machine
end

