-- ==== Sys2Proof/Laws/Memory.lean ====
section
/-! SUPPORT. Memory: a byte read after a write, and that every memory operation keeps the canonical form. -/

namespace Sys2Proof.Machine

theorem putBytes_mwf {m : List (Nat × Byte)} (h : mwf (fun _ => (0 : Byte)) m = true) (a : Nat) (bs : List Byte) :
    mwf (fun _ => (0 : Byte)) (putBytes m a bs) = true := by
  induction bs generalizing m a with
  | nil => exact h
  | cons b bs ih => exact ih (mwf_mput _ a b h) (a + 1)

/-- A byte outside the written range is unchanged. -/
theorem mget_putBytes_out {m : List (Nat × Byte)} (h : mwf (fun _ => (0 : Byte)) m = true) {a x : Nat} {bs : List Byte}
    (hx : x < a ∨ a + bs.length ≤ x) : mget (fun _ => (0 : Byte)) (putBytes m a bs) x = mget (fun _ => (0 : Byte)) m x := by
  induction bs generalizing m a with
  | nil => rfl
  | cons b bs ih =>
    simp only [List.length_cons] at hx
    show mget (fun _ => (0 : Byte)) (putBytes (mput (fun _ => 0) m a b) (a + 1) bs) x = _
    rw [ih (mwf_mput _ a b h) (by omega), mget_mput_ne _ (by omega) _ (mwf_sorted h)]

/-- A byte inside the written range is what was written there. -/
theorem mget_putBytes_in {m : List (Nat × Byte)} (h : mwf (fun _ => (0 : Byte)) m = true) {a i : Nat} {bs : List Byte} (hi : i < bs.length) :
    mget (fun _ => (0 : Byte)) (putBytes m a bs) (a + i) = bs[i] := by
  induction bs generalizing m a i with
  | nil => simp at hi
  | cons b bs ih =>
    show mget (fun _ => (0 : Byte)) (putBytes (mput (fun _ => 0) m a b) (a + 1) bs) (a + i) = _
    cases i with
    | zero =>
      rw [mget_putBytes_out (mwf_mput _ a b h) (by omega)]
      exact mget_mput_same _ a b (mwf_sorted h)
    | succ j =>
      have := ih (m := mput (fun _ => 0) m a b) (a := a + 1) (i := j) (mwf_mput _ a b h) (by simpa using hi)
      simpa [Nat.add_assoc, Nat.add_comm 1 j] using this

theorem memWf_dev {m : MemState} (h : Memory.wf m = true) : mwf (fun _ => (0 : Byte)) m.dev = true := by
  simp only [Memory.wf, Bool.and_eq_true] at h
  exact h.1

theorem memWf_host {m : MemState} (h : Memory.wf m = true) : mwf (fun _ => (0 : Byte)) m.host = true := by
  simp only [Memory.wf, Bool.and_eq_true] at h
  exact h.2

theorem memWf_mk {m m' : MemState} (hd : mwf (fun _ => (0 : Byte)) m'.dev = true) (hh : m'.host = m.host) (h : Memory.wf m = true) :
    Memory.wf m' = true := by
  simp only [Memory.wf, Bool.and_eq_true]
  exact ⟨hd, hh ▸ memWf_host h⟩

theorem putDev_memWf {s : State} (h : Memory.wf s.mem = true) (a : Nat) (bs : List Byte) : Memory.wf (s.putDev a bs).mem = true :=
  memWf_mk (m := s.mem) (putBytes_mwf (memWf_dev h) a bs) rfl h

theorem putHost_memWf {s : State} (h : Memory.wf s.mem = true) (a : Nat) (bs : List Byte) : Memory.wf (s.putHost a bs).mem = true := by
  have hd := memWf_dev h
  have hh := putBytes_mwf (memWf_host h) a bs
  show (mwf _ s.mem.dev && mwf _ (putBytes s.mem.host a bs)) = true
  rw [hd, hh]
  rfl

/-- Host memory reads back as it was written. -/
theorem hostBytes_putHost {s : State} (h : Memory.wf s.mem = true) (a : Nat) (bs : List Byte) : (s.putHost a bs).hostBytes a bs.length = bs := by
  refine List.ext_getElem (by simp [State.hostBytes]) fun i h1 h2 => ?_
  simp only [State.hostBytes, List.getElem_map, List.getElem_range]
  exact mget_putBytes_in (memWf_host h) h2

theorem post1_memWf {s : State} (h : Memory.wf s.mem = true) (a : Nat) (bs : List Byte) : Memory.wf (s.post1 a bs).mem = true :=
  putHost_memWf h a bs

theorem toHost_memWf {s : State} (h : Memory.wf s.mem = true) (a : Nat) (bs : List Byte) : Memory.wf (s.toHost a bs).mem = true := by
  unfold State.toHost
  split
  · exact post1_memWf h a bs
  · exact h

/-! ### Errors recorded and counted leave the bytes alone -/

theorem vector_mem (s : State) (v : Nat) : (s.vector v).mem = s.mem := by
  unfold State.vector
  dsimp only
  split
  · rfl
  · split <;> rfl

theorem devErr_mem (s : State) (b : Nat) : (s.devErr b).mem = s.mem := by
  unfold State.devErr
  split
  · rfl
  · rw [vector_mem, State.wrF_mem]

theorem ueRecord_mem (s : State) (w : Bool) (k u a : Nat) : (s.ueRecord w k u a).mem = s.mem := by
  unfold State.ueRecord
  dsimp only
  rw [devErr_mem]
  split <;> simp only [State.wrF_mem, State.wrPair_mem, State.wr_mem, State.tally_mem, State.count_mem]

theorem addWear_mem (s : State) (a : Nat) (ue : Bool) : (s.addWear a ue).mem = s.mem := by
  unfold State.addWear
  split <;> rfl

theorem ueAt_mem (s : State) (w : Bool) (a : Nat) : (s.ueAt w a).mem = s.mem := by
  unfold State.ueAt
  dsimp only
  split <;> split <;> simp only [State.tally_mem, State.count_mem, addWear_mem, ueRecord_mem]

theorem ceAt_mem (s : State) (a : Nat) : (s.ceAt a).mem = s.mem := by
  unfold State.ceAt
  dsimp only
  split <;> simp only [State.tally_mem, State.count_mem, addWear_mem]

theorem aerr_mem (s : State) (i : Init) (k : Nat) (w b : Bool) (a : Nat) : (s.aerr i k w b a).mem = s.mem := by
  unfold State.aerr
  dsimp only
  split <;> (try rw [devErr_mem]) <;> split <;> simp only [State.wrF_mem, State.wr_mem, State.tally_mem, State.count_mem]

/-! ### Errors corrected, replaced or forgotten -/

/-- A property of states that one step of a fold keeps is kept by the whole fold. -/
theorem foldl_keeps {β : Type} {P : State → Prop} {f : State → β → State} (hf : ∀ s b, P s → P (f s b)) (l : List β) {s : State} (h : P s) :
    P (l.foldl f s) := by
  induction l generalizing s with
  | nil => exact h
  | cons b l ih => exact ih (hf s b h)

/-- A fold of steps that leave memory alone leaves it alone. -/
theorem foldl_mem {β : Type} {f : State → β → State} (hf : ∀ s b, (f s b).mem = s.mem) (l : List β) (s : State) : (l.foldl f s).mem = s.mem :=
  foldl_keeps (P := fun t => t.mem = s.mem) (fun t b h => (hf t b).trans h) l rfl

theorem uesAt_mem (l : List Nat) (s : State) : (s.uesAt l).mem = s.mem :=
  foldl_mem (fun t u => ueAt_mem t false u) l s

theorem clearErr_memWf {s : State} (h : Memory.wf s.mem = true) (u : Nat) : Memory.wf (s.clearErr u).mem = true :=
  memWf_mk (m := s.mem) (memWf_dev h) rfl h

theorem setFlips_memWf {s : State} (h : Memory.wf s.mem = true) (u : Nat) (f : List Nat) : Memory.wf (s.setFlips u f).mem = true :=
  memWf_mk (m := s.mem) (memWf_dev h) rfl h

theorem ceAt_memWf {s : State} (h : Memory.wf s.mem = true) (a : Nat) : Memory.wf (s.ceAt a).mem = true := by
  rw [ceAt_mem]
  exact h

theorem uesAt_memWf {s : State} (h : Memory.wf s.mem = true) (l : List Nat) : Memory.wf (s.uesAt l).mem = true := by
  rw [uesAt_mem]
  exact h

theorem forgetIf_memWf {s : State} (h : Memory.wf s.mem = true) (p : Nat → Bool) : Memory.wf (s.forgetIf p).mem = true :=
  memWf_mk (m := s.mem) (mwf_mdrop (fun _ => (0 : Byte)) p (memWf_dev h)) rfl h

theorem forgetRegions_memWf {s : State} (h : Memory.wf s.mem = true) (lo hi : Nat) : Memory.wf (s.forgetRegions lo hi).mem = true := by
  unfold State.forgetRegions
  have hu := uesAt_memWf h (s.mapStuck lo hi)
  have herr : ∀ (t : State) (e : List (Nat × List Nat)), Memory.wf t.mem = true → Memory.wf { t.mem with err := e } = true := fun _ _ h => h
  exact herr _ _ (forgetIf_memWf hu _)

/-- Clearing valid bits keeps the canonical form. -/
theorem vclr_memWf {s t : State} (h : Memory.wf s.mem = true) {base limit : Nat} (ht : s.vclr base limit = some t) :
    Memory.wf t.mem = true := by
  unfold State.vclr at ht
  split at ht
  · exact absurd ht (by simp)
  · split at ht
    · cases ht
      exact forgetIf_memWf h _
    · simp only [Option.some.injEq] at ht
      subst ht
      split
      · exact forgetRegions_memWf h _ _
      · exact h
    · exact absurd ht (by simp)

/-! ### Never-written memory -/

theorem fillRegion_memWf {s : State} (h : Memory.wf s.mem = true) (r : Nat) : Memory.wf (s.fillRegion r).mem = true := by
  unfold State.fillRegion
  split
  · exact h
  · simp only [State.tally_mem]
    exact memWf_mk (m := s.mem)
      (mwf_mdrop (fun _ => (0 : Byte)) (fun a => decide (dramBase + r * 65536 ≤ a ∧ a < dramBase + (r + 1) * 65536)) (memWf_dev h)) rfl h

theorem validLines_memWf {s : State} (h : Memory.wf s.mem = true) (ls : List Nat) : Memory.wf (s.validLines ls).mem = true :=
  memWf_mk (m := s.mem) (memWf_dev h) rfl h

theorem validate_memWf {s : State} (h : Memory.wf s.mem = true) (a n : Nat) : Memory.wf (s.validate a n).mem = true := by
  unfold State.validate
  split
  · exact validLines_memWf h _
  · exact validLines_memWf h _
  · exact foldl_keeps (P := fun s => Memory.wf s.mem = true) (fun s r hs => fillRegion_memWf hs r) _ h
  · exact h

/-- A region whose bit in the map is lost holds free bytes: they are put in canonical form. -/
theorem rawRegion_memWf {s : State} (h : Memory.wf s.mem = true) (r : Nat) : Memory.wf (s.rawRegion r).mem = true := by
  unfold State.rawRegion
  split
  · exact h
  · refine foldl_keeps (P := fun s => Memory.wf s.mem = true) (fun s e hs => ?_) _ (putDev_memWf ?_ _ _)
    · split
      · exact setFlips_memWf hs _ _
      · exact hs
    · exact memWf_mk (m := s.mem) (memWf_dev h) rfl h

/-! ### Units checked -/

/-- A checked unit is corrected, recorded or left alone: the bytes stay. -/
theorem checkUnit_memWf {s : State} (h : Memory.wf s.mem = true) (u : Nat) : Memory.wf (s.checkUnit u).2.mem = true := by
  unfold State.checkUnit
  split
  · exact h
  · split
    · rw [ueAt_mem]
      exact h
    · exact clearErr_memWf (ceAt_memWf h u) u
    · exact h

theorem checkUnits_memWf (l : List Nat) {s : State} (h : Memory.wf s.mem = true) : Memory.wf (s.checkUnits l).2.mem = true := by
  induction l generalizing s with
  | nil => exact h
  | cons u l ih => exact ih (checkUnit_memWf h u)

theorem mapWord_memWf {s : State} (h : Memory.wf s.mem = true) (w : Nat) : Memory.wf (s.mapWord w).mem = true := by
  have hc := checkUnit_memWf h (mapErr w)
  unfold State.mapWord
  split <;> rename_i heq <;> simp only [heq] at hc
  · exact hc
  · exact foldl_keeps (P := fun s => Memory.wf s.mem = true) (fun s r hs => rawRegion_memWf hs r) _ hc

theorem mapRead_memWf {s : State} (h : Memory.wf s.mem = true) (a n : Nat) : Memory.wf (s.mapRead a n).mem = true := by
  unfold State.mapRead
  split
  · exact foldl_keeps (P := fun s => Memory.wf s.mem = true) (fun s w hs => mapWord_memWf hs w) _ h
  · exact h

theorem overwrite_memWf (l : List Nat) {s : State} (h : Memory.wf s.mem = true) (a n : Nat) :
    Memory.wf (s.overwrite a n l).mem = true := by
  induction l generalizing s with
  | nil => exact h
  | cons u l ih =>
    unfold State.overwrite
    dsimp only
    split
    · exact ih h
    · refine ih (clearErr_memWf ?_ u)
      split
      · exact h
      · exact ceAt_memWf h u
    · exact ih (clearErr_memWf h u)

/-! ### One access -/

theorem checkedRead_memWf {s : State} (h : Memory.wf s.mem = true) (a n : Nat) : Memory.wf (s.checkedRead a n).2.mem = true := by
  have := checkUnits_memWf (unitsOf a n) (mapRead_memWf h a n)
  unfold State.checkedRead
  split <;> rename_i heq <;> simpa only [heq] using this

theorem checkedWrite_memWf {s : State} (h : Memory.wf s.mem = true) (a : Nat) (bs : List Byte) :
    Memory.wf (s.checkedWrite a bs).2.mem = true := by
  have hm := mapRead_memWf h a bs.length
  unfold State.checkedWrite
  dsimp only
  split
  · exact uesAt_memWf hm _
  · exact putDev_memWf (validate_memWf (overwrite_memWf _ hm _ _) _ _) _ _

/-- One read of memory keeps the canonical form. -/
theorem memRead_memWf {s : State} (h : Memory.wf s.mem = true) (a n : Nat) : Memory.wf (s.memRead a n).2.mem = true := by
  have hr := checkedRead_memWf h a n
  unfold State.memRead
  split
  · exact h
  · split
    · exact h
    · split
      · exact h
      · exact h
      · split
        · exact hr
        · exact h
      · have := checkUnits_memWf (unitsOf a n) h
        split <;> rename_i heq <;> simp only [heq] at this <;> simpa only [State.wrF_mem] using this
      · exact hr

/-- One write to memory keeps the canonical form. -/
theorem memWrite_memWf {s : State} (h : Memory.wf s.mem = true) (a : Nat) (bs : List Byte) :
    Memory.wf (s.memWrite a bs).2.mem = true := by
  have hw := checkedWrite_memWf h a bs
  unfold State.memWrite
  dsimp only
  split
  · exact h
  · split
    · exact h
    · split
      · exact post1_memWf h _ _
      · exact h
      · split
        · exact hw
        · exact h
      · exact hw

/-! ### The queues of the DRAM controllers leave the bytes alone -/

theorem dramIssue_mem (s : State) (n l : Nat) (w : Bool) : (s.dramIssue n l w).mem = s.mem := by
  unfold State.dramIssue
  dsimp only
  split <;> simp only [State.setDmc_mem, State.tally_mem]

theorem issueWrite_mem (s : State) (n : Nat) (w : QWrite) : (s.issueWrite n w).mem = s.mem := by
  unfold State.issueWrite
  dsimp only
  split <;> simp only [dramIssue_mem, State.tally_mem, State.setDmc_mem]

theorem writeBatch_mem (f n sub : Nat) (s : State) : (State.writeBatch f s n sub).mem = s.mem := by
  induction f generalizing s with
  | zero => rfl
  | succ f ih =>
    unfold State.writeBatch
    split
    · rfl
    · split
      · rfl
      · rw [ih, issueWrite_mem]

theorem queueWrite_mem (s : State) (c l : Nat) (w : Bool) : (s.queueWrite c l w).mem = s.mem := by
  unfold State.queueWrite
  dsimp only
  split
  · rfl
  · split
    · rw [writeBatch_mem, State.setDmc_mem]
    · rfl

theorem queueRead_mem (s : State) (c l : Nat) : (s.queueRead c l).mem = s.mem := by
  unfold State.queueRead
  dsimp only
  rw [dramIssue_mem]
  split
  · exact issueWrite_mem _ _ _
  · rfl

theorem dramReads_mem (s : State) (c a n : Nat) : (s.dramReads c a n).mem = s.mem := by
  unfold State.dramReads
  split
  · refine foldl_mem (fun t l => ?_) _ s
    split
    · exact queueRead_mem t c l
    · rfl
  · rfl

theorem fillWrites_mem (s : State) (c r : Nat) : (s.fillWrites c r).mem = s.mem := by
  unfold State.fillWrites
  generalize List.range 1024 = l
  exact foldl_mem (fun t i => queueWrite_mem t c _ true) l s

theorem fillsWrites_mem (c : Nat) (l : List Nat) (s : State) : (l.foldl (fun s r => s.fillWrites c r) s).mem = s.mem := by
  induction l generalizing s with
  | nil => rfl
  | cons r l ih => rw [List.foldl_cons, ih, fillWrites_mem]

theorem dramWrites_mem (s : State) (c a n : Nat) (new : List Nat) : (s.dramWrites c a n new).mem = s.mem := by
  unfold State.dramWrites
  split
  · exact (foldl_mem (fun t l => queueWrite_mem t c l _) _ _).trans (fillsWrites_mem c new s)
  · rfl

theorem wakeCluster_mem (s : State) (c : Nat) : (s.wakeCluster c).mem = s.mem := by
  unfold State.wakeCluster
  split
  · simp only [State.tally_mem, State.wrF_mem]
  · rfl

theorem wakeAt_mem (s : State) (a : Nat) : (s.wakeAt a).mem = s.mem := by
  unfold State.wakeAt
  split <;> first | exact wakeCluster_mem _ _ | rfl

/-! ### Accesses of an initiator -/

/-- A read for an initiator keeps the canonical form. -/
theorem busRead_memWf {s : State} (h : Memory.wf s.mem = true) (i : Init) (a n : Nat) : Memory.wf (s.busRead i a n).2.mem = true := by
  have hm : Memory.wf ((s.wakeAt a).memRead a n).2.mem = true := memRead_memWf (by rw [wakeAt_mem]; exact h) a n
  unfold State.busRead
  by_cases hr : refusedTo i a = true
  · simp only [hr, if_true]
    rw [aerr_mem]
    exact h
  · rw [if_neg hr]
    split <;> rename_i heq <;> simp only [heq] at hm
    · rw [aerr_mem]
      exact hm
    · rw [dramReads_mem]
      exact hm

/-- A write for an initiator keeps the canonical form. -/
theorem busWrite_memWf {s : State} (h : Memory.wf s.mem = true) (i : Init) (a : Nat) (bs : List Byte) :
    Memory.wf (s.busWrite i a bs).2.mem = true := by
  have hm : Memory.wf ((s.wakeAt a).memWrite a bs).2.mem = true := memWrite_memWf (by rw [wakeAt_mem]; exact h) a bs
  unfold State.busWrite
  dsimp only
  by_cases hr : refusedTo i a = true
  · simp only [hr, if_true]
    rw [aerr_mem]
    exact h
  · rw [if_neg hr]
    split <;> rename_i heq <;> simp only [heq] at hm
    · rw [aerr_mem]
      exact hm
    · rw [dramWrites_mem]
      exact hm
    · exact hm

/-- Memory after reset is in its canonical form. -/
theorem reset_memWf : Memory.wf State.reset.mem = true := rfl

end Sys2Proof.Machine
end

