-- ==== Sys2Proof/Laws/Messages.lean ====
section
/-! SUPPORT. What every message handler shares, said once. -/

namespace Sys2Proof.Machine

/-- A request that the running firmware handles: what the message does, and its answer. -/
theorem handle_answers {s : State} {m k op : Nat} {bs : List Byte} (h : Asked s m k op bs) {form : List Byte → Bool} (hf : form bs = true)
    (f : List Byte → State → Ans × State) : s.handle m op form f = (f bs s).2.setAns m k (f bs s).1 := by
  obtain ⟨_, _, hst, hn, hop, hr⟩ := h
  unfold State.handle State.handleIf
  simp only [hst, hn, hop, hf, hr, decide_true, Bool.not_true, Bool.or_false, ne_eq, not_true_eq_false, decide_false, Bool.false_eq_true, if_false]

/-- A request that R42 or R45 refuses is answered so, and nothing else happens. -/
theorem handle_refuses {s : State} {m k op : Nat} {bs : List Byte} {r : Resp} (hst : s.fwSt = 3) (hn : s.nextReq m = some (k, bs))
    (hop : mOp bs = op) (hr : s.refuse m bs = some r) {form : List Byte → Bool} (hf : form bs = true)
    (f : List Byte → State → Ans × State) : s.handle m op form f = s.setAns m k (.ready r) := by
  unfold State.handle State.handleIf
  simp only [hst, hn, hop, hf, hr, decide_true, Bool.not_true, Bool.or_false, ne_eq, not_true_eq_false, decide_false, Bool.false_eq_true, if_false]

/-- A request that is not the message of the row is left to the row whose it is. -/
theorem handle_other {s : State} {m k op : Nat} {bs : List Byte} {form : List Byte → Bool} (hn : s.nextReq m = some (k, bs))
    (h : mOp bs ≠ op ∨ form bs = false) (f : List Byte → State → Ans × State) : s.handle m op form f = s := by
  unfold State.handle State.handleIf
  split
  · rfl
  · rcases h with h | h <;> simp only [hn, h, ne_eq, not_false_eq_true, decide_true, Bool.true_or, Bool.not_false, Bool.or_true, if_true]

/-- Where no request can start, no message is handled. -/
theorem handle_idle {s : State} {m : Nat} (hn : s.nextReq m = none) (op : Nat) (form : List Byte → Bool)
    (f : List Byte → State → Ans × State) : s.handle m op form f = s := by
  unfold State.handle State.handleIf
  split
  · rfl
  · simp only [hn]

/-- A message command of a powered payload: what the message does, and its answer. -/
theorem message_answers {i : Instr} {s : State} {m k op : Nat} {bs : List Byte} (h : Asked s m k op bs) {ok : Bool} (hok : ok = true)
    {form : List Byte → Bool} (hf : form bs = true) {f : List Byte → State → Ans × State}
    (he : exec i s = pcmd ok s fun s => s.handle m op form f) :
    Answers i s m k (f bs (begin s)).1 (f bs (begin s)).2 := by
  have hb : Asked (begin s) m k op bs := h
  unfold Answers
  rw [he, pcmd_next hok h.1, handle_answers hb hf]

/-- The same with what the message does worked out. -/
theorem message_does {i : Instr} {s t : State} {m k op : Nat} {bs : List Byte} {a : Ans} (h : Asked s m k op bs) {ok : Bool} (hok : ok = true)
    {form : List Byte → Bool} (hf : form bs = true) {f : List Byte → State → Ans × State}
    (he : exec i s = pcmd ok s fun s => s.handle m op form f) (hd : f bs (begin s) = (a, t)) : Answers i s m k a t := by
  have := message_answers h hok hf he
  rw [hd] at this
  exact this

end Sys2Proof.Machine
end

