-- ==== Sys2Proof/Laws/PerInstr.lean ====
section
/-! SUPPORT. For every command: what `exec` tests of its operands is the command's well-formedness, and nothing but a command after which
the boot ROM may have run can change the OTP. -/

namespace Sys2Proof.Laws

open Sys2Proof.Machine

/-- The command's operands are tested by `Instr.wf`; its effect keeps the queue, and the OTP unless the boot ROM may run. -/
def Range.Statement (i : Instr) : Prop :=
  ∀ s : State, (∃ f, exec i s = cmd i.wf s f) ∨ (mayRunRom i = true ∧ ∃ f, exec i s = otpCmd i.wf s f)

theorem Range.registerWrite : ∀ i sp addr size v, Range.Statement (.registerWrite i sp addr size v) := by
  intro _ _ _ _ _ _; dsimp only [exec, execRegisterWrite, pcmd, Instr.wf]; exact .inr ⟨rfl, _, rfl⟩
theorem Range.rcCounterRead : ∀ i sp addr size, Range.Statement (.rcCounterRead i sp addr size) := by
  intro _ _ _ _ _; dsimp only [exec, execRcCounterRead, pcmd, Instr.wf]; exact .inl ⟨_, rfl⟩
theorem Range.loReadLatch : ∀ i sp addr size, Range.Statement (.loReadLatch i sp addr size) := by
  intro _ _ _ _ _; dsimp only [exec, execLoReadLatch, pcmd, Instr.wf]; exact .inl ⟨_, rfl⟩
theorem Range.hiWriteCommit : ∀ i sp addr size v, Range.Statement (.hiWriteCommit i sp addr size v) := by
  intro _ _ _ _ _ _; dsimp only [exec, execHiWriteCommit, pcmd, Instr.wf]; exact .inr ⟨rfl, _, rfl⟩
theorem Range.hostCellarWrite : ∀ off data, Range.Statement (.hostCellarWrite off data) := by
  intro _ _ _; dsimp only [exec, execHostCellarWrite, pcmd, Instr.wf]; exact .inl ⟨_, rfl⟩
theorem Range.pcieFlr : Range.Statement .pcieFlr := by
  intro _; dsimp only [exec, execPcieFlr, pcmd, Instr.wf]; exact .inl ⟨_, rfl⟩
theorem Range.pcieConventionalReset : Range.Statement .pcieConventionalReset := by
  intro _; dsimp only [exec, execPcieConventionalReset, pcmd, Instr.wf]; exact .inl ⟨_, rfl⟩
theorem Range.pcieLinkDown : ∀ kept, Range.Statement (.pcieLinkDown kept) := by
  intro _ _; dsimp only [exec, execPcieLinkDown, pcmd, Instr.wf]; exact .inl ⟨_, rfl⟩
theorem Range.mbxEnable : ∀ i m v, Range.Statement (.mbxEnable i m v) := by
  intro _ _ _ _; dsimp only [exec, execMbxEnable, pcmd, Instr.wf]; exact .inl ⟨_, rfl⟩
theorem Range.mbxDisable : ∀ i m v, Range.Statement (.mbxDisable i m v) := by
  intro _ _ _ _; dsimp only [exec, execMbxDisable, pcmd, Instr.wf]; exact .inl ⟨_, rfl⟩
theorem Range.mbxIdle : ∀ m, Range.Statement (.mbxIdle m) := by
  intro _ _; dsimp only [exec, execMbxIdle, pcmd, Instr.wf]; exact .inl ⟨_, rfl⟩
theorem Range.mbxReqPiWrite : ∀ i m v hostWrites, Range.Statement (.mbxReqPiWrite i m v hostWrites) := by
  intro _ _ _ _ _; dsimp only [exec, execMbxReqPiWrite, pcmd, Instr.wf]; exact .inl ⟨_, rfl⟩
theorem Range.mbxRspCiWrite : ∀ i m v, Range.Statement (.mbxRspCiWrite i m v) := by
  intro _ _ _ _; dsimp only [exec, execMbxRspCiWrite, pcmd, Instr.wf]; exact .inl ⟨_, rfl⟩
theorem Range.mbxLockSet : ∀ i v, Range.Statement (.mbxLockSet i v) := by
  intro _ _ _; dsimp only [exec, execMbxLockSet, pcmd, Instr.wf]; exact .inl ⟨_, rfl⟩
theorem Range.mbxFwctrlReload : ∀ i v, Range.Statement (.mbxFwctrlReload i v) := by
  intro _ _ _; dsimp only [exec, execMbxFwctrlReload, pcmd, Instr.wf]; exact .inr ⟨rfl, _, rfl⟩
theorem Range.requestConsume : ∀ m ok, Range.Statement (.requestConsume m ok) := by
  intro _ _ _; dsimp only [exec, execRequestConsume, pcmd, Instr.wf]; exact .inl ⟨_, rfl⟩
theorem Range.responseCommit : ∀ m k ok, Range.Statement (.responseCommit m k ok) := by
  intro _ _ _ _; dsimp only [exec, execResponseCommit, pcmd, Instr.wf]; exact .inl ⟨_, rfl⟩
theorem Range.responseTimeout : ∀ m k ok, Range.Statement (.responseTimeout m k ok) := by
  intro _ _ _ _; dsimp only [exec, execResponseTimeout, pcmd, Instr.wf]; exact .inl ⟨_, rfl⟩
theorem Range.noticeDeliver : ∀ m ok, Range.Statement (.noticeDeliver m ok) := by
  intro _ _ _; dsimp only [exec, execNoticeDeliver, pcmd, Instr.wf]; exact .inl ⟨_, rfl⟩
theorem Range.fwWatchdogExpire : Range.Statement .fwWatchdogExpire := by
  intro _; dsimp only [exec, execFwWatchdogExpire, pcmd, Instr.wf]; exact .inl ⟨_, rfl⟩
theorem Range.controlCoreException : ∀ i, Range.Statement (.controlCoreException i) := by
  intro _ _; dsimp only [exec, execControlCoreException, pcmd, Instr.wf]; exact .inl ⟨_, rfl⟩
theorem Range.fwRestart : Range.Statement .fwRestart := by
  intro _; dsimp only [exec, execFwRestart, pcmd, Instr.wf]; exact .inr ⟨rfl, _, rfl⟩
theorem Range.fwRunning : Range.Statement .fwRunning := by
  intro _; dsimp only [exec, execFwRunning, pcmd, Instr.wf]; exact .inl ⟨_, rfl⟩
theorem Range.sysPing : ∀ m, Range.Statement (.sysPing m) := by
  intro _ _; dsimp only [exec, execSysPing, pcmd, Instr.wf]; exact .inl ⟨_, rfl⟩
theorem Range.sysInfo : ∀ m, Range.Statement (.sysInfo m) := by
  intro _ _; dsimp only [exec, execSysInfo, pcmd, Instr.wf]; exact .inl ⟨_, rfl⟩
theorem Range.sysRestart : ∀ m, Range.Statement (.sysRestart m) := by
  intro _ _; dsimp only [exec, execSysRestart, pcmd, Instr.wf]; exact .inl ⟨_, rfl⟩
theorem Range.sysHeadroomMode : ∀ m, Range.Statement (.sysHeadroomMode m) := by
  intro _ _; dsimp only [exec, execSysHeadroomMode, pcmd, Instr.wf]; exact .inl ⟨_, rfl⟩
theorem Range.sysHeadroomVoltage : ∀ m, Range.Statement (.sysHeadroomVoltage m) := by
  intro _ _; dsimp only [exec, execSysHeadroomVoltage, pcmd, Instr.wf]; exact .inl ⟨_, rfl⟩
theorem Range.sysError : ∀ src unit, Range.Statement (.sysError src unit) := by
  intro _ _ _; dsimp only [exec, execSysError, pcmd, Instr.wf]; exact .inl ⟨_, rfl⟩
theorem Range.sysBootrun : ∀ m, Range.Statement (.sysBootrun m) := by
  intro _ _; dsimp only [exec, execSysBootrun, pcmd, Instr.wf]; exact .inr ⟨rfl, _, rfl⟩
theorem Range.sysFlashwr : ∀ m verify, Range.Statement (.sysFlashwr m verify) := by
  intro _ _ _; dsimp only [exec, execSysFlashwr, pcmd, Instr.wf]; exact .inl ⟨_, rfl⟩
theorem Range.pwrSetDeviceRun : ∀ m, Range.Statement (.pwrSetDeviceRun m) := by
  intro _ _; dsimp only [exec, execPwrSetDeviceRun, pcmd, Instr.wf]; exact .inl ⟨_, rfl⟩
theorem Range.pwrSetDeviceDeep : ∀ m, Range.Statement (.pwrSetDeviceDeep m) := by
  intro _ _; dsimp only [exec, execPwrSetDeviceDeep, pcmd, Instr.wf]; exact .inl ⟨_, rfl⟩
theorem Range.pwrSetDeviceOff : ∀ m, Range.Statement (.pwrSetDeviceOff m) := by
  intro _ _; dsimp only [exec, execPwrSetDeviceOff, pcmd, Instr.wf]; exact .inl ⟨_, rfl⟩
theorem Range.pwrSetClusterRun : ∀ m, Range.Statement (.pwrSetClusterRun m) := by
  intro _ _; dsimp only [exec, execPwrSetClusterRun, pcmd, Instr.wf]; exact .inl ⟨_, rfl⟩
theorem Range.pwrSetClusterSleep : ∀ m, Range.Statement (.pwrSetClusterSleep m) := by
  intro _ _; dsimp only [exec, execPwrSetClusterSleep, pcmd, Instr.wf]; exact .inl ⟨_, rfl⟩
theorem Range.pwrSetClusterOff : ∀ m, Range.Statement (.pwrSetClusterOff m) := by
  intro _ _; dsimp only [exec, execPwrSetClusterOff, pcmd, Instr.wf]; exact .inl ⟨_, rfl⟩
theorem Range.pwrSetEngineRun : ∀ m, Range.Statement (.pwrSetEngineRun m) := by
  intro _ _; dsimp only [exec, execPwrSetEngineRun, pcmd, Instr.wf]; exact .inl ⟨_, rfl⟩
theorem Range.pwrSetEngineSleep : ∀ m, Range.Statement (.pwrSetEngineSleep m) := by
  intro _ _; dsimp only [exec, execPwrSetEngineSleep, pcmd, Instr.wf]; exact .inl ⟨_, rfl⟩
theorem Range.pwrQuery : ∀ m, Range.Statement (.pwrQuery m) := by
  intro _ _; dsimp only [exec, execPwrQuery, pcmd, Instr.wf]; exact .inl ⟨_, rfl⟩
theorem Range.carrierConfig : ∀ m flowBase flowCount, Range.Statement (.carrierConfig m flowBase flowCount) := by
  intro _ _ _ _; dsimp only [exec, execCarrierConfig, pcmd, Instr.wf]; exact .inl ⟨_, rfl⟩
theorem Range.carrierStart : ∀ m, Range.Statement (.carrierStart m) := by
  intro _ _; dsimp only [exec, execCarrierStart, pcmd, Instr.wf]; exact .inl ⟨_, rfl⟩
theorem Range.carrierStop : ∀ m, Range.Statement (.carrierStop m) := by
  intro _ _; dsimp only [exec, execCarrierStop, pcmd, Instr.wf]; exact .inl ⟨_, rfl⟩
theorem Range.carrierStopDrain : ∀ m, Range.Statement (.carrierStopDrain m) := by
  intro _ _; dsimp only [exec, execCarrierStopDrain, pcmd, Instr.wf]; exact .inl ⟨_, rfl⟩
theorem Range.carrierQuery : ∀ m, Range.Statement (.carrierQuery m) := by
  intro _ _; dsimp only [exec, execCarrierQuery, pcmd, Instr.wf]; exact .inl ⟨_, rfl⟩
theorem Range.slotPlan : ∀ m tasks relGrp relFlag, Range.Statement (.slotPlan m tasks relGrp relFlag) := by
  intro _ _ _ _ _; dsimp only [exec, execSlotPlan, pcmd, Instr.wf]; exact .inl ⟨_, rfl⟩
theorem Range.planSubmitLate : ∀ handle, Range.Statement (.planSubmitLate handle) := by
  intro _ _; dsimp only [exec, execPlanSubmitLate, pcmd, Instr.wf]; exact .inl ⟨_, rfl⟩
theorem Range.slotCancel : ∀ m, Range.Statement (.slotCancel m) := by
  intro _ _; dsimp only [exec, execSlotCancel, pcmd, Instr.wf]; exact .inl ⟨_, rfl⟩
theorem Range.slotQuery : ∀ m, Range.Statement (.slotQuery m) := by
  intro _ _; dsimp only [exec, execSlotQuery, pcmd, Instr.wf]; exact .inl ⟨_, rfl⟩
theorem Range.blendLoad : ∀ m, Range.Statement (.blendLoad m) := by
  intro _ _; dsimp only [exec, execBlendLoad, pcmd, Instr.wf]; exact .inl ⟨_, rfl⟩
theorem Range.blendUnload : ∀ m, Range.Statement (.blendUnload m) := by
  intro _ _; dsimp only [exec, execBlendUnload, pcmd, Instr.wf]; exact .inl ⟨_, rfl⟩
theorem Range.blendQuery : ∀ m, Range.Statement (.blendQuery m) := by
  intro _ _; dsimp only [exec, execBlendQuery, pcmd, Instr.wf]; exact .inl ⟨_, rfl⟩
theorem Range.flowPin : ∀ m, Range.Statement (.flowPin m) := by
  intro _ _; dsimp only [exec, execFlowPin, pcmd, Instr.wf]; exact .inl ⟨_, rfl⟩
theorem Range.flowNotifyBind : ∀ m, Range.Statement (.flowNotifyBind m) := by
  intro _ _; dsimp only [exec, execFlowNotifyBind, pcmd, Instr.wf]; exact .inl ⟨_, rfl⟩
theorem Range.flowNotifyUnbind : ∀ m, Range.Statement (.flowNotifyUnbind m) := by
  intro _ _; dsimp only [exec, execFlowNotifyUnbind, pcmd, Instr.wf]; exact .inl ⟨_, rfl⟩
theorem Range.flowQuery : ∀ m, Range.Statement (.flowQuery m) := by
  intro _ _; dsimp only [exec, execFlowQuery, pcmd, Instr.wf]; exact .inl ⟨_, rfl⟩
theorem Range.memAlloc : ∀ m addr, Range.Statement (.memAlloc m addr) := by
  intro _ _ _; dsimp only [exec, execMemAlloc, pcmd, Instr.wf]; exact .inl ⟨_, rfl⟩
theorem Range.memFree : ∀ m, Range.Statement (.memFree m) := by
  intro _ _; dsimp only [exec, execMemFree, pcmd, Instr.wf]; exact .inl ⟨_, rfl⟩
theorem Range.memGrant : ∀ m, Range.Statement (.memGrant m) := by
  intro _ _; dsimp only [exec, execMemGrant, pcmd, Instr.wf]; exact .inl ⟨_, rfl⟩
theorem Range.memGrantRevoke : ∀ m, Range.Statement (.memGrantRevoke m) := by
  intro _ _; dsimp only [exec, execMemGrantRevoke, pcmd, Instr.wf]; exact .inl ⟨_, rfl⟩
theorem Range.laneConfigLink : ∀ m, Range.Statement (.laneConfigLink m) := by
  intro _ _; dsimp only [exec, execLaneConfigLink, pcmd, Instr.wf]; exact .inl ⟨_, rfl⟩
theorem Range.laneConfigPort : ∀ m, Range.Statement (.laneConfigPort m) := by
  intro _ _; dsimp only [exec, execLaneConfigPort, pcmd, Instr.wf]; exact .inl ⟨_, rfl⟩
theorem Range.laneConfigStream : ∀ m, Range.Statement (.laneConfigStream m) := by
  intro _ _; dsimp only [exec, execLaneConfigStream, pcmd, Instr.wf]; exact .inl ⟨_, rfl⟩
theorem Range.laneStatus : ∀ m, Range.Statement (.laneStatus m) := by
  intro _ _; dsimp only [exec, execLaneStatus, pcmd, Instr.wf]; exact .inl ⟨_, rfl⟩
theorem Range.laneEqTaps : ∀ m, Range.Statement (.laneEqTaps m) := by
  intro _ _; dsimp only [exec, execLaneEqTaps, pcmd, Instr.wf]; exact .inl ⟨_, rfl⟩
theorem Range.laneEqFreeze : ∀ m, Range.Statement (.laneEqFreeze m) := by
  intro _ _; dsimp only [exec, execLaneEqFreeze, pcmd, Instr.wf]; exact .inl ⟨_, rfl⟩
theorem Range.laneEqRelease : ∀ m, Range.Statement (.laneEqRelease m) := by
  intro _ _; dsimp only [exec, execLaneEqRelease, pcmd, Instr.wf]; exact .inl ⟨_, rfl⟩
theorem Range.timeSetAbsolute : ∀ m, Range.Statement (.timeSetAbsolute m) := by
  intro _ _; dsimp only [exec, execTimeSetAbsolute, pcmd, Instr.wf]; exact .inl ⟨_, rfl⟩
theorem Range.timeSetStep : ∀ m, Range.Statement (.timeSetStep m) := by
  intro _ _; dsimp only [exec, execTimeSetStep, pcmd, Instr.wf]; exact .inl ⟨_, rfl⟩
theorem Range.timeSetServo : ∀ m, Range.Statement (.timeSetServo m) := by
  intro _ _; dsimp only [exec, execTimeSetServo, pcmd, Instr.wf]; exact .inl ⟨_, rfl⟩
theorem Range.timeSetOutput : ∀ m, Range.Statement (.timeSetOutput m) := by
  intro _ _; dsimp only [exec, execTimeSetOutput, pcmd, Instr.wf]; exact .inl ⟨_, rfl⟩
theorem Range.timeSetCapture : ∀ m, Range.Statement (.timeSetCapture m) := by
  intro _ _; dsimp only [exec, execTimeSetCapture, pcmd, Instr.wf]; exact .inl ⟨_, rfl⟩
theorem Range.timeOffset : ∀ m, Range.Statement (.timeOffset m) := by
  intro _ _; dsimp only [exec, execTimeOffset, pcmd, Instr.wf]; exact .inl ⟨_, rfl⟩
theorem Range.timeQuery : ∀ m, Range.Statement (.timeQuery m) := by
  intro _ _; dsimp only [exec, execTimeQuery, pcmd, Instr.wf]; exact .inl ⟨_, rfl⟩
theorem Range.fskPlan : ∀ m, Range.Statement (.fskPlan m) := by
  intro _ _; dsimp only [exec, execFskPlan, pcmd, Instr.wf]; exact .inl ⟨_, rfl⟩
theorem Range.fskPlanStop : ∀ m, Range.Statement (.fskPlanStop m) := by
  intro _ _; dsimp only [exec, execFskPlanStop, pcmd, Instr.wf]; exact .inl ⟨_, rfl⟩
theorem Range.fskTx : ∀ m flow job sl, Range.Statement (.fskTx m flow job sl) := by
  intro _ _ _ _ _; dsimp only [exec, execFskTx, pcmd, Instr.wf]; exact .inl ⟨_, rfl⟩
theorem Range.fskTxResultWrite : ∀ handle ok, Range.Statement (.fskTxResultWrite handle ok) := by
  intro _ _ _; dsimp only [exec, execFskTxResultWrite, pcmd, Instr.wf]; exact .inl ⟨_, rfl⟩
theorem Range.fskTxabort : ∀ m, Range.Statement (.fskTxabort m) := by
  intro _ _; dsimp only [exec, execFskTxabort, pcmd, Instr.wf]; exact .inl ⟨_, rfl⟩
theorem Range.trellisLoad : ∀ m, Range.Statement (.trellisLoad m) := by
  intro _ _; dsimp only [exec, execTrellisLoad, pcmd, Instr.wf]; exact .inl ⟨_, rfl⟩
theorem Range.trellisRelease : ∀ m, Range.Statement (.trellisRelease m) := by
  intro _ _; dsimp only [exec, execTrellisRelease, pcmd, Instr.wf]; exact .inl ⟨_, rfl⟩
theorem Range.trellisHold : ∀ m, Range.Statement (.trellisHold m) := by
  intro _ _; dsimp only [exec, execTrellisHold, pcmd, Instr.wf]; exact .inl ⟨_, rfl⟩
theorem Range.trellisUnload : ∀ m, Range.Statement (.trellisUnload m) := by
  intro _ _; dsimp only [exec, execTrellisUnload, pcmd, Instr.wf]; exact .inl ⟨_, rfl⟩
theorem Range.trellisQuery : ∀ m, Range.Statement (.trellisQuery m) := by
  intro _ _; dsimp only [exec, execTrellisQuery, pcmd, Instr.wf]; exact .inl ⟨_, rfl⟩
theorem Range.spareQuery : ∀ m, Range.Statement (.spareQuery m) := by
  intro _ _; dsimp only [exec, execSpareQuery, pcmd, Instr.wf]; exact .inl ⟨_, rfl⟩
theorem Range.spareRetire : ∀ m, Range.Statement (.spareRetire m) := by
  intro _ _; dsimp only [exec, execSpareRetire, pcmd, Instr.wf]; exact .inl ⟨_, rfl⟩
theorem Range.censusConfig : ∀ m addr, Range.Statement (.censusConfig m addr) := by
  intro _ _ _; dsimp only [exec, execCensusConfig, pcmd, Instr.wf]; exact .inl ⟨_, rfl⟩
theorem Range.censusStart : ∀ m, Range.Statement (.censusStart m) := by
  intro _ _; dsimp only [exec, execCensusStart, pcmd, Instr.wf]; exact .inl ⟨_, rfl⟩
theorem Range.censusStop : ∀ m, Range.Statement (.censusStop m) := by
  intro _ _; dsimp only [exec, execCensusStop, pcmd, Instr.wf]; exact .inl ⟨_, rfl⟩
theorem Range.debugAuthChallenge : ∀ m, Range.Statement (.debugAuthChallenge m) := by
  intro _ _; dsimp only [exec, execDebugAuthChallenge, pcmd, Instr.wf]; exact .inl ⟨_, rfl⟩
theorem Range.debugAuthVerify : ∀ m, Range.Statement (.debugAuthVerify m) := by
  intro _ _; dsimp only [exec, execDebugAuthVerify, pcmd, Instr.wf]; exact .inl ⟨_, rfl⟩
theorem Range.debugAuthClear : ∀ m, Range.Statement (.debugAuthClear m) := by
  intro _ _; dsimp only [exec, execDebugAuthClear, pcmd, Instr.wf]; exact .inl ⟨_, rfl⟩
theorem Range.debugRead : ∀ m, Range.Statement (.debugRead m) := by
  intro _ _; dsimp only [exec, execDebugRead, pcmd, Instr.wf]; exact .inl ⟨_, rfl⟩
theorem Range.debugWrite : ∀ m, Range.Statement (.debugWrite m) := by
  intro _ _; dsimp only [exec, execDebugWrite, pcmd, Instr.wf]; exact .inl ⟨_, rfl⟩
theorem Range.cpSubmit : ∀ i v, Range.Statement (.cpSubmit i v) := by
  intro _ _ _; dsimp only [exec, execCpSubmit, pcmd, Instr.wf]; exact .inl ⟨_, rfl⟩
theorem Range.taskAdmit : ∀ p sl, Range.Statement (.taskAdmit p sl) := by
  intro _ _ _; dsimp only [exec, execTaskAdmit, pcmd, Instr.wf]; exact .inl ⟨_, rfl⟩
theorem Range.evPost : ∀ i v, Range.Statement (.evPost i v) := by
  intro _ _ _; dsimp only [exec, execEvPost, pcmd, Instr.wf]; exact .inl ⟨_, rfl⟩
theorem Range.evClr : ∀ i v, Range.Statement (.evClr i v) := by
  intro _ _ _; dsimp only [exec, execEvClr, pcmd, Instr.wf]; exact .inl ⟨_, rfl⟩
theorem Range.taskSelect : ∀ u, Range.Statement (.taskSelect u) := by
  intro _ _; dsimp only [exec, execTaskSelect, pcmd, Instr.wf]; exact .inl ⟨_, rfl⟩
theorem Range.cmCancel : ∀ i v, Range.Statement (.cmCancel i v) := by
  intro _ _ _; dsimp only [exec, execCmCancel, pcmd, Instr.wf]; exact .inl ⟨_, rfl⟩
theorem Range.cmCancelFlow : ∀ i v, Range.Statement (.cmCancelFlow i v) := by
  intro _ _ _; dsimp only [exec, execCmCancelFlow, pcmd, Instr.wf]; exact .inl ⟨_, rfl⟩
theorem Range.flowCfgWrite : ∀ i v, Range.Statement (.flowCfgWrite i v) := by
  intro _ _ _; dsimp only [exec, execFlowCfgWrite, pcmd, Instr.wf]; exact .inl ⟨_, rfl⟩
theorem Range.deadlineSweep : Range.Statement .deadlineSweep := by
  intro _; dsimp only [exec, execDeadlineSweep, pcmd, Instr.wf]; exact .inl ⟨_, rfl⟩
theorem Range.taskCommit : ∀ sl, Range.Statement (.taskCommit sl) := by
  intro _ _; dsimp only [exec, execTaskCommit, pcmd, Instr.wf]; exact .inl ⟨_, rfl⟩
theorem Range.completionRecordWrite : ∀ q ok, Range.Statement (.completionRecordWrite q ok) := by
  intro _ _ _; dsimp only [exec, execCompletionRecordWrite, pcmd, Instr.wf]; exact .inl ⟨_, rfl⟩
theorem Range.unitFault : ∀ u shared, Range.Statement (.unitFault u shared) := by
  intro _ _ _; dsimp only [exec, execUnitFault, pcmd, Instr.wf]; exact .inl ⟨_, rfl⟩
theorem Range.hostRingSqPiWrite : ∀ h v, Range.Statement (.hostRingSqPiWrite h v) := by
  intro _ _ _; dsimp only [exec, execHostRingSqPiWrite, pcmd, Instr.wf]; exact .inl ⟨_, rfl⟩
theorem Range.hostRingEntry : ∀ h ok sl, Range.Statement (.hostRingEntry h ok sl) := by
  intro _ _ _ _; dsimp only [exec, execHostRingEntry, pcmd, Instr.wf]; exact .inl ⟨_, rfl⟩
theorem Range.hostRingPost : ∀ h, Range.Statement (.hostRingPost h) := by
  intro _ _; dsimp only [exec, execHostRingPost, pcmd, Instr.wf]; exact .inl ⟨_, rfl⟩
theorem Range.bundleIssue : ∀ c k frozen ups, Range.Statement (.bundleIssue c k frozen ups) := by
  intro _ _ _ _ _; dsimp only [exec, execBundleIssue, pcmd, Instr.wf]; exact .inl ⟨_, rfl⟩
theorem Range.writeBufferAck : ∀ c k ok, Range.Statement (.writeBufferAck c k ok) := by
  intro _ _ _ _; dsimp only [exec, execWriteBufferAck, pcmd, Instr.wf]; exact .inr ⟨rfl, _, rfl⟩
theorem Range.pmMissFill : ∀ c k ok, Range.Statement (.pmMissFill c k ok) := by
  intro _ _ _ _; dsimp only [exec, execPmMissFill, pcmd, Instr.wf]; exact .inl ⟨_, rfl⟩
theorem Range.cancelAccept : ∀ c k, Range.Statement (.cancelAccept c k) := by
  intro _ _ _; dsimp only [exec, execCancelAccept, pcmd, Instr.wf]; exact .inl ⟨_, rfl⟩
theorem Range.haltAccept : ∀ c k, Range.Statement (.haltAccept c k) := by
  intro _ _ _; dsimp only [exec, execHaltAccept, pcmd, Instr.wf]; exact .inl ⟨_, rfl⟩
theorem Range.pmInvWrite : ∀ i c v, Range.Statement (.pmInvWrite i c v) := by
  intro _ _ _ _; dsimp only [exec, execPmInvWrite, pcmd, Instr.wf]; exact .inl ⟨_, rfl⟩
theorem Range.pmInvDone : ∀ c, Range.Statement (.pmInvDone c) := by
  intro _ _; dsimp only [exec, execPmInvDone, pcmd, Instr.wf]; exact .inl ⟨_, rfl⟩
theorem Range.coreClearDone : ∀ c k, Range.Statement (.coreClearDone c k) := by
  intro _ _ _; dsimp only [exec, execCoreClearDone, pcmd, Instr.wf]; exact .inl ⟨_, rfl⟩
theorem Range.cov : ∀ e, Range.Statement (.cov e) := by
  intro _ _; dsimp only [exec, execCov, pcmd, Instr.wf]; exact .inl ⟨_, rfl⟩
theorem Range.chol : ∀ e, Range.Statement (.chol e) := by
  intro _ _; dsimp only [exec, execChol, pcmd, Instr.wf]; exact .inl ⟨_, rfl⟩
theorem Range.trsolve : ∀ e, Range.Statement (.trsolve e) := by
  intro _ _; dsimp only [exec, execTrsolve, pcmd, Instr.wf]; exact .inl ⟨_, rfl⟩
theorem Range.mmse : ∀ e, Range.Statement (.mmse e) := by
  intro _ _; dsimp only [exec, execMmse, pcmd, Instr.wf]; exact .inl ⟨_, rfl⟩
theorem Range.apply : ∀ e, Range.Statement (.apply e) := by
  intro _ _; dsimp only [exec, execApply, pcmd, Instr.wf]; exact .inl ⟨_, rfl⟩
theorem Range.decode : ∀ e, Range.Statement (.decode e) := by
  intro _ _; dsimp only [exec, execDecode, pcmd, Instr.wf]; exact .inl ⟨_, rfl⟩
theorem Range.encode : ∀ e, Range.Statement (.encode e) := by
  intro _ _; dsimp only [exec, execEncode, pcmd, Instr.wf]; exact .inl ⟨_, rfl⟩
theorem Range.uciDecode : ∀ e, Range.Statement (.uciDecode e) := by
  intro _ _; dsimp only [exec, execUciDecode, pcmd, Instr.wf]; exact .inl ⟨_, rfl⟩
theorem Range.rmDecode : ∀ e, Range.Statement (.rmDecode e) := by
  intro _ _; dsimp only [exec, execRmDecode, pcmd, Instr.wf]; exact .inl ⟨_, rfl⟩
theorem Range.dciEncode : ∀ e, Range.Statement (.dciEncode e) := by
  intro _ _; dsimp only [exec, execDciEncode, pcmd, Instr.wf]; exact .inl ⟨_, rfl⟩
theorem Range.pbchEncode : ∀ e, Range.Statement (.pbchEncode e) := by
  intro _ _; dsimp only [exec, execPbchEncode, pcmd, Instr.wf]; exact .inl ⟨_, rfl⟩
theorem Range.turboDecode : ∀ e, Range.Statement (.turboDecode e) := by
  intro _ _; dsimp only [exec, execTurboDecode, pcmd, Instr.wf]; exact .inl ⟨_, rfl⟩
theorem Range.turboEncode : ∀ e, Range.Statement (.turboEncode e) := by
  intro _ _; dsimp only [exec, execTurboEncode, pcmd, Instr.wf]; exact .inl ⟨_, rfl⟩
theorem Range.tbccDecode : ∀ e, Range.Statement (.tbccDecode e) := by
  intro _ _; dsimp only [exec, execTbccDecode, pcmd, Instr.wf]; exact .inl ⟨_, rfl⟩
theorem Range.fft : ∀ e, Range.Statement (.fft e) := by
  intro _ _; dsimp only [exec, execFft, pcmd, Instr.wf]; exact .inl ⟨_, rfl⟩
theorem Range.ifft : ∀ e, Range.Statement (.ifft e) := by
  intro _ _; dsimp only [exec, execIfft, pcmd, Instr.wf]; exact .inl ⟨_, rfl⟩
theorem Range.dft : ∀ e, Range.Statement (.dft e) := by
  intro _ _; dsimp only [exec, execDft, pcmd, Instr.wf]; exact .inl ⟨_, rfl⟩
theorem Range.idft : ∀ e, Range.Statement (.idft e) := by
  intro _ _; dsimp only [exec, execIdft, pcmd, Instr.wf]; exact .inl ⟨_, rfl⟩
theorem Range.engineJobEnd : ∀ e ok, Range.Statement (.engineJobEnd e ok) := by
  intro _ _ _; dsimp only [exec, execEngineJobEnd, pcmd, Instr.wf]; exact .inl ⟨_, rfl⟩
theorem Range.engineStop : ∀ e done, Range.Statement (.engineStop e done) := by
  intro _ _ _; dsimp only [exec, execEngineStop, pcmd, Instr.wf]; exact .inl ⟨_, rfl⟩
theorem Range.burst : ∀ n ctx, Range.Statement (.burst n ctx) := by
  intro _ _ _; dsimp only [exec, execBurst, pcmd, Instr.wf]; exact .inl ⟨_, rfl⟩
theorem Range.burstStart : ∀ n ctx, Range.Statement (.burstStart n ctx) := by
  intro _ _ _; dsimp only [exec, execBurstStart, pcmd, Instr.wf]; exact .inl ⟨_, rfl⟩
theorem Range.burstEnd : ∀ n ctx, Range.Statement (.burstEnd n ctx) := by
  intro _ _ _; dsimp only [exec, execBurstEnd, pcmd, Instr.wf]; exact .inl ⟨_, rfl⟩
theorem Range.blankResume : ∀ n ch, Range.Statement (.blankResume n ch) := by
  intro _ _ _; dsimp only [exec, execBlankResume, pcmd, Instr.wf]; exact .inl ⟨_, rfl⟩
theorem Range.streamGap : ∀ n lost, Range.Statement (.streamGap n lost) := by
  intro _ _ _; dsimp only [exec, execStreamGap, pcmd, Instr.wf]; exact .inl ⟨_, rfl⟩
theorem Range.preambleDetect : ∀ n ch profs corrs sigs, Range.Statement (.preambleDetect n ch profs corrs sigs) := by
  intro _ _ _ _ _ _; dsimp only [exec, execPreambleDetect, pcmd, Instr.wf]; exact .inl ⟨_, rfl⟩
theorem Range.captureDecision : ∀ n ch errs bits, Range.Statement (.captureDecision n ch errs bits) := by
  intro _ _ _ _ _; dsimp only [exec, execCaptureDecision, pcmd, Instr.wf]; exact .inl ⟨_, rfl⟩
theorem Range.syncTimeout : ∀ n ch, Range.Statement (.syncTimeout n ch) := by
  intro _ _ _; dsimp only [exec, execSyncTimeout, pcmd, Instr.wf]; exact .inl ⟨_, rfl⟩
theorem Range.sfdFound : ∀ n ch word bits time, Range.Statement (.sfdFound n ch word bits time) := by
  intro _ _ _ _ _ _; dsimp only [exec, execSfdFound, pcmd, Instr.wf]; exact .inl ⟨_, rfl⟩
theorem Range.ncoTrackUpdate : ∀ n ch errs, Range.Statement (.ncoTrackUpdate n ch errs) := by
  intro _ _ _ _; dsimp only [exec, execNcoTrackUpdate, pcmd, Instr.wf]; exact .inl ⟨_, rfl⟩
theorem Range.packetEnd : ∀ n ch errs bits, Range.Statement (.packetEnd n ch errs bits) := by
  intro _ _ _ _ _; dsimp only [exec, execPacketEnd, pcmd, Instr.wf]; exact .inl ⟨_, rfl⟩
theorem Range.nfeReportWrite : ∀ n, Range.Statement (.nfeReportWrite n) := by
  intro _ _; dsimp only [exec, execNfeReportWrite, pcmd, Instr.wf]; exact .inl ⟨_, rfl⟩
theorem Range.dctGo : ∀ ch v, Range.Statement (.dctGo ch v) := by
  intro _ _ _; dsimp only [exec, execDctGo, pcmd, Instr.wf]; exact .inl ⟨_, rfl⟩
theorem Range.dctAbort : ∀ ch v, Range.Statement (.dctAbort ch v) := by
  intro _ _ _; dsimp only [exec, execDctAbort, pcmd, Instr.wf]; exact .inl ⟨_, rfl⟩
theorem Range.linear : ∀ p, Range.Statement (.linear p) := by
  intro _ _; dsimp only [exec, execLinear, pcmd, Instr.wf]; exact .inr ⟨rfl, _, rfl⟩
theorem Range.twoD : ∀ p, Range.Statement (.twoD p) := by
  intro _ _; dsimp only [exec, execTwoD, pcmd, Instr.wf]; exact .inl ⟨_, rfl⟩
theorem Range.gather : ∀ p, Range.Statement (.gather p) := by
  intro _ _; dsimp only [exec, execGather, pcmd, Instr.wf]; exact .inl ⟨_, rfl⟩
theorem Range.scatter : ∀ p, Range.Statement (.scatter p) := by
  intro _ _; dsimp only [exec, execScatter, pcmd, Instr.wf]; exact .inl ⟨_, rfl⟩
theorem Range.dctDescriptorCommit : ∀ ch ok, Range.Statement (.dctDescriptorCommit ch ok) := by
  intro _ _ _; dsimp only [exec, execDctDescriptorCommit, pcmd, Instr.wf]; exact .inl ⟨_, rfl⟩
theorem Range.dctTransferError : ∀ ch, Range.Statement (.dctTransferError ch) := by
  intro _ _; dsimp only [exec, execDctTransferError, pcmd, Instr.wf]; exact .inl ⟨_, rfl⟩
theorem Range.walkerVisit : ∀ k ups, Range.Statement (.walkerVisit k ups) := by
  intro _ _ _; dsimp only [exec, execWalkerVisit, pcmd, Instr.wf]; exact .inl ⟨_, rfl⟩
theorem Range.bankCopyDone : ∀ bank, Range.Statement (.bankCopyDone bank) := by
  intro _ _; dsimp only [exec, execBankCopyDone, pcmd, Instr.wf]; exact .inl ⟨_, rfl⟩
theorem Range.validMapFill : ∀ region, Range.Statement (.validMapFill region) := by
  intro _ _; dsimp only [exec, execValidMapFill, pcmd, Instr.wf]; exact .inl ⟨_, rfl⟩
theorem Range.memVclrGo : ∀ i v, Range.Statement (.memVclrGo i v) := by
  intro _ _ _; dsimp only [exec, execMemVclrGo, pcmd, Instr.wf]; exact .inl ⟨_, rfl⟩
theorem Range.dmcInit : ∀ n v stuck, Range.Statement (.dmcInit n v stuck) := by
  intro _ _ _ _; dsimp only [exec, execDmcInit, pcmd, Instr.wf]; exact .inl ⟨_, rfl⟩
theorem Range.dmcInitTimeout : ∀ n step, Range.Statement (.dmcInitTimeout n step) := by
  intro _ _ _; dsimp only [exec, execDmcInitTimeout, pcmd, Instr.wf]; exact .inl ⟨_, rfl⟩
theorem Range.dmcEnable : ∀ n v, Range.Statement (.dmcEnable n v) := by
  intro _ _ _; dsimp only [exec, execDmcEnable, pcmd, Instr.wf]; exact .inl ⟨_, rfl⟩
theorem Range.dmcSrEnter : ∀ n v, Range.Statement (.dmcSrEnter n v) := by
  intro _ _ _; dsimp only [exec, execDmcSrEnter, pcmd, Instr.wf]; exact .inl ⟨_, rfl⟩
theorem Range.dmcSrExit : ∀ n v, Range.Statement (.dmcSrExit n v) := by
  intro _ _ _; dsimp only [exec, execDmcSrExit, pcmd, Instr.wf]; exact .inl ⟨_, rfl⟩
theorem Range.dramRefresh : ∀ n, Range.Statement (.dramRefresh n) := by
  intro _ _; dsimp only [exec, execDramRefresh, pcmd, Instr.wf]; exact .inl ⟨_, rfl⟩
theorem Range.dramAgePromote : ∀ n c line, Range.Statement (.dramAgePromote n c line) := by
  intro _ _ _ _; dsimp only [exec, execDramAgePromote, pcmd, Instr.wf]; exact .inl ⟨_, rfl⟩
theorem Range.dramAlert : ∀ n, Range.Statement (.dramAlert n) := by
  intro _ _; dsimp only [exec, execDramAlert, pcmd, Instr.wf]; exact .inl ⟨_, rfl⟩
theorem Range.dramReplay : ∀ n ok, Range.Statement (.dramReplay n ok) := by
  intro _ _ _; dsimp only [exec, execDramReplay, pcmd, Instr.wf]; exact .inl ⟨_, rfl⟩
theorem Range.retrainDue : ∀ n, Range.Statement (.retrainDue n) := by
  intro _ _; dsimp only [exec, execRetrainDue, pcmd, Instr.wf]; exact .inl ⟨_, rfl⟩
theorem Range.retrainForced : ∀ n temp, Range.Statement (.retrainForced n temp) := by
  intro _ _ _; dsimp only [exec, execRetrainForced, pcmd, Instr.wf]; exact .inl ⟨_, rfl⟩
theorem Range.laneStageReady : ∀ g l inv order, Range.Statement (.laneStageReady g l inv order) := by
  intro _ _ _ _ _; dsimp only [exec, execLaneStageReady, pcmd, Instr.wf]; exact .inl ⟨_, rfl⟩
theorem Range.laneStageTimeout : ∀ g l, Range.Statement (.laneStageTimeout g l) := by
  intro _ _ _; dsimp only [exec, execLaneStageTimeout, pcmd, Instr.wf]; exact .inl ⟨_, rfl⟩
theorem Range.laneLockLoss : ∀ g l lost, Range.Statement (.laneLockLoss g l lost) := by
  intro _ _ _ _; dsimp only [exec, execLaneLockLoss, pcmd, Instr.wf]; exact .inl ⟨_, rfl⟩
theorem Range.laneRestart : ∀ g l v, Range.Statement (.laneRestart g l v) := by
  intro _ _ _ _; dsimp only [exec, execLaneRestart, pcmd, Instr.wf]; exact .inl ⟨_, rfl⟩
theorem Range.laneTxsleep : ∀ g l v, Range.Statement (.laneTxsleep g l v) := by
  intro _ _ _ _; dsimp only [exec, execLaneTxsleep, pcmd, Instr.wf]; exact .inl ⟨_, rfl⟩
theorem Range.laneRxsleep : ∀ g l v, Range.Statement (.laneRxsleep g l v) := by
  intro _ _ _ _; dsimp only [exec, execLaneRxsleep, pcmd, Instr.wf]; exact .inl ⟨_, rfl⟩
theorem Range.rawSlip : ∀ g l v, Range.Statement (.rawSlip g l v) := by
  intro _ _ _ _; dsimp only [exec, execRawSlip, pcmd, Instr.wf]; exact .inl ⟨_, rfl⟩
theorem Range.rawSlipDone : ∀ g l, Range.Statement (.rawSlipDone g l) := by
  intro _ _ _; dsimp only [exec, execRawSlipDone, pcmd, Instr.wf]; exact .inl ⟨_, rfl⟩
theorem Range.rawUp : ∀ g l v, Range.Statement (.rawUp g l v) := by
  intro _ _ _ _; dsimp only [exec, execRawUp, pcmd, Instr.wf]; exact .inl ⟨_, rfl⟩
theorem Range.rawDown : ∀ g l v, Range.Statement (.rawDown g l v) := by
  intro _ _ _ _; dsimp only [exec, execRawDown, pcmd, Instr.wf]; exact .inl ⟨_, rfl⟩
theorem Range.eyeMeasure : ∀ g l h vv, Range.Statement (.eyeMeasure g l h vv) := by
  intro _ _ _ _ _; dsimp only [exec, execEyeMeasure, pcmd, Instr.wf]; exact .inl ⟨_, rfl⟩
theorem Range.ethFrameRx : ∀ p mac bytes fcsOk time errs fc fu, Range.Statement (.ethFrameRx p mac bytes fcsOk time errs fc fu) := by
  intro _ _ _ _ _ _ _ _ _; dsimp only [exec, execEthFrameRx, pcmd, Instr.wf]; exact .inl ⟨_, rfl⟩
theorem Range.ethFrameTxStamp : ∀ p mac tag time, Range.Statement (.ethFrameTxStamp p mac tag time) := by
  intro _ _ _ _ _; dsimp only [exec, execEthFrameTxStamp, pcmd, Instr.wf]; exact .inl ⟨_, rfl⟩
theorem Range.uplaneMessage : ∀ p id sym secs, Range.Statement (.uplaneMessage p id sym secs) := by
  intro _ _ _ _ _; dsimp only [exec, execUplaneMessage, pcmd, Instr.wf]; exact .inl ⟨_, rfl⟩
theorem Range.rxWindowOpen : ∀ c sym, Range.Statement (.rxWindowOpen c sym) := by
  intro _ _ _; dsimp only [exec, execRxWindowOpen, pcmd, Instr.wf]; exact .inl ⟨_, rfl⟩
theorem Range.rxWindowClose : ∀ c sym, Range.Statement (.rxWindowClose c sym) := by
  intro _ _ _; dsimp only [exec, execRxWindowClose, pcmd, Instr.wf]; exact .inl ⟨_, rfl⟩
theorem Range.fhEgressStart : ∀ c sym, Range.Statement (.fhEgressStart c sym) := by
  intro _ _ _; dsimp only [exec, execFhEgressStart, pcmd, Instr.wf]; exact .inl ⟨_, rfl⟩
theorem Range.tdStreamMessage : ∀ st seq bytes, Range.Statement (.tdStreamMessage st seq bytes) := by
  intro _ _ _ _; dsimp only [exec, execTdStreamMessage, pcmd, Instr.wf]; exact .inl ⟨_, rfl⟩
theorem Range.tdStreamSend : ∀ st, Range.Statement (.tdStreamSend st) := by
  intro _ _; dsimp only [exec, execTdStreamSend, pcmd, Instr.wf]; exact .inl ⟨_, rfl⟩
theorem Range.tetherWriteFrame : ∀ t bytes, Range.Statement (.tetherWriteFrame t bytes) := by
  intro _ _ _; dsimp only [exec, execTetherWriteFrame, pcmd, Instr.wf]; exact .inl ⟨_, rfl⟩
theorem Range.tetherPostFrame : ∀ t bytes, Range.Statement (.tetherPostFrame t bytes) := by
  intro _ _ _; dsimp only [exec, execTetherPostFrame, pcmd, Instr.wf]; exact .inl ⟨_, rfl⟩
theorem Range.tetherLinkBlock : ∀ t bytes, Range.Statement (.tetherLinkBlock t bytes) := by
  intro _ _ _; dsimp only [exec, execTetherLinkBlock, pcmd, Instr.wf]; exact .inl ⟨_, rfl⟩
theorem Range.tetherMarker : ∀ t lane phys width bipOk, Range.Statement (.tetherMarker t lane phys width bipOk) := by
  intro _ _ _ _ _ _; dsimp only [exec, execTetherMarker, pcmd, Instr.wf]; exact .inl ⟨_, rfl⟩
theorem Range.tetherLinkSend : ∀ t, Range.Statement (.tetherLinkSend t) := by
  intro _ _; dsimp only [exec, execTetherLinkSend, pcmd, Instr.wf]; exact .inl ⟨_, rfl⟩
theorem Range.tetherMarkerSend : ∀ t, Range.Statement (.tetherMarkerSend t) := by
  intro _ _; dsimp only [exec, execTetherMarkerSend, pcmd, Instr.wf]; exact .inl ⟨_, rfl⟩
theorem Range.tetherReqPiWrite : ∀ t v, Range.Statement (.tetherReqPiWrite t v) := by
  intro _ _ _; dsimp only [exec, execTetherReqPiWrite, pcmd, Instr.wf]; exact .inl ⟨_, rfl⟩
theorem Range.tetherEntryComplete : ∀ t, Range.Statement (.tetherEntryComplete t) := by
  intro _ _; dsimp only [exec, execTetherEntryComplete, pcmd, Instr.wf]; exact .inl ⟨_, rfl⟩
theorem Range.servoSample : ∀ i v, Range.Statement (.servoSample i v) := by
  intro _ _ _; dsimp only [exec, execServoSample, pcmd, Instr.wf]; exact .inl ⟨_, rfl⟩
theorem Range.sampleTimeout : Range.Statement .sampleTimeout := by
  intro _; dsimp only [exec, execSampleTimeout, pcmd, Instr.wf]; exact .inl ⟨_, rfl⟩
theorem Range.mrdTimeRead : ∀ i, Range.Statement (.mrdTimeRead i) := by
  intro _ _; dsimp only [exec, execMrdTimeRead, pcmd, Instr.wf]; exact .inl ⟨_, rfl⟩
theorem Range.tsInEdge : ∀ n rising, Range.Statement (.tsInEdge n rising) := by
  intro _ _ _; dsimp only [exec, execTsInEdge, pcmd, Instr.wf]; exact .inl ⟨_, rfl⟩
theorem Range.capPop : ∀ n, Range.Statement (.capPop n) := by
  intro _ _; dsimp only [exec, execCapPop, pcmd, Instr.wf]; exact .inl ⟨_, rfl⟩
theorem Range.tsOutEdge : ∀ n, Range.Statement (.tsOutEdge n) := by
  intro _ _; dsimp only [exec, execTsOutEdge, pcmd, Instr.wf]; exact .inl ⟨_, rfl⟩
theorem Range.timingFrame : Range.Statement .timingFrame := by
  intro _; dsimp only [exec, execTimingFrame, pcmd, Instr.wf]; exact .inl ⟨_, rfl⟩
theorem Range.timelineArm : ∀ c v, Range.Statement (.timelineArm c v) := by
  intro _ _ _; dsimp only [exec, execTimelineArm, pcmd, Instr.wf]; exact .inl ⟨_, rfl⟩
theorem Range.timelineDisarm : ∀ c v, Range.Statement (.timelineDisarm c v) := by
  intro _ _ _; dsimp only [exec, execTimelineDisarm, pcmd, Instr.wf]; exact .inl ⟨_, rfl⟩
theorem Range.symbol : ∀ c r k, Range.Statement (.symbol c r k) := by
  intro _ _ _ _; dsimp only [exec, execSymbol, pcmd, Instr.wf]; exact .inl ⟨_, rfl⟩
theorem Range.slot : ∀ c r k, Range.Statement (.slot c r k) := by
  intro _ _ _ _; dsimp only [exec, execSlot, pcmd, Instr.wf]; exact .inl ⟨_, rfl⟩
theorem Range.frame : ∀ c r k, Range.Statement (.frame c r k) := by
  intro _ _ _ _; dsimp only [exec, execFrame, pcmd, Instr.wf]; exact .inl ⟨_, rfl⟩
theorem Range.gap : ∀ c r k, Range.Statement (.gap c r k) := by
  intro _ _ _ _; dsimp only [exec, execGap, pcmd, Instr.wf]; exact .inl ⟨_, rfl⟩
theorem Range.trellisConfigWrite : ∀ i addr size v, Range.Statement (.trellisConfigWrite i addr size v) := by
  intro _ _ _ _ _; dsimp only [exec, execTrellisConfigWrite, pcmd, Instr.wf]; exact .inl ⟨_, rfl⟩
theorem Range.trunkContention : ∀ row trunk, Range.Statement (.trunkContention row trunk) := by
  intro _ _ _; dsimp only [exec, execTrunkContention, pcmd, Instr.wf]; exact .inl ⟨_, rfl⟩
theorem Range.configStoreUe : ∀ region addr, Range.Statement (.configStoreUe region addr) := by
  intro _ _ _; dsimp only [exec, execConfigStoreUe, pcmd, Instr.wf]; exact .inl ⟨_, rfl⟩
theorem Range.eventPortStrobe : ∀ e ready, Range.Statement (.eventPortStrobe e ready) := by
  intro _ _ _; dsimp only [exec, execEventPortStrobe, pcmd, Instr.wf]; exact .inl ⟨_, rfl⟩
theorem Range.memPortRequest : ∀ d ready, Range.Statement (.memPortRequest d ready) := by
  intro _ _ _; dsimp only [exec, execMemPortRequest, pcmd, Instr.wf]; exact .inl ⟨_, rfl⟩
theorem Range.memPortResponse : ∀ d, Range.Statement (.memPortResponse d) := by
  intro _ _; dsimp only [exec, execMemPortResponse, pcmd, Instr.wf]; exact .inl ⟨_, rfl⟩
theorem Range.submitPortStrobe : Range.Statement .submitPortStrobe := by
  intro _; dsimp only [exec, execSubmitPortStrobe, pcmd, Instr.wf]; exact .inl ⟨_, rfl⟩
theorem Range.streamWordRx : ∀ sp w, Range.Statement (.streamWordRx sp w) := by
  intro _ _ _; dsimp only [exec, execStreamWordRx, pcmd, Instr.wf]; exact .inl ⟨_, rfl⟩
theorem Range.vioMismatch : ∀ v, Range.Statement (.vioMismatch v) := by
  intro _ _; dsimp only [exec, execVioMismatch, pcmd, Instr.wf]; exact .inl ⟨_, rfl⟩
theorem Range.hctrlModeWrite : ∀ i v, Range.Statement (.hctrlModeWrite i v) := by
  intro _ _ _; dsimp only [exec, execHctrlModeWrite, pcmd, Instr.wf]; exact .inl ⟨_, rfl⟩
theorem Range.shieldReady : Range.Statement .shieldReady := by
  intro _; dsimp only [exec, execShieldReady, pcmd, Instr.wf]; exact .inl ⟨_, rfl⟩
theorem Range.effEvaluate : ∀ busy, Range.Statement (.effEvaluate busy) := by
  intro _ _; dsimp only [exec, execEffEvaluate, pcmd, Instr.wf]; exact .inl ⟨_, rfl⟩
theorem Range.taskMove : ∀ sl cluster, Range.Statement (.taskMove sl cluster) := by
  intro _ _ _; dsimp only [exec, execTaskMove, pcmd, Instr.wf]; exact .inl ⟨_, rfl⟩
theorem Range.prestageEnd : ∀ sl, Range.Statement (.prestageEnd sl) := by
  intro _ _; dsimp only [exec, execPrestageEnd, pcmd, Instr.wf]; exact .inl ⟨_, rfl⟩
theorem Range.slackReport : ∀ slack, Range.Statement (.slackReport slack) := by
  intro _ _; dsimp only [exec, execSlackReport, pcmd, Instr.wf]; exact .inl ⟨_, rfl⟩
theorem Range.voltageStep : Range.Statement .voltageStep := by
  intro _; dsimp only [exec, execVoltageStep, pcmd, Instr.wf]; exact .inl ⟨_, rfl⟩
theorem Range.choldClear : ∀ i c v, Range.Statement (.choldClear i c v) := by
  intro _ _ _ _; dsimp only [exec, execCholdClear, pcmd, Instr.wf]; exact .inl ⟨_, rfl⟩
theorem Range.retireWear : ∀ kind unit, Range.Statement (.retireWear kind unit) := by
  intro _ _ _; dsimp only [exec, execRetireWear, pcmd, Instr.wf]; exact .inl ⟨_, rfl⟩
theorem Range.drainTimeout : ∀ kind unit, Range.Statement (.drainTimeout kind unit) := by
  intro _ _ _; dsimp only [exec, execDrainTimeout, pcmd, Instr.wf]; exact .inl ⟨_, rfl⟩
theorem Range.remap : ∀ kind unit spare, Range.Statement (.remap kind unit spare) := by
  intro _ _ _ _; dsimp only [exec, execRemap, pcmd, Instr.wf]; exact .inl ⟨_, rfl⟩
theorem Range.schedStoreUe : ∀ sl row both, Range.Statement (.schedStoreUe sl row both) := by
  intro _ _ _ _; dsimp only [exec, execSchedStoreUe, pcmd, Instr.wf]; exact .inl ⟨_, rfl⟩
theorem Range.clusterSleepEnter : ∀ c, Range.Statement (.clusterSleepEnter c) := by
  intro _ _; dsimp only [exec, execClusterSleepEnter, pcmd, Instr.wf]; exact .inl ⟨_, rfl⟩
theorem Range.clusterWake : ∀ c, Range.Statement (.clusterWake c) := by
  intro _ _; dsimp only [exec, execClusterWake, pcmd, Instr.wf]; exact .inl ⟨_, rfl⟩
theorem Range.engineSleepEnter : ∀ e, Range.Statement (.engineSleepEnter e) := by
  intro _ _; dsimp only [exec, execEngineSleepEnter, pcmd, Instr.wf]; exact .inl ⟨_, rfl⟩
theorem Range.engineWake : ∀ e, Range.Statement (.engineWake e) := by
  intro _ _; dsimp only [exec, execEngineWake, pcmd, Instr.wf]; exact .inl ⟨_, rfl⟩
theorem Range.wakeNAssert : Range.Statement .wakeNAssert := by
  intro _; dsimp only [exec, execWakeNAssert, pcmd, Instr.wf]; exact .inl ⟨_, rfl⟩
theorem Range.wsenseTrip : ∀ code, Range.Statement (.wsenseTrip code) := by
  intro _ _; dsimp only [exec, execWsenseTrip, pcmd, Instr.wf]; exact .inl ⟨_, rfl⟩
theorem Range.wakeTimer : Range.Statement .wakeTimer := by
  intro _; dsimp only [exec, execWakeTimer, pcmd, Instr.wf]; exact .inl ⟨_, rfl⟩
theorem Range.wakeStageReady : ∀ us, Range.Statement (.wakeStageReady us) := by
  intro _ _; dsimp only [exec, execWakeStageReady, pcmd, Instr.wf]; exact .inr ⟨rfl, _, rfl⟩
theorem Range.wakeStageTimeout : ∀ detail, Range.Statement (.wakeStageTimeout detail) := by
  intro _ _; dsimp only [exec, execWakeStageTimeout, pcmd, Instr.wf]; exact .inl ⟨_, rfl⟩
theorem Range.regulatorRetry : Range.Statement .regulatorRetry := by
  intro _; dsimp only [exec, execRegulatorRetry, pcmd, Instr.wf]; exact .inl ⟨_, rfl⟩
theorem Range.powerGoodFall : ∀ n, Range.Statement (.powerGoodFall n) := by
  intro _ _; dsimp only [exec, execPowerGoodFall, pcmd, Instr.wf]; exact .inl ⟨_, rfl⟩
theorem Range.pwrRstCold : ∀ i, Range.Statement (.pwrRstCold i) := by
  intro _ _; dsimp only [exec, execPwrRstCold, pcmd, Instr.wf]; exact .inl ⟨_, rfl⟩
theorem Range.pwrRstWarm : ∀ i, Range.Statement (.pwrRstWarm i) := by
  intro _ _; dsimp only [exec, execPwrRstWarm, pcmd, Instr.wf]; exact .inl ⟨_, rfl⟩
theorem Range.pwrRstCluster : ∀ i c, Range.Statement (.pwrRstCluster i c) := by
  intro _ _ _; dsimp only [exec, execPwrRstCluster, pcmd, Instr.wf]; exact .inl ⟨_, rfl⟩
theorem Range.pwrRstCore : ∀ i c k, Range.Statement (.pwrRstCore i c k) := by
  intro _ _ _ _; dsimp only [exec, execPwrRstCore, pcmd, Instr.wf]; exact .inl ⟨_, rfl⟩
theorem Range.pwrRstEngine : ∀ i e, Range.Statement (.pwrRstEngine i e) := by
  intro _ _ _; dsimp only [exec, execPwrRstEngine, pcmd, Instr.wf]; exact .inl ⟨_, rfl⟩
theorem Range.vddCoreUndervolt : Range.Statement .vddCoreUndervolt := by
  intro _; dsimp only [exec, execVddCoreUndervolt, pcmd, Instr.wf]; exact .inl ⟨_, rfl⟩
theorem Range.tempSample : ∀ temps, Range.Statement (.tempSample temps) := by
  intro _ _; dsimp only [exec, execTempSample, pcmd, Instr.wf]; exact .inl ⟨_, rfl⟩
theorem Range.overtempReset : Range.Statement .overtempReset := by
  intro _; dsimp only [exec, execOvertempReset, pcmd, Instr.wf]; exact .inl ⟨_, rfl⟩
theorem Range.avsNoAck : ∀ second, Range.Statement (.avsNoAck second) := by
  intro _ _; dsimp only [exec, execAvsNoAck, pcmd, Instr.wf]; exact .inl ⟨_, rfl⟩
theorem Range.sbVinRise : ∀ mv, Range.Statement (.sbVinRise mv) := by
  intro _ _; dsimp only [exec, execSbVinRise, pcmd, Instr.wf]; exact .inl ⟨_, rfl⟩
theorem Range.sbVinFall : ∀ mv, Range.Statement (.sbVinFall mv) := by
  intro _ _; dsimp only [exec, execSbVinFall, pcmd, Instr.wf]; exact .inl ⟨_, rfl⟩
theorem Range.sbVinLow : ∀ mv, Range.Statement (.sbVinLow mv) := by
  intro _ _; dsimp only [exec, execSbVinLow, pcmd, Instr.wf]; exact .inl ⟨_, rfl⟩
theorem Range.strapSample : ∀ a, Range.Statement (.strapSample a) := by
  intro _ _; dsimp only [exec, execStrapSample, pcmd, Instr.wf]; exact .inl ⟨_, rfl⟩
theorem Range.keepaliveSend : Range.Statement .keepaliveSend := by
  intro _; dsimp only [exec, execKeepaliveSend, pcmd, Instr.wf]; exact .inl ⟨_, rfl⟩
theorem Range.keepaliveLoss : Range.Statement .keepaliveLoss := by
  intro _; dsimp only [exec, execKeepaliveLoss, pcmd, Instr.wf]; exact .inl ⟨_, rfl⟩
theorem Range.nwWatchdogExpire : Range.Statement .nwWatchdogExpire := by
  intro _; dsimp only [exec, execNwWatchdogExpire, pcmd, Instr.wf]; exact .inl ⟨_, rfl⟩
theorem Range.smbBlockWrite : ∀ p bytes pec, Range.Statement (.smbBlockWrite p bytes pec) := by
  intro _ _ _ _; dsimp only [exec, execSmbBlockWrite, pcmd, Instr.wf]; exact .inl ⟨_, rfl⟩
theorem Range.smbBlockRead : ∀ p, Range.Statement (.smbBlockRead p) := by
  intro _ _; dsimp only [exec, execSmbBlockRead, pcmd, Instr.wf]; exact .inl ⟨_, rfl⟩
theorem Range.smbTimeout : ∀ p, Range.Statement (.smbTimeout p) := by
  intro _ _; dsimp only [exec, execSmbTimeout, pcmd, Instr.wf]; exact .inl ⟨_, rfl⟩
theorem Range.smbAlertResponse : ∀ p, Range.Statement (.smbAlertResponse p) := by
  intro _ _; dsimp only [exec, execSmbAlertResponse, pcmd, Instr.wf]; exact .inl ⟨_, rfl⟩
theorem Range.uartFrame : ∀ bytes, Range.Statement (.uartFrame bytes) := by
  intro _ _; dsimp only [exec, execUartFrame, pcmd, Instr.wf]; exact .inl ⟨_, rfl⟩
theorem Range.nwStatus : Range.Statement .nwStatus := by
  intro _; dsimp only [exec, execNwStatus, pcmd, Instr.wf]; exact .inl ⟨_, rfl⟩
theorem Range.nwPowerOn : Range.Statement .nwPowerOn := by
  intro _; dsimp only [exec, execNwPowerOn, pcmd, Instr.wf]; exact .inl ⟨_, rfl⟩
theorem Range.nwPowerOff : Range.Statement .nwPowerOff := by
  intro _; dsimp only [exec, execNwPowerOff, pcmd, Instr.wf]; exact .inl ⟨_, rfl⟩
theorem Range.nwPowerOffForced : Range.Statement .nwPowerOffForced := by
  intro _; dsimp only [exec, execNwPowerOffForced, pcmd, Instr.wf]; exact .inl ⟨_, rfl⟩
theorem Range.nwPowerOffNow : Range.Statement .nwPowerOffNow := by
  intro _; dsimp only [exec, execNwPowerOffNow, pcmd, Instr.wf]; exact .inl ⟨_, rfl⟩
theorem Range.nwPowerDeep : Range.Statement .nwPowerDeep := by
  intro _; dsimp only [exec, execNwPowerDeep, pcmd, Instr.wf]; exact .inl ⟨_, rfl⟩
theorem Range.nwPowerCold : Range.Statement .nwPowerCold := by
  intro _; dsimp only [exec, execNwPowerCold, pcmd, Instr.wf]; exact .inl ⟨_, rfl⟩
theorem Range.nwPowerWarm : Range.Statement .nwPowerWarm := by
  intro _; dsimp only [exec, execNwPowerWarm, pcmd, Instr.wf]; exact .inl ⟨_, rfl⟩
theorem Range.nwPowerClearFault : Range.Statement .nwPowerClearFault := by
  intro _; dsimp only [exec, execNwPowerClearFault, pcmd, Instr.wf]; exact .inl ⟨_, rfl⟩
theorem Range.offGraceExpire : Range.Statement .offGraceExpire := by
  intro _; dsimp only [exec, execOffGraceExpire, pcmd, Instr.wf]; exact .inl ⟨_, rfl⟩
theorem Range.nwbOffAck : ∀ i v, Range.Statement (.nwbOffAck i v) := by
  intro _ _ _; dsimp only [exec, execNwbOffAck, pcmd, Instr.wf]; exact .inl ⟨_, rfl⟩
theorem Range.nwWakecfgRead : Range.Statement .nwWakecfgRead := by
  intro _; dsimp only [exec, execNwWakecfgRead, pcmd, Instr.wf]; exact .inl ⟨_, rfl⟩
theorem Range.nwWakecfgWrite : Range.Statement .nwWakecfgWrite := by
  intro _; dsimp only [exec, execNwWakecfgWrite, pcmd, Instr.wf]; exact .inl ⟨_, rfl⟩
theorem Range.nwSensor : ∀ vals, Range.Statement (.nwSensor vals) := by
  intro _ _; dsimp only [exec, execNwSensor, pcmd, Instr.wf]; exact .inl ⟨_, rfl⟩
theorem Range.nwEventRead : Range.Statement .nwEventRead := by
  intro _; dsimp only [exec, execNwEventRead, pcmd, Instr.wf]; exact .inl ⟨_, rfl⟩
theorem Range.nwEventRemove : Range.Statement .nwEventRemove := by
  intro _; dsimp only [exec, execNwEventRemove, pcmd, Instr.wf]; exact .inl ⟨_, rfl⟩
theorem Range.ejectAssert : Range.Statement .ejectAssert := by
  intro _; dsimp only [exec, execEjectAssert, pcmd, Instr.wf]; exact .inl ⟨_, rfl⟩
theorem Range.ejectRelease : Range.Statement .ejectRelease := by
  intro _; dsimp only [exec, execEjectRelease, pcmd, Instr.wf]; exact .inl ⟨_, rfl⟩
theorem Range.vauxPArrive : Range.Statement .vauxPArrive := by
  intro _; dsimp only [exec, execVauxPArrive, pcmd, Instr.wf]; exact .inl ⟨_, rfl⟩
theorem Range.vauxPLoss : ∀ pgFirst, Range.Statement (.vauxPLoss pgFirst) := by
  intro _ _; dsimp only [exec, execVauxPLoss, pcmd, Instr.wf]; exact .inl ⟨_, rfl⟩
theorem Range.nwbTxgo : ∀ i v, Range.Statement (.nwbTxgo i v) := by
  intro _ _ _; dsimp only [exec, execNwbTxgo, pcmd, Instr.wf]; exact .inl ⟨_, rfl⟩
theorem Range.nwbRxMessage : ∀ bytes, Range.Statement (.nwbRxMessage bytes) := by
  intro _ _; dsimp only [exec, execNwbRxMessage, pcmd, Instr.wf]; exact .inl ⟨_, rfl⟩
theorem Range.nwbRxlenRead : ∀ i, Range.Statement (.nwbRxlenRead i) := by
  intro _ _; dsimp only [exec, execNwbRxlenRead, pcmd, Instr.wf]; exact .inl ⟨_, rfl⟩
theorem Range.nwbAlive : ∀ i v, Range.Statement (.nwbAlive i v) := by
  intro _ _ _; dsimp only [exec, execNwbAlive, pcmd, Instr.wf]; exact .inl ⟨_, rfl⟩
theorem Range.spiCmdGo : ∀ i v, Range.Statement (.spiCmdGo i v) := by
  intro _ _ _; dsimp only [exec, execSpiCmdGo, pcmd, Instr.wf]; exact .inl ⟨_, rfl⟩
theorem Range.spiDone : ∀ data, Range.Statement (.spiDone data) := by
  intro _ _; dsimp only [exec, execSpiDone, pcmd, Instr.wf]; exact .inl ⟨_, rfl⟩
theorem Range.censusTick : Range.Statement .censusTick := by
  intro _; dsimp only [exec, execCensusTick, pcmd, Instr.wf]; exact .inl ⟨_, rfl⟩
theorem Range.cenManualTick : ∀ i, Range.Statement (.cenManualTick i) := by
  intro _ _; dsimp only [exec, execCenManualTick, pcmd, Instr.wf]; exact .inl ⟨_, rfl⟩
theorem Range.censusRecordWrite : ∀ ok, Range.Statement (.censusRecordWrite ok) := by
  intro _ _; dsimp only [exec, execCensusRecordWrite, pcmd, Instr.wf]; exact .inl ⟨_, rfl⟩
theorem Range.pcieLinkUp : Range.Statement .pcieLinkUp := by
  intro _; dsimp only [exec, execPcieLinkUp, pcmd, Instr.wf]; exact .inl ⟨_, rfl⟩
theorem Range.loadDataReturn : ∀ c k ups, Range.Statement (.loadDataReturn c k ups) := by
  intro _ _ _ _; dsimp only [exec, execLoadDataReturn, pcmd, Instr.wf]; exact .inl ⟨_, rfl⟩
theorem Range.haltResume : ∀ c k, Range.Statement (.haltResume c k) := by
  intro _ _ _; dsimp only [exec, execHaltResume, pcmd, Instr.wf]; exact .inl ⟨_, rfl⟩
theorem Range.fabricClockEdge : ∀ pins, Range.Statement (.fabricClockEdge pins) := by
  intro _ _; dsimp only [exec, execFabricClockEdge, pcmd, Instr.wf]; exact .inl ⟨_, rfl⟩
theorem Range.streamWordTx : ∀ sp, Range.Statement (.streamWordTx sp) := by
  intro _ _; dsimp only [exec, execStreamWordTx, pcmd, Instr.wf]; exact .inl ⟨_, rfl⟩
theorem Range.trlRelGo : ∀ i v, Range.Statement (.trlRelGo i v) := by
  intro _ _ _; dsimp only [exec, execTrlRelGo, pcmd, Instr.wf]; exact .inl ⟨_, rfl⟩
theorem Range.xtal32Start : Range.Statement .xtal32Start := by
  intro _; dsimp only [exec, execXtal32Start, pcmd, Instr.wf]; exact .inl ⟨_, rfl⟩
theorem Range.entryRailsDown : Range.Statement .entryRailsDown := by
  intro _; dsimp only [exec, execEntryRailsDown, pcmd, Instr.wf]; exact .inl ⟨_, rfl⟩
theorem Range.refclkALoss : Range.Statement .refclkALoss := by
  intro _; dsimp only [exec, execRefclkALoss, pcmd, Instr.wf]; exact .inl ⟨_, rfl⟩
theorem Range.vretLow : ∀ mv, Range.Statement (.vretLow mv) := by
  intro _ _; dsimp only [exec, execVretLow, pcmd, Instr.wf]; exact .inl ⟨_, rfl⟩

end Sys2Proof.Laws
end

