-- ==== Sys2Proof/Laws/Registers.lean ====
section
/-! SUPPORT. A register read after a write, and what every update of a register keeps. -/

namespace Sys2Proof.Machine

theorem RegInv.sorted {s : State} (h : RegInv s) : msorted 0 s.csr = true := mwf_sorted h

theorem rd_wr_same {s : State} (h : RegInv s) (off v : Nat) : (s.wr off v).rd off = v % 2 ^ 32 := by
  show (mget regDefault (mput regDefault s.csr off (BitVec.ofNat 32 v)) off).toNat = _
  rw [mget_mput_same _ _ _ h.sorted, BitVec.toNat_ofNat]

theorem rd_wr_ne {s : State} (h : RegInv s) {off o : Nat} (ho : o ≠ off) (v : Nat) : (s.wr off v).rd o = s.rd o := by
  show (mget regDefault (mput regDefault s.csr off (BitVec.ofNat 32 v)) o).toNat = _
  rw [mget_mput_ne _ ho _ h.sorted]
  rfl

theorem wr_regInv {s : State} (h : RegInv s) (off v : Nat) : RegInv (s.wr off v) := mwf_mput regDefault off _ h

theorem wrF_regInv {s : State} (h : RegInv s) (off hi lo v : Nat) : RegInv (s.wrF off hi lo v) := wr_regInv h _ _

theorem count_regInv {s : State} (h : RegInv s) (off n : Nat) : RegInv (s.count off n) := wr_regInv h _ _

theorem wrPair_regInv {s : State} (h : RegInv s) (lo hi w v : Nat) : RegInv (s.wrPair lo hi w v) :=
  wr_regInv (wr_regInv h _ _) _ _

theorem resetRegs_regInv {s : State} (h : RegInv s) (p : Nat → Bool) : RegInv (s.resetRegs p) := mwf_mdrop regDefault p h

/-- A register that a reset covers reads its Reset value, another what it did. -/
theorem rd_resetRegs {s : State} (h : RegInv s) (p : Nat → Bool) (o : Nat) :
    (s.resetRegs p).rd o = if p o then (regDefault o).toNat else s.rd o := by
  show (mget regDefault (mdrop p s.csr) o).toNat = _
  rw [mget_mdrop _ _ _ h.sorted]
  split <;> rfl

/-- A counter register counts up and holds at its largest value. -/
theorem rd_count {s : State} (h : RegInv s) (off n : Nat) : (s.count off n).rd off = min 0xFFFFFFFF (s.rd off + n) := by
  unfold State.count satAdd
  rw [rd_wr_same h]
  omega

end Sys2Proof.Machine
end

