-- ==== Sys2Proof/Tests/Slice0.lean ====
section
/-! SUPPORT. The model's own tests: ill-formed commands refused, single steps worked out from the specification, and for every
statement a state and operands that meet its hypotheses. -/

set_option Elab.async false

namespace Sys2Proof.Tests

open Sys2Proof.Machine

/-- A powered payload whose firmware is RUNNING, the PCIe link up. -/
def on : State :=
  { State.reset with
    csr := [(0x140000, 3)], pwr := { PwrState.reset with up := true, refA := true }
    nw := { NwState.reset with on := true, pstate := .run, link := true, sampled := true }, pcie := { PcieState.reset with link := true } }

/-- Mailbox 0 enabled and privileged, with one request waiting. -/
def asked (s : State) (bs : List Byte) : State :=
  { s with
    csr := (0x100000, 0xC0000000) :: s.csr
    mbx := [(0, { MbxState.reset with reqs := [{ bytes := bs, time := 0, tmo := 0, ans := .none, gone := false }] })] }

/-- A request: its header and its payload, given as fields of a size and a value. -/
def req (op : Nat) (fs : List (Nat × Nat)) : List Byte :=
  leBytes 2 op ++ leBytes 2 0 ++ leBytes 4 1 ++ leBytes 2 0 ++ leBytes 2 0 ++ leBytes 4 0 ++ fs.flatMap fun f => leBytes f.1 f.2

/-- The owner's key of these tests: the base point itself, with its hash. -/
def ownerSlot : KeySlot :=
  { id := 0x1234, hash := beBytes 48 0xa19d4db171b582eb8052b0cfe555e17894aa22d1c8a9770950697dd8f796d2fa4bf0a56ad80006b7ea08e1191f814b65, enrolled := true, revoked := false, debug := true }

/-- A firmware image of 4,096 zero bytes, signed by the owner. -/
def firmwareImage : List Byte :=
  beBytes 272 0x4b52563100020100341200000000000000100000000000000000000000000000c0e59a3e3ffbd3b5c75428fb36432facabc745944296ff515f737c4fef4efc64586809f7a16f56354a1eaecf2aa8d774aa87ca22be8b05378eb1c71ef320ad746e1d3b628ba79b9859f741e082542a385502f25dbf55296c3a545e3872760ab73617de4a96262c6f5d9e98bf9292dc29f8f41dbd289a147ce9da3113b5f0b8c00a60b1ce1d7e819d7a431d7c90ea0e5faa87ca22be8b05378eb1c71ef320ad746e1d3b628ba79b9859f741e082542a385502f25dbf55296c3a545e3872760ab7c7a792a2a7a6185864ffcb8ceb19d845d3f3e0bbaec6ab5ff67d6969e67dcce315134415a2098eeed19ce03d3e6f8724
    ++ List.replicate 240 0 ++ List.replicate 4096 0

/-- An enrolment record that revokes key slot 0, signed by the owner. -/
def enrolImage : List Byte :=
  beBytes 272 0x4b525631000204003412000000000000400000000000000000000000000000007ce0943b6bee2d7095d59d21a7df82ee1af13ee426d970d0d99007d60b8db896899cdd8e816f2dc43469cd59110a6a00aa87ca22be8b05378eb1c71ef320ad746e1d3b628ba79b9859f741e082542a385502f25dbf55296c3a545e3872760ab73617de4a96262c6f5d9e98bf9292dc29f8f41dbd289a147ce9da3113b5f0b8c00a60b1ce1d7e819d7a431d7c90ea0e5faa87ca22be8b05378eb1c71ef320ad746e1d3b628ba79b9859f741e082542a385502f25dbf55296c3a545e3872760ab7cbd2138024fab2ac3b49c850fe9a81f3e144507543bf92ed5c99c0cbc404f52137bffdb230093224ce50450d6a46a590
    ++ List.replicate 240 0 ++ [2, 0, 0, 0, 0x34, 0x12, 0, 0] ++ List.replicate 56 0

/-- A blend of one empty TEMPLATE and one empty PLANDESC, signed by the owner. -/
def blendImage : List Byte :=
  beBytes 272 0x4b52563100020200341200000000000010000000000000000000000000000000a0db074b8dc53745ea815f6ead851fc3a6467e1751720a46a462bfdc02b21c491600ff0772e3802358e3ce0468e26f38aa87ca22be8b05378eb1c71ef320ad746e1d3b628ba79b9859f741e082542a385502f25dbf55296c3a545e3872760ab73617de4a96262c6f5d9e98bf9292dc29f8f41dbd289a147ce9da3113b5f0b8c00a60b1ce1d7e819d7a431d7c90ea0e5faa87ca22be8b05378eb1c71ef320ad746e1d3b628ba79b9859f741e082542a385502f25dbf55296c3a545e3872760ab71328c7c18a88c8c82b134d6fda8f536bbedaed9f00f3054c8b2a8e99ef0c968f353351d0f3c23bf4ff4f7be0d25ae20f
    ++ List.replicate 240 0 ++ [1, 0, 0, 0, 0, 0, 0, 0, 4, 0, 0, 0, 0, 0, 0, 0]


/-! ### Ill-formed commands: every operand that has a range, one past its end, and a name of no unit; and every command at the ends of its ranges -/

theorem test_ill_formed_0 : ([.registerWrite (.ctl 4) .dev 0 0 0, .rcCounterRead (.ctl 4) .dev 0 0, .loReadLatch (.ctl 4) .dev 0 0, .hiWriteCommit (.ctl 4) .dev 0 0 0, .mbxEnable (.eng 0) 63 0, .mbxEnable .host 64 0, .mbxDisable (.eng 0) 63 0, .mbxDisable .host 64 0, .mbxIdle 64, .mbxReqPiWrite (.eng 0) 63 0 [], .mbxReqPiWrite .host 64 0 [], .mbxRspCiWrite (.eng 0) 63 0, .mbxRspCiWrite .host 64 0, .mbxLockSet (.eng 0) 0, .mbxFwctrlReload (.eng 0) 0, .requestConsume 64 false, .responseCommit 64 0 false, .responseTimeout 64 0 false, .noticeDeliver 64 false, .controlCoreException 4, .sysPing 64, .sysInfo 64, .sysRestart 64, .sysHeadroomMode 64, .sysHeadroomVoltage 64, .sysError 7 0, .sysBootrun 64, .sysFlashwr 64 false, .pwrSetDeviceRun 64, .pwrSetDeviceDeep 64, .pwrSetDeviceOff 64, .pwrSetClusterRun 64, .pwrSetClusterSleep 64, .pwrSetClusterOff 64, .pwrSetEngineRun 64, .pwrSetEngineSleep 64, .pwrQuery 64, .carrierConfig 64 0 0, .carrierStart 64, .carrierStop 64] : List Instr).all (fun i => !i.wf) = true := by decide

theorem test_ill_formed_1 : ([.carrierStopDrain 64, .carrierQuery 64, .slotPlan 64 [] 16383 31, .slotPlan 63 [] 16384 31, .slotPlan 63 [] 16383 32, .slotCancel 64, .slotQuery 64, .blendLoad 64, .blendUnload 64, .blendQuery 64, .flowPin 64, .flowNotifyBind 64, .flowNotifyUnbind 64, .flowQuery 64, .memAlloc 64 0, .memFree 64, .memGrant 64, .memGrantRevoke 64, .laneConfigLink 64, .laneConfigPort 64, .laneConfigStream 64, .laneStatus 64, .laneEqTaps 64, .laneEqFreeze 64, .laneEqRelease 64, .timeSetAbsolute 64, .timeSetStep 64, .timeSetServo 64, .timeSetOutput 64, .timeSetCapture 64, .timeOffset 64, .timeQuery 64, .fskPlan 64, .fskPlanStop 64, .fskTx 64 65535 0 131071, .fskTx 63 65536 0 131071, .fskTx 63 65535 0 131072, .fskTxabort 64, .trellisLoad 64, .trellisRelease 64] : List Instr).all (fun i => !i.wf) = true := by decide

theorem test_ill_formed_2 : ([.trellisHold 64, .trellisUnload 64, .trellisQuery 64, .spareQuery 64, .spareRetire 64, .censusConfig 64 0, .censusStart 64, .censusStop 64, .debugAuthChallenge 64, .debugAuthVerify 64, .debugAuthClear 64, .debugRead 64, .debugWrite 64, .cpSubmit 4 0, .taskAdmit (.ring 64) 131071, .taskAdmit .trellis 131072, .evPost 4 0, .evClr 4 0, .taskSelect (.engine 76), .cmCancel 4 0, .cmCancelFlow 4 0, .flowCfgWrite 4 0, .taskCommit 131072, .completionRecordWrite 72 false, .unitFault (.engine 76) false, .hostRingSqPiWrite 64 65535, .hostRingSqPiWrite 63 65536, .hostRingEntry 64 false 131071, .hostRingEntry 63 false 131072, .hostRingPost 64, .bundleIssue 12 7 0 [], .bundleIssue 11 8 0 [], .writeBufferAck 12 7 false, .writeBufferAck 11 8 false, .pmMissFill 12 7 false, .pmMissFill 11 8 false, .cancelAccept 12 7, .cancelAccept 11 8, .haltAccept 12 7, .haltAccept 11 8] : List Instr).all (fun i => !i.wf) = true := by decide

theorem test_ill_formed_3 : ([.pmInvWrite (.ctl 4) 11 0, .pmInvWrite .host 12 0, .pmInvDone 12, .coreClearDone 12 7, .coreClearDone 11 8, .cov 76, .chol 76, .trsolve 76, .mmse 76, .apply 76, .decode 76, .encode 76, .uciDecode 76, .rmDecode 76, .dciEncode 76, .pbchEncode 76, .turboDecode 76, .turboEncode 76, .tbccDecode 76, .fft 76, .ifft 76, .dft 76, .idft 76, .engineJobEnd 76 false, .engineStop 76 0, .burst 4 63, .burst 3 64, .burstStart 4 63, .burstStart 3 64, .burstEnd 4 63, .burstEnd 3 64, .blankResume 4 127, .blankResume 3 128, .streamGap 4 0, .preambleDetect 4 127 [] [] [], .preambleDetect 3 128 [] [] [], .captureDecision 4 127 [] [], .captureDecision 3 128 [] [], .syncTimeout 4 127, .syncTimeout 3 128] : List Instr).all (fun i => !i.wf) = true := by decide

theorem test_ill_formed_4 : ([.sfdFound 4 127 0 [] 0, .sfdFound 3 128 0 [] 0, .ncoTrackUpdate 4 127 [], .ncoTrackUpdate 3 128 [], .packetEnd 4 127 [] [], .packetEnd 3 128 [] [], .nfeReportWrite 4, .dctGo 64 0, .dctAbort 64 0, .linear ⟨64, 0⟩, .twoD ⟨64, 0⟩, .gather ⟨64, 0⟩, .scatter ⟨64, 0⟩, .dctDescriptorCommit 64 false, .dctTransferError 64, .walkerVisit 10 [], .bankCopyDone 34, .memVclrGo 4 0, .dmcInit 6 0 9, .dmcInit 5 0 10, .dmcInitTimeout 6 9, .dmcInitTimeout 5 10, .dmcEnable 6 0, .dmcSrEnter 6 0, .dmcSrExit 6 0, .dramRefresh 6, .dramAgePromote 6 3 0, .dramAgePromote 5 4 0, .dramAlert 6, .dramReplay 6 false, .retrainDue 6, .retrainForced 6 false, .laneStageReady 16 16 false 15, .laneStageReady 15 17 false 15, .laneStageReady 15 16 false 16, .laneStageTimeout 16 16, .laneStageTimeout 15 17, .laneLockLoss 16 16 5, .laneLockLoss 15 17 5, .laneLockLoss 15 16 6] : List Instr).all (fun i => !i.wf) = true := by decide

theorem test_ill_formed_5 : ([.laneRestart 16 16 0, .laneRestart 15 17 0, .laneTxsleep 16 16 0, .laneTxsleep 15 17 0, .laneRxsleep 16 16 0, .laneRxsleep 15 17 0, .rawSlip 16 16 0, .rawSlip 15 17 0, .rawSlipDone 16 16, .rawSlipDone 15 17, .rawUp 16 16 0, .rawUp 15 17 0, .rawDown 16 16 0, .rawDown 15 17 0, .eyeMeasure 16 16 255 4095, .eyeMeasure 15 17 255 4095, .eyeMeasure 15 16 256 4095, .eyeMeasure 15 16 255 4096, .ethFrameRx 64 15 [] false 0 0 0 0, .ethFrameRx 63 16 [] false 0 0 0 0, .ethFrameTxStamp 64 15 0 0, .ethFrameTxStamp 63 16 0 0, .uplaneMessage 64 0 0 [], .rxWindowOpen 384 0, .rxWindowClose 384 0, .fhEgressStart 384 0, .tdStreamMessage 4096 0 [], .tdStreamSend 4096, .tetherWriteFrame 3 [], .tetherPostFrame 3 [], .tetherLinkBlock 3 [], .tetherMarker 3 0 15 3 false, .tetherMarker 2 0 16 3 false, .tetherMarker 2 0 15 4 false, .tetherLinkSend 3, .tetherMarkerSend 3, .tetherReqPiWrite 3 0, .tetherEntryComplete 3, .servoSample 4 0, .mrdTimeRead (.ctl 4)] : List Instr).all (fun i => !i.wf) = true := by decide

theorem test_ill_formed_6 : ([.tsInEdge 8 false, .capPop 8, .tsOutEdge 4, .timelineArm 384 0, .timelineDisarm 384 0, .symbol 384 7 0, .symbol 383 8 0, .slot 384 7 0, .slot 383 8 0, .frame 384 7 0, .frame 383 8 0, .gap 384 7 0, .gap 383 8 0, .trellisConfigWrite (.ctl 4) 0 0 0, .trunkContention 256 31, .trunkContention 255 32, .configStoreUe 8 0, .eventPortStrobe 8 false, .memPortRequest 4 false, .memPortResponse 4, .streamWordRx 32 0, .vioMismatch 3, .hctrlModeWrite 4 0, .taskMove 131072 11, .taskMove 131071 12, .prestageEnd 131072, .choldClear 4 11 0, .choldClear 3 12 0, .retireWear 14 0, .drainTimeout 14 0, .remap 14 0 0, .schedStoreUe 131072 0 false, .clusterSleepEnter 12, .clusterWake 12, .engineSleepEnter 80, .engineWake 80, .wsenseTrip 256, .powerGoodFall 8, .pwrRstCold 4, .pwrRstWarm 4] : List Instr).all (fun i => !i.wf) = true := by decide

theorem test_ill_formed_7 : ([.pwrRstCluster 4 11, .pwrRstCluster 3 12, .pwrRstCore 4 11 7, .pwrRstCore 3 12 7, .pwrRstCore 3 11 8, .pwrRstEngine 4 79, .pwrRstEngine 3 80, .strapSample 8, .smbBlockWrite 2 [] 0, .smbBlockRead 2, .smbTimeout 2, .smbAlertResponse 2, .nwbOffAck 4 0, .nwbTxgo 4 0, .nwbRxlenRead (.ctl 4), .nwbAlive 4 0, .spiCmdGo 4 0, .cenManualTick 4, .loadDataReturn 12 7 [], .loadDataReturn 11 8 [], .haltResume 12 7, .haltResume 11 8, .streamWordTx 32, .trlRelGo 4 0] : List Instr).all (fun i => !i.wf) = true := by decide

theorem test_well_formed_0 : ([.registerWrite .host .dev 0 0 0, .rcCounterRead .host .dev 0 0, .loReadLatch .host .dev 0 0, .hiWriteCommit .host .dev 0 0 0, .hostCellarWrite 0 [], .pcieFlr, .pcieConventionalReset, .pcieLinkDown 0, .mbxEnable .host 63 0, .mbxDisable .host 63 0, .mbxIdle 63, .mbxReqPiWrite .host 63 0 [], .mbxRspCiWrite .host 63 0, .mbxLockSet .host 0, .mbxFwctrlReload .host 0, .requestConsume 63 false, .responseCommit 63 0 false, .responseTimeout 63 0 false, .noticeDeliver 63 false, .fwWatchdogExpire, .controlCoreException 3, .fwRestart, .fwRunning, .sysPing 63, .sysInfo 63, .sysRestart 63, .sysHeadroomMode 63, .sysHeadroomVoltage 63, .sysError 6 0, .sysBootrun 63, .sysFlashwr 63 false, .pwrSetDeviceRun 63, .pwrSetDeviceDeep 63, .pwrSetDeviceOff 63, .pwrSetClusterRun 63, .pwrSetClusterSleep 63, .pwrSetClusterOff 63, .pwrSetEngineRun 63, .pwrSetEngineSleep 63, .pwrQuery 63] : List Instr).all Instr.wf = true := by decide

theorem test_well_formed_1 : ([.carrierConfig 63 0 0, .carrierStart 63, .carrierStop 63, .carrierStopDrain 63, .carrierQuery 63, .slotPlan 63 [] 16383 31, .planSubmitLate 0, .slotCancel 63, .slotQuery 63, .blendLoad 63, .blendUnload 63, .blendQuery 63, .flowPin 63, .flowNotifyBind 63, .flowNotifyUnbind 63, .flowQuery 63, .memAlloc 63 0, .memFree 63, .memGrant 63, .memGrantRevoke 63, .laneConfigLink 63, .laneConfigPort 63, .laneConfigStream 63, .laneStatus 63, .laneEqTaps 63, .laneEqFreeze 63, .laneEqRelease 63, .timeSetAbsolute 63, .timeSetStep 63, .timeSetServo 63, .timeSetOutput 63, .timeSetCapture 63, .timeOffset 63, .timeQuery 63, .fskPlan 63, .fskPlanStop 63, .fskTx 63 65535 0 131071, .fskTxResultWrite 0 false, .fskTxabort 63, .trellisLoad 63] : List Instr).all Instr.wf = true := by decide

theorem test_well_formed_2 : ([.trellisRelease 63, .trellisHold 63, .trellisUnload 63, .trellisQuery 63, .spareQuery 63, .spareRetire 63, .censusConfig 63 0, .censusStart 63, .censusStop 63, .debugAuthChallenge 63, .debugAuthVerify 63, .debugAuthClear 63, .debugRead 63, .debugWrite 63, .cpSubmit 3 0, .taskAdmit .trellis 131071, .evPost 3 0, .evClr 3 0, .taskSelect (.engine 75), .cmCancel 3 0, .cmCancelFlow 3 0, .flowCfgWrite 3 0, .deadlineSweep, .taskCommit 131071, .completionRecordWrite 71 false, .unitFault (.engine 75) false, .hostRingSqPiWrite 63 65535, .hostRingEntry 63 false 131071, .hostRingPost 63, .bundleIssue 11 7 0 [], .writeBufferAck 11 7 false, .pmMissFill 11 7 false, .cancelAccept 11 7, .haltAccept 11 7, .pmInvWrite .host 11 0, .pmInvDone 11, .coreClearDone 11 7, .cov 75, .chol 75, .trsolve 75] : List Instr).all Instr.wf = true := by decide

theorem test_well_formed_3 : ([.mmse 75, .apply 75, .decode 75, .encode 75, .uciDecode 75, .rmDecode 75, .dciEncode 75, .pbchEncode 75, .turboDecode 75, .turboEncode 75, .tbccDecode 75, .fft 75, .ifft 75, .dft 75, .idft 75, .engineJobEnd 75 false, .engineStop 75 0, .burst 3 63, .burstStart 3 63, .burstEnd 3 63, .blankResume 3 127, .streamGap 3 0, .preambleDetect 3 127 [] [] [], .captureDecision 3 127 [] [], .syncTimeout 3 127, .sfdFound 3 127 0 [] 0, .ncoTrackUpdate 3 127 [], .packetEnd 3 127 [] [], .nfeReportWrite 3, .dctGo 63 0, .dctAbort 63 0, .linear ⟨63, 0⟩, .twoD ⟨63, 0⟩, .gather ⟨63, 0⟩, .scatter ⟨63, 0⟩, .dctDescriptorCommit 63 false, .dctTransferError 63, .walkerVisit 9 [], .bankCopyDone 33, .validMapFill 0] : List Instr).all Instr.wf = true := by decide

theorem test_well_formed_4 : ([.memVclrGo 3 0, .dmcInit 5 0 9, .dmcInitTimeout 5 9, .dmcEnable 5 0, .dmcSrEnter 5 0, .dmcSrExit 5 0, .dramRefresh 5, .dramAgePromote 5 3 0, .dramAlert 5, .dramReplay 5 false, .retrainDue 5, .retrainForced 5 false, .laneStageReady 15 16 false 15, .laneStageTimeout 15 16, .laneLockLoss 15 16 5, .laneRestart 15 16 0, .laneTxsleep 15 16 0, .laneRxsleep 15 16 0, .rawSlip 15 16 0, .rawSlipDone 15 16, .rawUp 15 16 0, .rawDown 15 16 0, .eyeMeasure 15 16 255 4095, .ethFrameRx 63 15 [] false 0 0 0 0, .ethFrameTxStamp 63 15 0 0, .uplaneMessage 63 0 0 [], .rxWindowOpen 383 0, .rxWindowClose 383 0, .fhEgressStart 383 0, .tdStreamMessage 4095 0 [], .tdStreamSend 4095, .tetherWriteFrame 2 [], .tetherPostFrame 2 [], .tetherLinkBlock 2 [], .tetherMarker 2 0 15 3 false, .tetherLinkSend 2, .tetherMarkerSend 2, .tetherReqPiWrite 2 0, .tetherEntryComplete 2, .servoSample 3 0] : List Instr).all Instr.wf = true := by decide

theorem test_well_formed_5 : ([.sampleTimeout, .mrdTimeRead .host, .tsInEdge 7 false, .capPop 7, .tsOutEdge 3, .timingFrame, .timelineArm 383 0, .timelineDisarm 383 0, .symbol 383 7 0, .slot 383 7 0, .frame 383 7 0, .gap 383 7 0, .trellisConfigWrite .host 0 0 0, .trunkContention 255 31, .configStoreUe 7 0, .eventPortStrobe 7 false, .memPortRequest 3 false, .memPortResponse 3, .submitPortStrobe, .streamWordRx 31 0, .vioMismatch 2, .hctrlModeWrite 3 0, .shieldReady, .effEvaluate [], .taskMove 131071 11, .prestageEnd 131071, .slackReport [], .voltageStep, .choldClear 3 11 0, .retireWear 13 0, .drainTimeout 13 0, .remap 13 0 0, .schedStoreUe 131071 0 false, .clusterSleepEnter 11, .clusterWake 11, .engineSleepEnter 79, .engineWake 79, .wakeNAssert, .wsenseTrip 255, .wakeTimer] : List Instr).all Instr.wf = true := by decide

theorem test_well_formed_6 : ([.wakeStageReady 0, .wakeStageTimeout 0, .regulatorRetry, .powerGoodFall 7, .pwrRstCold 3, .pwrRstWarm 3, .pwrRstCluster 3 11, .pwrRstCore 3 11 7, .pwrRstEngine 3 79, .vddCoreUndervolt, .tempSample [], .overtempReset, .avsNoAck false, .sbVinRise 0, .sbVinFall 0, .sbVinLow 0, .strapSample 7, .keepaliveSend, .keepaliveLoss, .nwWatchdogExpire, .smbBlockWrite 1 [] 0, .smbBlockRead 1, .smbTimeout 1, .smbAlertResponse 1, .uartFrame [], .nwStatus, .nwPowerOn, .nwPowerOff, .nwPowerOffForced, .nwPowerOffNow, .nwPowerDeep, .nwPowerCold, .nwPowerWarm, .nwPowerClearFault, .offGraceExpire, .nwbOffAck 3 0, .nwWakecfgRead, .nwWakecfgWrite, .nwSensor [], .nwEventRead] : List Instr).all Instr.wf = true := by decide

theorem test_well_formed_7 : ([.nwEventRemove, .ejectAssert, .ejectRelease, .vauxPArrive, .vauxPLoss false, .nwbTxgo 3 0, .nwbRxMessage [], .nwbRxlenRead .host, .nwbAlive 3 0, .spiCmdGo 3 0, .spiDone [], .censusTick, .cenManualTick 3, .censusRecordWrite false, .pcieLinkUp, .loadDataReturn 11 7 [], .haltResume 11 7, .fabricClockEdge 0, .streamWordTx 31, .trlRelGo 3 0, .xtal32Start, .entryRailsDown, .refclkALoss, .vretLow 0] : List Instr).all Instr.wf = true := by decide

/-! ### Worked examples of the specification -/

/-- 01_architecture, R18: the Y memory of logical core 5.3 begins at 0x1538_0000; FG03.L12 lies at CSR offset 0xC6_C000. -/
theorem test_addresses : locate 0x15380000 = .xy 5 3 ∧ locate 0x1537FFFF = .xy 5 3 ∧ locate 0x1533FFFF = .none ∧ Reg.laneCtrl 3 12 = 0xC6C000 := by decide

/-- 09_memory: address 0x12_3456 lies in bank 12. -/
theorem test_bank : State.reset.bankOf 0x123456 = 12 ∧ State.reset.bankOf 0x03800100 = 29 := by decide +kernel

/-- 02_control, R443's table: logical core 4.2 is unit 34, on physical core 38; its cluster's spare is 44. -/
theorem test_spare_numbers : State.reset.physOf 0 34 = 38 ∧ State.reset.spareFor 0 34 = some 44 := by decide +kernel

/-- 05_dsp_instructions, the bundle of the FIR kernel: VCMAC V0:V1, V16, D16; VLD V16, (A0)+=M0; LD.W D16, (A1)+=M1. -/
theorem test_decode_vcmac : (decodeWord 0 0x02402104).map (·.op) = some (.vec .vmacS 0 16 16 .c false) := by decide +kernel
theorem test_decode_vld : (decodeWord 4 0x20B80200).map (·.op) = some (.mem .vld 16 0 1 0 0 0) := by decide +kernel
theorem test_decode_ldw : (decodeWord 8 0xA0580A08).map (·.op) = some (.mem .ldW 16 1 1 0 1 8) ∧ wordEnds 0xA0580A08 = true ∧ wordEnds 0x20B80200 = false := by decide +kernel
theorem test_decode_slots : ((decodeBundle [(0, 0x02402104), (4, 0x20B80200), (8, 0xA0580A08)]).map List.length) = some 3 := by decide +kernel

/-- 05_dsp_instructions, the rows of R169's table. -/
theorem test_round_sat :
    fxSat (fxRound 23168 8) 16 = (91, false) ∧ fxSat (fxRound (-23168) 8) 16 = (-90, false) ∧ fxSat (fxRound (-23169) 8) 16 = (-91, false) ∧
      fxSat (fxRound 1073725440 15) 16 = (32767, true) ∧ fxSat (fxRound ((-32768) * (-32768)) 15) 16 = (32767, true) := by decide

/-- R170: (3 + j4)(5 − j2) = 23 + j14; the VCMPY example keeps 32,767. -/
theorem test_complex : cmul false (3, 4) (5, -2) = (23, 14) ∧ fxSat (fxRound (cmul false (23170, 23170) (23170, -23170)).1 15) 16 = (32767, false) := by decide

/-- R177: 6,704 and −6,100 have headroom 2, zero and −1 all of it. -/
theorem test_headroom : headroom 16 0x1A30 = 2 ∧ headroom 16 0xE82C = 2 ∧ headroom 16 0 = 15 ∧ headroom 16 0xFFFF = 15 := by decide +kernel

/-- R85: at NOW32 = 0xFFFF_FF00 the deadline 0x40 has not passed; at 0x41 it has. -/
theorem test_deadline :
    let s := fun (n : Nat) => { on with mrd := { on.mrd with time := n * 32 * 2 ^ 32 } }
    (s 0xFFFFFF00).now32 = 0xFFFFFF00 ∧ (s 0xFFFFFF00).passed 0x40 = false ∧ (s 0x41).passed 0x40 = true ∧ (s 0x40).passed 0x40 = false := by decide +kernel

/-- R269: the sign bits of eight LLRs pack to 0xAA. -/
theorem test_bitsplit : packByte ([0x85, 0x12, 0xF0, 0x7F, 0x80, 0x01, 0xFF, 0x00].map fun v => tb v 7) = 0xAA := by decide +kernel

/-- R271: the PRB with RE 0 = (9,000, −10,000) and RE 1 = (−1, 100) takes e = 6 and 28 bytes, and comes back as (9,024, −9,984), (0, 128). -/
theorem test_bfp :
    let c := bfpComp 9 0 ([9000, -10000, -1, 100] ++ List.replicate 20 0)
    c.1.take 5 = [0x06, 0x46, 0xD9, 0x00, 0x00] ∧ (c.1.getD 5 0).toNat / 16 = 2 ∧ c.1.length = 28 ∧ (bfpDecomp 9 0 c.1).1.take 4 = [9024, -9984, 0, 128] := by decide +kernel

/-- R272: C16 to C12 of (32,767, −32,768) saturates I. -/
theorem test_iqconv : iqSample 2 1 0 (leBytes 4 0x80007FFF) = ([0xFF, 0x07, 0x80], true) := by decide +kernel

/-- R240: FEV = 20.0 % gives LQI 161, 5.0 % is held at 255. -/
theorem test_lqi : lqiOf 200 = 161 ∧ lqiOf 50 = 255 ∧ lqiOf 0 = 255 := by decide +kernel

/-- R380: with MU = 1, symbol 2 of slot 3 starts 1,571.875 µs = 48,288 Ts after the frame. R382: slot 3 of SFN 517 is slot index 10,343. -/
theorem test_timeline : symbolTs 1 (3 * 14 + 2) = 48288 ∧ 517 * slotsPerFrame 1 + 3 = 10343 := by decide +kernel

/-- R392: the accumulator entry 0x0894_0000 of a cell adds IN0 to U0. -/
theorem test_cell_entry : fld 0x08940000 31 27 = 1 ∧ fld 0x08940000 23 21 = 4 ∧ tb 0x08940000 20 = true ∧ tb 0x08940000 18 = true ∧ cellOp 1 0xFFFF 2 0 0 = (1, 1) := by decide

/-- R475, R477: the SMBus PEC of no bytes is zero, the check value of CRC-8 (polynomial 0x07) of "123456789" is 0xF4; CRC-32 of it is 0xCBF4_3926. -/
theorem test_crcs : crc8 [] = 0 ∧ crc8 [0x31, 0x32, 0x33, 0x34, 0x35, 0x36, 0x37, 0x38, 0x39] = 0xF4 ∧ crc32 [0x31, 0x32, 0x33, 0x34, 0x35, 0x36, 0x37, 0x38, 0x39] = 0xCBF43926 := by decide +kernel

theorem wit_StepIdle : on.pending = [] ∧ on.pwr.up = true ∧ ({ on with mrd := { on.mrd with run := true } } : State).mrd.run = true := ⟨rfl, rfl, rfl⟩

theorem wit_ExecTotal : Instr.wf (.evPost 3 1) = true ∧ Instr.wf (.evPost 4 1) = false := by decide

theorem wit_QueueKept : Completes (exec .pcieFlr { on with pending := [.pcieLinkUp] }) := ⟨_, rfl⟩

theorem wit_OtpOnlyByRom :
    Completes (step { on with pending := [.pcieFlr] }) ∧ mayRunRom .pcieFlr = false := ⟨⟨_, rfl⟩, rfl⟩

theorem wit_QueueDrains : QueueOk { on with pending := [.pcieFlr, .pcieLinkUp] } := by
  intro i h
  simp only [List.mem_cons, List.not_mem_nil, or_false] at h
  rcases h with rfl | rfl <;> rfl

theorem wit_QueueOkKept : QueueOk on ∧ Completes (step on) := ⟨(by intro i h; cases h), _, rfl⟩

theorem wit_RegisterWriteLands :
    (Init.wf (.ctl 0) = true ∧ on.pwr.up = true ∧ Reg.cmCtrl < 0x10000000 ∧ (begin on).plainInit (.ctl 0) = true ∧ (begin on).writeRefused (.ctl 0) Reg.cmCtrl = false) ∧
    (on.d3hot = false ∧ (begin on).writeRefused .host Reg.cmCtrl = true) ∧ (0x200002 % 4 ≠ 0) ∧
    (0x34 < 0x40000 ∧ (begin on).writeRefused .host (0x100000 + 0x34) = false) ∧
    (Init.wf (.eng 79) = true ∧ Init.wf (.dct 63) = true ∧ csrOpen 63 ((begin on).dctAt 63).desc = false) := by decide +kernel
/-- Core 11.7 runs a task that may read and write CSR space. -/
def coreAsks : State := { on with cores := [(11 * 8 + 7, { CoreState.reset with st := .running, mpu := [(0xE0020000, 0x2FFFF)] })] }
theorem wit_RegisterWriteLands_core : ((begin coreAsks).core 11 7).st = .running := by decide +kernel

theorem wit_PairCommit :
    (on.pwr.up = true ∧ on.pcie.link = true ∧ on.d3hot = false ∧ RegInv on ∧ mwf (fun _ => PairSt.reset) on.pairs = true) ∧
    ((on.setPair .host { PairSt.reset with held := some (Reg.pcieHwbaseLo, 0x3000) }).pair .host).held = some (Reg.pcieHwbaseLo, 0x3000) :=
  ⟨⟨rfl, rfl, rfl, rfl, rfl⟩, by decide +kernel⟩

theorem wit_RcCounterClears : RegInv on ∧ Init.wf (.dsp 11 7) = true ∧ (begin on).plainInit (.dsp 11 7) = true := ⟨rfl, rfl, by decide +kernel⟩
/-- Core 11.7 runs a task in its task's context, which may read CSR space. -/
theorem wit_RcCounterClears_core :
    ((begin coreAsks).core 11 7).st = .running ∧
    ((begin coreAsks).free 2).2.agFault (((begin coreAsks).free 2).2.core 11 7) 11 7 (coreAccess (2 + ((begin coreAsks).free 2).1) false (0x20000000 + Reg.sysAerrCnt) 4) = none :=
  ⟨by decide +kernel, rfl⟩

theorem wit_FieldWriteReads : RegInv on ∧ 0 ≤ 31 ∧ 31 < 32 := ⟨rfl, by decide, by decide⟩

theorem wit_CellarWriteReads : MemInv on ∧ ((on.busWrite (.ctl 0) 0x03FFFFFE [1, 2]).1 = .ok) := ⟨rfl, by decide +kernel⟩

/-- A grant of one page at 0x10000. -/
def granted : State := { on with csr := on.csr ++ [(Reg.memGrantBase 0, 0x10000), (Reg.memGrantLimit 0, 0x10000), (Reg.memGrantCtrl 0, 0x80000000)] }
theorem wit_HostCellarGranted :
    (granted.pcie.link = true ∧ granted.d3hot = false ∧ 1 ≤ granted.maxPayload ∧ (begin granted).granted 0x10FFF 1 = true ∧ ((begin granted).busWrite .host 0x10FFF [1]).1 = .ok) ∧
    (begin granted).granted 0x10FFF 2 = false ∧ (begin granted).hostDebug = false ∧
    ((begin { granted with mem := { granted.mem with err := [(0x10FF8, [0, 1])], valid := [0x10FC0 / 64] } }).busWrite .host 0x10FFF [1]).1 = .ue 0x10FF8 := by decide +kernel

theorem wit_FunctionResets : on.pwr.up = true ∧ RegInv on ∧ on.pcie.link = true ∧
    ({ on with pcie := PcieState.reset } : State).pcie.link = false := ⟨rfl, rfl, rfl, rfl⟩

/-- Mailbox 0 set up but not enabled. -/
def mbxReady : State := { on with csr := [(Reg.mbxReqBaseLo 0, 0x10000), (Reg.mbxRspBaseLo 0, 0x20000), (Reg.mbxShadowLo 0, 0x30000), (Reg.mbxSize 0, 0xA0004)] ++ on.csr }
/-- Mailbox 0 set up and enabled, its rings empty. -/
def ringed0 : State := { mbxReady with csr := (Reg.mbxCtrl 0, 0xC0000000) :: mbxReady.csr }
theorem wit_MailboxSessions :
    (Init.hostOrCtl .host = true ∧ (begin mbxReady).mbxOn 0 = false ∧
      ((begin mbxReady).ctrlFields 0 ((0 : Word).toNat ||| 2 ^ 31)).mbxCfgOk 0 = true) ∧
    (((begin on).ctrlFields 63 ((0 : Word).toNat ||| 2 ^ 31)).mbxCfgOk 63 = false ∧ (begin on).mbxOn 63 = false) ∧
    (begin ringed0).mbxOn 0 = true ∧
    tb (1 : Word).toNat 0 = true ∧ tb (0 : Word).toNat 0 = false := by decide +kernel

theorem wit_MailboxDoorbells :
    ((begin ringed0).mbxOn 0 = true ∧ (16 + 65536 - (begin ringed0).rd (Reg.mbxReqCi 0)) % 65536 ≤ (begin ringed0).reqSize 0) ∧
    ((begin ringed0).reqSize 0 < (17 + 65536 - (begin ringed0).rd (Reg.mbxReqCi 0)) % 65536) ∧ (begin on).mbxOn 0 = false := by
  decide +kernel

/-- Mailbox 0 enabled, one request of payload length `len` in its ring. -/
def ringed (len : Byte) : State :=
  { mbxReady with
    csr := [(Reg.mbxCtrl 0, 0xC0000000), (Reg.mbxReqBaseLo 0, 0x10000), (Reg.mbxRspBaseLo 0, 0x20000), (Reg.mbxShadowLo 0, 0x30000), (Reg.mbxSize 0, 0xA0004), (Reg.mbxReqPi 0, 5)] ++ on.csr
    mem := { MemState.reset with host := [(0x10008, len)] } }
theorem wit_RequestConsumed :
    (let b := begin (ringed 224)
     let len := leAt (b.ringBytes (b.rdPair (Reg.mbxReqBaseLo 0) (Reg.mbxReqBaseHi 0)) (b.reqSize 0) (b.rd (Reg.mbxReqCi 0)) 1) 8 2
     b.mbxOn 0 = true ∧ (b.rd (Reg.mbxReqPi 0) + 65536 - b.rd (Reg.mbxReqCi 0)) % 65536 ≠ 0 ∧ (b.mbxAt 0).open + 0 + 1 < b.rspSize 0 ∧ b.pcie.link = true ∧
       len ≤ 224 ∧ slotsFor len ≤ 5) ∧
    (let b := begin (ringed 225)
     224 < leAt (b.ringBytes (b.rdPair (Reg.mbxReqBaseLo 0) (Reg.mbxReqBaseHi 0)) (b.reqSize 0) (b.rd (Reg.mbxReqCi 0)) 1) 8 2) := by
  decide +kernel

/-- Mailbox 0 with one request, answered so, and one notice waiting. -/
def answeredSo (a : Ans) (gone : Bool) : State :=
  { ringed 0 with mbx := [(0, { MbxState.reset with
      reqs := [{ bytes := req 0x0101 [], time := 0, tmo := 1, ans := a, gone := gone }], notices := [slotBytes 0x0105 1 0 0 []] })] }
def answered (gone : Bool) : State := answeredSo (.ready (.st stOk)) gone
theorem wit_ResponsesAndNotices :
    (∃ q, ((begin (answered false)).mbxAt 0).reqs[0]? = some q ∧ q.ans = .ready (.st stOk) ∧ q.gone = false ∧ q.tmo ≠ 0) ∧
    (∃ q, ((begin (answered true)).mbxAt 0).reqs[0]? = some q ∧ q.ans = .ready (.st stOk) ∧ q.gone = true) ∧
    ((begin on).mbxAt 0).reqs[0]? = none ∧ ((begin on).mbxAt 0).notices = [] ∧
    ((begin (answered false)).mbxAt 0).notices = slotBytes 0x0105 1 0 0 [] :: [] ∧
    (((begin (answered false)).mbxAt 0).open + ((begin (answered false)).rd (Reg.mbxRspPi 0) + 65536 - (begin (answered false)).rd (Reg.mbxRspCi 0)) % 65536 + 1 < (begin (answered false)).rspSize 0) :=
  ⟨⟨_, rfl, rfl, rfl, by decide⟩, ⟨_, rfl, rfl, rfl⟩, rfl, rfl, rfl, by decide +kernel⟩
theorem wit_ResponsesAndNotices_then :
    (∀ w : Wait, ∃ q, ((begin (answeredSo (.thenDo (.st stOk) w) false)).mbxAt 0).reqs[0]? = some q ∧ q.ans = .thenDo (.st stOk) w) ∧ (begin (answered false)).nw.pstate = .run ∧
    (∃ q, ((begin (answeredSo (.wait .census) false)).mbxAt 0).reqs[0]? = some q ∧ q.ans = .wait .census ∧ ((begin (answeredSo (.wait .census) false)).waitOver q .census).1.isSome = true) ∧
    (∃ q, ((begin (answeredSo .none false)).mbxAt 0).reqs[0]? = some q ∧ q.ans = .none ∧ (begin (answeredSo .none false)).nextReq 0 = some (0, q.bytes) ∧
      (begin (answeredSo .none false)).strayAnswer 0 q.bytes = none ∧ ((begin (answeredSo .none false)).strayAnswer 0 (req 0x0F01 [])).isSome = true) :=
  ⟨fun _ => ⟨_, rfl, rfl⟩, rfl, ⟨_, rfl, rfl, by decide +kernel⟩, ⟨_, rfl, rfl, by decide +kernel, by decide +kernel, by decide +kernel⟩⟩

/-- The firmware in STATE `st`; `n` restarts lately. -/
def fwIn (st : Nat) (n : Nat) : State :=
  { on with csr := [(0x140000, BitVec.ofNat 32 st)], fw := { FwState.reset with restarted := true, limit := 3, restarts := List.replicate n 0 } }
theorem wit_FirmwareRestarts :
    (begin (fwIn 2 0)).fwSt = 2 ∧ (begin (fwIn 3 0)).fwSt = 3 ∧ ((begin (fwIn 4 2)).fwSt = 4 ∧ (begin (fwIn 4 2)).recentRestarts < (begin (fwIn 4 2)).fw.limit) ∧
    ((begin (fwIn 4 3)).fwSt = 4 ∧ (begin (fwIn 4 3)).fw.limit ≤ (begin (fwIn 4 3)).recentRestarts) ∧ (begin (fwIn 5 0)).fwSt = 5 ∧
    ((begin (fwIn 1 0)).fwSt ≠ 2 ∧ (begin (fwIn 1 0)).fwSt ≠ 3 ∧ (begin (fwIn 1 0)).fwSt ≠ 4) ∧
    (((begin (fwIn 4 0)).romBoot true).1 = false ∧ ((((begin (fwIn 5 0)).setFwSt 1).romRemap).romLoad).1 = false) := by decide +kernel

theorem wit_MessagesRefused :
    (msgOf (.carrierStart 0)).isSome = true ∧ Instr.wf (.carrierStart 0) = true ∧
    ((asked on (req 0x0302 [])).pwr.up = true ∧ (asked on (req 0x0302 [])).fwSt = 3 ∧
      (asked on (req 0x10302 [])).nextReq 0 = some (0, req 0x0302 [])) ∧
    ((asked on (req 0x0302 [])).nextReq 0 = some (0, req 0x0302 []) ∧ mOp (req 0x0303 []) ≠ 0x0302) ∧
    (asked on (0x02 :: 0x03 :: 0xFF :: (req 0x0302 []).drop 3)).refuse 0 (0x02 :: 0x03 :: 0xFF :: (req 0x0302 []).drop 3) = some (.st stBadParam) ∧
    on.nextReq 0 = none := by decide +kernel

/-- Mailbox 0 enabled but not privileged, with a request waiting. -/
def askedPlain (bs : List Byte) : State := { asked on bs with csr := (0x100000, 0x80000000) :: on.csr }
theorem wit_PrivilegedDenied :
    (msgOf (.debugRead 0)).isSome = true ∧ Instr.wf (.debugRead 0) = true ∧ (askedPlain (req 0x0E02 [])).pwr.up = true ∧ (askedPlain (req 0x0E02 [])).fwSt = 3 ∧
    (askedPlain (req 0x0E02 [])).nextReq 0 = some (0, req 0x0E02 []) ∧ mOp (req 0x0E02 []) = 0x0E02 ∧ badHeader (req 0x0E02 []) = false ∧
    (askedPlain (req 0x0E02 [])).rdB (Reg.mbxCtrl 0) 30 = false := by decide +kernel

/-- What every message needs: mailbox 0 privileged, request 0 next. -/
abbrev ready0 (s : State) (op : Nat) (bs : List Byte) : Prop := Asked s 0 0 op bs
/-- A carrier's configuration and its record. -/
def aCarrier (st : CarrierSt) : Carrier :=
  { cfg := leBytes 2 5 ++ [0, 0] ++ leBytes 2 273 ++ leBytes 2 1 ++ [1, 1, 0, 0] ++ leBytes 2 7 ++ leBytes 2 7 ++ leBytes 2 0 ++ [0, 0] ++ leBytes 2 0 ++ leBytes 2 8 ++ leBytes 4 0
    flowBase := 100, flowCount := 4, st := st, plans := 0, late := 0, expired := 0, cancelled := 0, completed := 0 }
/-- The firmware with carrier 5 in a state. -/
def withCarrier (st : CarrierSt) (s : State) : State := { s with fw := { s.fw with carriers := [(5, some (aCarrier st))] } }
/-- A plan with its last task committed. -/
def endedPlan : Plan :=
  { handle := 1, carrier := 5, blend := 7, blendVer := 1, start := 0, slotNs := 1000000, todo := [], tasks := [], total := 1, relGrps := [], relFlag := 0, released := true, done := 1, fault := 0, expired := 0,
    cancelled := 0, started := true, killed := false, doneAddr := 0, doneValue := 0, doneWritten := false, ended := some 1 }
def aBlend : Blend := { id := 7, ver := 1, templates := 1, idem := 0, planLen := 64, len := 64, keyId := 1, svn := 0 }
def withPlan (p : Plan) (s : State) : State := { s with fw := { s.fw with plans := [p], blends := [aBlend] } }
theorem wit_QueriesAnswer :
    ready0 (asked on (req 0x0101 [])) 0x0101 (req 0x0101 []) ∧ ready0 (asked on (req 0x0102 [])) 0x0102 (req 0x0102 []) ∧ ready0 (asked on (req 0x0202 [])) 0x0202 (req 0x0202 []) ∧
    ready0 (asked on (req 0x0903 [])) 0x0903 (req 0x0903 []) ∧ ready0 (asked on (req 0x0B03 [])) 0x0B03 (req 0x0B03 []) ∧
    (ready0 (asked on (req 0x0C02 [(1, 0xFF)])) 0x0C02 (req 0x0C02 [(1, 0xFF)]) ∧ leAt (req 0x0C02 [(1, 0xFF)]) 16 1 = 0xFF) := by decide +kernel
theorem wit_QueriesAnswer_carrier :
    let bs := req 0x0304 [(2, 5)]
    ready0 (asked on bs) 0x0304 bs ∧ leAt bs 16 2 = 5 ∧ (begin (asked on bs)).carrier? 5 = none ∧
    ready0 (asked (withCarrier .stopped on) bs) 0x0304 bs ∧ (begin (asked (withCarrier .stopped on) bs)).carrier? 5 = some (aCarrier .stopped) := by decide +kernel
theorem wit_QueriesAnswer_plan :
    let bs := req 0x0403 [(4, 1)]
    ready0 (asked on bs) 0x0403 bs ∧ (begin (asked on bs)).knownPlan (leAt bs 16 4) = none ∧
    ready0 (asked (withPlan endedPlan on) bs) 0x0403 bs ∧ (begin (asked (withPlan endedPlan on) bs)).knownPlan (leAt bs 16 4) = some endedPlan := by decide +kernel
theorem wit_QueriesAnswer_blend :
    let bs := req 0x0503 [(2, 7)]
    ready0 (asked on bs) 0x0503 bs ∧ (begin (asked on bs)).blend? (leAt bs 16 2) = none ∧
    ready0 (asked (withPlan endedPlan on) bs) 0x0503 bs ∧ (begin (asked (withPlan endedPlan on) bs)).blend? (leAt bs 16 2) = some aBlend := by decide +kernel
theorem wit_QueriesAnswer_flow :
    let bs := req 0x0603 [(4, 65535)]
    ready0 (asked on bs) 0x0603 bs ∧ leAt bs 16 4 < 65536 ∧ (begin (asked on bs)).flowTasks (leAt bs 16 4) = [] := by decide +kernel
theorem wit_QueriesAnswer_lane :
    let bs := req 0x0802 [(1, 14), (1, 16)]
    let no := req 0x0802 [(1, 16), (1, 0)]
    ready0 (asked on bs) 0x0802 bs ∧ (begin (asked on bs)).laneNamed (leAt bs 16 1) (leAt bs 17 1) = true ∧
    ready0 (asked on no) 0x0802 no ∧ (begin (asked on no)).laneNamed (leAt no 16 1) (leAt no 17 1) = false := by decide +kernel
theorem wit_QueriesAnswer_more :
    (let bs := req 0x0304 [(2, 384)]; ready0 (asked on bs) 0x0304 bs ∧ 383 < leAt bs 16 2) ∧
    (let bs := req 0x0603 [(4, 65536)]; ready0 (asked on bs) 0x0603 bs ∧ 65535 < leAt bs 16 4) ∧
    (let bs := req 0x0C02 [(1, 13)]; ready0 (asked on bs) 0x0C02 bs ∧ leAt bs 16 1 < 14) ∧
    (let bs := req 0x0C02 [(1, 14)]; ready0 (asked on bs) 0x0C02 bs ∧ 13 < leAt bs 16 1 ∧ leAt bs 16 1 ≠ 0xFF) ∧
    (let bs := req 0x0304 [(2, 5)]; (begin (asked (withCarrier .draining on) bs)).carrier? 5 = some (aCarrier .draining)) := by decide +kernel
/-- ROM hold, mailbox 0 asked. -/
def romAsked (bs : List Byte) : State := { asked on bs with csr := [(0x100000, 0xC0000000), (0x140000, 1)], sec := { on.sec with hold := true } }
theorem wit_QueriesAnswer_rom :
    let bs := req 0x0101 []
    let s := romAsked bs
    s.pwr.up = true ∧ (begin s).romServes 0 = true ∧ s.nextReq 0 = some (0, bs) ∧ mOp bs = 0x0101 ∧ s.refuse 0 bs = none ∧ s.fwSt ≠ 3 := by decide +kernel

theorem wit_SystemMessages :
    ready0 (asked on (req 0x0103 [])) 0x0103 (req 0x0103 []) ∧ ready0 (asked on (req 0x0104 [(1, 0), (1, 0xFF)])) 0x0104 (req 0x0104 [(1, 0), (1, 0xFF)]) ∧
    ready0 (asked on (req 0x0104 [(1, 0), (1, 2)])) 0x0104 (req 0x0104 [(1, 0), (1, 2)]) ∧
    ready0 (asked on (req 0x0104 [(1, 0), (1, 0)])) 0x0104 (req 0x0104 [(1, 0), (1, 0)]) := by decide +kernel
theorem wit_SystemMessages_volt :
    let bs := req 0x0104 [(1, 1), (1, 0), (1, 11), (1, 0), (2, 620), (2, 1600)]
    ready0 (asked on bs) 0x0104 bs ∧ leAt bs 16 1 = 1 ∧ leAt bs 18 1 = 11 ∧ leAt bs 20 2 = 620 ∧ leAt bs 22 2 = 1600 := by decide +kernel
theorem wit_SystemMessages_error :
    let s := on.wr (Reg.mbxStat 3) 2
    s.fwSt = 3 ∧ (begin s).errorRecord 6 3 = some (3, 2, 0) ∧ mget (fun _ => 0) s.fw.errTime 6 = 0 := by decide +kernel
/-- ROM hold with an owner's key in slot 0 and an image at 0x1000 of host memory. -/
def held (bs img : List Byte) : State :=
  ({ on with
    csr := [(0x100000, 0xC0000000), (0x140000, 1)]
    mbx := [(0, { MbxState.reset with reqs := [{ bytes := bs, time := 0, tmo := 0, ans := .none, gone := false }] })]
    sec := { on.sec with hold := true, keys := [(0, ownerSlot)] } } : State).putHost 0x1000 img
theorem held_image {bs img : List Byte} (n : Nat) (h : img.length = n) (hn : n < 2 ^ 38) : (begin (held bs img)).hostImage 0x1000 n = some img := by
  have hw : ∀ a k, 0x1000 ≤ a → a + k ≤ 2 ^ 39 → (begin (held bs img)).inWindow a k = true := by
    intro a k h1 h2
    have : (begin (held bs img)).rdPair Reg.pcieHwbaseLo Reg.pcieHwbaseHi = 0 := by
      have e : (begin (held bs img)).csr = [(0x100000, 0xC0000000), (0x140000, 1)] := rfl
      unfold State.rdPair State.rd
      rw [e]
      decide +kernel
    unfold State.inWindow
    rw [this]
    exact decide_eq_true ⟨by omega, by omega⟩
  subst h
  have hl : (begin (held bs img)).pcie.link = true := rfl
  unfold State.hostImage
  rw [hl, hw _ _ (Nat.le_refl _) (by omega)]
  exact congrArg some (hostBytes_putHost (by rfl) 0x1000 img)
theorem wit_SystemMessages_run :
    let bs := req 0x0180 [(8, 0), (8, 0x1000), (4, 4608)]
    let s := held bs firmwareImage
    (s.pwr.up = true ∧ (begin s).romServes 0 = true ∧ (begin s).nextReq 0 = some (0, bs) ∧ mOp bs = 0x0180 ∧ (begin s).refuse 0 bs = none) ∧
    (begin s).hostImage (leAt bs 24 8) (leAt bs 32 4) = some firmwareImage ∧ (begin s).checkImage 1 firmwareImage = 0 :=
  ⟨by decide +kernel, held_image _ (by decide +kernel) (by decide +kernel), by decide +kernel⟩
theorem wit_SystemMessages_write :
    let bs := req 0x0181 [(8, 0), (8, 0x1000), (4, 576), (4, 0x10000)]
    let s := held bs enrolImage
    ((begin s).romServes 0 = true ∧ (begin s).nextReq 0 = some (0, bs) ∧ mOp bs = 0x0181 ∧ (begin s).refuse 0 bs = none ∧ leAt bs 36 4 % 4096 = 0) ∧
    (begin s).hostImage (leAt bs 24 8) (leAt bs 32 4) = some enrolImage ∧ (begin s).checkImage 4 enrolImage = 0 ∧ (begin s).checkImage 1 enrolImage = 2 :=
  ⟨by decide +kernel, held_image _ (by decide +kernel) (by decide +kernel), by decide +kernel, by decide +kernel⟩

/-- A PWR.SET request. -/
def pwrReq (scope st unit : Nat) : List Byte := req 0x0201 [(1, scope), (1, st), (2, unit)]
theorem wit_PowerMessages :
    (let bs := pwrReq 0 0 0; ready0 (asked on bs) 0x0201 bs ∧ pwrPair bs = (0, 0) ∧ leAt bs 18 2 = 0 ∧ leAt bs 24 8 = 0) ∧
    (let bs := pwrReq 0 3 0; let b := begin (asked on bs)
     ready0 (asked on bs) 0x0201 bs ∧ b.wakeAtOf bs (b.consumed 0) ≠ none ∧ b.entryRefused = false ∧ b.nw.pstate = .run ∧ b.entryDue = false) ∧
    (let bs := pwrReq 0 4 0; ready0 (asked on bs) 0x0201 bs ∧ pwrPair bs = (0, 4)) := by decide +kernel
theorem wit_PowerMessages_units :
    (let bs := pwrReq 1 0 11; ready0 (asked on bs) 0x0201 bs ∧ pwrPair bs = (1, 0) ∧ (begin (asked on bs)).clusterIn 11 = true) ∧
    (let bs := pwrReq 1 2 0
     let s := asked { on with rsv := { on.rsv with forced := none } } bs
     ready0 s 0x0201 bs ∧ pwrPair bs = (1, 2)) ∧
    (let bs := pwrReq 2 0 79; ready0 (asked on bs) 0x0201 bs ∧ (begin (asked on bs)).engIn 79 = true) ∧
    (let bs := pwrReq 2 2 0; ready0 (asked on bs) 0x0201 bs ∧ pwrPair bs = (2, 2)) := by decide +kernel

/-- CARRIER.CONFIG of carrier 5 as `aCarrier` has it. -/
def cfgReq : List Byte := (req 0x0301 []) ++ leBytes 2 5 ++ (aCarrier .stopped).cfg.drop 2
theorem wit_CarrierMessages_config :
    let c : Carrier := { aCarrier .stopped with flowBase := 100, flowCount := 4 }
    let b := begin (asked on cfgReq)
    ready0 (asked on cfgReq) 0x0301 cfgReq ∧ leAt cfgReq 16 2 = 5 ∧ b.carrier? 5 = none ∧ (b.flow 103).opened = false ∧ cfgInRange 5 c = true := by decide +kernel
/-- Carrier 5 with its antenna's streams bound on port 0. -/
def boundTo (st : CarrierSt) : State :=
  let k : StreamCfg := { port := 0, dir := 0, ident := 0, use := 0, carrier := 5, ant := 0, mac := 0, offset := 0 }
  withCarrier st { on with front := { on.front with streams := [(0, some k), (1, some { k with dir := 1 })] } }
theorem wit_CarrierMessages_start :
    let bs := req 0x0302 [(2, 5)]
    let s := asked (boundTo .stopped) bs
    let b := begin s
    ready0 s 0x0302 bs ∧ leAt bs 16 2 = 5 ∧ b.carrier? 5 = some (aCarrier .stopped) ∧ b.antennasBound 5 (aCarrier .stopped) = true ∧ b.armed 5 = false ∧ b.mrdState ≠ 2 := by decide +kernel
theorem wit_CarrierMessages_locked :
    let bs := req 0x0302 [(2, 5)]
    let s := asked ((boundTo .stopped).wr Reg.mrdState 2) bs
    let b := begin s
    ready0 s 0x0302 bs ∧ b.carrier? 5 = some (aCarrier .stopped) ∧ b.antennasBound 5 (aCarrier .stopped) = true ∧ b.armed 5 = false ∧ b.mrdState = 2 := by decide +kernel
theorem wit_CarrierMessages_stop :
    let bs := req 0x0303 [(2, 5), (1, 0)]
    let cs := req 0x0303 [(2, 5), (1, 1)]
    ready0 (asked (withCarrier .started on) bs) 0x0303 bs ∧ ready0 (asked (withCarrier .started on) cs) 0x0303 cs ∧
    (begin (asked (withCarrier .started on) bs)).carrier? 5 = some (aCarrier .started) ∧ tb (leAt bs 18 1) 0 = false ∧ tb (leAt cs 18 1) 0 = true := by decide +kernel
theorem wit_CarrierMessages_refused :
    (let bs := req 0x0302 [(2, 384)]; ready0 (asked on bs) 0x0302 bs ∧ 383 < leAt bs 16 2) ∧
    (let bs := req 0x0303 [(2, 383), (1, 2)]; ready0 (asked on bs) 0x0303 bs ∧ (begin (asked on bs)).carrier? (leAt bs 16 2) = none) ∧
    (let bs := req 0x0302 [(2, 5)]; let s := asked (withCarrier .started on) bs
     ready0 s 0x0302 bs ∧ (begin s).carrier? 5 = some (aCarrier .started)) ∧
    (let bs := req 0x0303 [(2, 5), (1, 2)]; let s := asked (withCarrier .stopped on) bs
     ready0 s 0x0303 bs ∧ (begin s).carrier? 5 = some (aCarrier .stopped) ∧ tb (leAt bs 18 1) 1 = true) ∧
    (let bs := req 0x0301 [(2, 384)]; ready0 (asked on bs) 0x0301 bs ∧ cfgInRange 384 (aCarrier .stopped) = false) ∧
    (let s := asked (withCarrier .started on) cfgReq; ready0 s 0x0301 cfgReq ∧ (((begin s).carrier? 5).map started).getD false = true) :=
  ⟨by decide +kernel, by decide +kernel, by decide +kernel, by decide +kernel, by decide +kernel, by decide +kernel⟩

/-- A SLOT.PLAN for carrier 5: SFN 0, slot 0, downlink, a PLANDESC of 64 bytes at bus address 0x2000. -/
def planReq : List Byte := req 0x0401 [(2, 5), (2, 0), (1, 0), (1, 0), (2, 0), (8, 0x2000), (4, 64), (4, 0), (8, 0), (4, 0)]
/-- Carrier 5 started and armed, its blend loaded, Meridian LOCKED 20 ms before the frame 1,024 after the epoch. -/
def planning (ns : Nat) : State :=
  let s := asked (withPlan endedPlan (withCarrier .started on)) planReq
  let s := s.wr Reg.mrdState 2
  { s with mbx := [(0, { MbxState.reset with reqs := [{ bytes := planReq, time := ns * 2 ^ 32, tmo := 0, ans := .none, gone := false }] })] }
theorem wit_SlotMessages_plan :
    let t := gpsEpoch * 1000000000 + 1022 * 10000000
    let s := planning t
    let b := begin s
    let c := aCarrier .started
    ready0 s 0x0401 planReq ∧ leAt planReq 16 2 = 5 ∧ b.carrier? 5 = some c ∧ b.planInRange planReq c (some aBlend) = true ∧ b.fw.blends.find? (fun x => x.id == cBlend c 0) = some aBlend ∧
    b.consumed 0 = t ∧ frameOf (cAirOfs c) 0 t = framesBefore + 1024 ∧ t + cLead c * 1000 ≤ slotStart c (framesBefore + 1024) 0 ∧ b.mrdState = 2 ∧ (b.tl 5).fromFrame ≤ framesBefore + 1024 ∧ b.releaseOk 31 [] = true := by decide +kernel
theorem wit_SlotMessages_late :
    let t := gpsEpoch * 1000000000 + 1024 * 10000000 - 1000
    ready0 (planning t) 0x0401 planReq ∧ slotStart (aCarrier .started) (frameOf (cAirOfs (aCarrier .started)) 0 t) 0 < t + cLead (aCarrier .started) * 1000 := by decide +kernel
theorem wit_SlotMessages_cancel :
    let bs := req 0x0402 [(4, 1)]
    let live := { endedPlan with ended := none, done := 0 }
    ready0 (asked on bs) 0x0402 bs ∧ (begin (asked on bs)).knownPlan (leAt bs 16 4) = none ∧
    ready0 (asked (withPlan endedPlan on) bs) 0x0402 bs ∧ (begin (asked (withPlan endedPlan on) bs)).knownPlan (leAt bs 16 4) = some endedPlan ∧
    (begin (asked (withPlan live on) bs)).knownPlan (leAt bs 16 4) = some live := by decide +kernel
theorem wit_SlotMessages_held :
    let p := { endedPlan with ended := none, released := false }
    (begin (withPlan p on)).plan? 1 = some p := by decide +kernel
theorem wit_SlotMessages_refused :
    (let bs := req 0x0401 [(2, 384)]; ready0 (asked on bs) 0x0401 bs ∧ 383 < leAt bs 16 2) ∧
    (let bs := req 0x0401 [(2, 383)]; ready0 (asked on bs) 0x0401 bs ∧ (begin (asked on bs)).carrier? (leAt bs 16 2) = none) ∧
    (let bs := req 0x0401 [(2, 5), (2, 0), (1, 255)]; let s := asked (withCarrier .started on) bs
     ready0 s 0x0401 bs ∧ (begin s).carrier? 5 = some (aCarrier .started) ∧ (begin s).planInRange bs (aCarrier .started) none = false) ∧
    (let s := { on with fw := { on.fw with plans := [{ endedPlan with ended := none, released := true }] } }
     (begin s).plan? 1 = some { endedPlan with ended := none, released := true } ∧ (begin s).plan? 2 = none) := by decide +kernel

/-- An owner's device with an image at 0x1000 of host memory and a message waiting. -/
def owned (bs img : List Byte) (fr : FrontState := on.front) : State := ({ asked on bs with front := fr, sec := { on.sec with keys := [(0, ownerSlot)] } } : State).putHost 0x1000 img
theorem owned_image {bs img : List Byte} {fr : FrontState} (n : Nat) (h : img.length = n) (hn : n < 2 ^ 38) : (begin (owned bs img fr)).hostImage 0x1000 n = some img := by
  have hw : ∀ a k, 0x1000 ≤ a → a + k ≤ 2 ^ 39 → (begin (owned bs img fr)).inWindow a k = true := by
    intro a k h1 h2
    have : (begin (owned bs img fr)).rdPair Reg.pcieHwbaseLo Reg.pcieHwbaseHi = 0 := by
      have e : (begin (owned bs img fr)).csr = [(0x100000, 0xC0000000), (0x140000, 3)] := rfl
      unfold State.rdPair State.rd
      rw [e]
      decide +kernel
    unfold State.inWindow
    rw [this]
    exact decide_eq_true ⟨by omega, by omega⟩
  subst h
  have hl : (begin (owned bs img fr)).pcie.link = true := rfl
  unfold State.hostImage
  rw [hl, hw _ _ (Nat.le_refl _) (by omega)]
  exact congrArg some (hostBytes_putHost (by rfl) 0x1000 img)
def loadReq : List Byte := req 0x0501 [(2, 7), (2, 0), (4, 0), (8, 0x1000), (4, 528)]
theorem wit_BlendFlowMessages_load :
    let s := owned loadReq blendImage
    (ready0 s 0x0501 loadReq ∧ leAt loadReq 16 2 = 7) ∧ (begin s).hostImage (leAt loadReq 24 8) (leAt loadReq 32 4) = some blendImage ∧
    ((begin s).checkImage 2 blendImage = 0 ∧ (begin s).blend? 7 = none) ∧
    (begin s).fw.loading = [] ∧
    (krvPayload blendImage).length + ((((begin s).fw.blends.filter fun x => x.id != 7) ++ (begin s).fw.loading).map (·.len)).sum ≤ 16777216 + Config.blendStore :=
  ⟨by decide +kernel, owned_image _ (by decide +kernel) (by decide +kernel), by decide +kernel, rfl, Nat.le_trans (by decide +kernel : _ ≤ 16777216) (Nat.le_add_right _ _)⟩
theorem wit_BlendFlowMessages_bad :
    ready0 (owned loadReq [1]) 0x0501 loadReq ∧ (begin (owned loadReq [1])).checkImage 2 [1] = 0 + 1 := by decide +kernel
theorem wit_BlendFlowMessages_unload :
    let bs := req 0x0502 [(2, 7)]
    let s := asked (withPlan endedPlan on) bs
    ready0 s 0x0502 bs ∧ (begin s).blend? (leAt bs 16 2) = some aBlend ∧ (begin s).fw.carriers = [] ∧ (begin s).blendUse 7 = 0 := by decide +kernel
/-- Flow 100 open with HOME 3. -/
def withFlow (s : State) : State := { s with cm := { s.cm with flows := [(100, { Flow.reset with opened := true, home := 3 })] } }
theorem wit_BlendFlowMessages_pin :
    let bs := fun c => req 0x0601 [(4, 100), (1, c)]
    (ready0 (asked (withFlow on) (bs 0xFF)) 0x0601 (bs 0xFF) ∧ leAt (bs 0xFF) 20 1 = 0xFF) ∧
    (ready0 (asked (withFlow on) (bs 3)) 0x0601 (bs 3) ∧ leAt (bs 3) 20 1 = 3 ∧ (begin (asked (withFlow on) (bs 3))).clusterIn 3 = true) ∧
    (ready0 (asked (withFlow on) (bs 11)) 0x0601 (bs 11) ∧ (begin (asked (withFlow on) (bs 11))).clusterIn 11 = true ∧ (begin (asked (withFlow on) (bs 11))).flow 100 = { Flow.reset with opened := true, home := 3 }) := by decide +kernel
theorem wit_BlendFlowMessages_notify :
    let bs := req 0x0602 [(2, 2047), (2, 4), (2, 16383), (2, 0), (4, 1)]
    let cs := req 0x0602 [(2, 130), (2, 1), (2, 0)]
    let x : Bind := { vector := 130, any := false, rep := false, grp := 0, mask := 1 }
    let t := asked { on with fw := { on.fw with binds := [x] } } cs
    (ready0 (asked on bs) 0x0602 bs ∧ tb (leAt bs 18 2) 0 = false ∧ leAt bs 24 4 ≠ 0 ∧ (begin (asked on bs)).fw.binds = []) ∧
    (ready0 t 0x0602 cs ∧ tb (leAt cs 18 2) 0 = true ∧ (begin t).fw.binds = [x]) := by decide +kernel
theorem wit_BlendFlowMessages_refused :
    (let bs := req 0x0501 [(2, 4096)]; ready0 (asked on bs) 0x0501 bs ∧ 4095 < leAt bs 16 2) ∧
    (let bs := req 0x0502 [(2, 4095)]; ready0 (asked on bs) 0x0502 bs ∧ (begin (asked on bs)).blend? (leAt bs 16 2) = none) ∧
    (let bs := req 0x0601 [(4, 65536)]; ready0 (asked on bs) 0x0601 bs ∧ 65535 < leAt bs 16 4) ∧
    (let bs := req 0x0601 [(4, 65535), (1, 12)]; ready0 (asked on bs) 0x0601 bs ∧ 12 ≤ leAt bs 20 1 ∧ leAt bs 20 1 ≠ 0xFF) ∧
    (let bs := req 0x0601 [(4, 65535), (1, 11)]; ready0 (asked on bs) 0x0601 bs ∧ ((begin (asked on bs)).flow (leAt bs 16 4)).opened = false) ∧
    (let bs := req 0x0602 [(2, 129), (2, 0), (2, 0), (2, 0), (4, 1)]; ready0 (asked on bs) 0x0602 bs ∧ leAt bs 16 2 < 130) ∧
    (let bs := req 0x0602 [(2, 2048), (2, 1)]; ready0 (asked on bs) 0x0602 bs ∧ tb (leAt bs 18 2) 0 = true ∧ 2047 < leAt bs 16 2) :=
  ⟨by decide +kernel, by decide +kernel, by decide +kernel, by decide +kernel, by decide +kernel, by decide +kernel, by decide +kernel⟩

theorem wit_MemoryMessages_alloc :
    let bs := req 0x0701 [(1, 1), (1, 30), (2, 0), (4, 0), (8, 1)]
    let cs := req 0x0701 [(1, 0), (1, 6), (2, 1), (4, 0), (8, 0x03800000)]
    (ready0 (asked on cs) 0x0701 cs ∧ leAt cs 24 8 ≠ 0 ∧ (begin (asked on cs)).rangeFree 0 0 (leAt cs 24 8) (fun _ => true) = true) ∧ leAt bs 17 1 = 30 := by decide +kernel
def grantReq (fl : Nat) : List Byte := req 0x0703 [(2, 0), (1, fl), (1, 63), (4, 0), (8, 0x10000), (4, 0x1000), (1, 4), (1, 15), (2, 0), (8, 0x400), (8, 0x8)]
theorem wit_MemoryMessages_grant :
    (ready0 (asked on (grantReq 0)) 0x0703 (grantReq 0) ∧ (begin (asked on (grantReq 0))).grantInRange (grantReq 0) = true ∧ (begin (asked on (grantReq 0))).grant? 0 = none) ∧
    (ready0 (asked on (grantReq 2)) 0x0703 (grantReq 2) ∧ (begin (asked on (grantReq 2))).grantInRange (grantReq 2) = true ∧
      (begin (asked on (grantReq 2))).rdB (Reg.cmHringCfg 63) 31 = false ∧ (begin (asked on (grantReq 2))).fw.grants = []) := by decide +kernel
theorem wit_MemoryMessages_revoke :
    let bs := req 0x0703 [(2, 7), (1, 1)]
    let s := fun r => asked { on with fw := { on.fw with grants := [(7, some { ring := r, revoking := false })] } } bs
    ready0 (s none) 0x0703 bs ∧ (begin (s none)).grant? (leAt bs 16 2) = some { ring := none, revoking := false } ∧
    ready0 (s (some 63)) 0x0703 bs ∧ (begin (s (some 63))).grant? (leAt bs 16 2) = some { ring := some 63, revoking := false } := by decide +kernel
theorem wit_MemoryMessages_refused :
    (let bs := req 0x0701 [(1, 3), (1, 6)]; ready0 (asked on bs) 0x0701 bs ∧ 2 < leAt bs 16 1) ∧
    (let bs := req 0x0701 [(1, 0), (1, 6), (2, 0), (4, 0), (8, 0x04000001)]; ready0 (asked on bs) 0x0701 bs ∧ (begin (asked on bs)).rangeFree 0 0 (leAt bs 24 8) (fun _ => true) = false) ∧
    (let bs := req 0x0703 [(2, 0), (1, 0)]; ready0 (asked on bs) 0x0703 bs ∧ (begin (asked on bs)).grantInRange bs = false) ∧
    (let bs := req 0x0703 [(2, 8), (1, 1)]; ready0 (asked on bs) 0x0703 bs ∧ tb (leAt bs 18 1) 0 = true ∧ (begin (asked on bs)).grant? (leAt bs 16 2) = none) ∧
    (let s := asked { on with fw := { on.fw with grants := (List.range 8).map fun g => (g, some { ring := some 63, revoking := g == 7 }) } } (grantReq 2)
     ready0 s 0x0703 (grantReq 2) ∧ (∀ g, g < 8 → (begin s).grant? g ≠ none) ∧ ∃ e ∈ (begin s).fw.grants, e.2.bind (·.ring) = some (leAt (grantReq 2) 19 1)) := by decide +kernel

theorem wit_MemFreeAnswers :
    let bs := req 0x0702 [(4, 9), (2, 1)]
    let a : Alloc := { handle := 9, addr := 0x10000, len := 0x1000 }
    let s := asked { on with fw := { on.fw with allocs := [a] } } bs
    (ready0 (asked on bs) 0x0702 bs ∧ (begin (asked on bs)).fw.allocs = []) ∧
    (ready0 s 0x0702 bs ∧ (begin s).fw.allocs.find? (fun x => x.handle == leAt bs 16 4) = some a ∧ (begin s).rangeInUse a.addr a.len = false) ∧
    (begin { granted with fw := { on.fw with allocs := [a] } }).rangeInUse a.addr a.len = true := by decide +kernel

theorem wit_LaneEqAnswers :
    let bs := fun op main g => req 0x0803 [(1, g), (1, 16), (1, op), (1, 0), (1, 15), (1, main), (1, 0)]
    (ready0 (asked on (bs 0 48 14)) 0x0803 (bs 0 48 14) ∧ (begin (asked on (bs 0 48 14))).laneNamed 14 16 = true ∧ 15 + 48 + 0 ≤ 63) ∧
    (ready0 (asked on (bs 0 49 14)) 0x0803 (bs 0 49 14) ∧ ¬(15 + 49 + 0 ≤ 63)) ∧
    (ready0 (asked on (bs 1 0 14)) 0x0803 (bs 1 0 14) ∧ leAt (bs 1 0 14) 18 1 = 1) ∧ (ready0 (asked on (bs 2 0 14)) 0x0803 (bs 2 0 14) ∧ leAt (bs 2 0 14) 18 1 = 2) := by decide +kernel
theorem wit_LaneEqAnswers_unnamed :
    let bs := fun op => req 0x0803 [(1, 15), (1, 16), (1, op)]
    ready0 (asked on (bs 0)) 0x0803 (bs 0) ∧ ready0 (asked on (bs 1)) 0x0803 (bs 1) ∧ ready0 (asked on (bs 2)) 0x0803 (bs 2) ∧ (begin (asked on (bs 0))).laneNamed 15 16 = false := by decide +kernel

/-- A link of lanes 0 to 3 of group 0 in ETH100 on port 0. -/
def linkReq (fl : Nat) : List Byte := req 0x0801 [(1, 0), (1, fl), (1, 0), (1, 0), (1, 4), (1, 4), (1, 0)]
def linked (bs : List Byte) : State := asked { on with front := { on.front with links := [linkOf bs] } } bs
theorem wit_LaneConfigMessages_link :
    let b := begin (asked on (linkReq 0))
    ready0 (asked on (linkReq 0)) 0x0801 (linkReq 0) ∧ b.front.links = [] ∧ linkInRange (linkOf (linkReq 0)) = true ∧ linksFit [] (linkOf (linkReq 0)) = true := by decide +kernel
theorem wit_LaneConfigMessages_drop :
    let bs := linkReq 1
    ready0 (asked on bs) 0x0801 bs ∧ tb (leAt bs 17 1) 0 = true ∧ ready0 (linked bs) 0x0801 bs ∧
    (begin (linked bs)).front.links.find? (fun x => x.group == leAt bs 18 1 && x.first == leAt bs 19 1) = some (linkOf bs) ∧ (begin (linked bs)).linkUsed (linkOf bs) = false ∧
    (begin (withCarrier .started on)).linkUsed (linkOf bs) = true := by decide +kernel
theorem wit_LaneConfigMessages_port :
    let bs := fun fl => req 0x0801 [(1, 1), (1, fl), (1, 63), (1, 3), (2, 0), (1, 16)]
    let p : PortCfg := { transport := 0, vlan := 0, staticW := 0, localMac := 0, peerMac := 0, udp := 0, localIp := 0, peerIp := 0 }
    let t := asked { on with front := { on.front with ports := [(63, some p)] } } (bs 1)
    (ready0 (asked on (bs 0)) 0x0801 (bs 0) ∧ leAt (bs 0) 18 1 = 63 ∧ (begin (asked on (bs 0))).portUsed 63 = false) ∧
    (ready0 t 0x0801 (bs 1) ∧ (mget (fun _ => none) (begin t).front.ports 63).isSome = true ∧ (begin t).portUsed 63 = false) := by decide +kernel
theorem wit_LaneConfigMessages_stream :
    let bs := fun fl => req 0x0801 [(1, 2), (1, fl), (2, 4095), (1, 63), (1, 1), (2, 0), (1, 0), (1, 0), (2, 383), (2, 63), (1, 15)]
    ready0 (asked on (bs 0)) 0x0801 (bs 0) ∧ (begin (asked on (bs 0))).stream? 4095 = none ∧
    streamInRange 4095 { port := 63, dir := 1, ident := 0, use := 0, carrier := 383, ant := 63, mac := 15, offset := 0 } = true ∧ ready0 (asked on (bs 1)) 0x0801 (bs 1) := by decide +kernel
theorem wit_LaneConfigMessages_refused :
    let bs := req 0x0801 [(1, 0), (1, 0), (1, 15), (1, 0), (1, 4), (1, 4), (1, 0)]
    let fifth := req 0x0801 [(1, 0), (1, 0), (1, 0), (1, 4), (1, 1), (1, 2), (1, 0xFF)]
    (ready0 (asked on bs) 0x0801 bs ∧ linkInRange (linkOf bs) = false) ∧
    (ready0 (linked (linkReq 0)) 0x0801 (linkReq 0) ∧
      (begin (linked (linkReq 0))).front.links.find? (fun x => x.group == leAt (linkReq 0) 18 1 && x.first == leAt (linkReq 0) 19 1) = some (linkOf (linkReq 0)) ∧ (begin (linked (linkReq 0))).linkUsed (linkOf (linkReq 0)) = false) ∧
    linksFit [{ linkOf (linkReq 0) with first := 8, mode := 1 }, { linkOf (linkReq 0) with first := 12, mode := 6 }] (linkOf fifth) = false := by decide +kernel
theorem wit_LaneConfigMessages_refused2 :
    let bs := fun fl => req 0x0801 [(1, 1), (1, fl), (1, 64), (1, 4)]
    let cs := req 0x0801 [(1, 2), (1, 0), (2, 4096)]
    ready0 (asked on (bs 0)) 0x0801 (bs 0) ∧ ready0 (asked on (bs 1)) 0x0801 (bs 1) ∧ ready0 (asked on cs) 0x0801 cs ∧
    streamInRange 4096 { port := 0, dir := 0, ident := 0, use := 0, carrier := 0, ant := 0, mac := 0, offset := 0 } = false := by decide +kernel

theorem wit_TimeMessages :
    (let bs := fun n => req 0x0901 [(1, 0), (1, 0), (6, 0), (6, 1), (2, 0), (4, n)]
     ready0 (asked on (bs 999999999)) 0x0901 (bs 999999999) ∧ leAt (bs 999999999) 32 4 = 999999999 ∧ ready0 (asked on (bs 1000000000)) 0x0901 (bs 1000000000)) := by decide +kernel
theorem wit_TimeMessages_servo :
    let bs := fun src => req 0x0901 [(1, 2), (1, 0), (2, 0), (1, src), (1, 1), (2, 0), (8, 0), (8, 0), (8, 1024 * 2 ^ 48)]
    ready0 (asked on (bs 15)) 0x0901 (bs 15) ∧ servoInRange (bs 15) = true ∧ ready0 (asked on (bs 3)) 0x0901 (bs 3) ∧ servoInRange (bs 3) = false := by decide +kernel
theorem wit_TimeMessages_output :
    let bs := fun ix => req 0x0901 [(1, 3), (1, ix), (2, 0), (1, 1), (3, 0), (8, 0), (4, 0), (4, 100), (4, 0), (4, 92)]
    ready0 (asked on (bs 3)) 0x0901 (bs 3) ∧ outputInRange (bs 3) = true ∧ ready0 (asked on (bs 4)) 0x0901 (bs 4) ∧ outputInRange (bs 4) = false := by decide +kernel
theorem wit_TimeMessages_capture :
    let bs := fun ix => req 0x0901 [(1, 4), (1, ix), (2, 0), (1, 3), (1, 0), (2, 16383), (1, 0xFF), (3, 0), (4, 0)]
    ready0 (asked on (bs 7)) 0x0901 (bs 7) ∧ captureInRange (bs 7) = true ∧ ready0 (asked on (bs 8)) 0x0901 (bs 8) ∧ captureInRange (bs 8) = false ∧
    (let st := req 0x0901 [(1, 1)]; ready0 (asked on st) 0x0901 st ∧ leAt st 16 1 = 1) := by decide +kernel

theorem wit_TimeOffsetAnswers :
    let bs := req 0x0902 [(8, 0xFFFFFFFFFFFF0000), (1, 1)]
    let s := asked { on.wr Reg.mrdServo 0x80000001 with mrd := { on.mrd with hostSrc := true } } bs
    ready0 s 0x0902 bs ∧ (begin s).rdF Reg.mrdServo 3 0 = 1 ∧ (begin s).mrd.hostSrc = true ∧ ready0 (asked on bs) 0x0902 bs ∧ (begin (asked on bs)).rdF Reg.mrdServo 3 0 ≠ 1 := by decide +kernel

/-- A plan block: RAW profiles of 50 kBd; channel 0 receives, transmits and blanks with profile 0, the others are idle. -/
def nfePlan : List Byte :=
  [0, 5, 0, 0, 255, 0, 0, 0, 1, 0, 0xFF, 0xFF, 6, 14, 0, 0] ++ leBytes 8 0x10000 ++ leBytes 8 0x20000 ++ List.replicate 32 0 ++
    (List.replicate 16 ([0x10, 16, 0xE8, 3, 0x50, 0xC3, 0, 0, 0, 0, 0, 0, 16, 0, 255, 0, 0, 0, 8, 0, 0, 15] ++ List.replicate 10 0)).flatten ++
    ([7, 1, 1, 0, 0, 0, 0, 0] ++ (List.replicate 127 [0, 1, 0, 0, 0, 0, 0, 0]).flatten)
/-- NFE 3 runs that plan. -/
def nfeOn (s : State) : State := { s.wr (Reg.nfeCtrl 3) 0x80000603 with nfes := [(3, { NfeState.reset with st := .running, plan := nfePlan })] }
def fskReq (fl : Nat) : List Byte := req 0x0A01 [(1, 3), (1, fl), (2, 0), (4, 0), (8, 0x1000), (4, 1600)]
theorem wit_FskMessages_plan :
    let s := owned (fskReq 0) nfePlan { on.front with streams := [(1, some { port := 0, dir := 0, ident := 0, use := 1, carrier := 0, ant := 8, mac := 0, offset := 0 })] }
    ready0 s 0x0A01 (fskReq 0) ∧ (begin s).hostImage (leAt (fskReq 0) 24 8) 1600 = some nfePlan ∧
    (planRange nfePlan = none ∧ planFits nfePlan = true ∧ (begin s).engIn 79 = true ∧ (begin s).tdBound (leAt nfePlan 8 2) 0 = true ∧ leAt nfePlan 10 2 = 0xFFFF) :=
  ⟨by decide +kernel, owned_image _ (by decide +kernel) (by decide +kernel), by decide +kernel⟩
theorem wit_FskMessages_bad :
    ready0 (owned (fskReq 0) (List.replicate 1600 0)) 0x0A01 (fskReq 0) ∧ (begin (owned (fskReq 0) (List.replicate 1600 0))).hostImage (leAt (fskReq 0) 24 8) 1600 = some (List.replicate 1600 0) ∧
    (planRange (List.replicate 1600 0)).isSome = true :=
  ⟨by decide +kernel, owned_image _ (by decide +kernel) (by decide +kernel), by decide +kernel⟩
theorem wit_FskMessages_stop :
    let s := asked { on with nfes := [(3, { NfeState.reset with plan := [1] })] } (fskReq 1)
    ready0 s 0x0A01 (fskReq 1) ∧ tb (leAt (fskReq 1) 17 1) 0 = true ∧ ((begin s).nfeAt 3).plan ≠ [] := by decide +kernel
/-- FSK.TX of 8 bytes on engine 3, channel 0, profile 0, from bus address 0x1000; the result to 0x40. -/
def txReq : List Byte :=
  req 0x0A02 [(1, 3), (1, 0), (1, 0), (1, 0), (1, 0), (1, 0), (2, 16384), (4, 0), (4, 0), (8, 0x1000), (2, 8), (2, 16), (4, 0), (8, 0x40)]
/-- Cellarmaster enabled, flow 9 open, the plan running, the request waiting. -/
def txState : State :=
  let s := owned txReq [1, 2, 3, 4, 5, 6, 7, 8]
  nfeOn { s.wr Reg.cmCtrl 1 with cm := { s.cm with flows := [(9, { Flow.reset with opened := true })] } }
theorem wit_FskMessages_tx :
    let s := begin txState
    let t := (s.busWrite (.ctl 0) 0x40000 (burstJob txReq 0x40000 ++ List.replicate 64 0)).2.busWrite (.ctl 0) 0x400C0 [1, 2, 3, 4, 5, 6, 7, 8]
    (ready0 txState 0x0A02 txReq ∧ leAt txReq 48 8 % 16 = 0 ∧ s.inWindow (leAt txReq 48 8) 16 = true ∧ s.hostImage (leAt txReq 32 8) (leAt txReq 40 2) = some [1, 2, 3, 4, 5, 6, 7, 8] ∧ s.burstPlace 0x40000 = true) ∧
    s.burstFault 3 (2 ^ 96) (burstJob txReq 0x40000) (burstJob txReq 0x40000) = none ∧ (t.2.submitNow (burstTask 3 9 0x40000) 0).1 = some 0 := by decide +kernel
theorem wit_FskMessages_refused :
    let s := begin (txState.wr Reg.cmCtrl 0)
    let t := (s.busWrite (.ctl 0) 0x40000 (burstJob txReq 0x40000 ++ List.replicate 64 0)).2.busWrite (.ctl 0) 0x400C0 [1, 2, 3, 4, 5, 6, 7, 8]
    (t.2.submitNow (burstTask 3 9 0x40000) 0).1 = some 0x80000006 := by decide +kernel
theorem wit_FskMessages_abort :
    let x : FskTx := { handle := 5, result := 0x40, status := 0x10080, record := none }
    let bs := req 0x0A03 [(4, 5)]
    let s := asked { on with fw := { on.fw with fskTx := [x] } } bs
    (ready0 (asked on bs) 0x0A03 bs ∧ (begin (asked on bs)).fw.fskTx = [] ∧ (begin (asked on bs)).slotOf 5 = none) ∧
    (ready0 s 0x0A03 bs ∧ (begin s).fw.fskTx.find? (fun x => x.handle == leAt bs 16 4) = some x ∧ ((begin s).cancelHandle 5).1 = false) := by decide +kernel
theorem wit_FskMessages_result :
    let x : FskTx := { handle := 5, result := 0x40, status := 0x10080, record := some [1] }
    (begin { on with fw := { on.fw with fskTx := [x] } }).fw.fskTx.find? (fun x => x.handle == 5 && x.record.isSome) = some x := by decide +kernel
theorem wit_FskMessages_badparam :
    let bs := fun fl => req 0x0A01 [(1, 4), (1, fl), (2, 0), (4, 0), (8, 0x1000), (4, 1600)]
    let cs := req 0x0A02 [(1, 4)]
    ready0 (asked on (bs 0)) 0x0A01 (bs 0) ∧ ready0 (asked on (bs 1)) 0x0A01 (bs 1) ∧ ready0 (asked on cs) 0x0A02 cs ∧ leAt cs 16 1 = 4 := by decide +kernel
theorem wit_FskMessages_nostream :
    let s := owned (fskReq 0) nfePlan
    ready0 s 0x0A01 (fskReq 0) ∧ (begin s).hostImage (leAt (fskReq 0) 24 8) 1600 = some nfePlan ∧ (begin s).tdBound (leAt nfePlan 8 2) 0 = false :=
  ⟨by decide +kernel, owned_image _ (by decide +kernel) (by decide +kernel), by decide +kernel⟩
theorem wit_FskMessages_noplace :
    let s := begin txState
    s.burstPlace 0x40001 = false := by decide +kernel

def trlReq (op : Nat) : List Byte := req 0x0B02 [(1, 0x81), (1, op), (2, 20)]
theorem wit_TrellisMessages :
    (ready0 (asked on (trlReq 2)) 0x0B02 (trlReq 2) ∧ (begin (asked on (trlReq 2))).trl.job = none ∧ leAt (trlReq 2) 16 1 ≠ 0 ∧ leAt (trlReq 2) 17 1 = 2) ∧
    (let s := asked (on.wr Reg.trlRstat 0x30000003) (trlReq 1)
     ready0 s 0x0B02 (trlReq 1) ∧ ∀ g ∈ regions 0x81, 2 ≤ (begin s).regionSt g) ∧
    (let s := asked (on.wr Reg.trlRstat 0x20000002) (trlReq 0)
     ready0 s 0x0B02 (trlReq 0) ∧ ∀ g ∈ regions 0x81, (begin s).regionSt g = 2 ∧ (begin s).noRelease g = false) ∧
    (let s := asked on (trlReq 0); ready0 s 0x0B02 (trlReq 0) ∧ ∃ g ∈ regions 0x81, (begin s).regionSt g < 2) := by decide +kernel
theorem wit_TrellisMessages_load :
    let bs := req 0x0B01 [(2, 0), (2, 0), (4, 0), (8, 0x1000), (4, 1)]
    (ready0 (owned bs [1]) 0x0B01 bs ∧ (begin (owned bs [1])).trl.job = none) ∧ (begin (owned bs [1])).hostImage (leAt bs 24 8) (leAt bs 32 4) = some [1] :=
  ⟨by decide +kernel, owned_image _ (by decide +kernel) (by decide +kernel)⟩
theorem wit_TrellisMessages_none :
    let bs := req 0x0B02 [(1, 0), (1, 1)]
    ready0 (asked on bs) 0x0B02 bs ∧ leAt bs 16 1 = 0 ∧ regions 0 = [] := by decide +kernel

theorem wit_SpareCensusMessages_retire :
    let bs := fun fl => req 0x0C03 [(1, 2), (1, fl), (2, 31)]
    (ready0 (asked on (bs 1)) 0x0C03 (bs 1) ∧ kindHas 2 31 = true ∧ (begin (asked on (bs 1))).unitPending 2 31 = false ∧ (begin (asked on (bs 1))).unitOut 2 31 = false ∧
      ((begin (asked on (bs 1))).spareFor 2 31).isSome = true) ∧
    (let s := asked { on with rsv := { on.rsv with usedSpares := [(2, 32), (2, 33)] } } (bs 0)
     ready0 s 0x0C03 (bs 0) ∧ (begin s).unitPending 2 31 = false ∧ (begin s).unitOut 2 31 = false ∧ (begin s).spareFor 2 31 = none) ∧
    (let s := asked { on with rsv := { on.rsv with out := [(2, 31)] } } (bs 0)
     ready0 s 0x0C03 (bs 0) ∧ (begin s).unitOut 2 31 = true) := by decide +kernel
def cenReq : List Byte := req 0x0D01 [(4, 1000), (2, 0), (1, 0), (1, 16), (8, 0), (1, 0)]
theorem wit_SpareCensusMessages_config :
    let s := asked ((on.wr Reg.memDramcfg 0x00000001).wr (Reg.dmcStat 0) 2) cenReq
    ready0 s 0x0D01 cenReq ∧ (begin s).rdB Reg.cenCtrl 31 = false ∧ (begin s).cenInRange cenReq = true ∧ dramBase % 2 ^ leAt cenReq 23 1 = 0 := by decide +kernel
theorem wit_SpareCensusMessages_start :
    let bs := req 0x0D02 []
    let s := asked { on with fw := { on.fw with cenCfg := true } } bs
    let cs := req 0x0D03 []
    ready0 (asked on bs) 0x0D02 bs ∧ (begin (asked on bs)).fw.cenCfg = false ∧ ready0 s 0x0D02 bs ∧ (begin s).fw.cenCfg = true ∧ ready0 (asked on cs) 0x0D03 cs := by decide +kernel
theorem wit_SpareCensusMessages_kinds :
    let bs := fun kind fl unit addr => req 0x0C03 [(1, kind), (1, fl), (2, unit), (4, 0), (8, addr)]
    (ready0 (asked on (bs 14 0 0 0)) 0x0C03 (bs 14 0 0 0)) ∧ (ready0 (asked on (bs 2 4 0 0)) 0x0C03 (bs 2 4 0 0)) ∧
    (ready0 (asked on (bs 13 0 5 0)) 0x0C03 (bs 13 0 5 0) ∧ kindHas 13 5 = true ∧ (begin (asked on (bs 13 0 5 0))).unitPending 13 5 = false ∧ (begin (asked on (bs 13 0 5 0))).unitOut 13 5 = false) ∧
    (ready0 (asked on (bs 12 0 0 0)) 0x0C03 (bs 12 0 0 0) ∧ locate 0 ≠ .dram) ∧
    (let r := bs 12 0 0 dramBase; let s := asked (on.wr Reg.memDramcfg 0x00000001) r
     ready0 s 0x0C03 r ∧ locate dramBase = .dram ∧ dramBase < dramBase + (begin s).dramCap ∧ (begin s).rowListed dramBase = false) := by decide +kernel
theorem wit_SpareCensusMessages_degrade :
    let bs := req 0x0C03 [(1, 2), (1, 2), (2, 31)]
    let s := asked { on with rsv := { on.rsv with usedSpares := [(2, 32), (2, 33)] } } bs
    ready0 s 0x0C03 bs ∧ tb (leAt bs 17 1) 1 = true ∧ (begin s).unitPending 2 31 = false ∧ (begin s).unitOut 2 31 = false ∧ (begin s).spareFor 2 31 = none := by decide +kernel
theorem wit_SpareCensusMessages_refused :
    let s := asked (on.wr Reg.cenCtrl (2 ^ 31)) cenReq
    ready0 s 0x0D01 cenReq ∧ (begin s).rdB Reg.cenCtrl 31 = true ∧ ready0 (asked on cenReq) 0x0D01 cenReq ∧ (begin (asked on cenReq)).cenInRange cenReq = true ∧ (begin (asked on cenReq)).dramReady = false ∧
    (let bs := req 0x0D01 [(4, 0)]; ready0 (asked on bs) 0x0D01 bs ∧ (begin (asked on bs)).cenInRange bs = false) := by decide +kernel

theorem wit_DebugMessages :
    (let bs := req 0x0E01 [(1, 0)]; ready0 (asked on bs) 0x0E01 bs ∧ leAt bs 16 1 = 0) ∧ (let bs := req 0x0E01 [(1, 2)]; ready0 (asked on bs) 0x0E01 bs ∧ leAt bs 16 1 = 2) ∧
    (let bs := req 0x0E01 [(1, 1)]; ready0 (asked on bs) 0x0E01 bs ∧ leAt bs 16 1 = 1 ∧ (begin (asked on bs)).authOk bs = false) ∧
    (let bs := req 0x0E02 []; ready0 (asked on bs) 0x0E02 bs ∧ (begin (asked on bs)).rdB Reg.secDbg 1 = false) ∧
    (let bs := req 0x0E03 []; ready0 (asked on bs) 0x0E03 bs) := by decide +kernel
theorem wit_DebugMessages_lengths :
    let s := fun bs => asked (on.wr Reg.secDbg 2) bs
    let bs := fun op n => req op [(8, 0x100), (1, n)]
    (ready0 (s (bs 0x0E02 0)) 0x0E02 (bs 0x0E02 0) ∧ (begin (s (bs 0x0E02 0))).rdB Reg.secDbg 1 = true) ∧ ready0 (s (bs 0x0E03 33)) 0x0E03 (bs 0x0E03 33) ∧ leAt (bs 0x0E03 33) 24 1 = 33 := by decide +kernel
theorem wit_DebugMessages_access :
    let bs := req 0x0E02 [(8, 0x100), (1, 32)]
    let cs := req 0x0E03 [(8, 0x100), (1, 32)]
    let s := fun bs => asked (on.wr Reg.secDbg 2) bs
    ready0 (s bs) 0x0E02 bs ∧ (begin (s bs)).rdB Reg.secDbg 1 = true ∧ leAt bs 24 1 = 32 ∧ ((begin (s cs)).devWrite (.ctl 0) 0x100 [1]).1 = .ok ∧ ready0 (s cs) 0x0E03 cs ∧
    ((begin ((begin (s cs)).devWrite (.ctl 0) 0x100 [1]).2).devRead (.ctl 0) 0x100 1).1 = .ok [1] := by decide +kernel

/-- Cellarmaster enabled, flow 9 open, and a submission of class `cls` held at control core 0's port. -/
def submitting (cls : Nat) (bp : Bool) : State :=
  let x : Sub := { words := [0x40, 0x90000, 0, BitVec.ofNat 32 (cls * 2 ^ 20), 0, 0, 0, 0], idem := false, bp := bp, since := 0 }
  { on.wr Reg.cmCtrl 1 with cm := { on.cm with flows := [(9, { Flow.reset with opened := true })], subs := [(.ctl 0, x)] } }
/-- A task of class 3 of flow 9 in slot 0. -/
def aTask (st : TaskSt) (cls : Nat) (u : Option TUnit) : Task :=
  { words := [0x40, 0x90000, 0, BitVec.ofNat 32 (cls * 2 ^ 20), 0, 0, 0, 0], order := 0, st := st, unit := u, rd := 0, late := false, stamp := 0, ahead := 0, cluster := cls, since := 0, ring := none, prestage := false, ust := 0, code := 0,
    progress := 0, time := 0 }
def tasked (t : Task) : State :=
  { (on.wr Reg.cmCtrl 1).wrF (Reg.pwrCl 3) 3 0 0 with cores := [(31, { CoreState.reset with st := .waiting })], cm := { on.cm with flows := [(9, { Flow.reset with opened := true })], tasks := [(0, some t)] } }
theorem wit_SubmissionPorts :
    (begin on).rdB (Reg.cmCpSubstat 3) 0 = false ∧ (begin (on.wr (Reg.cmCpSubstat 3) 1)).rdB (Reg.cmCpSubstat 3) 0 = true ∧ (begin on).flowTasks 0 = [] ∧
    (let s := (tasked (aTask .waiting 3 none)).wr (Reg.cmCpFlowSel 0) 9
     tb (0 : Word).toNat 31 = false ∧ ((begin s).flow ((begin s).rdF (Reg.cmCpFlowSel 0) 15 0)).opened = true ∧ (begin s).flowTasks ((begin s).rdF (Reg.cmCpFlowSel 0) 15 0) ≠ []) := by decide +kernel
theorem wit_SubmissionPorts_admit :
    let b := begin (submitting 3 false)
    let c := begin (submitting 44 false)
    let d := begin ((submitting 3 true).wr Reg.cmCtrl 1)
    (∃ x, b.held? (.ctl 0) = some x ∧ b.rejects false x.idem x.words = none ∧ b.watermark (dPrio x.words) < b.freeSlots ∧ b.rsv.storeOut = false ∧ b.pickSlot 131071 = some 131071) ∧
    (∃ x, c.held? (.ctl 0) = some x ∧ c.rejects false x.idem x.words = some 1) ∧ (d.held? (.ctl 0)).isSome = true :=
  ⟨⟨_, rfl, by decide +kernel⟩, ⟨_, rfl, by decide +kernel⟩, by decide +kernel⟩
theorem wit_SubmissionPorts_full :
    let full := fun bp => begin { submitting 3 bp with rsv := { on.rsv with taskSlots := 0 } }
    (∃ x, (full true).held? (.ctl 0) = some x ∧ x.bp = true ∧ (full true).rejects false x.idem x.words = none ∧ (full true).freeSlots ≤ (full true).watermark (dPrio x.words)) ∧
    (∃ x, (full false).held? (.ctl 0) = some x ∧ x.bp = false ∧ (full false).rejects false x.idem x.words = none ∧ (full false).freeSlots ≤ (full false).watermark (dPrio x.words)) :=
  ⟨⟨_, rfl, by decide +kernel⟩, ⟨_, rfl, by decide +kernel⟩⟩
theorem wit_SubmissionPorts_ring :
    let x : Sub := { words := [0x40, 0x90000, 0, BitVec.ofNat 32 (44 * 2 ^ 20), 0, 0, 0, 0], idem := false, bp := false, since := 0 }
    let b := begin { submitting 3 false with cm := { (submitting 3 false).cm with subs := [(.ring 63, x)] } }
    b.held? (.ring 63) = some x ∧ b.rejects true x.idem x.words = some 1 ∧ (begin on).held? (.ring 63) = none := by decide +kernel

/-- Host ring 63 enabled at 0x10000 under a grant, with SQ_PI = `pi`. -/
def ringOn (pi : Nat) : State :=
  let s := ((granted.wr (Reg.cmHringCfg 63) 0x80040005).wr (Reg.cmHringSqbase 63) 0x10000).wr Reg.cmCtrl 1
  { s with cm := { s.cm with rings := [(63, { RingSt.reset with sqPi := pi })] } }
theorem wit_HostRings :
    let b := begin (ringOn 0)
    let c := begin (ringOn 1)
    (b.rdB (Reg.cmHringCfg 63) 31 = true ∧ (b.busWrite .host (b.rdF (Reg.cmHringSqbase 63) 25 6 * 64) (leBytes 2 16)).1 = .ok ∧ b.hringSize 63 = 16) ∧
    ((c.ringAt 63).sqPi ≠ (c.ringAt 63).sqCi ∧ c.held? (.ring 63) = none ∧ ∃ bs u, c.busRead .cm (c.rdF (Reg.cmHringSqbase 63) 25 6 * 64 + 64 + 0 * 32) 32 = (.ok bs, u) ∧ dClass (wordsOf bs) ≠ 63) :=
  ⟨by decide +kernel, by decide +kernel, by decide +kernel, _, _, rfl, by decide +kernel⟩
theorem wit_HostRings_post :
    let c := begin ((ringOn 1).putDev 0x10040 (List.replicate 12 0 ++ [0, 0, 0xF0, 3]))
    let d := c.wr Reg.cmCtrl 0
    (∃ bs u, c.busRead .cm 0x10040 32 = (.ok bs, u) ∧ dClass (wordsOf bs) = 63 ∧ u.rdB Reg.cmCtrl 0 = true ∧ postReserved (wordsOf bs) = false) ∧
    ∃ bs u, d.busRead .cm 0x10040 32 = (.ok bs, u) ∧ dClass (wordsOf bs) = 63 ∧ u.rdB Reg.cmCtrl 0 = false :=
  ⟨⟨_, _, rfl, by decide +kernel⟩, _, _, rfl, by decide +kernel⟩
theorem wit_HostRings_record :
    let r : CRec := { q := 7, slot := none, bytes := List.replicate 16 0, counted := false }
    let b := begin { on with cm := { on.cm with records := [r] } }
    b.cm.records.find? (fun r => decide (r.q = 7)) = some r ∧ (b.rd (Reg.cmFcqPi 7) + 65536 - b.rd (Reg.cmFcqCi 7)) % 65536 < 16 ∧
    (b.busWrite .cm (b.rdF (Reg.cmFcqBase 7) 25 4 * 16 + b.rd (Reg.cmFcqPi 7) % 16 * 16) r.bytes).1 = .ok := by decide +kernel
theorem wit_HostRings_refused :
    let off := begin (granted.wr Reg.cmCtrl 1)
    let low := begin ((ringOn 1).wr (Reg.memGrantCtrl 0) 0)
    let c := begin ((ringOn 1).putDev 0x10040 (List.replicate 12 0 ++ [1, 0, 0xF0, 3]))
    off.rdB (Reg.cmHringCfg 63) 31 = false ∧ low.granted 0x10000 2 = false ∧ low.hostDebug = false ∧ (begin (ringOn 0)).pcie.link = true ∧ (begin (ringOn 0)).d3hot = false ∧
    (∃ bs u, c.busRead .cm 0x10040 32 = (.ok bs, u) ∧ dClass (wordsOf bs) = 63 ∧ postReserved (wordsOf bs) = true) :=
  ⟨by decide +kernel, by decide +kernel, by decide +kernel, by decide +kernel, by decide +kernel, _, _, rfl, by decide +kernel⟩
theorem wit_HostRings_hostrecord :
    let r : CRec := { q := 71, slot := none, bytes := List.replicate 16 0, counted := false }
    let s := { ringOn 0 with cm := { (ringOn 0).cm with records := [r] } }
    let b := begin s
    b.cm.records.find? (fun r => decide (r.q = 71)) = some r ∧ b.rdB (Reg.cmHringCfg 63) 31 = true ∧ (b.ringIndex 63 4).1 = some 0 ∧ (b.ringIndex 63 4).2.cqFull 71 = false ∧ (b.ringIndex 63 4).2.pcie.link = true ∧
    (begin { on with cm := { on.cm with records := [r] } }).rdB (Reg.cmHringCfg 63) 31 = false := by decide +kernel

theorem wit_TaskLife_select :
    let b := begin (tasked (aTask .queued 3 none))
    let c := begin (tasked { aTask .queued 3 none with words := [0x40, 0x90000, 0, 0x300000, 0, 0x8000, 0x80000001, 0] })
    (TUnit.wf (.core 3 7) = true ∧ b.unitFree (.core 3 7) = true ∧ (∃ t, b.best (.core 3 7) = some (0, t) ∧ dDlEn t.words = false)) ∧
    (∃ t, c.best (.core 3 7) = some (0, t) ∧ t.rd = 0 ∧ dDlEn t.words = true ∧ c.passed (dDeadline t.words) = true ∧ (c.flow (dFlow t.words)).dlpol = false) ∧
    (begin (on.wr (Reg.rsvChold 3) 0xFF)).unitFree (.core 3 7) = false :=
  ⟨⟨by decide +kernel, by decide +kernel, _, rfl, by decide +kernel⟩, ⟨_, rfl, by decide +kernel⟩, by decide +kernel⟩
theorem wit_TaskLife_late :
    let t : Task := { aTask .queued 3 none with words := [0x40, 0x90000, 0, 0x300000, 0, 0x8000, 0x80000001, 0] }
    let s := tasked t
    let c := begin { s with cm := { s.cm with flows := [(9, { Flow.reset with opened := true, dlpol := true })] } }
    c.best (.core 3 7) = some (0, t) ∧ c.unitFree (.core 3 7) = true ∧ (c.flow (dFlow t.words)).dlpol = true := by decide +kernel
theorem wit_TaskLife_sweep :
    let t : Task := { aTask .waiting 3 none with words := [0x40, 0x90000, 0, 0x300000, 1, 0x8000, 0x80000001, 0] }
    let u : Task := { aTask .waiting 3 none with words := [0x40, 0x90000, 0, 0x300000, 1, 0x8000, 1, 0] }
    (begin (tasked t)).taskList = [(0, t)] ∧ (begin (tasked t)).passed (dDeadline t.words) = true ∧ dDlEn t.words = true ∧ ((begin (tasked t)).flow (dFlow t.words)).dlpol = false ∧
    (begin (tasked u)).taskList = [(0, u)] ∧ (begin (tasked u)).passed (dDeadline u.words) = false := by decide +kernel
theorem wit_TaskLife_commit :
    let t := aTask .ending 3 (some (.core 3 7))
    let u := aTask .stopping 3 (some (.core 3 7))
    (begin (tasked t)).task? 0 = some t ∧ (begin (tasked t)).unitQuiet 0 t = true ∧ (begin (tasked u)).task? 0 = some u ∧ (begin (tasked u)).unitQuiet 0 u = true := by decide +kernel
theorem wit_TaskLife_cancel :
    let b := fun st => begin (tasked (aTask st 3 (some (.core 3 7))))
    ((b .waiting).slotOf (0 : Word).toNat = some 0 ∧ (b .queued).slotOf 0 = some 0 ∧ (b .running).slotOf 0 = some 0 ∧ (b .recorded).slotOf 0 = some 0) ∧
    (begin on).slotOf (0 : Word).toNat = none ∧ (begin on).flowTasks ((0 : Word).toNat % 65536) = [] ∧
    (b .waiting).flowTasks ((9 : Word).toNat % 65536) = [(0, aTask .waiting 3 (some (.core 3 7)))] := by decide +kernel
theorem wit_TaskLife_fault :
    (unitKind (.engine 75)).isSome = true ∧ (begin on).faultable (.engine 75) = true ∧ TUnit.wf (.engine 75) = true := by decide +kernel
theorem wit_TaskLife_chain :
    let p : Prestage := { slot := 0, flow := 9, cluster := 3, chain := 0x1000, prio := 0, stamp := 0, channel := none, result := none }
    let s := tasked (aTask .held 3 none)
    let d := { (s.wr Reg.dctCtrl 1).wr (Reg.dctChCfg 63) 0x81000000 with rsv := { s.rsv with prestage := [p] } }
    let b := begin d
    TUnit.wf (.channel 63) = true ∧ b.unitFree (.channel 63) = true ∧ b.bestChain = some p ∧ b.best (.channel 63) = none ∧ (begin on).best (.core 3 7) = none := by decide +kernel
theorem wit_TaskLife_states :
    let b := fun st => begin (tasked (aTask st 3 (some (.core 3 7))))
    (b .held).task? 0 = some (aTask .held 3 (some (.core 3 7))) ∧ (b .ending).task? 0 = some (aTask .ending 3 (some (.core 3 7))) ∧
    (begin (tasked (aTask .running 3 none))).task? 0 = some (aTask .running 3 none) ∧ (begin on).task? 0 = none ∧
    unitKind (.channel 63) = none ∧ (begin on).faultable (.channel 63) = true ∧ (begin on).faultable (.core 3 7) = true := by decide +kernel

/-- Core 7 of cluster 3 with the word `w` at 0x10000 in PM, running there and allowed to access that page; A0 is 0x10040. -/
def pozelCore (w : Nat) (f : Freeze) (pm : List (Nat × List Byte)) : CoreState :=
  { CoreState.reset with st := .running, pc := 0x10000, a := [(0, 0x10040)], freeze := f, mpu := [(0xF0000010, 0x10)], pm := pm.map fun e => (e.1, leBytes 4 w ++ e.2) }
def pozel (x : CoreState) : State := { on with cores := [(31, x)] }
/-- MOVI D3, 5 (R154: class C, format LI) as a bundle of its own. -/
def moviWord : Nat := 0xC3C30005
/-- LDB D0, (A0) (R154: class L, format L, OP 0x01) as a bundle of its own. -/
def ldbWord : Nat := 0xA0100000
def pozelLine : List (Nat × List Byte) := [(0x200, List.replicate 124 0)]
def begun (w : Nat) (pm : List (Nat × List Byte)) : State := (((begin (pozel (pozelCore w .none pm))).strikeCore 3 7 []).countFrozen 3 7 0).beginBundle 3 7
theorem wit_PozelIssue_movi :
    let r := begun moviWord pozelLine
    ∃ words u ops, r.fetchBundle 3 7 5 (r.core 3 7).pc [] = ((words, none), u) ∧ (words.getLast?.any fun w => wordEnds w.2) = true ∧ decodeBundle words = some ops ∧
      (let y := u.core 3 7
       let act := y.active ops
       (r.core 3 7).pc = y.pc ∧ y.wbPend = none ∧ y.wb = [] ∧ y.illegalSlot (y.endsIn y.pc (u.bundleEnd 3 7 5 (u.bundleEnd 3 7 5 ((y.pc + 4 * words.length) % 2 ^ 48)))) act = none ∧
       (∀ a ∈ y.accesses act, u.agFault y 3 7 a = none) ∧ (y.wbAfter 3 7 (y.accesses act)).length ≤ 8 ∧ (y.accesses act).all (fun a => a.store || isOwn 3 7 a.addr) = true) :=
  ⟨_, _, _, rfl, by decide +kernel, rfl, by decide +kernel⟩
theorem wit_PozelIssue_load :
    let r := begun ldbWord pozelLine
    ∃ words u ops, r.fetchBundle 3 7 5 (r.core 3 7).pc [] = ((words, none), u) ∧ (words.getLast?.any fun w => wordEnds w.2) = true ∧ decodeBundle words = some ops ∧
      (let y := u.core 3 7
       let act := y.active ops
       (r.core 3 7).pc = y.pc ∧ y.wbPend = none ∧ y.wb = [] ∧ y.illegalSlot (y.endsIn y.pc (u.bundleEnd 3 7 5 (u.bundleEnd 3 7 5 ((y.pc + 4 * words.length) % 2 ^ 48)))) act = none ∧
       (∀ a ∈ y.accesses act, u.agFault y 3 7 a = none) ∧ (y.wbAfter 3 7 (y.accesses act)).length ≤ 8 ∧ (y.accesses act).all (fun a => a.store || isOwn 3 7 a.addr) = false) :=
  ⟨_, _, _, rfl, by decide +kernel, rfl, by decide +kernel⟩
theorem wit_PozelIssue_stands :
    let x := pozelCore moviWord .none pozelLine
    let c := fun (y : CoreState) => (begin (pozel y)).core 3 7
    (c { x with wbPend := some (5, 0) }).wbPend = some (5, 0) ∧ (c { x with wbPend := some (5, 0) }).heldOff = false ∧ (c { x with wbPend := some (5, 0), dint := 1 }).heldOff = true ∧
    (c { x with cancel := true }).cancel = true ∧ (c { x with cancel := true }).heldOff = false ∧ (c x).freeze = .none ∧ (∀ a, (c x).freeze ≠ .pmMiss a) ∧ (∀ ws, (c x).freeze ≠ .load ws) :=
  ⟨by decide +kernel, by decide +kernel, by decide +kernel, by decide +kernel, by decide +kernel, rfl, nofun, nofun⟩
theorem wit_PozelIssue_others :
    (∃ words u, (begun 0xE0000000 pozelLine).fetchBundle 3 7 5 0x10000 [] = ((words, none), u) ∧ (words.getLast?.any fun w => wordEnds w.2) = true ∧ decodeBundle words = none) ∧
    (∃ ws a u, (begun 0 []).fetchBundle 3 7 5 0x10000 [] = ((ws, some (a, .miss)), u)) ∧
    (∃ ws a kind u, (((begin (pozel { pozelCore 0 .none [] with mpu := [] })).countFrozen 3 7 0).beginBundle 3 7).fetchBundle 3 7 5 0x10000 [] = ((ws, some (a, .fault kind)), u)) ∧
    (∃ words ops, ((begin (pozel (pozelCore 0 (.load [(0x10000, ldbWord)]) []))).core 3 7).freeze = .load words ∧ decodeBundle words = some ops) ∧
    (∃ bs u, ((begin (pozel (pozelCore 0 (.pmMiss 0x10004) []))).setCore 3 7 (pozelCore 0 .none [])).busRead (.dsp 3 7) (0x10004 / 128 * 128) 128 = (.ok bs, u)) ∧
    ∃ kind u, ((begin (pozel (pozelCore 0 (.pmMiss 0x08000000) []))).setCore 3 7 (pozelCore 0 .none [])).busRead (.dsp 3 7) (0x08000000 / 128 * 128) 128 = (.err kind, u) :=
  ⟨⟨_, _, rfl, by decide +kernel⟩, ⟨_, _, _, rfl⟩, ⟨_, _, _, _, rfl⟩, ⟨_, _, rfl, rfl⟩, ⟨_, _, rfl⟩, _, _, rfl⟩

/-- The running core with a byte 7 buffered for cellar address `a`. -/
def buffered (a : Nat) : State := pozel { pozelCore 0 .none [] with wb := [{ addr := a, esz := 0, bytes := [(a, 7)], issued := false, block := a / 128, csr := false, merged := [(a, 1, 0)] }] }
theorem wit_PozelStores :
    (∃ e u, ((begin (buffered 0x10000)).core 3 7).wb = [e] ∧ byteRuns e.bytes = [(0x10000, [7])] ∧
      ((begin (buffered 0x10000)).setCore 3 7 { (begin (buffered 0x10000)).core 3 7 with wb := [] }).devWrite (.dsp 3 7) 0x10000 [7] = (.ok, u)) ∧
    (∃ e u kind, ((begin (buffered 0x08000000)).core 3 7).wb = [e] ∧ byteRuns e.bytes = [(0x08000000, [7])] ∧
      ((begin (buffered 0x08000000)).setCore 3 7 { (begin (buffered 0x08000000)).core 3 7 with wb := [] }).devWrite (.dsp 3 7) 0x08000000 [7] = (.err kind, u)) ∧
    (begin (buffered 0x10000)).dramWaits true 0x10000 1 = false ∧ (begin (buffered dramBase)).dramWaits true dramBase 1 = true ∧ ((begin (buffered 5)).core 3 7).st = .running ∧ ((begin (pozel { pozelCore 0 (.drainDone 1) [] with st := .running })).core 3 7).freeze = .drainDone 1 :=
  ⟨⟨_, _, rfl, by decide +kernel, rfl⟩, ⟨_, _, _, rfl, by decide +kernel, rfl⟩, by decide +kernel, by decide +kernel, by decide +kernel, by decide +kernel⟩

theorem wit_PozelControl :
    let x := pozelCore 0 .none []
    let b := begin (pozel { x with cancel := true })
    (Init.wf (.ctl 3) = true ∧ b.writeRefused (.ctl 3) (Reg.dspcPmInv 3) = false ∧ b.rdB (Reg.dspcPmInv 3) 31 = false) ∧
    ((b.core 3 7).st = .running ∧ (b.core 3 7).cancel = true ∧ (b.core 3 7).wbPend = none ∧ (b.core 3 7).freeze = .none ∧ (b.core 3 7).heldOff = false) ∧
    ((begin (pozel { x with dint := 2 })).core 3 7).heldOff = true ∧ ((begin (pozel { x with freeze := .drainSubmit 0 [] })).core 3 7).freeze = .drainSubmit 0 [] ∧ (begin on).plainInit (.ctl 3) = true ∧ ((begin on).core 3 7).cancel = false ∧
    (begin ((pozel x).wr Reg.secDbg 8)).rdB Reg.secDbg 3 = true ∧ ((begin (pozel { x with st := .halted })).core 3 7).st = .halted := by decide +kernel
theorem wit_PozelControl_inv :
    let s := (pozel (pozelCore 0 .none [])).wr (Reg.dspcPmInv 3) 0x80000080
    ((begin s).rdB (Reg.dspcPmInv 3) 31 = true ∧ mwf (fun _ => CoreState.reset) s.cores = true ∧ RegInv s) ∧
    (let r := (begin on).setCore 3 7 { CoreState.reset with st := .waiting }
     ((List.range 96).any fun n => decide ((r.core (n / 8) (n % 8)).st = .clearing) && r.coreIn (n / 8) (n % 8)) = true) ∧
    (let w : State := { on with cores := (List.range 96).map fun n => (n, { CoreState.reset with st := if n = 31 then CoreSt.clearing else CoreSt.waiting }) }
     let r := (begin w).setCore 3 7 { CoreState.reset with st := .waiting }
     ((begin w).core 3 7).st = .clearing ∧ ((List.range 96).any fun n => decide ((r.core (n / 8) (n % 8)).st = .clearing) && r.coreIn (n / 8) (n % 8)) = false) :=
  ⟨⟨rfl, rfl, rfl⟩, by decide +kernel, by decide +kernel⟩

/-- A descriptor of 128 bytes from fields of an offset, a size and a value. -/
def engDesc (fs : List (Nat × Nat × Nat)) : List Byte := fs.foldl (fun d f => patch d f.1 (leBytes f.2.1 f.2.2)) (List.replicate 128 0)
/-- Engine `e` in state `st` on the task of slot 0, whose descriptor stands at 0x40000. -/
def engOn (e : Nat) (st : EngSt) (job : Option EngJob) (d : List Byte) : State :=
  let t := { aTask .running 40 (some (.engine e)) with words := [0x40000, 0x90000, 0, BitVec.ofNat 32 (40 * 2 ^ 20), 0, 0, 0, 0] }
  { ((tasked t).putDev 0x40000 d) with engs := [(e, { EngState.reset with st := st, slot := 0, job := job })] }
/-- The descriptor starts its job on the running engine, and its operation is `key`. -/
def starts (e key : Nat) (st : EngSt) (d : List Byte) : Bool :=
  let s := engOn e st none d
  let b := begin s
  match b.task? (b.engAt e).slot with
  | some t => match b.startJobAt e (dEntry t.words) (dArg t.words) with
    | (some x, _, _) => opKey x == key && decide ((b.engAt e).st = st ∧ (b.engAt e).job = none)
    | _ => false
  | none => false
def engHdr (key : Nat) : List (Nat × Nat × Nat) := [(0, 1, key / 256), (1, 1, key % 256), (8, 8, 0x41000)]
theorem wit_EngineJobs_ae :
    starts 0 0x101 .running (engDesc (engHdr 0x101 ++ [(32, 1, 2), (40, 4, 4), (44, 2, 2), (56, 8, 0x42000), (72, 8, 0x43000)])) = true ∧
    starts 15 0x102 .running (engDesc (engHdr 0x102 ++ [(32, 1, 2), (36, 4, 1), (56, 8, 0x42000), (72, 8, 0x43000)])) = true ∧
    starts 0 0x103 .running (engDesc (engHdr 0x103 ++ [(32, 1, 2), (33, 1, 1), (36, 4, 1), (56, 8, 0x42000), (64, 8, 0x44000), (72, 8, 0x43000)])) = true ∧
    starts 0 0x104 .running (engDesc (engHdr 0x104 ++ [(32, 1, 2), (33, 1, 1), (36, 4, 1), (56, 8, 0x42000), (72, 8, 0x43000), (80, 8, 0x44000)])) = true ∧
    starts 0 0x105 .running (engDesc (engHdr 0x105 ++ [(32, 1, 2), (33, 1, 1), (40, 4, 4), (44, 2, 2), (56, 8, 0x42000), (64, 8, 0x44000), (72, 8, 0x43000)])) = true := by decide +kernel
theorem wit_EngineJobs_code :
    starts 16 0x201 .running (engDesc (engHdr 0x201 ++ [(32, 1, 1), (33, 1, 2), (34, 2, 2), (36, 2, 0), (39, 1, 8), (40, 4, 100), (44, 4, 132), (50, 1, 0), (56, 8, 0x42000), (80, 8, 0x43000)])) = true ∧
    starts 40 0x301 .running (engDesc (engHdr 0x301 ++ [(32, 1, 1), (33, 1, 2), (34, 1, 1), (36, 4, 100), (40, 4, 200), (56, 8, 0x42000), (64, 8, 0x43000)])) = true ∧
    starts 52 0x401 .running (engDesc (engHdr 0x401 ++ [(32, 1, 8), (34, 2, 12), (36, 4, 40), (56, 8, 0x42000), (64, 8, 0x43000)])) = true ∧
    starts 52 0x402 .running (engDesc (engHdr 0x402 ++ [(34, 2, 3), (36, 4, 32), (56, 8, 0x42000), (64, 8, 0x43000)])) = true ∧
    starts 59 0x403 .running (engDesc (engHdr 0x403 ++ [(34, 2, 40), (36, 4, 108), (40, 2, 7), (56, 8, 0x42000), (64, 8, 0x43000)])) = true ∧
    starts 52 0x404 .running (engDesc (engHdr 0x404 ++ [(34, 2, 32), (36, 4, 864), (56, 8, 0x42000), (64, 8, 0x43000)])) = true ∧
    starts 60 0x501 .running (engDesc (engHdr 0x501 ++ [(32, 2, 40), (39, 1, 4), (40, 4, 132), (44, 4, 132), (56, 8, 0x42000), (80, 8, 0x43000)])) = true ∧
    starts 60 0x502 .running (engDesc (engHdr 0x502 ++ [(32, 2, 40), (40, 4, 132), (44, 4, 132), (56, 8, 0x42000), (80, 8, 0x43000)])) = true ∧
    starts 67 0x503 .running (engDesc (engHdr 0x503 ++ [(32, 2, 40), (40, 4, 120), (56, 8, 0x42000), (80, 8, 0x43000)])) = true := by decide +kernel
theorem wit_EngineJobs_ft :
    let ft := fun (op : Nat) => engDesc (engHdr (0x600 + op) ++ [(32, 2, if op ≤ 2 then 128 else 12), (34, 2, 1), (48, 4, 512), (52, 4, 512), (56, 8, 0x42000), (64, 8, 0x43000)])
    starts 68 0x601 .running (ft 1) = true ∧ starts 68 0x602 .running (ft 2) = true ∧ starts 68 0x603 .running (ft 3) = true ∧ starts 75 0x604 .running (ft 4) = true ∧
    starts 40 0x301 .stopping (engDesc (engHdr 0x301 ++ [(32, 1, 1), (33, 1, 2), (34, 1, 1), (36, 4, 100), (40, 4, 200), (56, 8, 0x42000), (64, 8, 0x43000)])) = true := by decide +kernel
theorem wit_EngineJobs_end :
    let b := begin (engOn 40 .running none [0])
    let j : EngJob := { EngJob.reset with ran := true, next := some 0x44000 }
    let c := begin (engOn 40 .running (some j) [0])
    ((b.task? 0).any (fun t => (b.startJobAt 40 (dEntry t.words) (dArg t.words)).1.isNone) = true) ∧
    ((c.engAt 40).job = some j ∧ j.summary < 0x10 ∧ j.submitted = false ∧ j.held = false ∧ (c.engRead 40 0x44000 32).1 = none) ∧
    (begin on).engAt 3 = EngState.reset ∧ EngState.reset.st = .idle ∧ EngJob.reset.next = none :=
  ⟨by decide +kernel, ⟨by decide +kernel, by decide +kernel, rfl, rfl, by decide +kernel⟩, by decide +kernel, rfl, rfl⟩
theorem wit_EngineJobs_more :
    let j : EngJob := { EngJob.reset with ran := true, held := true, next := some 0x44000 }
    let b := begin (engOn 40 .stopping (some j) [0])
    let c := begin (engOn 40 .running (some { j with out := some (0x45000, [1], false) }) [0])
    let d := begin ((engOn 40 .running (some { j with out := some (0x45000, [1], false) }) [0]).setErr (bufferErr 40 0) [0, 1])
    ((b.engAt 40).job = some j ∧ (b.engAt 40).st = .stopping) ∧ ((c.engBufferBad 40).1 = false ∧ (c.flushOut 40 { j with out := some (0x45000, [1], false) }).1.out = none) ∧ (d.engBufferBad 40).1 = true ∧
    (begin { on with engs := [(40, { EngState.reset with st := .stopping })] }).task? 0 = none := by decide +kernel

/-- NFE 3 with its plan, and a burst in context 63 for the task of slot 0; the descriptor is that of `txReq`. -/
def bursting (x : BurstCtx) (d : List Byte) : State :=
  let t := { aTask .running 43 none with words := [0x40000, 0x90000, 0, BitVec.ofNat 32 (43 * 2 ^ 20), 0, 0, 0, 0] }
  let s := nfeOn ((tasked t).putDev 0x40000 d)
  { s with nfes := [(3, { NfeState.reset with st := .running, plan := nfePlan, ctx := [(63, some x)] })] }
def aBurst (ph : BurstPhase) (disp : Nat) : BurstCtx :=
  { slot := 0, job := EngJob.reset, phase := ph, disp := disp, desc := [], prof := [], start := 5000, stop := 9000, stopAt := none, sat := false, turn0 := 0, data := [] }
/-- The burst of `x` up to its data. -/
def burstReads (x : BurstCtx) (d : List Byte) : Option State :=
  let b := begin (bursting x d)
  match b.burstAt 3 63, b.task? 0 with
  | some x, some t =>
    match b.engRead 79 (dEntry t.words) 128 with
    | (none, d, u) =>
      let y := engArg d (dArg t.words)
      if (u.burstFault 3 x.disp d y).isSome || dIdem t.words then none
      else match u.engWrite 79 (leAt y 8 8) pendingRecord with
        | (none, v) => match v.engRead 79 (leAt y 56 8) (leAt d 38 2) with
          | (none, _, w) => some w
          | _ => none
        | _ => none
    | _ => none
  | _, _ => none
theorem wit_NfeBursts_take :
    let d := patch (burstJob txReq 0x40000) 40 (leBytes 8 0)
    ((burstReads (aBurst .fresh 0) d).any fun w => !w.burstConflict 3 63 0 4000 5000) = true ∧
    ((burstReads (aBurst .fresh 0) (patch d 44 (leBytes 4 3999))).any fun w => !w.burstConflict 3 63 0 3999 5000 && decide (w.fullNs 0 3999 < 4000)) = true ∧
    (let b := begin (bursting (aBurst .fresh 0) (List.replicate 128 0))
     (b.engRead 79 0x40000 128).1 = none ∧ (b.burstFault 3 0 (List.replicate 128 0) (engArg (List.replicate 128 0) 0)).isSome = true) := by decide +kernel
theorem wit_NfeBursts_conflict :
    let x := { aBurst .fresh 0 with disp := 0 }
    let s := bursting x (patch (burstJob txReq 0x40000) 40 (leBytes 8 0))
    ({ s with nfes := [(3, { NfeState.reset with st := .running, plan := nfePlan, ctx := [(62, some { aBurst .up 0 with desc := engDesc [] }), (63, some x)] })] } : State).burstConflict 3 63 0 4000 9000 = true := by decide +kernel
theorem wit_NfeBursts_start :
    let x := { aBurst .scheduled 0 with desc := engDesc [] }
    let b := begin (bursting x [])
    let u := ((b.until (5000 * 2 ^ 32)).setBurst 3 63 (some { x with phase := .up })).emit (.burst 3 0 5000 (burstSymbols x.prof x.desc x.data))
    (b.burstAt 3 63 = some x ∧ chanBlank (chanRec (u.plan 3) 0) = true) ∧ chanBlank (chanRec (u.plan 3) 1) = false ∧
    EngJob.reset.held = false ∧ EngJob.reset.next = none ∧ b.burstAt 3 0 = none := by decide +kernel
theorem wit_NfeBursts_blank :
    let s : State := { nfeOn on with nfes := [(3, { NfeState.reset with plan := nfePlan, chans := [(127, { RxChan.reset with blanked := true })] })] }
    ((begin s).chan 3 127).blanked = true ∧ (begin s).chanUp 3 127 = false ∧ ((begin s).chan 3 126).blanked = false := by decide +kernel

/-- NFE 3 with channel 0 in a state, and packets to report. -/
def receiving (x : RxChan) (plan : List Byte) (done : List RxPkt) : State :=
  { nfeOn on with nfes := [(3, { NfeState.reset with st := .running, plan := plan, chans := [(0, x)], done := done })] }
def rxPkt : RxPkt :=
  { status := 0, channel := 0, rflags := 0, lqi := 255, rssi := 0, fev := 0, fofs := 0, length := 8, data := [1, 2, 3, 4, 5, 6, 7, 8], off := 0, res := 64, time := 0 }
theorem wit_NfeReception :
    let b := begin (receiving .reset nfePlan [])
    let c := begin (receiving { RxChan.reset with phase := .sync } nfePlan [])
    let d := begin (receiving { RxChan.reset with phase := .receive, second := [{ profile := 0, rssi := 12, nco := 0 }] } nfePlan [])
    let e := begin (receiving { RxChan.reset with phase := .receive, hdr := 0 } (patch nfePlan 85 [0]) [])
    (b.rxOn 3 0 = true ∧ bestHit ([(0, 5, 9, 0)].filter fun h => (profSet (chanRec (b.plan 3) 0)).contains h.1 && h.2.2.1 != 0) = some (0, 5, 9, 0) ∧ (b.chan 3 0).phase = .search ∧ b.rxOn 3 1 = false ∧ b.nfeOn 3 = true ∧ (begin on).nfeOn 3 = false) ∧
    ((c.chan 3 0).phase = .sync ∧ syncMatch (c.profOf 3 (c.chan 3 0).det) 0 = some false ∧ (hdrOf (c.profOf 3 (c.chan 3 0).det) 0).ends = none) ∧
    ((d.chan 3 0).phase = .receive ∧ 2 * (d.rdF (Reg.nfeCtrl 3) 11 8 : Int) ≤ 12 - (d.chan 3 0).det.rssi) ∧
    (11 - (e.chan 3 0).det.rssi < 2 * (e.rdF (Reg.nfeCtrl 3) 11 8 : Int) ∧ profTrk (e.profOf 3 (e.chan 3 0).det) ≠ 15 ∧ (e.hdrHeld 3 (e.chan 3 0)).any (fun h => h.length == 8) = true) := by decide +kernel
theorem wit_NfeReception_ends :
    let raw := profRec nfePlan 0
    let e := begin (receiving { RxChan.reset with phase := .receive, hdr := 0 } (patch nfePlan 85 [0]) [])
    ((e.heldData 3 0 (List.replicate 64 true)).length = 8 ∧ (e.heldData 3 0 (List.replicate 63 true)).length = 7) ∧
    (hdrOf (patch raw 14 [0]) 200).ends = some 7 ∧ headerIn (patch raw 14 [0]) false [] = 65536 ∧ headerIn raw false [] = 0 ∧ (begin on).hdrHeld 3 { RxChan.reset with hdr := 65536 } = none ∧ syncMatch (patch raw 12 [16, 0]) 1 = none := by decide +kernel
theorem wit_NfeReception_report :
    let b := begin (receiving .reset nfePlan [rxPkt])
    let c := begin ((receiving .reset nfePlan [{ rxPkt with off := 0, res := 0 }]).wrF (Reg.nfeRxPi 3) 15 0 64)
    ((b.nfeAt 3).plan ≠ [] ∧ (b.nfeAt 3).done = [rxPkt] ∧ (b.rdF (Reg.nfeRxPi 3) 15 0 + 65536 - b.rdF (Reg.nfeRxCi 3) 15 0) % 65536 < 2 ^ leAt (b.nfeAt 3).plan 12 1) ∧
    2 ^ leAt (c.nfeAt 3).plan 12 1 ≤ (c.rdF (Reg.nfeRxPi 3) 15 0 + 65536 - c.rdF (Reg.nfeRxCi 3) 15 0) % 65536 := by decide +kernel

/-- Decant channel `ch` enabled, in a state, with its descriptor at 0x40000 and CUR there. -/
def decanting (ch : Nat) (x : DctChan) (d : List Byte) : State :=
  let s := ((on.wr Reg.dctCtrl 1).wr (Reg.dctChCfg ch) 0x80000000).wrPair (Reg.dctChCurLo ch) (Reg.dctChCurHi ch) 16 0x40000
  { s.putDev 0x40000 d with dct := [(ch, x)] }
/-- A descriptor of `len` bytes from 0x41000 to 0x42000 in a mode. -/
def dctDesc (mode len rows : Nat) : List Byte :=
  leBytes 8 0x41000 ++ leBytes 8 0x42000 ++ leBytes 4 len ++ leBytes 2 rows ++ leBytes 2 0 ++ leBytes 8 0 ++ leBytes 4 mode ++ List.replicate 28 0
theorem wit_DecantChannels_cmd :
    let b := begin (decanting 63 .reset [])
    let c := begin (decanting 63 { DctChan.reset with phase := .moved } [])
    (tb (1 : Word).toNat 0 = true ∧ tb (2 : Word).toNat 1 = true ∧ b.rdB Reg.dctCtrl 0 = true ∧ b.rdB (Reg.dctChCfg 63) 31 = true ∧ b.dctOwner 63 = 0 ∧ (b.dctAt 63).phase = .idle) ∧
    ((c.dctAt 63).phase ≠ .idle ∧ (c.dctAt 63).phase ≠ .isolated ∧ (c.dctAt 63).abort = false ∧ c.dctOwner 63 = 0 ∧ (begin on).rdB Reg.dctCtrl 0 = false) ∧
    (begin ((decanting 63 .reset []).wr (Reg.dctChCfg 63) 0x82000000)).dctOwner 63 = 2 := by decide +kernel
/-- A fit descriptor of a mode stands at CUR. -/
def fetches (ch mode : Nat) (d : List Byte) (fault : Option Nat) : Bool :=
  let b := begin (decanting ch { DctChan.reset with phase := .fetch } d)
  match b.dctRead ch false (b.rdPair (Reg.dctChCurLo ch) (Reg.dctChCurHi ch)) 64 with
  | (.ok bs, t) =>
    let e := withArg bs (b.dctAt ch).arg
    decide (gMode e = mode ∧ firstFault e (decide (ch < 4)) (((t.dctClear ch).setDct ch { (b.dctAt ch) with desc := e }).dctOwner ch == 2) = fault)
  | _ => false
theorem wit_DecantChannels_fetch :
    fetches 63 0 (dctDesc 0 64 1) none = true ∧ fetches 5 1 (dctDesc 1 64 2) none = true ∧ fetches 5 2 (dctDesc 2 0 1) none = true ∧ fetches 0 3 (dctDesc 3 0 1) none = true ∧
    fetches 63 1 (dctDesc 1 0 1) (some 16) = true := by decide +kernel
theorem wit_DecantChannels_fail :
    let b := begin ((decanting 63 { DctChan.reset with phase := .fetch } []).wrPair (Reg.dctChCurLo 63) (Reg.dctChCurHi 63) 16 0x08000000)
    (b.dctRead 63 false (b.rdPair (Reg.dctChCurLo 63) (Reg.dctChCurHi 63)) 64).1 = .err 1 := by decide +kernel
theorem wit_DecantChannels_commit :
    let b := begin (decanting 0 { DctChan.reset with phase := .moved, desc := dctDesc 0 64 1, last := some 0x42003 } [])
    let d := dctDesc 0x20 64 1
    let c := begin (decanting 63 { DctChan.reset with phase := .moved, desc := d } [])
    ((b.dctAt 0).phase = .moved ∧ (b.dctAt 0).last = some 0x42003) ∧ (gSubmit (dctDesc 0 64 1) = false ∧ gSubmit d = true) ∧
    ((c.dctRead 63 false (gTask (c.dctAt 63).desc) 32).1 = .ok (List.replicate 32 0)) ∧ ((begin (decanting 63 { DctChan.reset with phase := .failed } [])).dctAt 63).phase = .failed := by decide +kernel
theorem wit_DecantChannels_ready :
    let b := begin (decanting 63 { DctChan.reset with phase := .ready, desc := dctDesc 0 64 1 } [])
    let f := begin (decanting 63 { DctChan.reset with phase := .fetch } (dctDesc 0 64 1))
    let c := begin ((decanting 63 { DctChan.reset with phase := .fetch } []).wrPair (Reg.dctChCurLo 63) (Reg.dctChCurHi 63) 16 0x40000000)
    let w := b.bufferClear (stagingErr 63 0) (2 ^ 18)
    (b.dctAt 63).phase = .ready ∧ (b.bufferUse (stagingErr 63 0) 0).1 = false ∧ w.dctServed 63 = true ∧ w.dctWaits 63 (w.dctAt 63).desc = false ∧
      f.dramWaits false 0x40000 64 = false ∧ gMode (w.dctAt 63).desc = 0 ∧ c.dctOwner 63 = 0 := by decide +kernel
theorem wit_DecantChannels_stop :
    let b := fun (p : DctPhase) (a : Bool) => begin (decanting 63 { DctChan.reset with phase := p, abort := a } [])
    ((b .fetch true).dctAt 63).abort = true ∧ ((b .ready true).dctAt 63).phase = .ready ∧ ((b .held false).dctAt 63).phase = .held ∧ ((b .submitted false).dctAt 63).phase = .submitted ∧
      ((b .isolated false).dctAt 63).phase = .isolated := by decide +kernel

def vclrOn (lo hi : Nat) : State := (on.wrPair Reg.memVclrBaseLo Reg.memVclrBaseHi 16 lo).wrPair Reg.memVclrLimitLo Reg.memVclrLimitHi 16 hi
theorem wit_MemoryUpkeep :
    let b := begin on
    (MemInv on ∧ RegInv on) ∧ ((5 + 1) * 65536 ≤ b.dramCap ∧ b.mem.vmap.contains 5 = false ∧ (begin (on.fillRegion 5)).mem.vmap.contains 5 = true ∧ b.dramCap < (2 ^ 30 + 1) * 65536) ∧
    (tb (3 : Word).toNat 0 = true ∧ tb (3 : Word).toNat 1 = true ∧ locate (0x1003F) = .cellar ∧ locate 0x03FFFFFF = .cellar ∧ (begin (vclrOn 0x1003F 0x03FFFFFF)).rdPair Reg.memVclrLimitLo Reg.memVclrLimitHi = 0x03FFFFFF) ∧
    (locate dramBase = .dram ∧ (begin (vclrOn dramBase (dramBase + 65535))).rdPair Reg.memVclrBaseLo Reg.memVclrBaseHi = dramBase ∧ b.mapStuck 0 1 = [] ∧ (b.vclr 0x1003F 0x03FFFFFF).isSome = true ∧ (b.vclr 64 0).isSome = false) ∧
    (b.rdB (Reg.memRidCtrl 0) 31 = true ∧ (begin (on.wrF (Reg.memRidCtrl 0) 31 31 0)).rdB (Reg.memRidCtrl 0) 31 = false ∧ b.walkAddr 0 (b.rd (Reg.memRidPos 0)) = some 0 ∧ b.walkNext 0 0 < b.walkLines 0) ∧
    (b.walkLines 0 ≤ b.walkNext 0 1048575 ∧ b.walkAddr 3 0 ≠ none ∧ b.walkAddr 9 0 = none ∧ (b.skipCores 256 0 false).2 = false) :=
  ⟨⟨rfl, rfl⟩, by decide +kernel, by decide +kernel, by decide +kernel, by decide +kernel, by decide +kernel⟩
theorem wit_MemoryUpkeep_unit :
    let s := on.putDev 0 [1]
    let w : State := { s with mem := { s.mem with valid := [0] } }
    w.written 0 = true ∧ w.errAt 0 = none ∧ (w.setErr 0 [3]).errAt 0 = some false ∧ (w.setErr 0 [3, 9]).errAt 0 = some true ∧ on.written 0 = false := by decide +kernel
theorem wit_MemoryUpkeep_copy :
    let r : Retire := { kind := 2, unit := 4, reason := 1, degrade := false, redisp := 0 }
    let s : State := { on with mem := { on.mem with copy := [(4, 33)] }, rsv := { on.rsv with retiring := [r] } }
    (begin s).mem.copy.find? (fun e => e.1 == 4) = some (4, 33) ∧ (begin s).rsv.retiring.find? (fun r => r.kind == 2 && mget id (begin s).mem.bank r.unit == 4) = some r ∧
    (begin s).bankUes 4 ≤ 64 ∧ (begin on).mem.copy = [] := by decide +kernel

def dramIn (st : Nat) : State := on.wrF (Reg.dmcStat 5) 31 28 st
theorem wit_DramChannels :
    ((begin (dramIn 0)).dmcState 5 = 0 ∧ (begin (dramIn 1)).dmcState 5 = 1 ∧ (begin (dramIn 2)).dmcState 5 = 2 ∧ (begin (dramIn 3)).dmcState 5 = 3 ∧ (begin (dramIn 4)).dmcState 5 = 4 ∧ (begin (dramIn 6)).dmcState 5 = 6) ∧
    ((begin ((dramIn 2).wrF (Reg.dmcRtr 5) 31 31 1)).rdB (Reg.dmcRtr 5) 31 = true ∧ (begin ((dramIn 2).wrF (Reg.dmcRtr 5) 31 31 0)).rdB (Reg.dmcRtr 5) 31 = false) ∧ 0 < (begin (dramIn 2)).chanCap / 64 ∧
    (tb (1 : Word).toNat 0 = true ∧ tb (0x80000000 : Word).toNat 31 = true ∧ tb (16 : Word).toNat 4 = true) ∧
    (begin ((dramIn 2).setDmc 5 { DmcState.reset with pause := 2 ^ 80 })).dmcState 5 = 5 :=
  ⟨by decide +kernel, by decide +kernel, by decide +kernel, by decide +kernel, by decide +kernel⟩
theorem wit_DramChannels_queue :
    let w : QWrite := { line := on.lineAddr 5 3, cls := 2, since := 0, whole := true, passed := 0 }
    let s := (dramIn 2).setDmc 5 { DmcState.reset with writes := [w], due := true }
    let e := s.wr (Reg.dmcCtrl 5) 0x80000000
    ((begin e).dmcAt 5).writes.find? (fun w => w.line == (begin e).lineAddr 5 3 && w.cls == 2) = some w ∧ (begin e).dramServes 5 = true ∧ (begin s).dramServes 5 = false ∧ ((begin s).dmcAt 5).due = true := by decide +kernel
theorem wit_DramChannels_masks :
    let mk := fun (m : Nat → Nat) => (List.range 6).foldl (fun (s : State) i => s.wrPair (Reg.dmcMaskLo 5 i) (Reg.dmcMaskHi 5 i) 16 (m i)) ((dramIn 2).wr (Reg.dmcMapcfg 5) 0x10000600)
    (begin (mk fun _ => 0)).masksOk 5 = false ∧ (begin (mk fun i => 2 ^ (if i < 3 then 13 + i else 29 + i))).masksOk 5 = true := by decide +kernel

/-- Lane 3 of group 2 in a mode, at a stage. -/
def laneAt (mode own : Nat) : State :=
  { on.wrF (Reg.laneCtrl 2 3) 31 28 mode with front := { on.front with lanes := [(2 * 17 + 3, { LaneState.reset with own := own })] } }
theorem wit_LaneBringUp :
    let b := fun (mode own : Nat) => begin (laneAt mode own)
    ((b 2 1).laneLive 2 3 = true ∧ (b 2 1).laneMode 2 3 = 2 ∧ ((b 2 1).lane 2 3).own = 1 ∧ ((b 2 9).lane 2 3).own = 9 ∧ (b 2 3).rdB (Reg.laneCtrl 2 3) 1 = false) ∧
    (((b 4 7).linkLanes 2 3).all (fun i => decide (7 ≤ ((b 4 7).lane 2 i).own)) = true ∧ (b 4 7).orderOk 2 3 0 = true) ∧
    (backStage 4 = some 3 ∧ (b 2 4).rdB (Reg.laneRxeq 2 3) 31 = false) ∧
    (begin on).laneLive 2 16 = false ∧ (b 6 4).laneMode 2 3 = 6 ∧ (b 6 4).rdB (Reg.laneRawctl 2 3) 31 = false ∧
    (fld (0x20000080 : Word).toNat 31 28 = 2 ∧ tb (0x20000080 : Word).toNat 7 = true ∧ (b 2 9).spared 2 3 = false ∧ ((b 2 9).linkLanes 2 3).length ≤ 1) :=
  ⟨by decide +kernel, by decide +kernel, by decide +kernel, by decide +kernel, by decide +kernel, by decide +kernel, by decide +kernel⟩

/-- Port 5 on a 10GbE lane that is up, with stream 9 of carrier 0 in a direction; the carrier's timeline drives from frame 0, every slot up and down. -/
def fronthaul (dir use : Nat) (wins : List RxWindow) : State :=
  let lk : LinkCfg := { group := 2, first := 3, lanes := 1, mode := 1, port := 5, mult := 0, div := 0, trate := 0, tlId := 0 }
  let k : StreamCfg := { port := 5, dir := dir, ident := 9, use := use, carrier := 0, ant := 8, mac := 0, offset := 0 }
  let pc : PortCfg := { transport := 0, staticW := 9, vlan := 0, udp := 0, localMac := 0, peerMac := 0, localIp := 0, peerIp := 0 }
  let s := ((((((laneAt 1 10).wr (Reg.mrdTlTxAdvance 0) 1000).wr (Reg.mrdTlUlMaskLo 0) 0xFFFFFFFF).wr (Reg.mrdTlDlMaskLo 0) 0xFFFFFFFF).wrF (Reg.mrdTlCtrl 0) 29 29 1).wr (Reg.dctChCfg 4) 0x82000000).wr Reg.dctCtrl 1
  { s with front := { s.front with links := [lk], ports := [(5, some pc)], streams := [(9, some k)], windows := wins } }
/-- A symbol of frame 5000 after the epoch. -/
def aSymbol : Nat := 140 * framesBefore + 700000
theorem wit_FronthaulData_frames :
    let b := begin (fronthaul 0 0 [])
    (b.portMacs 5)[0]? = some (2, 3, 1) ∧ b.linkIsUp (b.macLane (2, 3, 1)).1 (b.macLane (2, 3, 1)).2 = true ∧ (b.forFirmware 5 (List.replicate 64 0)).length = 1 ∧ b.macSends (2, 3, 1) = true ∧
    (let pi := b.rdF Reg.mrdTsrPi 15 0
     (pi + 65536 - b.rdF Reg.mrdTsrCi 15 0) % 65536 ≠ 2 ^ max 4 (min 12 (b.rdF Reg.mrdTsrLog2 3 0)) ∧ (b.memWrite (b.rdPair Reg.mrdTsrBaseLo Reg.mrdTsrBaseHi + pi % 16 * 16) (stampRecord 70000 7 1)).1 = .ok) := by decide +kernel
theorem wit_FronthaulData_full :
    let b := begin (((fronthaul 0 0 []).wr Reg.mrdTsrPi 16).wr Reg.mrdTsrLog2 4)
    (b.rdF Reg.mrdTsrPi 15 0 + 65536 - b.rdF Reg.mrdTsrCi 15 0) % 65536 = 2 ^ max 4 (min 12 (b.rdF Reg.mrdTsrLog2 3 0)) := by decide +kernel
theorem wit_FronthaulData_uplane :
    let w : RxWindow := { carrier := 0, symbol := aSymbol, landed := [], posted := false }
    let b := begin (fronthaul 0 0 [])
    let c := begin (fronthaul 0 0 [w])
    b.streamOf 5 8 = none ∧ (b.streamOf 5 9).isSome = true ∧ b.window? 0 aSymbol = none ∧ b.mrd.time < b.windowOpens 0 aSymbol ∧
    (begin { fronthaul 0 0 [] with mrd := { on.mrd with time := b.windowOpens 0 aSymbol } }).windowOpens 0 aSymbol ≤ b.windowOpens 0 aSymbol ∧
    (c.window? 0 aSymbol = some w ∧ (mget (fun _ => none) c.front.ports 5).isSome = true) ∧ (b.drives 0 aSymbol = true ∧ b.slotUl 0 (aSymbol / 14) = true ∧ b.drives 1 aSymbol = false) := by decide +kernel
theorem wit_FronthaulData_egress :
    let b := begin (fronthaul 1 0 [])
    let u := b.until (b.symbolTime 0 aSymbol (b.symbolReg 0 aSymbol (Reg.mrdTlTxAdvance 0)))
    (b.drives 0 aSymbol = true ∧ b.slotDl 0 (aSymbol / 14) = true) ∧ (u.mrd.time ≤ u.symbolTime 0 aSymbol 0 ∧ (u.carrierStreams 0 1).length = 1 ∧ u.fhChannels = [4] ∧ u.fhChannel.1.isSome = true) ∧
    (let v := begin { fronthaul 1 0 [] with mrd := { on.mrd with time := u.symbolTime 0 aSymbol 0 + 1 } }
     v.symbolTime 0 aSymbol 0 < v.mrd.time) ∧
    ((begin (fronthaul 0 1 [])).stream? 9).any (fun k => decide (k.use = 1 ∧ k.dir = 0 ∧ 7 < tdMessages (fsSamples k.carrier) k.ant)) = true ∧
    ((begin (fronthaul 1 1 [])).stream? 9).any (fun k => decide (k.use = 1 ∧ k.dir = 1 ∧ tdMessages (fsSamples k.carrier) k.ant ≠ 0)) = true := by decide +kernel

/-- Tether link 1 of four lanes of group 2 at a stage, in a state, its receive window 0 over the first 4 KiB of cellar memory. -/
def tethered (own : Nat) (x : TetherState) : State :=
  let lk : LinkCfg := { group := 2, first := 0, lanes := 4, mode := 5, port := 1, mult := 0, div := 0, trate := 0, tlId := 0 }
  let s := on.wrPair (Reg.fhmTwinLimitLo 1 0) (Reg.fhmTwinLimitHi 1 0) 16 0xFFF
  { s with front := { s.front with links := [lk], tether := [(1, x)], lanes := (List.range 4).map fun i => (2 * 17 + i, { LaneState.reset with own := own }) } }
def writeBytes (seq a : Nat) : List Byte := tetherFrame 1 seq (leBytes 6 a ++ leBytes 2 5) [1, 2, 3, 4, 5]
theorem wit_TetherLinks_frames :
    let b := begin (tethered 10 { TetherState.reset with up := true })
    ((b.tlink 1).up = true ∧ frameWhole 1 (writeBytes 0 0x40) = true ∧ leAt (writeBytes 0 0x40) 14 2 = 5 ∧ leAt (writeBytes 0 0x40) 4 1 = (5 + 7) / 8 ∧ leAt (writeBytes 0 0x40) 2 2 = (b.tlink 1).rxNext) ∧
    ((b.tcount 1 2 1).inTwin 1 (leAt (writeBytes 0 0x40) 8 6) 5 = true ∧ (b.tcount 1 2 1).inTwin 1 (leAt (writeBytes 0 0x1000) 8 6) 5 = false ∧ leAt (writeBytes 1 0x40) 2 2 ≠ (b.tlink 1).rxNext) ∧
    (let p := tetherFrame 2 0 (leBytes 2 9 ++ leBytes 4 1) []
     frameWhole 2 p = true ∧ isFrame 2 p = true ∧ isFrame 1 p = false ∧ isFrame 1 (writeBytes 0 0x40) = true ∧ leAt p 4 1 = 0 ∧ leAt p 2 2 = 0 ∧ leAt p 8 2 = 9) ∧ frameWhole 2 (tetherFrame 2 1 (leBytes 2 9 ++ leBytes 4 1) []) = true := by decide +kernel
theorem wit_TetherLinks_link :
    let b := begin (tethered 9 .reset)
    let c := begin (tethered 10 { TetherState.reset with up := true })
    (b.tetherLanes 1 = [(2, 0), (2, 1), (2, 2), (2, 3)] ∧ b.linkIn9 2 0 = true ∧ c.linkIn9 2 0 = true) ∧ ((begin (tethered 7 .reset)).lane 2 3).own = 7 ∧ 4 * 2 ^ 0 = (b.tetherLanes 1).length ∧
    (tb 0x2000 13 = true ∧ tb 0x1000 12 = true ∧ leAt ([0x2D, 5, 0, 0, 0, 0, 0, 0] : List Byte) 0 1 = 0x2D) := by decide +kernel
theorem wit_TetherLinks_ring :
    let s := tethered 9 { TetherState.reset with wGiven := 1 }
    let u := (begin s).wr (Reg.fhmTlPi 1) ((1 : Word).toNat % 65536)
    ((u.tlink 1).taken = 0 ∧ u.rdF (Reg.fhmTlPi 1) 15 0 = 1 ∧ (begin s).tetherSends 1 = true) := by decide +kernel
theorem wit_TetherLinks_done :
    let e : TEntry := { idx := 0, op := 2, len := 0, src := 0, dst := 0, rgrp := 0, rflags := 0, lgrp := 5, lflag := 1, sent := 0, done := 0, posted := true, status := 0 }
    let x := { TetherState.reset with entries := [e] }
    ((begin (tethered 9 x)).tlink 1).entries = [e] ∧ entryDone x e = some 1 ∧ entryDone { x with entries := [{ e with lgrp := 0xFFFF }] } { e with lgrp := 0xFFFF } = some 1 := by decide +kernel

theorem wit_MeridianTime_sample :
    let u := fun (src : Nat) (hi : Word) => ((begin (on.wr Reg.mrdServo src)).takeLo (.ctl 3) Reg.mrdOffsetLo).wr Reg.mrdOffsetHi hi.toNat
    ((u 0 0).rdF Reg.mrdServo 3 0 ≠ 1 ∧ (u 0x80000001 0).rdF Reg.mrdServo 3 0 = 1 ∧ (u 0x80000001 0).servoOn = true) ∧
    (sx 64 ((u 0x80000001 0).rdPair Reg.mrdOffsetLo Reg.mrdOffsetHi)).natAbs ≤ (u 0x80000001 0).rd Reg.mrdStepNs * 65536 ∧
    (u 0x80000001 0x7FFFFFFF).rd Reg.mrdStepNs * 65536 < (sx 64 ((u 0x80000001 0x7FFFFFFF).rdPair Reg.mrdOffsetLo Reg.mrdOffsetHi)).natAbs := by decide +kernel
theorem wit_MeridianTime_edges :
    let s := on.wr (Reg.mrdCapCtrl 7) 0x40000000
    let b := begin s
    let full := begin (s.setStamps 7 (List.range 16))
    let close := begin { s with mrd := { s.mrd with lastEdge := [(7, 50)] } }
    let ev := on.wr (Reg.mrdCapCtrl 7) 0x60000500
    (b.rdB (Reg.mrdCapCtrl 7) 30 = true ∧ b.rdB (Reg.mrdCapCtrl 7) 31 = false ∧ mget (fun _ => 0) b.mrd.lastEdge 7 = 0 ∧ (b.stamps 7).length < 16 ∧ b.rdB (Reg.mrdCapCtrl 7) 29 = false) ∧
    (16 ≤ (full.stamps 7).length ∧ close.clockNs + 1 < mget (fun _ => 0) close.mrd.lastEdge 7 + 100) ∧ ((ev.setStamps 7 [0]).rdB (Reg.mrdCapCtrl 7) 29 = true) ∧
    ((begin (on.wrF Reg.mrdState 3 0 1)).mrdState = 1 ∧ (begin on).mrdState = 0 ∧ (begin on).rdF Reg.mrdHold 15 0 ≠ 0 ∨ (begin (on.wr Reg.mrdHold 5)).rdF Reg.mrdHold 15 0 ≠ 0) := by decide +kernel
theorem wit_MeridianTime_out :
    let p : PulseOut := { mode := 1, pol := false, qual := false, start := 65536, period := 100 * 65536, width := 8, next := 0, fall := none }
    let b := begin (on.setPulse 3 p)
    let q := begin (on.setPulse 3 { p with qual := true, period := 0 })
    let f := begin (on.setPulse 3 { p with fall := some (5, true) })
    (b.pulse 3 = p ∧ p.inRange = true ∧ (begin on).pulse 2 = PulseOut.reset ∧ PulseOut.reset.mode = 0 ∧ (f.pulse 3).fall = some (5, true)) ∧ ((q.pulse 3).qual = true ∧ (q.pulse 3).inRange = false ∧ (q.until ((q.pulse 3).edge 0)).mrdState = 0) ∧
    (let t := begin { on with nw := { on.nw with xtal := true } }
     t.nw.link = true ∧ t.nw.xtal = true ∧ t.mrd.run = true ∧ t.nw.tstop = 0) := by decide +kernel
/-- Timeline 383 armed from frame 0, its rule 7 of a kind. -/
def ruled (kind : Nat) : State := (on.wrF (Reg.mrdTlCtrl 383) 29 29 1).wr (Reg.mrdTlRuleCfg 383 7) (kind * 2 ^ 29)
theorem wit_MeridianTime_rules :
    let ok := fun (kind k : Nat) =>
      let b := begin (ruled kind)
      let f := b.ruleSlot 383 kind k / slotsPerFrame (b.tlMu 383)
      let cfg := b.tlRd 383 f (Reg.mrdTlRuleCfg 383 7)
      b.armed 383 = true ∧ fld cfg 31 29 = kind ∧ (b.tl 383).fromFrame ≤ f ∧ mget (fun _ => 0) (b.tl 383).fired 7 ≤ k ∧ fld cfg 28 27 ≠ 1 ∧ fld cfg 28 27 ≠ 2 ∧ (b.tl 383).last.1 ≤ b.ruleTime 383 7 kind k
    ok 1 700001 ∧ ok 2 50001 ∧ ok 3 5001 ∧ ok 4 50001 := by decide +kernel
theorem wit_MeridianTime_arm :
    let b := begin (on.wrF Reg.mrdState 3 0 2)
    ((b.wrF (Reg.mrdTlCtrl 383) 14 8 0).wrF (Reg.mrdTlCtrl 383) 1 0 0).mrdState = 2 ∧ b.armed 383 = false ∧ tb (0x80000000 : Word).toNat 31 = true ∧ (begin (ruled 1)).armed 383 = true ∧
    (((begin on).wrF (Reg.mrdTlCtrl 383) 14 8 0).wrF (Reg.mrdTlCtrl 383) 1 0 0).mrdState ≠ 2 := by decide +kernel

/-- Every region of the fabric in one state, with some frame words, its clock at 400 MHz. -/
def fabric (st : Nat) (frames : List (Nat × Word)) : State :=
  { (on.wr Reg.trlRstat (st * 0x11111111)).wr Reg.trlStat 0x80000190 with trl := { on.trl with frames := frames } }
/-- The words by which a cell puts out the constant 1: entry 0 passes its immediate, unregistered. -/
def one (c r : Nat) : Nat × Word := ((c * 0x4000 + r * 0x40) / 4, 0x06000001)
theorem wit_FabricData_edge :
    let b := begin (fabric 5 [(0, 0x06140007)])
    b.rdF Reg.trlStat 15 0 ≠ 0 ∧ b.framed = [(0, 0)] ∧ b.runs (regionOf 0) = true ∧ tb (b.cellWord 0 0 (b.sig sigDepth (.ctx 0 0))) 20 = true ∧ b.sig sigDepth (.res 0 0) = 7 ∧ (begin on).rdF Reg.trlStat 15 0 = 0 := by decide +kernel
theorem wit_FabricData_job :
    let j : TrlJob := { mask := 3, hold := true, gap := 8, count := 1, image := [], loading := false, autorel := none, unload := false }
    (tb j.mask 0 = true ∧ (begin (fabric 4 [])).regionSt 0 = 4 ∧ (begin (fabric 2 [])).regionSt 7 = 2) ∧ (begin (fabric 1 [])).regionSt 7 = 1 ∧ (begin (fabric 1 [])).trl.vioReq = 0 := by decide +kernel
theorem wit_FabricData_guard :
    let w : Word := 0xFE000000
    let b := begin (fabric 3 [((255 * 0x40) / 4 + 8, w), ((0x4000 + 255 * 0x40) / 4 + 8, w)])
    let n := 255 * 32 + 31
    2 ≤ ((b.taps n).filter fun e => b.outsOn (regionOf e.1) && (e.2.1 == 2 || b.sig sigDepth (.ctx e.1 (n / 32)) == e.2.2)).length ∧ b.trl.tapsOff.contains n = false ∧ b.rdB Reg.trlGuard 31 = false ∧
      ((begin on).taps n).length < 2 := by decide +kernel
theorem wit_FabricData_ue :
    let b := begin (fabric 5 [])
    let h := (b.holdNow (2 ^ 7)).wrF Reg.trlStat 30 30 1
    let u := ({ h with trl := { h.trl with cfgBad := sins h.trl.cfgBad 7 } } : State).ueRecord false 12 7 (7 * 0x20000 + 8)
    2 ≤ b.regionSt 7 ∧ u.unitPending 11 56 = false ∧ u.unitOut 11 56 = false := by decide +kernel
theorem wit_FabricData_stream :
    let s : State := { on.wr (Reg.trlSp 31) (2 ^ 31 + 2 * 17 + 3) with csr := ((on.wr (Reg.trlSp 31) (2 ^ 31 + 2 * 17 + 3)).wrF (Reg.laneCtrl 2 3) 31 28 6).csr, front := { on.front with lanes := [(2 * 17 + 3, { LaneState.reset with own := 10 })] } }
    (begin s).spLane 31 = some (2, 3) ∧ (begin s).laneMode 2 3 = 6 ∧ 9 ≤ ((begin s).lane 2 3).own ∧ (mget (fun _ => []) (begin s).trl.rx 31).length < 64 ∧ (begin on).spLane 31 = none := by decide +kernel
theorem wit_FabricData_event :
    let b := begin (fabric 5 [one 63 128])
    b.wesOpen 7 = true ∧ b.cellQ 63 128 % 2 = 1 ∧ (begin (fabric 3 [])).wesOpen 7 = false := by decide +kernel
theorem wit_FabricData_memory :
    let b := begin (fabric 5 [one 55 192])
    (b.wesOpen 6 = true ∧ b.cellQ 55 192 % 2 = 1 ∧ (b.portReqs 3).length < 16) ∧
    (let q : MemPortReq := { addr := 0x1000, size := 4, discard := false, write := false, data := [] }
     let c := begin ({ on with trl := { on.trl with reqs := [(3, [q])] } } : State)
     c.portReqs 3 = [q] ∧ c.dpResp 3 = none ∧ inCsr q.addr = false ∧ refusedTo .trl q.addr = false ∧ ((c.setPortReqs 3 []).memRead q.addr q.size).1 = .ok [0, 0, 0, 0]) := by decide +kernel
theorem wit_FabricData_submit :
    let b := begin (fabric 5 [one 63 136])
    b.wesOpen 7 = true ∧ b.cellQ 63 136 % 2 = 1 ∧ b.trl.subHeld = false ∧ b.trl.subAck = none ∧
      (b.busRead .trl (b.cellQ 63 137 + b.cellQ 63 138 * 65536 + b.cellQ 63 139 * 2 ^ 32) 32).1 = .ok (List.replicate 32 0) := by decide +kernel
theorem wit_FabricData_go :
    let b := begin (fabric 2 [])
    tb (0x80800009 : Word).toNat 31 = true ∧ b.trl.job = none ∧ tb (fld (0x80800009 : Word).toNat 23 16) 7 = true ∧ tb (0x80800009 : Word).toNat 29 = false ∧ 2 ≤ b.regionSt 7 ∧ b.trl.cfgBad.contains 7 = false := by decide +kernel

theorem wit_HeadroomAndSpares_mode :
    ((begin on).mode = 0 ∧ (begin on).rsv.target = none ∧ (begin (on.wr Reg.rsvHctrl 0x40000001)).mode = 1 ∧ (begin (on.wr Reg.rsvHctrl 0x40000001)).rdB Reg.rsvHctrl 30 = true) ∧
    (begin on).rdF (Reg.pwrCl 11) 3 0 = 0 ∧ (begin { on with rsv := { on.rsv with target := some 1 } }).rsv.target = some 1 ∧
    (let b := begin (on.wr Reg.rsvPtime 0)
     b.pinnedHome 11 = false ∧ b.rdF Reg.rsvPtime 31 16 ≤ mget (fun _ => 0) b.rsv.lowSince 11 ∧ 0 < (begin (on.wr Reg.rsvPlace 0x1000)).rdF Reg.rsvPlace 15 8) := by decide +kernel
theorem wit_HeadroomAndSpares_move :
    let t := { aTask .queued 12 none with cluster := 5 }
    let s := (tasked t).wr Reg.rsvPtime 0
    let b := begin { s with cen := { s.cen with clock := 1 }, rsv := { s.rsv with active := [0, 3] } }
    b.task? 0 = some t ∧ b.mayMove t 3 = true := by decide +kernel
theorem wit_HeadroomAndSpares_prestage :
    let t := { aTask .held 3 none with prestage := true }
    let p := fun (r : Bool) => ({ slot := 0, flow := 9, cluster := 0, chain := 0, prio := 0, stamp := 0, channel := none, result := some r } : Prestage)
    let b := fun (r : Bool) => begin { tasked t with rsv := { on.rsv with prestage := [p r] } }
    ((b true).rsv.prestage.find? fun p => decide (p.slot = 0) && p.result.isSome) = some (p true) ∧ ((b false).rsv.prestage.find? fun p => decide (p.slot = 0) && p.result.isSome) = some (p false) ∧
      dFlow t.words = 9 ∧ ((b true).flow 9).home = (Flow.reset).home := by decide +kernel
theorem wit_HeadroomAndSpares_loop :
    (11 ∈ (begin on).awake) ∧ ([0, 0, 0, 0, 0, 0, 0, 0, 0, 0, 0, (5 : Int)][11]? = some 5) ∧ (begin on).rdB (Reg.rsvVlVstat 11) 30 = false ∧ (begin (on.wrF (Reg.rsvVlVstat 11) 30 30 1)).rdB (Reg.rsvVlVstat 11) 30 = true ∧
    (let at' := fun (v k : Nat) => begin ((on.wrF (Reg.rsvVlVstat 11) 9 0 v).wr (Reg.rsvVlSlack 11) k)
     ((at' 700 39).targetV 11 = 700 ∧ (at' 700 39).rdF (Reg.rsvVlSlack 11) 7 0 = 39) ∧ ((at' 880 71).targetV 11 = 880 ∧ (at' 880 71).rdF (Reg.rsvVlSlack 11) 7 0 = 71 ∧ (at' 880 71).fixedV 11 = 0)) ∧
    msorted 0 (begin on).rsv.freq = true := by decide +kernel
theorem wit_HeadroomAndSpares_retire :
    let p := fun (k u : Nat) => begin { on with rsv := { on.rsv with retiring := [{ kind := k, unit := u, reason := 0, degrade := false, redisp := 0 }] } }
    (kindHas 3 253 = true ∧ (begin on).unitPending 3 253 = false ∧ (begin on).unitOut 3 253 = false ∧ (begin on).spareFor 3 253 = some 254) ∧
    (begin { on with rsv := { on.rsv with usedSpares := [(1, 4)] } }).spareFor 1 3 = none ∧ (kindUnit 0 95 = some (.core 11 7) ∧ (p 0 95).unitPending 0 95 = true) ∧
    (let c := begin { on.setCore 11 7 { CoreState.reset with st := .waiting } with rsv := { on.rsv with retiring := [{ kind := 0, unit := 95, reason := 0, degrade := false, redisp := 0 }] } }
     c.unitPending 0 95 = true ∧ c.holdsNone (.core 11 7) = true ∧ (sparesFor 0 95).contains 107 = true ∧ c.spareFree 0 107 = true) ∧
    (locate dramBase = .dram ∧ (begin on).rowListed dramBase = false) := by decide +kernel
theorem wit_HeadroomAndSpares_store : (((begin on).ueRecord false 4 0 0).wrF Reg.cmCtrl 0 0 0).unitOut 13 2047 = false := by decide +kernel

theorem wit_SleepAndResets_sleep :
    let cores := ((List.range 8).map fun k => (88 + k, { CoreState.reset with st := .waiting }))
    let s := { (on.wrF Reg.rsvHctrl 0 0 0).wr (Reg.pwrCl 11) 0 with cores := cores, rsv := { on.rsv with active := [0] } }
    ((begin s).clusterMaySleep 11 = true ∧ (begin (on.wrF (Reg.pwrCl 11) 3 0 0)).clusterMaySleep 0 = false) ∧ (begin (on.wrF (Reg.pwrCl 11) 3 0 2)).rdF (Reg.pwrCl 11) 3 0 = 2 ∧
    (let e := begin ((on.wr Reg.pwrEsleep 100).setEng 75 { (on.engAt 75) with st := .idle })
     e.rdF Reg.pwrEsleep 15 0 ≠ 0 ∧ e.rdB (Reg.pwrEng 75) 31 = false ∧ (e.engAt 75).st = .idle ∧ ((begin (on.setEng 75 { (on.engAt 75) with st := .sleep })).engAt 75).st = .sleep) ∧
    (let e := begin ((on.wr Reg.pwrEsleep 100).setNfe 3 { (on.nfeAt 3) with st := .idle })
     e.rdF Reg.pwrEsleep 15 0 ≠ 0 ∧ e.rdB (Reg.pwrEng 79) 31 = false ∧ (e.nfeAt 3).st = .idle ∧ e.rdB (Reg.nfeCtrl 3) 0 = false ∧ ((begin (on.setNfe 3 { (on.nfeAt 3) with st := .sleep })).nfeAt 3).st = .sleep) := by decide +kernel
theorem wit_SleepAndResets_reset :
    ((begin on).coreIn 11 7 = true ∧ (begin (on.wrF (Reg.rsvCmap 11) 31 28 15)).coreIn 11 7 = false ∧ (begin (on.wrF (Reg.rsvEmap 79) 31 31 1)).engIn 79 = false) ∧
    ((begin on).rdB Reg.pwrRst 30 = false ∧ (begin on).nw.pstate = .run ∧ (begin (on.wr Reg.pwrRst 0x40000000)).rdB Reg.pwrRst 30 = true) := by decide +kernel
theorem wit_SleepAndResets_temp :
    let cold : List Int := List.replicate 24 50
    let hot : List Int := (List.replicate 23 50) ++ [216]
    cold.length = 24 ∧ hot.length = 24 ∧ hottest hot = (23, 216) ∧ hottest cold = (0, 50) ∧ (begin on).pwr.avsFail = false ∧ (begin on).rdB Reg.sysTemp 31 = false := by decide +kernel

/-- Nightwatch on, in a state, with the sources of a mask enabled. -/
def shelf (p : PState) (mask : Byte) : State := { on with nw := { on.nw with pstate := p, wakecfg := setNth on.nw.wakecfg 0 mask } }
theorem wit_WakeAndSupply_sources :
    let b := begin (shelf .off 7)
    (b.nw.on = true ∧ b.nw.disarmed = false ∧ tb (b.nw.wakecfg.getD 0 0).toNat 0 = true ∧ b.nw.pstate = .off ∧ b.nw.link = true) ∧ ((begin (shelf .deep 7)).nw.pstate = .deep ∧ (begin (shelf .entering 7)).nw.pstate = .entering) ∧
    (tb (b.nw.wakecfg.getD 0 0).toNat 1 = true ∧ tb (b.nw.wakecfg.getD 2 0).toNat 0 = false ∧ b.nw.wsArmed = true ∧ (b.nw.wakecfg.getD 1 0).toNat ≤ 255) ∧
    (let t := begin { on with nw := { on.nw with xtal := true, wakeTick := some 9, disarmed := true } }
     t.nw.xtal = true ∧ t.nw.wakeTick = some 9 ∧ t.nw.disarmed = true) ∧ (0 < ((setNth on.nw.wakecfg 1 9).getD 1 0).toNat) := by decide +kernel
theorem wit_WakeAndSupply_up :
    ((begin State.reset).nw.on = false ∧ (begin State.reset).nw.pstate = .absent) ∧ ((begin { on with nw := { on.nw with sampled := false, pstate := .absent } }).nw.sampled = false) ∧
    ((begin on).nw.eject = false ∧ tb (begin on).policy 0 = false ∧ tb (begin on).policy 1 = false ∧ tb (begin { on with nw := { on.nw with wakecfg := setNth on.nw.wakecfg 8 3 } }).policy 1 = true) := by decide +kernel
theorem wit_WakeAndSupply_stages :
    let w := fun (n : Nat) (k : WakeKind) => begin { on with nw := { on.nw with pstate := .waking, stage := n, kind := k } }
    ((w 1 .fromDeep).nw.stage = 1 ∧ (w 1 .fromDeep).nw.wait = false ∧ (w 1 .fromDeep).nw.offReq = false ∧ (w 1 .fromDeep).nw.tries < 3) ∧ ((w 2 .fromOff).pwr.refA = true ∧ (w 2 .fromOff).pwr.refb = false) ∧
    (keepsIt (w 3 .fromDeep).nw.kind = true ∧ (w 3 .warm).retentionOk = true ∧ ({ w 3 .warm with nw := { (w 3 .warm).nw with vretLow := true } } : State).retentionOk = false) ∧
    ((w 4 .cold).rdB Reg.nwbCtrl 0 = false ∧ ((w 4 .cold).wrF Reg.nwbCtrl 0 0 1).rdB Reg.nwbCtrl 0 = true) := by decide +kernel
theorem wit_WakeAndSupply_falls :
    (let b := begin { on with nw := { on.nw with en := 0xFF, pg := 0xFF } }
     tb b.nw.en 7 = true ∧ b.nw.pstate = .run ∧ b.nw.link = true) ∧
    (let e := fun (x : Entry) => begin { shelf .entering 4 with pwr := { on.pwr with entry := x } }
     (e (.rails true false)).pwr.entry = .rails true false ∧ (e (.prep true)).isQuiet = true ∧ (e (.prep true)).dramAsleep = true ∧ (begin { tasked (aTask .waiting 3 none) with pwr := { on.pwr with entry := .prep true } }).isQuiet = false) ∧
    ((begin ((shelf .entering 4).wrF Reg.nwbStat 29 29 1)).rdB Reg.nwbStat 29 = true ∧
      (((begin ((shelf .entering 4).wrF Reg.nwbStat 29 29 1)).setAlive false 1).wrF Reg.nwbCtrl 1 1 1).rdB Reg.nwbStat 29 = true ∧ (((begin on).setAlive false 1).wrF Reg.nwbCtrl 1 1 1).rdB Reg.nwbStat 29 = false) := by decide +kernel

/-- A request waiting on SB_SMB1, in a state of the payload. -/
def shelfAsked (p : PState) (rq : List Byte) : State :=
  { on with nw := { on.nw with pstate := p, order := [1], ports := [(1, { ShelfPort.reset with req := some rq })], events := [{ code := 5, lost := false, eseq := 7, uptime := 0, data := 0 }] } }
theorem wit_ShelfPorts_bus :
    let b := begin on
    let pec := fun (bs : List Byte) => crc8 (leBytes 1 (b.smbAddr * 2) ++ [0xC0] ++ leBytes 1 bs.length ++ bs)
    (b.nw.sampled = true ∧ pec [1, 0] < 256 ∧ pec [1, 0] ≠ 0 ∧ pec (List.replicate 32 1) < 256 ∧ State.reset.nw.sampled = false) ∧ b.smbAlert = false ∧
    (begin { shelfAsked .run [1, 0] with nw := { (shelfAsked .run [1, 0]).nw with wakecfg := setNth on.nw.wakecfg 8 4 } }).smbAlert = true := by decide +kernel
theorem wit_ShelfPorts_asked :
    let rq := fun (op k : Nat) => leBytes 1 op ++ [0] ++ leBytes 2 k ++ leBytes 2 7
    let b := fun (p : PState) (op k : Nat) => begin (shelfAsked p (rq op k))
    ((b .run 1 0).nw.order = [1] ∧ ((b .run 1 0).port 1).req = some (rq 1 0) ∧ leAt (rq 2 7) 0 1 = 2 ∧ leAt (rq 2 7) 2 1 = 7 ∧ leAt (rq 5 1) 4 2 = 7) ∧
    ((b .run 2 4).fwSt = 3 ∧ (b .run 2 4).entryRefused = false ∧ (b .off 2 0).nw.pstate = .off ∧ (b .waking 2 1).nw.pstate = .waking ∧ (b .entering 2 1).nw.pstate = .entering ∧ (b .absent 2 1).nw.pstate = .absent) := by decide +kernel
theorem wit_ShelfPorts_wakecfg :
    let b := begin (shelfAsked .run (leBytes 1 3 ++ [0] ++ leBytes 2 0))
    (∃ g u, b.gpioIn = (g, u)) ∧ ∃ g u, (b.setWakecfg (leBytes 1 3 ++ [0, 1, 0])).gpioIn = (g, u) := ⟨⟨_, _, rfl⟩, ⟨_, _, rfl⟩⟩
theorem wit_ShelfPorts_barrier :
    let b := begin on
    (b.rdB Reg.nwbStat 28 = false ∧ fld (63 : Word).toNat 5 0 ≠ 0 ∧ b.nw.link = true) ∧ (b.rdF Reg.nwbRxlen 5 0 = 0 ∧ (begin (on.wr Reg.nwbRxlen 9)).rdF Reg.nwbRxlen 5 0 ≠ 0) ∧ (begin (on.wrF Reg.nwbStat 28 28 1)).rdB Reg.nwbStat 28 = true := by decide +kernel

theorem wit_CensusAndFlash_tick :
    let s := on.wr Reg.cenCtrl 0x80000001
    let b := begin s
    (b.rdB Reg.cenCtrl 31 = true ∧ (b.until (b.cen.next * 2 ^ 32)).cen.record = none ∧ ((begin { s with cen := { s.cen with record := some ⟨[]⟩ } }).until (b.cen.next * 2 ^ 32)).cen.record.isSome = true) ∧
    (begin on).rdB Reg.cenCtrl 31 = false ∧ msorted 0 b.cen.vals = true ∧ extremeKey 0 = false := by decide +kernel
theorem wit_CensusAndFlash_record :
    let r : List Byte := [1, 2, 3, 4, 5, 6, 7, 8, 9, 10, 11, 12]
    let s := fun (ci : Nat) => { (on.wr Reg.cenRingHi 0x10).wr Reg.cenCi ci with cen := { on.cen with record := some ⟨r⟩ } }
    let b := begin (s 0)
    (b.cen.record = some ⟨r⟩ ∧ (b.rd Reg.cenPi + 2 ^ 32 - b.rd Reg.cenCi) % 2 ^ 32 + r.length ≤ b.cenRing.2 ∧ b.rd Reg.cenPi % b.cenRing.2 + r.length ≤ b.cenRing.2 ∧ b.cen.lostFlag = false ∧ b.fw.cenHost = 0) ∧
    ((b.memWrite (b.cenRing.1 + b.rd Reg.cenPi % b.cenRing.2) r).1 = .ok ∧ (b.memWrite (b.cenRing.1 + b.rd Reg.cenPi % b.cenRing.2) r).2.fw = b.fw) ∧
    (let c := begin (s 1)
     c.cenRing.2 < (c.rd Reg.cenPi + 2 ^ 32 - c.rd Reg.cenCi) % 2 ^ 32 + r.length) := by decide +kernel
theorem wit_CensusAndFlash_spi :
    let x : SpiTxn := { write := false, quad := false, alen := 3, addr := 0, dummy := 0, len := 4, opcode := 3 }
    ((begin on).fwSt ≠ 1 ∧ (begin on).sec.spi = none ∧ (begin (on.wr Reg.mbxFwstate 1)).fwSt = 1) ∧ (begin { on with sec := { on.sec with spi := some x } }).sec.spi = some x ∧
    (begin { on with sec := { on.sec with spi := some { x with write := true, opcode := 6 } } }).sec.spi = some { x with write := true, opcode := 6 } := by decide +kernel

end Sys2Proof.Tests
end

section
/-! Fields of a register bit by bit, and the number that little-endian bytes spell. -/

namespace Sys2Proof.Machine

/-! ### Bit fields -/

theorem testBit_fld (v hi lo n : Nat) : (fld v hi lo).testBit n = (decide (n < hi + 1 - lo) && v.testBit (lo + n)) := by
  rw [fld, Nat.testBit_mod_two_pow, Nat.testBit_shiftRight]

/-- A replaced field has the new bits inside [hi:lo] and the old ones outside. -/
theorem testBit_setFld (v : Nat) {hi lo : Nat} (h : lo ≤ hi) (x n : Nat) :
    (setFld v hi lo x).testBit n = if lo ≤ n ∧ n ≤ hi then x.testBit (n - lo) else v.testBit n := by
  obtain ⟨w, hw⟩ : ∃ w, hi + 1 = lo + w := ⟨hi + 1 - lo, by omega⟩
  have hlow : v % 2 ^ lo < 2 ^ lo := Nat.mod_lt _ (Nat.two_pow_pos lo)
  have hmid : 2 ^ lo * (x % 2 ^ w) + v % 2 ^ lo < 2 ^ (lo + w) := by
    calc 2 ^ lo * (x % 2 ^ w) + v % 2 ^ lo
        < 2 ^ lo * (x % 2 ^ w) + 2 ^ lo := Nat.add_lt_add_left hlow _
      _ = 2 ^ lo * (x % 2 ^ w + 1) := (Nat.mul_succ _ _).symm
      _ ≤ 2 ^ lo * 2 ^ w := Nat.mul_le_mul_left _ (Nat.mod_lt _ (Nat.two_pow_pos w))
      _ = 2 ^ (lo + w) := (Nat.pow_add 2 lo w).symm
  have hsum : setFld v hi lo x = 2 ^ (lo + w) * (v >>> (lo + w)) + (2 ^ lo * (x % 2 ^ w) + v % 2 ^ lo) := by
    rw [setFld, show hi + 1 - lo = w by omega, hw, Nat.shiftLeft_eq, Nat.shiftLeft_eq]
    ac_rfl
  rw [hsum, Nat.testBit_two_pow_mul_add _ hmid, Nat.testBit_two_pow_mul_add _ hlow, Nat.testBit_mod_two_pow, Nat.testBit_mod_two_pow,
    Nat.testBit_shiftRight]
  rcases Nat.lt_or_ge n lo with hn | hn
  · rw [if_pos (by omega), if_pos hn, if_neg (by omega), decide_eq_true hn, Bool.true_and]
  · rcases Nat.lt_or_ge hi n with hn' | hn'
    · rw [if_neg (by omega), if_neg (by omega), Nat.add_sub_cancel' (by omega)]
    · rw [if_pos (by omega), if_neg (by omega), if_pos ⟨hn, hn'⟩, decide_eq_true (by omega : n - lo < w), Bool.true_and]

/-- The field that was replaced reads as the new value cut to its width, also in a register of 32 bits. -/
theorem fld_setFld (v : Nat) {hi lo : Nat} (h : lo ≤ hi) (h32 : hi < 32) (x : Nat) :
    fld (setFld v hi lo x % 2 ^ 32) hi lo = x % 2 ^ (hi + 1 - lo) := by
  refine Nat.eq_of_testBit_eq fun n => ?_
  rw [testBit_fld, Nat.testBit_mod_two_pow, testBit_setFld v h, Nat.testBit_mod_two_pow]
  by_cases hn : n < hi + 1 - lo
  · rw [if_pos (by omega), Nat.add_sub_cancel_left, decide_eq_true (by omega : lo + n < 32), Bool.true_and]
  · rw [decide_eq_false hn, Bool.false_and, Bool.false_and]

/-- A register holds 32 bits. -/
theorem rd_lt (s : State) (off : Nat) : s.rd off < 2 ^ 32 := BitVec.isLt _

theorem rdB_wrF_outside {s : State} (hr : RegInv s) (off : Nat) {hi lo : Nat} (h : lo ≤ hi) (v : Nat) {n : Nat} (hn : n < lo ∨ hi < n) :
    (s.wrF off hi lo v).rdB off n = s.rdB off n := by
  show ((s.wr off _).rd off).testBit n = (s.rd off).testBit n
  rw [rd_wr_same hr, Nat.testBit_mod_two_pow, testBit_setFld _ h, if_neg (by omega), ← Nat.testBit_mod_two_pow, Nat.mod_eq_of_lt (rd_lt s off)]

theorem rdF_wrF_same {s : State} (hr : RegInv s) (off : Nat) {hi lo : Nat} (h : lo ≤ hi) (h32 : hi < 32) (v : Nat) :
    (s.wrF off hi lo v).rdF off hi lo = v % 2 ^ (hi + 1 - lo) := by
  show fld ((s.wr off _).rd off) hi lo = _
  rw [rd_wr_same hr, fld_setFld _ h h32]

/-- A field that is the whole register. -/
theorem setFld_whole {old x : Nat} (ho : old < 2 ^ 32) (hx : x < 2 ^ 32) : setFld old 31 0 x = x := by
  simp only [setFld, Nat.shiftRight_eq_div_pow, Nat.shiftLeft_eq]
  omega

/-- Bits 11:0 of HWBASE_LO are no writable bits. -/
theorem setFld_page {v : Nat} (hv : v < 2 ^ 32) : setFld 0 31 12 (fld v 31 12) = v / 4096 * 4096 := by
  simp only [setFld, fld, Nat.shiftRight_eq_div_pow, Nat.shiftLeft_eq]
  omega

/-! ### Bytes -/

theorem ofLe_leBytes (n v : Nat) : ofLe (leBytes n v) = v % 256 ^ n := by
  induction n generalizing v with
  | zero => rw [Nat.pow_zero, Nat.mod_one]; rfl
  | succ n ih =>
    show (BitVec.ofNat 8 v).toNat + 256 * ofLe (leBytes n (v / 256)) = _
    rw [ih, BitVec.toNat_ofNat, show 256 ^ (n + 1) = 256 * 256 ^ n from Nat.pow_succ']
    exact Nat.mod_mul.symm

theorem ofLe_leBytes_four (v : Nat) : ofLe (leBytes 4 v) = v % 2 ^ 32 := ofLe_leBytes 4 v

/-! ### A LO/HI pair (R8) -/

/-- The registers once a held LO value has been committed with HI. -/
theorem rd_commit {s : State} (h : RegInv s) {lo hi : Nat} (hne : lo ≠ hi) (w : Word) {v : Nat} (hv : v < 2 ^ 32) :
    ((s.wr lo w.toNat).wr hi v).rd lo = w.toNat ∧ ((s.wr lo w.toNat).wr hi v).rd hi = v ∧
      ∀ o, o ≠ lo → o ≠ hi → ((s.wr lo w.toNat).wr hi v).rd o = s.rd o := by
  have hlo : RegInv (s.wr lo w.toNat) := wr_regInv h lo _
  refine ⟨?_, ?_, fun o h1 h2 => ?_⟩
  · rw [rd_wr_ne hlo hne, rd_wr_same h, Nat.mod_eq_of_lt w.isLt]
  · rw [rd_wr_same hlo, Nat.mod_eq_of_lt hv]
  · rw [rd_wr_ne hlo h2, rd_wr_ne h h1]

end Sys2Proof.Machine
end

section
/-! An access of CSR space as a command, by its initiator (R4 to R8, R20 to R22): what it lands as, and what it is told of an error. -/

namespace Sys2Proof.Machine

/-! ### A register access as a command -/

/-- A register access of a powered payload whose access leaves `t`: both writes answer it with the queue as it was. -/
theorem exec_writes {i : Init} {s t : State} {sp : Space} {a n v : Nat} (hi : i.wf = true) (hu : s.pwr.up = true)
    (h : (begin s).accessCmd i sp a n (some v) = t) :
    exec (.registerWrite i sp a n v) s = .next { t with pending := s.pending } ∧
      exec (.hiWriteCommit i sp a n v) s = .next { t with pending := s.pending } := by
  subst h
  exact ⟨otpCmd_live hi hu _, otpCmd_live hi hu _⟩

/-- Both reads answer what the access leaves. -/
theorem exec_reads {i : Init} {s t : State} {sp : Space} {a n : Nat} (hi : i.wf = true) (hu : s.pwr.up = true)
    (h : (begin s).accessCmd i sp a n none = t) :
    exec (.rcCounterRead i sp a n) s = .next (after s t) ∧ exec (.loReadLatch i sp a n) s = .next (after s t) := by
  subst h
  exact ⟨pcmd_next hi hu _, pcmd_next hi hu _⟩

theorem reaches_csr {s : State} {i : Init} {off : Nat} (h : off < 0x10000000) (hr : i = .host → s.pcie.link = true ∧ s.d3hot = false) :
    s.reaches i .dev (0x20000000 + off) = true := by
  cases i with
  | host =>
    obtain ⟨hl, hd⟩ := hr rfl
    simp only [State.reaches, hl, hd, inCsr_off h, Bool.not_false, Bool.and_self, Bool.true_or]
  | _ => rfl

section
variable (s : State) {off : Nat} (h : off < 0x10000000) (n : Nat) (d : Option Nat)
include h

/-- What stands before every access of CSR space lets it pass. -/
theorem csr_passes {i : Init} (hr : i = .host → s.pcie.link = true ∧ s.d3hot = false) :
    (!s.reaches i .dev (0x20000000 + off) || (Space.dev == .dev && s.dramWaits d.isSome (0x20000000 + off) (min n 64))) = false := by
  rw [reaches_csr h hr, dramWaits_csr s h]
  rfl

theorem accessCmd_host (hr : s.pcie.link = true ∧ s.d3hot = false) :
    s.accessCmd .host .dev (0x20000000 + off) n d = (s.issueCmd .host .dev (0x20000000 + off) n d).2 := by
  unfold State.accessCmd
  rw [csr_passes s h n d fun _ => hr]
  rfl

theorem accessCmd_dsp (c k : Nat) :
    s.accessCmd (.dsp c k) .dev (0x20000000 + off) n d =
      s.coreTells c k d.isSome (0x20000000 + off) n fun s => s.issueCmd (.dsp c k) .dev (0x20000000 + off) n d := by
  unfold State.accessCmd
  rw [csr_passes s h n d (i := .dsp c k) nofun]
  rfl

theorem accessCmd_dct (ch : Nat) :
    s.accessCmd (.dct ch) .dev (0x20000000 + off) n d =
      (s.issueCmd (.dct ch) .dev (0x20000000 + off) n d).2.channelTold ch d.isSome (0x20000000 + off)
        (s.issueCmd (.dct ch) .dev (0x20000000 + off) n d).1 := by
  unfold State.accessCmd
  rw [csr_passes s h n d (i := .dct ch) nofun]
  rfl

theorem accessCmd_eng (e : Nat) :
    s.accessCmd (.eng e) .dev (0x20000000 + off) n d =
      (s.issueCmd (.eng e) .dev (0x20000000 + off) n d).2.engineTold e (0x20000000 + off)
        (s.issueCmd (.eng e) .dev (0x20000000 + off) n d).1 := by
  unfold State.accessCmd
  rw [csr_passes s h n d (i := .eng e) nofun]
  rfl

/-- Engines reach no CSR space (R184). -/
theorem refusedTo_eng (e : Nat) : refusedTo (.eng e) (0x20000000 + off) = true := by
  unfold refusedTo
  rw [locate_csr h]

theorem issueCmd_eng_write (e v : Nat) :
    s.issueCmd (.eng e) .dev (0x20000000 + off) n (some v) = (.err, s.aerr (.eng e) 4 true false (0x20000000 + off)) := by
  have hb : ∀ bs, s.busWrite (.eng e) (0x20000000 + off) bs = (.err 4, s.aerr (.eng e) 4 true false (0x20000000 + off)) := by
    intro bs
    unfold State.busWrite
    rw [refusedTo_eng h e, if_pos rfl]
  unfold State.issueCmd
  simp only [hb]

theorem issueCmd_eng_read (e : Nat) :
    s.issueCmd (.eng e) .dev (0x20000000 + off) n none = (.err, (s.aerr (.eng e) 4 false false (0x20000000 + off)).emit (.value 0)) := by
  have hb : ∀ n, s.busRead (.eng e) (0x20000000 + off) n = (.err 4, s.aerr (.eng e) 4 false false (0x20000000 + off)) := by
    intro n
    unfold State.busRead
    rw [refusedTo_eng h e, if_pos rfl]
  unfold State.issueCmd
  simp only [hb]

theorem issueCmd_closed_write {ch : Nat} (hc : csrOpen ch (s.dctAt ch).desc = false) (v : Nat) :
    s.issueCmd (.dct ch) .dev (0x20000000 + off) n (some v) = (.err, s.aerr (.dct ch) 4 true false (0x20000000 + off)) := by
  unfold State.issueCmd State.dctWrite
  simp only [inCsr_off h, hc, Bool.not_false, Bool.and_self, if_true]

theorem issueCmd_closed_read {ch : Nat} (hc : csrOpen ch (s.dctAt ch).desc = false) :
    s.issueCmd (.dct ch) .dev (0x20000000 + off) n none = (.err, (s.aerr (.dct ch) 4 false false (0x20000000 + off)).emit (.value 0)) := by
  unfold State.issueCmd State.dctRead
  simp only [inCsr_off h, hc, Bool.not_false, Bool.and_self, if_true]

/-- A port of Trellis writes no CSR space (R400). -/
theorem accessCmd_trl_write (v : Nat) :
    s.accessCmd .trl .dev (0x20000000 + off) n (some v) =
      ((s.portOf (0x20000000 + off) true).2.aerr .trl (if n = 4 then 4 else 2) true false (0x20000000 + off)).portError
        (s.portOf (0x20000000 + off) true).1 (0x20000000 + off) := by
  unfold State.accessCmd
  rw [csr_passes s h n (some v) (i := .trl) nofun]
  simp only [Bool.false_eq_true, if_false, Option.isSome_some, if_true, State.memPortDo, inCsr_off h]

end

/-! ### A running core's access (R140) -/

section
variable {s : State} {c k : Nat} (hrun : (s.core c k).st = .running) (write : Bool) (a n : Nat) (go : State → Told × State)
include hrun

theorem coreTells_aerr {f : CoreFault} {kind : Nat}
    (hf : (s.free 2).2.agFault ((s.free 2).2.core c k) c k (coreAccess (2 + (s.free 2).1) write a n) = some (f, some kind)) :
    s.coreTells c k write a n go = ((s.free 2).2.aerr (.dsp c k) kind write false f.addr).coreFault c k f := by
  unfold State.coreTells
  rw [if_neg (not_not_intro hrun)]
  dsimp only
  rw [hf]

theorem coreTells_fault {f : CoreFault}
    (hf : (s.free 2).2.agFault ((s.free 2).2.core c k) c k (coreAccess (2 + (s.free 2).1) write a n) = some (f, none)) :
    s.coreTells c k write a n go = (s.free 2).2.coreFault c k f := by
  unfold State.coreTells
  rw [if_neg (not_not_intro hrun)]
  dsimp only
  rw [hf]

theorem coreTells_ok {t : State}
    (hf : (s.free 2).2.agFault ((s.free 2).2.core c k) c k (coreAccess (2 + (s.free 2).1) write a n) = none) (hg : go (s.free 2).2 = (.ok, t)) :
    s.coreTells c k write a n go = t := by
  unfold State.coreTells
  rw [if_neg (not_not_intro hrun)]
  dsimp only
  rw [hf, hg]

end

/-! ### Register writes -/

section
variable {s : State} {i : Init} {off : Nat} (h : off < 0x10000000) (hp : s.plainInit i = true)
  (hr : i = .host → s.pcie.link = true ∧ s.d3hot = false) (v : Nat)
include h hp hr

theorem accessCmd_csr_lands (ha : off % 4 = 0) (hw : s.writeRefused i off = false) :
    s.accessCmd i .dev (0x20000000 + off) 4 (some v) = s.regWrite i off (v % 2 ^ 32) := by
  rw [accessCmd_csr_write h 4 v hp hr, csrWrite_lands s i v rfl ha hw, ofLe_leBytes_four]

theorem accessCmd_csr_refused (ha : off % 4 = 0) (hw : s.writeRefused i off = true) :
    s.accessCmd i .dev (0x20000000 + off) 4 (some v) =
      (s.aerr i 4 true false (0x20000000 + off)).toldErr i true (0x20000000 + off) := by
  rw [accessCmd_csr_write h 4 v hp hr, csrWrite_refused s i v rfl ha hw]

theorem accessCmd_csr_wrong {n : Nat} (hn : off % 4 ≠ 0 ∨ min n 64 ≠ 4) :
    s.accessCmd i .dev (0x20000000 + off) n (some v) =
      (s.aerr i 2 true false (0x20000000 + off)).toldErr i true (0x20000000 + off) := by
  rw [accessCmd_csr_write h n v hp hr, csrWrite_wrong s i v hn]

end

/-- A core's write of CSR space, once AG has found nothing in it. -/
theorem issueCmd_dsp_lands {s : State} {c k off : Nat} (h : off < 0x10000000) (v : Nat) (ha : off % 4 = 0)
    (hw : s.writeRefused (.dsp c k) off = false) :
    s.issueCmd (.dsp c k) .dev (0x20000000 + off) 4 (some v) = (.ok, s.regWrite (.dsp c k) off (v % 2 ^ 32)) := by
  rw [issueCmd_csr s _ h 4 v (.inr ⟨c, k, rfl⟩), csrWrite_lands s _ v rfl ha hw, ofLe_leBytes_four]

/-- The mailbox pages through BAR4/5 (R27). -/
theorem accessCmd_bar45_lands {s : State} {off : Nat} (h : off < 0x40000) (v : Nat) (ha : off % 4 = 0) (hl : s.pcie.link = true)
    (hd : s.d3hot = false) (hw : s.writeRefused .host (0x100000 + off) = false) :
    s.accessCmd .host .bar45 off 4 (some v) = s.regWrite .host (0x100000 + off) (v % 2 ^ 32) := by
  have hreach : s.reaches .host .bar45 off = true := by
    simp only [State.reaches, hl, hd, Bool.not_false, Bool.and_self, Bool.true_and, decide_eq_true_eq]
    omega
  have hcsr : s.csrWrite .host (0x20100000 + off) (leBytes 4 v) = (.ok, s.regWrite .host (0x100000 + off) (v % 2 ^ 32)) := by
    rw [← ofLe_leBytes_four, show 0x20100000 + off = 0x20000000 + (0x100000 + off) by omega]
    exact csrWrite_lands (n := 4) s .host v rfl (by omega) hw
  have hstore : s.store .host .bar45 off (leBytes 4 v) = (.ok, s.regWrite .host (0x100000 + off) (v % 2 ^ 32)) := by
    unfold State.store State.bar45Write
    rw [if_pos h, hcsr]
  unfold State.accessCmd State.issueCmd
  rw [hreach]
  simp only [show s.accessSize .host .bar45 off 4 = 4 from rfl, hstore]
  rfl

/-! ### Register reads -/

theorem accessSize_csr (s : State) (i : Init) {off : Nat} (h : off < 0x10000000) (n : Nat) :
    s.accessSize i .dev (0x20000000 + off) n = min n 64 := by
  cases i with
  | host => exact if_pos (inCsr_off h)
  | _ => rfl

theorem csrRead_wrong (s : State) (i : Init) {off n : Nat} (hn : off % 4 ≠ 0 ∨ n ≠ 4) :
    s.csrRead i (0x20000000 + off) n = (.err 2, s.aerr i 2 false false (0x20000000 + off)) := by
  unfold State.csrRead
  rw [if_pos (by omega)]

theorem coreTells_idle {s : State} {c k : Nat} (hidle : (s.core c k).st ≠ .running) (write : Bool) (a n : Nat) (go : State → Told × State) :
    s.coreTells c k write a n go = (go s).2 := if_pos hidle

section
variable {s : State} {i : Init} {off : Nat} (h : off < 0x10000000) (hp : s.plainInit i = true)
include h hp

/-- A read of CSR space of another size, or not aligned (R7): the outside is given zero. -/
theorem issueCmd_csr_read_wrong {n : Nat} (hn : off % 4 ≠ 0 ∨ min n 64 ≠ 4) :
    s.issueCmd i .dev (0x20000000 + off) n none = (.err, (s.aerr i 2 false false (0x20000000 + off)).emit (.value 0)) := by
  have hd : ∀ i, s.devRead i (0x20000000 + off) (min n 64) = (.err 2, s.aerr i 2 false false (0x20000000 + off)) := fun i =>
    (devRead_csr s i h _).trans (csrRead_wrong s i hn)
  unfold State.issueCmd
  rw [accessSize_csr s i h]
  cases i with
  | eng e => cases hp
  | trl => cases hp
  | dct ch =>
    have hopen : csrOpen ch (s.dctAt ch).desc = true := hp
    simp only [State.dctRead, hopen, Bool.not_true, Bool.and_false, Bool.false_eq_true, if_false, hd]
  | _ => simp only [State.access, hd]

theorem accessCmd_csr_read_wrong (hr : i = .host → s.pcie.link = true ∧ s.d3hot = false) {n : Nat} (hn : off % 4 ≠ 0 ∨ min n 64 ≠ 4) :
    s.accessCmd i .dev (0x20000000 + off) n none =
      ((s.aerr i 2 false false (0x20000000 + off)).emit (.value 0)).toldErr i false (0x20000000 + off) := by
  have hi := issueCmd_csr_read_wrong h hp hn
  cases i with
  | eng e => cases hp
  | trl => cases hp
  | host => rw [accessCmd_host s h n none (hr rfl), hi]; rfl
  | dsp c k => rw [accessCmd_dsp s h, coreTells_idle (of_decide_eq_true hp), hi]; rfl
  | dct ch => rw [accessCmd_dct s h, hi]; rfl
  | _ =>
    unfold State.accessCmd
    rw [csr_passes s h n none hr, hi]
    rfl

end

/-- A port of Trellis reads a register (R400). -/
theorem accessCmd_trl_read (s : State) {off : Nat} (h : off < 0x10000000) (ha : off % 4 = 0) :
    s.accessCmd .trl .dev (0x20000000 + off) 4 none =
      ((s.portOf (0x20000000 + off) false).2.regRead .trl off).2.emit
        (.value (ofLe (leBytes 4 ((s.portOf (0x20000000 + off) false).2.regRead .trl off).1))) := by
  unfold State.accessCmd
  rw [csr_passes s h 4 none (i := .trl) nofun]
  simp only [Bool.false_eq_true, if_false, Option.isSome_none, State.memPortDo, devRead_csr _ _ h, csrRead_reads _ _ ha]

/-- Naming the port of an access draws at most one free value. -/
theorem portOf_fresh (s : State) (a : Nat) (write : Bool) : ∃ f, (s.portOf a write).2 = { s with fresh := f } := by
  unfold State.portOf
  split
  · exact ⟨_, rfl⟩
  · exact ⟨_, rfl⟩

end Sys2Proof.Machine
end

section
/-! The registers that the statements of the access rules name: `SYS.AERR_CNT`, `PCIE.HWBASE`, and the Reset values of the tables. -/

namespace Sys2Proof.Machine

/-! ### `SYS.AERR_CNT` (R22) -/

theorem regRead_aerrCnt (s : State) (i : Init) :
    s.regRead i Reg.sysAerrCnt = (s.rd Reg.sysAerrCnt, s.wr Reg.sysAerrCnt 0) := by
  have hfind : findReg Reg.sysAerrCnt = some (⟨0x10C, [], 0, true, [⟨31, 0, .rc, .c 0⟩]⟩, []) := rfl
  have hclear : RegRow.cleared ⟨0x10C, [], 0, true, [⟨31, 0, .rc, .c 0⟩]⟩ (s.rd Reg.sysAerrCnt) = 0 :=
    setFld_whole (rd_lt s _) (Nat.two_pow_pos 32)
  unfold State.regRead
  rw [hfind]
  show (s.rd Reg.sysAerrCnt, s.wr Reg.sysAerrCnt (RegRow.cleared _ (s.rd Reg.sysAerrCnt))) = _
  rw [hclear]

/-- What reading the count at a state that differs from the command's by free values drawn leads to. -/
theorem leads_aerrCnt {s : State} (hr : RegInv s) {i : Instr} {j : Init} {u : State} (hu : ∃ f, u = { begin s with fresh := f })
    (hx : exec i s = .next (after s ((u.regRead j Reg.sysAerrCnt).2.emit (.value (ofLe (leBytes 4 (u.regRead j Reg.sysAerrCnt).1)))))) :
    Leads i s fun t =>
      t.out = [.value (s.rd Reg.sysAerrCnt)] ∧ t.rd Reg.sysAerrCnt = 0 ∧ t.mem = s.mem ∧ t.mbx = s.mbx ∧ t.cm = s.cm ∧
        ∀ o, o ≠ Reg.sysAerrCnt → t.rd o = s.rd o := by
  obtain ⟨f, rfl⟩ := hu
  rw [regRead_aerrCnt, ofLe_leBytes_four, Nat.mod_eq_of_lt (rd_lt _ _)] at hx
  refine ⟨_, hx, rfl, ?_, rfl, rfl, rfl, fun o ho => ?_⟩
  · show (({ begin s with fresh := f } : State).wr Reg.sysAerrCnt 0).rd Reg.sysAerrCnt = 0
    exact rd_wr_same hr _ 0
  · show (({ begin s with fresh := f } : State).wr Reg.sysAerrCnt 0).rd o = s.rd o
    exact rd_wr_ne (s := { begin s with fresh := f }) hr ho 0

/-! ### The pair `PCIE.HWBASE` (R8, R28) -/

theorem findReg_hwbaseLo : findReg Reg.pcieHwbaseLo = some (⟨0x1600010, [], 1, true, [⟨31, 12, .rw, .c 0⟩]⟩, []) := rfl

theorem findReg_hwbaseHi : findReg Reg.pcieHwbaseHi = some (⟨0x1600014, [], 2, true, [⟨31, 0, .rw, .c 0⟩]⟩, []) := rfl

theorem pair_setPair_same {s : State} (h : msorted 0 s.pairs = true) (i : Init) (x : PairSt) : (s.setPair i x).pair i = x :=
  mget_mput_same _ _ x h

theorem regWrite_hwbaseLo (s : State) (i : Init) {v : Nat} (hv : v < 2 ^ 32) :
    s.regWrite i Reg.pcieHwbaseLo v =
      s.setPair i { s.pair i with held := some (Reg.pcieHwbaseLo, BitVec.ofNat 32 (v / 4096 * 4096)) } := by
  unfold State.regWrite
  rw [findReg_hwbaseLo, ← setFld_page hv]
  rfl

theorem regWrite_hwbaseHi {s : State} {i : Init} {w : Word} (hh : (s.pair i).held = some (Reg.pcieHwbaseLo, w)) {v : Nat} (hv : v < 2 ^ 32) :
    s.regWrite i Reg.pcieHwbaseHi v =
      ((s.setPair i { s.pair i with held := none }).wr Reg.pcieHwbaseLo w.toNat).wr Reg.pcieHwbaseHi v := by
  have htake : s.takeLo i Reg.pcieHwbaseLo = (s.setPair i { s.pair i with held := none }).wr Reg.pcieHwbaseLo w.toNat := by
    unfold State.takeLo
    rw [hh]
    rfl
  have hwhole : ∀ old, old < 2 ^ 32 → setFld old 31 0 (fld v 31 0) = v := fun old ho => by
    rw [show fld v 31 0 = v from Nat.mod_eq_of_lt hv]
    exact setFld_whole ho hv
  unfold State.regWrite
  rw [findReg_hwbaseHi]
  show (s.takeLo i Reg.pcieHwbaseLo).wr Reg.pcieHwbaseHi (setFld _ 31 0 (fld v 31 0)) = _
  rw [hwhole _ (rd_lt _ _), htake]

theorem regRead_hwbaseLo (s : State) (i : Init) :
    s.regRead i Reg.pcieHwbaseLo =
      (s.rd Reg.pcieHwbaseLo, s.setPair i { s.pair i with latch := some (Reg.pcieHwbaseHi, BitVec.ofNat 32 (s.rd Reg.pcieHwbaseHi)) }) := by
  unfold State.regRead
  rw [findReg_hwbaseLo]
  rfl

/-- The host and the control cores may write both registers of the pair (R29). -/
theorem writeRefused_hwbase (s : State) {i : Init} (hi : i = .host ∨ ∃ k, i = .ctl k) :
    s.writeRefused i Reg.pcieHwbaseLo = false ∧ s.writeRefused i Reg.pcieHwbaseHi = false := by
  rcases hi with rfl | ⟨k, rfl⟩
  · exact ⟨rfl, rfl⟩
  · exact ⟨rfl, rfl⟩

/-- The initiators of the pair's statement exist, and nothing stands before their accesses. -/
theorem hwbase_initiator {i : Init} {s : State} (h : i = .host ∧ s.pcie.link = true ∧ s.d3hot = false ∨ ∃ k, i = .ctl k ∧ k < 4) :
    i.wf = true ∧ s.plainInit i = true ∧ (i = .host → s.pcie.link = true ∧ s.d3hot = false) ∧ (i = .host ∨ ∃ k, i = .ctl k) := by
  rcases h with ⟨rfl, hl⟩ | ⟨k, rfl, hk⟩
  · exact ⟨rfl, rfl, fun _ => hl, .inl rfl⟩
  · exact ⟨decide_eq_true hk, rfl, nofun, .inr ⟨k, rfl⟩⟩

/-! ### Reset values: each table's rows looked up for every unit that they stand for -/

theorem reset_mbxCtrl : ∀ m, m < 64 → State.reset.rd (Reg.mbxCtrl m) = bn (m == 0) * 2 ^ 30 + 2 ^ 12 + 2 + m := by decide +kernel
theorem reset_cmWm : ∀ p, p < 16 → State.reset.rd (Reg.cmWm p) = 4096 * p := by decide +kernel
theorem reset_cmCpFlowCfg : ∀ i, i < 4 → State.reset.rd (Reg.cmCpFlowCfg i) = 0xF * 2 ^ 24 + 2 ^ 18 := by decide +kernel
theorem reset_rsvCmap : ∀ c, c < 12 → State.reset.rd (Reg.rsvCmap c) = 0x76543210 := by decide +kernel
theorem reset_rsvEmap : ∀ e, e < 80 → State.reset.rd (Reg.rsvEmap e) = e := by decide +kernel
theorem reset_laneMode : ∀ g, g < 16 → ∀ l, l < 17 → ¬(g = 15 ∧ l = 16) →
    State.reset.rdF (Reg.laneCtrl g l) 31 28 = if g = 15 then 7 else 0 := by decide +kernel
theorem reset_mrdTlUlMaskLo : ∀ c, c < 384 → State.reset.rd (Reg.mrdTlUlMaskLo c) = 0xFFFFFFFF := by decide +kernel

end Sys2Proof.Machine
end

section
/-! The obligations on register accesses and on the state after reset. -/

namespace Sys2Proof.Machine

/-- Settles O9: every initiator's access of CSR space comes down to one write of a register, or to one access error and what is told of it. -/
theorem registerWriteLands : Obligations.RegisterWriteLands := by
  intro i off n v s hi hu hr h b a both
  refine ⟨fun hp => ⟨fun ha hw => ?_, fun ha hw => ?_, fun hn => ?_⟩, ?_, ?_, ?_, ?_, ?_⟩
  · exact exec_writes hi hu (accessCmd_csr_lands h hp hr v ha hw)
  · exact exec_writes hi hu (accessCmd_csr_refused h hp hr v ha hw)
  · exact exec_writes hi hu (accessCmd_csr_wrong h hp hr v hn)
  · rintro e rfl
    exact exec_writes hi hu (by rw [accessCmd_eng b h, issueCmd_eng_write b h])
  · rintro ch rfl hc
    exact exec_writes hi hu (by rw [accessCmd_dct b h, issueCmd_closed_write b h n hc]; rfl)
  · rintro rfl
    exact exec_writes hi hu (accessCmd_trl_write b h n v)
  · rintro c k rfl hrun
    refine ⟨fun f kind hf => ?_, fun f hf => ?_, fun hf ha hw => ?_⟩
    · exact exec_writes hi hu ((accessCmd_dsp b h n (some v) c k).trans (coreTells_aerr hrun true a n _ hf))
    · exact exec_writes hi hu ((accessCmd_dsp b h n (some v) c k).trans (coreTells_fault hrun true a n _ hf))
    · exact exec_writes hi hu ((accessCmd_dsp b h 4 (some v) c k).trans (coreTells_ok hrun true a 4 _ hf (issueCmd_dsp_lands h v ha hw)))
  · intro h' ha hl hd hw
    exact (exec_writes (i := .host) rfl hu (accessCmd_bar45_lands h' v ha hl hd hw)).1

/-- Settles O10: a write of LO holds, a write of HI commits both halves, a read of LO latches HI. -/
theorem pairCommit : Obligations.PairCommit := by
  intro i x y s hinit hu hreg hpairs lo hi
  obtain ⟨hwf, hp, hr, hwho⟩ := hwbase_initiator (s := begin s) hinit
  obtain ⟨hwlo, hwhi⟩ := writeRefused_hwbase (begin s) hwho
  have hpw : msorted 0 s.pairs = true := mwf_sorted hpairs
  have hcut : ∀ v, v % 2 ^ 32 < 2 ^ 32 := fun v => Nat.mod_lt v (Nat.two_pow_pos 32)
  have hlo : lo < 0x10000000 := by decide
  have hhi : hi < 0x10000000 := by decide
  refine ⟨?_, fun w hw => ?_, ?_⟩
  · have hacc := accessCmd_csr_lands hlo hp hr x (by decide) hwlo
    rw [regWrite_hwbaseLo _ i (hcut x)] at hacc
    exact ⟨_, (exec_writes hwf hu hacc).1, rfl, rfl, congrArg PairSt.held (pair_setPair_same (s := begin s) hpw i _)⟩
  · have hacc := accessCmd_csr_lands hhi hp hr y (by decide) hwhi
    rw [regWrite_hwbaseHi (s := begin s) hw (hcut y)] at hacc
    obtain ⟨hrdlo, hrdhi, hrd⟩ := rd_commit (s := (begin s).setPair i { s.pair i with held := none }) hreg (show lo ≠ hi by decide) w (hcut y)
    exact ⟨_, (exec_writes hwf hu hacc).2, hrdlo, hrdhi, congrArg PairSt.held (pair_setPair_same (s := begin s) hpw i _), rfl, hrd⟩
  · have hacc := accessCmd_csr_read hlo (by decide) hp hr
    rw [regRead_hwbaseLo, ofLe_leBytes_four, Nat.mod_eq_of_lt (rd_lt _ _)] at hacc
    refine ⟨_, (exec_reads hwf hu hacc).2, rfl, rfl, rfl, ?_⟩
    exact congrArg PairSt.latch (pair_setPair_same (s := begin s) hpw i { s.pair i with latch := some (hi, BitVec.ofNat 32 (s.rd hi)) })

/-- Settles O11: every initiator's read of CSR space comes down to one `regRead` or one access error, and `regRead` clears the count. -/
theorem rcCounterClears : Obligations.RcCounterClears := by
  intro i s hi hu hr hreg b c clears
  have hcnt : Reg.sysAerrCnt < 0x10000000 := by decide
  have hal : Reg.sysAerrCnt % 4 = 0 := rfl
  refine ⟨?_, ?_, ?_, ?_, ?_⟩
  · intro o n hp ho a both
    refine ⟨fun ha => ?_, fun hn => ?_⟩
    · exact exec_reads hi hu (by rw [accessCmd_csr_read ho ha hp hr, ofLe_leBytes_four])
    · exact exec_reads hi hu (accessCmd_csr_read_wrong ho hp hr hn)
  · rintro (hp | rfl)
    · exact leads_aerrCnt hreg ⟨_, rfl⟩ (exec_reads hi hu (accessCmd_csr_read hcnt hal hp hr)).1
    · exact leads_aerrCnt hreg (portOf_fresh b _ false) (exec_reads hi hu (accessCmd_trl_read b hcnt hal)).1
  · rintro d k rfl hrun hag
    have hread := issueCmd_csr_read (b.free 2).2 (.dsp d k) hcnt hal (.inr ⟨d, k, rfl⟩)
    exact leads_aerrCnt hreg ⟨_, rfl⟩
      (exec_reads hi hu ((accessCmd_dsp b hcnt 4 none d k).trans (coreTells_ok hrun false _ 4 _ hag hread))).1
  · rintro e rfl
    exact (exec_reads hi hu (by rw [accessCmd_eng b hcnt, issueCmd_eng_read b hcnt])).1
  · rintro ch rfl hc
    exact (exec_reads hi hu (by rw [accessCmd_dct b hcnt, issueCmd_closed_read b hcnt 4 hc]; rfl)).1

/-- Settles O12: bit by bit, a replaced field has the new bits inside and the old ones outside. -/
theorem fieldWriteReads : Obligations.FieldWriteReads := by
  intro s off hi lo v hr hle h32
  exact ⟨wrF_regInv hr .., rdF_wrF_same hr off hle h32 v, fun _ hn => rdB_wrF_outside hr off hle v hn, fun _ ho => rd_wr_ne hr ho _⟩

/-- Settles O8. -/
theorem resetState : Obligations.ResetState :=
  ⟨nofun, rfl, rfl, rfl, rfl, rfl, by decide +kernel, reset_mbxCtrl, reset_cmWm, reset_cmCpFlowCfg, reset_rsvCmap, reset_rsvEmap,
    fun g l hg hl => reset_laneMode g hg l hl, reset_mrdTlUlMaskLo⟩

end Sys2Proof.Machine
end

section
/-! Submissions, event groups and flows as Cellarmaster handles them, case by case (R70 to R73, R80, R89, R90, R98, R106). -/

namespace Sys2Proof.Machine

/-! ### Control-core ports -/

theorem cpSubmit_busy {s : State} {i : Nat} (h : s.rdB (Reg.cmCpSubstat i) 0 = true) (v : Word) : s.cpSubmit i v = s := by
  unfold State.cpSubmit
  rw [if_pos h]

theorem cpSubmit_holds {s : State} {i : Nat} (h : s.rdB (Reg.cmCpSubstat i) 0 = false) (v : Word) :
    s.cpSubmit i v = ((s.wr (Reg.cmCpSubD i 7) v.toNat).wr (Reg.cmCpSubstat i) 1).hold (.ctl i)
      ((List.range 8).map fun w => BitVec.ofNat 32 ((s.wr (Reg.cmCpSubD i 7) v.toNat).rd (Reg.cmCpSubD i w))) false := by
  unfold State.cpSubmit
  rw [if_neg (by rw [h]; exact Bool.false_ne_true)]

/-! ### Event groups (R72) -/

/-- A post of a word: the OR stands before the tasks that wait on the group are tested, and the bindings are tested last. -/
theorem post_word (s : State) (g : Nat) (v : Word) :
    let u : State := { s with cm := { s.cm with groups := mmod (fun _ => 0) s.cm.groups g fun w => w ||| v } }
    s.post g v.toNat = (((u.wakeTasks g).2.heads (u.wakeTasks g).1).foldl (fun s f => s.advanceFlow f) (u.wakeTasks g).2).testBinds g := by
  intro u
  have hor : s.orFlags g v.toNat = u := by rw [State.orFlags, BitVec.ofNat_toNat, BitVec.setWidth_eq]
  rw [State.post, State.postBy, hor]

theorem clearFlags_word (s : State) (g : Nat) (v : Word) :
    s.clearFlags g v.toNat = { s with cm := { s.cm with groups := mmod (fun _ => 0) s.cm.groups g fun w => w &&& ~~~v } } := by
  rw [State.clearFlags, BitVec.ofNat_toNat, BitVec.setWidth_eq]

/-! ### Flows (R80) -/

/-- A close is ignored while a task of the flow is uncommitted. -/
theorem flowCfgWrite_ignored {s : State} {i : Nat} {v : Word} (hclose : tb v.toNat 31 = false)
    (hopen : (s.flow (s.rdF (Reg.cmCpFlowSel i) 15 0)).opened = true) (htasks : s.flowTasks (s.rdF (Reg.cmCpFlowSel i) 15 0) ≠ []) :
    s.flowCfgWrite i v = s := by
  unfold State.flowCfgWrite
  exact if_pos (by rw [hclose, hopen, List.isEmpty_eq_false_iff.mpr htasks]; rfl)

theorem flowCfgWrite_sets {s : State} {i : Nat} {v : Word}
    (h : tb v.toNat 31 = true ∨ (s.flow (s.rdF (Reg.cmCpFlowSel i) 15 0)).opened = false ∨ s.flowTasks (s.rdF (Reg.cmCpFlowSel i) 15 0) = []) :
    let f := s.rdF (Reg.cmCpFlowSel i) 15 0
    let new : Flow := { opened := tb v.toNat 31, home := fld v.toNat 27 24, pin := tb v.toNat 23, dlpol := tb v.toNat 20, recp := fld v.toNat 19 18, cq := fld v.toNat 6 0 }
    s.flowCfgWrite i v = ((if new.home ≠ (s.flow f).home then s.setHome f new.home else s).setFlow f new).advanceFlow f := by
  unfold State.flowCfgWrite
  refine if_neg ?_
  rcases h with h | h | h
  · rw [h]; exact Bool.false_ne_true
  · rw [h, Bool.and_false]; exact Bool.false_ne_true
  · rw [h, List.isEmpty_nil, Bool.not_true, Bool.and_false]; exact Bool.false_ne_true

/-! ### Admission (R70, R89, R90) -/

/-- The host ring whose port it is. -/
def ringOf : Port → Option Nat
  | .ring h => some h
  | _ => none

theorem ringOf_eq_some {p : Port} {h : Nat} : ringOf p = some h ↔ p = .ring h := by
  cases p <;> simp [ringOf]

theorem ringOf_unique {p : Port} {ring : Option Nat} (h : ∀ n, ring = some n ↔ p = .ring n) : ring = ringOf p :=
  Option.ext fun n => (h n).trans ringOf_eq_some.symm

/-- A held submission rejected for reason `r` (R70, R98): a host ring's gets a record, any other port's its handle. -/
def State.rejectHeld (s : State) (p : Port) (x : Sub) (r : Nat) : State :=
  let u := ((s.count (Reg.cmCnt 5) 1).tally 3 0 7 1).withdraw p
  (ringOf p).elim (u.deliver p (rejectHandle r)) fun h => u.ringReject h x.words r

/-- A held submission admitted to the free slot `n` (R90). -/
def State.admitHeld (s : State) (p : Port) (x : Sub) (n : Nat) : State :=
  let u := s.hist 3 0 3 (s.clockNs - x.since)
  ((u.withdraw p).admitTask n x.words (ringOf p)).deliver p (u.handleOf n)

/-- A submission that goes on being held: the onset of back-pressure is counted (R106). -/
def State.keepHeld (s : State) (p : Port) (x : Sub) : State :=
  if x.bp = true then s
  else
    let u := s.count (Reg.cmCnt 6) 1
    { u with cm := { u.cm with subs := u.cm.subs.map fun (e : Port × Sub) => if e.1 = p then (e.1, { e.2 with bp := true }) else e } }

theorem taskAdmit_nothing_held {s : State} {p : Port} (h : s.held? p = none) (sl : Nat) : s.taskAdmit p sl = s := by
  unfold State.taskAdmit
  rw [h]

/-! Of a held submission the port's kind matters only as `ringOf`: each lemma checks every kind of port. -/

section
variable {s : State} {p : Port} {x : Sub} (hx : s.held? p = some x) {sl : Nat}
include hx

theorem taskAdmit_rejects {r : Nat} (hr : s.rejects (ringOf p).isSome x.idem x.words = some r) : s.taskAdmit p sl = s.rejectHeld p x r := by
  unfold State.taskAdmit State.rejectHeld
  cases p
  all_goals
    simp only [ringOf, Option.isSome] at hr
    simp only [hx, Option.isSome, hr]
    rfl

section
variable (hr : s.rejects (ringOf p).isSome x.idem x.words = none)
include hr

theorem taskAdmit_keeps (h : ¬(s.watermark (dPrio x.words) < s.freeSlots ∧ s.rsv.storeOut = false)) : s.taskAdmit p sl = s.keepHeld p x := by
  rw [← Bool.not_eq_true'] at h
  unfold State.taskAdmit State.keepHeld
  cases p
  all_goals
    simp only [ringOf, Option.isSome] at hr
    simp only [hx, Option.isSome, hr]
    exact if_neg h

section
variable (h : s.watermark (dPrio x.words) < s.freeSlots ∧ s.rsv.storeOut = false)
include h

theorem taskAdmit_no_slot (hn : s.pickSlot sl = none) : s.taskAdmit p sl = s := by
  rw [← Bool.not_eq_true'] at h
  unfold State.taskAdmit
  cases p
  all_goals
    simp only [ringOf, Option.isSome] at hr
    simp only [hx, Option.isSome, hr, hn]
    exact if_pos h

theorem taskAdmit_admits {n : Nat} (hn : s.pickSlot sl = some n) : s.taskAdmit p sl = s.admitHeld p x n := by
  rw [← Bool.not_eq_true'] at h
  unfold State.taskAdmit State.admitHeld
  cases p
  all_goals
    simp only [ringOf, Option.isSome] at hr
    simp only [hx, Option.isSome, hr, hn]
    exact if_pos h

end
end
end

/-! ### The commands of a powered payload -/

section
variable {s : State} (hu : s.pwr.up = true)
include hu

theorem exec_cpSubmit {i : Nat} (hi : i < 4) (v : Word) : exec (.cpSubmit i v) s = .next (after s ((begin s).cpSubmit i v)) :=
  pcmd_next (decide_eq_true hi) hu _

theorem exec_evPost {i : Nat} (hi : i < 4) (v : Word) :
    exec (.evPost i v) s = .next (after s ((begin s).post ((begin s).rdF (Reg.cmCpEvGrp i) 13 0) v.toNat)) :=
  pcmd_next (decide_eq_true hi) hu _

theorem exec_evClr {i : Nat} (hi : i < 4) (v : Word) :
    exec (.evClr i v) s = .next (after s ((begin s).clearFlags ((begin s).rdF (Reg.cmCpEvGrp i) 13 0) v.toNat)) :=
  pcmd_next (decide_eq_true hi) hu _

theorem exec_flowCfgWrite {i : Nat} (hi : i < 4) (v : Word) :
    exec (.flowCfgWrite i v) s = .next (after s ((begin s).flowCfgWrite i v)) :=
  pcmd_next (decide_eq_true hi) hu _

theorem exec_taskAdmit {p : Port} (hp : p.wf = true) {sl : Nat} (hsl : sl < 131072) :
    exec (.taskAdmit p sl) s = .next (after s ((begin s).taskAdmit p sl)) :=
  pcmd_next (Bool.and_eq_true_iff.mpr ⟨hp, decide_eq_true hsl⟩) hu _

end

/-- Settles O39: the submission that a port holds takes one of four ways, by the first reason of R70 and by the room in the store. -/
theorem submissionPorts : Obligations.SubmissionPorts := by
  intro i v s hu b g f
  refine ⟨fun hi => ⟨fun hfree => ?_, fun hbusy => ?_, ?_, ?_, fun hset => ?_, fun hclose hopen htasks => ?_⟩, ?_⟩
  · rw [exec_cpSubmit hu hi, cpSubmit_holds hfree]
  · rw [exec_cpSubmit hu hi, cpSubmit_busy hbusy]
  · rw [exec_evPost hu hi, post_word]
  · rw [exec_evClr hu hi, clearFlags_word]
  · rw [exec_flowCfgWrite hu hi, flowCfgWrite_sets hset]
  · rw [exec_flowCfgWrite hu hi, flowCfgWrite_ignored hclose hopen htasks]
  intro p sl hp hsl gives
  have gives_of : ∀ t, b.taskAdmit p sl = t → gives t := by
    rintro _ rfl
    exact exec_taskAdmit hu hp hsl
  refine ⟨fun h => gives_of _ (taskAdmit_nothing_held h sl), fun x hx ring hring => ?_⟩
  obtain rfl := ringOf_unique hring
  refine ⟨fun r hr hno => gives_of _ ?_, fun r h hr hh => gives_of _ ?_, fun hr hroom hn => gives_of _ (taskAdmit_no_slot hx hr hroom hn),
    fun n hr hroom hn => gives_of _ (taskAdmit_admits hx hr hroom hn), fun hr hfull hbp => gives_of _ ?_, fun hr hfull hbp => gives_of _ ?_⟩
  · rw [taskAdmit_rejects hx hr, State.rejectHeld, hno]
    rfl
  · rw [taskAdmit_rejects hx hr, State.rejectHeld, hh]
    rfl
  · rw [taskAdmit_keeps hx hr hfull, State.keepHeld, if_pos hbp]
  · rw [taskAdmit_keeps hx hr hfull, State.keepHeld, if_neg (by rw [hbp]; exact Bool.false_ne_true)]

end Sys2Proof.Machine
end

section
/-! A task's life, case by case: selection, expiry, the commit point, cancels and unit faults (R81 to R87, R99 to R104, R427, R435). -/

namespace Sys2Proof.Machine

/-! ### Selection (R81, R86, R87, R427) -/

/-- The prestage chain next in line for a unit: only channels take chains. -/
def State.chainFor (s : State) : TUnit → Option Prestage
  | .channel _ => s.bestChain
  | _ => none

/-- What becomes of the task that a free unit takes: it starts, late or in time, or commits EXPIRED. -/
def State.takeTask (s : State) (u : TUnit) (n : Nat) (t : Task) : State :=
  if 0 < t.rd || !dDlEn t.words || !s.passed (dDeadline t.words) then s.startTask (s.lowestFree u t) n t
  else if (s.flow (dFlow t.words)).dlpol then
    ((s.count (Reg.cmCnt 1) 1).tally 3 0 6 1).startTask (s.lowestFree u t) n { t with late := true }
  else s.commit n 3 0 0

theorem takeTask_in_time {s : State} {t : Task} (h : dDlEn t.words = false ∨ s.passed (dDeadline t.words) = false ∨ 0 < t.rd)
    (u : TUnit) (n : Nat) : s.takeTask u n t = s.startTask (s.lowestFree u t) n t := by
  unfold State.takeTask
  refine if_pos ?_
  rcases h with h | h | h
  · rw [h, Bool.not_false, Bool.or_true, Bool.true_or]
  · rw [h, Bool.not_false, Bool.or_true]
  · rw [decide_eq_true h, Bool.true_or, Bool.true_or]

/-- A task whose deadline has passed before its first start goes as its flow says. -/
theorem takeTask_late {s : State} {t : Task} (hrd : t.rd = 0) (hen : dDlEn t.words = true) (hp : s.passed (dDeadline t.words) = true)
    (u : TUnit) (n : Nat) :
    s.takeTask u n t =
      if (s.flow (dFlow t.words)).dlpol then
        ((s.count (Reg.cmCnt 1) 1).tally 3 0 6 1).startTask (s.lowestFree u t) n { t with late := true }
      else s.commit n 3 0 0 := by
  unfold State.takeTask
  exact if_neg (by rw [hrd, hen, hp]; decide)

theorem taskSelect_busy {s : State} {u : TUnit} (h : s.unitFree u = false) : s.taskSelect u = s := by
  unfold State.taskSelect
  rw [h]
  rfl

theorem taskSelect_nothing {s : State} {u : TUnit} (hc : s.chainFor u = none) (hb : s.best u = none) : s.taskSelect u = s := by
  unfold State.taskSelect
  split
  · rfl
  · cases u with
    | channel ch =>
      replace hc : s.bestChain = none := hc
      simp only [hc, hb]
    | _ => simp only [hb]

theorem taskSelect_chain {s : State} {ch : Nat} (hf : s.unitFree (.channel ch) = true) {p : Prestage} (hc : s.bestChain = some p)
    (hfirst : ∀ n t, s.best (.channel ch) = some (n, t) → before (p.prio, p.stamp) (dPrio t.words, t.stamp) = true) :
    s.taskSelect (.channel ch) = s.startPrestage ch p := by
  unfold State.taskSelect
  rw [hf]
  obtain hb | ⟨⟨n, t⟩, hb⟩ := Option.eq_none_or_eq_some (s.best (.channel ch))
  · simp only [hc, hb, Bool.not_true, Bool.false_eq_true, if_false]
  · simp only [hc, hb, hfirst n t hb, Bool.not_true, Bool.false_eq_true, if_false, if_true]

theorem taskSelect_task {s : State} {u : TUnit} (hf : s.unitFree u = true) {n : Nat} {t : Task} (hb : s.best u = some (n, t))
    (hc : ∀ p, s.chainFor u = some p → before (p.prio, p.stamp) (dPrio t.words, t.stamp) = false) :
    s.taskSelect u = s.takeTask u n t := by
  unfold State.taskSelect
  rw [hf]
  cases u with
  | channel ch =>
    replace hc : ∀ p, s.bestChain = some p → before (p.prio, p.stamp) (dPrio t.words, t.stamp) = false := hc
    obtain hn | ⟨p, hp⟩ := Option.eq_none_or_eq_some s.bestChain
    · simp only [hn, hb]
      rfl
    · simp only [hp, hb, hc p hp]
      rfl
  | _ =>
    simp only [hb]
    rfl

/-! ### The sweep (R86, R87) -/

/-- The sweep's test of a listed task: it has not started, its deadline has passed under EXPIRE, and it is still the one listed. -/
theorem sweep_test_iff (w : State) (t : Task) (order : Nat) :
    ((t.st == .waiting || t.st == .held || (t.st == .queued && t.rd == 0)) && dDlEn t.words && w.passed (dDeadline t.words)
        && !(w.flow (dFlow t.words)).dlpol && decide (t.order = order)) = true ↔
      (t.st = .waiting ∨ t.st = .held ∨ t.st = .queued ∧ t.rd = 0) ∧ dDlEn t.words = true ∧ w.passed (dDeadline t.words) = true ∧
        (w.flow (dFlow t.words)).dlpol = false ∧ t.order = order := by
  simp only [Bool.and_eq_true, Bool.or_eq_true, beq_iff_eq, Bool.not_eq_true', decide_eq_true_eq, or_assoc, and_assoc]

/-- The sweep over the listed tasks by any step that expires the tasks that the sweep's test names. -/
theorem deadlineSweep_eq_foldl {s : State} {f : State → Nat × Task → State} (hnone : ∀ w e, w.task? e.1 = none → f w e = w)
    (hsome : ∀ w e t, w.task? e.1 = some t → f w e =
      if (t.st = .waiting ∨ t.st = .held ∨ t.st = .queued ∧ t.rd = 0) ∧ dDlEn t.words = true ∧ w.passed (dDeadline t.words) = true ∧
          (w.flow (dFlow t.words)).dlpol = false ∧ t.order = e.2.order
      then w.commit e.1 3 0 0 else w) :
    s.deadlineSweep = s.taskList.foldl f s := by
  unfold State.deadlineSweep
  refine congrArg (fun g => s.taskList.foldl g s) (funext fun w => funext fun e => ?_)
  obtain h | ⟨t, h⟩ := Option.eq_none_or_eq_some (w.task? e.1)
  · rw [hnone w e h, h]
  · rw [hsome w e t h, h]
    exact ite_congr (propext (sweep_test_iff w t e.2.order)) (fun _ => rfl) fun _ => rfl

/-! ### The commit point (R99, R100) -/

theorem taskCommit_free {s : State} {sl : Nat} (h : s.task? sl = none) : s.taskCommit sl = s := by
  unfold State.taskCommit
  rw [h]

section
variable {s : State} {sl : Nat} {t : Task} (h : s.task? sl = some t)
include h

theorem taskCommit_writing (hq : s.unitQuiet sl t = false) : s.taskCommit sl = s := by
  unfold State.taskCommit
  simp only [h, hq]
  rfl

theorem taskCommit_ends (hq : s.unitQuiet sl t = true) (hst : t.st = .ending) :
    s.taskCommit sl = s.commit sl (if 0 < t.rd then 4 else 0) 2 t.ust := by
  unfold State.taskCommit
  simp only [h, hq, hst]
  rfl

theorem taskCommit_finishes (hq : s.unitQuiet sl t = true) (hst : t.st = .stopping) : s.taskCommit sl = s.finish sl := by
  unfold State.taskCommit
  simp only [h, hq, hst]
  rfl

theorem taskCommit_other (he : t.st ≠ .ending) (hs : t.st ≠ .stopping) : s.taskCommit sl = s := by
  unfold State.taskCommit
  rw [h]
  dsimp only
  split
  · rfl
  · split
    · contradiction
    · contradiction
    · rfl

/-! ### Cancels (R100, R101) -/

theorem cancelTask_waits (hst : t.st = .waiting ∨ t.st = .queued) : s.cancelTask sl = (true, s.commit sl 2 0 0) := by
  unfold State.cancelTask
  rcases hst with hst | hst <;> simp only [h, hst]

theorem cancelTask_held (hst : t.st = .held) :
    s.cancelTask sl =
      (true, { s with rsv := { s.rsv with prestage := s.rsv.prestage.filter fun p => decide (p.slot ≠ sl) || p.channel.isSome } }.commit sl 2 0 0) := by
  unfold State.cancelTask
  simp only [h, hst]

theorem cancelTask_running {x : TUnit} (hst : t.st = .running) (hx : t.unit = some x) :
    s.cancelTask sl = (true, (s.commitRunning sl 2 1 0).stopUnit sl x) := by
  unfold State.cancelTask
  simp only [h, hst, hx]

theorem cancelTask_running_none (hst : t.st = .running) (hx : t.unit = none) : s.cancelTask sl = (true, s.commit sl 2 1 0) := by
  unfold State.cancelTask
  simp only [h, hst, hx]

theorem cancelTask_ending (hst : t.st = .ending) : s.cancelTask sl = (true, s.commitRunning sl 2 2 t.ust) := by
  unfold State.cancelTask
  simp only [h, hst]

theorem cancelTask_committed (hst : t.st = .stopping ∨ t.st = .recorded) : s.cancelTask sl = (false, s) := by
  unfold State.cancelTask
  rcases hst with hst | hst <;> simp only [h, hst]

end

theorem cancelTask_free {s : State} {sl : Nat} (h : s.task? sl = none) : s.cancelTask sl = (false, s) := by
  unfold State.cancelTask
  rw [h]

theorem cmCancel_stale {s : State} {v : Word} (h : s.slotOf v.toNat = none) (i : Nat) :
    s.cmCancel i v = s.wr (Reg.cmCpCancelRes i) (2 ^ 28) := by
  unfold State.cmCancel State.cancelHandle
  simp only [h]
  rfl

theorem cmCancel_names {s w : State} {v : Word} {n : Nat} {c : Bool} (h : s.slotOf v.toNat = some n) (hc : s.cancelTask n = (c, w)) (i : Nat) :
    s.cmCancel i v = w.wr (Reg.cmCpCancelRes i) (if c = true then 1 else 2 ^ 28) := by
  unfold State.cmCancel State.cancelHandle
  simp only [h, hc]

/-! ### Unit faults (R102, R104, R435) -/

theorem unitFault_spared {s : State} {u : TUnit} (h : s.faultable u = false) (ust : Nat) (keep : Bool) : s.unitFault u ust keep = s := by
  unfold State.unitFault
  rw [h]
  rfl

theorem unitFault_retires {s : State} {u : TUnit} {kind unit : Nat} (hk : unitKind u = some (kind, unit)) (h : s.faultable u = true)
    (ust : Nat) (keep : Bool) :
    s.unitFault u ust keep = (s.isolate u ust).2.faultRetire kind unit (s.isolate u ust).1 keep := by
  unfold State.unitFault
  simp only [h, hk]
  rfl

theorem unitFault_isolates {s : State} {u : TUnit} (hk : unitKind u = none) (h : s.faultable u = true) (ust : Nat) (keep : Bool) :
    s.unitFault u ust keep = (s.isolate u ust).2 := by
  unfold State.unitFault
  simp only [h, hk]
  rfl

/-! ### The commands of a powered payload -/

section
variable {s : State} (hu : s.pwr.up = true)
include hu

theorem exec_taskSelect {u : TUnit} (h : u.wf = true) : exec (.taskSelect u) s = .next (after s ((begin s).taskSelect u)) :=
  pcmd_next h hu _

theorem exec_deadlineSweep : exec .deadlineSweep s = .next (after s (begin s).deadlineSweep) :=
  pcmd_next rfl hu _

theorem exec_taskCommit {sl : Nat} (h : sl < 131072) : exec (.taskCommit sl) s = .next (after s ((begin s).taskCommit sl)) :=
  pcmd_next (decide_eq_true h) hu _

theorem exec_cmCancel {i : Nat} (h : i < 4) (v : Word) : exec (.cmCancel i v) s = .next (after s ((begin s).cmCancel i v)) :=
  pcmd_next (decide_eq_true h) hu _

theorem exec_cmCancelFlow {i : Nat} (h : i < 4) (v : Word) :
    exec (.cmCancelFlow i v) s = .next (after s ((begin s).cmCancelFlow i v)) :=
  pcmd_next (decide_eq_true h) hu _

theorem exec_sharedFault {c k : Nat} (h : (TUnit.core c k).wf = true) :
    exec (.unitFault (.core c k) true) s = .next (after s ((begin s).sharedFault c)) :=
  pcmd_next h hu _

/-- Only a core has a part that its cluster shares. -/
theorem exec_unitFault {u : TUnit} (h : u.wf = true) {shared : Bool} (hs : ∀ c k, u = .core c k → shared = false) :
    exec (.unitFault u shared) s = .next (after s ((begin s).unitFault u 0x20 false)) := by
  cases u with
  | core c k =>
    obtain rfl := hs c k rfl
    exact pcmd_next h hu _
  | _ => exact pcmd_next h hu _

end

/-- Settles O41: the task that a unit takes is decided by its deadline alone, and every other clause is one case of its operation. -/
theorem taskLife : Obligations.TaskLife := by
  intro u sl i v s hwf hsl hi hu b
  refine ⟨?_, ?_, ?_, fun w n => ?_, fun n c w hn hc => ?_, fun hn => ?_, ?_, fun shared hs => ⟨fun hf => ?_, fun kind unit hk hf => ?_, fun hk hf => ?_⟩, ?_⟩
  · intro gives chain first
    have gives_of : ∀ t, b.taskSelect u = t → gives t := by
      rintro _ rfl
      exact exec_taskSelect hu hwf
    have hchain : chain = b.chainFor u := rfl
    refine ⟨fun hf => gives_of _ (taskSelect_busy hf), fun hc hb => gives_of _ (taskSelect_nothing hc hb), ?_, fun n t hf hc hb => ?_⟩
    · rintro p ch hf rfl hc hfirst
      exact gives_of _ (taskSelect_chain hf hc hfirst)
    · have hnot : ∀ p, b.chainFor u = some p → before (p.prio, p.stamp) (dPrio t.words, t.stamp) = false := by
        refine fun p hp => Bool.eq_false_iff.mpr fun hbefore => hc p hp fun n' t' hb' => ?_
        obtain ⟨rfl, rfl⟩ := Prod.mk.inj (Option.some.inj (hb.symm.trans hb'))
        exact hbefore
      have htake := taskSelect_task hf hb hnot
      refine ⟨fun h => gives_of _ (htake.trans (takeTask_in_time h u n)), fun hrd hen hp => ?_⟩
      rw [takeTask_late hrd hen hp] at htake
      exact ⟨fun hexp => gives_of _ (htake.trans (if_neg (by rw [hexp]; exact Bool.false_ne_true))),
        fun hlate => gives_of _ (htake.trans (if_pos hlate))⟩
  · rw [exec_deadlineSweep hu, deadlineSweep_eq_foldl]
    · intro w e h
      simp only [h]
    · intro w e t h
      simp only [h]
  · intro gives
    have gives_of : ∀ t, b.taskCommit sl = t → gives t := by
      rintro _ rfl
      exact exec_taskCommit hu hsl
    exact ⟨fun h => gives_of _ (taskCommit_free h), fun t h => ⟨fun hq => gives_of _ (taskCommit_writing h hq),
      fun hq hst => gives_of _ (taskCommit_ends h hq hst), fun hq hst => gives_of _ (taskCommit_finishes h hq hst),
      fun he hs => gives_of _ (taskCommit_other h he hs)⟩⟩
  · exact ⟨cancelTask_free, fun t h => ⟨cancelTask_waits h, cancelTask_held h, fun x => cancelTask_running h, cancelTask_running_none h,
      cancelTask_ending h, cancelTask_committed h⟩⟩
  · rw [exec_cmCancel hu hi, cmCancel_names hn hc]
  · rw [exec_cmCancel hu hi, cmCancel_stale hn]
  · exact exec_cmCancelFlow hu hi v
  · rw [exec_unitFault hu hwf hs, unitFault_spared hf]
  · rw [exec_unitFault hu hwf hs, unitFault_retires hk hf]
  · rw [exec_unitFault hu hwf hs, unitFault_isolates hk hf]
  · rintro c k rfl
    exact exec_sharedFault hu hwf

end Sys2Proof.Machine
end

section
/-! A bundle of a Pozel core, case by case: what keeps it from issuing, its fetch, the checks in their order, its data and the line that it
missed (R112 to R117, R124, R126, R140 to R145). -/

namespace Sys2Proof.Machine

/-! ### What comes before the fetch (R133, R134, R142) -/

/-- The core issues nothing: it waits, is frozen, or must accept a CANCEL. -/
def CoreState.stands (x : CoreState) : Prop :=
  x.st ≠ .running ∨ x.freeze ≠ .none ∨ (x.cancel = true ∧ x.heldOff = false ∧ x.wbPend = none)

/-- `BUNDLE_ISSUE` tests `stands`. -/
theorem stands_iff (x : CoreState) :
    (x.st ≠ .running ∨ x.freeze ≠ .none ∨ (x.cancel && !x.heldOff && x.wbPend.isNone) = true) ↔ x.stands := by
  simp only [CoreState.stands, Bool.and_eq_true, Bool.not_eq_true', Option.isNone_iff_eq_none, and_assoc]

section
variable {s : State} {c k : Nat} (frozen : Nat) (ups : List (Nat × List Nat))

theorem bundleIssue_stands (h : (s.core c k).stands) : s.bundleIssue c k frozen ups = s := by
  unfold State.bundleIssue
  exact if_pos ((stands_iff _).mpr h)

theorem bundleIssue_issues (h : ¬(s.core c k).stands) (hw : (s.core c k).wbPend = none ∨ (s.core c k).heldOff = true) :
    s.bundleIssue c k frozen ups = (((s.strikeCore c k ups).countFrozen c k frozen).beginBundle c k).issue c k := by
  unfold State.bundleIssue
  rw [if_neg (mt (stands_iff _).mp h)]
  rcases hw with hw | hw
  · rw [hw]
  · rw [hw]
    cases (s.core c k).wbPend <;> rfl

/-- A failed store is told at the next boundary that nothing holds off. -/
theorem bundleIssue_deferred {a e : Nat} (h : ¬(s.core c k).stands) (hw : (s.core c k).wbPend = some (a, e)) (ho : (s.core c k).heldOff = false) :
    s.bundleIssue c k frozen ups = (((s.strikeCore c k ups).countFrozen c k frozen).beginBundle c k).deferredFault c k a e := by
  unfold State.bundleIssue
  rw [if_neg (mt (stands_iff _).mp h), hw, ho]
  rfl

end

/-! ### The fetch (R113, R140, R150, R151) -/

section
variable {s u : State} {c k : Nat} {words : List (Nat × Nat)}

theorem issue_miss {a : Nat} (h : s.fetchBundle c k 5 (s.core c k).pc [] = ((words, some (a, .miss)), u)) :
    s.issue c k = (u.tally 0 (u.physCore c k) 9 1).freezeCore c k (.pmMiss a) 7 := by
  simp only [State.issue, h]

theorem issue_fault {a kind : Nat} (h : s.fetchBundle c k 5 (s.core c k).pc [] = ((words, some (a, .fault kind)), u)) :
    s.issue c k = u.coreFault c k (fetchFault kind a) := by
  simp only [State.issue, h]

theorem issue_ue {a : Nat} (h : s.fetchBundle c k 5 (s.core c k).pc [] = ((words, some (a, .ue)), u)) :
    s.issue c k = u.coreFault c k (fetchFault 8 a) := by
  simp only [State.issue, h]

section
variable (h : s.fetchBundle c k 5 (s.core c k).pc [] = ((words, none), u))
include h

theorem issue_endless (he : ¬(words.getLast?.any fun w => wordEnds w.2) = true) : s.issue c k = u.illegal c k none := by
  rw [Bool.not_eq_true] at he
  simp only [State.issue, h, he, Bool.not_false, if_true]

variable (he : (words.getLast?.any fun w => wordEnds w.2) = true)
include he

theorem issue_undefined (hd : decodeBundle words = none) :
    s.issue c k = u.illegalBundle c k words (((s.core c k).pc + 4 * words.length) % 2 ^ 48) := by
  simp only [State.issue, h, he, hd, Bool.not_true, Bool.false_eq_true, if_false]

theorem issue_decoded {ops : List (Nat × OpWord)} (hd : decodeBundle words = some ops) :
    s.issue c k = u.tryBundle c k words ops (((s.core c k).pc + 4 * words.length) % 2 ^ 48) := by
  simp only [State.issue, h, he, hd, Bool.not_true, Bool.false_eq_true, if_false]

end
end

/-! ### A failed store before the bundle (R142) -/

/-- The operations at which a failed store is told at the latest. -/
def tellsFailedStore (o : Nat × OpWord) : Bool :=
  match o.2.op with
  | .getw | .submit .. | .post .. | .done .. => true
  | _ => false

section
variable {s : State} {c k : Nat} {ops : List (Nat × OpWord)} (words : List (Nat × Nat)) (fin : Nat)

theorem tryBundle_deferred {a e : Nat} (hw : (s.core c k).wbPend = some (a, e)) (hd : ((s.core c k).active ops).any tellsFailedStore = true) :
    s.tryBundle c k words ops fin = s.deferredFault c k a e := by
  unfold State.tryBundle
  dsimp only
  rw [hw]
  exact if_pos hd

theorem tryBundle_checks (h : (s.core c k).wbPend = none ∨ ((s.core c k).active ops).any tellsFailedStore = false) :
    s.tryBundle c k words ops fin = s.checkBundle c k words ops fin := by
  unfold State.tryBundle
  dsimp only
  rcases h with hw | hd
  · rw [hw]
  · cases (s.core c k).wbPend with
    | none => rfl
    | some p => exact if_neg (ne_true_of_eq_false hd)

end

/-! ### The checks in their order (R124, R140, R143 to R145) -/

/-- The operations before which the write buffer tellsFailedStore (R145). -/
def handsOver (o : Nat × OpWord) : Bool :=
  match o.2.op with
  | .submit .. | .post .. => true
  | _ => false

def isSubmit (o : Nat × OpWord) : Bool :=
  match o.2.op with
  | .submit .. => true
  | _ => false

/-- An access that reads beyond the core's own X and Y. -/
def Access.outside (c k : Nat) (a : Access) : Prop := a.store = false ∧ isOwn c k a.addr = false

/-- The model's test of `Access.outside`. -/
theorem outside_iff {c k : Nat} {a : Access} : (!a.store && !isOwn c k a.addr) = true ↔ a.outside c k := by
  simp only [Access.outside, Bool.and_eq_true, Bool.not_eq_true']

/-- The slot whose operation makes a decoded bundle ILLEGAL. -/
def State.brokenSlot (s : State) (c k : Nat) (ops : List (Nat × OpWord)) (fin : Nat) : Option Nat :=
  let x := s.core c k
  x.illegalSlot (x.endsIn x.pc (s.bundleEnd c k 5 (s.bundleEnd c k 5 fin))) (x.active ops)

/-- A bundle in which neither the rules nor AG find a fault: what freezes it, or its execution. -/
def State.goBundle (s : State) (c k : Nat) (words : List (Nat × Nat)) (ops : List (Nat × OpWord)) (fin : Nat) : State :=
  let x := s.core c k
  let before := (x.active ops).find? handsOver
  let accs := x.accesses (x.active ops)
  if before.isSome && !x.wb.isEmpty then s.freezeCore c k (.preDrain (before.any isSubmit)) 12
  else if accs.any fun a => (!a.store && !isOwn c k a.addr) && x.overlaps a.addr a.size then s.freezeCore c k .wbOverlap 10
  else if 8 < (x.wbAfter c k accs).length then s.freezeCore c k .wbFull 12
  else if accs.any fun a => !a.store && !isOwn c k a.addr then s.freezeCore c k (.load words) 10
  else s.perform c k ops x.pc fin

section
variable {s : State} {c k : Nat} {ops : List (Nat × OpWord)} {fin : Nat} (words : List (Nat × Nat))

theorem checkBundle_illegal {i : Nat} (h : s.brokenSlot c k ops fin = some i) : s.checkBundle c k words ops fin = s.illegal c k (some i) := by
  unfold State.brokenSlot at h
  simp only [State.checkBundle, h]

section
variable (h : s.brokenSlot c k ops fin = none)
include h

section
variable {a : Access} {f : CoreFault}

/-- An access error that AG finds is recorded before it is the core fault. -/
theorem checkBundle_aerr {kind : Nat}
    (hf : ((s.core c k).accesses ((s.core c k).active ops)).findSome? (fun a => (s.agFault (s.core c k) c k a).map fun f => (a, f)) = some (a, f, some kind)) :
    s.checkBundle c k words ops fin = (s.aerr (.dsp c k) kind a.store false f.addr).coreFault c k f := by
  unfold State.brokenSlot at h
  simp only [State.checkBundle, h, hf]

theorem checkBundle_fault
    (hf : ((s.core c k).accesses ((s.core c k).active ops)).findSome? (fun a => (s.agFault (s.core c k) c k a).map fun f => (a, f)) = some (a, f, none)) :
    s.checkBundle c k words ops fin = s.coreFault c k f := by
  unfold State.brokenSlot at h
  simp only [State.checkBundle, h, hf]

end

theorem checkBundle_goes (hag : ∀ a ∈ (s.core c k).accesses ((s.core c k).active ops), s.agFault (s.core c k) c k a = none) :
    s.checkBundle c k words ops fin = s.goBundle c k words ops fin := by
  have hnone : ((s.core c k).accesses ((s.core c k).active ops)).findSome? (fun a => (s.agFault (s.core c k) c k a).map fun f => (a, f)) = none :=
    List.findSome?_eq_none_iff.mpr fun a ha => by rw [hag a ha]; rfl
  unfold State.brokenSlot at h
  simp only [State.checkBundle, h, hnone]
  rfl

end
end

/-! What keeps a bundle in which no check finds a fault: each lemma has the earlier reasons ruled out. -/

section
variable {s : State} {c k : Nat} {ops : List (Nat × OpWord)}

/-- A POST or SUBMIT finds stores buffered before it (R145). -/
def State.drainsEarly (s : State) (c k : Nat) (ops : List (Nat × OpWord)) : Prop :=
  ((s.core c k).active ops).find? handsOver ≠ none ∧ (s.core c k).wb ≠ []

/-- A load overlaps a buffered store (R144). -/
def State.loadOverlaps (s : State) (c k : Nat) (ops : List (Nat × OpWord)) : Prop :=
  ∃ a ∈ (s.core c k).accesses ((s.core c k).active ops), a.outside c k ∧ (s.core c k).overlaps a.addr a.size = true

theorem drainsEarly_iff :
    ((((s.core c k).active ops).find? handsOver).isSome && !(s.core c k).wb.isEmpty) = true ↔ s.drainsEarly c k ops := by
  rw [Bool.and_eq_true, Option.isSome_iff_ne_none, Bool.not_eq_true', List.isEmpty_eq_false_iff, State.drainsEarly]

theorem loadOverlaps_iff :
    ((s.core c k).accesses ((s.core c k).active ops)).any (fun a => (!a.store && !isOwn c k a.addr) && (s.core c k).overlaps a.addr a.size) = true ↔
      s.loadOverlaps c k ops := by
  rw [List.any_eq_true]
  exact exists_congr fun a => and_congr_right fun _ => by rw [Bool.and_eq_true, outside_iff]

variable (words : List (Nat × Nat)) (fin : Nat)

theorem goBundle_drainsEarly (h : s.drainsEarly c k ops) :
    s.goBundle c k words ops fin = s.freezeCore c k (.preDrain ((((s.core c k).active ops).find? handsOver).any isSubmit)) 12 :=
  if_pos (drainsEarly_iff.mpr h)

variable (he : ¬s.drainsEarly c k ops)
include he

theorem goBundle_overlaps (ho : s.loadOverlaps c k ops) : s.goBundle c k words ops fin = s.freezeCore c k .wbOverlap 10 :=
  (if_neg (mt drainsEarly_iff.mp he)).trans (if_pos (loadOverlaps_iff.mpr ho))

variable (ho : ¬s.loadOverlaps c k ops)
include ho

theorem goBundle_full (hf : 8 < ((s.core c k).wbAfter c k ((s.core c k).accesses ((s.core c k).active ops))).length) :
    s.goBundle c k words ops fin = s.freezeCore c k .wbFull 12 := by
  unfold State.goBundle
  rw [if_neg (mt drainsEarly_iff.mp he), if_neg (mt loadOverlaps_iff.mp ho), if_pos hf]

/-- With room for its stores a bundle waits for its data, or is performed where it reads the core's own memories alone. -/
theorem goBundle_room (hf : ((s.core c k).wbAfter c k ((s.core c k).accesses ((s.core c k).active ops))).length ≤ 8) :
    s.goBundle c k words ops fin =
      if ((s.core c k).accesses ((s.core c k).active ops)).any fun a => !a.store && !isOwn c k a.addr then s.freezeCore c k (.load words) 10
      else s.perform c k ops (s.core c k).pc fin := by
  unfold State.goBundle
  rw [if_neg (mt drainsEarly_iff.mp he), if_neg (mt loadOverlaps_iff.mp ho), if_neg (Nat.not_lt.mpr hf)]

end

/-! ### The data of a frozen bundle (R126) -/

section
variable {s : State} {c k : Nat} (ups : List (Nat × List Nat))

theorem loadReturn_other (h : ∀ words, (s.core c k).freeze ≠ .load words) : s.loadReturn c k ups = s := by
  unfold State.loadReturn
  dsimp only
  split
  next words hw => exact absurd hw (h words)
  next => rfl

variable {words : List (Nat × Nat)} (h : (s.core c k).freeze = .load words)
include h

theorem loadReturn_undefined (hd : decodeBundle words = none) :
    s.loadReturn c k ups = (s.struck ups).setCore c k { (s.struck ups).core c k with freeze := .none } := by
  simp only [State.loadReturn, h, hd]

theorem loadReturn_decoded {ops : List (Nat × OpWord)} (hd : decodeBundle words = some ops) :
    s.loadReturn c k ups =
      if ((s.core c k).accesses ((s.core c k).active ops)).any fun a => (s.struck ups).accessWaits c k a then s.struck ups
      else ((((s.struck ups).setCore c k { (s.struck ups).core c k with freeze := .none }).perform c k ops (s.core c k).pc
        (((s.core c k).pc + 4 * words.length) % 2 ^ 48)).clearLost c k) := by
  simp only [State.loadReturn, h, hd]

end

/-! ### The line that a core missed (R113, R140) -/

section
variable {s : State} {c k : Nat} (ok : Bool)

theorem pmFill_other (h : ∀ a, (s.core c k).freeze ≠ .pmMiss a) : s.pmFill c k ok = s := by
  unfold State.pmFill
  dsimp only
  split
  next a ha => exact absurd ha (h a)
  next => rfl

variable {a : Nat} (h : (s.core c k).freeze = .pmMiss a)
include h

theorem pmFill_waits (hw : s.dramWaits false (a / 128 * 128) 128 = true) : s.pmFill c k ok = s := by
  simp only [State.pmFill, h, hw, if_true]

variable (hw : s.dramWaits false (a / 128 * 128) 128 = false) {u : State}
include hw

theorem pmFill_ok {bs : List Byte}
    (hr : (s.setCore c k { s.core c k with freeze := .none }).busRead (.dsp c k) (a / 128 * 128) 128 = (.ok bs, u)) :
    s.pmFill c k ok = if ok then (u.pmPlace c k (a / 128) bs).pmPrefetch c k (a / 128 + 1) else u.coreFault c k (fetchFault 7 a) := by
  simp only [State.pmFill, h, hw, hr, Bool.false_eq_true, if_false]

theorem pmFill_ue {p : Nat} (hr : (s.setCore c k { s.core c k with freeze := .none }).busRead (.dsp c k) (a / 128 * 128) 128 = (.ue p, u)) :
    s.pmFill c k ok = u.coreFault c k (fetchFault 7 a) := by
  simp only [State.pmFill, h, hw, hr, Bool.false_eq_true, if_false]

theorem pmFill_err {kind : Nat} (hr : (s.setCore c k { s.core c k with freeze := .none }).busRead (.dsp c k) (a / 128 * 128) 128 = (.err kind, u)) :
    s.pmFill c k ok = u.coreFault c k (fetchFault 2 a) := by
  simp only [State.pmFill, h, hw, hr, Bool.false_eq_true, if_false]

end

/-! ### The commands of a powered payload -/

theorem core_operands {c k : Nat} (hc : c < 12) (hk : k < 8) : (decide (c < 12) && decide (k < 8)) = true :=
  Bool.and_eq_true_iff.mpr ⟨decide_eq_true hc, decide_eq_true hk⟩

section
variable {s : State} (hu : s.pwr.up = true) {c k : Nat} (hc : c < 12) (hk : k < 8)
include hu hc hk

theorem exec_bundleIssue (frozen : Nat) (ups : List (Nat × List Nat)) :
    exec (.bundleIssue c k frozen ups) s = .next (after s ((begin s).bundleIssue c k frozen ups)) :=
  pcmd_next (core_operands hc hk) hu _

theorem exec_loadDataReturn (ups : List (Nat × List Nat)) :
    exec (.loadDataReturn c k ups) s = .next (after s ((begin s).loadReturn c k ups)) :=
  pcmd_next (core_operands hc hk) hu _

theorem exec_pmMissFill (ok : Bool) : exec (.pmMissFill c k ok) s = .next (after s ((begin s).pmFill c k ok)) :=
  pcmd_next (core_operands hc hk) hu _

end

/-- Settles O42: the clauses are the cases of `issue`, `tryBundle` and `checkBundle`, then of `loadReturn` and `pmFill`. -/
theorem pozelIssue : Obligations.PozelIssue := by
  intro c k frozen ups s hc hk hu b x
  refine ⟨?_, fun r u words => ?_, fun w words ops fin => ?_, ?_, fun ok => ?_⟩
  · intro r stands gives
    have gives_of : ∀ t, b.bundleIssue c k frozen ups = t → gives t := by
      rintro _ rfl
      exact exec_bundleIssue hu hc hk frozen ups
    exact ⟨fun h => gives_of _ (bundleIssue_stands frozen ups h), fun h hw => gives_of _ (bundleIssue_issues frozen ups h hw),
      fun a e h hw ho => gives_of _ (bundleIssue_deferred frozen ups h hw ho)⟩
  · exact ⟨fun a => issue_miss, fun a kind => issue_fault, fun a => issue_ue,
      fun h => ⟨issue_endless h, issue_undefined h, fun ops he => issue_decoded h he⟩⟩
  · refine ⟨fun a e => tryBundle_deferred words fin, tryBundle_checks words fin, fun i => checkBundle_illegal words, fun h => ⟨?_, fun hag => ?_⟩⟩
    · intro a f q hf
      refine ⟨?_, ?_⟩
      · rintro kind rfl
        exact checkBundle_aerr words h hf
      · rintro rfl
        exact checkBundle_fault words h hf
    · rw [checkBundle_goes words h hag]
      refine ⟨goBundle_drainsEarly words fin, goBundle_overlaps words fin, goBundle_full words fin, fun he ho hf => ⟨?_, ?_⟩⟩
      · rintro ⟨a, ha, hout⟩
        exact (goBundle_room words fin he ho hf).trans (if_pos (List.any_eq_true.mpr ⟨a, ha, outside_iff.mpr hout⟩))
      · intro hin
        refine (goBundle_room words fin he ho hf).trans (if_neg fun hany => ?_)
        obtain ⟨a, ha, hout⟩ := List.any_eq_true.mp hany
        exact hin a ha (outside_iff.mp hout)
  · intro gives u
    have gives_of : ∀ t, b.loadReturn c k ups = t → gives t := by
      rintro _ rfl
      exact exec_loadDataReturn hu hc hk ups
    exact ⟨fun h => gives_of _ (loadReturn_other ups h), fun words h => ⟨fun hd => gives_of _ (loadReturn_undefined ups h hd),
      fun ops hd => ⟨fun hw => gives_of _ ((loadReturn_decoded ups h hd).trans (if_pos hw)),
        fun hw => gives_of _ ((loadReturn_decoded ups h hd).trans (if_neg hw))⟩⟩⟩
  · intro gives
    have gives_of : ∀ t, b.pmFill c k ok = t → gives t := by
      rintro _ rfl
      exact exec_pmMissFill hu hc hk ok
    refine ⟨fun h => gives_of _ (pmFill_other ok h), fun a h => ⟨fun hw => gives_of _ (pmFill_waits ok h hw), fun hw r u hr => ⟨?_, ?_, ?_, ?_⟩⟩⟩
    · rintro bs rfl hok
      exact gives_of _ ((pmFill_ok ok h hw hr).trans (if_pos hok))
    · rintro bs rfl hok
      exact gives_of _ ((pmFill_ok ok h hw hr).trans (if_neg (ne_true_of_eq_false hok)))
    · rintro p rfl
      exact gives_of _ (pmFill_ue ok h hw hr)
    · rintro kind rfl
      exact gives_of _ (pmFill_err ok h hw hr)

end Sys2Proof.Machine
end

section
/-! What changes the course of a Pozel core from outside: CANCEL, HALT, the invalidation of PM and the clearing of X and Y (R114, R116, R133 to R137,
R147, R490). -/

namespace Sys2Proof.Machine

/-! ### Interrupts (R133, R134, R136, R490) -/

/-- The core is frozen in SUBMIT or in the drain before it. -/
def CoreState.inSubmit (x : CoreState) : Bool :=
  match x.freeze with
  | .drainSubmit _ _ => true
  | .preDrain b => b
  | _ => false

theorem inSubmit_iff (x : CoreState) : x.inSubmit = true ↔ (∃ d ws, x.freeze = .drainSubmit d ws) ∨ x.freeze = .preDrain true := by
  unfold CoreState.inSubmit
  cases x.freeze with
  | drainSubmit d ws => simp
  | preDrain b => simp
  | _ => simp

/-- A CANCEL is accepted here. -/
def CoreState.acceptsCancel (x : CoreState) : Bool :=
  (x.st == .running || x.st == .halted) && x.cancel && x.wbPend.isNone && (x.inSubmit || (x.freeze == .none && !x.heldOff))

theorem acceptsCancel_iff (x : CoreState) :
    x.acceptsCancel = true ↔
      (x.st = .running ∨ x.st = .halted) ∧ x.cancel = true ∧ x.wbPend = none ∧
        (((∃ d ws, x.freeze = .drainSubmit d ws) ∨ x.freeze = .preDrain true) ∨ x.freeze = .none ∧ x.heldOff = false) := by
  simp only [CoreState.acceptsCancel, Bool.and_eq_true, Bool.or_eq_true, beq_iff_eq, Option.isNone_iff_eq_none, Bool.not_eq_true', inSubmit_iff, and_assoc]

/-- A HALT of an authorised debugger is accepted here. -/
def CoreState.acceptsHalt (x : CoreState) : Bool :=
  x.st == .running && x.freeze == .none && !x.heldOff && x.wbPend.isNone

theorem acceptsHalt_iff (x : CoreState) :
    x.acceptsHalt = true ↔ x.st = .running ∧ x.freeze = .none ∧ x.heldOff = false ∧ x.wbPend = none := by
  simp only [CoreState.acceptsHalt, Bool.and_eq_true, beq_iff_eq, Option.isNone_iff_eq_none, Bool.not_eq_true', and_assoc]

section
variable {s : State} (hu : s.pwr.up = true) {c k : Nat} (hc : c < 12) (hk : k < 8)
include hu hc hk

theorem exec_cancelAccept :
    exec (.cancelAccept c k) s =
      .next (after s (if ((begin s).core c k).acceptsCancel then (begin s).coreStop c k .none else begin s)) :=
  pcmd_next (core_operands hc hk) hu _

theorem exec_haltAccept :
    exec (.haltAccept c k) s =
      .next (after s (if (begin s).rdB Reg.secDbg 3 = true ∧ ((begin s).core c k).acceptsHalt = true then
        (begin s).setCore c k { ((begin s).core c k).landAll with st := .halted } else begin s)) := by
  simp only [← Bool.and_eq_true, CoreState.acceptsHalt, ← Bool.and_assoc]
  exact pcmd_next (core_operands hc hk) hu _

theorem exec_haltResume :
    exec (.haltResume c k) s =
      .next (after s (if ((begin s).core c k).st = .halted then (begin s).setCore c k { (begin s).core c k with st := .running } else begin s)) :=
  pcmd_next (core_operands hc hk) hu _

theorem exec_coreClearDone : exec (.coreClearDone c k) s = .next (after s ((begin s).coreClearDone c k)) :=
  pcmd_next (core_operands hc hk) hu _

end

/-! ### Cores beside one another -/

/-- A core read after another one, or itself, was set. -/
theorem core_setCore {s : State} (h : mwf (fun _ => CoreState.reset) s.cores = true) {k k' : Nat} (hk : k < 8) (hk' : k' < 8) (c c' : Nat) (x : CoreState) :
    (s.setCore c k x).core c' k' = if c' = c ∧ k' = k then x else s.core c' k' := by
  split
  next he =>
    obtain ⟨rfl, rfl⟩ := he
    exact mget_mput_same _ _ x (mwf_sorted h)
  next hne => exact mget_mput_ne _ (by omega) x (mwf_sorted h)

/-! ### The invalidation of PM (R114, R116) -/

/-- `DSPC[c].PM_INV` in the register table: BUSY and CORES. -/
theorem findReg_pmInv : ∀ c, c < 12 →
    findReg (Reg.dspcPmInv c) = some (⟨0x400000, [(0xC, 0x10000)], 0, false, [⟨31, 31, .ro, .c 0⟩, ⟨7, 0, .wo, .c 0⟩]⟩, [c]) := by decide +kernel

theorem regWrite_pmInv (s : State) (i : Init) {c : Nat} (hc : c < 12) (v : Nat) : s.regWrite i (Reg.dspcPmInv c) v = s.pmInvWrite c v := by
  unfold State.regWrite
  rw [findReg_pmInv c hc]
  rfl

theorem pmInvWrite_busy {s : State} {c : Nat} (h : s.rdB (Reg.dspcPmInv c) 31 = true) (v : Nat) : s.pmInvWrite c v = s := if_pos h

theorem pmInvWrite_idle {s : State} {c : Nat} (h : s.rdB (Reg.dspcPmInv c) 31 = false) (v : Nat) :
    s.pmInvWrite c v = s.wr (Reg.dspcPmInv c) (2 ^ 31 + v % 256) := if_neg (ne_true_of_eq_false h)

section
variable {s : State} (hu : s.pwr.up = true) {i : Init} (hi : i.wf = true) {c : Nat} (hc : c < 12) (v : Word)
include hu hi hc

/-- `PM_INV_WRITE` is the access of a register write; as the register starts no boot ROM, the OTP stays. -/
theorem exec_pmInvWrite :
    exec (.pmInvWrite i c v) s = .next (after s ((begin s).accessCmd i .dev (0x20000000 + Reg.dspcPmInv c) 4 (some v.toNat))) :=
  pcmd_next (Bool.and_eq_true_iff.mpr ⟨hi, decide_eq_true hc⟩) hu _

theorem exec_pmInvWrite_eq {t : State} (h : exec (.registerWrite i .dev (0x20000000 + Reg.dspcPmInv c) 4 v.toNat) s = .next t) :
    exec (.pmInvWrite i c v) s = .next (after s t) := by
  rw [(exec_writes hi hu rfl).1] at h
  cases h
  exact exec_pmInvWrite hu hi hc v

theorem exec_pmInvWrite_lands (hp : (begin s).plainInit i = true) (hr : i = .host → s.pcie.link = true ∧ s.d3hot = false)
    (hw : (begin s).writeRefused i (Reg.dspcPmInv c) = false) :
    exec (.pmInvWrite i c v) s = .next (after s ((begin s).pmInvWrite c v.toNat)) := by
  have hoff : Reg.dspcPmInv c < 0x10000000 := by unfold Reg.dspcPmInv; omega
  have hal : Reg.dspcPmInv c % 4 = 0 := by unfold Reg.dspcPmInv; omega
  rw [exec_pmInvWrite hu hi hc v, accessCmd_csr_lands hoff hp hr _ hal hw, regWrite_pmInv _ i hc, Nat.mod_eq_of_lt v.isLt]

end

/-- The unlocked lines of the cores of cluster `c` among `l` that the mask names are gone. -/
def State.dropLines (s : State) (c mask : Nat) (l : List Nat) : State :=
  l.foldl (fun w j => if tb mask j = true then w.setCore c j { w.core c j with pm := [] } else w) s

theorem dropLines_cons (s : State) (c mask j : Nat) (l : List Nat) :
    s.dropLines c mask (j :: l) = (if tb mask j = true then s.setCore c j { s.core c j with pm := [] } else s).dropLines c mask l := rfl

/-- Nothing but cores is touched. -/
theorem dropLines_frame (s : State) (c mask : Nat) (l : List Nat) : ∃ m, s.dropLines c mask l = { s with cores := m } := by
  induction l generalizing s with
  | nil => exact ⟨s.cores, rfl⟩
  | cons j l ih =>
    rw [dropLines_cons]
    split
    next =>
      obtain ⟨m, hm⟩ := ih (s.setCore c j { s.core c j with pm := [] })
      exact ⟨m, hm⟩
    next => exact ih s

theorem core_dropLines {s : State} (h : mwf (fun _ => CoreState.reset) s.cores = true) (c mask : Nat) {l : List Nat} (hl : ∀ j ∈ l, j < 8)
    (c' : Nat) {k' : Nat} (hk' : k' < 8) :
    (s.dropLines c mask l).core c' k' = if c' = c ∧ k' ∈ l ∧ tb mask k' = true then { s.core c' k' with pm := [] } else s.core c' k' := by
  induction l generalizing s with
  | nil => exact (if_neg fun hm => List.not_mem_nil hm.2.1).symm
  | cons j l ih =>
    obtain ⟨hj, hl⟩ := List.forall_mem_cons.mp hl
    rw [dropLines_cons]
    by_cases hm : tb mask j = true
    · rw [if_pos hm, ih (mwf_mput _ _ _ h) hl, core_setCore h hj hk']
      by_cases he : c' = c ∧ k' = j
      · obtain ⟨rfl, rfl⟩ := he
        simp [hm]
      · grind
    · rw [if_neg hm, ih h hl]
      grind

/-- What `PM_INV_DONE` makes of a state. -/
def State.endPmInv (s : State) (c : Nat) : State :=
  if !s.rdB (Reg.dspcPmInv c) 31 then s else (s.dropLines c (s.rdF (Reg.dspcPmInv c) 7 0) (List.range 8)).wr (Reg.dspcPmInv c) 0

theorem endPmInv_idle {s : State} {c : Nat} (h : s.rdB (Reg.dspcPmInv c) 31 = false) : s.endPmInv c = s :=
  if_pos (by rw [h]; rfl)

theorem endPmInv_busy {s : State} {c : Nat} (h : s.rdB (Reg.dspcPmInv c) 31 = true) :
    s.endPmInv c = (s.dropLines c (s.rdF (Reg.dspcPmInv c) 7 0) (List.range 8)).wr (Reg.dspcPmInv c) 0 :=
  if_neg (by rw [h]; exact Bool.false_ne_true)

theorem exec_pmInvDone {s : State} (hu : s.pwr.up = true) {c : Nat} (hc : c < 12) :
    exec (.pmInvDone c) s = .next (after s ((begin s).endPmInv c)) :=
  pcmd_next (decide_eq_true hc) hu _

/-- The end of an invalidation: BUSY and CORES read 0, the named cores' lines are gone, and other clusters, memory and registers stand. -/
theorem endPmInv_effect {s : State} {c : Nat} (h : s.rdB (Reg.dspcPmInv c) 31 = true) (hm : mwf (fun _ => CoreState.reset) s.cores = true) (hr : RegInv s) :
    let t := s.endPmInv c
    t.rd (Reg.dspcPmInv c) = 0 ∧ (∀ j, j < 8 → tb (s.rdF (Reg.dspcPmInv c) 7 0) j = true → (t.core c j).pm = []) ∧
      (∀ n, n / 8 ≠ c → t.core (n / 8) (n % 8) = s.core (n / 8) (n % 8)) ∧ t.mem = s.mem ∧ ∀ o, o ≠ Reg.dspcPmInv c → t.rd o = s.rd o := by
  intro t
  have hcore : ∀ c' k', k' < 8 → t.core c' k' =
      if c' = c ∧ k' ∈ List.range 8 ∧ tb (s.rdF (Reg.dspcPmInv c) 7 0) k' = true then { s.core c' k' with pm := [] } else s.core c' k' :=
    fun c' k' hk' => (congrArg (fun u : State => u.core c' k') (endPmInv_busy h)).trans (core_dropLines hm c _ (fun _ => List.mem_range.mp) c' hk')
  obtain ⟨m, hframe⟩ := dropLines_frame s c (s.rdF (Reg.dspcPmInv c) 7 0) (List.range 8)
  have ht : t = ({ s with cores := m } : State).wr (Reg.dspcPmInv c) 0 := (endPmInv_busy h).trans (by rw [hframe])
  refine ⟨?_, fun j hj hn => ?_, fun n hn => ?_, ?_, fun o ho => ?_⟩
  · rw [ht]
    exact rd_wr_same (s := { s with cores := m }) hr _ 0
  · rw [hcore c j hj, if_pos ⟨rfl, List.mem_range.mpr hj, hn⟩]
  · rw [hcore _ _ (Nat.mod_lt n (by decide)), if_neg fun he => hn he.1]
  · rw [ht]
    rfl
  · rw [ht]
    exact rd_wr_ne (s := { s with cores := m }) hr ho 0

/-! ### The clearing of X and Y (R147, R468) -/

/-- Some core that is in service is still being cleared. -/
def State.someClearing (s : State) : Prop :=
  ∃ n, n < 96 ∧ (s.core (n / 8) (n % 8)).st = .clearing ∧ s.coreIn (n / 8) (n % 8) = true

theorem someClearing_iff (s : State) :
    ((List.range 96).any fun n => decide ((s.core (n / 8) (n % 8)).st = .clearing) && s.coreIn (n / 8) (n % 8)) = true ↔ s.someClearing := by
  simp only [State.someClearing, List.any_eq_true, List.mem_range, Bool.and_eq_true, decide_eq_true_eq]

theorem coreClearDone_other {s : State} {c k : Nat} (h : (s.core c k).st ≠ .clearing) : s.coreClearDone c k = s := if_pos h

section
variable {s : State} {c k : Nat} (h : (s.core c k).st = .clearing)
include h

theorem coreClearDone_more (hm : (s.setCore c k { s.core c k with st := .waiting }).someClearing) :
    s.coreClearDone c k = s.setCore c k { s.core c k with st := .waiting } :=
  (if_neg (not_not_intro h)).trans (if_pos ((someClearing_iff _).mpr hm))

theorem coreClearDone_last (hm : ¬(s.setCore c k { s.core c k with st := .waiting }).someClearing) :
    s.coreClearDone c k = (s.setCore c k { s.core c k with st := .waiting }).wrF Reg.pwrRst 30 30 0 :=
  (if_neg (not_not_intro h)).trans (if_neg (mt (someClearing_iff _).mp hm))

end

/-- Settles O44: `PM_INV_WRITE` is an access of CSR space, the end of an invalidation is `endPmInv`, and every other clause is one case of its
command. -/
theorem pozelControl : Obligations.PozelControl := by
  intro i c k v s hi hc hk hu b x reg
  refine ⟨⟨?_, ?_⟩, ⟨?_, ?_⟩, ?_, ?_, fun t => exec_pmInvWrite_eq hu hi hc v, fun hp hr hw => ?_, ?_, fun hb hm hreg => ?_, ?_, fun h => ⟨?_, ?_⟩, ?_⟩
  · intro h
    rw [exec_cancelAccept hu hc hk, if_pos ((acceptsCancel_iff _).mpr h)]
  · intro h
    rw [exec_cancelAccept hu hc hk, if_neg (mt (acceptsCancel_iff _).mp h)]
  · rintro ⟨hd, h⟩
    rw [exec_haltAccept hu hc hk, if_pos ⟨hd, (acceptsHalt_iff _).mpr h⟩]
  · intro h
    rw [exec_haltAccept hu hc hk, if_neg fun hx => h ⟨hx.1, (acceptsHalt_iff _).mp hx.2⟩]
  · intro h
    rw [exec_haltResume hu hc hk, if_pos h]
  · intro h
    rw [exec_haltResume hu hc hk, if_neg h]
  · rw [exec_pmInvWrite_lands hu hi hc v hp hr hw]
    exact ⟨fun h => by rw [pmInvWrite_idle h], fun h => by rw [pmInvWrite_busy h]⟩
  · intro h
    rw [exec_pmInvDone hu hc, endPmInv_busy h]
    rfl
  · exact ⟨_, exec_pmInvDone hu hc, endPmInv_effect hb hm hreg⟩
  · intro h
    rw [exec_pmInvDone hu hc, endPmInv_idle h]
  · intro hm
    rw [exec_coreClearDone hu hc hk, coreClearDone_more h hm]
  · intro hm
    rw [exec_coreClearDone hu hc hk, coreClearDone_last h hm]
  · intro h
    rw [exec_coreClearDone hu hc hk, coreClearDone_other h]

end Sys2Proof.Machine
end

section
/-! A channel engine's job, case by case: the operation that its descriptor names, its end, its follow-on task, and its stop (R182 to R190, R292). -/

namespace Sys2Proof.Machine

/-! ### The operation's command (R184, R185) -/

/-- The commands of the operations on engine `e`, each with the TYPE and OP that it runs. -/
def engCommands (e : Nat) : List (Instr × Nat) :=
  [(.cov e, 0x101), (.chol e, 0x102), (.trsolve e, 0x103), (.mmse e, 0x104), (.apply e, 0x105), (.decode e, 0x201), (.encode e, 0x301),
    (.uciDecode e, 0x401), (.rmDecode e, 0x402), (.dciEncode e, 0x403), (.pbchEncode e, 0x404), (.turboDecode e, 0x501), (.turboEncode e, 0x502),
    (.tbccDecode e, 0x503), (.fft e, 0x601), (.ifft e, 0x602), (.dft e, 0x603), (.idft e, 0x604)]

theorem exec_engCommand {s : State} (hu : s.pwr.up = true) {e : Nat} (he : e < 76) :
    ∀ o ∈ engCommands e, exec o.1 s = .next (after s ((begin s).engOp e o.2)) := by
  simp only [engCommands, List.forall_mem_cons]
  and_intros
  case refine_2 => exact fun _ h => absurd h List.not_mem_nil
  all_goals exact pcmd_next (decide_eq_true he) hu _

section
variable {s : State} {e : Nat}

/-- An engine that has its job, or whose slot is free, has no task before it. -/
theorem engFresh_none (h : (s.engAt e).job ≠ none ∨ s.task? (s.engAt e).slot = none) : s.engFresh e = none := by
  unfold State.engFresh
  dsimp only
  rcases h with h | h
  · rw [Option.isNone_eq_false_iff.mpr (Option.isSome_iff_ne_none.mpr h), Bool.and_false]
    rfl
  · rw [h, ite_self]

theorem engOp_none {key : Nat} (h : (s.engAt e).st ≠ .running ∨ (s.engAt e).job ≠ none ∨ s.task? (s.engAt e).slot = none) :
    s.engOp e key = s := by
  unfold State.engOp
  by_cases hs : (s.engAt e).st = .running
  · rw [if_neg (not_not_intro hs), engFresh_none (h.resolve_left (not_not_intro hs))]
  · exact if_pos hs

theorem engNamed_none {key : Nat} {r : Option (List Byte) × EngJob × State} (h : r.1 = none) : s.engNamed e key r = s := by
  unfold State.engNamed
  rw [h]

/-- A job that cannot run is left to its end. -/
theorem engOp_unfit {key : Nat} {t : Task} (hs : (s.engAt e).st = .running) (hf : s.engFresh e = some t)
    (hd : (s.startJobAt e (dEntry t.words) (dArg t.words)).1 = none) : s.engOp e key = s := by
  unfold State.engOp
  rw [if_neg (not_not_intro hs), hf]
  dsimp only
  rw [engNamed_none hd, ite_self]

end

/-! ### The stop (R189, R190) -/

theorem exec_engineStop {s : State} (hu : s.pwr.up = true) {e : Nat} (he : e < 76) (n : Nat) :
    exec (.engineStop e n) s = .next (after s ((begin s).engStop e n)) :=
  pcmd_next (decide_eq_true he) hu _

section
variable {s : State} {e : Nat} (n : Nat)

theorem engStop_other (h : (s.engAt e).st ≠ .stopping) : s.engStop e n = s := if_pos h

section
variable (hs : (s.engAt e).st = .stopping)
include hs

theorem engStop_job {j : EngJob} (hj : (s.engAt e).job = some j) :
    s.engStop e n = s.engFinish e { stoppedJob j with nextHandle := if j.submitted = true then j.nextHandle else 0xFFFFFFFF } true := by
  unfold State.engStop
  dsimp only
  rw [if_neg (not_not_intro hs), hj]

theorem engStop_taskless (hj : (s.engAt e).job = none) (ht : s.task? (s.engAt e).slot = none) : s.engStop e n = s.setEng e .reset := by
  unfold State.engStop
  dsimp only
  rw [if_neg (not_not_intro hs), hj, engFresh_none (.inr ht)]

theorem engStop_fresh {t : Task} (hj : (s.engAt e).job = none) (ht : s.task? (s.engAt e).slot = some t) :
    s.engStop e n = s.engHalted e (min n (2 ^ 20)) (s.startJobAt e (dEntry t.words) (dArg t.words)) := by
  unfold State.engStop
  dsimp only
  rw [if_neg (not_not_intro hs), hj, engFresh_running hj ht (.inr hs)]

end
end

section
variable {s u : State} {e n : Nat} {j : EngJob}

theorem engHalted_waits (h : j.summary = memWaits) : s.engHalted e n (none, j, u) = s := if_pos h

theorem engHalted_unfit (h : j.summary ≠ memWaits) : s.engHalted e n (none, j, u) = u.engFinish e j true := if_neg h

theorem engHalted_runs {d : List Byte} {o : OpRes} {w : State} (ho : u.opRun e d n = (o, w)) :
    s.engHalted e n (some d, j, u) =
      if o.summary = memWaits then s else (w.tally 2 (w.engPhys e) 7 o.work).engFinish e (stoppedJob (jobRes j o)) true := by
  unfold State.engHalted
  dsimp only
  rw [ho]

end

/-! ### The end of a job (R186 to R188, R292) -/

section
variable {s v : State} (hu : s.pwr.up = true) {e : Nat} (he : e < 76) (ok : Bool)
include hu he

theorem exec_engineJobEnd_bad (h : (begin s).engBufferBad e = (true, v)) :
    exec (.engineJobEnd e ok) s = .next (after s (v.unitFault (.engine e) 0x20 false)) := by
  refine (pcmd_next (decide_eq_true he) hu _).trans ?_
  rw [h]

theorem exec_engineJobEnd_good (h : (begin s).engBufferBad e = (false, v)) :
    exec (.engineJobEnd e ok) s = .next (after s (v.engJobEnd e ok)) := by
  refine (pcmd_next (decide_eq_true he) hu _).trans ?_
  rw [h]

end

section
variable {s : State} {e : Nat} (ok : Bool)

theorem engJobEnd_other (h : (s.engAt e).st ≠ .running) : s.engJobEnd e ok = s := if_pos h

section
variable (hs : (s.engAt e).st = .running)
include hs

theorem engJobEnd_taskless (hj : (s.engAt e).job = none) (ht : s.task? (s.engAt e).slot = none) : s.engJobEnd e ok = s := by
  unfold State.engJobEnd
  dsimp only
  rw [if_neg (not_not_intro hs), hj, engFresh_none (.inr ht)]

theorem engJobEnd_fresh {t : Task} (hj : (s.engAt e).job = none) (ht : s.task? (s.engAt e).slot = some t) :
    s.engJobEnd e ok = s.engUnfit e (s.startJobAt e (dEntry t.words) (dArg t.words)) := by
  unfold State.engJobEnd
  dsimp only
  rw [if_neg (not_not_intro hs), hj, engFresh_running hj ht (.inl hs)]

theorem engJobEnd_job {j k : EngJob} {u : State} (hj : (s.engAt e).job = some j) (hk : s.flushOut e j = (k, u)) :
    s.engJobEnd e ok = if k.summary = memWaits then s else u.engClose e k ok := by
  unfold State.engJobEnd
  dsimp only
  rw [if_neg (not_not_intro hs), hj]
  dsimp only
  rw [hk]

end
end

section
variable {s u : State} {e : Nat} {j : EngJob} {r : Option (List Byte)}

theorem engUnfit_stays (h : r ≠ none ∨ j.summary = memWaits) : s.engUnfit e (r, j, u) = s := by
  cases r with
  | none => exact if_pos (h.resolve_left (not_not_intro rfl))
  | some d => rfl

theorem engUnfit_ends (h : j.summary ≠ memWaits) : s.engUnfit e (none, j, u) = u.engFinish e j true := if_neg h

end

/-- The task of a slot is idempotent. -/
def State.slotIdem (s : State) (sl : Nat) : Bool :=
  match s.task? sl with
  | some t => dIdem t.words
  | none => false

section
variable {s : State} {e : Nat} {j : EngJob} (ok : Bool)

theorem engClose_ends (h : j.submitted = true ∨ 0x10 ≤ j.summary ∨ j.next = none) : s.engClose e j ok = s.engFinish e (withHandle j) ok := by
  have hn : (if j.submitted = true ∨ 0x10 ≤ j.summary then none else j.next) = none := by
    rcases h with h | h | h <;> simp [h]
  unfold State.engClose
  rw [hn]

/-! A job that finishes and has yet to submit its follow-on task. -/

section
variable {a : Nat} (hlow : j.summary < 0x10) (hs : j.submitted = false) (hn : j.next = some a)
include hlow hs hn

theorem followOn_due : (if j.submitted = true ∨ 0x10 ≤ j.summary then none else j.next) = some a :=
  (if_neg (by simp [hs, hlow])).trans hn

theorem engClose_held (hh : j.held = true) : s.engClose e j ok = s := by
  unfold State.engClose
  rw [followOn_due hlow hs hn]
  exact if_pos hh

section
variable {bs : List Byte} {w : State} (hh : j.held = false)
include hh

theorem engClose_submits (hr : s.engRead e a 32 = (none, bs, w)) :
    s.engClose e j ok = (w.hold (.engine e) (wordsOf bs) (w.slotIdem (w.engAt e).slot)).setJobOf e { j with held := true } := by
  unfold State.engClose
  rw [followOn_due hlow hs hn]
  dsimp only
  rw [if_neg (ne_true_of_eq_false hh), hr]
  rfl

theorem engClose_failed {m p : Nat} (hr : s.engRead e a 32 = (some (m, p), bs, w)) :
    s.engClose e j ok = if m = memWaits then w.setJobOf e j else w.engFinish e { j with summary := m, detail := 0, faultAddr := p } ok := by
  unfold State.engClose
  rw [followOn_due hlow hs hn]
  dsimp only
  rw [if_neg (ne_true_of_eq_false hh), hr]

end
end
end

/-- Settles O45: every operation's command is `engOp`, the stop is `engStop` and the end is `engJobEnd`, and each clause is one case of them. -/
theorem engineJobs : Obligations.EngineJobs := by
  intro e s he hu b x ops
  refine ⟨fun o ho => ?_, fun n => ?_, fun ok bad v hv => ?_⟩
  · have gives_of : ∀ t, b.engOp e o.2 = t → exec o.1 s = .next (after s t) := by
      rintro _ rfl
      exact exec_engCommand hu he o ho
    refine ⟨fun h => gives_of _ (engOp_none h), fun t r j u hs hj ht hd => ?_⟩
    have hf : b.engFresh e = some t := engFresh_running hj ht (.inl hs)
    refine ⟨?_, ?_⟩
    · rintro rfl
      exact gives_of _ (engOp_unfit hs hf (congrArg Prod.fst hd))
    · rintro d rfl w
      exact ⟨fun hk => gives_of _ (engOp_other hs hf hd hk),
        fun hk hw => gives_of _ ((engOp_runs hs hf hd hk).trans (if_neg (ne_true_of_eq_false hw))),
        fun hk hw => gives_of _ ((engOp_runs hs hf hd hk).trans (if_pos hw))⟩
  · intro gives
    have gives_of : ∀ t, b.engStop e n = t → gives t := by
      rintro _ rfl
      exact exec_engineStop hu he n
    refine ⟨fun h => gives_of _ (engStop_other n h), fun j hs hj => gives_of _ (engStop_job n hs hj),
      fun hs hj ht => gives_of _ (engStop_taskless n hs hj ht), fun t r j u hs hj ht hd => ?_⟩
    have halted : b.engStop e n = b.engHalted e (min n (2 ^ 20)) (r, j, u) := (engStop_fresh n hs hj ht).trans (congrArg _ hd)
    refine ⟨?_, ?_, ?_⟩
    · rintro rfl hw
      exact gives_of _ (halted.trans (engHalted_waits hw))
    · rintro rfl hw
      exact gives_of _ (halted.trans (engHalted_unfit hw))
    · rintro d o w rfl ho
      exact ⟨fun hw => gives_of _ ((halted.trans (engHalted_runs ho)).trans (if_pos hw)),
        fun hw => gives_of _ ((halted.trans (engHalted_runs ho)).trans (if_neg hw))⟩
  · intro y gives
    refine ⟨?_, ?_⟩
    · rintro rfl
      exact exec_engineJobEnd_bad hu he ok hv
    have gives_of : ∀ t, bad = false → v.engJobEnd e ok = t → gives t := by
      rintro _ rfl rfl
      exact exec_engineJobEnd_good hu he ok hv
    refine ⟨fun hb hs => gives_of _ hb (engJobEnd_other ok hs), fun hb hs hj ht => gives_of _ hb (engJobEnd_taskless ok hs hj ht),
      fun t r j u hb hs hj ht hd => ?_, fun j k u hb hs hj hk => ?_⟩
    · have unfit : v.engJobEnd e ok = v.engUnfit e (r, j, u) := (engJobEnd_fresh ok hs hj ht).trans (congrArg _ hd)
      refine ⟨fun h => gives_of _ hb (unfit.trans (engUnfit_stays h)), ?_⟩
      rintro rfl hw
      exact gives_of _ hb (unfit.trans (engUnfit_ends hw))
    · have ran : v.engJobEnd e ok = if k.summary = memWaits then v else u.engClose e k ok := engJobEnd_job ok hs hj hk
      have closes : ∀ t, k.summary ≠ memWaits → u.engClose e k ok = t → gives t := by
        rintro _ hw rfl
        exact gives_of _ hb (ran.trans (if_neg hw))
      have finished : k.summary < 0x10 → k.summary ≠ memWaits := fun h => Nat.ne_of_lt (Nat.lt_trans h (by decide))
      refine ⟨fun hw => gives_of _ hb (ran.trans (if_pos hw)), fun hw h => closes _ hw (engClose_ends ok h),
        fun a hlow hsub hn hh => closes _ (finished hlow) (engClose_held ok hlow hsub hn hh), fun a f bs w hlow hsub hn hh hr => ⟨?_, ?_, ?_⟩⟩
      · rintro rfl
        exact closes _ (finished hlow) (engClose_submits ok hlow hsub hn hh hr)
      · rintro p rfl
        exact closes _ (finished hlow) ((engClose_failed ok hlow hsub hn hh hr).trans (if_pos rfl))
      · rintro m p rfl hm
        exact closes _ (finished hlow) ((engClose_failed ok hlow hsub hn hh hr).trans (if_neg hm))

end Sys2Proof.Machine
end

section
/-! A transmit burst, case by case: how its job is taken, radiated and ended, and the blanking of its channel (R186 to R188, R244 to R250, R292). -/

namespace Sys2Proof.Machine

theorem context_operands {n ctx : Nat} (hn : n < 4) (hc : ctx < 64) : (decide (n < 4) && decide (ctx < 64)) = true :=
  Bool.and_eq_true_iff.mpr ⟨decide_eq_true hn, decide_eq_true hc⟩

section
variable {s : State} (hu : s.pwr.up = true) {n ctx : Nat} (hn : n < 4) (hc : ctx < 64)
include hu hn hc

theorem exec_burst : exec (.burst n ctx) s = .next (after s ((begin s).burstRun n ctx)) :=
  pcmd_next (context_operands hn hc) hu _

theorem exec_burstEnd : exec (.burstEnd n ctx) s = .next (after s ((begin s).burstEnd n ctx)) :=
  pcmd_next (context_operands hn hc) hu _

theorem exec_burstStart_bad {v : State} (h : (begin s).burstBufferBad n ctx = (true, v)) :
    exec (.burstStart n ctx) s = .next (after s (v.unitFault (.burst n ctx) 0x20 false)) := by
  refine (pcmd_next (context_operands hn hc) hu _).trans ?_
  rw [h]

theorem exec_burstStart_good {v : State} (h : (begin s).burstBufferBad n ctx = (false, v)) :
    exec (.burstStart n ctx) s = .next (after s (v.burstStart n ctx)) := by
  refine (pcmd_next (context_operands hn hc) hu _).trans ?_
  rw [h]

end

theorem exec_blankResume {s : State} (hu : s.pwr.up = true) {n ch : Nat} (hn : n < 4) (hch : ch < 128) :
    exec (.blankResume n ch) s = .next (after s ((begin s).blankResume n ch)) :=
  pcmd_next (Bool.and_eq_true_iff.mpr ⟨decide_eq_true hn, decide_eq_true hch⟩) hu _

/-! ### A context without a burst -/

section
variable {s : State} {n ctx : Nat} (h : s.burstAt n ctx = none)
include h

theorem burstRun_empty : s.burstRun n ctx = s := by
  unfold State.burstRun
  rw [h]

theorem burstBufferBad_empty : s.burstBufferBad n ctx = (false, s) := by
  unfold State.burstBufferBad
  rw [h]

theorem burstStart_empty : s.burstStart n ctx = s := by
  unfold State.burstStart
  rw [h]

theorem burstEnd_empty : s.burstEnd n ctx = s := by
  unfold State.burstEnd
  rw [h]

end

/-! ### A burst's job is taken (R186, R187, R244, R247) -/

section
variable {s : State} {n ctx : Nat} {x : BurstCtx} (h : s.burstAt n ctx = some x)
include h

theorem burstRun_other (hp : x.phase ≠ .fresh ∨ s.task? x.slot = none) : s.burstRun n ctx = s := by
  have ht : (if x.phase = .fresh then s.task? x.slot else none) = none := by
    rcases hp with hp | hp <;> simp [hp]
  unfold State.burstRun
  rw [h]
  dsimp only
  rw [ht]

theorem burstRun_fresh {t : Task} (hp : x.phase = .fresh) (ht : s.task? x.slot = some t) :
    s.burstRun n ctx = burstRead n ctx x t (s.engRead (76 + n) (dEntry t.words) 128) := by
  unfold State.burstRun
  rw [h]
  dsimp only
  rw [if_pos hp, ht]

end

section
variable {u : State} {n ctx : Nat} {x : BurstCtx} {t : Task} {d : List Byte}

theorem burstRead_failed {m p : Nat} :
    burstRead n ctx x t (some (m, p), d, u) = if m = memWaits then u else u.burstFinish n ctx x (failJob x.job m 0 p) := rfl

theorem burstRead_read : burstRead n ctx x t (none, d, u) = u.burstCheck n ctx x t d := rfl

/-- The job of a descriptor that has been read: where its status record is to stand. -/
def burstJobOf (x : BurstCtx) (d y : List Byte) : EngJob :=
  { x.job with statusAddr := if leAt d 8 8 < 2 ^ 48 ∧ leAt y 8 8 % 32 = 0 then leAt y 8 8 + 1 else 0 }

theorem burstCheck_faulty {o : Nat} (hf : u.burstFault n x.disp d (engArg d (dArg t.words)) = some o) :
    u.burstCheck n ctx x t d = u.burstFinish n ctx x (failJob (burstJobOf x d (engArg d (dArg t.words))) 0x10 o 0) := by
  unfold State.burstCheck burstJobOf
  simp only [hf, decide_eq_true_eq]

section
variable (hf : u.burstFault n x.disp d (engArg d (dArg t.words)) = none)
include hf

theorem burstCheck_idem (hi : dIdem t.words = true) :
    u.burstCheck n ctx x t d = (u.free 256).2.burstFinish n ctx x (failJob (burstJobOf x d (engArg d (dArg t.words))) 0x10 (u.free 256).1 0) := by
  unfold State.burstCheck burstJobOf
  simp only [hf, hi, decide_eq_true_eq, if_true]

theorem burstCheck_fit (hi : dIdem t.words = false) :
    u.burstCheck n ctx x t d =
      burstPending n ctx x d (engArg d (dArg t.words)) (burstJobOf x d (engArg d (dArg t.words)))
        (u.engWrite (76 + n) (leAt (engArg d (dArg t.words)) 8 8) pendingRecord) := by
  unfold State.burstCheck burstJobOf
  simp only [hf, hi, decide_eq_true_eq, Bool.false_eq_true, if_false]

end
end

section
variable {v : State} {n ctx : Nat} {x : BurstCtx} {d y : List Byte} {j : EngJob}

theorem burstPending_failed {m p : Nat} :
    burstPending n ctx x d y j (some (m, p), v) = if m = memWaits then v else v.burstFinish n ctx x (failJob j 0x13 0 (leAt y 8 8)) := rfl

theorem burstPending_written :
    burstPending n ctx x d y j (none, v) =
      burstData n ctx x d y { j with next := if tb (leAt d 2 1) 1 = true then some (leAt y 16 8) else none }
        (v.engRead (76 + n) (leAt y 56 8) (leAt d 38 2)) := rfl

theorem burstData_failed {m q : Nat} {data : List Byte} :
    burstData n ctx x d y j (some (m, q), data, v) = if m = memWaits then v else v.burstFinish n ctx x (failJob j m 0 q) := rfl

theorem burstData_read {data : List Byte} : burstData n ctx x d y j (none, data, v) = v.burstTake n ctx x d y j data := rfl

end

/-- The START that a burst of the descriptor `d` asks for: the next one that is far enough off, or a time of its own. -/
def State.burstFrom (s : State) (x : BurstCtx) (d : List Byte) : Nat :=
  if leAt d 40 8 = 0 then x.disp + 4000 else s.fullNs (leAt d 40 4) (leAt d 44 4)

/-- The end of the interval behind that START: two ramps and the symbols between them. -/
def State.burstTill (s : State) (n : Nat) (x : BurstCtx) (d : List Byte) : Nat :=
  s.burstFrom x d + 2 * rampNs d + symNs (profRec (s.plan n) (leAt d 33 1)) (burstSyms (profRec (s.plan n) (leAt d 33 1)) d)

section
variable {s : State} {n ctx : Nat} {x : BurstCtx} {d : List Byte} (y : List Byte) (j : EngJob) (data : List Byte)

theorem burstTake_conflict (hc : s.burstConflict n ctx (leAt d 32 1) (s.burstFrom x d) (s.burstTill n x d) = true) :
    s.burstTake n ctx x d y j data = s.burstFinish n ctx x (failJob j 0x14 0 0) := if_pos hc

section
variable (hc : s.burstConflict n ctx (leAt d 32 1) (s.burstFrom x d) (s.burstTill n x d) = false)
include hc

theorem burstTake_late (hl : s.burstFrom x d < x.disp + 4000) :
    s.burstTake n ctx x d y j data = s.burstFinish n ctx x (failJob j 0x15 0 0) :=
  (if_neg (ne_true_of_eq_false hc)).trans (if_pos hl)

theorem burstTake_scheduled (hl : x.disp + 4000 ≤ s.burstFrom x d) :
    s.burstTake n ctx x d y j data =
      let r := (s.bufferClear (bufferErr (s.engPhys (76 + n)) (ctx * 4096)) 4096).free (2 ^ 32)
      r.2.setBurst n ctx (some { x with
        job := j, phase := .scheduled, desc := y, prof := profRec (s.plan n) (leAt d 33 1), start := s.burstFrom x d, stop := s.burstTill n x d,
        turn0 := r.1, data := data }) :=
  (if_neg (ne_true_of_eq_false hc)).trans (if_neg (Nat.not_lt.mpr hl))

end
end

/-! ### START (R245, R248) -/

/-- The burst was cancelled before its START. -/
def BurstCtx.cancelled (x : BurstCtx) : Prop := ∃ t, x.stopAt = some t ∧ t < x.start

/-- The burst of context `ctx` radiates from its START on. -/
def State.burstRadiates (s : State) (n ctx : Nat) (x : BurstCtx) : State :=
  ((s.until (x.start * 2 ^ 32)).setBurst n ctx (some { x with phase := .up })).emit
    (.burst n (leAt x.desc 32 1) x.start (burstSymbols x.prof x.desc x.data))

section
variable {s : State} {n ctx : Nat} {x : BurstCtx} (h : s.burstAt n ctx = some x)
include h

theorem burstStart_stays (hp : x.phase ≠ .scheduled ∨ x.cancelled) : s.burstStart n ctx = s := by
  unfold State.burstStart
  rw [h]
  refine if_pos ?_
  rcases hp with hp | ⟨t, ht, hlt⟩
  · simp [hp]
  · simp [ht, hlt]

/-- The channel of a burst that goes up suspends its search if it blanks. -/
theorem burstStart_radiates (hp : x.phase = .scheduled) (hx : ¬x.cancelled) :
    s.burstStart n ctx =
      let c := leAt x.desc 32 1
      let u := s.burstRadiates n ctx x
      if chanBlank (chanRec (u.plan n) c) = true then
        (u.dropPacket n c 5).setChan n c { (u.dropPacket n c 5).chan n c with blanked := true, resume := 0 }
      else u := by
  unfold State.burstStart
  rw [h]
  refine if_neg ?_
  cases ht : x.stopAt with
  | none => simp [hp]
  | some t =>
    have hlt : ¬t < x.start := fun hlt => hx ⟨t, ht, hlt⟩
    simp [hp, hlt]

/-! ### The end of a burst (R188, R249, R250) -/

theorem burstEnd_up (hp : x.phase = .up) : s.burstEnd n ctx = (s.burstDown n ctx x).burstNext n ctx := by
  unfold State.burstEnd
  rw [h]
  dsimp only
  rw [hp]

theorem burstEnd_ended (hp : x.phase = .ended) : s.burstEnd n ctx = s.burstNext n ctx := by
  unfold State.burstEnd
  rw [h]
  dsimp only
  rw [hp]

theorem burstEnd_cancelled {c : Nat} (hp : x.phase = .scheduled) (hc : x.stopAt = some c) :
    s.burstEnd n ctx = if c < x.start then s.burstFinish n ctx x { x.job with ran := true, summary := 8 } else s := by
  unfold State.burstEnd
  rw [h]
  dsimp only
  rw [hp, hc]

theorem burstEnd_stays (hp : x.phase = .fresh ∨ x.phase = .scheduled ∧ x.stopAt = none) : s.burstEnd n ctx = s := by
  unfold State.burstEnd
  rw [h]
  dsimp only
  rcases hp with hp | ⟨hp, hc⟩
  · rw [hp]
  · rw [hp, hc]

theorem burstNext_stays (hp : x.phase ≠ .ended ∨ x.job.held = true ∧ x.stopAt = none) : s.burstNext n ctx = s := by
  unfold State.burstNext
  rw [h]
  exact if_pos hp

section
variable (hp : x.phase = .ended)
include hp

theorem burstNext_stopped (hc : x.stopAt ≠ none) : s.burstNext n ctx = s.burstFinish n ctx x { x.job with summary := 8 } := by
  have hsome : x.stopAt.isSome = true := Option.isSome_iff_ne_none.mpr hc
  unfold State.burstNext
  rw [h]
  dsimp only
  rw [if_neg (by simp [hp, hc]), if_pos (.inr hsome)]
  dsimp only
  rw [if_pos hsome]

section
variable (hc : x.stopAt = none) (hh : x.job.held = false)
include hc hh

theorem burstNext_closes (hn : x.job.submitted = true ∨ x.job.next = none) : s.burstNext n ctx = s.burstFinish n ctx x (withHandle x.job) := by
  have hnext : (if x.job.submitted = true ∨ x.stopAt.isSome = true then none else x.job.next) = none := by
    rcases hn with hn | hn <;> simp [hn]
  unfold State.burstNext
  rw [h]
  dsimp only
  rw [if_neg (by simp [hp, hh]), hnext]
  dsimp only
  rw [hc]
  rfl

section
variable {a : Nat} {bs : List Byte} {w : State} (hs : x.job.submitted = false) (hn : x.job.next = some a)
include hs hn

theorem burstNext_submits (hr : s.engRead (76 + n) a 32 = (none, bs, w)) :
    s.burstNext n ctx =
      (w.hold (.burst n ctx) (wordsOf bs) (w.slotIdem x.slot)).setBurst n ctx (some { x with job := { x.job with held := true } }) := by
  unfold State.burstNext
  rw [h]
  dsimp only
  rw [if_neg (by simp [hp, hh]), if_neg (by simp [hs, hc]), hn]
  dsimp only
  rw [hr]
  rfl

theorem burstNext_failed {m p : Nat} (hr : s.engRead (76 + n) a 32 = (some (m, p), bs, w)) :
    s.burstNext n ctx = if m = memWaits then w else w.burstFinish n ctx x { x.job with summary := m, detail := 0, faultAddr := p } := by
  unfold State.burstNext
  rw [h]
  dsimp only
  rw [if_neg (by simp [hp, hh]), if_neg (by simp [hs, hc]), hn]
  dsimp only
  rw [hr]

end
end
end
end

/-! ### Blanking (R248) -/

theorem blankResume_resumes {s : State} {n ch : Nat} (hb : (s.chan n ch).blanked = true) (hu : s.chanUp n ch = false) :
    s.blankResume n ch = (s.until ((s.chan n ch).resume * 2 ^ 32)).setChan n ch .reset :=
  if_neg (by simp [hb, hu])

theorem blankResume_stays {s : State} {n ch : Nat} (h : (s.chan n ch).blanked = false ∨ s.chanUp n ch = true) : s.blankResume n ch = s :=
  if_pos (by rcases h with h | h <;> simp [h])

/-- Settles O46: the commands are `burstRun`, `burstStart`, `burstEnd` and `blankResume`; a job is taken access by access, and every other clause
is one case of its operation. -/
theorem nfeBursts : Obligations.NfeBursts := by
  intro n ctx ch s hn hctx hch hu b gives none_
  have run : ∀ t, b.burstRun n ctx = t → gives (.burst n ctx) t := by
    rintro _ rfl
    exact exec_burst hu hn hctx
  have ends : ∀ t, b.burstEnd n ctx = t → gives (.burstEnd n ctx) t := by
    rintro _ rfl
    exact exec_burstEnd hu hn hctx
  refine ⟨fun h => ⟨run _ (burstRun_empty h), ?_, ends _ (burstEnd_empty h)⟩,
    fun x h => ⟨fun hp => run _ (burstRun_other h hp), ?_, ?_, ?_, ?_, ?_, ?_⟩,
    fun v x h => ?_, ?_, ?_⟩
  · have := exec_burstStart_good hu hn hctx (burstBufferBad_empty h)
    rwa [burstStart_empty h] at this
  · intro t f d u hp ht hr y sa j bad
    have reads : b.burstRun n ctx = burstRead n ctx x t (f, d, u) := (burstRun_fresh h hp ht).trans (congrArg _ hr)
    refine ⟨?_, ?_, ?_, ?_⟩
    · rintro m p rfl
      exact run _ (reads.trans burstRead_failed)
    · rintro o rfl hbad
      exact run _ (reads.trans (burstRead_read.trans (burstCheck_faulty hbad)))
    · rintro rfl hbad hi
      exact run _ (reads.trans (burstRead_read.trans (burstCheck_idem hbad hi)))
    · rintro g v rfl hbad hi hw
      have writes : b.burstRun n ctx = burstPending n ctx x d y j (g, v) :=
        reads.trans (burstRead_read.trans ((burstCheck_fit hbad hi).trans (congrArg _ hw)))
      refine ⟨?_, ?_⟩
      · rintro m p rfl
        exact run _ (writes.trans burstPending_failed)
      · rintro q data w rfl hd k p start stop clash
        have gets : b.burstRun n ctx = burstData n ctx x d y k (q, data, w) :=
          writes.trans (burstPending_written.trans (congrArg (burstData n ctx x d y k) hd))
        refine ⟨?_, ?_, ?_, ?_⟩
        · rintro m a rfl
          exact run _ (gets.trans burstData_failed)
        · rintro rfl hc
          exact run _ (gets.trans (burstData_read.trans (burstTake_conflict y k data hc)))
        · rintro rfl hc hl
          exact run _ (gets.trans (burstData_read.trans (burstTake_late y k data hc hl)))
        · rintro rfl hc hl
          exact run _ (gets.trans (burstData_read.trans (burstTake_scheduled y k data hc hl)))
  · intro bad v hv
    refine ⟨?_, ?_⟩
    · rintro rfl
      exact exec_burstStart_bad hu hn hctx hv
    · rintro rfl
      exact exec_burstStart_good hu hn hctx hv
  · exact fun hp => ends _ (burstEnd_up h hp)
  · exact fun hp => ends _ (burstEnd_ended h hp)
  · exact fun c hp hc => ends _ (burstEnd_cancelled h hp hc)
  · exact fun hp => ends _ (burstEnd_stays h hp)
  · refine ⟨burstStart_stays h, fun hp hx hb => (burstStart_radiates h hp hx).trans (if_neg (ne_true_of_eq_false hb)),
      fun hp hx hb => (burstStart_radiates h hp hx).trans (if_pos hb), burstNext_stays h, burstNext_stopped h, fun hp hc hh =>
      ⟨burstNext_closes h hp hc hh, fun a f bs w hs hnext hr => ⟨?_, ?_⟩⟩⟩
    · rintro m p rfl
      exact burstNext_failed h hp hc hh hs hnext hr
    · rintro rfl
      exact burstNext_submits h hp hc hh hs hnext hr
  · intro hb hup
    have := exec_blankResume hu hn hch
    rwa [blankResume_resumes hb hup] at this
  · intro hb
    have := exec_blankResume hu hn hch
    rwa [blankResume_stays hb] at this

end Sys2Proof.Machine
end

section
/-! The FSK messages, case by case: what the firmware does with a plan, a burst and an abort, and the record that it gives the host
(R224, R228, R244, R252, R253). -/

namespace Sys2Proof.Machine

/-! ### FSK.PLAN (R224, R228) -/

/-- The engine is in service, and a plan's streams are configured; SAMPLE_TX = 0xFFFF names none. -/
def State.planServed (s : State) (n : Nat) (p : List Byte) : Prop :=
  s.engIn (76 + n) = true ∧ s.tdBound (leAt p 8 2) 0 = true ∧ (leAt p 10 2 = 0xFFFF ∨ s.tdBound (leAt p 10 2) 1 = true)

/-- `FSK.PLAN` tests the negation of `planServed`. -/
theorem not_planServed_iff {s : State} {n : Nat} {p : List Byte} :
    (!s.engIn (76 + n) || !s.tdBound (leAt p 8 2) 0 || (leAt p 10 2 != 0xFFFF && !s.tdBound (leAt p 10 2) 1)) = true ↔ ¬s.planServed n p := by
  simp only [State.planServed, Bool.or_eq_true, Bool.not_eq_true', Bool.and_eq_true, bne_iff_ne, ne_eq, Classical.not_and_iff_not_or_not, not_or,
    Bool.not_eq_true, or_assoc]

section
variable {s : State} {bs : List Byte}

theorem fskPlan_refused (h : 4 ≤ leAt bs 16 1 ∨ leAt bs 32 4 ≠ 1600 ∨ s.hostImage (leAt bs 24 8) 1600 = none) :
    State.fskPlan bs s = (said stBadParam, s) := by
  unfold State.fskPlan
  rcases h with hn | hl | hf
  · exact if_pos (.inl hn)
  · exact if_pos (.inr hl)
  · simp only [hf, ite_self]

section
variable {p : List Byte} (hn : leAt bs 16 1 < 4) (hl : leAt bs 32 4 = 1600) (hf : s.hostImage (leAt bs 24 8) 1600 = some p)
include hn hl hf

theorem fskPlan_outOfRange {off : Nat} (hr : planRange p = some off) : State.fskPlan bs s = (.ready (badPlan off), s) := by
  have hn' : ¬3 < leAt bs 16 1 := by omega
  simp only [State.fskPlan, hn', hl, hf, hr, ne_eq, not_true_eq_false, or_self, if_false]

/-- A block whose fields are in range: the channels must fit, and the engine and the streams be there. -/
theorem fskPlan_inRange (hr : planRange p = none) :
    State.fskPlan bs s =
      if planFits p = true then
        if !s.engIn (76 + leAt bs 16 1) || !s.tdBound (leAt p 8 2) 0 || (leAt p 10 2 != 0xFFFF && !s.tdBound (leAt p 10 2) 1) then
          (said stNoResource, s)
        else (said stOk, s.planApply (leAt bs 16 1) p)
      else (.ready (badPlan (s.free 1600).1), (s.free 1600).2) := by
  have hn' : ¬3 < leAt bs 16 1 := by omega
  simp only [State.fskPlan, hn', hl, hf, hr, ne_eq, not_true_eq_false, or_self, if_false]
  cases planFits p <;> rfl

theorem fskPlan_unfit (hr : planRange p = none) (hx : planFits p = false) :
    State.fskPlan bs s = (.ready (badPlan (s.free 1600).1), (s.free 1600).2) :=
  (fskPlan_inRange hn hl hf hr).trans (if_neg (ne_true_of_eq_false hx))

theorem fskPlan_applies (hr : planRange p = none) (hx : planFits p = true) (hs : s.planServed (leAt bs 16 1) p) :
    State.fskPlan bs s = (said stOk, s.planApply (leAt bs 16 1) p) :=
  ((fskPlan_inRange hn hl hf hr).trans (if_pos hx)).trans (if_neg fun h => not_planServed_iff.mp h hs)

theorem fskPlan_unserved (hr : planRange p = none) (hx : planFits p = true) (hs : ¬s.planServed (leAt bs 16 1) p) :
    State.fskPlan bs s = (said stNoResource, s) :=
  ((fskPlan_inRange hn hl hf hr).trans (if_pos hx)).trans (if_pos (not_planServed_iff.mpr hs))

end

theorem fskStop_ends (hn : leAt bs 16 1 < 4) : State.fskStop bs s = (said stOk, s.planStop (leAt bs 16 1)) := if_neg (by omega)

theorem fskStop_refused (hn : 4 ≤ leAt bs 16 1) : State.fskStop bs s = (said stBadParam, s) := if_pos hn

end

/-! ### FSK.TX (R244, R252) -/

/-- The fields of `FSK.TX` name a burst that the engine could run, and a result address that the host window holds. -/
def State.burstGood (s : State) (bs : List Byte) (job : Nat) : Prop :=
  leAt bs 16 1 < 4 ∧ leAt bs 48 8 % 16 = 0 ∧ s.inWindow (leAt bs 48 8) 16 = true ∧
    s.burstFault (leAt bs 16 1) (2 ^ 96) (burstJob bs job) (burstJob bs job) = none

/-- `FSK.TX` tests the negation of `burstGood`. -/
theorem not_burstGood_iff {s : State} {bs : List Byte} {job : Nat} :
    (decide (3 < leAt bs 16 1) || leAt bs 48 8 % 16 != 0 || !s.inWindow (leAt bs 48 8) 16 ||
      (s.burstFault (leAt bs 16 1) (2 ^ 96) (burstJob bs job) (burstJob bs job)).isSome) = true ↔ ¬s.burstGood bs job := by
  have hn : 3 < leAt bs 16 1 ↔ ¬leAt bs 16 1 < 4 := by omega
  simp only [State.burstGood, Bool.or_eq_true, decide_eq_true_eq, hn, bne_iff_ne, ne_eq, Bool.not_eq_true', Option.isSome_iff_ne_none,
    Classical.not_and_iff_not_or_not, Bool.not_eq_true, or_assoc]

/-- The job of a burst and its data stand in device memory. -/
def State.burstWritten (s : State) (bs : List Byte) (job : Nat) (data : List Byte) : State :=
  ((s.busWrite (.ctl 0) job (burstJob bs job ++ List.replicate 64 0)).2.busWrite (.ctl 0) (job + 192) data).2

/-- What `FSK.TX` answers once the scheduler has said of the task: not yet admitted, its handle, or why it is rejected. -/
def State.burstReply (s : State) (bs : List Byte) (job : Nat) : Option Nat × State → Ans × State
  | (none, _) => (.none, s)
  | (some h, t) =>
    if 2 ^ 31 ≤ h then (said stNoResource, t)
    else
      (.ready { status := stAccepted, flags := 0, payload := leBytes 4 h },
        { t with fw := { t.fw with fskTx := t.fw.fskTx ++ [{ handle := h, result := leAt bs 48 8, status := job + 128, record := none }] } })

section
variable {s : State} {bs : List Byte} {flow job sl : Nat}

theorem fskTx_refused (h : ¬s.burstGood bs job ∨ s.hostImage (leAt bs 32 8) (leAt bs 40 2) = none) :
    State.fskTx flow job sl bs s = (said stBadParam, s) := by
  unfold State.fskTx
  rcases h with hg | hf
  · exact if_pos (not_burstGood_iff.mpr hg)
  · simp only [hf, ite_self]

section
variable {data : List Byte} (hg : s.burstGood bs job) (hf : s.hostImage (leAt bs 32 8) (leAt bs 40 2) = some data)
include hg hf

theorem fskTx_good :
    State.fskTx flow job sl bs s =
      if s.burstPlace job = true then s.burstReply bs job ((s.burstWritten bs job data).submitNow (burstTask (leAt bs 16 1) flow job) sl)
      else (.none, s) := by
  unfold State.fskTx
  dsimp only
  rw [if_neg fun h => not_burstGood_iff.mp h hg, hf]
  cases s.burstPlace job <;> rfl

theorem fskTx_placeless (hp : s.burstPlace job = false) : State.fskTx flow job sl bs s = (.none, s) :=
  (fskTx_good hg hf).trans (if_neg (ne_true_of_eq_false hp))

theorem fskTx_submits (hp : s.burstPlace job = true) {r : Option Nat × State}
    (hs : (s.burstWritten bs job data).submitNow (burstTask (leAt bs 16 1) flow job) sl = r) :
    State.fskTx flow job sl bs s = s.burstReply bs job r :=
  ((fskTx_good hg hf).trans (if_pos hp)).trans (congrArg _ hs)

end
end

section
variable {s t : State} {bs : List Byte} {job h : Nat}

theorem burstReply_held : s.burstReply bs job (none, t) = (.none, s) := rfl

theorem burstReply_accepted (hlt : h < 2 ^ 31) :
    s.burstReply bs job (some h, t) =
      (.ready { status := stAccepted, flags := 0, payload := leBytes 4 h },
        { t with fw := { t.fw with fskTx := t.fw.fskTx ++ [{ handle := h, result := leAt bs 48 8, status := job + 128, record := none }] } }) :=
  if_neg (Nat.not_le.mpr hlt)

theorem burstReply_rejected (hle : 2 ^ 31 ≤ h) : s.burstReply bs job (some h, t) = (said stNoResource, t) := if_pos hle

end

/-! ### The record of a burst, and FSK.TXABORT (R252, R253) -/

theorem fskResult_committed {s : State} {h : Nat} {x : FskTx} {r : List Byte} (ok : Bool)
    (hx : s.fw.fskTx.find? (fun x => x.handle == h && x.record.isSome) = some x) (hr : x.record = some r) :
    s.fskResult h ok =
      let u : State := { s with fw := { s.fw with fskTx := s.fw.fskTx.filter fun y => y.handle != h } }
      if ok = true then u.toHost x.result r else u := by
  unfold State.fskResult
  rw [hx]
  dsimp only
  rw [hr, Option.getD_some]

section
variable {s : State} {bs : List Byte}

section
variable {x : FskTx} {t : State} (hx : s.fw.fskTx.find? (fun x => x.handle == leAt bs 16 4) = some x)
include hx

theorem fskAbort_cancels (hc : s.cancelHandle (leAt bs 16 4) = (true, t)) :
    State.fskAbort bs s = (.wait (.burst (leAt bs 16 4) x.status), t) := by
  simp only [State.fskAbort, hx, hc]

theorem fskAbort_committed (hc : s.cancelHandle (leAt bs 16 4) = (false, t)) : State.fskAbort bs s = (said stAlreadyDone, t) := by
  simp only [State.fskAbort, hx, hc]

end

section
variable (hx : s.fw.fskTx.find? (fun x => x.handle == leAt bs 16 4) = none)
include hx

theorem fskAbort_over (hs : s.slotOf (leAt bs 16 4) = none) : State.fskAbort bs s = (said stAlreadyDone, s) := by
  simp only [State.fskAbort, hx, hs, Option.isSome_none, Bool.false_eq_true, if_false]

theorem fskAbort_foreign (hs : s.slotOf (leAt bs 16 4) ≠ none) : State.fskAbort bs s = (said stBadParam, s) := by
  simp only [State.fskAbort, hx, Option.isSome_iff_ne_none.mpr hs, if_true]

end
end

/-! ### The messages as commands -/

section
variable {s t : State} {m k : Nat} {bs : List Byte} {a : Ans}

theorem fskPlan_answers (h : Asked s m k 0x0A01 bs) (hf : tb (leAt bs 17 1) 0 = false) (hd : State.fskPlan bs (begin s) = (a, t)) :
    Answers (.fskPlan m) s m k a t := by
  have ⟨_, hm, _⟩ := h
  exact message_does (form := fun bs => !tb (leAt bs 17 1) 0) h (decide_eq_true hm) (by rw [hf]; rfl) rfl hd

theorem fskPlanStop_answers (h : Asked s m k 0x0A01 bs) (hf : tb (leAt bs 17 1) 0 = true) (hd : State.fskStop bs (begin s) = (a, t)) :
    Answers (.fskPlanStop m) s m k a t := by
  have ⟨_, hm, _⟩ := h
  exact message_does (form := fun bs => tb (leAt bs 17 1) 0) h (decide_eq_true hm) hf rfl hd

theorem fskTx_answers {flow job sl : Nat} (h : Asked s m k 0x0A02 bs) (hflow : flow < 65536) (hsl : sl < 131072)
    (hd : State.fskTx flow job sl bs (begin s) = (a, t)) : Answers (.fskTx m flow job sl) s m k a t := by
  have ⟨_, hm, _⟩ := h
  have hok : (decide (m < 64) && decide (flow < 65536) && decide (sl < 131072)) = true := by
    rw [decide_eq_true hm, decide_eq_true hflow, decide_eq_true hsl]
    rfl
  exact message_does (form := fun _ => true) h hok rfl rfl hd

theorem fskTxabort_answers (h : Asked s m k 0x0A03 bs) (hd : State.fskAbort bs (begin s) = (a, t)) : Answers (.fskTxabort m) s m k a t := by
  have ⟨_, hm, _⟩ := h
  exact message_does (form := fun _ => true) h (decide_eq_true hm) rfl rfl hd

end

/-- Settles O35: each message is handled by `fskPlan`, `fskStop`, `fskTx` or `fskAbort`, and the record is written by `fskResult`; each clause is
one case of them. -/
theorem fskMessages : Obligations.FskMessages := by
  intro m k bs s b n
  refine ⟨fun h hf => ?_, fun h hf => ?_, fun flow job sl h hflow hsl => ?_, fun h x r ok hu hx hr => ?_, fun h => ?_⟩
  · intro gives found
    have plan : ∀ a v, State.fskPlan bs b = (a, v) → gives a v := fun _ _ => fskPlan_answers h hf
    exact ⟨fun hbad => plan _ _ (fskPlan_refused hbad), fun p hn hl hp =>
      ⟨fun off hr => plan _ _ (fskPlan_outOfRange hn hl hp hr), fun hr hx => plan _ _ (fskPlan_unfit hn hl hp hr hx),
        fun hr hx he hs => plan _ _ (fskPlan_applies hn hl hp hr hx ⟨he, hs⟩), fun hr hx hs => plan _ _ (fskPlan_unserved hn hl hp hr hx hs)⟩⟩
  · exact ⟨fun hn => fskPlanStop_answers h hf (fskStop_ends hn), fun hn => fskPlanStop_answers h hf (fskStop_refused hn)⟩
  · intro gives d found good
    have tx : ∀ a v, State.fskTx flow job sl bs b = (a, v) → gives a v := fun _ _ => fskTx_answers h hflow hsl
    refine ⟨fun hbad => tx _ _ (fskTx_refused hbad), fun data hg hdata => ⟨fun hp => tx _ _ (fskTx_placeless hg hdata hp), fun hp => ?_⟩⟩
    intro u r t hs
    refine ⟨?_, ?_, ?_⟩
    · rintro rfl
      exact tx _ _ ((fskTx_submits hg hdata hp hs).trans burstReply_held)
    · rintro handle rfl hlt
      exact tx _ _ ((fskTx_submits hg hdata hp hs).trans (burstReply_accepted hlt))
    · rintro handle rfl hle
      exact tx _ _ ((fskTx_submits hg hdata hp hs).trans (burstReply_rejected hle))
  · intro u
    rw [← fskResult_committed ok hx hr]
    exact pcmd_next rfl hu _
  · intro hd gives
    have abort : ∀ a v, State.fskAbort bs b = (a, v) → gives a v := fun _ _ => fskTxabort_answers h
    exact ⟨fun x t hx hc => abort _ _ (fskAbort_cancels hx hc), fun x t hx hc => abort _ _ (fskAbort_committed hx hc),
      fun hx hs => abort _ _ (fskAbort_over hx hs), fun hx hs => abort _ _ (fskAbort_foreign hx hs)⟩

end Sys2Proof.Machine
end

section
/-! The reception of a packet, case by case: the detections of its preamble, its decision, its sync word and header, its end, and its report
(R223, R233 to R242). -/

namespace Sys2Proof.Machine

/-! ### The commands of a powered payload -/

theorem channel_operands {n ch : Nat} (hn : n < 4) (hch : ch < 128) : (decide (n < 4) && decide (ch < 128)) = true :=
  Bool.and_eq_true_iff.mpr ⟨decide_eq_true hn, decide_eq_true hch⟩

section
variable {s : State} (hu : s.pwr.up = true) {n : Nat} (hn : n < 4)
include hu hn

theorem exec_streamGap (lost : Nat) : exec (.streamGap n lost) s = .next (after s ((begin s).streamGap n lost)) :=
  pcmd_next (decide_eq_true hn) hu _

theorem exec_nfeReportWrite : exec (.nfeReportWrite n) s = .next (after s ((begin s).reportWrite n)) := pcmd_next (decide_eq_true hn) hu _

variable {ch : Nat} (hch : ch < 128)
include hch

theorem exec_preambleDetect (profs corrs : List Nat) (sigs : List (Nat × Int)) :
    exec (.preambleDetect n ch profs corrs sigs) s = .next (after s ((begin s).preambleDetect n ch (profs.zip (corrs.zip sigs)))) :=
  pcmd_next (channel_operands hn hch) hu _

theorem exec_captureDecision (errs : List Int) (bits : List Bool) :
    exec (.captureDecision n ch errs bits) s = .next (after s ((begin s).captureDecision n ch errs bits)) :=
  pcmd_next (channel_operands hn hch) hu _

theorem exec_syncTimeout : exec (.syncTimeout n ch) s = .next (after s ((begin s).syncTimeout n ch)) :=
  pcmd_next (channel_operands hn hch) hu _

theorem exec_sfdFound (word : Nat) (bits : List Bool) (time : Nat) :
    exec (.sfdFound n ch word bits time) s = .next (after s ((begin s).sfdFound n ch word bits time)) :=
  pcmd_next (channel_operands hn hch) hu _

theorem exec_ncoTrackUpdate (errs : List Int) :
    exec (.ncoTrackUpdate n ch errs) s = .next (after s ((begin s).ncoTrack n ch errs)) :=
  pcmd_next (channel_operands hn hch) hu _

theorem exec_packetEnd (errs : List Int) (bits : List Bool) :
    exec (.packetEnd n ch errs bits) s = .next (after s ((begin s).packetEnd n ch errs bits)) :=
  pcmd_next (channel_operands hn hch) hu _

end

/-! ### Detections (R233 to R237) -/

/-- The hit taken of those in one sample: of a profile of the channel, and with some power. -/
def State.takenHit (s : State) (n ch : Nat) (hits : List (Nat × Nat × Nat × Int)) : Option (Nat × Nat × Nat × Int) :=
  bestHit (hits.filter fun h => (profSet (chanRec (s.plan n) ch)).contains h.1 && h.2.2.1 != 0)

section
variable {s : State} {n ch : Nat} {hits : List (Nat × Nat × Nat × Int)}

theorem preambleDetect_none (h : s.rxOn n ch = false ∨ s.takenHit n ch hits = none) : s.preambleDetect n ch hits = s := by
  unfold State.takenHit at h
  unfold State.preambleDetect
  rcases h with h | h
  · exact if_pos (by rw [h]; rfl)
  · simp only [h, ite_self]

section
variable {h : Nat × Nat × Nat × Int} (hon : s.rxOn n ch = true) (hb : s.takenHit n ch hits = some h)
include hon hb

/-- A searching channel follows the hit; on a busy one it awaits its decision. -/
theorem preambleDetect_hit :
    s.preambleDetect n ch hits =
      if (s.chan n ch).phase = .search then s.toSync n ch (hitDetect (s.plan n) ch h)
      else s.setChan n ch { s.chan n ch with second := (s.chan n ch).second ++ [hitDetect (s.plan n) ch h] } := by
  unfold State.takenHit at hb
  simp only [State.preambleDetect, hon, hb, Bool.not_true, Bool.false_eq_true, if_false]

theorem preambleDetect_syncs (hp : (s.chan n ch).phase = .search) :
    s.preambleDetect n ch hits = s.toSync n ch (hitDetect (s.plan n) ch h) :=
  (preambleDetect_hit hon hb).trans (if_pos hp)

theorem preambleDetect_awaits (hp : (s.chan n ch).phase ≠ .search) :
    s.preambleDetect n ch hits = s.setChan n ch { s.chan n ch with second := (s.chan n ch).second ++ [hitDetect (s.plan n) ch h] } :=
  (preambleDetect_hit hon hb).trans (if_neg hp)

end
end

/-! ### The decision on second preambles (R235, R236) -/

section
variable {s : State} {n ch : Nat} (bits : List Bool)

theorem captureDecision_none (errs : List Int) (h : (s.chan n ch).second = []) : s.captureDecision n ch errs bits = s :=
  if_pos (List.isEmpty_iff.mpr h)

theorem captureDecision_decides (errs : List Int) (h : (s.chan n ch).second ≠ []) :
    s.captureDecision n ch errs bits =
      let w := s.ncoTrack n ch errs
      (w.chan n ch).second.foldl (fun w d => w.contend n ch bits d) (w.setChan n ch { w.chan n ch with second := [] }) :=
  if_neg (mt List.isEmpty_iff.mp h)

section
variable {d : Detect}

theorem contend_stronger (h : 2 * (s.rdF (Reg.nfeCtrl n) 11 8 : Int) ≤ d.rssi - (s.chan n ch).det.rssi) :
    s.contend n ch bits d =
      (if (s.chan n ch).phase = .receive then s.endPacket n ch 2 (s.heldData n ch bits) else s.count (Reg.nfeNosync n) 1).toSync n ch d :=
  if_pos h

theorem contend_captures (h : 2 * (s.rdF (Reg.nfeCtrl n) 11 8 : Int) ≤ d.rssi - (s.chan n ch).det.rssi) (hp : (s.chan n ch).phase = .receive) :
    s.contend n ch bits d = (s.endPacket n ch 2 (s.heldData n ch bits)).toSync n ch d := by
  rw [contend_stronger bits h, if_pos hp]

theorem contend_resyncs (h : 2 * (s.rdF (Reg.nfeCtrl n) 11 8 : Int) ≤ d.rssi - (s.chan n ch).det.rssi) (hp : (s.chan n ch).phase ≠ .receive) :
    s.contend n ch bits d = (s.count (Reg.nfeNosync n) 1).toSync n ch d := by
  rw [contend_stronger bits h, if_neg hp]

theorem contend_ignores (h : d.rssi - (s.chan n ch).det.rssi < 2 * (s.rdF (Reg.nfeCtrl n) 11 8 : Int)) : s.contend n ch bits d = s :=
  if_neg (Int.not_le.mpr h)

end
end

/-! ### SYNC, the sync word and the header (R234, R241, R242) -/

theorem syncTimeout_sync {s : State} {n ch : Nat} (h : (s.chan n ch).phase = .sync) :
    s.syncTimeout n ch = (s.count (Reg.nfeNosync n) 1).nextPacket n ch (s.chan n ch).second := if_pos h

theorem syncTimeout_other {s : State} {n ch : Nat} (h : (s.chan n ch).phase ≠ .sync) : s.syncTimeout n ch = s := if_neg h

/-- The channel in RECEIVE with the bits decided so far, stamped with the end of the sync word. -/
def State.toReceive (s : State) (n ch : Nat) (fec : Bool) (bits : List Bool) (time : Nat) : State :=
  let x := s.chan n ch
  let r := s.stamp n ch time
  r.2.setChan n ch { x with phase := .receive, fec := fec, time := r.1, hdr := headerIn (s.profOf n x.det) fec bits, bits := bits }

section
variable {s : State} {n ch word : Nat} (bits : List Bool) (time : Nat)

theorem sfdFound_none (h : (s.chan n ch).phase ≠ .sync ∨ syncMatch (s.profOf n (s.chan n ch).det) word = none) :
    s.sfdFound n ch word bits time = s := by
  have hnone : (if (s.chan n ch).phase = .sync then syncMatch (s.profOf n (s.chan n ch).det) word else none) = none := by
    rcases h with h | h
    · exact if_neg h
    · rw [h, ite_self]
  simp only [State.sfdFound, hnone]

section
variable {fec : Bool} (hp : (s.chan n ch).phase = .sync) (hm : syncMatch (s.profOf n (s.chan n ch).det) word = some fec)
include hp hm

theorem sfdFound_receives (hh : headerIn (s.profOf n (s.chan n ch).det) fec bits = 65536) :
    s.sfdFound n ch word bits time = s.toReceive n ch fec bits time := by
  simp only [State.sfdFound, State.toReceive, hp, hm, hh, if_true]

section
variable {bits} {h : Nat} (hh : headerIn (s.profOf n (s.chan n ch).det) fec bits = h) (hne : h ≠ 65536)
include hh hne

theorem sfdFound_reserves (he : (hdrOf (s.profOf n (s.chan n ch).det) h).ends = none) :
    s.sfdFound n ch word bits time = (s.toReceive n ch fec bits time).reserve n ch (hdrOf (s.profOf n (s.chan n ch).det) h).length := by
  simp only [State.sfdFound, State.toReceive, hp, hm, hh, hne, he, if_true, if_false]

theorem sfdFound_ends {st : Nat} (he : (hdrOf (s.profOf n (s.chan n ch).det) h).ends = some st) :
    s.sfdFound n ch word bits time = ((s.toReceive n ch fec bits time).endPacket n ch st []).nextPacket n ch (s.chan n ch).second := by
  simp only [State.sfdFound, State.toReceive, hp, hm, hh, hne, he, if_true, if_false]

end
end
end

/-! ### Tracking (R238) -/

theorem ncoTrack_other {s : State} {n ch : Nat} (errs : List Int) (h : (s.chan n ch).phase ≠ .receive) : s.ncoTrack n ch errs = s := if_pos h

theorem ncoTrack_receive {s : State} {n ch : Nat} (errs : List Int) (h : (s.chan n ch).phase = .receive) :
    s.ncoTrack n ch errs =
      s.setChan n ch (errs.foldl (errStep (s.profOf n (s.chan n ch).det) (ncoLimit (chanWs (s.plan n) ch))) (s.chan n ch)) :=
  if_neg (not_not_intro h)

/-- The channel with one symbol's error more. -/
def RxChan.withErr (x : RxChan) (e : Int) : RxChan := { x with errs := x.errs ++ [e], errSq := x.errSq + e.natAbs ^ 2, errN := x.errN + 1 }

theorem withErr_length (x : RxChan) (e : Int) : (x.withErr e).errs.length = x.errs.length + 1 := List.length_append

section
variable {p : List Byte} {lim e : Int} {x : RxChan}

theorem errStep_eq : errStep p lim x e = if (x.withErr e).errs.length = 8 then trackStep p lim (x.withErr e) else x.withErr e := rfl

theorem errStep_collects (h : x.errs.length ≠ 7) : errStep p lim x e = x.withErr e := by
  rw [errStep_eq, withErr_length, if_neg (mt Nat.succ.inj h)]

theorem errStep_eighth (h : x.errs.length = 7) : errStep p lim x e = trackStep p lim (x.withErr e) := by
  rw [errStep_eq, withErr_length, h, if_pos rfl]

theorem trackStep_off (h : profTrk p = 15) : trackStep p lim x = { x with errs := [] } := if_pos h

theorem trackStep_on (h : profTrk p ≠ 15) :
    trackStep p lim x =
      let sum := x.det.nco + x.errs.sum * ((2 ^ (7 - profTrk p) : Nat) : Int)
      { x with det := { x.det with nco := held lim sum }, trkLimit := x.trkLimit || decide (lim ≤ sum.natAbs), errs := [] } := if_neg h

end

/-! ### The end of a packet, and of every packet (R223, R234, R236) -/

section
variable {s : State} {n ch : Nat} (errs : List Int) (bits : List Bool)

theorem packetEnd_none (h : (s.chan n ch).phase ≠ .receive ∨ s.hdrHeld n (s.chan n ch) = none) : s.packetEnd n ch errs bits = s := by
  unfold State.packetEnd
  rcases h with h | h
  · exact if_pos h
  · simp only [h, ite_self]

/-- A packet ends once its whole data bytes have been decided. -/
theorem packetEnd_held {h : Hdr} (hp : (s.chan n ch).phase = .receive) (hh : s.hdrHeld n (s.chan n ch) = some h) :
    s.packetEnd n ch errs bits =
      if (s.heldData n ch bits).length < h.length then s
      else ((s.ncoTrack n ch errs).endPacket n ch (if packetOk (s.profOf n (s.chan n ch).det) h (s.heldData n ch bits) = true then 0 else 1)
        (s.heldData n ch bits)).nextPacket n ch (s.chan n ch).second := by
  simp only [State.packetEnd, hp, hh, ne_eq, not_true_eq_false, if_false]

end

section
variable {s : State} {n : Nat} (lost : Nat)

theorem streamGap_off (h : s.nfeOn n = false) : s.streamGap n lost = s := if_pos (by rw [h]; rfl)

theorem streamGap_on (h : s.nfeOn n = true) :
    s.streamGap n lost =
      let u := s.count (Reg.nfeGap n) lost
      (u.busyChans n).foldl (fun w ch => if (w.chan n ch).phase = .receive then w.dropPacket n ch 3 else w) u :=
  if_neg (by rw [h]; decide)

end

/-! ### Reports (R241, R242) -/

/-- The reports that the ring of an engine holds: PI less CI. -/
def State.reportsHeld (s : State) (n : Nat) : Nat := (s.rdF (Reg.nfeRxPi n) 15 0 + 65536 - s.rdF (Reg.nfeRxCi n) 15 0) % 65536

/-- A packet's reservation of the data ring is passed over. -/
def State.passData (s : State) (n : Nat) (p : RxPkt) : State := s.wr (Reg.nfeRxdPi n) ((s.rd (Reg.nfeRxdPi n) + p.res) % 2 ^ 32)

/-- A packet's data and its report stand in their rings. -/
def State.reportStored (s : State) (n : Nat) (p : RxPkt) : State :=
  let f := s.nfeAt n
  ((s.ringWrite n (leAt f.plan 24 8) (2 ^ leAt f.plan 13 1) p.off p.data).engWrite (76 + n)
    (leAt f.plan 16 8 + s.rdF (Reg.nfeRxPi n) 15 0 % 2 ^ leAt f.plan 12 1 * 32) (reportBytes p f.seq)).2

/-- The indices behind that report, and the packets still due; a captured packet is counted. -/
def State.reportPassed (s : State) (n : Nat) (p : RxPkt) (rest : List RxPkt) : State :=
  let u := s.reportStored n p
  let w := ((u.wrF (Reg.nfeRxPi n) 15 0 ((s.rdF (Reg.nfeRxPi n) 15 0 + 1) % 65536)).passData n p).setNfe n
    { u.nfeAt n with done := rest, seq := ((s.nfeAt n).seq + 1) % 2 ^ 32 }
  if p.status = 2 then w.count (Reg.nfeCaptures n) 1 else w

section
variable {s : State} {n : Nat}

theorem reportWrite_none (h : (s.nfeAt n).plan = [] ∨ (s.nfeAt n).done = []) : s.reportWrite n = s := by
  have hdue : (if (s.nfeAt n).plan.isEmpty = true then [] else (s.nfeAt n).done) = [] := by
    rcases h with h | h
    · exact if_pos (List.isEmpty_iff.mpr h)
    · rw [h, ite_self]
  simp only [State.reportWrite, hdue]

section
variable {p : RxPkt} {rest : List RxPkt} (hb : (s.nfeAt n).plan ≠ []) (hd : (s.nfeAt n).done = p :: rest)
include hb hd

theorem reportWrite_due :
    s.reportWrite n =
      if 2 ^ leAt (s.nfeAt n).plan 12 1 ≤ s.reportsHeld n then
        if (p.off + p.res) % 2 ^ leAt (s.nfeAt n).plan 13 1 = (s.nfeAt n).rxdRes % 2 ^ leAt (s.nfeAt n).plan 13 1 then
          (s.count (Reg.nfeRxLost n) 1).setNfe n { s.nfeAt n with done := rest, rxdRes := ((s.nfeAt n).rxdRes + 2 ^ 32 - p.res) % 2 ^ 32 }
        else ((s.count (Reg.nfeRxLost n) 1).passData n p).setNfe n { s.nfeAt n with done := rest }
      else
        let y := s.reportPassed n p rest
        ((y.tally 2 (y.engPhys (76 + n)) 7 1).post (leAt (s.nfeAt n).plan 14 2) (2 ^ leAt (s.nfeAt n).plan 32 1)).notice 0x0A04 0
          (leBytes 4 n ++ reportBytes p (s.nfeAt n).seq) := by
  have hdue : (if (s.nfeAt n).plan.isEmpty = true then [] else (s.nfeAt n).done) = p :: rest :=
    (if_neg (mt List.isEmpty_iff.mp hb)).trans hd
  unfold State.reportWrite
  dsimp only
  rw [hdue]
  rfl

end
end

/-- Settles O47: each command is one operation of reception, and each clause is one case of it. -/
theorem nfeReception : Obligations.NfeReception := by
  intro n ch s hn hch hu b x gives
  refine ⟨fun profs corrs sigs => ?_, fun errs bits => ?_, fun w bits d => ?_, fun hp => ?_, fun hp => ?_, fun word bits time => ?_, fun errs => ?_,
    fun p lim e y => ?_, fun errs bits => ?_, fun lost => ?_, fun h => ?_, fun p rest hb hd => ?_⟩
  · intro hits best
    have detects : ∀ t, b.preambleDetect n ch hits = t → gives (.preambleDetect n ch profs corrs sigs) t := by
      rintro _ rfl
      exact exec_preambleDetect hu hn hch profs corrs sigs
    exact ⟨fun h => detects _ (preambleDetect_none h), fun h hon hb =>
      ⟨fun hp => detects _ (preambleDetect_syncs hon hb hp), fun hp => detects _ (preambleDetect_awaits hon hb hp)⟩⟩
  · have decides : ∀ t, b.captureDecision n ch errs bits = t → gives (.captureDecision n ch errs bits) t := by
      rintro _ rfl
      exact exec_captureDecision hu hn hch errs bits
    exact ⟨fun h => decides _ (captureDecision_none bits errs h), fun h => decides _ (captureDecision_decides bits errs h)⟩
  · exact ⟨contend_captures bits, contend_resyncs bits, contend_ignores bits⟩
  · rw [← syncTimeout_sync hp]
    exact exec_syncTimeout hu hn hch
  · have := exec_syncTimeout hu hn hch
    rwa [syncTimeout_other hp] at this
  · have finds : ∀ t, b.sfdFound n ch word bits time = t → gives (.sfdFound n ch word bits time) t := by
      rintro _ rfl
      exact exec_sfdFound hu hn hch word bits time
    exact ⟨fun h => finds _ (sfdFound_none bits time h), fun fec hp hm => ⟨fun hh => finds _ (sfdFound_receives bits time hp hm hh),
      fun hne he => finds _ (sfdFound_reserves time hp hm rfl hne he), fun st hne he => finds _ (sfdFound_ends time hp hm rfl hne he)⟩⟩
  · have tracks : ∀ t, b.ncoTrack n ch errs = t → gives (.ncoTrackUpdate n ch errs) t := by
      rintro _ rfl
      exact exec_ncoTrackUpdate hu hn hch errs
    exact ⟨fun hp => tracks _ (ncoTrack_other errs hp), fun hp => tracks _ (ncoTrack_receive errs hp)⟩
  · exact ⟨errStep_collects, fun h ht => (errStep_eighth h).trans (trackStep_off ht), fun h ht => (errStep_eighth h).trans (trackStep_on ht)⟩
  · have ends : ∀ t, b.packetEnd n ch errs bits = t → gives (.packetEnd n ch errs bits) t := by
      rintro _ rfl
      exact exec_packetEnd hu hn hch errs bits
    exact ⟨fun h => ends _ (packetEnd_none errs bits h), fun h hp hh => ⟨fun hl => ends _ ((packetEnd_held errs bits hp hh).trans (if_pos hl)),
      fun hl => ends _ ((packetEnd_held errs bits hp hh).trans (if_neg (Nat.not_lt.mpr hl)))⟩⟩
  · have gaps : ∀ t, b.streamGap n lost = t → gives (.streamGap n lost) t := by
      rintro _ rfl
      exact exec_streamGap hu hn lost
    exact ⟨fun h => gaps _ (streamGap_off lost h), fun h => gaps _ (streamGap_on lost h)⟩
  · have := exec_nfeReportWrite hu hn
    rwa [reportWrite_none h] at this
  · have writes : ∀ t, b.reportWrite n = t → gives (.nfeReportWrite n) t := by
      rintro _ rfl
      exact exec_nfeReportWrite hu hn
    refine ⟨fun hfull hnew => writes _ ?_, fun hfull hold => writes _ ?_, fun hroom => writes _ ?_⟩
    · exact (reportWrite_due hb hd).trans ((if_pos hfull).trans (if_pos hnew))
    · exact (reportWrite_due hb hd).trans ((if_pos hfull).trans (if_neg hold))
    · exact (reportWrite_due hb hd).trans (if_neg (Nat.not_le.mpr hroom))

end Sys2Proof.Machine
end

section
/-! A Decant channel, case by case: its CMD register, the read, check and service of a descriptor in each mode, its commit with read-back and
submission, and the end of a failed transfer (R258, R260, R263, R273, R275, R282, R284, R286). -/

namespace Sys2Proof.Machine

/-! ### The commands of a powered payload -/

section
variable {s : State} (hu : s.pwr.up = true) {ch : Nat} (hch : ch < 64)
include hu hch

theorem exec_dctGo (v : Word) : exec (.dctGo ch v) s = .next (after s ((begin s).dctCmdWrite ch v.toNat)) :=
  pcmd_next (decide_eq_true hch) hu _

theorem exec_dctAbort (v : Word) : exec (.dctAbort ch v) s = .next (after s ((begin s).dctCmdWrite ch v.toNat)) :=
  pcmd_next (decide_eq_true hch) hu _

theorem exec_linear (n : Nat) :
    exec (.linear ⟨ch, n⟩) s = .next { (begin s).dctRun ch 0 (fun t d => t.moveRows ch d n) with pending := s.pending } :=
  otpCmd_live (decide_eq_true hch) hu _

theorem exec_twoD (n : Nat) : exec (.twoD ⟨ch, n⟩) s = .next (after s ((begin s).dctRun ch 1 fun t d => t.moveRows ch d n)) :=
  pcmd_next (decide_eq_true hch) hu _

theorem exec_gather (n : Nat) : exec (.gather ⟨ch, n⟩) s = .next (after s ((begin s).dctRun ch 2 fun t d => t.moveList ch d true n)) :=
  pcmd_next (decide_eq_true hch) hu _

theorem exec_scatter (n : Nat) : exec (.scatter ⟨ch, n⟩) s = .next (after s ((begin s).dctRun ch 3 fun t d => t.moveList ch d false n)) :=
  pcmd_next (decide_eq_true hch) hu _

theorem exec_dctDescriptorCommit (ok : Bool) : exec (.dctDescriptorCommit ch ok) s = .next (after s ((begin s).dctCommitStep ch ok)) :=
  pcmd_next (decide_eq_true hch) hu _

theorem exec_dctTransferError :
    exec (.dctTransferError ch) s =
      let x := (begin s).dctAt ch
      .next (after s (if x.phase = .failed ∧ !x.abort then (begin s).dctStop ch x.summary x.cause x.dofs x.errAddr else begin s)) :=
  pcmd_next (decide_eq_true hch) hu _

theorem exec_dctTransferError_failed (hp : ((begin s).dctAt ch).phase = .failed) (ha : ((begin s).dctAt ch).abort = false) :
    exec (.dctTransferError ch) s =
      let x := (begin s).dctAt ch
      .next (after s ((begin s).dctStop ch x.summary x.cause x.dofs x.errAddr)) := by
  rw [exec_dctTransferError hu hch]
  dsimp only
  rw [if_pos ⟨hp, by rw [ha]; rfl⟩]

theorem exec_dctTransferError_other (h : ((begin s).dctAt ch).phase ≠ .failed ∨ ((begin s).dctAt ch).abort = true) :
    exec (.dctTransferError ch) s = .next (after s (begin s)) := by
  rw [exec_dctTransferError hu hch]
  dsimp only
  rw [if_neg (by rcases h with h | h <;> simp [h])]

end

/-! ### CMD: GO and ABORT (R258, R284, R287) -/

section
variable {s : State} {ch : Nat}

theorem dctGo_starts (hen : s.rdB Reg.dctCtrl 0 = true) (hch : s.rdB (Reg.dctChCfg ch) 31 = true) (ho : s.dctOwner ch = 0)
    (hp : (s.dctAt ch).phase = .idle) :
    s.dctGo ch = s.startChain ch none (s.rdPair (Reg.dctChHeadLo ch) (Reg.dctChHeadHi ch) / 64 * 64) 0 :=
  if_pos (by simp [hen, hch, ho, hp])

theorem dctGo_stays (h : s.rdB Reg.dctCtrl 0 = false ∨ s.rdB (Reg.dctChCfg ch) 31 = false ∨ s.dctOwner ch ≠ 0 ∨ (s.dctAt ch).phase ≠ .idle) :
    s.dctGo ch = s :=
  if_neg (by rcases h with h | h | h | h <;> simp [h])

theorem dctAbort_stays
    (h : s.dctOwner ch ≠ 0 ∨ (s.dctAt ch).phase = .isolated ∨ ((s.dctAt ch).phase ≠ .idle ∧ (s.dctAt ch).abort = true)) :
    s.dctAbort ch = s := by
  unfold State.dctAbort
  dsimp only
  rcases h with ho | hp | ⟨hp, ha⟩
  · exact if_pos ho
  · simp [hp]
  · simp [hp, ha]

theorem dctAbort_idle (ho : s.dctOwner ch = 0) (hp : (s.dctAt ch).phase = .idle) : s.dctAbort ch = s.wrF (Reg.dctChStat ch) 27 26 2 :=
  (if_neg (not_not_intro ho)).trans (if_pos hp)

theorem dctAbort_busy (ho : s.dctOwner ch = 0) (hp : (s.dctAt ch).phase ≠ .idle) (hi : (s.dctAt ch).phase ≠ .isolated)
    (ha : (s.dctAt ch).abort = false) :
    s.dctAbort ch =
      (((s.withdraw (.decant ch)).setDct ch { s.dctAt ch with abort := true }).wrF (Reg.dctChStat ch) 31 28 3).wrF (Reg.dctChStat ch) 27 26 1 :=
  ((if_neg (not_not_intro ho)).trans (if_neg hp)).trans (if_neg (not_or.mpr ⟨hi, ne_true_of_eq_false ha⟩))

/-- ABORT acts first, whatever GO asks for. -/
theorem dctCmdWrite_eq (s : State) (ch v : Nat) :
    s.dctCmdWrite ch v =
      if tb v 0 = true then (if tb v 1 = true then s.dctAbort ch else s).dctGo ch else if tb v 1 = true then s.dctAbort ch else s := rfl

end

/-! ### The service of a fit descriptor (R286) -/

section
variable {s : State} {ch : Nat} (move : State → Desc → State)

theorem dctServe_moves (h : s.dctServed ch = true ∧ s.dctWaits ch (s.dctAt ch).desc = false) :
    s.dctServe ch move = move (s.dctTake ch) (s.dctAt ch).desc :=
  if_pos (by simp [h])

theorem dctServe_waits (h : ¬(s.dctServed ch = true ∧ s.dctWaits ch (s.dctAt ch).desc = false)) : s.dctServe ch move = s :=
  if_neg (by simpa using h)

end

/-! ### A descriptor read and checked (R260, R263) -/

/-- The channel with the descriptor that it has read, before the check: nothing of its transfer has begun. -/
def State.dctLoad (t : State) (ch : Nat) (x : DctChan) (d : Desc) : State :=
  (t.dctClear ch).setDct ch { x with desc := d, eng := false, run := 0, issued := 0, passed := 0, staged := [], wrote := 0, summary := 0 }

/-- The lowest failing offset of a descriptor that a channel has read. -/
def State.dctFault (t : State) (ch : Nat) (d : Desc) : Option Nat := firstFault d (decide (ch < 4)) (t.dctOwner ch == 2)

/-- A channel whose descriptor is fit: it waits for its service. -/
def State.dctReady (t : State) (ch : Nat) : State := t.setDct ch { t.dctAt ch with phase := .ready }

section
variable {s t : State} {ch mode cur : Nat} {move : State → Desc → State}

theorem dctFetched_err {e : Nat} : s.dctFetched ch mode cur move (.err e, t) = (t.dctClear ch).dctFailed ch 0x11 1 cur := rfl

theorem dctFetched_ue {e : Nat} : s.dctFetched ch mode cur move (.ue e, t) = (t.dctClear ch).dctFailed ch 0x11 3 cur := rfl

section
variable {bs : List Byte}

theorem dctFetched_otherMode (hm : gMode (withArg bs (s.dctAt ch).arg) ≠ mode) : s.dctFetched ch mode cur move (.ok bs, t) = s := by
  unfold State.dctFetched
  dsimp only
  rw [if_pos hm]

section
variable {d : Desc} (hd : withArg bs (s.dctAt ch).arg = d) (hm : gMode d = mode)
include hd hm

theorem dctFetched_unfit {o : Nat} (hf : (t.dctLoad ch (s.dctAt ch) d).dctFault ch d = some o) :
    s.dctFetched ch mode cur move (.ok bs, t) = (t.dctLoad ch (s.dctAt ch) d).dctStop ch 0x10 0 o cur := by
  subst hd
  unfold State.dctFault State.dctLoad at hf
  unfold State.dctFetched
  dsimp only
  rw [if_neg (not_not_intro hm), hf]
  rfl

theorem dctFetched_fit (hf : (t.dctLoad ch (s.dctAt ch) d).dctFault ch d = none) :
    s.dctFetched ch mode cur move (.ok bs, t) = ((t.dctLoad ch (s.dctAt ch) d).dctReady ch).dctServe ch move := by
  subst hd
  unfold State.dctFault State.dctLoad at hf
  unfold State.dctFetched
  dsimp only
  rw [if_neg (not_not_intro hm), hf]
  rfl

end
end

/-! ### A command of a mode (R263, R264, R286) -/

theorem dctRun_stays (h : (s.dctAt ch).abort = true ∨ (s.dctAt ch).phase ≠ .fetch ∧ (s.dctAt ch).phase ≠ .ready) : s.dctRun ch mode move = s := by
  unfold State.dctRun
  dsimp only
  rcases h with ha | ⟨hf, hr⟩
  · exact if_pos ha
  · cases hp : (s.dctAt ch).phase with
    | fetch => exact absurd hp hf
    | ready => exact absurd hp hr
    | _ => exact ite_self s

section
variable (ha : (s.dctAt ch).abort = false)
include ha

section
variable (hp : (s.dctAt ch).phase = .fetch)
include hp

theorem dctRun_fetch :
    s.dctRun ch mode move =
      let cur := s.rdPair (Reg.dctChCurLo ch) (Reg.dctChCurHi ch)
      if s.dramWaits false cur 64 = true then s else s.dctFetched ch mode cur move (s.dctRead ch false cur 64) := by
  unfold State.dctRun
  dsimp only
  rw [ha, hp]
  exact if_neg Bool.false_ne_true

theorem dctRun_fetch_waits (hw : s.dramWaits false (s.rdPair (Reg.dctChCurLo ch) (Reg.dctChCurHi ch)) 64 = true) :
    s.dctRun ch mode move = s :=
  (dctRun_fetch ha hp).trans (if_pos hw)

theorem dctRun_fetches (hw : s.dramWaits false (s.rdPair (Reg.dctChCurLo ch) (Reg.dctChCurHi ch)) 64 = false) {r : RdRes × State}
    (hr : s.dctRead ch false (s.rdPair (Reg.dctChCurLo ch) (Reg.dctChCurHi ch)) 64 = r) :
    s.dctRun ch mode move = s.dctFetched ch mode (s.rdPair (Reg.dctChCurLo ch) (Reg.dctChCurHi ch)) move r :=
  (dctRun_fetch ha hp).trans ((if_neg (ne_true_of_eq_false hw)).trans (congrArg _ hr))

end

section
variable (hp : (s.dctAt ch).phase = .ready)
include hp

theorem dctRun_otherMode (hm : gMode (s.dctAt ch).desc ≠ mode) : s.dctRun ch mode move = s := by
  unfold State.dctRun
  dsimp only
  rw [ha, hp]
  exact if_pos hm

section
variable (hm : gMode (s.dctAt ch).desc = mode)
include hm

theorem dctRun_staging_bad (hb : s.bufferUse (stagingErr ch 0) (s.dctAt ch).staged.length = (true, t)) :
    s.dctRun ch mode move = t.unitFault (.channel ch) 0x20 false := by
  unfold State.dctRun
  dsimp only
  rw [ha, hp, hb]
  exact if_neg (not_not_intro hm)

theorem dctRun_serves (hb : s.bufferUse (stagingErr ch 0) (s.dctAt ch).staged.length = (false, t)) :
    s.dctRun ch mode move = (t.bufferClear (stagingErr ch 0) (2 ^ 18)).dctServe ch move := by
  unfold State.dctRun
  dsimp only
  rw [ha, hp, hb]
  exact if_neg (not_not_intro hm)

end
end
end
end

/-! ### Read-back and submission (R273, R275) -/

section
variable {s t : State} {ch : Nat}

theorem readBack_nothing (ok : Bool) (h : 4 ≤ ch ∨ (s.dctAt ch).last = none) : s.readBack ch ok = (none, s) := by
  unfold State.readBack
  rcases h with hc | hl
  · cases (s.dctAt ch).last with
    | none => rfl
    | some a => exact if_pos hc
  · rw [hl]

/-- The size of a read-back: a register, or 8 bytes of memory. -/
def readBackUnit (a : Nat) : Nat := if inCsr a then 4 else 8

section
variable {a b : Nat} {r : RdRes} (hc : ch < 4) (hl : (s.dctAt ch).last = some a) (hb : a / readBackUnit a * readBackUnit a = b)
  (hr : s.dctRead ch true b (readBackUnit a) = (r, t))
include hc hl hb hr

theorem readBack_succeeds {bs : List Byte} (h : r = .ok bs) : s.readBack ch true = (none, t) := by
  subst h hb
  unfold readBackUnit at hr
  unfold State.readBack
  rw [hl]
  dsimp only
  rw [if_neg (Nat.not_le.mpr hc), hr]
  rfl

theorem readBack_fails {ok : Bool} (h : (∀ bs, r ≠ .ok bs) ∨ ok = false) : s.readBack ch ok = (some b, t) := by
  subst hb
  unfold readBackUnit at hr ⊢
  unfold State.readBack
  rw [hl]
  dsimp only
  rw [if_neg (Nat.not_le.mpr hc), hr]
  cases r with
  | ok bs =>
    obtain rfl : ok = false := h.resolve_left fun h => h bs rfl
    rfl
  | err _ => rfl
  | ue _ => rfl

end

section
variable {r : RdRes} (hr : s.dctRead ch false (gTask (s.dctAt ch).desc) 32 = (r, t))
include hr

theorem dctSubmit_holds {bs : List Byte} (h : r = .ok bs) :
    s.dctSubmit ch =
      ((t.setDct ch { s.dctAt ch with phase := .held }).wrF (Reg.dctChStat ch) 31 28 2).hold (.decant ch) (wordsOf bs)
        (match (s.dctAt ch).slot with | some sl => (s.task? sl).any fun t => dIdem t.words | none => false) := by
  subst h
  unfold State.dctSubmit
  dsimp only
  rw [hr] <;> rfl

theorem dctSubmit_err {e : Nat} (h : r = .err e) : s.dctSubmit ch = t.dctStop ch 0x12 1 0 (gTask (s.dctAt ch).desc) := by
  subst h
  unfold State.dctSubmit
  dsimp only
  rw [hr]

theorem dctSubmit_ue {e : Nat} (h : r = .ue e) : s.dctSubmit ch = t.dctStop ch 0x12 3 0 (gTask (s.dctAt ch).desc) := by
  subst h
  unfold State.dctSubmit
  dsimp only
  rw [hr]

end

/-! ### Commit (R273, R284) -/

section
variable {ok : Bool}

theorem dctCommitStep_none (h : (s.dctAt ch).phase = .idle ∨ (s.dctAt ch).phase = .isolated) : s.dctCommitStep ch ok = s := by
  unfold State.dctCommitStep
  dsimp only
  rcases h with h | h <;> rw [h]

theorem dctCommitStep_submitted (h : (s.dctAt ch).phase = .submitted) : s.dctCommitStep ch ok = s.commitLate ch := by
  unfold State.dctCommitStep
  dsimp only
  rw [h]

theorem dctCommitStep_abort_fetch (hp : (s.dctAt ch).phase = .fetch) (ha : (s.dctAt ch).abort = true) :
    s.dctCommitStep ch ok = ((s.wr (Reg.dctChDone ch) 0).wr (Reg.dctChRemain ch) 0).dctStop ch 8 0 0 0 := by
  unfold State.dctCommitStep
  dsimp only
  rw [hp]
  exact if_pos ha

theorem dctCommitStep_abort
    (hp : (s.dctAt ch).phase = .ready ∨ (s.dctAt ch).phase = .moved ∨ (s.dctAt ch).phase = .failed ∨ (s.dctAt ch).phase = .held)
    (ha : (s.dctAt ch).abort = true) :
    s.dctCommitStep ch ok = s.dctStop ch 8 0 0 0 := by
  unfold State.dctCommitStep
  dsimp only
  rcases hp with hp | hp | hp | hp <;> (rw [hp]; exact if_pos ha)

section
variable (ha : (s.dctAt ch).abort = false)
include ha

theorem dctCommitStep_stays
    (hp : (s.dctAt ch).phase = .fetch ∨ (s.dctAt ch).phase = .ready ∨ (s.dctAt ch).phase = .failed ∨ (s.dctAt ch).phase = .held) :
    s.dctCommitStep ch ok = s := by
  unfold State.dctCommitStep
  dsimp only
  rcases hp with hp | hp | hp | hp <;> (rw [hp]; exact if_neg (ne_true_of_eq_false ha))

section
variable (hp : (s.dctAt ch).phase = .moved)
include hp

theorem dctCommitStep_readBack_fails {a : Nat} (hr : s.readBack ch ok = (some a, t)) : s.dctCommitStep ch ok = t.dctStop ch 0x12 6 0 a := by
  unfold State.dctCommitStep
  dsimp only
  rw [hp, hr]
  exact if_neg (ne_true_of_eq_false ha)

/-- A descriptor that is in place submits its task first where it has one. -/
theorem dctCommitStep_in_place (hr : s.readBack ch ok = (none, t)) :
    s.dctCommitStep ch ok = if gSubmit (s.dctAt ch).desc = true then t.dctSubmit ch else t.commitLate ch := by
  unfold State.dctCommitStep
  dsimp only
  rw [hp, hr]
  exact if_neg (ne_true_of_eq_false ha)

end
end
end
end

/-- Settles O48: the four modes are `dctRun` with their own move, the other commands are `dctCmdWrite`, `dctCommitStep` and `dctStop`, and each
clause is one case of these. -/
theorem decantChannels : Obligations.DecantChannels := by
  intro ch n v s hch hu b x cur writes served runs
  have run : ∀ m mv (gives : State → Prop), gives (b.dctRun ch m mv) → runs m mv gives := by
    intro m mv gives h
    have moves : ∀ t, b.dctRun ch m mv = t → gives t := by
      rintro _ rfl
      exact h
    refine ⟨fun hs => moves _ (dctRun_stays hs), fun ha hp => ⟨fun hw => moves _ (dctRun_fetch_waits ha hp hw), fun hw q t hr => ?_⟩,
      fun ha hp => ⟨fun hm => moves _ (dctRun_otherMode ha hp hm), fun hm bad t hb => ⟨?_, ?_⟩⟩⟩
    · have fetches : ∀ u, b.dctFetched ch m cur mv (q, t) = u → gives u := fun u hf => moves u ((dctRun_fetches ha hp hw hr).trans hf)
      refine ⟨?_, ?_, ?_⟩
      · rintro e rfl
        exact fetches _ dctFetched_err
      · rintro e rfl
        exact fetches _ dctFetched_ue
      · rintro bs rfl d
        refine ⟨fun hm => fetches _ (dctFetched_otherMode hm), fun hm => ⟨fun o hf => fetches _ (dctFetched_unfit rfl hm hf), fun hf => ?_⟩⟩
        have fit : b.dctFetched ch m cur mv (.ok bs, t) = _ := dctFetched_fit rfl hm hf
        exact ⟨fun hs => fetches _ (fit.trans (dctServe_moves mv hs)), fun hs => fetches _ (fit.trans (dctServe_waits mv hs))⟩
    · rintro rfl
      exact moves _ (dctRun_staging_bad ha hp hm hb)
    · rintro rfl
      exact ⟨fun hs => moves _ ((dctRun_serves ha hp hm hb).trans (dctServe_moves mv hs)),
        fun hs => moves _ ((dctRun_serves ha hp hm hb).trans (dctServe_waits mv hs))⟩
  -- From here on `runs` is used through `run` alone.
  clear_value runs
  have write : ∀ t, b.dctCmdWrite ch v.toNat = t → writes t := by
    rintro _ rfl
    exact ⟨exec_dctGo hu hch v, exec_dctAbort hu hch v⟩
  refine ⟨⟨fun ha hg => write _ ?_, fun ha hg => write _ ?_, fun ha hg => write _ ?_, fun ha hg => write _ ?_⟩,
    fun w => ⟨dctGo_starts, dctGo_stays, dctAbort_stays, dctAbort_idle, dctAbort_busy⟩,
    run _ _ _ (exec_linear hu hch n), run _ _ _ (exec_twoD hu hch n), run _ _ _ (exec_gather hu hch n), run _ _ _ (exec_scatter hu hch n),
    fun ok => ?_, fun w ok => ⟨readBack_nothing ok, ?_, fun r t hr => ⟨fun _ => dctSubmit_holds hr, fun _ => dctSubmit_err hr, fun _ => dctSubmit_ue hr⟩⟩,
    exec_dctTransferError_failed hu hch, exec_dctTransferError_other hu hch⟩
  iterate 4
    · rw [dctCmdWrite_eq, ha, hg]
      rfl
  · intro gives
    have commits : ∀ t, b.dctCommitStep ch ok = t → gives t := by
      rintro _ rfl
      exact exec_dctDescriptorCommit hu hch ok
    refine ⟨fun hp => commits _ (dctCommitStep_none hp), fun hp => commits _ (dctCommitStep_submitted hp),
      fun hp ha => commits _ (dctCommitStep_abort_fetch hp ha), fun hp ha => commits _ (dctCommitStep_abort hp ha),
      fun hp ha => commits _ (dctCommitStep_stays ha hp), fun hp ha => ⟨fun a t hr => commits _ (dctCommitStep_readBack_fails ha hp hr), fun t hr => ?_⟩⟩
    have placed := dctCommitStep_in_place ha hp hr
    exact ⟨fun hs => commits _ (placed.trans (if_pos hs)), fun hs => commits _ (placed.trans (if_neg (ne_true_of_eq_false hs)))⟩
  · intro a r t hc hl u hr
    refine ⟨?_, readBack_fails hc hl rfl hr⟩
    rintro bs h rfl
    exact readBack_succeeds hc hl rfl hr h

end Sys2Proof.Machine
end

section
/-! What a write that succeeds leaves of the bytes of memory, in the cellar (R293, R296). -/

namespace Sys2Proof.Machine

theorem locate_cellar {a : Nat} (h : a < 0x04000000) : locate a = .cellar := if_pos h

/-- No error keeps a range of the cellar from being accessed. -/
theorem rangeErr_cellar (s : State) {a n : Nat} (ha : a < 0x04000000) (hl : a + n - 1 < 0x04000000) : s.rangeErr a n = none := by
  unfold State.rangeErr
  dsimp only
  rw [locate_cellar ha, locate_cellar hl]

/-- What happens to the errors of the units written over leaves the bytes alone. -/
theorem overwrite_bytes (l : List Nat) (s : State) (a n : Nat) :
    (s.overwrite a n l).mem.dev = s.mem.dev ∧ (s.overwrite a n l).mem.host = s.mem.host := by
  induction l generalizing s with
  | nil => exact ⟨rfl, rfl⟩
  | cons u l ih =>
    unfold State.overwrite
    dsimp only
    split
    · exact ih s
    · obtain ⟨hd, hh⟩ := ih ((if decide (a ≤ u ∧ u + unitBytes u ≤ a + n) || !s.written u then s else s.ceAt u).clearErr u)
      rw [hd, hh]
      split
      · exact ⟨rfl, rfl⟩
      · simp only [State.clearErr, ceAt_mem, and_self]
    · exact ih (s.clearErr u)

/-- A write of protected memory that succeeds: no unit that it covers in part is uncorrectable. -/
theorem checkedWrite_ok {s t : State} {a : Nat} {bs : List Byte} (h : s.checkedWrite a bs = (.ok, t)) :
    t = (((s.mapRead a bs.length).overwrite a bs.length (unitsOf a bs.length)).validate a bs.length).putDev a bs := by
  unfold State.checkedWrite at h
  dsimp only at h
  split at h
  · cases h
  · exact (Prod.mk.inj h).2.symm

/-- A write to the cellar that succeeds puts its bytes there. -/
theorem memWrite_cellar {s t : State} {a : Nat} {bs : List Byte} (ha : a + bs.length ≤ 0x04000000) (h : s.memWrite a bs = (.ok, t)) :
    t.mem.dev = putBytes s.mem.dev a bs ∧ t.mem.host = s.mem.host := by
  cases bs with
  | nil =>
    cases h
    exact ⟨rfl, rfl⟩
  | cons b bs =>
    rw [List.length_cons] at ha
    have hl : locate a = .cellar := locate_cellar (by omega)
    have hc : s.checkedWrite a (b :: bs) = (.ok, t) := by
      rw [← h]
      unfold State.memWrite
      dsimp only
      rw [if_neg (by simp only [List.length_cons]; omega), rangeErr_cellar s (by omega) (by simp only [List.length_cons]; omega), hl]
    rw [checkedWrite_ok hc]
    have hm : ∀ n, s.mapRead a n = s := fun n => by rw [State.mapRead, hl]
    have hv : ∀ (w : State) n, w.validate a n = w.validLines (blocksOf 64 a n) := fun w n => by rw [State.validate, hl]
    obtain ⟨hd, hh⟩ := overwrite_bytes (unitsOf a (b :: bs).length) s a (b :: bs).length
    rw [hm, hv]
    exact ⟨congrArg (putBytes · a (b :: bs)) hd, hh⟩

/-- An initiator's write that succeeds is one of memory, which the initiator may access and which has been woken. -/
theorem busWrite_ok {s t : State} {i : Init} {a : Nat} {bs : List Byte} (h : s.busWrite i a bs = (.ok, t)) :
    ∃ u, (s.wakeAt a).memWrite a bs = (.ok, u) ∧ t.mem = u.mem := by
  unfold State.busWrite at h
  dsimp only at h
  by_cases hr : refusedTo i a = true
  · rw [if_pos hr] at h
    cases h
  · rw [if_neg hr] at h
    split at h
    · cases h
    · rename_i u hu
      exact ⟨u, hu, by rw [← (Prod.mk.inj h).2, dramWrites_mem]⟩
    · cases h

/-- Settles O13: the write ends as `putBytes` in the bytes of the device, of which each byte is read by where it lies. -/
theorem cellarWriteReads : Obligations.CellarWriteReads := by
  intro s t i a bs hs ha h
  obtain ⟨u, hu, hm⟩ := busWrite_ok h
  obtain ⟨hd, hh⟩ := memWrite_cellar ha hu
  rw [← hm, wakeAt_mem] at hd hh
  have hinv : MemInv t := by
    have := busWrite_memWf hs i a bs
    rwa [h] at this
  refine ⟨hinv, fun j hj => ?_, fun x hx => ?_, fun x => ?_⟩
  · rw [State.devByte, hd, mget_putBytes_in (memWf_dev hs) hj, List.getD_eq_getElem?_getD, List.getElem?_eq_getElem hj, Option.getD_some]
  · rw [State.devByte, hd, mget_putBytes_out (memWf_dev hs) hx, State.devByte]
  · rw [State.hostByte, hh, State.hostByte]

end Sys2Proof.Machine
end

section
/-! The MEM messages, case by case: allocations and their ranges, grants, the host rings that they open, and their revocation (R298, R307,
R316 to R318). -/

namespace Sys2Proof.Machine

/-! ### MEM.ALLOC (R298, R316) -/

/-- The fields of `MEM.ALLOC` are out of range: KIND, the alignment or the length. -/
def allocBad (bs : List Byte) : Prop := 2 < leAt bs 16 1 ∨ leAt bs 17 1 < 6 ∨ 30 < leAt bs 17 1 ∨ leAt bs 24 8 = 0

/-- The range at `addr` is aligned and free, and none of its rows is withdrawn. -/
def State.allocFits (s : State) (addr : Nat) (bs : List Byte) : Prop :=
  addr % 2 ^ leAt bs 17 1 = 0 ∧ s.rangeFree (leAt bs 16 1) addr (leAt bs 24 8) (fun _ => true) = true ∧
    s.rowsWithdrawn (leAt bs 16 1) addr (leAt bs 24 8) = false

/-- `MEM.ALLOC` tests the negation of `allocFits`. -/
theorem not_allocFits_iff {s : State} {addr : Nat} {bs : List Byte} :
    (decide (addr % 2 ^ leAt bs 17 1 ≠ 0) || !s.rangeFree (leAt bs 16 1) addr (leAt bs 24 8) (fun _ => true) ||
      s.rowsWithdrawn (leAt bs 16 1) addr (leAt bs 24 8)) = true ↔ ¬s.allocFits addr bs := by
  simp only [State.allocFits, Bool.or_eq_true, decide_eq_true_eq, Bool.not_eq_true', ne_eq, Classical.not_and_iff_not_or_not,
    Bool.not_eq_true, Bool.not_eq_false, or_assoc]

section
variable {s : State} {addr : Nat} {bs : List Byte}

theorem memAlloc_refused (h : allocBad bs) : State.memAlloc addr bs s = (said stBadParam, s) := if_pos h

theorem memAlloc_unfit (h : ¬allocBad bs) (hf : ¬s.allocFits addr bs) : State.memAlloc addr bs s = (said stNoResource, s) :=
  (if_neg h).trans (if_pos (not_allocFits_iff.mpr hf))

theorem memAlloc_allocates (h : ¬allocBad bs) (hf : s.allocFits addr bs) {u : State}
    (hu : u = if tb (leAt bs 18 2) 0 then s.clearRange addr (leAt bs 24 8) else s) :
    State.memAlloc addr bs s = (saidOk (leBytes 8 addr ++ leBytes 4 u.fw.nextAlloc),
      { u with fw := { u.fw with allocs := u.fw.allocs ++ [{ handle := u.fw.nextAlloc, addr := addr, len := leAt bs 24 8 }],
                                 nextAlloc := u.fw.nextAlloc % (2 ^ 32 - 1) + 1 } }) := by
  subst hu
  exact (if_neg h).trans (if_neg fun ht => not_allocFits_iff.mp ht hf)

end

/-! ### MEM.FREE (R317) -/

section
variable {s : State} {bs : List Byte}

theorem memFree_unknown (h : ∀ x ∈ s.fw.allocs, x.handle ≠ leAt bs 16 4 ∨ leAt bs 16 4 = 0) : State.memFree bs s = (said stBadParam, s) := by
  have hnone : (s.fw.allocs.find? fun x => x.handle == leAt bs 16 4 && leAt bs 16 4 != 0) = none := by
    refine List.find?_eq_none.mpr fun x hx ht => ?_
    obtain ⟨he, hz⟩ := Bool.and_eq_true_iff.mp ht
    exact (h x hx).elim (fun hne => hne (beq_iff_eq.mp he)) (bne_iff_ne.mp hz)
  unfold State.memFree
  dsimp only
  rw [hnone]

section
variable {x : Alloc} (hx : s.fw.allocs.find? (fun x => x.handle == leAt bs 16 4) = some x) (hz : leAt bs 16 4 ≠ 0)
include hx hz

/-- An allocation that the message names. -/
theorem memFree_known :
    State.memFree bs s =
      if s.rangeInUse x.addr x.len then (said stBadState, s)
      else
        let u := if tb (leAt bs 20 2) 0 then s.clearRange x.addr x.len else s
        (said stOk, { u with fw := { u.fw with allocs := u.fw.allocs.filter fun y => y.handle != leAt bs 16 4 } }) := by
  have hsome : (s.fw.allocs.find? fun x => x.handle == leAt bs 16 4 && leAt bs 16 4 != 0) = some x := by
    simpa only [bne_iff_ne.mpr hz, Bool.and_true] using hx
  unfold State.memFree
  dsimp only
  rw [hsome]

theorem memFree_inUse (h : s.rangeInUse x.addr x.len = true) : State.memFree bs s = (said stBadState, s) :=
  (memFree_known hx hz).trans (if_pos h)

theorem memFree_frees (h : s.rangeInUse x.addr x.len = false) {u : State}
    (hu : u = if tb (leAt bs 20 2) 0 then s.clearRange x.addr x.len else s) :
    State.memFree bs s = (said stOk, { u with fw := { u.fw with allocs := u.fw.allocs.filter fun y => y.handle != leAt bs 16 4 } }) := by
  subst hu
  exact (memFree_known hx hz).trans (if_neg (ne_true_of_eq_false h))

end
end

/-! ### MEM.GRANT (R318) -/

/-- The ring that `MEM.GRANT` opens is enabled, or a grant holds it. -/
def State.grantUsed (s : State) (bs : List Byte) : Prop :=
  tb (leAt bs 18 1) 1 = true ∧
    (s.rdB (Reg.cmHringCfg (leAt bs 19 1)) 31 = true ∨ ∃ e ∈ s.fw.grants, e.2.bind (·.ring) = some (leAt bs 19 1))

theorem grantUsed_iff {s : State} {bs : List Byte} :
    (tb (leAt bs 18 1) 1 && (s.rdB (Reg.cmHringCfg (leAt bs 19 1)) 31 ||
      s.fw.grants.any fun g => (g.2.bind (·.ring)) == some (leAt bs 19 1))) = true ↔ s.grantUsed bs := by
  simp only [State.grantUsed, Bool.and_eq_true, Bool.or_eq_true, List.any_eq_true, beq_iff_eq]

/-- A grant set up, and the registers that show it. -/
def State.grantOpened (s : State) (bs : List Byte) (g : Nat) (r : Option Nat) : State :=
  (((s.setGrant g (some { ring := r, revoking := false })).wr (Reg.memGrantBase g) (leAt bs 24 8)).wr (Reg.memGrantLimit g)
    (leAt bs 24 8 + leAt bs 32 4 - 4096)).wr (Reg.memGrantCtrl g) (2 ^ 31)

theorem lowestGrant {s : State} {g : Nat} (hlt : g < 8) (hg : s.grant? g = none) (hlow : ∀ j, j < g → s.grant? j ≠ none) :
    ((List.range 8).find? fun g => (s.grant? g).isNone) = some g := by
  refine List.find?_range_eq_some.mpr ⟨Option.isNone_iff_eq_none.mpr hg, List.mem_range.mpr hlt, fun j hj => ?_⟩
  rw [Option.not_isNone, Option.isSome_iff_ne_none]
  exact hlow j hj

section
variable {s : State} {bs : List Byte}

theorem memGrant_outOfRange (h : s.grantInRange bs = false) : State.memGrant bs s = (said stBadParam, s) :=
  if_pos (by rw [h]; rfl)

section
variable (hr : s.grantInRange bs = true)
include hr

theorem memGrant_used (hu : s.grantUsed bs) : State.memGrant bs s = (said stBadState, s) :=
  (if_neg (by rw [hr]; decide)).trans (if_pos (grantUsed_iff.mpr hu))

variable (hu : ¬s.grantUsed bs)
include hu

/-- A grant in range, of a ring that is free: the lowest free grant is taken. -/
theorem memGrant_free :
    State.memGrant bs s =
      match (List.range 8).find? fun g => (s.grant? g).isNone with
      | none => (said stNoResource, s)
      | some g =>
        let t := s.grantOpened bs g (if tb (leAt bs 18 1) 1 then some (leAt bs 19 1) else none)
        (saidOk (leBytes 2 g),
          if tb (leAt bs 18 1) 1 then t.openRing (leAt bs 19 1) (leAt bs 24 8) (leAt bs 36 1) (leAt bs 37 1) (leAt bs 40 8) (leAt bs 48 8) else t) :=
  ((if_neg (by rw [hr]; decide)).trans (if_neg fun ht => hu (grantUsed_iff.mp ht))).trans rfl

theorem memGrant_none (hg : ∀ g, g < 8 → s.grant? g ≠ none) : State.memGrant bs s = (said stNoResource, s) := by
  have hnone : ((List.range 8).find? fun g => (s.grant? g).isNone) = none :=
    List.find?_eq_none.mpr fun g hlt ht => hg g (List.mem_range.mp hlt) (Option.isNone_iff_eq_none.mp ht)
  rw [memGrant_free hr hu, hnone]

section
variable {g : Nat} (hlt : g < 8) (hg : s.grant? g = none) (hlow : ∀ j, j < g → s.grant? j ≠ none)
include hlt hg hlow

theorem memGrant_plain (h : tb (leAt bs 18 1) 1 = false) : State.memGrant bs s = (saidOk (leBytes 2 g), s.grantOpened bs g none) := by
  rw [memGrant_free hr hu, lowestGrant hlt hg hlow]
  simp only [h, Bool.false_eq_true, if_false]

theorem memGrant_ring (h : tb (leAt bs 18 1) 1 = true) :
    State.memGrant bs s = (saidOk (leBytes 2 g), (s.grantOpened bs g (some (leAt bs 19 1))).openRing (leAt bs 19 1) (leAt bs 24 8)
      (leAt bs 36 1) (leAt bs 37 1) (leAt bs 40 8) (leAt bs 48 8)) := by
  rw [memGrant_free hr hu, lowestGrant hlt hg hlow]
  simp only [h, if_true]

end
end

/-! ### MEM.GRANT with REVOKE (R318) -/

theorem memRevoke_unknown (h : s.grant? (leAt bs 16 2) = none) : State.memRevoke bs s = (said stBadParam, s) := by
  unfold State.memRevoke
  dsimp only
  rw [h]

section
variable {x : Grant} (hx : s.grant? (leAt bs 16 2) = some x)
include hx

theorem memRevoke_again (h : x.revoking = true) : State.memRevoke bs s = (said stBadState, s) := by
  unfold State.memRevoke
  dsimp only
  rw [hx]
  exact if_pos h

variable (h : x.revoking = false)
include h

theorem memRevoke_waits :
    State.memRevoke bs s = (.wait (.revoke (leAt bs 16 2)),
      match x.ring with
      | some h => (s.setGrant (leAt bs 16 2) (some { x with revoking := true })).ringRevoke h
      | none => s.setGrant (leAt bs 16 2) (some { x with revoking := true })) := by
  unfold State.memRevoke
  dsimp only
  rw [hx]
  exact if_neg (ne_true_of_eq_false h)

theorem memRevoke_plain (hn : x.ring = none) :
    State.memRevoke bs s = (.wait (.revoke (leAt bs 16 2)), s.setGrant (leAt bs 16 2) (some { x with revoking := true })) := by
  rw [memRevoke_waits hx h, hn]

theorem memRevoke_ring {r : Nat} (hr : x.ring = some r) :
    State.memRevoke bs s = (.wait (.revoke (leAt bs 16 2)), (s.setGrant (leAt bs 16 2) (some { x with revoking := true })).ringRevoke r) := by
  rw [memRevoke_waits hx h, hr]

end
end

/-! ### The messages as commands -/

section
variable {s t : State} {m k : Nat} {bs : List Byte} {a : Ans}

theorem memAlloc_answers {addr : Nat} (h : Asked s m k 0x0701 bs) (hd : State.memAlloc addr bs (begin s) = (a, t)) :
    Answers (.memAlloc m addr) s m k a t := by
  have ⟨_, hm, _⟩ := h
  exact message_does (form := fun _ => true) h (decide_eq_true hm) rfl rfl hd

theorem memFree_answers (h : Asked s m k 0x0702 bs) (hd : State.memFree bs (begin s) = (a, t)) : Answers (.memFree m) s m k a t := by
  have ⟨_, hm, _⟩ := h
  exact message_does (form := fun _ => true) h (decide_eq_true hm) rfl rfl hd

theorem memGrant_answers (h : Asked s m k 0x0703 bs) (hf : tb (leAt bs 18 1) 0 = false) (hd : State.memGrant bs (begin s) = (a, t)) :
    Answers (.memGrant m) s m k a t := by
  have ⟨_, hm, _⟩ := h
  exact message_does (form := fun bs => !tb (leAt bs 18 1) 0) h (decide_eq_true hm) (by rw [hf]; rfl) rfl hd

theorem memRevoke_answers (h : Asked s m k 0x0703 bs) (hf : tb (leAt bs 18 1) 0 = true) (hd : State.memRevoke bs (begin s) = (a, t)) :
    Answers (.memGrantRevoke m) s m k a t := by
  have ⟨_, hm, _⟩ := h
  exact message_does (form := fun bs => tb (leAt bs 18 1) 0) h (decide_eq_true hm) hf rfl hd

end

/-- Settles O29: the messages are handled by `memAlloc`, `memGrant` and `memRevoke`; each clause is one case of them. -/
theorem memoryMessages : Obligations.MemoryMessages := by
  intro m k addr bs s b
  refine ⟨fun h => ?_, fun h hf => ?_, fun h hf => ?_⟩
  · intro kind lg len gives bad found
    exact ⟨fun hb => memAlloc_answers h (memAlloc_refused hb), fun hb hn => memAlloc_answers h (memAlloc_unfit hb hn),
      fun hb hn => memAlloc_answers h (memAlloc_allocates hb hn rfl)⟩
  · intro r base ring used gives opened
    have grant : ∀ a v, State.memGrant bs b = (a, v) → gives a v := fun _ _ => memGrant_answers h hf
    exact ⟨fun hr => grant _ _ (memGrant_outOfRange hr), fun hr hu => grant _ _ (memGrant_used hr hu),
      fun hr hu hg => grant _ _ (memGrant_none hr hu hg), fun g hr hu hlt hg hlow =>
      ⟨fun hn => grant _ _ (memGrant_plain hr hu hlt hg hlow hn), fun hn => grant _ _ (memGrant_ring hr hu hlt hg hlow hn)⟩⟩
  · intro g gives
    have revoke : ∀ a v, State.memRevoke bs b = (a, v) → gives a v := fun _ _ => memRevoke_answers h hf
    exact ⟨fun hn => revoke _ _ (memRevoke_unknown hn), fun x hx => ⟨fun hr => revoke _ _ (memRevoke_again hx hr),
      fun hr hn => revoke _ _ (memRevoke_plain hx hr hn), fun r hr hn => revoke _ _ (memRevoke_ring hx hr hn)⟩⟩

/-- Settles O30: the message is handled by `memFree`, which names an allocation of the handle, or none. -/
theorem memFreeAnswers : Obligations.MemFreeAnswers := by
  intro m k bs s b h hask
  exact ⟨fun hn => memFree_answers hask (memFree_unknown hn), fun x hx hz =>
    ⟨fun hu => memFree_answers hask (memFree_inUse hx hz hu), fun hu => memFree_answers hask (memFree_frees hx hz hu rfl)⟩⟩

end Sys2Proof.Machine
end

section
/-! The upkeep of memory, case by case: the valid map and MEM.VCLR (R297, R298), the walkers (R300 to R302) and the copy of a cellar bank
(R289, R439). -/

namespace Sys2Proof.Machine

/-! ### Memory forgotten (R296 to R298) -/

/-- The bytes that are forgotten read zero. -/
theorem devByte_dropped {s t : State} (h : MemInv s) {p : Nat → Bool} (ht : t.mem.dev = mdrop p s.mem.dev) (a : Nat) :
    t.devByte a = if p a then 0 else s.devByte a := by
  rw [State.devByte, ht]
  exact mget_mdrop (fun _ => (0 : Byte)) p a (mwf_sorted (memWf_dev h))

theorem fillRegion_dev {s : State} {r : Nat} (hr : s.mem.vmap.contains r = false) :
    (s.fillRegion r).mem.dev = mdrop (fun a => decide (dramBase + r * 65536 ≤ a ∧ a < dramBase + (r + 1) * 65536)) s.mem.dev := by
  unfold State.fillRegion
  rw [if_neg (ne_true_of_eq_false hr), State.tally_mem]

theorem fillRegion_vmap {s : State} {r : Nat} (hr : s.mem.vmap.contains r = false) : (s.fillRegion r).mem.vmap = sins s.mem.vmap r := by
  unfold State.fillRegion
  rw [if_neg (ne_true_of_eq_false hr), State.tally_mem]

/-- What a region first written to holds, whoever is told of it afterwards. -/
theorem region_filled {s t : State} (h : MemInv s) {r : Nat} (hr : s.mem.vmap.contains r = false) (ht : t.mem = (s.fillRegion r).mem) :
    MemInv t ∧ t.mem.vmap = sins s.mem.vmap r ∧
      ∀ a, t.devByte a = if dramBase + r * 65536 ≤ a ∧ a < dramBase + (r + 1) * 65536 then 0 else s.devByte a := by
  refine ⟨?_, ?_, fun a => ?_⟩
  · rw [MemInv, ht]
    exact fillRegion_memWf h r
  · rw [ht, fillRegion_vmap hr]
  · rw [devByte_dropped h ((congrArg MemState.dev ht).trans (fillRegion_dev hr))]
    simp only [decide_eq_true_eq]

/-! ### `VALID_MAP_FILL` (R297) -/

section
variable {s : State} (hu : s.pwr.up = true) {r : Nat}
include hu

theorem exec_validMapFill_stays (h : (begin s).mem.vmap.contains r = true ∨ (begin s).dramCap < (r + 1) * 65536) :
    exec (.validMapFill r) s = .next (after s (begin s)) := by
  refine (pcmd_next rfl hu _).trans ?_
  rw [if_pos h]

theorem exec_validMapFill_fills (hr : (begin s).mem.vmap.contains r = false) (hc : (r + 1) * 65536 ≤ (begin s).dramCap) :
    exec (.validMapFill r) s = .next (after s ((((begin s).free 4).2.fillRegion r).fillWrites ((begin s).free 4).1 r)) := by
  refine (pcmd_next rfl hu _).trans ?_
  rw [if_neg (not_or.mpr ⟨ne_true_of_eq_false hr, Nat.not_lt.mpr hc⟩)]

end

/-! ### MEM.VCLR (R298) -/

section
variable {s : State} {lo hi : Nat}

theorem vclr_reversed (h : hi < lo) : s.vclr lo hi = none := if_pos h

/-- A range whose ends do not lie in one of the two memories. -/
theorem vclr_mixed (hc : ¬(locate lo = .cellar ∧ locate hi = .cellar)) (hd : ¬(locate lo = .dram ∧ locate hi = .dram)) : s.vclr lo hi = none := by
  unfold State.vclr
  split
  · rfl
  · split
    · rename_i hlo hhi
      exact absurd ⟨hlo, hhi⟩ hc
    · rename_i hlo hhi
      exact absurd ⟨hlo, hhi⟩ hd
    · rfl

theorem vclr_cellar (h : lo ≤ hi) (hlo : locate lo = .cellar) (hhi : locate hi = .cellar) :
    s.vclr lo hi = some (s.forget (lo / 64 * 64) (hi / 64 * 64 + 64)) := by
  unfold State.vclr
  rw [if_neg (by omega), hlo, hhi]

theorem vclr_dram (h : lo ≤ hi) (hlo : locate lo = .dram) (hhi : locate hi = .dram) :
    s.vclr lo hi = some (if (alignUp lo 65536 - dramBase) / 65536 < (hi + 1 - dramBase) / 65536 then
      s.forgetRegions ((alignUp lo 65536 - dramBase) / 65536) ((hi + 1 - dramBase) / 65536) else s) := by
  unfold State.vclr
  rw [if_neg (by omega), hlo, hhi]

theorem forget_dev : (s.forget lo hi).mem.dev = mdrop (fun a => decide (lo ≤ a ∧ a < hi)) s.mem.dev := rfl

section
variable (hm : s.mapStuck lo hi = [])
include hm

/-- Where no word of the map is stuck, the errors found while the bits are cleared are none. -/
theorem forgetRegions_csr : (s.forgetRegions lo hi).csr = s.csr := by
  unfold State.forgetRegions
  rw [hm]
  rfl

theorem forgetRegions_dev :
    (s.forgetRegions lo hi).mem.dev =
      mdrop (fun a => decide (dramBase ≤ a) && decide (lo ≤ (a - dramBase) / 65536 ∧ (a - dramBase) / 65536 < hi)) s.mem.dev := by
  unfold State.forgetRegions
  rw [hm]
  simp only [List.contains_nil, Bool.not_false, Bool.and_true]
  rfl

end
end

section
variable {s w : State} {v : Nat} (he : tb v 1 = true → w = s.wrF Reg.memVclrCtrl 1 1 0) (hn : tb v 1 = false → w = s)
include he hn

/-- A write of `VCLR_CTRL` clears ERR first, where it asks for that. -/
theorem vclrWrite_cleared : (if tb v 1 then s.wrF Reg.memVclrCtrl 1 1 0 else s) = w := by
  cases h : tb v 1
  · exact (hn h).symm
  · exact (he h).symm

theorem vclrWrite_noGo (h : tb v 0 = false) : s.vclrWrite v = w := by
  unfold State.vclrWrite
  dsimp only
  rw [vclrWrite_cleared he hn, if_pos (by rw [h]; rfl)]

theorem vclrWrite_go (h : tb v 0 = true) {got : Option State}
    (hg : w.vclr (w.rdPair Reg.memVclrBaseLo Reg.memVclrBaseHi) (w.rdPair Reg.memVclrLimitLo Reg.memVclrLimitHi) = got) :
    s.vclrWrite v = got.getD (w.wrF Reg.memVclrCtrl 1 1 1) := by
  unfold State.vclrWrite
  dsimp only
  rw [vclrWrite_cleared he hn, if_neg (by rw [h]; decide), hg]
  cases got <;> rfl

end

theorem exec_memVclrGo {s : State} (hu : s.pwr.up = true) {i : Nat} (hi : i < 4) (v : Word) :
    exec (.memVclrGo i v) s = .next (after s ((begin s).vclrWrite v.toNat)) :=
  pcmd_next (decide_eq_true hi) hu _

/-! ### The walkers (R300 to R302) -/

theorem exec_walkerVisit {s : State} (hu : s.pwr.up = true) {k : Nat} (hk : k < 10) (ups : List (Nat × List Nat)) :
    exec (.walkerVisit k ups) s = .next (after s (((begin s).struck ups).walk k)) :=
  pcmd_next (decide_eq_true hk) hu _

section
variable {s : State} {k pos : Nat}

theorem walk_stopped (h : s.rdB (Reg.memRidCtrl k) 31 = false) : s.walk k = s := if_pos (by rw [h]; rfl)

/-- Where a walker goes on from, and whether a pass ended on the way there: walker 2 passes over cores without power. -/
def State.walkFrom (s : State) (k : Nat) : Nat × Bool :=
  if k = 2 then s.skipCores 256 (s.rd (Reg.memRidPos k)) false else (s.rd (Reg.memRidPos k), false)

/-- A walker's step after its visit. -/
def State.walkOn (s : State) (k pos : Nat) : State :=
  if s.walkNext k pos < s.walkLines k then s.wr (Reg.memRidPos k) (s.walkNext k pos)
  else (s.wr (Reg.memRidPos k) 0).count (Reg.memRidPass k) 1

theorem walk_visits (h : s.rdB (Reg.memRidCtrl k) 31 = true) {early : Bool} (hf : s.walkFrom k = (pos, early)) :
    s.walk k = ((if early then s.count (Reg.memRidPass k) 1 else s).walkVisit k pos).walkOn k pos := by
  unfold State.walkFrom at hf
  unfold State.walk
  rw [if_neg (by rw [h]; decide), hf]
  rfl

theorem walkVisit_nothing (h : s.walkAddr k pos = none) : s.walkVisit k pos = s := by
  unfold State.walkVisit
  rw [h]

theorem walkVisit_line {a : Nat} (h : s.walkAddr k pos = some a) :
    s.walkVisit k pos =
      if k = 3 then s.walkUnit k a else (unitsOf a 64).foldl (fun s u => s.walkUnit k u) (if 4 ≤ k then s.queueRead 3 a else s) := by
  unfold State.walkVisit
  rw [h]

end

section
variable {s : State} {k u : Nat}

theorem walkUnit_unwritten (h : s.written u = false) : s.walkUnit k u = s := if_pos (by rw [h]; rfl)

variable (h : s.written u = true)
include h

theorem walkUnit_written :
    s.walkUnit k u =
      match s.errAt u with
      | none => s
      | some true => s.ueAt true u
      | some false => ((s.ceAt u).count (Reg.memRidCe k) 1).clearErr u :=
  (if_neg (by rw [h]; decide)).trans rfl

theorem walkUnit_clean (he : s.errAt u = none) : s.walkUnit k u = s := by
  rw [walkUnit_written h, he]

theorem walkUnit_corrects (he : s.errAt u = some false) : s.walkUnit k u = ((s.ceAt u).count (Reg.memRidCe k) 1).clearErr u := by
  rw [walkUnit_written h, he]

theorem walkUnit_records (he : s.errAt u = some true) : s.walkUnit k u = s.ueAt true u := by
  rw [walkUnit_written h, he]

end

/-! ### `BANK_COPY_DONE` (R289, R439) -/

theorem exec_bankCopyDone {s : State} (hu : s.pwr.up = true) {p : Nat} (hp : p < 34) :
    exec (.bankCopyDone p) s = .next (after s ((begin s).bankCopied p)) :=
  pcmd_next (decide_eq_true hp) hu _

section
variable {s : State} {p : Nat}

/-- The copy of a bank is over. -/
def State.copyOver (s : State) (p : Nat) : State := { s with mem := { s.mem with copy := s.mem.copy.filter fun e => e.1 != p } }

/-- The bank's address lines reach the spare. -/
def State.bankMoved (s : State) (bank spare : Nat) : State := { s with mem := { s.mem with bank := mput id s.mem.bank bank spare } }

theorem bankCopied_none (h : s.mem.copy.find? (fun e => e.1 == p) = none ∨
    s.rsv.retiring.find? (fun r => r.kind == 2 && mget id s.mem.bank r.unit == p) = none) : s.bankCopied p = s := by
  unfold State.bankCopied
  rcases h with h | h
  · rw [h]
  · rw [h]
    split <;> rfl

section
variable {q sp : Nat} {r : Retire} (hc : s.mem.copy.find? (fun e => e.1 == p) = some (q, sp))
  (hr : s.rsv.retiring.find? (fun r => r.kind == 2 && mget id s.mem.bank r.unit == p) = some r)
include hc hr

theorem bankCopied_ends :
    s.bankCopied p =
      if 64 < s.bankUes p then (s.copyOver p).degrade 2 r.unit
      else ((s.copyOver p).bankMoved r.unit sp).spareTaken 2 r.reason r.unit p sp 0 := by
  unfold State.bankCopied
  rw [hc]
  dsimp only
  rw [hr]
  rfl

theorem bankCopied_moves (h : s.bankUes p ≤ 64) :
    s.bankCopied p = ((s.copyOver p).bankMoved r.unit sp).spareTaken 2 r.reason r.unit p sp 0 :=
  (bankCopied_ends hc hr).trans (if_neg (by omega))

theorem bankCopied_degrades (h : 64 < s.bankUes p) : s.bankCopied p = (s.copyOver p).degrade 2 r.unit :=
  (bankCopied_ends hc hr).trans (if_pos h)

end
end

/-- Settles O49: each command is one operation on memory, and each clause is one case of it. -/
theorem memoryUpkeep : Obligations.MemoryUpkeep := by
  intro s hu b
  refine ⟨fun r => ⟨exec_validMapFill_stays hu, exec_validMapFill_fills hu⟩, fun w r cls hw hr => ?_, fun i v hi => ?_,
    fun w lo hi hw => ⟨vclr_reversed, vclr_mixed, fun hle hlo hhi => ?_, fun hle hlo hhi => ?_⟩, fun k ups hk => ?_,
    fun w k pos => ⟨walkVisit_nothing, fun a ha => ?_⟩,
    fun w k u => ⟨walkUnit_unwritten, fun h => ⟨walkUnit_clean h, walkUnit_corrects h, walkUnit_records h⟩⟩, fun p hp => ?_⟩
  · exact region_filled hw hr (fillWrites_mem _ cls r)
  · intro gives w he hn got
    have go : ∀ t, b.vclrWrite v.toNat = t → gives t := by
      rintro _ rfl
      exact exec_memVclrGo hu hi v
    exact ⟨fun h0 => go _ (vclrWrite_noGo he hn h0), fun h0 => ⟨fun t ht => go _ (vclrWrite_go he hn h0 ht), fun ht => go _ (vclrWrite_go he hn h0 ht)⟩⟩
  · have hv := vclr_cellar (s := w) hle hlo hhi
    refine ⟨_, hv, vclr_memWf hw hv, rfl, fun a => ?_⟩
    rw [devByte_dropped hw forget_dev]
    simp only [decide_eq_true_eq]
  · intro first past
    have hv := vclr_dram (s := w) hle hlo hhi
    refine ⟨fun h => hv.trans (congrArg some (if_neg (by omega))), fun h hm => ?_⟩
    have hv := hv.trans (congrArg some (if_pos h))
    refine ⟨_, hv, vclr_memWf hw hv, forgetRegions_csr hm, fun a => ?_⟩
    rw [devByte_dropped hw (forgetRegions_dev hm)]
    simp only [Bool.and_eq_true, decide_eq_true_eq, first, past]
  · intro gives w
    have visit : ∀ t, w.walk k = t → gives t := by
      rintro _ rfl
      exact exec_walkerVisit hu hk ups
    refine ⟨fun h => visit _ (walk_stopped h), fun h pos early u h2 h' he hn => ?_⟩
    have hfrom : w.walkFrom k = (pos, early) := by
      unfold State.walkFrom
      split
      · exact h2 ‹_›
      · exact h' ‹_›
    have hpass : (if early then w.count (Reg.memRidPass k) 1 else w) = u := by
      cases early
      · exact (hn rfl).symm
      · exact (he rfl).symm
    have hwalk : w.walk k = (u.walkVisit k pos).walkOn k pos := hpass ▸ walk_visits h hfrom
    exact ⟨fun hlt => visit _ (hwalk.trans (if_pos hlt)), fun hle => visit _ (hwalk.trans (if_neg (by omega)))⟩
  · have hline := walkVisit_line ha
    refine ⟨fun h => hline.trans (if_pos h), fun h => hline.trans ?_, fun h => hline.trans ?_⟩
    · rw [if_neg (by omega), if_neg (by omega)]
    · rw [if_neg (by omega), if_pos h]
  · intro gives u
    have copied : ∀ t, b.bankCopied p = t → gives t := by
      rintro _ rfl
      exact exec_bankCopyDone hu hp
    exact ⟨fun h => copied _ (bankCopied_none h), fun q sp r hc hr =>
      ⟨fun h => copied _ (bankCopied_moves hc hr h), fun h => copied _ (bankCopied_degrades hc hr h)⟩⟩

end Sys2Proof.Machine
end

section
/-! A DRAM channel, case by case: its control register, initialisation and self-refresh, refresh, promotion, ALERT_n and its replays, and
retraining (R306, R309, R311 to R315, R320). -/

namespace Sys2Proof.Machine

/-! ### CTRL (R308, R314, R315) -/

section
variable {s : State} (hu : s.pwr.up = true) {n : Nat} (hn : n < 6) (v : Word)
include hu hn

theorem exec_dmcInit {k : Nat} (hk : k < 10) : exec (.dmcInit n v k) s = .next (after s ((begin s).dmcCtrl n v.toNat k)) :=
  pcmd_next (Bool.and_eq_true_iff.mpr ⟨decide_eq_true hn, decide_eq_true hk⟩) hu _

theorem exec_dmcEnable : exec (.dmcEnable n v) s = .next (after s ((begin s).dmcCtrl n v.toNat 0)) := pcmd_next (decide_eq_true hn) hu _

theorem exec_dmcSrEnter : exec (.dmcSrEnter n v) s = .next (after s ((begin s).dmcCtrl n v.toNat 0)) := pcmd_next (decide_eq_true hn) hu _

theorem exec_dmcSrExit : exec (.dmcSrExit n v) s = .next (after s ((begin s).dmcCtrl n v.toNat 0)) := pcmd_next (decide_eq_true hn) hu _

end

/-- What a write of INIT makes of a channel: one that has not been initialised, or has failed, goes to READY or is left in INIT. -/
def State.ctrlInit (s : State) (n v stuck : Nat) : State :=
  if tb v 0 && (s.dmcState n == 0 || s.dmcState n == 6) then
    if stuck = 0 then s.dmcReady n (s.dmcState n == 6) else (s.wrF (Reg.dmcStat n) 31 28 1).wrF (Reg.dmcStat n) 19 16 0
  else s

/-- EN and SR as they are taken, with MAP_ERR. -/
def State.ctrlEnable (s : State) (n v : Nat) : State :=
  (s.wrF (Reg.dmcStat n) 8 8 (bn (tb v 31 && !s.masksOk n))).wr (Reg.dmcCtrl n)
    (bn (tb v 31 && !(tb v 31 && !s.masksOk n)) * 2 ^ 31 + bn (tb v 4) * 16)

/-- SR takes a READY channel into self-refresh, and one in self-refresh out of it. -/
def State.ctrlRefresh (s : State) (n v : Nat) : State :=
  if tb v 4 && s.dmcState n == 2 then s.wrF (Reg.dmcStat n) 31 28 3
  else if !tb v 4 && s.dmcState n == 3 then s.wrF (Reg.dmcStat n) 31 28 2
  else s

theorem dmcCtrl_eq (s : State) (n v stuck : Nat) : s.dmcCtrl n v stuck = ((s.ctrlInit n v stuck).ctrlEnable n v).ctrlRefresh n v := rfl

section
variable {s : State} {n v : Nat}

theorem ctrlInit_ready (h0 : tb v 0 = true) (hst : s.dmcState n = 0 ∨ s.dmcState n = 6) :
    s.ctrlInit n v 0 = s.dmcReady n (s.dmcState n == 6) :=
  (if_pos (by simpa only [h0, Bool.true_and, Bool.or_eq_true, beq_iff_eq] using hst)).trans (if_pos rfl)

theorem ctrlInit_stuck (h0 : tb v 0 = true) (hst : s.dmcState n = 0 ∨ s.dmcState n = 6) {j : Nat} (hj : j ≠ 0) :
    s.ctrlInit n v j = (s.wrF (Reg.dmcStat n) 31 28 1).wrF (Reg.dmcStat n) 19 16 0 :=
  (if_pos (by simpa only [h0, Bool.true_and, Bool.or_eq_true, beq_iff_eq] using hst)).trans (if_neg hj)

theorem ctrlInit_stays (h : tb v 0 = false ∨ s.dmcState n ≠ 0 ∧ s.dmcState n ≠ 6) (j : Nat) : s.ctrlInit n v j = s := by
  refine if_neg fun ht => ?_
  simp only [Bool.and_eq_true, Bool.or_eq_true, beq_iff_eq] at ht
  obtain ⟨h0, hst⟩ := ht
  rcases h with h | ⟨h1, h2⟩
  · exact absurd h0 (ne_true_of_eq_false h)
  · exact hst.elim h1 h2

theorem ctrlEnable_on (h : tb v 31 = true) (hm : s.masksOk n = true) :
    s.ctrlEnable n v = (s.wrF (Reg.dmcStat n) 8 8 0).wr (Reg.dmcCtrl n) (2 ^ 31 + bn (tb v 4) * 16) := by
  simp only [State.ctrlEnable, h, hm, Bool.not_true, Bool.and_false, Bool.not_false, Bool.and_true, bn, if_true, Bool.false_eq_true, if_false, Nat.one_mul]

theorem ctrlEnable_mapErr (h : tb v 31 = true) (hm : s.masksOk n = false) :
    s.ctrlEnable n v = (s.wrF (Reg.dmcStat n) 8 8 1).wr (Reg.dmcCtrl n) (bn (tb v 4) * 16) := by
  simp only [State.ctrlEnable, h, hm, Bool.not_false, Bool.and_true, Bool.not_true, Bool.and_false, bn, if_true, Bool.false_eq_true, if_false, Nat.zero_mul,
    Nat.zero_add]

theorem ctrlEnable_off (h : tb v 31 = false) :
    s.ctrlEnable n v = (s.wrF (Reg.dmcStat n) 8 8 0).wr (Reg.dmcCtrl n) (bn (tb v 4) * 16) := by
  simp only [State.ctrlEnable, h, Bool.false_and, bn, Bool.false_eq_true, if_false, Nat.zero_mul, Nat.zero_add]

theorem ctrlRefresh_enters (h : tb v 4 = true) (hst : s.dmcState n = 2) : s.ctrlRefresh n v = s.wrF (Reg.dmcStat n) 31 28 3 :=
  if_pos (by rw [h, hst]; rfl)

theorem ctrlRefresh_leaves (h : tb v 4 = false) (hst : s.dmcState n = 3) : s.ctrlRefresh n v = s.wrF (Reg.dmcStat n) 31 28 2 :=
  (if_neg (by rw [h]; exact Bool.false_ne_true)).trans (if_pos (by rw [h, hst]; rfl))

theorem ctrlRefresh_stays (hs : tb v 4 = true → s.dmcState n ≠ 2) (hl : tb v 4 = false → s.dmcState n ≠ 3) : s.ctrlRefresh n v = s := by
  refine (if_neg fun ht => ?_).trans (if_neg fun ht => ?_)
  · obtain ⟨h, hst⟩ := Bool.and_eq_true_iff.mp ht
    exact hs h (beq_iff_eq.mp hst)
  · obtain ⟨h, hst⟩ := Bool.and_eq_true_iff.mp ht
    exact hl (Bool.not_eq_eq_eq_not.mp h) (beq_iff_eq.mp hst)

end

/-! ### Commands that act on a channel in some states only (R309, R311 to R315) -/

section
variable {s : State} (hu : s.pwr.up = true) {n : Nat} (hn : n < 6)
include hu hn

theorem exec_dmcInitTimeout {step : Nat} (hk : step < 10) :
    exec (.dmcInitTimeout n step) s = .next (after s
      (if (begin s).dmcState n = 1 ∧ step ≠ 0 then
        (begin s).wr (Reg.dmcStat n) (setFld (setFld ((begin s).rd (Reg.dmcStat n)) 31 28 6) 19 16 step)
      else begin s)) :=
  pcmd_next (Bool.and_eq_true_iff.mpr ⟨decide_eq_true hn, decide_eq_true hk⟩) hu _

theorem exec_dramRefresh :
    exec (.dramRefresh n) s = .next (after s
      (if (begin s).dmcState n = 2 then
        let r := (begin s).free (2 ^ 32)
        (r.2.setDmc n { r.2.dmcAt n with refreshes := (r.2.dmcAt n).refreshes + 1 }).tallyTime 5 n 5 r.1
      else begin s)) :=
  pcmd_next (decide_eq_true hn) hu _

theorem exec_dramAgePromote {c : Nat} (hc : c < 4) (line : Nat) :
    exec (.dramAgePromote n c line) s = .next (after s
      (if (begin s).dmcState n = 2 ∧ line < (begin s).chanCap / 64 then (begin s).promote n c line else begin s)) :=
  pcmd_next (Bool.and_eq_true_iff.mpr ⟨decide_eq_true hn, decide_eq_true hc⟩) hu _

theorem exec_dramAlert :
    exec (.dramAlert n) s = .next (after s
      (if (begin s).dmcState n = 2 ∨ (begin s).dmcState n = 5 then
        ((begin s).wrF (Reg.dmcStat n) 31 28 4).setDmc n { (begin s).dmcAt n with fails := 0, pause := 0, alert := (begin s).cen.clock }
      else begin s)) :=
  pcmd_next (decide_eq_true hn) hu _

theorem exec_dramReplay (ok : Bool) : exec (.dramReplay n ok) s = .next (after s ((begin s).replay n ok)) := pcmd_next (decide_eq_true hn) hu _

theorem exec_retrainDue :
    exec (.retrainDue n) s = .next (after s
      (if (begin s).rdB (Reg.dmcRtr n) 31 ∧ (begin s).dmcState n = 2 then (begin s).setDmc n { (begin s).dmcAt n with due := true } else begin s)) :=
  pcmd_next (decide_eq_true hn) hu _

theorem exec_retrainForced (temp : Bool) :
    exec (.retrainForced n temp) s = .next (after s
      (if (begin s).dmcState n = 2 ∧ (temp ∨ ((begin s).dmcAt n).due) then
        (((begin s).count (Reg.dmcRtrForced n) 1).conflict 3 (if !(begin s).rdB (Reg.dmcRtr n) 31 then 3 else if temp then 2 else 1) n).retrain n
      else begin s)) :=
  pcmd_next (decide_eq_true hn) hu _

end

/-! ### Promotion (R309) -/

section
variable {s : State} {n c line : Nat}

theorem promote_nothing
    (h : ((s.tally 5 n 4 1).dmcAt n).writes.find? (fun w => w.line == (s.tally 5 n 4 1).lineAddr n line && w.cls == c) = none) :
    s.promote n c line = s.tally 5 n 4 1 := by
  unfold State.promote
  dsimp only
  rw [h]

/-- The instant at which a queued write has waited longer than AGE. -/
def State.promoteAt (s : State) (n c : Nat) (w : QWrite) : State :=
  s.until ((w.since + s.rdF (Reg.dmcAge n c) 15 0 * 2 ^ 32 + s.mrd.time) - s.cen.clock)

section
variable {w : QWrite} (h : ((s.tally 5 n 4 1).dmcAt n).writes.find? (fun w => w.line == (s.tally 5 n 4 1).lineAddr n line && w.cls == c) = some w)
include h

theorem promote_queued :
    s.promote n c line =
      if ((s.tally 5 n 4 1).promoteAt n c w).dramServes n then ((s.tally 5 n 4 1).promoteAt n c w).issueWrite n w
      else (s.tally 5 n 4 1).promoteAt n c w := by
  unfold State.promote
  dsimp only
  rw [h]
  rfl

theorem promote_issues (hs : ((s.tally 5 n 4 1).promoteAt n c w).dramServes n = true) :
    s.promote n c line = ((s.tally 5 n 4 1).promoteAt n c w).issueWrite n w :=
  (promote_queued h).trans (if_pos hs)

theorem promote_waits (hs : ((s.tally 5 n 4 1).promoteAt n c w).dramServes n = false) :
    s.promote n c line = (s.tally 5 n 4 1).promoteAt n c w :=
  (promote_queued h).trans (if_neg (ne_true_of_eq_false hs))

end
end

/-! ### Replays (R312) -/

/-- The commands of the alert window issued again, every bank precharged before. -/
def State.replayed (s : State) (n : Nat) : State :=
  let u := ((s.count (Reg.dmcReplayCnt n) 1).tally 5 n 9 1).tallyTime 5 n 6 (s.rdF (Reg.dmcAlertT n) 15 0 * 5 / 4)
  (u.setDmc n { u.dmcAt n with rows := [] }).emit (.replay n (u.retried n))

section
variable {s : State} {n : Nat}

theorem replay_other (ok : Bool) (h : s.dmcState n ≠ 4) : s.replay n ok = s := if_pos h

variable (h : s.dmcState n = 4)
include h

theorem replay_alert (ok : Bool) :
    s.replay n ok =
      if ok then ((s.replayed n).wrF (Reg.dmcStat n) 31 28 2).setDmc n { (s.replayed n).dmcAt n with fails := 0 }
      else if ((s.replayed n).dmcAt n).fails + 1 < 3 then
        (s.replayed n).setDmc n { (s.replayed n).dmcAt n with fails := ((s.replayed n).dmcAt n).fails + 1 }
      else (s.replayed n).failChannel n :=
  if_neg (not_not_intro h)

theorem replay_ends : s.replay n true = ((s.replayed n).wrF (Reg.dmcStat n) 31 28 2).setDmc n { (s.replayed n).dmcAt n with fails := 0 } :=
  (replay_alert h true).trans (if_pos rfl)

theorem replay_again (hf : ((s.replayed n).dmcAt n).fails < 2) :
    s.replay n false = (s.replayed n).setDmc n { (s.replayed n).dmcAt n with fails := ((s.replayed n).dmcAt n).fails + 1 } :=
  ((replay_alert h false).trans (if_neg Bool.false_ne_true)).trans (if_pos (by omega))

theorem replay_fails (hf : 2 ≤ ((s.replayed n).dmcAt n).fails) : s.replay n false = (s.replayed n).failChannel n :=
  ((replay_alert h false).trans (if_neg Bool.false_ne_true)).trans (if_neg (by omega))

end

/-- Settles O50: a write of CTRL acts in three stages, INIT, EN and SR, each by the state that the one before leaves; every other command is
one case of the channel's state. -/
theorem dramChannels : Obligations.DramChannels := by
  intro n step c line k v s hn hstep hc hk hu b st d
  refine ⟨⟨exec_dmcInit hu hn v hk, exec_dmcEnable hu hn v, exec_dmcSrEnter hu hn v, exec_dmcSrExit hu hn v⟩,
    fun w x y m j hready hstuck hstays hon herr hoff => ?_, ?_, ?_, ?_, ?_, ?_, ?_, fun ok => ?_⟩
  · have hx : w.ctrlInit n m j = x := by
      by_cases h : tb m 0 = true ∧ (w.dmcState n = 0 ∨ w.dmcState n = 6)
      · obtain ⟨h0, hst⟩ := h
        by_cases hj : j = 0
        · rw [hready h0 hst hj, hj, ctrlInit_ready h0 hst]
        · rw [hstuck h0 hst hj, ctrlInit_stuck h0 hst hj]
      · have h' : tb m 0 = false ∨ w.dmcState n ≠ 0 ∧ w.dmcState n ≠ 6 := by
          rwa [Classical.not_and_iff_not_or_not, Bool.not_eq_true, not_or] at h
        rw [hstays h', ctrlInit_stays h']
    have hy : x.ctrlEnable n m = y := by
      cases h : tb m 31 with
      | false => rw [hoff h, ctrlEnable_off h]
      | true =>
        cases hm : x.masksOk n with
        | false => rw [herr h hm, ctrlEnable_mapErr h hm]
        | true => rw [hon h hm, ctrlEnable_on h hm]
    rw [dmcCtrl_eq, hx, hy]
    exact ⟨ctrlRefresh_enters, ctrlRefresh_leaves, fun h hst => ctrlRefresh_stays (fun _ => hst) fun h' => absurd h (ne_true_of_eq_false h'),
      fun h hst => ctrlRefresh_stays (fun h' => absurd h' (ne_true_of_eq_false h)) fun _ => hst⟩
  · intro gives
    have late := exec_dmcInitTimeout hu hn hstep
    exact ⟨fun h0 h1 => by rwa [if_pos ⟨h0, h1⟩] at late, fun h => by rwa [if_neg fun ht => h.elim (fun h => h ht.1) ht.2] at late⟩
  · intro gives r
    have refresh := exec_dramRefresh hu hn
    exact ⟨fun h => by rwa [if_pos h] at refresh, fun h => by rwa [if_neg h] at refresh⟩
  · intro gives u age
    have promote := exec_dramAgePromote hu hn hc line
    refine ⟨fun h => ?_, fun h0 h1 => ⟨fun hw => ?_, fun w hw => ?_⟩⟩
    · rwa [if_neg fun ht => h.elim (fun h => h ht.1) (Nat.not_le.mpr ht.2)] at promote
    · rwa [if_pos ⟨h0, h1⟩, promote_nothing hw] at promote
    · rw [if_pos ⟨h0, h1⟩] at promote
      exact ⟨fun hs => by rwa [promote_issues hw hs] at promote, fun hs => by rwa [promote_waits hw hs] at promote⟩
  · intro gives
    have alert := exec_dramAlert hu hn
    exact ⟨fun h => by rwa [if_pos h] at alert, fun h2 h5 => by rwa [if_neg (not_or.mpr ⟨h2, h5⟩)] at alert⟩
  · intro gives
    have due := exec_retrainDue hu hn
    refine ⟨fun h hst => by rwa [if_pos ⟨h, hst⟩] at due, fun h => ?_⟩
    rwa [if_neg fun ht => h.elim (fun h => absurd ht.1 (ne_true_of_eq_false h)) fun h => h ht.2] at due
  · intro u
    have forced := exec_retrainForced hu hn
    refine ⟨fun h hst => ?_, fun h hst hd => ?_, fun temp h hst ht => ?_, fun temp h => ?_⟩
    · have := forced true
      rwa [if_pos ⟨hst, .inl rfl⟩, h] at this
    · have := forced false
      rwa [if_pos ⟨hst, .inr hd⟩, h] at this
    · have := forced temp
      rwa [if_pos ⟨hst, ht⟩, h] at this
    · have := forced temp
      rwa [if_neg] at this
      rintro ⟨hst, ht⟩
      rcases h with h | ⟨h, hd⟩
      · exact h hst
      · exact ht.elim (ne_true_of_eq_false h) (ne_true_of_eq_false hd)
  · intro gives u x
    have replays : ∀ t, b.replay n ok = t → gives t := by
      rintro _ rfl
      exact exec_dramReplay hu hn ok
    refine ⟨fun h => replays _ (replay_other ok h), fun h => ⟨?_, ?_, ?_⟩⟩
    · rintro rfl
      exact replays _ (replay_ends h)
    · rintro rfl hf
      exact replays _ (replay_again h hf)
    · rintro rfl hf
      exact replays _ (replay_fails h hf)

end Sys2Proof.Machine
end

section
/-! LANE.EQ, case by case: the taps, the freeze and its release (R332, R333, R355, R358). -/

namespace Sys2Proof.Machine

/-! ### The taps (R332) -/

section
variable {pre main post : Nat}

theorem tapsOk_iff : tapsOk pre main post = true ↔
    pre ≤ 15 ∧ post ≤ 31 ∧ 24 ≤ main ∧ main ≤ 63 ∧ pre + main + post ≤ 63 ∧ 16 + pre + post ≤ main := by
  rw [tapsOk, decide_eq_true_iff]
  omega

/-- The word of `TXEQ` that carries taps in range, without a write of ERR: each tap stands in its field. -/
theorem tapsWord_fields (h : tapsOk pre main post = true) :
    tb (post * 2 ^ 16 + main * 2 ^ 8 + pre) 31 = false ∧ fld (post * 2 ^ 16 + main * 2 ^ 8 + pre) 4 0 = pre ∧
      fld (post * 2 ^ 16 + main * 2 ^ 8 + pre) 13 8 = main ∧ fld (post * 2 ^ 16 + main * 2 ^ 8 + pre) 20 16 = post := by
  obtain ⟨hpre, hpost, _, hmain, _⟩ := tapsOk_iff.mp h
  refine ⟨Nat.testBit_lt_two_pow (by omega), ?_, ?_, ?_⟩ <;>
  · simp only [fld, Nat.shiftRight_eq_div_pow]
    omega

theorem txeqWrite_takes {s : State} {g l : Nat} (hl : ¬(l ≠ 16 ∧ s.spared g l = true)) (h : tapsOk pre main post = true) :
    s.txeqWrite g l (post * 2 ^ 16 + main * 2 ^ 8 + pre) =
      s.wr (Reg.laneTxeq g l) (s.rdF (Reg.laneTxeq g l) 31 31 * 2 ^ 31 + post * 2 ^ 16 + main * 2 ^ 8 + pre) := by
  obtain ⟨herr, hpre, hmain, hpost⟩ := tapsWord_fields h
  unfold State.txeqWrite
  simp only [herr, hpre, hmain, hpost, h, hl, Bool.false_eq_true, if_false, if_true]

end

/-! ### The messages -/

section
variable {s : State} {bs : List Byte}

/-- A lane that the message may name is no retired position. -/
theorem spared_of_laneNamed {g l : Nat} (h : s.laneNamed g l = true) : ¬(l ≠ 16 ∧ s.spared g l = true) := by
  rintro ⟨hl, hs⟩
  have hl : (l != 16) = true := bne_iff_ne.mpr hl
  rw [State.laneNamed, hl, hs, Bool.and_true, Bool.not_true, Bool.and_false] at h
  exact Bool.false_ne_true h

theorem laneEq_unnamed (h : s.laneNamed (leAt bs 16 1) (leAt bs 17 1) = false) (f : Nat → Nat → State → Ans × State) :
    s.laneEq bs f = (said stBadParam, s) :=
  if_pos (by rw [h]; rfl)

theorem eqTaps_unnamed (h : s.laneNamed (leAt bs 16 1) (leAt bs 17 1) = false) : State.eqTaps bs s = (said stBadParam, s) := by
  unfold State.eqTaps
  exact laneEq_unnamed h _

section
variable (h : s.laneNamed (leAt bs 16 1) (leAt bs 17 1) = true)
include h

theorem laneEq_named (f : Nat → Nat → State → Ans × State) : s.laneEq bs f = f (leAt bs 16 1) (leAt bs 17 1) s :=
  if_neg (by rw [h]; exact Bool.false_ne_true)

theorem eqTaps_named :
    State.eqTaps bs s =
      if tapsOk (leAt bs 20 1) (leAt bs 21 1) (leAt bs 22 1) then
        (said stOk, s.txeqWrite (leAt bs 16 1) (leAt bs 17 1) (leAt bs 22 1 * 2 ^ 16 + leAt bs 21 1 * 2 ^ 8 + leAt bs 20 1))
      else (said stBadParam, s) := by
  unfold State.eqTaps
  exact laneEq_named h _

theorem eqTaps_takes (ht : tapsOk (leAt bs 20 1) (leAt bs 21 1) (leAt bs 22 1) = true) :
    State.eqTaps bs s = (said stOk, s.wr (Reg.laneTxeq (leAt bs 16 1) (leAt bs 17 1))
      (s.rdF (Reg.laneTxeq (leAt bs 16 1) (leAt bs 17 1)) 31 31 * 2 ^ 31 + leAt bs 22 1 * 2 ^ 16 + leAt bs 21 1 * 2 ^ 8 + leAt bs 20 1)) := by
  rw [← txeqWrite_takes (spared_of_laneNamed h) ht]
  exact (eqTaps_named h).trans (if_pos ht)

theorem eqTaps_refuses (ht : tapsOk (leAt bs 20 1) (leAt bs 21 1) (leAt bs 22 1) = false) : State.eqTaps bs s = (said stBadParam, s) :=
  (eqTaps_named h).trans (if_neg (ne_true_of_eq_false ht))

theorem eqFreeze_freezes :
    State.eqFreeze 1 bs s = (said stOk,
      (if s.adapts (leAt bs 16 1) (leAt bs 17 1) then s.holdEq (leAt bs 16 1) (leAt bs 17 1) else s).wrF
        (Reg.laneRxeq (leAt bs 16 1) (leAt bs 17 1)) 31 31 1) :=
  laneEq_named h _

theorem eqFreeze_releases : State.eqFreeze 0 bs s = (said stOk, s.wrF (Reg.laneRxeq (leAt bs 16 1) (leAt bs 17 1)) 31 31 0) :=
  laneEq_named h _

end
end

section
variable {s t : State} {m k : Nat} {bs : List Byte} {a : Ans} (h : Asked s m k 0x0803 bs)
include h

theorem laneEqTaps_answers (hop : leAt bs 18 1 = 0) (hd : State.eqTaps bs (begin s) = (a, t)) : Answers (.laneEqTaps m) s m k a t := by
  have ⟨_, hm, _⟩ := h
  exact message_does (form := fun bs => leAt bs 18 1 == 0) h (decide_eq_true hm) (beq_iff_eq.mpr hop) rfl hd

theorem laneEqFreeze_answers (hop : leAt bs 18 1 = 1) (hd : State.eqFreeze 1 bs (begin s) = (a, t)) : Answers (.laneEqFreeze m) s m k a t := by
  have ⟨_, hm, _⟩ := h
  exact message_does (form := fun bs => leAt bs 18 1 == 1) h (decide_eq_true hm) (beq_iff_eq.mpr hop) rfl hd

theorem laneEqRelease_answers (hop : leAt bs 18 1 = 2) (hd : State.eqFreeze 0 bs (begin s) = (a, t)) : Answers (.laneEqRelease m) s m k a t := by
  have ⟨_, hm, _⟩ := h
  exact message_does (form := fun bs => leAt bs 18 1 == 2) h (decide_eq_true hm) (beq_iff_eq.mpr hop) rfl hd

end

/-- Settles O31: each message is handled by `eqTaps` or `eqFreeze` on a lane that it may name; each clause is one case of them. -/
theorem laneEqAnswers : Obligations.LaneEqAnswers := by
  intro m k bs s b g l pre main post good frozen h
  refine ⟨fun hn => ⟨fun hop hg => laneEqTaps_answers h hop (eqTaps_takes hn (tapsOk_iff.mpr hg)),
      fun hop hg => laneEqTaps_answers h hop (eqTaps_refuses hn (Bool.eq_false_iff.mpr (mt tapsOk_iff.mp hg))),
      fun hop => laneEqFreeze_answers h hop (eqFreeze_freezes hn), fun hop => laneEqRelease_answers h hop (eqFreeze_releases hn)⟩,
    fun hn => ⟨fun hop => laneEqTaps_answers h hop (eqTaps_unnamed hn), fun hop => laneEqFreeze_answers h hop (laneEq_unnamed hn _),
      fun hop => laneEqRelease_answers h hop (laneEq_unnamed hn _)⟩⟩

end Sys2Proof.Machine
end

section
/-! The bring-up of a lane, case by case: the condition of its stage, a timeout, a lock that is lost, `CTRL`, raw mode and the eye (R324 to R326,
R328 to R331, R333, R334, R361). -/

namespace Sys2Proof.Machine

/-! ### An outcome that a condition decides -/

/-- A state said case by case is the conditional of its cases. -/
theorem ite_eq_of_cases {α : Type} {c : Prop} [Decidable c] {a b p : α} (h : c → p = a) (hn : ¬c → p = b) : (if c then a else b) = p := by
  split
  · next hc => exact (h hc).symm
  · next hc => exact (hn hc).symm

section
variable {gives : State → Prop} {r t u : State} (h : ∀ x, r = x → gives x)
include h

theorem gives_of_ite {c : Prop} [Decidable c] (e : r = if c then t else u) : (c → gives t) ∧ (¬c → gives u) :=
  ⟨fun hc => h _ (e.trans (if_pos hc)), fun hc => h _ (e.trans (if_neg hc))⟩

theorem gives_of_flag {c : Bool} (e : r = if c then t else u) : (c = true → gives t) ∧ (c = false → gives u) :=
  (gives_of_ite h e).imp id fun hn hc => hn (ne_true_of_eq_false hc)

end

/-! ### The commands of a powered payload -/

section
variable {s : State} (hu : s.pwr.up = true) {g l : Nat} (hg : g < 16) (hl : l < 17)
include hg hl

theorem laneRange : (decide (g < 16) && decide (l < 17)) = true := Bool.and_eq_true_iff.mpr ⟨decide_eq_true hg, decide_eq_true hl⟩

include hu

theorem exec_laneStageReady (inv : Bool) {order : Nat} (ho : order < 16) :
    exec (.laneStageReady g l inv order) s = .next (after s ((begin s).stageReady g l inv order)) :=
  pcmd_next (Bool.and_eq_true_iff.mpr ⟨laneRange hg hl, decide_eq_true ho⟩) hu _

theorem exec_laneStageTimeout : exec (.laneStageTimeout g l) s = .next (after s ((begin s).laneTimeout g l)) := pcmd_next (laneRange hg hl) hu _

theorem exec_laneLockLoss {lost : Nat} (h : lost < 6) : exec (.laneLockLoss g l lost) s = .next (after s ((begin s).lockLoss g l lost)) :=
  pcmd_next (Bool.and_eq_true_iff.mpr ⟨laneRange hg hl, decide_eq_true h⟩) hu _

theorem exec_rawSlipDone :
    exec (.rawSlipDone g l) s = .next (after s
      (((begin s).wrF (Reg.laneRawctl g l) 31 31 0).setLane g l { (begin s).lane g l with skip := false })) :=
  pcmd_next (laneRange hg hl) hu _

section
variable (v : Word)

theorem exec_laneRestart : exec (.laneRestart g l v) s = .next (after s ((begin s).laneCtrlWrite g l v.toNat)) := pcmd_next (laneRange hg hl) hu _

theorem exec_laneTxsleep : exec (.laneTxsleep g l v) s = .next (after s ((begin s).laneCtrlWrite g l v.toNat)) := pcmd_next (laneRange hg hl) hu _

theorem exec_laneRxsleep : exec (.laneRxsleep g l v) s = .next (after s ((begin s).laneCtrlWrite g l v.toNat)) := pcmd_next (laneRange hg hl) hu _

theorem exec_rawSlip : exec (.rawSlip g l v) s = .next (after s ((begin s).rawctlWrite g l v.toNat)) := pcmd_next (laneRange hg hl) hu _

theorem exec_rawUp : exec (.rawUp g l v) s = .next (after s ((begin s).rawctlWrite g l v.toNat)) := pcmd_next (laneRange hg hl) hu _

theorem exec_rawDown : exec (.rawDown g l v) s = .next (after s ((begin s).rawctlWrite g l v.toNat)) := pcmd_next (laneRange hg hl) hu _

end

section
variable {h vv : Nat} (hh : h < 256) (hv : vv < 4096)
include hh hv

theorem exec_eyeMeasure :
    exec (.eyeMeasure g l h vv) s = .next (after s
      (if ((begin s).lane g l).own < 4 then begin s
      else
        ((((begin s).extreme 6 (g * 17 + l) 5 min (fld ((begin s).rd (Reg.laneEye g l)) 7 0) h).extreme 6 (g * 17 + l) 6 min
          (fld ((begin s).rd (Reg.laneEye g l)) 27 16) vv).wr (Reg.laneEye g l) (vv * 2 ^ 16 + h)).eyeTrend g l h vv)) := by
  have hok : (decide (g < 16) && decide (l < 17) && decide (h < 256) && decide (vv < 4096)) = true := by
    rw [laneRange hg hl, decide_eq_true hh, decide_eq_true hv]
    rfl
  exact pcmd_next hok hu _

end
end

/-! ### The condition of a stage (R324 to R326, R328) -/

/-- A lane taken to a stage; the other lanes of its link stay in theirs. -/
def State.laneTo (s : State) (g l n : Nat) : State := s.restage g l 0 fun i own => if i = l then n else own

section
variable {s : State} {g l order : Nat} {inv : Bool}

theorem stageReady_off (h : s.laneLive g l = false ∨ s.laneMode g l = 0 ∨ s.laneMode g l = 7) : s.stageReady g l inv order = s := by
  refine if_pos ?_
  rcases h with h | h | h <;> simp only [h, Bool.not_false, beq_self_eq_true, Bool.or_true, Bool.true_or]

section
variable (hlive : s.laneLive g l = true) (h0 : s.laneMode g l ≠ 0) (h7 : s.laneMode g l ≠ 7)
include hlive h0 h7

/-- A live lane that is on. -/
theorem lane_on : ¬(!s.laneLive g l || s.laneMode g l == 0 || s.laneMode g l == 7) = true := by
  rw [hlive, beq_false_of_ne h0, beq_false_of_ne h7]
  exact Bool.false_ne_true

theorem stageReady_outside (h : (s.lane g l).own = 0 ∨ 10 ≤ (s.lane g l).own) : s.stageReady g l inv order = s := by
  unfold State.stageReady
  dsimp only
  rw [if_neg (lane_on hlive h0 h7)]
  rcases h with h | h
  · rw [h]
    rfl
  · obtain ⟨n, h⟩ := Nat.exists_eq_add_of_le' h
    rw [h]
    rfl

theorem stageReady_one (h : (s.lane g l).own = 1) : s.stageReady g l inv order = s.laneTo g l 2 := by
  unfold State.stageReady
  dsimp only
  rw [if_neg (lane_on hlive h0 h7), h]
  rfl

theorem stageReady_two (h : (s.lane g l).own = 2) : s.stageReady g l inv order = if s.lanePllRuns g l then s.laneTo g l 3 else s := by
  unfold State.stageReady
  dsimp only
  rw [if_neg (lane_on hlive h0 h7), h]
  rfl

theorem stageReady_three (h : (s.lane g l).own = 3) :
    s.stageReady g l inv order = if s.rdB (Reg.laneCtrl g l) 1 then s else (s.wrF (Reg.laneStat g l) 0 0 1).laneTo g l 4 := by
  unfold State.stageReady
  dsimp only
  rw [if_neg (lane_on hlive h0 h7), h]
  rfl

/-- A lane in stage 4 has CDR lock, and its word boundary starts anew where it had none before. -/
def State.laneLocked (s : State) (g l : Nat) : State :=
  s.setLane g l { s.lane g l with timeouts4 := 0, cdr := true, slip := if (s.lane g l).cdr then (s.lane g l).slip else 0 }

theorem stageReady_four (h : (s.lane g l).own = 4) :
    s.stageReady g l inv order = if s.laneMode g l = 6 then s.laneLocked g l else (s.laneLocked g l).laneTo g l 5 := by
  unfold State.stageReady State.laneLocked
  dsimp only
  rw [if_neg (lane_on hlive h0 h7), h]
  rfl

theorem stageReady_five (h : (s.lane g l).own = 5) : s.stageReady g l inv order = s.laneTo g l 6 := by
  unfold State.stageReady
  dsimp only
  rw [if_neg (lane_on hlive h0 h7), h]
  rfl

/-- A lane found inverted inverts its data and shows it. -/
def State.laneInverts (s : State) (g l : Nat) : State :=
  (s.wrF (Reg.laneCtrl g l) 3 3 (1 - s.rdF (Reg.laneCtrl g l) 3 3)).wrF (Reg.laneStat g l) 1 1 1

theorem stageReady_six (h : (s.lane g l).own = 6) :
    s.stageReady g l inv order = if inv then (s.laneInverts g l).laneTo g l 5 else s.laneTo g l (if multiLane (s.laneMode g l) then 7 else 9) := by
  unfold State.stageReady
  dsimp only
  rw [if_neg (lane_on hlive h0 h7), h]
  rfl

section
variable (h : (s.lane g l).own = 7)
include h

theorem stageReady_seven_waits (ha : ((s.linkLanes g l).all fun i => decide (7 ≤ (s.lane g i).own)) = false) : s.stageReady g l inv order = s := by
  unfold State.stageReady
  dsimp only
  rw [if_neg (lane_on hlive h0 h7), h]
  exact if_pos (by rw [ha]; rfl)

theorem stageReady_seven_all (ha : ((s.linkLanes g l).all fun i => decide (7 ≤ (s.lane g i).own)) = true) :
    s.stageReady g l inv order =
      if s.laneMode g l = 5 then if s.tetherOrder g l then s.laneTo g l 8 else s
      else if s.orderOk g l order then (s.wrF (Reg.laneStat g l) 27 24 order).laneTo g l 8 else s := by
  unfold State.stageReady
  dsimp only
  rw [if_neg (lane_on hlive h0 h7), h]
  exact if_neg (by rw [ha]; exact Bool.false_ne_true)

end

theorem stageReady_eight (h : (s.lane g l).own = 8) :
    s.stageReady g l inv order = if (s.linkLanes g l).all fun i => decide (8 ≤ (s.lane g i).own) then s.laneTo g l 9 else s := by
  unfold State.stageReady
  dsimp only
  rw [if_neg (lane_on hlive h0 h7), h]
  rfl

theorem stageReady_nine (h : (s.lane g l).own = 9) : s.stageReady g l inv order = if s.laneMode g l = 5 then s else s.laneTo g l 10 := by
  unfold State.stageReady
  dsimp only
  rw [if_neg (lane_on hlive h0 h7), h]
  rfl

end
end

/-! ### A stage times out (R324, R333) -/

section
variable {s : State} {g l : Nat}

/-- A raw lane with CDR lock waits in stage 4 without end. -/
def State.rawLocked (s : State) (g l : Nat) : Prop := s.laneMode g l = 6 ∧ (s.lane g l).own = 4 ∧ (s.lane g l).cdr = true

theorem rawLocked_iff : (s.laneMode g l == 6 && (s.lane g l).own == 4 && (s.lane g l).cdr) = true ↔ s.rawLocked g l := by
  rw [Bool.and_eq_true_iff, Bool.and_eq_true_iff, beq_iff_eq, beq_iff_eq, and_assoc, State.rawLocked]

theorem laneTimeout_stays (h : backStage (s.lane g l).own = none ∨ s.laneLive g l = false ∨ s.rawLocked g l) : s.laneTimeout g l = s := by
  unfold State.laneTimeout
  dsimp only
  split
  · rfl
  · next hb =>
    refine if_pos (Bool.or_eq_true_iff.mpr ?_)
    rcases h with h | h | h
    · rw [h] at hb
      cases hb
    · exact .inl (by rw [h]; rfl)
    · exact .inr (rawLocked_iff.mpr h)

/-- The stage-4 timeouts in a row of a frozen lane. -/
def State.setTimeouts (s : State) (g l n : Nat) : State := s.setLane g l { s.lane g l with timeouts4 := n }

section
variable (hlive : s.laneLive g l = true) (hraw : ¬s.rawLocked g l) {back : Nat} (hb : backStage (s.lane g l).own = some back)
include hlive hraw hb

theorem laneTimeout_falls {n : Nat}
    (hn : (if (s.lane g l).own = 4 ∧ (s.laneRetry g l).rdB (Reg.laneRxeq g l) 31 = true then (s.lane g l).timeouts4 + 1 else 0) = n) :
    s.laneTimeout g l =
      (if 3 ≤ n then ((s.laneRetry g l).setTimeouts g l n).conflict 2 1 (g * 17 + l)
        else (s.laneRetry g l).setTimeouts g l n).dropLane g l back 2 := by
  have hon : ¬(!s.laneLive g l || (s.laneMode g l == 6 && (s.lane g l).own == 4 && (s.lane g l).cdr)) = true := by
    rw [hlive, Bool.not_true, Bool.false_or, rawLocked_iff]
    exact hraw
  subst hn
  unfold State.laneTimeout
  dsimp only
  rw [hb]
  exact if_neg hon

theorem laneTimeout_unfrozen (h : (s.lane g l).own ≠ 4 ∨ (s.laneRetry g l).rdB (Reg.laneRxeq g l) 31 = false) :
    s.laneTimeout g l = ((s.laneRetry g l).setTimeouts g l 0).dropLane g l back 2 := by
  refine (laneTimeout_falls (n := 0) hlive hraw hb (if_neg ?_)).trans (by rw [if_neg (by omega)])
  rintro ⟨h4, hf⟩
  exact h.elim (fun h => h h4) fun h => absurd hf (ne_true_of_eq_false h)

section
variable (h4 : (s.lane g l).own = 4) (hf : (s.laneRetry g l).rdB (Reg.laneRxeq g l) 31 = true)
include h4 hf

theorem laneTimeout_frozen_early (h : (s.lane g l).timeouts4 < 2) :
    s.laneTimeout g l = ((s.laneRetry g l).setTimeouts g l ((s.lane g l).timeouts4 + 1)).dropLane g l back 2 :=
  (laneTimeout_falls hlive hraw hb (if_pos ⟨h4, hf⟩)).trans (by rw [if_neg (by omega)])

theorem laneTimeout_frozen_logged (h : 2 ≤ (s.lane g l).timeouts4) :
    s.laneTimeout g l =
      (((s.laneRetry g l).setTimeouts g l ((s.lane g l).timeouts4 + 1)).conflict 2 1 (g * 17 + l)).dropLane g l back 2 :=
  (laneTimeout_falls hlive hraw hb (if_pos ⟨h4, hf⟩)).trans (by rw [if_pos (by omega)])

end
end
end

/-! ### A lock that is lost (R324, R329) -/

section
variable {s : State} {g l lost : Nat}

/-- A live lane that has the lock it is to lose: signal, CDR lock or block lock, which a raw lane has none of. -/
def State.losesLock (s : State) (g l lost : Nat) : Prop :=
  s.laneLive g l = true ∧ (9 ≤ (s.lane g l).own ∨ s.rawLocked g l) ∧ 3 ≤ lost ∧ ¬(s.laneMode g l = 6 ∧ lost = 5)

theorem losesLock_iff :
    (!s.laneLive g l || !(decide (9 ≤ (s.lane g l).own) || (s.laneMode g l == 6 && (s.lane g l).own == 4 && (s.lane g l).cdr)) ||
      decide (lost < 3) || (s.laneMode g l == 6 && lost == 5)) = true ↔ ¬s.losesLock g l lost := by
  rw [State.losesLock, ← rawLocked_iff, Bool.or_eq_true_iff, Bool.or_eq_true_iff, Bool.or_eq_true_iff, Bool.not_eq_true', Bool.not_eq_true',
    Bool.and_eq_true_iff, decide_eq_true_iff, beq_iff_eq, beq_iff_eq, ← Nat.not_le, ← Bool.not_eq_true, ← Bool.not_eq_true, Bool.or_eq_true_iff,
    decide_eq_true_iff, Classical.not_and_iff_not_or_not, Classical.not_and_iff_not_or_not, Classical.not_and_iff_not_or_not, Classical.not_not,
    or_assoc, or_assoc]

theorem lockLoss_stays (h : ¬s.losesLock g l lost) : s.lockLoss g l lost = s := if_pos (losesLock_iff.mpr h)

theorem lockLoss_falls (h : s.losesLock g l lost) {p q r : State} (hp : (if lost = 3 then s.wrF (Reg.laneStat g l) 0 0 0 else s) = p)
    (hq : (if s.laneMode g l == 6 then p.wrF (Reg.laneRawctl g l) 1 1 0 else p) = q)
    (hr : (if lost < 5 then q.setLane g l { s.lane g l with cdr := false } else q) = r) :
    s.lockLoss g l lost = r.dropLane g l lost (if lost = 3 then 1 else 2) := by
  subst hp hq hr
  exact if_neg fun ht => losesLock_iff.mp ht h

end

/-! ### `LANE.CTRL` (R330, R331, R361) -/

section
variable {s : State} {g l : Nat}

theorem laneCtrlWrite_ignored {v : Nat} (h : g = 15 ∨ l ≠ 16 ∧ s.spared g l = true) : s.laneCtrlWrite g l v = s := if_pos h

section
variable {v : Nat} (h : ¬(g = 15 ∨ l ≠ 16 ∧ s.spared g l = true)) {u p q : State}
  (hu : s.wr (Reg.laneCtrl g l) (s.laneMode g l * 2 ^ 28 + fld v 4 3 * 8 + v % 4) = u)
  (hp : (if s.laneLive g l && decide (fld v 31 28 < 7) then u.setLaneMode g l (fld v 31 28) else u) = p)
  (hq : p.laneSleep g l (tb v 0 && !s.rdB (Reg.laneCtrl g l) 0) (tb v 1 && !s.rdB (Reg.laneCtrl g l) 1) = q)
include h hu hp hq

/-- A write of `CTRL`, once its mode has been taken and its sleep bits have acted: RESTART comes last. -/
theorem laneCtrlWrite_acts :
    s.laneCtrlWrite g l v = if tb v 7 && decide ((q.lane g l).own ≠ 0) then q.dropLane g l 1 5 else q := by
  subst hu hp hq
  exact if_neg h

theorem laneCtrlWrite_restarts (h7 : tb v 7 = true) (hown : (q.lane g l).own ≠ 0) : s.laneCtrlWrite g l v = q.dropLane g l 1 5 := by
  rw [laneCtrlWrite_acts h hu hp hq, if_pos]
  simp only [h7, hown, ne_eq, not_false_eq_true, decide_true, Bool.and_self]

theorem laneCtrlWrite_ends (h7 : tb v 7 = false ∨ (q.lane g l).own = 0) : s.laneCtrlWrite g l v = q := by
  rw [laneCtrlWrite_acts h hu hp hq, if_neg]
  rcases h7 with h7 | hown
  · rw [h7]
    exact Bool.false_ne_true
  · simp only [hown, ne_eq, not_true_eq_false, decide_false, Bool.and_false, Bool.false_eq_true, not_false_eq_true]

end

section
variable {tx rx : Bool}

theorem laneSleep_falls (hrx : rx = true) (h : 3 < (s.lane g l).own) : s.laneSleep g l tx rx = s.dropLane g l 3 6 :=
  if_pos (by rw [hrx, decide_eq_true h]; rfl)

theorem laneSleep_keepsLock (h : rx = false ∨ (s.lane g l).own ≤ 3) :
    s.laneSleep g l tx rx =
      if (tx || rx) && decide (1 < (s.linkLanes g l).length) then s.restage g l 6 fun _ own => min own 7 else s := by
  refine if_neg fun ht => ?_
  obtain ⟨hrx, hown⟩ := Bool.and_eq_true_iff.mp ht
  rcases h with h | h
  · exact absurd hrx (ne_true_of_eq_false h)
  · exact absurd (of_decide_eq_true hown) (Nat.not_lt.mpr h)

theorem laneSleep_takesLinkDown (h : rx = false ∨ (s.lane g l).own ≤ 3) (hs : tx = true ∨ rx = true) (hn : 1 < (s.linkLanes g l).length) :
    s.laneSleep g l tx rx = s.restage g l 6 fun _ own => min own 7 :=
  (laneSleep_keepsLock h).trans (if_pos (Bool.and_eq_true_iff.mpr ⟨Bool.or_eq_true_iff.mpr hs, decide_eq_true hn⟩))

theorem laneSleep_stays (h : rx = false ∨ (s.lane g l).own ≤ 3) (hs : (tx = false ∧ rx = false) ∨ (s.linkLanes g l).length ≤ 1) :
    s.laneSleep g l tx rx = s := by
  refine (laneSleep_keepsLock h).trans (if_neg fun ht => ?_)
  obtain ⟨hor, hn⟩ := Bool.and_eq_true_iff.mp ht
  rcases hs with ⟨htx, hrx⟩ | hs
  · rw [htx, hrx] at hor
    exact Bool.false_ne_true hor
  · exact absurd (of_decide_eq_true hn) (Nat.not_lt.mpr hs)

end
end

/-! ### Raw mode (R329) -/

section
variable {s : State} {g l v : Nat}

theorem rawctlWrite_ignored (h : s.laneLive g l = false ∨ s.laneMode g l ≠ 6) : s.rawctlWrite g l v = s := by
  refine if_pos ?_
  rcases h with h | h
  · rw [h]
    rfl
  · rw [decide_eq_true h, Bool.or_true]

section
variable (hlive : s.laneLive g l = true) (hmode : s.laneMode g l = 6) {p : State}
  (hp : (if tb v 0 && !s.rdB (Reg.laneRawctl g l) 31 then
    (s.wrF (Reg.laneRawctl g l) 31 31 1).setLane g l { s.lane g l with slip := ((s.lane g l).slip + 1) % 64, skip := true } else s) = p)
include hlive hmode hp

/-- A write of `RAWCTL`, once SLIP has acted. -/
theorem rawctlWrite_acts :
    s.rawctlWrite g l v =
      if tb v 1 && decide ((s.lane g l).own = 4) then (p.wrF (Reg.laneRawctl g l) 1 1 1).restage g l 0 fun _ _ => 10
      else if !tb v 1 && decide (9 ≤ (s.lane g l).own) then (p.wrF (Reg.laneRawctl g l) 1 1 0).restage g l 5 fun _ _ => 4
      else p := by
  subst hp
  refine if_neg ?_
  rw [hlive, hmode]
  decide

theorem rawctlWrite_up (h1 : tb v 1 = true) (h : (s.lane g l).own = 4) :
    s.rawctlWrite g l v = (p.wrF (Reg.laneRawctl g l) 1 1 1).restage g l 0 fun _ _ => 10 :=
  (rawctlWrite_acts hlive hmode hp).trans (if_pos (Bool.and_eq_true_iff.mpr ⟨h1, decide_eq_true h⟩))

theorem rawctlWrite_down (h1 : tb v 1 = false) (h : 9 ≤ (s.lane g l).own) :
    s.rawctlWrite g l v = (p.wrF (Reg.laneRawctl g l) 1 1 0).restage g l 5 fun _ _ => 4 := by
  rw [rawctlWrite_acts hlive hmode hp, h1, decide_eq_true h]
  rfl

theorem rawctlWrite_same (h : tb v 1 = true ∧ (s.lane g l).own ≠ 4 ∨ tb v 1 = false ∧ (s.lane g l).own < 9) : s.rawctlWrite g l v = p := by
  rw [rawctlWrite_acts hlive hmode hp]
  rcases h with ⟨h1, h⟩ | ⟨h1, h⟩
  · rw [h1, decide_eq_false h]
    rfl
  · rw [h1, decide_eq_false (Nat.not_le.mpr h)]
    rfl

end
end

/-- Settles O51: each command is one operation on the lane, and each clause is one case of it. -/
theorem laneBringUp : Obligations.LaneBringUp := by
  intro g l order inv v s hg hl ho hu b x mode live go ready late
  have readies : ∀ t, b.stageReady g l inv order = t → ready t := by
    rintro _ rfl
    exact exec_laneStageReady hu hg hl inv ho
  have lates : ∀ t, b.laneTimeout g l = t → late t := by
    rintro _ rfl
    exact exec_laneStageTimeout hu hg hl
  refine ⟨?_, fun hlive h0 h7 => ⟨?_, ?_, ?_, ?_, ?_, ?_, ?_, ?_, ?_, ?_⟩, ?_, fun hlive hraw back hb => ?_, fun lost hlost => ?_,
    ⟨exec_laneRestart hu hg hl v, exec_laneTxsleep hu hg hl v, exec_laneRxsleep hu hg hl v⟩,
    ⟨exec_rawSlip hu hg hl v, exec_rawUp hu hg hl v, exec_rawDown hu hg hl v⟩, fun w m => ⟨laneCtrlWrite_ignored, fun hg' hl' p q => ?_⟩,
    fun w tx rx => ⟨laneSleep_falls, fun h => ⟨laneSleep_takesLinkDown h, laneSleep_stays h⟩⟩,
    fun w m => ⟨rawctlWrite_ignored, fun hlive hmode p hs hn => ?_⟩,
    exec_rawSlipDone hu hg hl, fun h vv hh hv => ?_⟩
  · exact fun h => readies _ (stageReady_off h)
  · exact fun h => readies _ (stageReady_outside hlive h0 h7 h)
  · exact fun h => readies _ (stageReady_one hlive h0 h7 h)
  · exact fun h => gives_of_flag readies (stageReady_two hlive h0 h7 h)
  · exact fun h => (gives_of_flag readies (stageReady_three hlive h0 h7 h)).symm
  · exact fun h => (gives_of_ite readies (stageReady_four hlive h0 h7 h)).symm
  · exact fun h => readies _ (stageReady_five hlive h0 h7 h)
  · exact fun h => (gives_of_flag readies (stageReady_six hlive h0 h7 h)).symm
  · intro h all
    have seven := fun ha => stageReady_seven_all (order := order) (inv := inv) hlive h0 h7 h ha
    exact ⟨fun ha => readies _ (stageReady_seven_waits hlive h0 h7 h ha), fun ha hm => gives_of_flag readies ((seven ha).trans (if_pos hm)),
      fun ha hm => gives_of_flag readies ((seven ha).trans (if_neg hm))⟩
  · exact fun h => gives_of_flag readies (stageReady_eight hlive h0 h7 h)
  · exact fun h => (gives_of_ite readies (stageReady_nine hlive h0 h7 h)).symm
  · exact fun h => lates _ (laneTimeout_stays h)
  · intro t frozen
    exact ⟨fun h => lates _ (laneTimeout_unfrozen hlive hraw hb h), fun h4 hf =>
      ⟨fun h => lates _ (laneTimeout_frozen_early hlive hraw hb h4 hf h), fun h => lates _ (laneTimeout_frozen_logged hlive hraw hb h4 hf h)⟩⟩
  · intro gives on
    have loses : ∀ t, b.lockLoss g l lost = t → gives t := by
      rintro _ rfl
      exact exec_laneLockLoss hu hg hl hlost
    refine ⟨fun h => loses _ (lockLoss_stays h), fun h p q r hp3 hp hq6 hq hr5 hr =>
      loses _ (lockLoss_falls (q := q) h (ite_eq_of_cases hp3 hp) ?_ ?_)⟩
    · exact ite_eq_of_cases (fun h => hq6 (beq_iff_eq.mp h)) fun h => hq (mt beq_iff_eq.mpr h)
    · exact ite_eq_of_cases hr5 fun h => hr (by omega)
  · intro u hp hn hq
    have hhas : ¬(g = 15 ∨ l ≠ 16 ∧ w.spared g l = true) := by
      rintro (h | ⟨h16, hs⟩)
      · exact hg' h
      · exact hl'.elim h16 (ne_true_of_eq_false · hs)
    have htake : (if w.laneLive g l && decide (fld m 31 28 < 7) then u.setLaneMode g l (fld m 31 28) else u) = p := by
      refine ite_eq_of_cases (fun h => hp ((Bool.and_eq_true_iff.mp h).imp_right of_decide_eq_true)) fun h => hn ?_
      rwa [Bool.not_eq_true, Bool.and_eq_false_iff, decide_eq_false_iff_not, Nat.not_lt] at h
    exact ⟨laneCtrlWrite_restarts hhas rfl htake hq.symm, laneCtrlWrite_ends hhas rfl htake hq.symm⟩
  · have hslip : (if tb m 0 && !w.rdB (Reg.laneRawctl g l) 31 then
        (w.wrF (Reg.laneRawctl g l) 31 31 1).setLane g l { w.lane g l with slip := ((w.lane g l).slip + 1) % 64, skip := true } else w) = p := by
      refine ite_eq_of_cases (fun h => ?_) fun h => hn ?_
      · obtain ⟨h0, hbusy⟩ := Bool.and_eq_true_iff.mp h
        exact hs h0 ((Bool.not_eq_true' _).mp hbusy)
      · rwa [Bool.not_eq_true, Bool.and_eq_false_iff, Bool.not_eq_false'] at h
    exact ⟨rawctlWrite_up hlive hmode hslip, rawctlWrite_down hlive hmode hslip, rawctlWrite_same hlive hmode hslip⟩
  · intro gives e
    have eye := exec_eyeMeasure hu hg hl hh hv
    exact ⟨fun h4 => by rwa [if_neg (Nat.not_lt.mpr h4)] at eye, fun h4 => by rwa [if_pos h4] at eye⟩

end Sys2Proof.Machine
end

section
/-! The fronthaul's data, case by case: frames received and sent, U-plane messages and their windows, egress, and time-domain streams (R336,
R338 to R343, R345, R379). -/

namespace Sys2Proof.Machine

/-! ### The commands of a powered payload -/

section
variable {s : State} (hu : s.pwr.up = true)
include hu

section
variable {p mac : Nat} (hp : p < 64) (hm : mac < 16)
include hp hm

theorem exec_ethFrameRx (bs : List Byte) (good : Bool) (time errs fc fu : Nat) :
    exec (.ethFrameRx p mac bs good time errs fc fu) s = .next (after s ((begin s).frameRx p mac bs good time errs fc fu)) :=
  pcmd_next (Bool.and_eq_true_iff.mpr ⟨decide_eq_true hp, decide_eq_true hm⟩) hu _

theorem exec_ethFrameTxStamp (tag time : Nat) :
    exec (.ethFrameTxStamp p mac tag time) s = .next (after s ((begin s).txStamp p mac tag time)) :=
  pcmd_next (Bool.and_eq_true_iff.mpr ⟨decide_eq_true hp, decide_eq_true hm⟩) hu _

end

theorem exec_uplaneMessage {p : Nat} (hp : p < 64) (id sym : Nat) (secs : List (Nat × Nat × List Byte)) :
    exec (.uplaneMessage p id sym secs) s = .next (after s ((begin s).uplane p id sym secs)) :=
  pcmd_next (decide_eq_true hp) hu _

section
variable {c : Nat} (hc : c < 384) (sym : Nat)
include hc

theorem exec_rxWindowOpen : exec (.rxWindowOpen c sym) s = .next (after s ((begin s).openWindow c sym)) := pcmd_next (decide_eq_true hc) hu _

theorem exec_rxWindowClose : exec (.rxWindowClose c sym) s = .next (after s ((begin s).closeWindow c sym)) := pcmd_next (decide_eq_true hc) hu _

theorem exec_fhEgressStart : exec (.fhEgressStart c sym) s = .next (after s ((begin s).egress c sym)) := pcmd_next (decide_eq_true hc) hu _

end

section
variable {st : Nat} (hst : st < 4096)
include hst

theorem exec_tdStreamMessage (seq : Nat) (bs : List Byte) :
    exec (.tdStreamMessage st seq bs) s = .next (after s ((begin s).tdRx st seq bs)) :=
  pcmd_next (decide_eq_true hst) hu _

theorem exec_tdStreamSend : exec (.tdStreamSend st) s = .next (after s ((begin s).tdTx st)) := pcmd_next (decide_eq_true hst) hu _

end
end

/-! ### Frames received (R336, R338, R343, R345) -/

section
variable {s : State} {p mac : Nat} {bs : List Byte} {good : Bool} {time errs fc fu : Nat}

theorem frameRx_noMac (h : (s.portMacs p)[mac]? = none) : s.frameRx p mac bs good time errs fc fu = s := by
  unfold State.frameRx
  rw [h]

section
variable {m : Nat × Nat × Nat} (h : (s.portMacs p)[mac]? = some m)
include h

theorem frameRx_down (hl : s.linkIsUp (s.macLane m).1 (s.macLane m).2 = false) : s.frameRx p mac bs good time errs fc fu = s := by
  unfold State.frameRx
  rw [h]
  exact if_pos ((Bool.not_eq_true' _).mpr hl)

/-- What the lane of a MAC counts of a frame. -/
def State.macErrs (s : State) (m : Nat × Nat × Nat) (errs fc fu : Nat) : State :=
  (s.laneErr (s.macLane m).1 (s.macLane m).2 errs).laneFec (s.macLane m).1 (s.macLane m).2 fc fu

/-- A whole frame of a permitted size counted on its port. -/
def State.rxCounted (s : State) (p : Nat) (bs : List Byte) : State := ((s.count (Reg.fhmPortRxFrames p) 1).tally 7 p 0 1).tally 7 p 1 bs.length

/-- What of a frame is the firmware's handed over, with the receive stamp in front where the MACs stamp it. -/
def State.handOver (s : State) (p : Nat) (bs stamp : List Byte) : State :=
  (s.forFirmware p bs).foldl (fun x f => x.toInbox p (if f.1 then stamp ++ f.2 else f.2)) s

variable (hl : s.linkIsUp (s.macLane m).1 (s.macLane m).2 = true)
include hl

theorem frameRx_up :
    s.frameRx p mac bs good time errs fc fu =
      if !good then (s.macErrs m errs fc fu).count (Reg.fhmPortFcsDrop p) 1
      else if bs.length < 64 ∨ 9600 < bs.length then s.macErrs m errs fc fu
      else
        let r := ((s.macErrs m errs fc fu).rxCounted p bs).gbx
        r.2.2.handOver p bs
          (stampRecord (time - psFr16 (macLatency m.2.2).2 - psFr16 r.2.1) 0 ((s.macLane m).1 * 17 + (s.macLane m).2)) := by
  unfold State.frameRx
  rw [h]
  exact if_neg (ne_true_of_eq_false ((Bool.not_eq_false' _).mpr hl))

theorem frameRx_badFcs : s.frameRx p mac bs false time errs fc fu = (s.macErrs m errs fc fu).count (Reg.fhmPortFcsDrop p) 1 := frameRx_up h hl

theorem frameRx_badSize (hn : bs.length < 64 ∨ 9600 < bs.length) : s.frameRx p mac bs true time errs fc fu = s.macErrs m errs fc fu :=
  (frameRx_up h hl).trans (if_pos hn)

theorem frameRx_handsOver (h64 : 64 ≤ bs.length) (hmax : bs.length ≤ 9600) {tx rx : Nat} {w : State}
    (hg : ((s.macErrs m errs fc fu).rxCounted p bs).gbx = (tx, rx, w)) :
    s.frameRx p mac bs true time errs fc fu =
      w.handOver p bs (stampRecord (time - psFr16 (macLatency m.2.2).2 - psFr16 rx) 0 ((s.macLane m).1 * 17 + (s.macLane m).2)) := by
  rw [frameRx_up h hl, hg]
  exact (if_neg Bool.false_ne_true).trans (if_neg (by omega))

end
end

/-! ### Marked frames sent (R343, R379) -/

section
variable {s : State} {p mac tag time : Nat}

theorem txStamp_noMac (h : (s.portMacs p)[mac]? = none) : s.txStamp p mac tag time = s := by
  unfold State.txStamp
  rw [h]

section
variable {m : Nat × Nat × Nat} (h : (s.portMacs p)[mac]? = some m)
include h

theorem txStamp_silent (hm : s.macSends m = false) : s.txStamp p mac tag time = s := by
  unfold State.txStamp
  rw [h]
  exact if_pos (by rw [hm]; rfl)

/-- A frame of the firmware's counted, of which the number of bytes is free. -/
def State.txCounted (s : State) (p : Nat) : State :=
  (((s.free 9537).2.count (Reg.fhmPortTxFrames p) 1).tally 7 p 5 1).tally 7 p 6 (64 + (s.free 9537).1)

theorem txStamp_records (hm : s.macSends m = true) {tx rx : Nat} {w : State} (hg : (s.txCounted p).gbx = (tx, rx, w)) :
    s.txStamp p mac tag time =
      w.stampRing (stampRecord (time + psFr16 (macLatency m.2.2).1 + psFr16 tx) tag (32768 + (s.macLane m).1 * 17 + (s.macLane m).2)) := by
  unfold State.txCounted at hg
  unfold State.txStamp
  rw [h]
  dsimp only
  rw [if_neg (by rw [hm]; exact Bool.false_ne_true), hg]

end
end

section
variable {s t : State} {bs : List Byte}

/-- How many records the TX stamp ring holds. -/
def State.stampsHeld (s : State) : Nat := (s.rdF Reg.mrdTsrPi 15 0 + 65536 - s.rdF Reg.mrdTsrCi 15 0) % 65536

/-- The size of the TX stamp ring. -/
def State.stampRingSize (s : State) : Nat := 2 ^ max 4 (min 12 (s.rdF Reg.mrdTsrLog2 3 0))

theorem stampRing_full (h : s.stampsHeld = s.stampRingSize) : s.stampRing bs = s.count Reg.mrdTsrLost 1 := if_pos h

section
variable (h : s.stampsHeld ≠ s.stampRingSize) {r : WrRes}
  (hw : s.memWrite (s.rdPair Reg.mrdTsrBaseLo Reg.mrdTsrBaseHi + s.rdF Reg.mrdTsrPi 15 0 % s.stampRingSize * 16) bs = (r, t))
include h hw

theorem stampRing_writes :
    s.stampRing bs = if r = .ok then t.wr Reg.mrdTsrPi ((s.rdF Reg.mrdTsrPi 15 0 + 1) % 65536) else t.count Reg.mrdTsrLost 1 := by
  unfold State.stampRingSize at hw
  refine (if_neg h).trans ?_
  rw [hw]
  cases r <;> rfl

theorem stampRing_puts (hr : r = .ok) : s.stampRing bs = t.wr Reg.mrdTsrPi ((s.rdF Reg.mrdTsrPi 15 0 + 1) % 65536) :=
  (stampRing_writes h hw).trans (if_pos hr)

theorem stampRing_loses (hr : r ≠ .ok) : s.stampRing bs = t.count Reg.mrdTsrLost 1 := (stampRing_writes h hw).trans (if_neg hr)

end
end

/-! ### U-plane messages (R339, R340) -/

section
variable {s w : State} {p id sym : Nat} {secs : List (Nat × Nat × List Byte)}

theorem uplane_unknown (h : s.streamOf p id = none) :
    s.uplane p id sym secs = (s.count (Reg.fhmPortUnknown p) 1).toInbox p (unknownMessage id secs) := by
  unfold State.uplane
  rw [h]

section
variable {st : Nat} {k : StreamCfg} (h : s.streamOf p id = some (st, k))
include h

theorem uplane_otherUse (hk : k.use ≠ 0) : s.uplane p id sym secs = s := by
  unfold State.uplane
  rw [h]
  exact if_pos hk

variable (hk : k.use = 0)
include hk

theorem uplane_noWindow (hw : s.window? k.carrier sym = none) :
    s.uplane p id sym secs =
      if s.mrd.time < s.windowOpens k.carrier sym then (s.count (Reg.fhmPortEarly p) 1).tally 7 p 4 1
      else (s.count (Reg.fhmPortLate p) 1).tally 7 p 3 1 := by
  unfold State.uplane
  rw [h]
  dsimp only
  rw [if_neg (not_not_intro hk), hw]

/-- A window with the PRBs that a message lands. -/
def RxWindow.land (win : RxWindow) (got : List (Nat × Nat)) : RxWindow :=
  { win with landed := got.foldl (fun l e => if l.contains e then l else l ++ [e]) win.landed }

/-- Every bound stream has landed every PRB of a window. -/
def State.fullWindow (s : State) (win : RxWindow) : Bool := (s.missingPrbs win).isEmpty

section
variable {win : RxWindow} (hw : s.window? k.carrier sym = some win) {static : Nat}
  (h0 : mget (fun _ => none) s.front.ports p = none → static = 0)
  (hc : ∀ c, mget (fun _ => none) s.front.ports p = some c → static = c.staticW) {got : List (Nat × Nat)}
  (hl : s.landSections st sym static k.carrier secs = (w, got))
include hw h0 hc hl

theorem uplane_lands {t : State} (ht : w.setWindow { win.land got with posted := win.posted || w.fullWindow (win.land got) } = t) :
    s.uplane p id sym secs = if w.fullWindow (win.land got) && !win.posted then t.arrive k.carrier sym else t := by
  subst ht
  unfold State.uplane
  rw [h]
  dsimp only
  rw [if_neg (not_not_intro hk), hw]
  cases hp : mget (fun _ => none) s.front.ports p with
  | none =>
    obtain rfl := h0 hp
    dsimp only
    rw [hl]
    rfl
  | some c =>
    obtain rfl := hc c hp
    dsimp only
    rw [hl]
    rfl

end
end
end

/-! ### Sections landed (R339, R340) -/

section
variable {s : State} {st sym static c : Nat}

theorem landSections_nil : s.landSections st sym static c [] = (s, []) := rfl

variable {start width : Nat} {bytes : List Byte}

theorem landSections_one {w : Nat} (hw : (if static = 0 then width else static) = w) :
    s.landSections st sym static c [(start, width, bytes)] =
      if w = 0 ∨ 16 < w then (s, []) else s.landSection st sym w (s.carrierPrbs c) start bytes := by
  unfold State.landSections
  rw [List.foldl_cons, List.foldl_nil]
  dsimp only
  rw [hw, List.nil_append]

theorem landSections_badWidth (h : static = 0 → width = 0 ∨ 16 < width) (hs : 16 < static ∨ static = 0) :
    s.landSections st sym static c [(start, width, bytes)] = (s, []) := by
  rw [landSections_one rfl, if_pos]
  split
  · exact h ‹_›
  · exact .inr (hs.resolve_right ‹_›)

theorem landSections_ownWidth (hs : static = 0) (h1 : 1 ≤ width) (h16 : width ≤ 16) :
    s.landSections st sym static c [(start, width, bytes)] = s.landSection st sym width (s.carrierPrbs c) start bytes :=
  (landSections_one (if_pos hs)).trans (if_neg (by omega))

theorem landSections_staticWidth (h1 : 1 ≤ static) (h16 : static ≤ 16) :
    s.landSections st sym static c [(start, width, bytes)] = s.landSection st sym static (s.carrierPrbs c) start bytes :=
  (landSections_one (if_neg (by omega))).trans (if_neg (by omega))

end

/-! ### Windows (R340) -/

section
variable {s : State} {c sym : Nat}

theorem openWindow_stays (h : s.drives c sym = false ∨ s.slotUl c (sym / 14) = false ∨ s.window? c sym ≠ none) : s.openWindow c sym = s := by
  refine if_pos ?_
  rcases h with h | h | h
  · rw [h]
    rfl
  · rw [h, Bool.not_false, Bool.or_true, Bool.true_or]
  · rw [Option.isSome_iff_ne_none.mpr h, Bool.or_true]

/-- A window added, with nothing landed in it. -/
def State.addWindow (s : State) (c sym : Nat) : State :=
  { s with front := { s.front with windows := s.front.windows ++ [{ carrier := c, symbol := sym, landed := [], posted := false }] } }

theorem openWindow_opens (hd : s.drives c sym = true) (hs : s.slotUl c (sym / 14) = true) (hw : s.window? c sym = none) :
    s.openWindow c sym = (s.until (s.windowOpens c sym)).addWindow c sym := by
  refine if_neg ?_
  rw [hd, hs, hw]
  exact Bool.false_ne_true

end

section
variable {s u : State} {c sym : Nat}

theorem closeWindow_none (h : s.window? c sym = none) : s.closeWindow c sym = s := by
  unfold State.closeWindow
  rw [h]

/-- Zeros for the PRBs of a symbol that were not received, each counted on its port. -/
def State.zeroPrbs (s : State) (sym : Nat) (gone : List (Nat × StreamCfg × Nat)) : State :=
  gone.foldl (fun s e => ((s.landZeros e.1 sym e.2.2).count (Reg.fhmPortMissing e.2.1.port) 1).tally 7 e.2.1.port 2 1) s

/-- A window removed, with `n` PRBs more missing on its carrier. -/
def State.dropWindow (s : State) (c sym n : Nat) : State :=
  { s with front := { s.front with
    windows := s.front.windows.filter fun x => !(x.carrier == c && x.symbol == sym)
    missing := mmod (fun _ => 0) s.front.missing c fun m => (m + n) % 2 ^ 32 } }

section
variable {w : RxWindow} (h : s.window? c sym = some w) (hu : s.until (s.windowCloses c sym) = u)
  {gone : List (Nat × StreamCfg × Nat)} {v : State} (hv : u.zeroPrbs sym gone = v)
include h hu hv

theorem closeWindow_posted (hp : w.posted = true) (hg : gone = []) : s.closeWindow c sym = v.dropWindow c sym gone.length := by
  subst hu hv hg
  unfold State.closeWindow State.zeroPrbs State.dropWindow
  rw [h]
  simp only [hp, if_true]

theorem closeWindow_owed (hp : w.posted = false) (hg : gone = u.missingPrbs w) :
    s.closeWindow c sym = (v.dropWindow c sym gone.length).arrive c sym := by
  subst hu hv hg
  unfold State.closeWindow State.zeroPrbs State.dropWindow
  rw [h]
  simp only [hp, Bool.false_eq_true, if_false]

end
end

/-! ### Egress (R341) -/

section
variable {s t : State} {c sym : Nat}

theorem egress_stays (h : s.drives c sym = false ∨ s.slotDl c (sym / 14) = false) : s.egress c sym = s := by
  refine if_pos ?_
  rcases h with h | h <;> simp only [h, Bool.not_false, Bool.or_true, Bool.true_or]

theorem egress_starts (hd : s.drives c sym = true) (hs : s.slotDl c (sym / 14) = true)
    (hu : s.until (s.symbolTime c sym (s.symbolReg c sym (Reg.mrdTlTxAdvance c))) = t) :
    s.egress c sym = (t.carrierStreams c 1).foldl (fun x e => x.egressOne (decide (t.symbolTime c sym 0 < t.mrd.time)) sym c e) t := by
  subst hu
  refine if_neg ?_
  rw [hd, hs]
  exact Bool.false_ne_true

variable {late : Bool} {e : Nat × StreamCfg}

theorem egressOne_lost (h : late = true ∨ s.fhChannel.1 = none ∨ s.streamSends e.2 = none) :
    s.egressOne late sym c e = (s.count (Reg.fhmPortTxLate e.2.port) 1).tally 7 e.2.port 7 1 := by
  unfold State.egressOne
  split
  · next hc hs =>
    rw [hc, hs] at h
    rcases h with h | h | h <;> cases h
  · rfl

theorem egressOne_sends {ch : Nat} {pc : PortCfg} (hl : late = false) (hc : s.fhChannel = (some ch, t)) (hs : s.streamSends e.2 = some pc) :
    s.egressOne late sym c e = t.egressStream e.1 sym c ch e.2 pc := by
  unfold State.egressOne
  rw [hl, hc, hs]

end

/-! ### Time-domain streams (R342) -/

section
variable {s : State} {st seq : Nat} {bs : List Byte}

theorem tdRx_noStream (h : s.stream? st = none) : s.tdRx st seq bs = s := by
  unfold State.tdRx
  rw [h]

/-- A message that an inbound time-domain stream takes. -/
def tdFits (k : StreamCfg) (seq : Nat) (bs : List Byte) : Prop :=
  k.use = 1 ∧ k.dir = 0 ∧ seq < tdMessages (fsSamples k.carrier) k.ant ∧ bs.length = 4 * k.ant

/-- A message's samples take their place in stream time. -/
def State.tdPut (s : State) (st : Nat) (k : StreamCfg) (seq : Nat) (bs : List Byte) (lost : Nat) : State :=
  { s with front := { s.front with
    td := mput (fun _ => none) s.front.td st (some { frame := tdFrame k s.mrd.time seq, seq := seq, lost := lost, samples := samplesOf bs }) } }

/-- The place of a message in stream time, counted over all frames. -/
def tdPlace (k : StreamCfg) (frame seq : Nat) : Nat := frame * tdMessages (fsSamples k.carrier) k.ant + seq

section
variable {k : StreamCfg} (h : s.stream? st = some k)
include h

theorem tdRx_unfit (hf : ¬tdFits k seq bs) : s.tdRx st seq bs = s := by
  unfold State.tdRx
  rw [h]
  exact if_neg hf

variable (hf : tdFits k seq bs)
include hf

theorem tdRx_first (hi : s.tdIn? st = none) : s.tdRx st seq bs = s.tdPut st k seq bs 0 := by
  unfold State.tdRx
  rw [h]
  refine (if_pos hf).trans ?_
  rw [hi]
  rfl

section
variable {x : TdIn} (hi : s.tdIn? st = some x)
include hi

theorem tdRx_notLater (hp : tdPlace k (tdFrame k s.mrd.time seq) seq ≤ tdPlace k x.frame x.seq) : s.tdRx st seq bs = s := by
  unfold State.tdRx
  rw [h]
  refine (if_pos hf).trans ?_
  rw [hi]
  dsimp only
  unfold tdPlace at hp
  rw [decide_eq_true hp]

variable (hp : tdPlace k x.frame x.seq < tdPlace k (tdFrame k s.mrd.time seq) seq) {lost : Nat}
  (hl : (tdPlace k (tdFrame k s.mrd.time seq) seq - tdPlace k x.frame x.seq - 1) * k.ant = lost)
include hp hl

theorem tdRx_later :
    s.tdRx st seq bs =
      match s.nfeRx? st with
      | some e => if lost = 0 then s.tdPut st k seq bs x.lost else (s.tdPut st k seq bs (x.lost + lost)).streamGap e lost
      | none => s.tdPut st k seq bs (x.lost + lost) := by
  subst hl
  unfold State.tdRx
  rw [h]
  refine (if_pos hf).trans ?_
  rw [hi]
  dsimp only
  unfold tdPlace at hp
  rw [decide_eq_false (Nat.not_le.mpr hp)]
  cases s.nfeRx? st <;> rfl

theorem tdRx_noGap (hn : lost = 0 ∨ s.nfeRx? st = none) : s.tdRx st seq bs = s.tdPut st k seq bs (x.lost + lost) := by
  rw [tdRx_later h hf hi hp hl]
  cases hr : s.nfeRx? st with
  | none => rfl
  | some e =>
    rw [hr] at hn
    obtain rfl : lost = 0 := hn.resolve_right (Option.some_ne_none e)
    rfl

theorem tdRx_gap {e : Nat} (hn : lost ≠ 0) (hr : s.nfeRx? st = some e) :
    s.tdRx st seq bs = (s.tdPut st k seq bs (x.lost + lost)).streamGap e lost := by
  rw [tdRx_later h hf hi hp hl, hr]
  exact if_neg hn

end
end
end

section
variable {s w : State} {st : Nat}

theorem tdTx_noStream (h : s.stream? st = none) : s.tdTx st = s := by
  unfold State.tdTx
  rw [h]

/-- A message of an outbound stream sent, and the next one's place. -/
def State.tdSend (s : State) (st : Nat) (k : StreamCfg) (c : PortCfg) (pos : Nat) (xs : List (BitVec 32)) : State :=
  let n := tdMessages (fsSamples k.carrier) k.ant
  let t := (s.emit (.td st (pos % n) xs)).sendMessage k.port k.mac c k.ident (some (pos % n)) 0 (xs.flatMap fun x => leBytes 4 x.toNat)
  { t with front := { t.front with tdNext := mput (fun _ => 0) t.front.tdNext st (pos + 1) } }

section
variable {k : StreamCfg} (h : s.stream? st = some k)
include h

theorem tdTx_stays (hk : k.use ≠ 1 ∨ k.dir ≠ 1 ∨ tdMessages (fsSamples k.carrier) k.ant = 0 ∨ s.streamSends k = none) : s.tdTx st = s := by
  unfold State.tdTx
  rw [h]
  dsimp only
  split
  · next hout hs =>
    obtain ⟨huse, hdir, hn⟩ := of_decide_eq_true hout
    rw [hs] at hk
    rcases hk with hk | hk | hk | hk
    · exact absurd huse hk
    · exact absurd hdir hk
    · exact absurd hk hn
    · cases hk
  · rfl

theorem tdTx_sends {c : PortCfg} (huse : k.use = 1) (hdir : k.dir = 1) (hn : tdMessages (fsSamples k.carrier) k.ant ≠ 0)
    (hs : s.streamSends k = some c) {pos : Nat} (hpos : s.tdNextAt st k (mget (fun _ => 0) s.front.tdNext st) = pos)
    {xs : List (BitVec 32)} (hx : (s.until (tdSendTime st k pos)).tdSamples st pos k = (xs, w)) : s.tdTx st = w.tdSend st k c pos xs := by
  subst hpos
  unfold State.tdTx
  rw [h]
  dsimp only
  rw [decide_eq_true ⟨huse, hdir, hn⟩, hs]
  dsimp only
  rw [hx]
  rfl

end
end

/-- Settles O52: each command is one operation on the port, the carrier or the stream, and each clause is one case of it. -/
theorem fronthaulData : Obligations.FronthaulData := by
  intro p mac s hp hm hu b
  refine ⟨fun bs good time errs fc fu => ?_, fun tag time => ?_, fun w bs => ?_, fun id sym secs => ?_,
    fun x st sym static c start width bytes => ?_, fun c sym hc => ?_, fun c sym hc => ?_, fun c sym hc => ?_, fun x late sym c e => ?_,
    fun st seq bytes hst => ?_, fun st hst => ?_⟩
  · intro gives
    have rx : ∀ t, b.frameRx p mac bs good time errs fc fu = t → gives t := by
      rintro _ rfl
      exact exec_ethFrameRx hu hp hm bs good time errs fc fu
    refine ⟨fun h => rx _ (frameRx_noMac h), fun m h => ⟨fun hl => rx _ (frameRx_down h hl), fun hl => ⟨?_, ?_, ?_⟩⟩⟩
    · rintro rfl
      exact rx _ (frameRx_badFcs h hl)
    · rintro rfl hn
      exact rx _ (frameRx_badSize h hl hn)
    · rintro rfl h64 hmax tx rxPs w hg
      exact rx _ (frameRx_handsOver h hl h64 hmax hg)
  · intro gives
    have sends : ∀ t, b.txStamp p mac tag time = t → gives t := by
      rintro _ rfl
      exact exec_ethFrameTxStamp hu hp hm tag time
    exact ⟨fun h => sends _ (txStamp_noMac h), fun m h =>
      ⟨fun hs => sends _ (txStamp_silent h hs), fun hs _ _ _ hg => sends _ (txStamp_records h hs hg)⟩⟩
  · exact ⟨stampRing_full, fun h r x hw => ⟨stampRing_puts h hw, stampRing_loses h hw⟩⟩
  · intro gives
    have handles : ∀ t, b.uplane p id sym secs = t → gives t := by
      rintro _ rfl
      exact exec_uplaneMessage hu hp id sym secs
    refine ⟨fun h => handles _ (uplane_unknown h), fun st k h => ⟨fun hk => handles _ (uplane_otherUse h hk), fun hk hw => ?_, ?_⟩⟩
    · have outside := gives_of_ite handles (uplane_noWindow h hk hw)
      exact outside.imp_right fun hlate hle => hlate (Nat.not_lt.mpr hle)
    · intro hk win static w got hw h0 hc hl landed full t
      have lands : b.uplane p id sym secs = if full && !win.posted then t.arrive k.carrier sym else t := uplane_lands h hk hw h0 hc hl rfl
      refine ⟨fun hf hn => handles _ (lands.trans (if_pos (by rw [hf, hn]; rfl))), fun hn => handles _ (lands.trans (if_neg ?_))⟩
      rcases hn with hn | hn <;> rw [hn]
      · exact Bool.false_ne_true
      · rw [Bool.not_true, Bool.and_false]
        exact Bool.false_ne_true
  · exact ⟨landSections_nil, landSections_badWidth, landSections_ownWidth, landSections_staticWidth⟩
  · intro gives u
    have opens : ∀ t, b.openWindow c sym = t → gives t := by
      rintro _ rfl
      exact exec_rxWindowOpen hu hc sym
    exact ⟨fun hd hs hw => opens _ (openWindow_opens hd hs hw), fun h => opens _ (openWindow_stays h)⟩
  · intro gives u
    have closes : ∀ t, b.closeWindow c sym = t → gives t := by
      rintro _ rfl
      exact exec_rxWindowClose hu hc sym
    refine ⟨fun h => closes _ (closeWindow_none h), fun w gone h hp hn => ?_⟩
    intro v t
    exact ⟨fun hw => closes _ (closeWindow_posted (v := v) h rfl rfl hw (hp hw)),
      fun hw => closes _ (closeWindow_owed (v := v) h rfl rfl hw (hn hw))⟩
  · intro gives
    have starts : ∀ t, b.egress c sym = t → gives t := by
      rintro _ rfl
      exact exec_fhEgressStart hu hc sym
    exact ⟨fun h => starts _ (egress_stays h), fun hd hs => starts _ (egress_starts hd hs rfl)⟩
  · exact ⟨egressOne_lost, fun ch y pc => egressOne_sends⟩
  · intro gives
    have takes : ∀ t, b.tdRx st seq bytes = t → gives t := by
      rintro _ rfl
      exact exec_tdStreamMessage hu hst seq bytes
    refine ⟨fun h => takes _ (tdRx_noStream h), fun k h => ?_⟩
    intro n f fit put
    refine ⟨fun hf => takes _ (tdRx_unfit h hf), fun hf => ⟨fun hi => takes _ (tdRx_first h hf hi), fun x hi => ?_⟩⟩
    exact ⟨fun hp => takes _ (tdRx_notLater h hf hi hp), fun hp =>
      ⟨fun hn => takes _ (tdRx_noGap h hf hi hp rfl hn), fun e hn hr => takes _ (tdRx_gap h hf hi hp rfl hn hr)⟩⟩
  · intro gives
    have sends : ∀ t, b.tdTx st = t → gives t := by
      rintro _ rfl
      exact exec_tdStreamSend hu hst
    refine ⟨fun h => sends _ (tdTx_noStream h), fun k h => ⟨fun hk => sends _ (tdTx_stays h hk), fun c huse hdir hn hs => ?_⟩⟩
    intro pos xs w hx
    exact sends _ (tdTx_sends h huse hdir hn hs rfl hx)

end Sys2Proof.Machine
end

section
/-! A Tether link, case by case: its frames, LINK blocks and markers, and its request ring (R346 to R354). -/

namespace Sys2Proof.Machine

/-! ### The commands of a powered payload -/

section
variable {s : State} (hu : s.pwr.up = true) {t : Nat} (ht : t < 3)
include hu ht

theorem exec_tetherWriteFrame (bs : List Byte) : exec (.tetherWriteFrame t bs) s = .next (after s ((begin s).writeFrame t bs)) :=
  pcmd_next (decide_eq_true ht) hu _

theorem exec_tetherPostFrame (bs : List Byte) : exec (.tetherPostFrame t bs) s = .next (after s ((begin s).postFrame t bs)) :=
  pcmd_next (decide_eq_true ht) hu _

theorem exec_tetherLinkBlock (bs : List Byte) : exec (.tetherLinkBlock t bs) s = .next (after s ((begin s).linkBlock t bs)) :=
  pcmd_next (decide_eq_true ht) hu _

theorem exec_tetherLinkSend : exec (.tetherLinkSend t) s = .next (after s ((begin s).linkSend t)) := pcmd_next (decide_eq_true ht) hu _

theorem exec_tetherMarker {phys width : Nat} (hp : phys < 16) (hw : width < 4) (lane : Nat) (ok : Bool) :
    exec (.tetherMarker t lane phys width ok) s = .next (after s ((begin s).marker t lane phys width ok)) := by
  have hok : (decide (t < 3) && decide (phys < 16) && decide (width < 4)) = true := by
    rw [decide_eq_true ht, decide_eq_true hp, decide_eq_true hw]
    rfl
  exact pcmd_next hok hu _

theorem exec_tetherMarkerSend : exec (.tetherMarkerSend t) s = .next (after s ((begin s).markerSend t)) := pcmd_next (decide_eq_true ht) hu _

theorem exec_tetherReqPiWrite (v : Word) :
    exec (.tetherReqPiWrite t v) s = .next (after s
      ((State.takeEntries 65536 ((begin s).wr (Reg.fhmTlPi t) (v.toNat % 65536)) t).pump pumpFuel t)) :=
  pcmd_next (decide_eq_true ht) hu _

theorem exec_tetherEntryComplete : exec (.tetherEntryComplete t) s = .next (after s ((begin s).entryOut t)) := pcmd_next (decide_eq_true ht) hu _

end

/-! ### WRITE frames (R347, R348, R352) -/

section
variable {s : State} {t : Nat} {bs : List Byte}

theorem writeFrame_down (h : (s.tlink t).up = false) : s.writeFrame t bs = s := if_pos (by rw [h]; rfl)

/-- A whole WRITE frame of 1 to 256 bytes of data, in as many payload blocks as they need. -/
def writeFit (bs : List Byte) : Prop :=
  frameWhole 1 bs = true ∧ 1 ≤ leAt bs 14 2 ∧ leAt bs 14 2 ≤ 256 ∧ leAt bs 4 1 = (leAt bs 14 2 + 7) / 8

theorem writeFit_iff :
    (!frameWhole 1 bs || leAt bs 14 2 == 0 || decide (256 < leAt bs 14 2) || decide (leAt bs 4 1 ≠ (leAt bs 14 2 + 7) / 8)) = true ↔
      ¬writeFit bs := by
  rw [writeFit, Bool.or_eq_true_iff, Bool.or_eq_true_iff, Bool.or_eq_true_iff, Bool.not_eq_true', beq_iff_eq, decide_eq_true_iff, decide_eq_true_iff,
    ← Bool.not_eq_true, Classical.not_and_iff_not_or_not, Classical.not_and_iff_not_or_not, Classical.not_and_iff_not_or_not,
    or_assoc, or_assoc, Nat.not_le, Nat.lt_one_iff, Nat.not_le]

/-- What a link has received once a WRITE frame of `n` bytes is done. -/
def TetherState.writeDone (x : TetherState) (n : Nat) : TetherState :=
  { x with rxNext := (x.rxNext + 1) % 4096, wFreed := (x.wFreed + (n + 63) / 64) % 65536 }

section
variable (hup : (s.tlink t).up = true)
include hup

theorem writeFrame_up :
    s.writeFrame t bs =
      if !isFrame 1 bs then s.blockError t
      else if !frameWhole 1 bs || leAt bs 14 2 == 0 || decide (256 < leAt bs 14 2) || decide (leAt bs 4 1 ≠ (leAt bs 14 2 + 7) / 8) then
        s.tetherNak t
      else if leAt bs 2 2 ≠ (s.tlink t).rxNext then s.tetherNak t
      else
        let c := s.tcount t 2 1
        let y := (s.tlink t).writeDone (leAt bs 14 2)
        if c.inTwin t (leAt bs 8 6) (leAt bs 14 2) then
          (c.busWrite c.tetherInit (leAt bs 8 6) ((bs.drop 16).take (leAt bs 14 2))).2.setTlink t y
        else ((c.count (Reg.fhmTlRefused t) 1).tcount t 4 1).setTlink t { y with refused := some (leAt bs 2 2) } :=
  if_neg (by rw [hup]; exact Bool.false_ne_true)

theorem writeFrame_void (h : isFrame 1 bs = false) : s.writeFrame t bs = s.blockError t :=
  (writeFrame_up hup).trans (if_pos ((Bool.not_eq_true' _).mpr h))

section
variable (hf : isFrame 1 bs = true)
include hf

theorem writeFrame_discards (h : ¬writeFit bs ∨ leAt bs 2 2 ≠ (s.tlink t).rxNext) : s.writeFrame t bs = s.tetherNak t := by
  rw [writeFrame_up hup, hf]
  refine (if_neg Bool.false_ne_true).trans ?_
  by_cases hfit : writeFit bs
  · exact (if_neg fun hb => writeFit_iff.mp hb hfit).trans (if_pos (h.resolve_left (not_not_intro hfit)))
  · exact if_pos (writeFit_iff.mpr hfit)

theorem writeFrame_takes (hfit : writeFit bs) (hseq : leAt bs 2 2 = (s.tlink t).rxNext) {c : State} (hc : s.tcount t 2 1 = c) :
    s.writeFrame t bs =
      if c.inTwin t (leAt bs 8 6) (leAt bs 14 2) then
        (c.busWrite c.tetherInit (leAt bs 8 6) ((bs.drop 16).take (leAt bs 14 2))).2.setTlink t ((s.tlink t).writeDone (leAt bs 14 2))
      else ((c.count (Reg.fhmTlRefused t) 1).tcount t 4 1).setTlink t
        { (s.tlink t).writeDone (leAt bs 14 2) with refused := some (leAt bs 2 2) } := by
  subst hc
  rw [writeFrame_up hup, hf]
  exact (if_neg Bool.false_ne_true).trans ((if_neg fun hb => writeFit_iff.mp hb hfit).trans (if_neg (not_not_intro hseq)))

end
end
end

/-! ### POST frames (R347, R348) -/

section
variable {s : State} {t : Nat} {bs : List Byte}

theorem postFrame_down (h : (s.tlink t).up = false) : s.postFrame t bs = s := if_pos (by rw [h]; rfl)

/-- A whole POST frame, which has no payload blocks. -/
def postFit (bs : List Byte) : Prop := frameWhole 2 bs = true ∧ leAt bs 4 1 = 0

theorem postFit_iff : (!frameWhole 2 bs || decide (leAt bs 4 1 ≠ 0)) = true ↔ ¬postFit bs := by
  rw [postFit, Bool.or_eq_true_iff, Bool.not_eq_true', decide_eq_true_iff, ← Bool.not_eq_true, Classical.not_and_iff_not_or_not]

section
variable (hup : (s.tlink t).up = true)
include hup

theorem postFrame_up :
    s.postFrame t bs =
      if !isFrame 2 bs then s.blockError t
      else if !frameWhole 2 bs || decide (leAt bs 4 1 ≠ 0) then s.tetherNak t
      else if leAt bs 2 2 ≠ (s.tlink t).rxNext then s.tetherNak t
      else
        let r := (s.tcount t 2 1).setTlink t
          { s.tlink t with rxNext := ((s.tlink t).rxNext + 1) % 4096, eFreed := ((s.tlink t).eFreed + 1) % 256 }
        if leAt bs 8 2 < 16384 then r.post (leAt bs 8 2) (leAt bs 10 4) else r :=
  if_neg (by rw [hup]; exact Bool.false_ne_true)

theorem postFrame_void (h : isFrame 2 bs = false) : s.postFrame t bs = s.blockError t :=
  (postFrame_up hup).trans (if_pos ((Bool.not_eq_true' _).mpr h))

section
variable (hf : isFrame 2 bs = true)
include hf

theorem postFrame_discards (h : ¬postFit bs ∨ leAt bs 2 2 ≠ (s.tlink t).rxNext) : s.postFrame t bs = s.tetherNak t := by
  rw [postFrame_up hup, hf]
  refine (if_neg Bool.false_ne_true).trans ?_
  by_cases hfit : postFit bs
  · exact (if_neg fun hb => postFit_iff.mp hb hfit).trans (if_pos (h.resolve_left (not_not_intro hfit)))
  · exact if_pos (postFit_iff.mpr hfit)

theorem postFrame_takes (hfit : postFit bs) (hseq : leAt bs 2 2 = (s.tlink t).rxNext) {r : State}
    (hr : (s.tcount t 2 1).setTlink t
      { s.tlink t with rxNext := ((s.tlink t).rxNext + 1) % 4096, eFreed := ((s.tlink t).eFreed + 1) % 256 } = r) :
    s.postFrame t bs = if leAt bs 8 2 < 16384 then r.post (leAt bs 8 2) (leAt bs 10 4) else r := by
  subst hr
  rw [postFrame_up hup, hf]
  exact (if_neg Bool.false_ne_true).trans ((if_neg fun hb => postFit_iff.mp hb hfit).trans (if_neg (not_not_intro hseq)))

end
end
end

/-! ### LINK blocks (R349, R350, R353) -/

section
variable {s : State} {t : Nat} {bs : List Byte}

theorem linkBlock_void (h : bs.length ≠ 8 ∨ leAt bs 0 1 ≠ 0x2D) : s.linkBlock t bs = s.blockError t := if_pos h

section
variable (hn : bs.length = 8) (hb : leAt bs 0 1 = 0x2D)
include hn hb

/-- What a LINK block begins with. -/
theorem link_starts : ¬(bs.length ≠ 8 ∨ leAt bs 0 1 ≠ 0x2D) := not_or.mpr ⟨not_not_intro hn, not_not_intro hb⟩

theorem linkBlock_noLanes (h : s.tetherLanes t = []) : s.linkBlock t bs = s := by
  unfold State.linkBlock
  dsimp only
  rw [if_neg (link_starts hn hb), h]
  rfl

section
variable {g l : Nat} {rest : List (Nat × Nat)} (h : s.tetherLanes t = (g, l) :: rest)
include h

theorem linkBlock_early (h9 : s.linkIn9 g l = false) : s.linkBlock t bs = s := by
  unfold State.linkBlock
  dsimp only
  rw [if_neg (link_starts hn hb), h]
  exact if_pos ((Bool.not_eq_true' _).mpr h9)

/-- A link with the credits of a LINK block. -/
def TetherState.withCredits (x : TetherState) (bs : List Byte) : TetherState := { x with wGiven := leAt bs 3 2, eGiven := leAt bs 5 1 }

section
variable (h9 : s.linkIn9 g l = true)
include h9

theorem linkBlock_in9 :
    s.linkBlock t bs =
      if tb (leAt bs 1 2) 13 then (s.setTlink t { (s.tlink t).withCredits bs with initRx := true }).handshake t
      else if !(s.tlink t).up then s
      else
        let z := if tb (leAt bs 1 2) 14 then refuseFrame ((s.tlink t).withCredits bs) (leAt bs 6 2 % 4096) else (s.tlink t).withCredits bs
        let u := s.setTlink t (acked z (leAt bs 1 2 % 4096))
        (if tb (leAt bs 1 2) 12 then u.resend t else u).pump pumpFuel t := by
  unfold State.linkBlock
  dsimp only
  rw [if_neg (link_starts hn hb), h]
  exact if_neg (ne_true_of_eq_false ((Bool.not_eq_false' _).mpr h9))

theorem linkBlock_init (hi : tb (leAt bs 1 2) 13 = true) :
    s.linkBlock t bs = (s.setTlink t { (s.tlink t).withCredits bs with initRx := true }).handshake t :=
  (linkBlock_in9 hn hb h h9).trans (if_pos hi)

variable (hi : tb (leAt bs 1 2) 13 = false)
include hi

theorem linkBlock_down (hup : (s.tlink t).up = false) : s.linkBlock t bs = s :=
  (linkBlock_in9 hn hb h h9).trans ((if_neg (ne_true_of_eq_false hi)).trans (if_pos ((Bool.not_eq_true' _).mpr hup)))

theorem linkBlock_up (hup : (s.tlink t).up = true) {z : TetherState}
    (hz : (if tb (leAt bs 1 2) 14 then refuseFrame ((s.tlink t).withCredits bs) (leAt bs 6 2 % 4096) else (s.tlink t).withCredits bs) = z) :
    s.linkBlock t bs =
      if tb (leAt bs 1 2) 12 then ((s.setTlink t (acked z (leAt bs 1 2 % 4096))).resend t).pump pumpFuel t
      else (s.setTlink t (acked z (leAt bs 1 2 % 4096))).pump pumpFuel t := by
  subst hz
  rw [linkBlock_in9 hn hb h h9, hi, hup]
  refine ((if_neg Bool.false_ne_true).trans (if_neg Bool.false_ne_true)).trans ?_
  exact apply_ite (fun u => State.pump pumpFuel u t) _ _ _

end
end
end

theorem linkSend_stays (h : s.tetherSends t = false) : s.linkSend t = s := if_pos (by rw [h]; rfl)

theorem linkSend_sends (h : s.tetherSends t = true) {blk : List Byte} {w : Nat}
    (hw : (if (s.tlink t).up then ((s.tlink t).rxNext + 4095) % 4096 else 0xFFF) + bn ((s.tlink t).nak && (s.tlink t).up) * 4096 +
      bn (!(s.tlink t).up) * 8192 + bn (s.tlink t).refused.isSome * 16384 = w)
    (hb : [0x2D] ++ leBytes 2 w ++ leBytes 2 (((s.tlink t).wFreed + 4096) % 65536) ++ leBytes 1 (((s.tlink t).eFreed + 64) % 256) ++
      leBytes 2 ((s.tlink t).refused.getD 0) = blk) :
    s.linkSend t = ((s.setTlink t { s.tlink t with nak := false, refused := none, initTx := true }).sendBlocks t blk).handshake t := by
  subst hw hb
  exact if_neg (by rw [h]; exact Bool.false_ne_true)

end

/-! ### Markers (R326, R351) -/

section
variable {s u : State} {t lane phys width : Nat} {ok : Bool}

theorem marker_noLane (h : (s.tetherLanes t)[phys]? = none) : s.marker t lane phys width ok = s := by
  unfold State.marker
  rw [h]

section
variable {g l : Nat} (h : (s.tetherLanes t)[phys]? = some (g, l))
include h

theorem marker_early (h6 : (s.lane g l).own < 6) : s.marker t lane phys width ok = s := by
  unfold State.marker
  rw [h]
  exact if_pos h6

variable (h6 : 6 ≤ (s.lane g l).own) (hu : (if ok then s else s.laneErr g l 1) = u)
include h6 hu

theorem marker_locked :
    s.marker t lane phys width ok =
      if (u.lane g l).own ≠ 7 then u
      else if 4 * 2 ^ width = (s.tetherLanes t).length ∧ lane < (s.tetherLanes t).length then
        (u.wrF (Reg.laneStat g l) 27 24 lane).setLane g l { u.lane g l with marked := some lane }
      else u.setLane g l { u.lane g l with marked := none } := by
  subst hu
  unfold State.marker
  rw [h]
  exact if_neg (Nat.not_lt.mpr h6)

theorem marker_otherStage (h7 : (u.lane g l).own ≠ 7) : s.marker t lane phys width ok = u := (marker_locked h h6 hu).trans (if_pos h7)

theorem marker_seven (h7 : (u.lane g l).own = 7) :
    s.marker t lane phys width ok =
      if 4 * 2 ^ width = (s.tetherLanes t).length ∧ lane < (s.tetherLanes t).length then
        (u.wrF (Reg.laneStat g l) 27 24 lane).setLane g l { u.lane g l with marked := some lane }
      else u.setLane g l { u.lane g l with marked := none } :=
  (marker_locked h h6 hu).trans (if_neg (not_not_intro h7))

end

theorem markerSend_noLanes (h : (s.tetherLanes t).length = 0) : s.markerSend t = s := if_pos h

/-- The code of a link's width in its markers: 4, 8 or 16 lanes. -/
def markerCode (n : Nat) : Nat := match n with | 4 => 0 | 8 => 1 | _ => 2

/-- A row of markers follows the IDLE blocks that are due and those that fill the row before. -/
theorem markerSend_row {n : Nat} (hn : (s.tetherLanes t).length = n) (h : n ≠ 0) {i q : LineSt × List (Nat × Nat × BitVec 64)}
    (hi : idleBlocks t n (s.free (2 ^ 18)).1 (s.tlink t).line = i) (hq : idleBlocks t n ((n - i.1.blk) % n) i.1 = q)
    {row : LineSt × List Byte × List (Nat × Nat × BitVec 64)}
    (hr : markerRow t n (markerCode n) (s.rdF (Reg.fhmTlTlId t) 15 0) n 0 q.1 = row) :
    s.markerSend t =
      ((s.free (2 ^ 18)).2.setTlink t { s.tlink t with line := row.1 }).emit (.tether t row.2.1 (i.2 ++ q.2 ++ row.2.2)) := by
  subst hn hi hq hr
  exact if_neg h

end

/-! ### The request ring (R354) -/

section
variable {s u : State} {t f : Nat}

theorem takeEntries_done (h : (s.tlink t).taken = s.rdF (Reg.fhmTlPi t) 15 0) : State.takeEntries f s t = s := by
  cases f with
  | zero => rfl
  | succ f => exact if_pos h

theorem takeEntries_next {e : TEntry} (h : (s.tlink t).taken ≠ s.rdF (Reg.fhmTlPi t) 15 0) (hr : s.readEntry t (s.tlink t).taken = (e, u)) :
    State.takeEntries (f + 1) s t =
      State.takeEntries f (u.setTlink t { s.tlink t with entries := (s.tlink t).entries ++ [e], taken := ((s.tlink t).taken + 1) % 65536 }) t := by
  rw [State.takeEntries]
  dsimp only
  rw [if_neg h, hr]

end

section
variable {s : State} {t : Nat}

theorem entryOut_none (h : (s.tlink t).entries = []) : s.entryOut t = s := by
  unfold State.entryOut
  dsimp only
  rw [h]

section
variable {e : TEntry} {rest : List TEntry} (h : (s.tlink t).entries = e :: rest)
include h

theorem entryOut_waits (hd : entryDone (s.tlink t) e = none) : s.entryOut t = s := by
  unfold State.entryOut
  dsimp only
  rw [h]
  dsimp only
  rw [hd]

/-- An entry that is done leaves the ring: STATUS and DONE are written and CI passes it. -/
def State.entryLeaves (s : State) (t : Nat) (e : TEntry) (rest : List TEntry) (st : Nat) : State :=
  ((s.busWrite s.tetherInit (s.tentryAt t e.idx + 35) (leBytes 1 st ++ leBytes 4 e.done)).2.setTlink t
    { s.tlink t with entries := rest }).wr (Reg.fhmTlCi t) ((e.idx + 1) % 65536)

theorem entryOut_completes {st : Nat} (hd : entryDone (s.tlink t) e = some st) :
    s.entryOut t =
      if e.lgrp < 16384 then (s.entryLeaves t e rest st).post e.lgrp (2 ^ (e.lflag % 32)) else s.entryLeaves t e rest st := by
  unfold State.entryOut
  dsimp only
  rw [h]
  dsimp only
  rw [hd]
  rfl

end
end

/-- Settles O53: each command is one operation on the link, and each clause is one case of it. -/
theorem tetherLinks : Obligations.TetherLinks := by
  intro t bs s ht hu b x n c
  refine ⟨?_, ?_, ?_, ?_, fun lane phys width ok hphys hwidth => ?_, ?_, exec_tetherReqPiWrite hu ht,
    fun w f => ⟨rfl, takeEntries_done, fun e u => takeEntries_next⟩, ?_⟩
  · intro gives fit y
    have writes : ∀ r, b.writeFrame t bs = r → gives r := by
      rintro _ rfl
      exact exec_tetherWriteFrame hu ht bs
    exact ⟨fun h => writes _ (writeFrame_down h), fun hup h => writes _ (writeFrame_void hup h), fun hup hf =>
      ⟨fun h => writes _ (writeFrame_discards hup hf h), fun hfit hseq => gives_of_flag writes (writeFrame_takes hup hf hfit hseq rfl)⟩⟩
  · intro gives fit r
    have posts : ∀ r, b.postFrame t bs = r → gives r := by
      rintro _ rfl
      exact exec_tetherPostFrame hu ht bs
    exact ⟨fun h => posts _ (postFrame_down h), fun hup h => posts _ (postFrame_void hup h), fun hup hf =>
      ⟨fun h => posts _ (postFrame_discards hup hf h), fun hfit hseq =>
        (gives_of_ite posts (postFrame_takes hup hf hfit hseq rfl)).imp_right fun h hle => h (Nat.not_lt.mpr hle)⟩⟩
  · intro gives w y
    have takes : ∀ r, b.linkBlock t bs = r → gives r := by
      rintro _ rfl
      exact exec_tetherLinkBlock hu ht bs
    refine ⟨fun h => takes _ (linkBlock_void h), fun hn hb h => takes _ (linkBlock_noLanes hn hb h), fun g l rest hn hb h =>
      ⟨fun h9 => takes _ (linkBlock_early hn hb h h9), fun h9 => ⟨fun hi => takes _ (linkBlock_init hn hb h h9 hi),
        fun hi hup => takes _ (linkBlock_down hn hb h h9 hi hup), fun hi hup z hz hy => ?_⟩⟩⟩
    have hrefuse : (if tb w 14 then refuseFrame y (leAt bs 6 2 % 4096) else y) = z := ite_eq_of_cases hz fun h => hy (Bool.eq_false_iff.mpr h)
    exact (gives_of_flag takes (linkBlock_up hn hb h h9 hi hup hrefuse)).symm
  · intro gives w blk
    have sends : ∀ r, b.linkSend t = r → gives r := by
      rintro _ rfl
      exact exec_tetherLinkSend hu ht
    exact ⟨fun h => sends _ (linkSend_stays h), fun h => sends _ (linkSend_sends h rfl rfl)⟩
  · intro gives
    have marks : ∀ r, b.marker t lane phys width ok = r → gives r := by
      rintro _ rfl
      exact exec_tetherMarker hu ht hphys hwidth lane ok
    refine ⟨fun h => marks _ (marker_noLane h), fun g l h => ?_⟩
    intro m
    refine ⟨fun h6 => marks _ (marker_early h h6), fun h6 u hgood hbad => ?_⟩
    have hbip : (if ok then b else b.laneErr g l 1) = u := ite_eq_of_cases hgood fun h => hbad (Bool.eq_false_iff.mpr h)
    have seven := fun h7 => gives_of_ite marks (marker_seven h h6 hbip h7)
    exact ⟨fun h7 => marks _ (marker_otherStage h h6 hbip h7), fun h7 => (seven h7).1, fun h7 => (seven h7).2⟩
  · intro gives m
    have sends : ∀ r, b.markerSend t = r → gives r := by
      rintro _ rfl
      exact exec_tetherMarkerSend hu ht
    exact ⟨fun h => sends _ (markerSend_noLanes h), fun h => sends _ (markerSend_row rfl h rfl rfl rfl)⟩
  · intro gives
    have completes : ∀ r, b.entryOut t = r → gives r := by
      rintro _ rfl
      exact exec_tetherEntryComplete hu ht
    exact ⟨fun h => completes _ (entryOut_none h), fun e rest h => ⟨fun hd => completes _ (entryOut_waits h hd), fun st hd =>
      (gives_of_ite completes (entryOut_completes h hd)).imp_right fun h hle => h (Nat.not_lt.mpr hle)⟩⟩

end Sys2Proof.Machine
end

section
/-! TIME.SET and TIME.OFFSET, case by case (R387, R388). -/

namespace Sys2Proof.Machine

section
variable {i : Instr} {s : State} {m k kind : Nat} {bs : List Byte} {ok : List Byte → Bool} {f : List Byte → State → State}
  (h : Asked s m k 0x0901 bs) (hk : leAt bs 16 1 = kind) (he : exec i s = pcmd (decide (m < 64)) s fun s => s.timeSet m kind ok f)
include h hk he

theorem timeSet_answers {a : Ans} {t : State} (hd : (if ok bs then (said stOk, f bs (begin s)) else (said stBadParam, begin s)) = (a, t)) :
    Answers i s m k a t := by
  have ⟨_, hm, _⟩ := h
  exact message_does (form := fun bs => leAt bs 16 1 == kind) h (decide_eq_true hm) (beq_iff_eq.mpr hk) he hd

theorem timeSet_takes {t : State} (hok : ok bs = true) (ht : f bs (begin s) = t) : Answers i s m k (said stOk) t :=
  timeSet_answers h hk he (ht ▸ if_pos hok)

theorem timeSet_refuses (hok : ok bs = false) : Answers i s m k (said stBadParam) (begin s) :=
  timeSet_answers h hk he (if_neg (ne_true_of_eq_false hok))

end

/-- Settles O33: each kind is one row of `timeSet`, with its own test of the fields and its own effect. -/
theorem timeMessages : Obligations.TimeMessages := by
  intro m k bs s b fl ix h
  exact ⟨fun hk => ⟨fun hn => timeSet_takes h hk rfl (decide_eq_true hn) rfl,
      fun hn => timeSet_refuses h hk rfl (decide_eq_false (Nat.not_lt.mpr hn))⟩,
    fun hk => timeSet_takes h hk rfl rfl rfl,
    fun hk => ⟨fun hr => timeSet_takes h hk rfl hr rfl, timeSet_refuses h hk rfl⟩,
    fun hk => ⟨fun hr => timeSet_takes h hk rfl hr rfl, timeSet_refuses h hk rfl⟩,
    fun hk => ⟨fun hr => timeSet_takes h hk rfl hr rfl, timeSet_refuses h hk rfl⟩⟩

/-! ### The offset of the host (R388) -/

/-- The source is the host where the hardware's is OFFSET and `TIME.SET` chose SRC 2 (R387). -/
theorem timeSrc_eq_host_iff {s : State} : s.timeSrc = 2 ↔ s.rdF Reg.mrdServo 3 0 = 1 ∧ s.mrd.hostSrc = true := by
  unfold State.timeSrc
  split
  · next h1 => cases hs : s.mrd.hostSrc <;> simp [h1]
  · next h1 =>
    constructor
    · intro h2
      split at h2 <;> omega
    · rintro ⟨h, _⟩
      exact absurd h h1

section
variable {s t : State} {m k : Nat} {bs : List Byte}

theorem timeOffset_samples (h : s.timeSrc = 2) : State.timeOffset bs s =
    (said stOk, ((if tb (leAt bs 24 1) 0 then s.servoWrite (s.rd Reg.mrdServo ||| 2 ^ 30) else s).wr Reg.mrdOffsetLo
      (leAt bs 16 4)).offsetWrite (.ctl 0) (leAt bs 20 4)) :=
  if_neg (not_not_intro h)

theorem timeOffset_refuses (h : s.timeSrc ≠ 2) : State.timeOffset bs s = (said stBadState, s) := if_pos h

theorem timeOffset_answers (h : Asked s m k 0x0902 bs) {a : Ans} (hd : State.timeOffset bs (begin s) = (a, t)) :
    Answers (.timeOffset m) s m k a t := by
  have ⟨_, hm, _⟩ := h
  exact message_does (form := fun _ => true) h (decide_eq_true hm) rfl rfl hd

end

/-- Settles O34: the message gives a sample where `timeSrc` is the host, and is refused elsewhere. -/
theorem timeOffsetAnswers : Obligations.TimeOffsetAnswers := by
  intro m k bs s b h
  exact ⟨fun h1 hs => timeOffset_answers h (timeOffset_samples (timeSrc_eq_host_iff.mpr ⟨h1, hs⟩)),
    fun hn => timeOffset_answers h (timeOffset_refuses (mt timeSrc_eq_host_iff.mp hn))⟩

end Sys2Proof.Machine
end

section
/-! Meridian, case by case: samples, time reads, captures, pulse outputs, timing frames, timelines and their rules (R363, R365, R368, R369, R372 to R376,
R380 to R384). -/

namespace Sys2Proof.Machine

/-! ### The commands of a powered payload -/

section
variable {s : State} (hu : s.pwr.up = true)
include hu

theorem exec_servoSample {i : Nat} (hi : i < 4) (v : Word) :
    exec (.servoSample i v) s = .next (after s ((begin s).offsetWrite (.ctl i) v.toNat)) :=
  pcmd_next (decide_eq_true hi) hu _

theorem exec_sampleTimeout : exec .sampleTimeout s = .next (after s
    (if (begin s).rdF Reg.mrdHold 15 0 ≠ 0 ∧ ((begin s).mrdState = 1 ∨ (begin s).mrdState = 2) then (begin s).toTime 3 3 else begin s)) :=
  pcmd_next rfl hu _

theorem exec_mrdTimeRead {i : Init} (hi : i.wf = true) :
    exec (.mrdTimeRead i) s = .next (after s (((begin s).timeRead i).2.emit (.value ((begin s).timeRead i).1))) :=
  pcmd_next hi hu _

theorem exec_tsInEdge {n : Nat} (hn : n < 8) (rising : Bool) : exec (.tsInEdge n rising) s = .next (after s ((begin s).capture n rising)) :=
  pcmd_next (decide_eq_true hn) hu _

theorem exec_capPop {n : Nat} (hn : n < 8) : exec (.capPop n) s = .next (after s ((begin s).setStamps n (((begin s).stamps n).drop 1))) :=
  pcmd_next (decide_eq_true hn) hu _

theorem exec_tsOutEdge {m : Nat} (hm : m < 4) : exec (.tsOutEdge m) s = .next (after s ((begin s).pulseEdge m)) :=
  pcmd_next (decide_eq_true hm) hu _

theorem exec_timingFrame : exec .timingFrame s = .next (after s (begin s).timingFrame) := pcmd_next rfl hu _

section
variable {c : Nat} (hc : c < 384)
include hc

theorem exec_timelineArm (v : Word) : exec (.timelineArm c v) s = .next (after s ((begin s).tlCtrlWrite c v.toNat)) :=
  pcmd_next (decide_eq_true hc) hu _

theorem exec_timelineDisarm (v : Word) : exec (.timelineDisarm c v) s = .next (after s ((begin s).tlCtrlWrite c v.toNat)) :=
  pcmd_next (decide_eq_true hc) hu _

/-- The commands of a boundary are told apart by the KIND of the rules that it reaches. -/
theorem exec_boundary {i : Instr} {r kind k : Nat} (hr : r < 8)
    (he : exec i s = pcmd (decide (c < 384) && decide (r < 8)) s fun s => s.fireRule c r kind k) {t : State}
    (ht : (begin s).fireRule c r kind k = t) : exec i s = .next (after s t) := by
  rw [he, pcmd_next (Bool.and_eq_true_iff.mpr ⟨decide_eq_true hc, decide_eq_true hr⟩) hu, ht]

end
end

/-! ### Samples (R368, R369, R372) -/

section
variable {s c d e u : State} {θ : Int}

theorem sample_off (h : s.servoOn = false) (θ : Int) : s.sample θ = s := if_pos (by rw [h]; rfl)

/-- A sample that the servo takes is counted and kept, then steps the counter or steers it. -/
theorem sample_on (h : s.servoOn = true) (hc : (s.count Reg.mrdSamples 1).tally 8 0 0 1 = c)
    (hd : { c with mrd := { c.mrd with theta := θ } } = d) (he : d.extreme 8 0 2 max s.thetaNs.natAbs d.thetaNs.natAbs = e) :
    s.sample θ = if e.rd Reg.mrdStepNs * 65536 < θ.natAbs then ((e.stepBy (-θ)).setGood 0).toTime 1 2 else (e.steer θ).sampleState θ := by
  subst hc hd he
  exact if_neg (by rw [h]; exact Bool.false_ne_true)

section
variable {i : Init} {v : Nat} (hw : (s.takeLo i Reg.mrdOffsetLo).wr Reg.mrdOffsetHi v = u)
include hw

theorem offsetWrite_ignored (h : u.rdF Reg.mrdServo 3 0 ≠ 1 ∨ u.servoOn = false) : s.offsetWrite i v = u := by
  subst hw
  rcases h with h | h
  · exact if_neg h
  · exact (ite_congr rfl (fun _ => sample_off h _) fun _ => rfl).trans (ite_self _)

theorem offsetWrite_samples (h : u.rdF Reg.mrdServo 3 0 = 1) :
    s.offsetWrite i v = u.sample (sx 64 (u.rdPair Reg.mrdOffsetLo Reg.mrdOffsetHi)) := by
  subst hw
  exact if_pos h

end

theorem sampleState_acquiring (h : s.mrdState = 1) :
    s.sampleState θ = if s.rdF Reg.mrdLock 23 16 ≤ s.rdF Reg.mrdState 15 8 then s.toTime 2 0 else s := by
  simp only [State.sampleState, h]

theorem sampleState_locked (h : s.mrdState = 2) :
    s.sampleState θ = if s.rd Reg.mrdUnlockNs * 65536 < θ.natAbs then s.toTime 1 1
      else ({ s with mrd := { s.mrd with window := (s.clockNs, sx 32 (s.rd Reg.mrdFreq)) :: s.mrd.window } } : State).favg.2 := by
  simp only [State.sampleState, h]

theorem sampleState_returns (h : s.mrdState = 3 ∨ s.mrdState = 4) : s.sampleState θ = s.toTime 1 7 := by
  rcases h with h | h <;> simp only [State.sampleState, h]

theorem sampleState_stays (h : s.mrdState = 0 ∨ 5 ≤ s.mrdState) : s.sampleState θ = s := by
  unfold State.sampleState
  split
  case h_5 => rfl
  all_goals omega

end

/-! ### Captures (R373, R374) -/

section
variable {s u : State} {n : Nat} {rising : Bool}

theorem stampSample_other (h : ¬(s.rdF Reg.mrdServo 3 0 = 8 + n ∧
    (mget (fun _ => 0) s.mrd.lastCap n = 0 ∨ mget (fun _ => 0) s.mrd.lastCap n + 500000000 ≤ s.clockNs + 1))) : s.stampSample n = s :=
  if_pos (by omega)

theorem stampSample_samples {x : State} (h : s.rdF Reg.mrdServo 3 0 = 8 + n)
    (hl : mget (fun _ => 0) s.mrd.lastCap n = 0 ∨ mget (fun _ => 0) s.mrd.lastCap n + 500000000 ≤ s.clockNs + 1)
    (hx : { s with mrd := { s.mrd with lastCap := mput (fun _ => 0) s.mrd.lastCap n (s.clockNs + 1) } } = x) :
    s.stampSample n = x.sample (foldSecond x.taiN (sx 32 (x.rd (Reg.mrdCapOfs n))) * 65536) := by
  subst hx
  exact if_neg (by omega)

theorem capture_disabled (h : s.rdB (Reg.mrdCapCtrl n) (if rising then 30 else 31) = false) : s.capture n rising = s := if_pos (by rw [h]; rfl)

section
variable (h : s.rdB (Reg.mrdCapCtrl n) (if rising then 30 else 31) = true)
  (hu : { s with mrd := { s.mrd with lastEdge := mput (fun _ => 0) s.mrd.lastEdge n (s.clockNs + 1) } } = u)
include h hu

theorem capture_close (h0 : mget (fun _ => 0) s.mrd.lastEdge n ≠ 0) (hl : s.clockNs + 1 < mget (fun _ => 0) s.mrd.lastEdge n + 100) :
    s.capture n rising = u.capCount n 31 16 := by
  subst hu
  exact (if_neg (by rw [h]; exact Bool.false_ne_true)).trans (if_pos (decide_eq_true ⟨h0, hl⟩))

section
variable (hl : mget (fun _ => 0) s.mrd.lastEdge n = 0 ∨ mget (fun _ => 0) s.mrd.lastEdge n + 100 ≤ s.clockNs + 1)
include hl

/-- An edge that counts enters the FIFO or is lost, posts its event where it was stamped, and may be a sample. -/
theorem capture_apart :
    s.capture n rising =
      let w := if (u.stamps n).length < 16 then u.setStamps n (u.stamps n ++ [u.mrd.time / 65536]) else u.capCount n 15 0
      (if (u.stamps n).length < 16 ∧ w.rdB (Reg.mrdCapCtrl n) 29 then
        w.post (w.rdF (Reg.mrdCapCtrl n) 21 8) (2 ^ w.rdF (Reg.mrdCapCtrl n) 28 24) else w).stampSample n := by
  subst hu
  refine (if_neg (by rw [h]; exact Bool.false_ne_true)).trans (if_neg ?_)
  rw [decide_eq_true_eq]
  omega

theorem capture_full (hn : 16 ≤ (u.stamps n).length) : s.capture n rising = (u.capCount n 15 0).stampSample n := by
  have hf : ¬(u.stamps n).length < 16 := Nat.not_lt.mpr hn
  rw [capture_apart h hu hl]
  simp only [hf, false_and, if_false]

theorem capture_stamps {w : State} (hn : (u.stamps n).length < 16) (hw : u.setStamps n (u.stamps n ++ [u.mrd.time / 65536]) = w) :
    s.capture n rising = if w.rdB (Reg.mrdCapCtrl n) 29 then
      (w.post (w.rdF (Reg.mrdCapCtrl n) 21 8) (2 ^ w.rdF (Reg.mrdCapCtrl n) 28 24)).stampSample n else w.stampSample n := by
  rw [capture_apart h hu hl]
  simp only [hn, hw, true_and, if_true]
  exact apply_ite (fun x => State.stampSample x n) _ _ _

end
end
end

/-! ### Pulse outputs (R375, R376) -/

section
variable {s u : State} {m : Nat} {p q : PulseOut} (hp : s.pulse m = p)
include hp

theorem pulseEdge_falls {e : Nat} {level : Bool} (h : p.fall = some (e, level)) :
    s.pulseEdge m = ((s.until (e * 65536)).setPulse m { p with fall := none }).emit (.tsOut m level e) := by
  subst hp
  unfold State.pulseEdge
  simp only [h]

section
variable (h : p.fall = none)
include h

theorem pulseEdge_idle (h0 : p.mode = 0 ∨ p.mode = 2 ∧ p.next ≠ 0) : s.pulseEdge m = s := by
  subst hp
  unfold State.pulseEdge
  simp only [h]
  exact if_pos h0

section
variable (h0 : p.mode ≠ 0) (h2 : p.mode ≠ 2 ∨ p.next = 0) (hu : s.until (p.edge p.next) = u) (hq : { p with next := p.next + 1 } = q)
include h0 h2 hu hq

/-- The next pulse is due: QUAL holds it back, or it starts, at a free time where the settings have none. -/
theorem pulseEdge_due :
    s.pulseEdge m =
      if p.qual && !(u.mrdState == 2 || u.mrdState == 3) then u.setPulse m q
      else
        let r := if p.inRange || (p.mode == 2 && decide (8 ≤ p.width)) then (p.edge p.next / 65536, u) else u.free (2 ^ 96)
        (r.2.setPulse m { q with fall := some (r.1 + p.width * 65536, p.pol) }).emit (.tsOut m (!p.pol) r.1) := by
  subst hp hu hq
  unfold State.pulseEdge
  simp only [h]
  exact if_neg (by omega)

theorem pulseEdge_held (hh : p.qual = true ∧ u.mrdState ≠ 2 ∧ u.mrdState ≠ 3) : s.pulseEdge m = u.setPulse m q := by
  rw [pulseEdge_due hp h h0 h2 hu hq]
  exact if_pos (by simpa using hh)

section
variable (hh : ¬(p.qual = true ∧ u.mrdState ≠ 2 ∧ u.mrdState ≠ 3))
include hh

theorem pulseEdge_starts (hf : p.inRange = true ∨ p.mode = 2 ∧ 8 ≤ p.width) :
    s.pulseEdge m = (u.setPulse m { q with fall := some (p.edge p.next / 65536 + p.width * 65536, p.pol) }).emit
      (.tsOut m (!p.pol) (p.edge p.next / 65536)) := by
  rw [pulseEdge_due hp h h0 h2 hu hq, if_neg (by simpa using hh)]
  simp only [show (p.inRange || (p.mode == 2 && decide (8 ≤ p.width))) = true by simpa using hf, if_true]

theorem pulseEdge_startsFree (hf : ¬(p.inRange = true ∨ p.mode = 2 ∧ 8 ≤ p.width)) :
    s.pulseEdge m = ((u.free (2 ^ 96)).2.setPulse m { q with fall := some ((u.free (2 ^ 96)).1 + p.width * 65536, p.pol) }).emit
      (.tsOut m (!p.pol) (u.free (2 ^ 96)).1) := by
  rw [pulseEdge_due hp h h0 h2 hu hq, if_neg (by simpa using hh)]
  simp only [show (p.inRange || (p.mode == 2 && decide (8 ≤ p.width))) = false by simpa using hf, Bool.false_eq_true, if_false]

end
end
end
end

/-! ### Timing frames (R384) -/

section
variable {s : State}

theorem timingFrame_none (h : s.nw.link = false ∨ s.nw.xtal = false ∨ s.mrd.run = false) : s.timingFrame = s :=
  if_pos (by simpa [or_assoc] using h)

/-- The frame's time and the crystal's phase are kept; the period is measured from the frame before, where there is one. -/
theorem timingFrame_records {x y : Nat} (hl : s.nw.link = true) (hx : s.nw.xtal = true) (hr : s.mrd.run = true)
    (ex : s.nw.ticks * xtalUnit + s.nw.sub = x) (ey : s.nw.tstopTick * xtalUnit + s.nw.tstopSub = y) :
    s.timingFrame = { s with nw := { s.nw with
      tstop := s.mrd.time, tstopTick := s.nw.ticks, tstopSub := s.nw.sub,
      period := if y < x ∧ s.nw.tstop < s.mrd.time ∧ s.nw.tstop ≠ 0 then (s.mrd.time - s.nw.tstop) * xtalUnit / (x - y) else s.nw.period } } := by
  subst ex ey
  exact if_neg (by simp [hl, hx, hr])

end

/-! ### Timelines armed and disarmed (R380, R383) -/

section
variable {w x y : State} {c m : Nat} (hx : (if tb m 30 then (w.tlSnapshot c).wrF (Reg.mrdTlCtrl c) 30 30 0 else w.tlSnapshot c) = x)
  (hy : (if w.armed c then x.wrF (Reg.mrdTlCtrl c) 14 8 (fld m 14 8)
    else (x.wrF (Reg.mrdTlCtrl c) 14 8 (fld m 14 8)).wrF (Reg.mrdTlCtrl c) 1 0 (m % 4)) = y)
include hx hy

/-- A write of `TL[c].CTRL` acts on the state in which its fields have been taken. -/
theorem tlCtrlWrite_eq :
    w.tlCtrlWrite c m =
      if !tb m 31 then y.disarm c else if w.armed c then y else if y.mrdState ≠ 2 then y.wrF (Reg.mrdTlCtrl c) 30 30 1 else y.armTl c := by
  subst hx hy
  rfl

theorem tlCtrlWrite_disarms (h : tb m 31 = false) : w.tlCtrlWrite c m = y.disarm c := by
  rw [tlCtrlWrite_eq hx hy, h]
  rfl

section
variable (h : tb m 31 = true)
include h

theorem tlCtrlWrite_armed (ha : w.armed c = true) : w.tlCtrlWrite c m = y := by
  rw [tlCtrlWrite_eq hx hy, h, ha]
  rfl

theorem tlCtrlWrite_arms (ha : w.armed c = false) :
    w.tlCtrlWrite c m = if y.mrdState ≠ 2 then y.wrF (Reg.mrdTlCtrl c) 30 30 1 else y.armTl c := by
  rw [tlCtrlWrite_eq hx hy, h, ha]
  rfl

end
end

/-! ### The rules of a timeline (R381, R382) -/

/-- DIR lets a slot pass: UL slots, DL slots, or all. -/
def passesDir (dir : Nat) (ul dl : Bool) : Bool :=
  match dir with
  | 1 => ul
  | 2 => dl
  | _ => true

theorem passesDir_iff {dir : Nat} {ul dl : Bool} : passesDir dir ul dl = true ↔ (dir = 1 → ul = true) ∧ (dir = 2 → dl = true) := by
  unfold passesDir
  split <;> simp_all

section
variable (s : State) (c r kind k : Nat)

/-- Boundary `k` fires rule `r`: the timeline is armed and drives the frame, the rule has the KIND and passes the slot, the boundary has not
fired it, and nothing that comes after it has fallen. -/
def State.RuleHits : Prop :=
  let sl := s.ruleSlot c kind k
  let f := sl / slotsPerFrame (s.tlMu c)
  let cfg := s.tlRd c f (Reg.mrdTlRuleCfg c r)
  let at' := s.ruleTime c r kind k
  let t := s.tl c
  s.armed c = true ∧ fld cfg 31 29 = kind ∧ t.fromFrame ≤ f ∧ mget (fun _ => 0) t.fired r ≤ k ∧ (fld cfg 28 27 = 1 → s.slotUl c sl = true) ∧
    (fld cfg 28 27 = 2 → s.slotDl c sl = true) ∧ t.last.1 ≤ at' ∧ (at' = t.last.1 → t.last.2 ≤ r)

/-- The test by which `fireRule` passes a boundary over. -/
def State.ruleMissed : Bool :=
  let sl := s.ruleSlot c kind k
  let f := sl / slotsPerFrame (s.tlMu c)
  let cfg := s.tlRd c f (Reg.mrdTlRuleCfg c r)
  let at' := s.ruleTime c r kind k
  let t := s.tl c
  !s.armed c || (decide (at' < t.last.1) || (decide (at' = t.last.1) && decide (r < t.last.2))) || fld cfg 31 29 ≠ kind || f < t.fromFrame ||
    k < mget (fun _ => 0) t.fired r || !passesDir (fld cfg 28 27) (s.slotUl c sl) (s.slotDl c sl)

theorem fireRule_eq :
    s.fireRule c r kind k =
      if s.ruleMissed c r kind k then s
      else ((s.until (s.ruleTime c r kind k)).setTl c { s.tl c with
        fired := mput (fun _ => 0) (s.tl c).fired r (k + 1), last := (s.ruleTime c r kind k, r) }).ruleEffect c r kind k := rfl

theorem ruleMissed_eq_false_iff : s.ruleMissed c r kind k = false ↔ s.RuleHits c r kind k := by
  unfold State.ruleMissed State.RuleHits
  simp only [Bool.or_eq_false_iff, Bool.and_eq_false_imp, Bool.not_eq_false', decide_eq_false_iff_not, decide_eq_true_eq, Nat.not_lt,
    not_not, passesDir_iff]
  tauto

end

section
variable {s : State} {c r kind k : Nat}

theorem fireRule_fires (h : s.RuleHits c r kind k) :
    s.fireRule c r kind k = ((s.until (s.ruleTime c r kind k)).setTl c { s.tl c with
      fired := mput (fun _ => 0) (s.tl c).fired r (k + 1), last := (s.ruleTime c r kind k, r) }).ruleEffect c r kind k := by
  rw [fireRule_eq, if_neg (ne_true_of_eq_false ((ruleMissed_eq_false_iff ..).mpr h))]

theorem fireRule_passes (h : ¬s.RuleHits c r kind k) : s.fireRule c r kind k = s := by
  rw [fireRule_eq, if_pos (Bool.not_eq_false _ ▸ mt (ruleMissed_eq_false_iff ..).mp h)]

theorem ruleEffect_gap (h : kind = 4) {mask : Nat}
    (hm : s.tlRd c (s.ruleSlot c kind k / slotsPerFrame (s.tlMu c)) (Reg.mrdTlRuleDmcmask c r) % 64 = mask) :
    s.ruleEffect c r kind k = (s.emit (.gap mask)).offerGap mask := by
  subst hm
  exact if_pos h

theorem ruleEffect_flag (h : kind ≠ 4) {sl cfg : Nat} (hsl : s.ruleSlot c kind k = sl)
    (hcfg : s.tlRd c (sl / slotsPerFrame (s.tlMu c)) (Reg.mrdTlRuleCfg c r) = cfg) :
    s.ruleEffect c r kind k = ((s.tally 8 0 5 1).hist 8 0 0 ((s.mrd.time - s.ruleTime c r kind k) / 2 ^ 32)).post
      ((fld cfg 21 8 + s.slotIndex c sl % 2 ^ min 6 (fld cfg 26 24)) % 16384) (2 ^ (if kind = 1 then k % 14 else fld cfg 4 0)) := by
  subst hsl hcfg
  exact if_neg h

end

/-- Settles O54: each command is one operation of Meridian, and each clause is one case of it. -/
theorem meridianTime : Obligations.MeridianTime := by
  intro s hu b
  refine ⟨?_, fun w θ => ?_, ?_, ?_, fun i hi => exec_mrdTimeRead hu hi, ?_, fun w n => ?_, ?_, ?_,
    fun c v hc => ⟨exec_timelineArm hu hc v, exec_timelineDisarm hu hc v⟩, ?_, ?_, ?_⟩
  · intro i v hi gives u θ c d e
    have samples : ∀ r, b.offsetWrite (.ctl i) v.toNat = r → gives r := by
      rintro _ rfl
      exact exec_servoSample hu hi v
    refine ⟨fun h => samples _ (offsetWrite_ignored rfl h), fun h hon => ?_⟩
    exact (gives_of_ite samples ((offsetWrite_samples rfl h).trans (sample_on hon rfl rfl rfl))).imp_right fun h hle => h (Nat.not_lt.mpr hle)
  · intro good
    refine ⟨fun h => ?_, fun h => ?_, sampleState_returns, sampleState_stays⟩
    · rw [sampleState_acquiring h]
      exact ⟨fun hg => if_pos hg, fun hg => if_neg (Nat.not_le.mpr hg)⟩
    · rw [sampleState_locked h]
      exact ⟨fun hθ => if_pos hθ, fun hθ => if_neg (Nat.not_lt.mpr hθ)⟩
  · intro h0 h12
    rw [exec_sampleTimeout hu, if_pos ⟨h0, h12⟩]
  · intro h
    rw [exec_sampleTimeout hu, if_neg fun ⟨h0, h12⟩ => h.elim h0 fun ⟨h1, h2⟩ => h12.elim h1 h2]
  · intro n rising hn gives last u l on
    have captures : ∀ r, b.capture n rising = r → gives r := by
      rintro _ rfl
      exact exec_tsInEdge hu hn rising
    refine ⟨fun h => captures _ (capture_disabled h), fun h h0 hl => captures _ (capture_close h rfl h0 hl), fun h hl =>
      ⟨fun hf => captures _ (capture_full h rfl hl hf), fun hf => ?_⟩, exec_capPop hu hn⟩
    exact (gives_of_flag captures (capture_stamps h rfl hl hf rfl)).symm
  · exact ⟨stampSample_other, fun ⟨h, hl⟩ => stampSample_samples h hl rfl⟩
  · intro m hm gives p
    have edges : ∀ r, b.pulseEdge m = r → gives r := by
      rintro _ rfl
      exact exec_tsOutEdge hu hm
    exact ⟨fun e level h => edges _ (pulseEdge_falls rfl h), fun h h0 => edges _ (pulseEdge_idle rfl h h0), fun h h0 h2 =>
      ⟨fun hh => edges _ (pulseEdge_held rfl h h0 h2 rfl rfl hh), fun hh hf => edges _ (pulseEdge_starts rfl h h0 h2 rfl rfl hh hf),
        fun hh hf => edges _ (pulseEdge_startsFree rfl h h0 h2 rfl rfl hh hf)⟩⟩
  · intro gives x y rec'
    have frames : ∀ r, b.timingFrame = r → gives r := by
      rintro _ rfl
      exact exec_timingFrame hu
    refine ⟨fun h => frames _ (timingFrame_none h), fun hl hx hr => ?_⟩
    have hrec := timingFrame_records hl hx hr (x := x) (y := y) rfl rfl
    exact ⟨fun h => frames _ (by rw [hrec, if_pos h]), fun h => frames _ (by rw [hrec, if_neg h])⟩
  · intro w x y c m hclear hkeep harmed hfree
    have hx : (if tb m 30 then (w.tlSnapshot c).wrF (Reg.mrdTlCtrl c) 30 30 0 else w.tlSnapshot c) = x :=
      ite_eq_of_cases hclear fun h => hkeep (Bool.eq_false_iff.mpr h)
    have hy : (if w.armed c then x.wrF (Reg.mrdTlCtrl c) 14 8 (fld m 14 8)
        else (x.wrF (Reg.mrdTlCtrl c) 14 8 (fld m 14 8)).wrF (Reg.mrdTlCtrl c) 1 0 (m % 4)) = y :=
      ite_eq_of_cases harmed fun h => hfree (Bool.eq_false_iff.mpr h)
    refine ⟨tlCtrlWrite_disarms hx hy, tlCtrlWrite_armed hx hy, fun h ha => ?_⟩
    rw [tlCtrlWrite_arms hx hy h ha]
    exact ⟨fun h2 => if_neg (not_not_intro h2), fun h2 => if_pos h2⟩
  · intro c r k hc hr t fires
    have bounds : ∀ kind i, exec i s = pcmd (decide (c < 384) && decide (r < 8)) s (fun s => s.fireRule c r kind k) → fires kind i :=
      fun kind i he => ⟨fun h => exec_boundary hu hc hr he (fireRule_fires h), fun h => exec_boundary hu hc hr he (fireRule_passes h)⟩
    exact ⟨bounds 1 _ rfl, bounds 2 _ rfl, bounds 3 _ rfl, bounds 4 _ rfl⟩
  · intro w c r k kind sl f cfg mask
    exact ⟨fun h => ruleEffect_gap h rfl, fun h => ruleEffect_flag h rfl rfl⟩

end Sys2Proof.Machine
end

section
/-! What every step keeps: the queue of waiting commands, the OTP where the boot ROM cannot run, and the range of every command's operands (R496, R498,
R499). -/

namespace Sys2Proof.Laws

open Sys2Proof.Machine

/-- Every command is one of the two that `Range.Statement` tells apart. -/
theorem Range.every : ∀ i, Range.Statement i
  | .registerWrite .. => Range.registerWrite _ _ _ _ _ | .rcCounterRead .. => Range.rcCounterRead _ _ _ _
  | .loReadLatch .. => Range.loReadLatch _ _ _ _ | .hiWriteCommit .. => Range.hiWriteCommit _ _ _ _ _
  | .hostCellarWrite .. => Range.hostCellarWrite _ _ | .pcieFlr => Range.pcieFlr | .pcieConventionalReset => Range.pcieConventionalReset
  | .pcieLinkDown .. => Range.pcieLinkDown _ | .mbxEnable .. => Range.mbxEnable _ _ _ | .mbxDisable .. => Range.mbxDisable _ _ _
  | .mbxIdle .. => Range.mbxIdle _ | .mbxReqPiWrite .. => Range.mbxReqPiWrite _ _ _ _ | .mbxRspCiWrite .. => Range.mbxRspCiWrite _ _ _
  | .mbxLockSet .. => Range.mbxLockSet _ _ | .mbxFwctrlReload .. => Range.mbxFwctrlReload _ _ | .requestConsume .. => Range.requestConsume _ _
  | .responseCommit .. => Range.responseCommit _ _ _ | .responseTimeout .. => Range.responseTimeout _ _ _
  | .noticeDeliver .. => Range.noticeDeliver _ _ | .fwWatchdogExpire => Range.fwWatchdogExpire
  | .controlCoreException .. => Range.controlCoreException _ | .fwRestart => Range.fwRestart | .fwRunning => Range.fwRunning
  | .sysPing .. => Range.sysPing _ | .sysInfo .. => Range.sysInfo _ | .sysRestart .. => Range.sysRestart _
  | .sysHeadroomMode .. => Range.sysHeadroomMode _ | .sysHeadroomVoltage .. => Range.sysHeadroomVoltage _ | .sysError .. => Range.sysError _ _
  | .sysBootrun .. => Range.sysBootrun _ | .sysFlashwr .. => Range.sysFlashwr _ _ | .pwrSetDeviceRun .. => Range.pwrSetDeviceRun _
  | .pwrSetDeviceDeep .. => Range.pwrSetDeviceDeep _ | .pwrSetDeviceOff .. => Range.pwrSetDeviceOff _
  | .pwrSetClusterRun .. => Range.pwrSetClusterRun _ | .pwrSetClusterSleep .. => Range.pwrSetClusterSleep _
  | .pwrSetClusterOff .. => Range.pwrSetClusterOff _ | .pwrSetEngineRun .. => Range.pwrSetEngineRun _
  | .pwrSetEngineSleep .. => Range.pwrSetEngineSleep _ | .pwrQuery .. => Range.pwrQuery _ | .carrierConfig .. => Range.carrierConfig _ _ _
  | .carrierStart .. => Range.carrierStart _ | .carrierStop .. => Range.carrierStop _ | .carrierStopDrain .. => Range.carrierStopDrain _
  | .carrierQuery .. => Range.carrierQuery _ | .slotPlan .. => Range.slotPlan _ _ _ _ | .planSubmitLate .. => Range.planSubmitLate _
  | .slotCancel .. => Range.slotCancel _ | .slotQuery .. => Range.slotQuery _ | .blendLoad .. => Range.blendLoad _
  | .blendUnload .. => Range.blendUnload _ | .blendQuery .. => Range.blendQuery _ | .flowPin .. => Range.flowPin _
  | .flowNotifyBind .. => Range.flowNotifyBind _ | .flowNotifyUnbind .. => Range.flowNotifyUnbind _ | .flowQuery .. => Range.flowQuery _
  | .memAlloc .. => Range.memAlloc _ _ | .memFree .. => Range.memFree _ | .memGrant .. => Range.memGrant _
  | .memGrantRevoke .. => Range.memGrantRevoke _ | .laneConfigLink .. => Range.laneConfigLink _ | .laneConfigPort .. => Range.laneConfigPort _
  | .laneConfigStream .. => Range.laneConfigStream _ | .laneStatus .. => Range.laneStatus _ | .laneEqTaps .. => Range.laneEqTaps _
  | .laneEqFreeze .. => Range.laneEqFreeze _ | .laneEqRelease .. => Range.laneEqRelease _ | .timeSetAbsolute .. => Range.timeSetAbsolute _
  | .timeSetStep .. => Range.timeSetStep _ | .timeSetServo .. => Range.timeSetServo _ | .timeSetOutput .. => Range.timeSetOutput _
  | .timeSetCapture .. => Range.timeSetCapture _ | .timeOffset .. => Range.timeOffset _ | .timeQuery .. => Range.timeQuery _
  | .fskPlan .. => Range.fskPlan _ | .fskPlanStop .. => Range.fskPlanStop _ | .fskTx .. => Range.fskTx _ _ _ _
  | .fskTxResultWrite .. => Range.fskTxResultWrite _ _ | .fskTxabort .. => Range.fskTxabort _ | .trellisLoad .. => Range.trellisLoad _
  | .trellisRelease .. => Range.trellisRelease _ | .trellisHold .. => Range.trellisHold _ | .trellisUnload .. => Range.trellisUnload _
  | .trellisQuery .. => Range.trellisQuery _ | .spareQuery .. => Range.spareQuery _ | .spareRetire .. => Range.spareRetire _
  | .censusConfig .. => Range.censusConfig _ _ | .censusStart .. => Range.censusStart _ | .censusStop .. => Range.censusStop _
  | .debugAuthChallenge .. => Range.debugAuthChallenge _ | .debugAuthVerify .. => Range.debugAuthVerify _
  | .debugAuthClear .. => Range.debugAuthClear _ | .debugRead .. => Range.debugRead _ | .debugWrite .. => Range.debugWrite _
  | .cpSubmit .. => Range.cpSubmit _ _ | .taskAdmit .. => Range.taskAdmit _ _ | .evPost .. => Range.evPost _ _ | .evClr .. => Range.evClr _ _
  | .taskSelect .. => Range.taskSelect _ | .cmCancel .. => Range.cmCancel _ _ | .cmCancelFlow .. => Range.cmCancelFlow _ _
  | .flowCfgWrite .. => Range.flowCfgWrite _ _ | .deadlineSweep => Range.deadlineSweep | .taskCommit .. => Range.taskCommit _
  | .completionRecordWrite .. => Range.completionRecordWrite _ _ | .unitFault .. => Range.unitFault _ _
  | .hostRingSqPiWrite .. => Range.hostRingSqPiWrite _ _ | .hostRingEntry .. => Range.hostRingEntry _ _ _
  | .hostRingPost .. => Range.hostRingPost _ | .bundleIssue .. => Range.bundleIssue _ _ _ _ | .writeBufferAck .. => Range.writeBufferAck _ _ _
  | .pmMissFill .. => Range.pmMissFill _ _ _ | .cancelAccept .. => Range.cancelAccept _ _ | .haltAccept .. => Range.haltAccept _ _
  | .pmInvWrite .. => Range.pmInvWrite _ _ _ | .pmInvDone .. => Range.pmInvDone _ | .coreClearDone .. => Range.coreClearDone _ _
  | .cov .. => Range.cov _ | .chol .. => Range.chol _ | .trsolve .. => Range.trsolve _ | .mmse .. => Range.mmse _ | .apply .. => Range.apply _
  | .decode .. => Range.decode _ | .encode .. => Range.encode _ | .uciDecode .. => Range.uciDecode _ | .rmDecode .. => Range.rmDecode _
  | .dciEncode .. => Range.dciEncode _ | .pbchEncode .. => Range.pbchEncode _ | .turboDecode .. => Range.turboDecode _
  | .turboEncode .. => Range.turboEncode _ | .tbccDecode .. => Range.tbccDecode _ | .fft .. => Range.fft _ | .ifft .. => Range.ifft _
  | .dft .. => Range.dft _ | .idft .. => Range.idft _ | .engineJobEnd .. => Range.engineJobEnd _ _ | .engineStop .. => Range.engineStop _ _
  | .burst .. => Range.burst _ _ | .burstStart .. => Range.burstStart _ _ | .burstEnd .. => Range.burstEnd _ _
  | .blankResume .. => Range.blankResume _ _ | .streamGap .. => Range.streamGap _ _ | .preambleDetect .. => Range.preambleDetect _ _ _ _ _
  | .captureDecision .. => Range.captureDecision _ _ _ _ | .syncTimeout .. => Range.syncTimeout _ _ | .sfdFound .. => Range.sfdFound _ _ _ _ _
  | .ncoTrackUpdate .. => Range.ncoTrackUpdate _ _ _ | .packetEnd .. => Range.packetEnd _ _ _ _ | .nfeReportWrite .. => Range.nfeReportWrite _
  | .dctGo .. => Range.dctGo _ _ | .dctAbort .. => Range.dctAbort _ _ | .linear .. => Range.linear _ | .twoD .. => Range.twoD _
  | .gather .. => Range.gather _ | .scatter .. => Range.scatter _ | .dctDescriptorCommit .. => Range.dctDescriptorCommit _ _
  | .dctTransferError .. => Range.dctTransferError _ | .walkerVisit .. => Range.walkerVisit _ _ | .bankCopyDone .. => Range.bankCopyDone _
  | .validMapFill .. => Range.validMapFill _ | .memVclrGo .. => Range.memVclrGo _ _ | .dmcInit .. => Range.dmcInit _ _ _
  | .dmcInitTimeout .. => Range.dmcInitTimeout _ _ | .dmcEnable .. => Range.dmcEnable _ _ | .dmcSrEnter .. => Range.dmcSrEnter _ _
  | .dmcSrExit .. => Range.dmcSrExit _ _ | .dramRefresh .. => Range.dramRefresh _ | .dramAgePromote .. => Range.dramAgePromote _ _ _
  | .dramAlert .. => Range.dramAlert _ | .dramReplay .. => Range.dramReplay _ _ | .retrainDue .. => Range.retrainDue _
  | .retrainForced .. => Range.retrainForced _ _ | .laneStageReady .. => Range.laneStageReady _ _ _ _
  | .laneStageTimeout .. => Range.laneStageTimeout _ _ | .laneLockLoss .. => Range.laneLockLoss _ _ _ | .laneRestart .. => Range.laneRestart _ _ _
  | .laneTxsleep .. => Range.laneTxsleep _ _ _ | .laneRxsleep .. => Range.laneRxsleep _ _ _ | .rawSlip .. => Range.rawSlip _ _ _
  | .rawSlipDone .. => Range.rawSlipDone _ _ | .rawUp .. => Range.rawUp _ _ _ | .rawDown .. => Range.rawDown _ _ _
  | .eyeMeasure .. => Range.eyeMeasure _ _ _ _ | .ethFrameRx .. => Range.ethFrameRx _ _ _ _ _ _ _ _
  | .ethFrameTxStamp .. => Range.ethFrameTxStamp _ _ _ _ | .uplaneMessage .. => Range.uplaneMessage _ _ _ _
  | .rxWindowOpen .. => Range.rxWindowOpen _ _ | .rxWindowClose .. => Range.rxWindowClose _ _ | .fhEgressStart .. => Range.fhEgressStart _ _
  | .tdStreamMessage .. => Range.tdStreamMessage _ _ _ | .tdStreamSend .. => Range.tdStreamSend _
  | .tetherWriteFrame .. => Range.tetherWriteFrame _ _ | .tetherPostFrame .. => Range.tetherPostFrame _ _
  | .tetherLinkBlock .. => Range.tetherLinkBlock _ _ | .tetherMarker .. => Range.tetherMarker _ _ _ _ _
  | .tetherLinkSend .. => Range.tetherLinkSend _ | .tetherMarkerSend .. => Range.tetherMarkerSend _
  | .tetherReqPiWrite .. => Range.tetherReqPiWrite _ _ | .tetherEntryComplete .. => Range.tetherEntryComplete _
  | .servoSample .. => Range.servoSample _ _ | .sampleTimeout => Range.sampleTimeout | .mrdTimeRead .. => Range.mrdTimeRead _
  | .tsInEdge .. => Range.tsInEdge _ _ | .capPop .. => Range.capPop _ | .tsOutEdge .. => Range.tsOutEdge _ | .timingFrame => Range.timingFrame
  | .timelineArm .. => Range.timelineArm _ _ | .timelineDisarm .. => Range.timelineDisarm _ _ | .symbol .. => Range.symbol _ _ _
  | .slot .. => Range.slot _ _ _ | .frame .. => Range.frame _ _ _ | .gap .. => Range.gap _ _ _
  | .trellisConfigWrite .. => Range.trellisConfigWrite _ _ _ _ | .trunkContention .. => Range.trunkContention _ _
  | .configStoreUe .. => Range.configStoreUe _ _ | .eventPortStrobe .. => Range.eventPortStrobe _ _
  | .memPortRequest .. => Range.memPortRequest _ _ | .memPortResponse .. => Range.memPortResponse _ | .submitPortStrobe => Range.submitPortStrobe
  | .streamWordRx .. => Range.streamWordRx _ _ | .vioMismatch .. => Range.vioMismatch _ | .hctrlModeWrite .. => Range.hctrlModeWrite _ _
  | .shieldReady => Range.shieldReady | .effEvaluate .. => Range.effEvaluate _ | .taskMove .. => Range.taskMove _ _
  | .prestageEnd .. => Range.prestageEnd _ | .slackReport .. => Range.slackReport _ | .voltageStep => Range.voltageStep
  | .choldClear .. => Range.choldClear _ _ _ | .retireWear .. => Range.retireWear _ _ | .drainTimeout .. => Range.drainTimeout _ _
  | .remap .. => Range.remap _ _ _ | .schedStoreUe .. => Range.schedStoreUe _ _ _ | .clusterSleepEnter .. => Range.clusterSleepEnter _
  | .clusterWake .. => Range.clusterWake _ | .engineSleepEnter .. => Range.engineSleepEnter _ | .engineWake .. => Range.engineWake _
  | .wakeNAssert => Range.wakeNAssert | .wsenseTrip .. => Range.wsenseTrip _ | .wakeTimer => Range.wakeTimer
  | .wakeStageReady .. => Range.wakeStageReady _ | .wakeStageTimeout .. => Range.wakeStageTimeout _ | .regulatorRetry => Range.regulatorRetry
  | .powerGoodFall .. => Range.powerGoodFall _ | .pwrRstCold .. => Range.pwrRstCold _ | .pwrRstWarm .. => Range.pwrRstWarm _
  | .pwrRstCluster .. => Range.pwrRstCluster _ _ | .pwrRstCore .. => Range.pwrRstCore _ _ _ | .pwrRstEngine .. => Range.pwrRstEngine _ _
  | .vddCoreUndervolt => Range.vddCoreUndervolt | .tempSample .. => Range.tempSample _ | .overtempReset => Range.overtempReset
  | .avsNoAck .. => Range.avsNoAck _ | .sbVinRise .. => Range.sbVinRise _ | .sbVinFall .. => Range.sbVinFall _ | .sbVinLow .. => Range.sbVinLow _
  | .strapSample .. => Range.strapSample _ | .keepaliveSend => Range.keepaliveSend | .keepaliveLoss => Range.keepaliveLoss
  | .nwWatchdogExpire => Range.nwWatchdogExpire | .smbBlockWrite .. => Range.smbBlockWrite _ _ _ | .smbBlockRead .. => Range.smbBlockRead _
  | .smbTimeout .. => Range.smbTimeout _ | .smbAlertResponse .. => Range.smbAlertResponse _ | .uartFrame .. => Range.uartFrame _
  | .nwStatus => Range.nwStatus | .nwPowerOn => Range.nwPowerOn | .nwPowerOff => Range.nwPowerOff | .nwPowerOffForced => Range.nwPowerOffForced
  | .nwPowerOffNow => Range.nwPowerOffNow | .nwPowerDeep => Range.nwPowerDeep | .nwPowerCold => Range.nwPowerCold
  | .nwPowerWarm => Range.nwPowerWarm | .nwPowerClearFault => Range.nwPowerClearFault | .offGraceExpire => Range.offGraceExpire
  | .nwbOffAck .. => Range.nwbOffAck _ _ | .nwWakecfgRead => Range.nwWakecfgRead | .nwWakecfgWrite => Range.nwWakecfgWrite
  | .nwSensor .. => Range.nwSensor _ | .nwEventRead => Range.nwEventRead | .nwEventRemove => Range.nwEventRemove
  | .ejectAssert => Range.ejectAssert | .ejectRelease => Range.ejectRelease | .vauxPArrive => Range.vauxPArrive
  | .vauxPLoss .. => Range.vauxPLoss _ | .nwbTxgo .. => Range.nwbTxgo _ _ | .nwbRxMessage .. => Range.nwbRxMessage _
  | .nwbRxlenRead .. => Range.nwbRxlenRead _ | .nwbAlive .. => Range.nwbAlive _ _ | .spiCmdGo .. => Range.spiCmdGo _ _
  | .spiDone .. => Range.spiDone _ | .censusTick => Range.censusTick | .cenManualTick .. => Range.cenManualTick _
  | .censusRecordWrite .. => Range.censusRecordWrite _ | .pcieLinkUp => Range.pcieLinkUp | .loadDataReturn .. => Range.loadDataReturn _ _ _
  | .haltResume .. => Range.haltResume _ _ | .fabricClockEdge .. => Range.fabricClockEdge _ | .streamWordTx .. => Range.streamWordTx _
  | .trlRelGo .. => Range.trlRelGo _ _ | .xtal32Start => Range.xtal32Start | .entryRailsDown => Range.entryRailsDown
  | .refclkALoss => Range.refclkALoss | .vretLow .. => Range.vretLow _

end Sys2Proof.Laws

namespace Sys2Proof.Machine

open Sys2Proof.Laws

/-! ### One command -/

section
variable {i : Instr} {s t : State}

theorem exec_completes (h : i.wf = true) (s : State) : Completes (exec i s) := by
  rcases Range.every i s with ⟨f, e⟩ | ⟨_, f, e⟩
  · exact ⟨_, e.trans (cmd_next h s f)⟩
  · exact ⟨_, e.trans (otpCmd_next h s f)⟩

theorem exec_faults (h : i.wf = false) (s : State) : exec i s = .fault .noSuchUnit := by
  rcases Range.every i s with ⟨f, e⟩ | ⟨_, f, e⟩ <;>
  · rw [e, h]
    rfl

theorem exec_pending (h : exec i s = .next t) : t.pending = s.pending := by
  rcases Range.every i s with ⟨f, e⟩ | ⟨_, f, e⟩
  · exact (cmd_keeps (e.symm.trans h)).1
  · exact otpCmd_keeps (e.symm.trans h)

theorem exec_otp (hi : mayRunRom i = false) (h : exec i s = .next t) : SameOtp s t := by
  rcases Range.every i s with ⟨f, e⟩ | ⟨hrom, _⟩
  · exact (cmd_keeps (e.symm.trans h)).2
  · exact absurd (hi.symm.trans hrom) Bool.false_ne_true

end

/-- Settles O3: a command tests nothing but its operands. -/
theorem execTotal : Obligations.ExecTotal := fun _ s => ⟨fun h => exec_completes h s, fun h => exec_faults h s⟩

/-- Settles O4: every command puts back the queue that it found. -/
theorem queueKept : Obligations.QueueKept := fun _ _ _ h => exec_pending h

/-! ### An idle step -/

section
variable (s : State) (n : Nat)

theorem xtalRun_frame : ∃ nw, s.xtalRun n = { s with nw := nw } := by
  unfold State.xtalRun
  split
  · exact ⟨_, rfl⟩
  · exact ⟨_, rfl⟩

theorem counterRun_frame : ∃ time clock, s.counterRun n = { s with mrd := { s.mrd with time := time }, cen := { s.cen with clock := clock } } := by
  unfold State.counterRun
  split
  · exact ⟨_, _, rfl⟩
  · exact ⟨_, _, rfl⟩

/-- Time that passes is told by the crystal's count, the counter, Census and the stalls of the Tether links, and by nothing else. -/
theorem elapse_frame : ∃ nw time cen tether, s.elapse n =
    { s with nw := nw, mrd := { s.mrd with time := time }, cen := cen, front := { s.front with tether := tether } } := by
  obtain ⟨nw, hx⟩ := xtalRun_frame s n
  obtain ⟨time, clock, hc⟩ := counterRun_frame { s with nw := nw } n
  unfold State.elapse
  rw [hx, hc]
  dsimp only
  split
  · exact ⟨_, _, _, _, rfl⟩
  · exact ⟨_, _, _, _, rfl⟩

theorem elapse_clock (hu : s.pwr.up = true) (hr : s.mrd.run = true) : (s.elapse n).cen.clock = s.cen.clock + n * s.incr := by
  obtain ⟨nw, hx⟩ := xtalRun_frame s n
  have hc : (s.xtalRun n).counterRun n = { s.xtalRun n with
      mrd := { s.mrd with time := (s.mrd.time + n * s.incr) % timeWrap }, cen := { s.cen with clock := s.cen.clock + n * s.incr } } := by
    rw [hx]
    exact if_neg (by rw [hu, hr]; decide)
  unfold State.elapse
  rw [hc, hx]
  exact congrArg (fun t : State => t.cen.clock) (if_pos hu)

end

/-! ### One step -/

section
variable {s : State}

theorem step_idle (h : s.pending = []) : step s = .next ((begin s).elapse 1) := by
  unfold step
  rw [h]

theorem step_front {i : Instr} {rest : List Instr} (h : s.pending = i :: rest) : step s = exec i { s with pending := rest } := by
  unfold step
  rw [h]

theorem idle_pending (h : s.pending = []) : ((begin s).elapse 1).pending = [] := by
  obtain ⟨nw, time, cen, tether, e⟩ := elapse_frame (begin s) 1
  rw [e]
  exact h

theorem idle_otp : SameOtp s ((begin s).elapse 1) := by
  obtain ⟨nw, time, cen, tether, e⟩ := elapse_frame (begin s) 1
  rw [e]
  exact ⟨rfl, rfl, rfl⟩

/-- A step takes the command at the front off the queue. -/
theorem step_pending {t : State} (h : step s = .next t) : t.pending = s.pending.tail := by
  cases hp : s.pending with
  | nil =>
    rw [step_idle hp] at h
    cases h
    exact idle_pending hp
  | cons i rest =>
    rw [step_front hp] at h
    exact exec_pending h

theorem step_completes (h : QueueOk s) : Completes (step s) := by
  cases hp : s.pending with
  | nil => exact ⟨_, step_idle hp⟩
  | cons i rest =>
    rw [step_front hp]
    exact exec_completes (h i (hp ▸ List.mem_cons_self)) _

theorem step_queueOk {t : State} (h : QueueOk s) (ht : step s = .next t) : QueueOk t := by
  intro i hi
  rw [step_pending ht] at hi
  exact h i (List.mem_of_mem_tail hi)

end

/-- Settles O1: by the definition of a step. -/
theorem stepRunsFront : Obligations.StepRunsFront := fun _ _ _ => step_front rfl

/-- Settles O2: an idle step lets one tick of the counter clock pass, which the frame of `elapse` describes. -/
theorem stepIdle : Obligations.StepIdle := by
  intro s h
  refine ⟨_, step_idle h, idle_pending h, ?_⟩
  have hclock := elapse_clock (begin s) 1
  obtain ⟨nw, time, cen, tether, e⟩ := elapse_frame (begin s) 1
  rw [e] at hclock ⊢
  exact ⟨rfl, rfl, rfl, rfl, rfl, rfl, rfl, fun hu hr => (hclock hu hr).trans (by rw [Nat.one_mul]; rfl)⟩

/-- Settles O5: an idle step lets time pass alone, and a command after which the boot ROM cannot have run puts back the OTP that it found. -/
theorem otpOnlyByRom : Obligations.OtpOnlyByRom := by
  intro s t h hrom
  cases hp : s.pending with
  | nil =>
    rw [step_idle hp] at h
    cases h
    exact idle_otp
  | cons i rest =>
    rw [step_front hp] at h
    have hkept := exec_otp (hrom i rest hp) h
    exact hkept

/-- Settles O6, by induction on the queue's length: each step takes one command off and keeps the rest in range. -/
theorem queueDrains : Obligations.QueueDrains := by
  intro s h
  generalize hn : s.pending.length = n
  induction n generalizing s with
  | zero => exact ⟨s, rfl, List.length_eq_zero_iff.mp hn⟩
  | succ n ih =>
    obtain ⟨u, hu⟩ := step_completes h
    have hlen : u.pending.length = n := by
      rw [step_pending hu, List.length_tail, hn, Nat.add_sub_cancel]
    obtain ⟨t, hrun, hempty⟩ := ih u (step_queueOk h hu) hlen
    refine ⟨t, ?_, hempty⟩
    unfold runs
    rw [hu]
    exact hrun

/-- Settles O7: the commands left after a step are some of those before it. -/
theorem queueOkKept : Obligations.QueueOkKept := fun _ h => ⟨step_completes h, fun _ => step_queueOk h⟩

end Sys2Proof.Machine
end

section
/-! The DEBUG messages, case by case: the challenge and its verification, and the accesses that SCOPE bit 1 allows (R505, R506). -/

namespace Sys2Proof.Machine

section
variable {s t : State} {bs : List Byte}

/-! ### DEBUG.AUTH (R505) -/

theorem authVerify_accepts (h : s.authOk bs = true) :
    State.authVerify bs s = (said stOk, ({ s with sec := { s.sec with challenge := none } } : State).wr Reg.secDbg (leAt bs 24 1 % 16)) :=
  if_pos h

theorem authVerify_denies (h : s.authOk bs = false) :
    State.authVerify bs s = (said stDenied, { s with sec := { s.sec with challenge := none } }) :=
  if_neg (ne_true_of_eq_false h)

/-! ### DEBUG.READ and DEBUG.WRITE (R506) -/

theorem debugAccess_denied (h : s.rdB Reg.secDbg 1 = false) (f : Nat → Nat → State → Ans × State) :
    s.debugAccess bs f = (said stDenied, s) :=
  if_pos (by rw [h]; rfl)

section
variable (h : s.rdB Reg.secDbg 1 = true)
include h

theorem scope_allows : ¬(!s.rdB Reg.secDbg 1) = true := by
  rw [h]
  exact Bool.false_ne_true

theorem debugAccess_badLength (hn : leAt bs 24 1 = 0 ∨ 32 < leAt bs 24 1) (f : Nat → Nat → State → Ans × State) :
    s.debugAccess bs f = (said stBadParam, s) :=
  (if_neg (scope_allows h)).trans (if_pos hn)

section
variable (h1 : 1 ≤ leAt bs 24 1) (h32 : leAt bs 24 1 ≤ 32)
include h1 h32

theorem debugAccess_allowed (f : Nat → Nat → State → Ans × State) : s.debugAccess bs f = f (leAt bs 16 8) (leAt bs 24 1) s :=
  (if_neg (scope_allows h)).trans (if_neg (by omega))

theorem debugRead_reads {d : List Byte} (hr : s.devRead (.ctl 0) (leAt bs 16 8) (leAt bs 24 1) = (.ok d, t)) :
    State.debugRead bs s = (saidOk d, t) := by
  unfold State.debugRead
  rw [debugAccess_allowed h h1 h32, hr]

theorem debugRead_fails {r : RdRes} (hr : s.devRead (.ctl 0) (leAt bs 16 8) (leAt bs 24 1) = (r, t)) (hd : ∀ d, r ≠ .ok d) :
    State.debugRead bs s = (said stFault, t) := by
  unfold State.debugRead
  rw [debugAccess_allowed h h1 h32, hr]
  cases r with
  | ok d => exact absurd rfl (hd d)
  | err | ue => rfl

section
variable {r : WrRes}
  (hw : s.devWrite (.ctl 0) (leAt bs 16 8) ((List.range (leAt bs 24 1)).map fun i => bs.getD (32 + i) 0) = (r, t))
include hw

theorem debugWrite_writes (hr : r = .ok) : State.debugWrite bs s = (said stOk, t) := by
  unfold State.debugWrite
  rw [debugAccess_allowed h h1 h32, hw, hr]

theorem debugWrite_fails (hr : r ≠ .ok) : State.debugWrite bs s = (said stFault, t) := by
  unfold State.debugWrite
  rw [debugAccess_allowed h h1 h32, hw]
  cases r with
  | ok => exact absurd rfl hr
  | err | ue => rfl

end
end
end
end

/-! ### The messages as commands -/

section
variable {s t : State} {m k : Nat} {bs : List Byte} {a : Ans}

theorem debugAuthVerify_answers (h : Asked s m k 0x0E01 bs) (hop : leAt bs 16 1 = 1) (hd : State.authVerify bs (begin s) = (a, t)) :
    Answers (.debugAuthVerify m) s m k a t := by
  have ⟨_, hm, _⟩ := h
  exact message_does (form := fun bs => leAt bs 16 1 == 1) h (decide_eq_true hm) (beq_iff_eq.mpr hop) rfl hd

theorem debugRead_answers (h : Asked s m k 0x0E02 bs) (hd : State.debugRead bs (begin s) = (a, t)) : Answers (.debugRead m) s m k a t := by
  have ⟨_, hm, _⟩ := h
  exact message_does (form := fun _ => true) h (decide_eq_true hm) rfl rfl hd

theorem debugWrite_answers (h : Asked s m k 0x0E03 bs) (hd : State.debugWrite bs (begin s) = (a, t)) : Answers (.debugWrite m) s m k a t := by
  have ⟨_, hm, _⟩ := h
  exact message_does (form := fun _ => true) h (decide_eq_true hm) rfl rfl hd

end

/-- Settles O38: each message does one of the operations above, and each clause is one case of it. -/
theorem debugMessages : Obligations.DebugMessages := by
  intro m k bs s b
  refine ⟨fun h => ⟨fun hop => ?_, fun hop => ?_, fun hop => ?_⟩, fun h => ⟨?_, ?_, ?_⟩, fun h => ⟨?_, ?_, ?_⟩⟩
  · have ⟨_, hm, _⟩ := h
    exact message_does (form := fun bs => leAt bs 16 1 == 0) (f := fun _ s => s.authChallenge) h (decide_eq_true hm) (beq_iff_eq.mpr hop) rfl rfl
  · exact ⟨fun ha => debugAuthVerify_answers h hop (authVerify_accepts ha), fun ha => debugAuthVerify_answers h hop (authVerify_denies ha)⟩
  · have ⟨_, hm, _⟩ := h
    exact message_does (form := fun bs => leAt bs 16 1 == 2) (f := fun _ s => (said stOk, s.wr Reg.secDbg 0)) h (decide_eq_true hm)
      (beq_iff_eq.mpr hop) rfl rfl
  · exact fun hs => debugRead_answers h (debugAccess_denied hs _)
  · exact fun hs hn => debugRead_answers h (debugAccess_badLength hs hn _)
  · intro hs h1 h32 r t hr
    refine ⟨?_, fun hd => debugRead_answers h (debugRead_fails hs h1 h32 hr hd)⟩
    rintro d rfl
    exact debugRead_answers h (debugRead_reads hs h1 h32 hr)
  · exact fun hs => debugWrite_answers h (debugAccess_denied hs _)
  · exact fun hs hn => debugWrite_answers h (debugAccess_badLength hs hn _)
  · intro hs h1 h32 r t hw
    exact ⟨fun hr => debugWrite_answers h (debugWrite_writes hs h1 h32 hw hr), fun hr => debugWrite_answers h (debugWrite_fails hs h1 h32 hw hr)⟩

end Sys2Proof.Machine
end

section
/-! The TRELLIS messages, case by case: a load, and the release, hold or unload of regions (R406, R409, R410, R415, R416, R441). -/

namespace Sys2Proof.Machine

/-! ### TRELLIS.LOAD (R406, R409, R415, R441) -/

section
variable {s : State} {bs : List Byte}

theorem trellisLoad_busy (h : s.trl.job ≠ none) : State.trellisLoad bs s = (said stBusy, s) := if_pos (Option.isSome_iff_ne_none.mpr h)

section
variable (hj : s.trl.job = none)
include hj

theorem no_job : ¬s.trl.job.isSome = true := by
  rw [hj]
  exact Bool.false_ne_true

theorem trellisLoad_noImage (h : s.hostImage (leAt bs 24 8) (leAt bs 32 4) = none) : State.trellisLoad bs s = (said stBadParam, s) := by
  unfold State.trellisLoad
  rw [if_neg (no_job hj), h]

/-- An image at hand is checked, and the first check that fails answers; otherwise its regions are held and loaded. -/
theorem trellisLoad_image {img : List Byte} (h : s.hostImage (leAt bs 24 8) (leAt bs 32 4) = some img) :
    State.trellisLoad bs s =
      let p := krvPayload img
      if s.checkImage 3 img ≠ 0 then (.ready (badFabric 1 (s.checkImage 3 img)), s)
      else if (s.fabricCheck p).1 ≠ 0 then (.ready (badFabric (s.fabricCheck p).1 (s.fabricCheck p).2), s)
      else if s.regionLost (fabricHdr p).mask then (said stNoResource, s)
      else if s.loadBlocked (fabricHdr p) then (said stBadState, s)
      else (.wait (.trellis (fabricHdr p).mask), s.startJob
        { mask := (fabricHdr p).mask, hold := true, gap := gapOf (leAt bs 18 2), count := 1, image := p, loading := false,
          autorel := if tb (leAt bs 16 1) 0 then some (leAt bs 18 2) else none, unload := false }) := by
  unfold State.trellisLoad
  rw [if_neg (no_job hj), h]

end

/-! ### TRELLIS.RELEASE (R410, R416) -/

theorem regions_zero : regions 0 = [] := by simp [regions, tb]

section
variable {bad : Nat → Bool} {hold unload : Bool}

theorem trellisOp_busy (h : s.trl.job ≠ none) : s.trellisOp bs bad hold unload = (said stBusy, s) := if_pos (Option.isSome_iff_ne_none.mpr h)

section
variable (hj : s.trl.job = none)
include hj

theorem trellisOp_refused (h : ∃ g ∈ regions (leAt bs 16 1), bad g = true) : s.trellisOp bs bad hold unload = (said stBadState, s) :=
  (if_neg (no_job hj)).trans (if_pos (List.any_eq_true.mpr h))

theorem trellisOp_idle (h : leAt bs 16 1 = 0) : s.trellisOp bs bad hold unload = (said stOk, s) := by
  unfold State.trellisOp
  simp only [h, regions_zero, List.any_nil, no_job hj, Bool.false_eq_true, if_false, if_true]

theorem trellisOp_begins (h0 : leAt bs 16 1 ≠ 0) (h : ¬∃ g ∈ regions (leAt bs 16 1), bad g = true) :
    s.trellisOp bs bad hold unload = (.wait (.trellis (leAt bs 16 1)), s.startJob
      { mask := leAt bs 16 1, hold := hold, gap := gapOf (leAt bs 18 2), count := 1, image := [], loading := false, autorel := none,
        unload := unload }) :=
  (if_neg (no_job hj)).trans ((if_neg (mt List.any_eq_true.mp h)).trans (if_neg h0))

end
end
end

/-! ### The messages as commands -/

section
variable {s t : State} {m k : Nat} {bs : List Byte} {a : Ans}

theorem trellisLoad_answers (h : Asked s m k 0x0B01 bs) (hd : State.trellisLoad bs (begin s) = (a, t)) : Answers (.trellisLoad m) s m k a t := by
  have ⟨_, hm, _⟩ := h
  exact message_does (form := fun _ => true) h (decide_eq_true hm) rfl rfl hd

/-- The three forms of TRELLIS.RELEASE differ in the regions that refuse it, and in what the job is. -/
theorem trellisOp_answers {i : Instr} {form : List Byte → Bool} {bad : State → Nat → Bool} {hold unload : Bool} (h : Asked s m k 0x0B02 bs)
    (he : exec i s = pcmd (decide (m < 64)) s fun s => s.handle m 0x0B02 form fun bs s => s.trellisOp bs (bad s) hold unload)
    (hf : form bs = true) (hd : (begin s).trellisOp bs (bad (begin s)) hold unload = (a, t)) : Answers i s m k a t := by
  have ⟨_, hm, _⟩ := h
  exact message_does h (decide_eq_true hm) hf he hd

end

/-- Settles O36: a load and the three forms of a release each do one operation, and each clause is one case of it. -/
theorem trellisMessages : Obligations.TrellisMessages := by
  intro m k bs s b mask job
  refine ⟨fun h => ⟨fun hj => trellisLoad_answers h (trellisLoad_busy hj), fun hj hn => trellisLoad_answers h (trellisLoad_noImage hj hn),
    fun img hj hf => trellisLoad_answers h (trellisLoad_image hj hf)⟩, fun h i bad hold unload hform => ?_⟩
  obtain ⟨form, refuses, he, hf, hbad⟩ : ∃ (form : List Byte → Bool) (refuses : State → Nat → Bool),
      (exec i s = pcmd (decide (m < 64)) s fun s => s.handle m 0x0B02 form fun bs s => s.trellisOp bs (refuses s) hold unload) ∧
        form bs = true ∧ ∀ g, refuses b g = true ↔ bad g := by
    rcases hform with ⟨hop, rfl, rfl, rfl, rfl⟩ | ⟨hop, rfl, rfl, rfl, rfl⟩ | ⟨hop, rfl, rfl, rfl, rfl⟩
    · exact ⟨fun bs => leAt bs 17 1 == 0, fun s g => s.regionSt g != 2 || s.noRelease g, rfl, beq_iff_eq.mpr hop, fun g => by simp⟩
    · exact ⟨fun bs => leAt bs 17 1 == 1, fun s g => decide (s.regionSt g < 2), rfl, beq_iff_eq.mpr hop, fun g => decide_eq_true_iff⟩
    · exact ⟨fun bs => leAt bs 17 1 == 2, fun _ _ => false, rfl, beq_iff_eq.mpr hop, fun g => Bool.false_eq_true.to_iff⟩
  have answers : ∀ {a t}, b.trellisOp bs (refuses b) hold unload = (a, t) → Answers i s m k a t := trellisOp_answers h he hf
  refine ⟨fun hj => answers (trellisOp_busy hj), fun hj ⟨g, hg, hb⟩ => answers (trellisOp_refused hj ⟨g, hg, (hbad g).mpr hb⟩),
    fun hj h0 => answers (trellisOp_idle hj h0), fun hj h0 hn => answers (trellisOp_begins hj h0 ?_)⟩
  rintro ⟨g, hg, hb⟩
  exact hn g hg ((hbad g).mp hb)

end Sys2Proof.Machine
end

section
/-! SPARE.RETIRE and the CENSUS messages, case by case: the retirement of a DRAM row and of a unit, and the ring that Census fills (R436, R438, R440,
R444, R445, R511, R520). -/

namespace Sys2Proof.Machine

/-! ### SPARE.RETIRE of a DRAM row (R438, R445) -/

section
variable {s : State} {kind fl unit addr : Nat}

section
variable (hk : kind = 12)
include hk

theorem spareRetire_row_outside (h : ¬(locate addr = .dram ∧ addr < dramBase + s.dramCap)) :
    s.spareRetire kind fl unit addr = (stBadParam, s) := by
  refine (if_pos hk).trans (if_pos ?_)
  rw [Bool.or_eq_true, bne_iff_ne, decide_eq_true_iff, ← Nat.not_lt]
  exact Decidable.not_and_iff_or_not.mp h

section
variable (h : locate addr = .dram ∧ addr < dramBase + s.dramCap)
include h

theorem spareRetire_row_inside :
    s.spareRetire kind fl unit addr = if s.rowListed addr then (stBadState, s) else (stAccepted, s.retireRow addr 2) := by
  refine (if_pos hk).trans (if_neg ?_)
  rw [Bool.or_eq_true, bne_iff_ne, decide_eq_true_iff, ← Nat.not_lt]
  exact Decidable.not_and_iff_or_not.not.mp (not_not_intro h)

theorem spareRetire_row_listed (hl : s.rowListed addr = true) : s.spareRetire kind fl unit addr = (stBadState, s) :=
  (spareRetire_row_inside hk h).trans (if_pos hl)

theorem spareRetire_row_begins (hl : s.rowListed addr = false) : s.spareRetire kind fl unit addr = (stAccepted, s.retireRow addr 2) :=
  (spareRetire_row_inside hk h).trans (if_neg (ne_true_of_eq_false hl))

end
end

/-! ### SPARE.RETIRE of a unit (R436, R440, R444, R445) -/

/-- The unit of the task that a unit may run, isolated as a unit fault would. -/
def State.isolateKind (s : State) (kind unit : Nat) : State :=
  match kindUnit kind unit with
  | some x => if s.faultable x then (s.isolate x 0x20).2 else s
  | none => s

theorem unit_inRange_iff : (decide (13 < kind) || decide (3 < fl) || !kindHas kind unit) = true ↔
    ¬(kind ≤ 13 ∧ fl ≤ 3 ∧ kindHas kind unit = true) := by
  rw [Bool.or_eq_true, Bool.or_eq_true, decide_eq_true_iff, decide_eq_true_iff, Bool.not_eq_true', Bool.eq_false_iff, ← Nat.not_le, ← Nat.not_le,
    or_assoc, not_and_or, not_and_or]

theorem unit_inService (h : kind ≤ 13 ∧ fl ≤ 3 ∧ kindHas kind unit = true) (hb : ¬(s.unitPending kind unit = true ∨ s.unitOut kind unit = true)) :
    ¬(decide (13 < kind) || decide (3 < fl) || !kindHas kind unit) = true ∧ ¬(s.unitPending kind unit || s.unitOut kind unit) = true :=
  ⟨unit_inRange_iff.not.mpr (not_not_intro h), mt Bool.or_eq_true_iff.mp hb⟩

section
variable (hk : kind ≠ 12)
include hk

theorem spareRetire_outOfRange (h : ¬(kind ≤ 13 ∧ fl ≤ 3 ∧ kindHas kind unit = true)) :
    s.spareRetire kind fl unit addr = (stBadParam, s) :=
  (if_neg hk).trans (if_pos (unit_inRange_iff.mpr h))

section
variable (h : kind ≤ 13 ∧ fl ≤ 3 ∧ kindHas kind unit = true)
include h

theorem spareRetire_busy (hb : s.unitPending kind unit = true ∨ s.unitOut kind unit = true) :
    s.spareRetire kind fl unit addr = (stBadState, s) :=
  (if_neg hk).trans ((if_neg (unit_inRange_iff.not.mpr (not_not_intro h))).trans (if_pos (Bool.or_eq_true_iff.mpr hb)))

section
variable (hb : ¬(s.unitPending kind unit = true ∨ s.unitOut kind unit = true))
include hb

theorem spareRetire_noSpare (hs : s.spareFor kind unit = none) (hd : tb fl 1 = false) : s.spareRetire kind fl unit addr = (stNoResource, s) := by
  obtain ⟨hin, hfree⟩ := unit_inService h hb
  unfold State.spareRetire
  rw [if_neg hk, if_neg hin, if_neg hfree, hs, hd]

theorem spareRetire_marksRow (h13 : kind = 13) (hs : ¬(s.spareFor kind unit = none ∧ tb fl 1 = false)) :
    s.spareRetire kind fl unit addr = (stAccepted, s.markRow unit 2) := by
  obtain ⟨hin, hfree⟩ := unit_inService h hb
  unfold State.spareRetire
  rw [if_neg hk, if_neg hin, if_neg hfree]
  dsimp only
  split
  · next e d => exact absurd ⟨e, d⟩ hs
  · exact if_pos h13
  · exact if_pos h13

section
variable (h13 : kind ≠ 13)
include h13

theorem spareRetire_takesOut (hs : s.spareFor kind unit = none) (hd : tb fl 1 = true) {u : State} (hu : s.isolateKind kind unit = u) :
    s.spareRetire kind fl unit addr =
      (stAccepted, (if kind = 3 then u.dropLane (unit / 17) (unit % 17) 0 4 else u).takeOut kind unit) := by
  subst hu
  obtain ⟨hin, hfree⟩ := unit_inService h hb
  unfold State.spareRetire
  rw [if_neg hk, if_neg hin, if_neg hfree, hs, hd]
  exact if_neg h13

theorem spareRetire_begins {sp : Nat} (hs : s.spareFor kind unit = some sp) {u : State} (hu : s.retireWith kind unit 2 sp (tb fl 1) = u) :
    s.spareRetire kind fl unit addr = (stAccepted, if tb fl 0 then u.drainTimeout kind unit else u) := by
  subst hu
  obtain ⟨hin, hfree⟩ := unit_inService h hb
  unfold State.spareRetire
  rw [if_neg hk, if_neg hin, if_neg hfree, hs]
  exact if_neg h13

end
end
end
end
end

/-! ### CENSUS.CONFIG and CENSUS.START (R511, R520) -/

section
variable {s : State} {bs : List Byte} {addr : Nat}

/-- DRAM is READY, and the ring at `addr` is aligned to its size and free but for the ring that Census has. -/
def State.ringFits (s : State) (addr : Nat) (bs : List Byte) : Prop :=
  s.dramReady = true ∧ addr % 2 ^ leAt bs 23 1 = 0 ∧ s.rangeFree 2 addr (2 ^ leAt bs 23 1) (fun x => x.handle != 0) = true

theorem ringFits_iff : (!s.dramReady || addr % 2 ^ leAt bs 23 1 != 0 ||
    !s.rangeFree 2 addr (2 ^ leAt bs 23 1) (fun x => x.handle != 0)) = true ↔ ¬s.ringFits addr bs := by
  rw [State.ringFits, Bool.or_eq_true, Bool.or_eq_true, Bool.not_eq_true', Bool.not_eq_true', bne_iff_ne, Bool.eq_false_iff, Bool.eq_false_iff,
    or_assoc, not_and_or, not_and_or]

theorem censusConfig_running (h : s.rdB Reg.cenCtrl 31 = true) : State.censusConfig addr bs s = (said stBadState, s) := if_pos h

section
variable (h : s.rdB Reg.cenCtrl 31 = false)
include h

theorem censusConfig_outOfRange (hr : s.cenInRange bs = false) : State.censusConfig addr bs s = (said stBadParam, s) :=
  (if_neg (ne_true_of_eq_false h)).trans (if_pos (by rw [hr]; rfl))

section
variable (hr : s.cenInRange bs = true)
include hr

theorem censusConfig_inRange :
    State.censusConfig addr bs s =
      if !s.dramReady || addr % 2 ^ leAt bs 23 1 != 0 || !s.rangeFree 2 addr (2 ^ leAt bs 23 1) (fun x => x.handle != 0) then (said stNoResource, s)
      else
        let u := ((s.cenCtrlWrite (leAt bs 22 1 * 2 ^ 16 + leAt bs 20 2)).wr Reg.cenPeriod (leAt bs 16 4)).wr Reg.cenRingLog2 (leAt bs 23 1)
        let v := (u.wrPair Reg.cenRingLo Reg.cenRingHi 16 addr).wr Reg.cenCi (u.rd Reg.cenPi)
        (saidOk (leBytes 8 addr), { v with fw := { v.fw with
          allocs := (v.fw.allocs.filter fun x => x.handle != 0) ++ [{ handle := 0, addr := addr, len := 2 ^ leAt bs 23 1 }], cenCfg := true
          cenHost := leAt bs 24 8, cenHostLog2 := leAt bs 32 1, cenHostShadow := leAt bs 40 8, cenHostPi := 0, cenCopied := v.rd Reg.cenPi } }) :=
  (if_neg (ne_true_of_eq_false h)).trans (if_neg (by rw [hr]; exact Bool.false_ne_true))

theorem censusConfig_unfit (hf : ¬s.ringFits addr bs) : State.censusConfig addr bs s = (said stNoResource, s) :=
  (censusConfig_inRange h hr).trans (if_pos (ringFits_iff.mpr hf))

end
end

theorem censusStart_unconfigured (h : s.fw.cenCfg = false) : s.censusStart = (said stBadState, s) := if_pos (by rw [h]; rfl)

theorem censusStart_starts (h : s.fw.cenCfg = true) {u : State} (hu : s.cenCtrlWrite (2 ^ 31 + s.rd Reg.cenCtrl % 2 ^ 17) = u) :
    s.censusStart = (saidOk (taiBytes u.cen.next), u) := by
  subst hu
  exact if_neg (by rw [h]; exact Bool.false_ne_true)

end

/-! ### The messages as commands -/

section
variable {s t : State} {m k : Nat} {bs : List Byte} {a : Ans}

theorem spareRetire_answers (h : Asked s m k 0x0C03 bs) {st : Nat}
    (hd : (begin s).spareRetire (leAt bs 16 1) (leAt bs 17 1) (leAt bs 18 2) (leAt bs 24 8) = (st, t)) : Answers (.spareRetire m) s m k (said st) t := by
  have ⟨_, hm, _⟩ := h
  refine message_does (form := fun _ => true) (f := fun bs s =>
    let (st, s) := s.spareRetire (leAt bs 16 1) (leAt bs 17 1) (leAt bs 18 2) (leAt bs 24 8)
    (said st, s)) h (decide_eq_true hm) rfl rfl ?_
  dsimp only
  rw [hd]

theorem censusConfig_answers {addr : Nat} (h : Asked s m k 0x0D01 bs) (hd : State.censusConfig addr bs (begin s) = (a, t)) :
    Answers (.censusConfig m addr) s m k a t := by
  have ⟨_, hm, _⟩ := h
  exact message_does (form := fun _ => true) h (decide_eq_true hm) rfl rfl hd

theorem censusStart_answers (h : Asked s m k 0x0D02 bs) (hd : (begin s).censusStart = (a, t)) : Answers (.censusStart m) s m k a t := by
  have ⟨_, hm, _⟩ := h
  exact message_does (form := fun _ => true) (f := fun _ s => s.censusStart) h (decide_eq_true hm) rfl rfl hd

theorem censusStop_answers (h : Asked s m k 0x0D03 bs) :
    Answers (.censusStop m) s m k (.wait .census) ((begin s).cenCtrlWrite ((begin s).rd Reg.cenCtrl % 2 ^ 17)) := by
  have ⟨_, hm, _⟩ := h
  exact message_does (form := fun _ => true) (f := fun _ s => (.wait .census, s.cenCtrlWrite (s.rd Reg.cenCtrl % 2 ^ 17))) h (decide_eq_true hm)
    rfl rfl rfl

end

/-- Settles O37: each message is one operation, and each clause is one case of it. -/
theorem spareCensusMessages : Obligations.SpareCensusMessages := by
  intro m k bs s b kind fl unit addr12
  refine ⟨fun h => ⟨fun hk => ?_, fun hk => ?_⟩, fun addr h => ⟨fun hr => ?_, fun hr hin => ?_, fun hr hin hf => ?_, fun hr hin hf => ?_⟩,
    fun h => ⟨fun hc => ?_, fun hc => ?_⟩, censusStop_answers⟩
  · exact ⟨fun hg => spareRetire_answers h (spareRetire_row_outside hk hg), fun hg hl => spareRetire_answers h (spareRetire_row_listed hk hg hl),
      fun hg hl => spareRetire_answers h (spareRetire_row_begins hk hg hl)⟩
  · exact ⟨fun hg => spareRetire_answers h (spareRetire_outOfRange hk hg), fun hg hb => spareRetire_answers h (spareRetire_busy hk hg hb),
      fun hg hb => ⟨fun hs hd => spareRetire_answers h (spareRetire_noSpare hk hg hb hs hd),
        fun h13 hs => spareRetire_answers h (spareRetire_marksRow hk hg hb h13 hs),
        fun h13 hs hd => spareRetire_answers h (spareRetire_takesOut hk hg hb h13 hs hd rfl),
        fun sp h13 hs => spareRetire_answers h (spareRetire_begins hk hg hb h13 hs rfl)⟩⟩
  · exact censusConfig_answers h (censusConfig_running hr)
  · exact censusConfig_answers h (censusConfig_outOfRange hr hin)
  · exact censusConfig_answers h (censusConfig_unfit hr hin hf)
  · exact censusConfig_answers h ((censusConfig_inRange hr hin).trans (if_neg (ringFits_iff.not.mpr (not_not_intro hf))))
  · exact censusStart_answers h (censusStart_unconfigured hc)
  · exact censusStart_answers h (censusStart_starts hc rfl)

end Sys2Proof.Machine
end

section
/-! Census and the boot flash, case by case: ticks, the record and its ring, and the transactions of the SPI controller (R492, R508 to R511, R516,
R518, R520). -/

namespace Sys2Proof.Machine

/-! ### The commands of a powered payload -/

section
variable {s : State} (hu : s.pwr.up = true)
include hu

theorem exec_censusTick : exec .censusTick s = .next (after s
    (if !(begin s).rdB Reg.cenCtrl 31 then begin s
     else (((begin s).until ((begin s).cen.next * 2 ^ 32)).cenTick false (begin s).cen.next).cenAlign)) :=
  pcmd_next rfl hu _

theorem exec_cenManualTick {i : Nat} (hi : i < 4) : exec (.cenManualTick i) s = .next (after s
    (if (begin s).rdB Reg.cenCtrl 31 then (begin s).cenTick true (begin s).ns else begin s)) :=
  pcmd_next (decide_eq_true hi) hu _

theorem exec_censusRecordWrite (ok : Bool) : exec (.censusRecordWrite ok) s = .next (after s ((begin s).recordOut ok)) := pcmd_next rfl hu _

theorem exec_spiCmdGo {i : Nat} (hi : i < 4) (v : Word) : exec (.spiCmdGo i v) s = .next (after s
    (if (begin s).fwSt = 1 then ((begin s).aerr (.ctl i) 4 true false (0x20000000 + Reg.secSpiCmd)).emit .error
     else (begin s).spiCmd (v.toNat ||| 2 ^ 31))) :=
  pcmd_next (decide_eq_true hi) hu _

theorem exec_spiDone (data : List Byte) : exec (.spiDone data) s = .next (after s ((begin s).spiDone data)) := pcmd_next rfl hu _

end

/-! ### Ticks (R509 to R511) -/

section
variable {s v : State} {manual : Bool} {tick : Nat}

theorem cenTick_latches (h : s.cen.record = none) (hv : s.wrF Reg.cenStat 31 31 1 = v) :
    s.cenTick manual tick = State.extremesRestart { v with cen := { v.cen with
      record := some ⟨s.cenRecord manual tick⟩, seq := v.cen.seq + 1, first := false, stepped := false, remapped := [], skipped := 0,
      last := v.cen.clock } } := by
  subst hv
  exact if_neg (by rw [h]; exact Bool.false_ne_true)

theorem cenTick_skips {r : CenRec} (h : s.cen.record = some r) (hv : s.count Reg.cenSkipped 1 = v) :
    s.cenTick manual tick = { v with cen := { v.cen with skipped := v.cen.skipped + 1 } } := by
  subst hv
  exact if_pos (by rw [h]; rfl)

end

/-! ### The record and its ring (R516, R518, R520) -/

section
variable {s t : State}

theorem recordOut_none (ok : Bool) (h : s.cen.record = none) : s.recordOut ok = s := by
  unfold State.recordOut
  rw [h]

section
variable {r : CenRec} (h : s.cen.record = some r)
include h

theorem recordOut_record (ok : Bool) : s.recordOut ok =
    if s.cenFull r.bytes.length || !ok then s.cenLose
    else
      let w := s.cenPut (s.cenBytes r.bytes)
      if !w.1 then w.2.cenLose else (w.2.cenPass (s.rd Reg.cenPi) r.bytes).cenForHost := by
  unfold State.recordOut
  rw [h]

theorem recordOut_loses {ok : Bool} (hl : ok = false ∨ s.cenFull r.bytes.length = true) : s.recordOut ok = s.cenLose := by
  rw [recordOut_record h]
  refine if_pos ?_
  rcases hl with rfl | hf
  · exact Bool.or_true _
  · rw [hf, Bool.true_or]

theorem recordOut_writes (hf : s.cenFull r.bytes.length = false) {stored : Bool} (hp : s.cenPut (s.cenBytes r.bytes) = (stored, t)) :
    s.recordOut true = if stored then (t.cenPass (s.rd Reg.cenPi) r.bytes).cenForHost else t.cenLose := by
  rw [recordOut_record h, hf, hp]
  cases stored <;> rfl

end

theorem cenBytes_plain (h : s.cen.lostFlag = false) (bs : List Byte) : s.cenBytes bs = bs := if_neg (ne_true_of_eq_false h)

theorem cenBytes_afterLost (h : s.cen.lostFlag = true) (bs : List Byte) :
    s.cenBytes bs = patch (patch bs 12 [(bs.getD 12 0) ||| 2]) 20 (leBytes 4 s.cen.lost) := if_pos h

/-- A record that does not reach the end of its ring is one span. -/
theorem ringSpans_one {size off : Nat} {bs : List Byte} (h : off % size + bs.length ≤ size) : ringSpans size off bs = [(off % size, bs)] := if_pos h

theorem cenSpan_written {a : Nat} {bs : List Byte} (hw : s.memWrite a bs = (.ok, t)) : s.cenSpan a bs = (true, t) := by
  unfold State.cenSpan
  rw [hw]

theorem cenPut_one {bs : List Byte} (h : s.rd Reg.cenPi % s.cenRing.2 + bs.length ≤ s.cenRing.2)
    (hw : s.memWrite (s.cenRing.1 + s.rd Reg.cenPi % s.cenRing.2) bs = (.ok, t)) : s.cenPut bs = (true, t) := by
  unfold State.cenPut
  rw [ringSpans_one h, List.foldl_cons, List.foldl_nil, cenSpan_written hw]
  rfl

theorem cenForHost_copies (h : s.fw.cenHost ≠ 0 ∧ s.fwSt = 3) : s.cenForHost = State.cenCopy 4096 s := by
  unfold State.cenForHost
  rw [if_pos h]

theorem cenForHost_stays (h : ¬(s.fw.cenHost ≠ 0 ∧ s.fwSt = 3)) : s.cenForHost = s := if_neg h

end

/-! ### The SPI controller (R508) -/

section
variable {s : State} {v : Nat}

theorem spiCmd_ignored (h : s.sec.spi ≠ none ∨ tb v 31 = false) : s.spiCmd v = s := by
  refine if_pos ?_
  rcases h with h | h
  · rw [Option.isSome_iff_ne_none.mpr h, Bool.true_or]
  · rw [h, Bool.not_false, Bool.or_true]

/-- The bytes of address that a command's ALEN names. -/
def addrLen : Nat → Nat
  | 1 => 3
  | 2 => 4
  | _ => 0

theorem addrLen_eq {n alen : Nat} (h1 : n = 1 → alen = 3) (h2 : n = 2 → alen = 4) (h0 : n ≠ 1 → n ≠ 2 → alen = 0) : addrLen n = alen := by
  unfold addrLen
  split
  · exact (h1 rfl).symm
  · exact (h2 rfl).symm
  · next hn1 hn2 => exact (h0 hn1 hn2).symm

theorem spiCmd_starts (hs : s.sec.spi = none) (h : tb v 31 = true) {alen : Nat} (ha : addrLen (fld v 28 27) = alen) :
    s.spiCmd v = ({ s with sec := { s.sec with spi := some {
      write := tb v 30, quad := tb v 29, alen := alen, addr := s.rd Reg.secSpiAddr, dummy := fld v 26 23, len := min 256 (fld v 17 8),
      opcode := fld v 7 0 } } } : State).wrF Reg.secSpiStat 31 31 1 := by
  subst ha
  exact if_neg (by rw [hs, h]; decide)

end

section
variable {s : State} {data : List Byte}

theorem spiDone_none (h : s.sec.spi = none) : s.spiDone data = s := by
  unfold State.spiDone
  rw [h]

/-- At the end of a transaction BUSY falls and the flash has acted; a read fills the buffer. -/
theorem spiDone_ends {x : SpiTxn} (h : s.sec.spi = some x) {u : State}
    (hu : u = (({ s with sec := { s.sec with spi := none } } : State).wrF Reg.secSpiStat 31 31 0).flashOp x) :
    s.spiDone data =
      if x.write then u
      else u.setSpiBuf (if x.opcode == 0x03 || x.opcode == 0x13 || x.opcode == 0xEB then u.flashBytes (x.addr % 256 ^ (max 1 x.alen)) x.len
        else (data ++ List.replicate x.len 0).take x.len) := by
  subst hu
  unfold State.spiDone
  rw [h]

theorem isRead_iff {n : Nat} : (n == 0x03 || n == 0x13 || n == 0xEB) = true ↔ n = 0x03 ∨ n = 0x13 ∨ n = 0xEB := by
  rw [Bool.or_eq_true, Bool.or_eq_true, beq_iff_eq, beq_iff_eq, beq_iff_eq, or_assoc]

end

/-! ### What the flash does (R492, R508) -/

/-- The write enable latch set to a value. -/
def State.setWel (s : State) (v : Bool) : State := { s with sec := { s.sec with wel := v } }

section
variable {s : State} {x : SpiTxn}

theorem flashOp_enables (h : x.opcode = 0x06) : s.flashOp x = s.setWel true := by
  unfold State.flashOp
  rw [h]
  rfl

theorem flashOp_disables (h : x.opcode = 0x04) : s.flashOp x = s.setWel false := by
  unfold State.flashOp
  rw [h]
  rfl

theorem flashOp_reads (h : x.opcode = 0x03 ∨ x.opcode = 0x13 ∨ x.opcode = 0xEB ∨ x.opcode = 0x05) : s.flashOp x = s := by
  unfold State.flashOp
  rcases h with h | h | h | h <;>
  · rw [h]
    rfl

theorem flashOp_protected (h : x.opcode = 0x02 ∨ x.opcode = 0x20 ∨ x.opcode = 0xD8 ∨ x.opcode = 0xC7) (hw : s.sec.wel = false) :
    s.flashOp x = s := by
  unfold State.flashOp
  rcases h with h | h | h | h <;>
  · rw [h]
    exact if_neg (ne_true_of_eq_false hw)

section
variable {a : Nat} (ha : (if x.alen = 0 then 0 else x.addr % 256 ^ x.alen) = a) (hw : s.sec.wel = true)
include ha hw

theorem flashOp_programs (h : x.opcode = 0x02) :
    s.flashOp x = (if x.write then s.programFlash a (s.spiBuf.take x.len) else s).setWel false := by
  unfold State.flashOp
  rw [h, ha]
  exact if_pos hw

theorem flashOp_erases4K (h : x.opcode = 0x20) : s.flashOp x = (s.eraseFlash (a / 4096 * 4096) 4096).setWel false := by
  unfold State.flashOp
  rw [h, ha]
  exact if_pos hw

theorem flashOp_erases64K (h : x.opcode = 0xD8) : s.flashOp x = (s.eraseFlash (a / 65536 * 65536) 65536).setWel false := by
  unfold State.flashOp
  rw [h, ha]
  exact if_pos hw

end

theorem flashOp_erasesAll (hw : s.sec.wel = true) (h : x.opcode = 0xC7) : s.flashOp x = (s.eraseFlash 0 (2 ^ 32)).setWel false := by
  unfold State.flashOp
  rw [h]
  exact if_pos hw

end

/-- Settles O60: each command is one operation of Census or of the SPI controller, and each clause is one case of it. -/
theorem censusAndFlash : Obligations.CensusAndFlash := by
  intro s hu b
  refine ⟨?_, fun i hi => ?_, fun w manual tick => ⟨fun h => cenTick_latches h rfl, fun r h => cenTick_skips h rfl⟩, fun w => rfl, ?_,
    fun w bs pi => ⟨rfl, rfl, fun h => cenBytes_plain h bs, fun h => cenBytes_afterLost h bs, fun h t => cenPut_one h, cenForHost_copies,
      cenForHost_stays⟩, fun i v hi => ?_, ?_, ?_, ?_⟩
  · rw [exec_censusTick hu]
    exact ⟨fun h => by rw [if_pos (by rw [h]; rfl)], fun h => by rw [if_neg (by rw [h]; exact Bool.false_ne_true)]⟩
  · rw [exec_cenManualTick hu hi]
    exact ⟨fun h => by rw [if_neg (ne_true_of_eq_false h)], fun h => by rw [if_pos h]⟩
  · intro ok gives
    have writes : ∀ r, b.recordOut ok = r → gives r := by
      rintro _ rfl
      exact exec_censusRecordWrite hu ok
    refine ⟨fun h => writes _ (recordOut_none ok h), fun r h => ?_⟩
    intro pi full
    refine ⟨fun hl => writes _ (recordOut_loses h (hl.imp_right decide_eq_true)), ?_⟩
    rintro rfl hf stored t hp
    exact (gives_of_flag writes (recordOut_writes h (decide_eq_false hf) hp)).symm
  · rw [exec_spiCmdGo hu hi]
    exact ⟨fun h => by rw [if_pos h], fun h => by rw [if_neg h]⟩
  · intro w v alen h1 h2 h0
    exact ⟨spiCmd_ignored, fun hs h => spiCmd_starts hs h (addrLen_eq h1 h2 h0)⟩
  · intro data gives
    have ends : ∀ r, b.spiDone data = r → gives r := by
      rintro _ rfl
      exact exec_spiDone hu data
    refine ⟨fun h => ends _ (spiDone_none h), fun x h u hu' => ?_⟩
    have hend := spiDone_ends (data := data) h hu'
    refine ⟨fun hw => ends _ (hend.trans (if_pos hw)), fun hw hr => ?_, fun hw h3 h13 hEB => ?_⟩
    · rw [if_neg (ne_true_of_eq_false hw), if_pos (isRead_iff.mpr hr)] at hend
      exact ends _ hend
    · rw [if_neg (ne_true_of_eq_false hw), if_neg (isRead_iff.not.mpr fun h => h.elim h3 fun h => h.elim h13 hEB)] at hend
      exact ends _ hend
  · intro w x a wel h0 hn
    have ha : (if x.alen = 0 then 0 else x.addr % 256 ^ x.alen) = a := ite_eq_of_cases h0 hn
    refine ⟨flashOp_enables, flashOp_disables, flashOp_protected, fun hw => ⟨fun h => ?_, flashOp_erases4K ha hw, flashOp_erases64K ha hw,
      flashOp_erasesAll hw⟩, flashOp_reads⟩
    have hop := flashOp_programs ha hw h
    exact ⟨fun hx => hop.trans (by rw [if_pos hx]; rfl), fun hx => hop.trans (by rw [if_neg (ne_true_of_eq_false hx)]; rfl)⟩

end Sys2Proof.Machine
end

section
/-! The shelf's ports, the NW messages and the message buffers of the barrier, case by case (R475 to R484, R486, R491). -/

namespace Sys2Proof.Machine

/-! ### Requests in their order (R478) -/

section
variable {s t : State} {p : Nat} {rest : List Nat} {rq : List Byte}

theorem nwSkip_empty (h : s.nw.order = []) (n : Nat) : s.nwSkip n = s := by
  cases n with
  | zero => rfl
  | succ n =>
    unfold State.nwSkip
    rw [h]

theorem nwRespond_uart (h : p = 2) (rq : List Byte) (st : Nat) (pl : List Byte) : s.nwRespond p rq st pl =
    (({ s with nw := { s.nw with order := s.nw.order.filter (· ≠ p) } } : State).setPort p { s.port p with req := none }).emit
      (.uart (uartFrame ((rq.take 2 ++ leBytes 2 st ++ pl).take 32))) :=
  if_pos h

theorem nwRespond_smbus (h : p ≠ 2) (rq : List Byte) (st : Nat) (pl : List Byte) : s.nwRespond p rq st pl =
    ({ s with nw := { s.nw with order := s.nw.order.filter (· ≠ p) } } : State).setPort p
      { s.port p with req := none, resp := (rq.take 2 ++ leBytes 2 st ++ pl).take 32 } :=
  if_neg h

theorem nwHandle_empty (h : s.nw.order = []) (op : Nat) (form : List Byte → Bool) (f : List Byte → State → Nat × List Byte × State) :
    s.nwHandle op form f = s := by
  unfold State.nwHandle
  rw [h]

section
variable (h : s.nw.order = p :: rest)
include h

theorem nwSkip_taken (hr : (s.port p).req = none) (n : Nat) : s.nwSkip n = s := by
  cases n with
  | zero => rfl
  | succ n =>
    unfold State.nwSkip
    simp only [h, hr]

theorem nwHandle_taken (hr : (s.port p).req = none) (op : Nat) (form : List Byte → Bool) (f : List Byte → State → Nat × List Byte × State) :
    s.nwHandle op form f = s := by
  unfold State.nwHandle
  simp only [h, hr]

section
variable (hr : (s.port p).req = some rq)
include hr

theorem nwSkip_known (hk : nwKnown rq = true) (n : Nat) : s.nwSkip n = s := by
  cases n with
  | zero => rfl
  | succ n =>
    unfold State.nwSkip
    simp only [h, hr, hk, if_true]

theorem nwSkip_unknown (hk : nwKnown rq = false) (n : Nat) : s.nwSkip (n + 1) = (s.nwRespond p rq stBadParam []).nwSkip n := by
  rw [State.nwSkip]
  simp only [h, hr, hk, Bool.false_eq_true, if_false]

section
variable {op : Nat} {form : List Byte → Bool} {f : List Byte → State → Nat × List Byte × State}

theorem nwHandle_other (ho : ¬(leAt rq 0 1 = op ∧ form rq = true)) : s.nwHandle op form f = s := by
  unfold State.nwHandle
  simp only [h, hr]
  refine if_pos ?_
  rw [Bool.not_eq_true', Bool.eq_false_iff]
  exact not_and_or.mp ho

theorem nwHandle_answers (ho : leAt rq 0 1 = op) (hf : form rq = true) {st : Nat} {pl : List Byte} (hd : f rq s = (st, pl, t)) :
    s.nwHandle op form f = (t.nwRespond p rq st pl).nwSkip 4 := by
  unfold State.nwHandle
  simp only [h, hr, ho, hf, hd, ne_eq, not_true_eq_false, Bool.not_true, Bool.false_eq_true, or_self, if_false]

end
end
end

/-- Command `i` handles the request next in order where it is the message `op` in the form `form`, which gives its answer by `f`. -/
def State.HandledBy (s : State) (i : Instr) (op : Nat) (form : List Byte → Prop) (f : List Byte → Nat × List Byte × State) : Prop :=
  let b := begin s
  (b.nw.order = [] → exec i s = .next (after s b)) ∧
  ∀ p rest, b.nw.order = p :: rest →
    ((b.port p).req = none → exec i s = .next (after s b)) ∧
    ∀ rq, (b.port p).req = some rq →
      (¬(leAt rq 0 1 = op ∧ form rq) → exec i s = .next (after s b)) ∧
      (leAt rq 0 1 = op → form rq → ∀ st pl t, f rq = (st, pl, t) → exec i s = .next (after s ((t.nwRespond p rq st pl).nwSkip 4)))

/-- A command that is one message of the shelf. -/
theorem handledBy_of_nwHandle {i : Instr} {op : Nat} {form : List Byte → Bool} {f : List Byte → State → Nat × List Byte × State}
    (he : exec i s = cmd true s fun s => s.nwHandle op form f) {form' : List Byte → Prop} (hform : ∀ rq, form rq = true ↔ form' rq)
    {g : List Byte → Nat × List Byte × State} (hg : ∀ rq, f rq (begin s) = g rq) : s.HandledBy i op form' g := by
  have run : ∀ t, (begin s).nwHandle op form f = t → exec i s = .next (after s t) := by
    rintro _ rfl
    exact he.trans (cmd_next rfl s _)
  refine ⟨fun h => run _ (nwHandle_empty h ..), fun p rest h => ⟨fun hr => run _ (nwHandle_taken h hr ..), fun rq hr => ⟨fun ho => ?_, ?_⟩⟩⟩
  · exact run _ (nwHandle_other h hr fun hf => ho (hf.imp_right (hform rq).mp))
  · exact fun ho hf st pl t hd => run _ (nwHandle_answers h hr ho ((hform rq).mpr hf) ((hg rq).trans hd))

end

/-! ### The ports (R475 to R478, R486) -/

section
variable {s : State} {p : Nat} (hp : p < 2)
include hp

theorem exec_smbBlockWrite (bs : List Byte) (pec : Byte) :
    exec (.smbBlockWrite p bs pec) s = .next (after s ((begin s).smbWrite p bs pec.toNat)) :=
  cmd_next (decide_eq_true hp) s fun s => s.smbWrite p bs pec.toNat

theorem exec_smbBlockRead : exec (.smbBlockRead p) s = .next (after s
    (if !(begin s).nw.sampled then begin s
     else
      let body := leBytes 1 ((begin s).smbData p).length ++ (begin s).smbData p
      (begin s).emit (.smbus p (body ++ leBytes 1 (crc8 (leBytes 1 ((begin s).smbAddr * 2) ++ [0xC1] ++ leBytes 1 ((begin s).smbAddr * 2 + 1) ++
        body)))))) :=
  cmd_next (decide_eq_true hp) s fun s =>
    if !s.nw.sampled then s
    else
      let body := leBytes 1 (s.smbData p).length ++ s.smbData p
      s.emit (.smbus p (body ++ leBytes 1 (crc8 (leBytes 1 (s.smbAddr * 2) ++ [0xC1] ++ leBytes 1 (s.smbAddr * 2 + 1) ++ body))))

theorem exec_smbTimeout : exec (.smbTimeout p) s = .next (after s (begin s)) := cmd_next (decide_eq_true hp) s fun s => s

theorem exec_smbAlertResponse : exec (.smbAlertResponse p) s = .next (after s
    (if (begin s).nw.sampled && (begin s).smbAlert then (begin s).emit (.smbus p (leBytes 1 ((begin s).smbAddr * 2))) else begin s)) :=
  cmd_next (decide_eq_true hp) s _

end

theorem exec_uartFrame (s : State) (bs : List Byte) : exec (.uartFrame bs) s = .next (after s
    (if (begin s).nw.sampled then (begin s).uartRx bs.length bs else begin s)) :=
  cmd_next rfl s _

section
variable {s : State} {p : Nat} {bs : List Byte}

theorem smbWrite_asleep (pec : Nat) (h : s.nw.sampled = false) : s.smbWrite p bs pec = s := if_pos (by rw [h]; rfl)

section
variable (h : s.nw.sampled = true) {sum pec : Nat}
  (hs : crc8 (leBytes 1 (s.smbAddr * 2) ++ [0xC0] ++ leBytes 1 bs.length ++ bs) = sum)
include h hs

theorem smbWrite_awake : s.smbWrite p bs pec =
    if sum ≠ pec then s.setPort p { s.port p with bad := (s.port p).bad + 1 } else if bs.length < 2 ∨ 32 < bs.length then s else s.nwArrive p bs := by
  subst hs
  exact if_neg (by rw [h]; exact Bool.false_ne_true)

theorem smbWrite_badPec (hb : sum ≠ pec) : s.smbWrite p bs pec = s.setPort p { s.port p with bad := (s.port p).bad + 1 } :=
  (smbWrite_awake h hs).trans (if_pos hb)

theorem smbWrite_arrives (hg : sum = pec) (hl : 2 ≤ bs.length ∧ bs.length ≤ 32) : s.smbWrite p bs pec = s.nwArrive p bs :=
  (smbWrite_awake h hs).trans ((if_neg (not_not_intro hg)).trans (if_neg (by omega)))

theorem smbWrite_badLength (hg : sum = pec) (hl : ¬(2 ≤ bs.length ∧ bs.length ≤ 32)) : s.smbWrite p bs pec = s :=
  (smbWrite_awake h hs).trans ((if_neg (not_not_intro hg)).trans (if_pos (by omega)))

end

theorem smbData_eq {data : List Byte} (hb : ∀ rq, (s.port p).req = some rq → data = rq.take 2 ++ leBytes 2 stBusy)
    (hr : (s.port p).req = none → data = (s.port p).resp) : s.smbData p = data := by
  unfold State.smbData
  split
  · next rq h => exact (hb rq h).symm
  · next h => exact (hr h).symm

theorem smbAlert_iff : (s.nw.sampled && s.smbAlert) = true ↔ s.nw.sampled = true ∧ tb s.policy 2 = true ∧ s.nw.events ≠ [] := by
  rw [State.smbAlert, Bool.and_eq_true, Bool.and_eq_true, Bool.not_eq_true', List.isEmpty_eq_false_iff]

/-! ### The UART receiver (R477) -/

theorem uartRx_nil (n : Nat) : s.uartRx n [] = s := by
  cases n <;> rfl

/-- The bytes after `x` make it a frame: a length, the message and its CRC. -/
def isUartFrame (x : Byte) (rest : List Byte) : Prop :=
  x = 0x7E ∧ 2 ≤ leAt rest 0 1 ∧ leAt rest 0 1 ≤ 32 ∧ leAt rest 0 1 + 2 ≤ rest.length ∧
    crc8 (rest.take (leAt rest 0 1 + 1)) = leAt rest (leAt rest 0 1 + 1) 1

section
variable {x : Byte} {rest : List Byte} (n : Nat)

theorem uartRx_frame (h : isUartFrame x rest) : s.uartRx (n + 1) (x :: rest) =
    (s.nwArrive 2 ((rest.take (leAt rest 0 1 + 1)).drop 1)).uartRx n (rest.drop (leAt rest 0 1 + 2)) := by
  rw [State.uartRx]
  exact if_pos h

theorem uartRx_noise (h : ¬isUartFrame x rest) : s.uartRx (n + 1) (x :: rest) = s.uartRx n rest := by
  rw [State.uartRx]
  exact if_neg h

end
end

/-! ### NW.EVENT (R484) -/

section
variable {s : State} {rq : List Byte}

theorem eventPayload_none (h : s.nw.events = []) : s.eventPayload = List.replicate 12 0 := by
  unfold State.eventPayload
  rw [h]

theorem eventRemove_none (h : s.nw.events = []) : s.eventRemove rq = (stBadParam, [], s) := by
  unfold State.eventRemove
  rw [h]

section
variable {e : NwEvent} {es : List NwEvent} (h : s.nw.events = e :: es)
include h

theorem eventPayload_oldest : s.eventPayload =
    leBytes 1 e.code ++ leBytes 1 (bn e.lost) ++ leBytes 2 e.eseq ++ leBytes 4 e.uptime ++ leBytes 4 e.data := by
  unfold State.eventPayload
  rw [h]

theorem eventRemove_oldest (he : e.eseq = leAt rq 4 2) : s.eventRemove rq = (stOk, [], { s with nw := { s.nw with events := es } }) := by
  unfold State.eventRemove
  rw [h]
  exact if_pos he

theorem eventRemove_other (he : e.eseq ≠ leAt rq 4 2) : s.eventRemove rq = (stBadParam, [], s) := by
  unfold State.eventRemove
  rw [h]
  exact if_neg he

end
end

/-! ### NW.POWER (R462, R480) -/

section
variable {s : State} (g : Nat)

theorem nwPower_clearFault {u : State} (hu : (if s.nw.fstage = 0 then s else s.nwEvent 0xA s.nw.fstage) = u) : s.nwPower 7 g =
    (stOk, { u with nw := { u.nw with faults := 0, fstage := 0, fdetail := 0, ftime := 0, disarmed := false } }) := by
  subst hu
  unfold State.nwPower
  exact if_pos rfl

section
variable {op : Nat}

theorem nwPower_endsWake (h1 : 1 ≤ op) (h3 : op ≤ 3) (hw : s.nw.pstate = .waking) :
    s.nwPower op g = (stAccepted, { s with nw := { s.nw with offReq := true } }) := by
  unfold State.nwPower
  rw [if_neg (by omega), if_neg (by omega), if_pos ⟨hw, h1, h3⟩]

theorem nwPower_busy (h7 : op < 7) (h : s.nw.pstate = .entering ∨ s.nw.pstate = .waking ∧ ¬(1 ≤ op ∧ op ≤ 3)) : s.nwPower op g = (stBusy, s) := by
  unfold State.nwPower
  rw [if_neg (by omega), if_neg (by omega), if_neg, if_pos (h.elim .inr fun h => .inl h.1)]
  rintro ⟨hw, h13⟩
  rcases h with he | ⟨_, hn⟩
  · rw [hw] at he
    cases he
  · exact hn h13

end

/-! In no transition a request acts at once or is refused, by the state `p` of the payload. -/

section
variable {p : PState} (hp : s.nw.pstate = p) (hw : p ≠ .waking) (he : p ≠ .entering)
include hp hw he

theorem nwPower_on : s.nwPower 0 g = if p = .off ∨ p = .deep then (stAccepted, s.source 2) else (stBadState, s) := by
  subst hp
  unfold State.nwPower
  rw [if_neg (by decide), if_neg (by decide), if_neg fun h => hw h.1, if_neg (not_or.mpr ⟨hw, he⟩)]
  rfl

theorem nwPower_deep : s.nwPower 4 g =
    if p ≠ .run ∨ s.fwSt ≠ 3 ∨ s.entryRefused then (stBadState, s) else (stAccepted, s.beginEntry true) := by
  subst hp
  unfold State.nwPower
  rw [if_neg (by decide), if_neg (by decide), if_neg fun h => hw h.1, if_neg (not_or.mpr ⟨hw, he⟩)]
  rfl

theorem nwPower_cold : s.nwPower 5 g = if p = .run then (stAccepted, s.resetPayload .cold) else (stBadState, s) := by
  subst hp
  unfold State.nwPower
  rw [if_neg (by decide), if_neg (by decide), if_neg fun h => hw h.1, if_neg (not_or.mpr ⟨hw, he⟩)]
  rfl

theorem nwPower_warm : s.nwPower 6 g = if p = .run then (stAccepted, s.resetPayload .warm) else (stBadState, s) := by
  subst hp
  unfold State.nwPower
  rw [if_neg (by decide), if_neg (by decide), if_neg fun h => hw h.1, if_neg (not_or.mpr ⟨hw, he⟩)]
  rfl

theorem nwPower_down {op : Nat} (h1 : 1 ≤ op) (h3 : op ≤ 3) : s.nwPower op g =
    if p = .off ∨ p = .absent then (stBadState, s)
    else if op = 3 then (stAccepted, s.endOff false)
    else if op = 2 then (stAccepted, s.forcedPath)
    else if p = .deep then (stAccepted, ({ s with pwr := { s.pwr with entry := .rails false false } } : State).toPstate .entering)
    else (stAccepted, s.orderlyOff g) := by
  subst hp
  unfold State.nwPower
  rw [if_neg (by omega), if_neg (by omega), if_neg fun h => hw h.1, if_neg (not_or.mpr ⟨hw, he⟩)]
  split
  case h_5 => rfl
  all_goals omega

/-- Where the payload does not run, it can neither enter DEEP nor be reset. -/
theorem nwPower_notRunning (hr : p ≠ .run) {op : Nat} (h4 : 4 ≤ op) (h6 : op ≤ 6) : s.nwPower op g = (stBadState, s) := by
  obtain rfl | rfl | rfl : op = 4 ∨ op = 5 ∨ op = 6 := by omega
  · exact (nwPower_deep g hp hw he).trans (if_pos (.inl hr))
  · exact (nwPower_cold g hp hw he).trans (if_neg hr)
  · exact (nwPower_warm g hp hw he).trans (if_neg hr)

end
end

/-! ### The message buffers (R491) -/

section
variable {s : State} (hu : s.pwr.up = true)
include hu

theorem exec_nwbTxgo {i : Nat} (hi : i < 4) (v : Word) : exec (.nwbTxgo i v) s = .next (after s ((begin s).txgo v.toNat)) :=
  pcmd_next (decide_eq_true hi) hu _

theorem exec_nwbRxMessage (bs : List Byte) : exec (.nwbRxMessage bs) s = .next (after s ((begin s).nwbRx bs)) := pcmd_next rfl hu _

theorem exec_nwbRxlenRead {i : Init} (hi : i.wf = true) : exec (.nwbRxlenRead i) s = .next (after s
    (((begin s).wrF Reg.nwbRxlen 5 0 0).emit (.value ((begin s).rdF Reg.nwbRxlen 5 0)))) :=
  pcmd_next hi hu _

end

section
variable {s : State} {v : Nat} {bs : List Byte}

theorem txgo_sends (h : s.rdB Reg.nwbStat 28 = false) (hn : fld v 5 0 ≠ 0) (hl : s.nw.link = true) :
    s.txgo v = { s with nw := { s.nw with inbox := s.txbuf.take (fld v 5 0) } } :=
  if_neg (by simp [h, hn, hl])

theorem txgo_stays (h : s.rdB Reg.nwbStat 28 = true ∨ fld v 5 0 = 0 ∨ s.nw.link = false) : s.txgo v = s :=
  if_pos (by simpa using h)

theorem nwbRx_fills (h : s.rdF Reg.nwbRxlen 5 0 = 0 ∧ bs ≠ [] ∧ bs.length ≤ 63) {u : State}
    (hu : (List.range 16).foldl (fun s w => s.wr (Reg.nwbRxbuf w) (leAt (bs ++ List.replicate (64 - bs.length) 0) (4 * w) 4)) s = u) :
    s.nwbRx bs = (u.wrF Reg.nwbRxlen 5 0 bs.length).wrF Reg.nwbIrq 2 2 1 := by
  subst hu
  obtain ⟨h0, hn, hl⟩ := h
  exact if_neg (by simp [h0, hn, hl])

theorem nwbRx_stays (h : ¬(s.rdF Reg.nwbRxlen 5 0 = 0 ∧ bs ≠ [] ∧ bs.length ≤ 63)) : s.nwbRx bs = s := by
  refine if_pos ?_
  rw [← Nat.not_le]
  by_contra hn
  simp only [not_or, not_not] at hn
  exact h hn

end

/-- Settles O59: each command is one operation of the shelf side or of the barrier, and each clause is one case of it. -/
theorem shelfPorts : Obligations.ShelfPorts := by
  intro s b
  refine ⟨fun p bs pec hp => ?_, fun w p rq => rfl, fun w n => ?_, fun w p rq st pl => ⟨fun h => nwRespond_uart h rq st pl, fun h =>
    nwRespond_smbus h rq st pl⟩, fun p hp data => ?_, fun bs => ?_, fun w n x rest => ⟨uartRx_nil n, uartRx_frame n, uartRx_noise n⟩, ?_,
    fun w rq => ?_, fun w g => ?_, fun hu => ⟨fun i v hi => ?_, fun bs => ?_, fun i hi => exec_nwbRxlenRead hu hi⟩⟩
  · intro gives sum
    have writes : ∀ t, b.smbWrite p bs pec.toNat = t → gives t := by
      rintro _ rfl
      exact exec_smbBlockWrite hp bs pec
    exact ⟨fun h => writes _ (smbWrite_asleep _ h), fun h => ⟨fun hb => writes _ (smbWrite_badPec h rfl hb), fun hg =>
      ⟨fun hl => writes _ (smbWrite_arrives h rfl hg hl), fun hl => writes _ (smbWrite_badLength h rfl hg hl)⟩⟩⟩
  · exact ⟨fun h => nwSkip_empty h n, fun p rest h => ⟨fun hr => nwSkip_taken h hr n, fun rq hr => ⟨fun hk => nwSkip_known h hr hk n, fun hk =>
      nwSkip_unknown h hr hk n⟩⟩⟩
  · intro body alert hb hr
    refine ⟨fun h => ?_, fun h => ?_, exec_smbTimeout hp, fun h => ?_, fun h => ?_⟩
    · rw [exec_smbBlockRead hp, if_neg (by rw [h]; exact Bool.false_ne_true), smbData_eq hb hr]
    · rw [exec_smbBlockRead hp, if_pos (by rw [h]; rfl)]
    · rw [exec_smbAlertResponse hp, if_pos (smbAlert_iff.mpr h)]
    · rw [exec_smbAlertResponse hp, if_neg (smbAlert_iff.not.mpr h)]
  · rw [exec_uartFrame]
    exact ⟨fun h => by rw [if_pos h], fun h => by rw [if_neg (ne_true_of_eq_false h)]⟩
  · intro handles
    have always : ∀ {i op f g}, (exec i s = cmd true s fun s => s.nwHandle op (fun _ => true) f) → (∀ rq, f rq b = g rq) →
        handles i op (fun _ => True) g :=
      fun he hg => handledBy_of_nwHandle he (fun _ => iff_of_true rfl trivial) hg
    have byOp : ∀ {i op n f g}, (exec i s = cmd true s fun s => s.nwHandle op (fun rq => decide (leAt rq 2 1 = n)) f) → (∀ rq, f rq b = g rq) →
        handles i op (fun rq => leAt rq 2 1 = n) g :=
      fun he hg => handledBy_of_nwHandle he (fun _ => decide_eq_true_iff) hg
    exact ⟨always rfl fun _ => rfl, byOp rfl fun _ => rfl, byOp rfl fun _ => rfl, byOp rfl fun _ => rfl, byOp rfl fun _ => rfl,
      byOp rfl fun _ => rfl, byOp rfl fun _ => rfl, byOp rfl fun _ => rfl, byOp rfl fun _ => rfl, byOp rfl fun _ => rfl, byOp rfl fun _ => rfl,
      fun _ => always rfl fun _ => rfl, byOp rfl fun _ => rfl, byOp rfl fun _ => rfl⟩
  · exact ⟨fun h => ⟨eventPayload_none h, eventRemove_none h⟩, fun e es h => ⟨eventPayload_oldest h, eventRemove_oldest h, eventRemove_other h⟩⟩
  · intro ps u
    have runs : ps = .run → ∀ op, 1 ≤ op → op ≤ 3 → w.nwPower op g = _ := fun h op => nwPower_down g h (by decide) (by decide)
    have deep : ps = .deep → ∀ op, 1 ≤ op → op ≤ 3 → w.nwPower op g = _ := fun h op => nwPower_down g h (by decide) (by decide)
    refine ⟨nwPower_clearFault g rfl, fun op => nwPower_endsWake g, fun op => nwPower_busy g, ?_, ?_, fun op h1 h3 => ?_,
      fun h => runs h 1 (by decide) (by decide), fun h => deep h 1 (by decide) (by decide), ?_, fun h hf he => ?_, fun h hn => ?_, fun h => ?_,
      fun op h4 h6 => ?_⟩
    · rintro (h | h) <;> exact nwPower_on g h (by decide) (by decide)
    · rintro (h | h) <;> exact nwPower_on g h (by decide) (by decide)
    · rintro (h | h) <;> exact nwPower_down g h (by decide) (by decide) h1 h3
    · rintro (h | h)
      · exact ⟨runs h 2 (by decide) (by decide), runs h 3 (by decide) (by decide)⟩
      · exact ⟨deep h 2 (by decide) (by decide), deep h 3 (by decide) (by decide)⟩
    · exact (nwPower_deep g h (by decide) (by decide)).trans (if_neg (by simp [hf, he]))
    · exact (nwPower_deep g h (by decide) (by decide)).trans (if_pos (.inr hn))
    · exact ⟨nwPower_cold g h (by decide) (by decide), nwPower_warm g h (by decide) (by decide)⟩
    · rintro (h | h | h) <;> exact nwPower_notRunning g h (by decide) (by decide) (by decide) h4 h6
  · intro n
    have sends : ∀ t, b.txgo v.toNat = t → exec (.nwbTxgo i v) s = .next (after s t) := by
      rintro _ rfl
      exact exec_nwbTxgo hu hi v
    exact ⟨fun h hn hl => sends _ (txgo_sends h hn hl), fun h => sends _ (txgo_stays h)⟩
  · intro fits u
    have fills : ∀ t, b.nwbRx bs = t → exec (.nwbRxMessage bs) s = .next (after s t) := by
      rintro _ rfl
      exact exec_nwbRxMessage hu bs
    exact ⟨fun h => fills _ (nwbRx_fills h rfl), fun h => fills _ (nwbRx_stays h)⟩

end Sys2Proof.Machine
end

section
/-! The clock of the Trellis fabric, case by case: what an edge writes, the steps of holds and releases, the configuration window, and what holds
regions of itself (R393, R398, R407, R411, R413, R525). -/

namespace Sys2Proof.Machine

/-! ### The commands of a powered payload -/

section
variable {s : State} (hu : s.pwr.up = true)
include hu

theorem exec_fabricClockEdge (pins : Nat) : exec (.fabricClockEdge pins) s = .next (after s ((begin s).fabricEdge pins)) := pcmd_next rfl hu _

theorem exec_trellisConfigWrite {i : Init} (hi : i.wf = true) (addr size v : Nat) :
    exec (.trellisConfigWrite i addr size v) s = .next (after s
      (match locate addr with
        | .trlCfg off =>
          let r := (begin s).configWrite i off (leBytes (size % 65) v)
          if r.1 then r.2 else ((begin s).aerr i 4 true false addr).emit .error
        | _ => begin s)) :=
  pcmd_next hi hu _

theorem exec_trunkContention {row trunk : Nat} (hr : row < 256) (ht : trunk < 32) :
    exec (.trunkContention row trunk) s = .next (after s ((begin s).contention (row * 32 + trunk))) :=
  pcmd_next (Bool.and_eq_true_iff.mpr ⟨decide_eq_true hr, decide_eq_true ht⟩) hu _

theorem exec_vioMismatch {v : Nat} (hv : v < 3) {u : State}
    (hw : ({ begin s with pwr := { (begin s).pwr with vioV := v } } : State).wrF Reg.trlStat 25 24 v = u) :
    exec (.vioMismatch v) s = .next (after s (if u.vioBad then u.holdNow 255 else u)) := by
  subst hw
  exact pcmd_next (decide_eq_true hv) hu _

theorem exec_trlRelGo {i : Nat} (hi : i < 4) (v : Word) : exec (.trlRelGo i v) s = .next (after s ((begin s).relWrite v.toNat)) :=
  pcmd_next (decide_eq_true hi) hu _

end

/-! ### The clock edge (R393) -/

section
variable {s now : State}

theorem fabricEdge_stopped (h : s.rdF Reg.trlStat 15 0 = 0) (pins : Nat) : s.fabricEdge pins = s := if_pos h

/-- Any other edge latches the pins and lets the guard act; cells, block memories, ports and trunks change by the values before it, then holds and
the job step. -/
theorem fabricEdge_runs {pins : Nat} (h : s.rdF Reg.trlStat 15 0 ≠ 0) {c m p t : State}
    (hn : ({ s with trl := { s.trl with pins := pins % 2 ^ 96 } } : State).guardAll = now)
    (hc : now.framed.foldl (fun t e => t.cellEdge now e.1 e.2) now = c) (hm : (List.range 256).foldl (fun t n => t.bmEdge now n) c = m)
    (hp : ((List.range 32).foldl (fun t n => t.spEdge now n) m).trunkEdge now = p)
    (ht : ({ p with trl := { p.trl with resp := [], subAck := none, notReady := [] } } : State).forcedEdge.jobEdge = t) :
    s.fabricEdge pins = if (List.range 8).any fun g => t.outsOn g then t.emit (.pins t.pinsOut.1 t.pinsOut.2) else t := by
  subst hn hc hm hp ht
  exact if_neg h

section
variable {c r : Nat}

theorem cellEdge_stands (h : now.runs (regionOf c) = false) : s.cellEdge now c r = s := if_pos (by rw [h]; rfl)

section
variable (h : now.runs (regionOf c) = true) {e : Nat} {v : BitVec 16} (he : now.cellWord c r (now.sig sigDepth (.ctx c r)) = e)
  (hv : BitVec.ofNat 16 (now.sig sigDepth (.res c r)) = v)
include h he hv

/-- A cell of a running region writes its registers by the entry selected, and its sequencer. -/
theorem cellEdge_runs : ∃ seq, s.cellEdge now c r = { s with trl := { s.trl with
    u0 := if tb e 20 then mput (fun _ => BitVec.ofNat 16 (now.cellWord c r 10 / 2 ^ 0)) s.trl.u0 (cellKey c r) v else s.trl.u0
    u1 := if tb e 19 then mput (fun _ => BitVec.ofNat 16 (now.cellWord c r 10 / 2 ^ 16)) s.trl.u1 (cellKey c r) v else s.trl.u1
    q := if tb e 18 then mput (fun _ => BitVec.ofNat 16 (now.cellWord c r 11 / 2 ^ 0)) s.trl.q (cellKey c r) v else s.trl.q
    seq := seq } } := by
  subst he hv
  exact ⟨_, if_neg (by rw [h]; exact Bool.false_ne_true)⟩

end
end
end

/-! ### Holds and releases, step by step (R411) -/

section
variable {s : State}

theorem jobEdge_none (h : s.trl.job = none) : s.jobEdge = s := by
  unfold State.jobEdge
  rw [h]

section
variable {j : TrlJob} (h : s.trl.job = some j)
include h

theorem jobEdge_some : s.jobEdge =
    if 1 < j.count then s.setJob (some { j with count := j.count - 1 })
    else if j.loading then s.jobDone j
    else
      let x := (regions j.mask).foldl (fun s g =>
        if s.trl.forced.any (fun e => e.1 == g) then s else if j.hold then s.holdStep g else s.releaseStep g) s
      if x.jobOver j then x.jobDone j else x.setJob (some { j with count := j.gap }) := by
  unfold State.jobEdge
  rw [h]

theorem jobEdge_waits (hc : 1 < j.count) : s.jobEdge = s.setJob (some { j with count := j.count - 1 }) := (jobEdge_some h).trans (if_pos hc)

section
variable (hc : j.count ≤ 1)
include hc

theorem jobEdge_loaded (hl : j.loading = true) : s.jobEdge = s.jobDone j :=
  (jobEdge_some h).trans ((if_neg (Nat.not_lt.mpr hc)).trans (if_pos hl))

theorem jobEdge_steps (hl : j.loading = false) {x : State}
    (hx : x = (regions j.mask).foldl (fun s g =>
      if s.trl.forced.any (fun e => e.1 == g) then s else if j.hold then s.holdStep g else s.releaseStep g) s) :
    s.jobEdge = if x.jobOver j then x.jobDone j else x.setJob (some { j with count := j.gap }) := by
  subst hx
  exact (jobEdge_some h).trans ((if_neg (Nat.not_lt.mpr hc)).trans (if_neg (ne_true_of_eq_false hl)))

end
end

section
variable {g : Nat}

theorem releaseStep_held (h : s.regionSt g = 2) : s.releaseStep g = (s.unfence g).setRegion g 3 := by
  simp only [State.releaseStep, h]

theorem releaseStep_outputs (h : s.regionSt g = 3) : s.releaseStep g = s.setRegion g 4 := by
  simp only [State.releaseStep, h]

theorem releaseStep_writes (h : s.regionSt g = 4) : s.releaseStep g = s.setRegion g 5 := by
  simp only [State.releaseStep, h]

theorem releaseStep_stays (h : s.regionSt g < 2 ∨ 5 ≤ s.regionSt g) : s.releaseStep g = s := by
  unfold State.releaseStep
  split
  case h_4 => rfl
  all_goals omega

theorem holdStep_running (h : s.regionSt g = 5) : s.holdStep g = (s.regionReset g).setRegion g 4 := by
  simp only [State.holdStep, h]

theorem holdStep_outputs (h : s.regionSt g = 3) : s.holdStep g = (s.fenceRegion g).setRegion g 2 := by
  simp only [State.holdStep, h]

theorem holdStep_stays (h : s.regionSt g < 3) : s.holdStep g = s := by
  unfold State.holdStep
  split
  case h_4 => rfl
  all_goals omega

end

/-! ### The configuration window (R407) -/

section
variable {i : Init} {off : Nat} {bs : List Byte}

/-- The write is a control core's, within the frames of a region that is LOADING. -/
def State.configFits (s : State) (i : Init) (off : Nat) (bs : List Byte) : Prop :=
  (∃ k, i = .ctl k) ∧ bs ≠ [] ∧ off + bs.length ≤ 0x100000 ∧ s.regionSt (off / 0x20000) = 1 ∧ s.regionSt ((off + bs.length - 1) / 0x20000) = 1

/-- The test by which `configWrite` refuses a write. -/
def State.configRefused (s : State) (i : Init) (off : Nat) (bs : List Byte) : Bool :=
  !(match i with | .ctl _ => true | _ => false) || bs.isEmpty || decide (0x100000 < off + bs.length) || s.regionSt (off / 0x20000) ≠ 1 ||
    s.regionSt ((off + bs.length - 1) / 0x20000) ≠ 1

theorem configRefused_iff : s.configRefused i off bs = true ↔ ¬s.configFits i off bs := by
  have hctl : (match i with | .ctl _ => true | _ => false) = true ↔ ∃ k, i = .ctl k := by cases i <;> simp
  unfold State.configRefused State.configFits
  rw [← hctl]
  simp only [Bool.or_eq_true, Bool.not_eq_true', decide_eq_true_eq, List.isEmpty_iff, not_and_or, Bool.not_eq_true, not_not, Nat.not_le, ne_eq,
    or_assoc]

/-- A byte put into the word of a frame. -/
theorem configWrite_eq : s.configWrite i off bs =
    if s.configRefused i off bs then (false, s)
    else (true, (List.range bs.length).foldl (fun s k =>
      let a := off + k
      let x := mget (fun _ => (0 : Word)) s.trl.frames (a / 4)
      { s with trl := { s.trl with
        frames := mput (fun _ => 0) s.trl.frames (a / 4) (BitVec.ofNat 32 (setFld x.toNat (a % 4 * 8 + 7) (a % 4 * 8) (bs.getD k 0).toNat)) } }) s) :=
  rfl

end

section
variable (hu : s.pwr.up = true) {i : Init} (hi : i.wf = true) {addr : Nat} (size v : Nat)
include hu hi

theorem exec_trellisConfigWrite_elsewhere (h : ∀ off, locate addr ≠ .trlCfg off) :
    exec (.trellisConfigWrite i addr size v) s = .next (after s (begin s)) := by
  rw [exec_trellisConfigWrite hu hi]
  split
  · next off e => exact absurd e (h off)
  · rfl

theorem exec_trellisConfigWrite_window {off : Nat} (h : locate addr = .trlCfg off) {ok : Bool} {t : State}
    (hw : (begin s).configWrite i off (leBytes (size % 65) v) = (ok, t)) :
    exec (.trellisConfigWrite i addr size v) s = .next (after s (if ok then t else ((begin s).aerr i 4 true false addr).emit .error)) := by
  rw [exec_trellisConfigWrite hu hi, h]
  dsimp only
  rw [hw]

end

/-! ### Contention, the configuration store and the supply (R398, R413, R525) -/

section
variable {n : Nat}

theorem contention_none (h : s.trl.tapsOff.contains n = true ∨ (s.tapsOn n).length < 2) : s.contention n = s := if_pos h

theorem contention_acts (h : s.trl.tapsOff.contains n = false) (h2 : 2 ≤ (s.tapsOn n).length) {c : State}
    (hc : ({ s with trl := { s.trl with tapsOff := sins s.trl.tapsOff n } } : State).count Reg.trlGuardCnt 1 = c) :
    s.contention n = if c.rdB Reg.trlGuard 31 then c.wrF Reg.trlGuard 30 30 1
      else (c.wr Reg.trlGuard (2 ^ 31 + c.rdF Reg.trlGuard 30 30 * 2 ^ 30 + n / 32 * 256 + n % 32)).wr Reg.trlGuardTime c.now32 := by
  subst hc
  refine if_neg (not_or.mpr ⟨ne_true_of_eq_false h, Nat.not_lt.mpr h2⟩)

end

section
variable (hu : s.pwr.up = true) {g : Nat} (hg : g < 8) (addr : Nat)
include hu hg

theorem exec_configStoreUe_empty (h : (begin s).regionSt g = 0) : exec (.configStoreUe g addr) s = .next (after s (begin s)) :=
  (pcmd_next (decide_eq_true hg) hu _).trans (by rw [if_pos h])

/-- An uncorrectable word holds its region at once, and its column is to be retired where it is not yet. -/
theorem exec_configStoreUe_loaded (h : (begin s).regionSt g ≠ 0) {off : Nat} (ho : g * 0x20000 + addr % 0x20000 = off) {x u : State}
    (hx : ((begin s).holdNow (2 ^ g)).wrF Reg.trlStat 30 30 1 = x)
    (hw : ({ x with trl := { x.trl with cfgBad := sins x.trl.cfgBad g } } : State).ueRecord false 12 g off = u) :
    exec (.configStoreUe g addr) s = .next (after s (if u.unitPending 11 (off / 0x4000) || u.unitOut 11 (off / 0x4000) then u
      else u.pend { kind := 11, unit := off / 0x4000, reason := 1, degrade := false, redisp := 0 })) := by
  subst ho hx hw
  exact (pcmd_next (decide_eq_true hg) hu _).trans (by rw [if_neg h])

end

/-! ### TRL.REL (R411) -/

section
variable {v : Nat} {u : State} (hw : s.wr Reg.trlRel (s.rdF Reg.trlRel 30 30 * 2 ^ 30 + fld v 29 29 * 2 ^ 29 + fld v 23 16 * 2 ^ 16 + v % 65536) = u)
include hw

theorem relWrite_stays (h : tb v 31 = false ∨ u.trl.job.isSome = true) : s.relWrite v = u := by
  subst hw
  refine if_pos ?_
  rw [Bool.or_eq_true, Bool.not_eq_true']
  exact h

/-- GO begins the operation on the regions of the mask that it applies to. -/
theorem relWrite_go (h : tb v 31 = true) (hj : u.trl.job.isSome = false) {mask : Nat}
    (hm : mask = (regions (fld v 23 16)).foldl (fun m g =>
      if (if tb v 29 then decide (3 ≤ u.regionSt g)
        else decide (2 ≤ u.regionSt g) && !u.noRelease g && !u.trl.forced.any fun e => e.1 == g) then m + 2 ^ g else m) 0) :
    s.relWrite v = if mask = 0 then u else u.startJob
      { mask := mask, hold := tb v 29, gap := gapOf (v % 65536), count := 1, image := [], loading := false, autorel := none, unload := false } := by
  subst hw hm
  exact if_neg (by rw [h, hj]; decide)

end
end

end Sys2Proof.Machine
end

section
/-! The ports of the Trellis fabric, case by case: streaming, event, memory and submit ports (R400 to R404, R418). -/

namespace Sys2Proof.Machine

/-! ### The commands of a powered payload -/

section
variable {s : State} (hu : s.pwr.up = true)
include hu

theorem exec_streamWordRx {sp : Nat} (hsp : sp < 32) (w : BitVec 64) :
    exec (.streamWordRx sp w) s = .next (after s ((begin s).streamRx sp w)) :=
  pcmd_next (decide_eq_true hsp) hu _

theorem exec_streamWordTx {sp : Nat} (hsp : sp < 32) : exec (.streamWordTx sp) s = .next (after s ((begin s).streamTx sp)) :=
  pcmd_next (decide_eq_true hsp) hu _

theorem exec_eventPortStrobe {e : Nat} (he : e < 8) (ready : Bool) :
    exec (.eventPortStrobe e ready) s = .next (after s ((begin s).eventPort e ready)) :=
  pcmd_next (decide_eq_true he) hu _

theorem exec_memPortRequest {d : Nat} (hd : d < 4) (ready : Bool) :
    exec (.memPortRequest d ready) s = .next (after s ((begin s).memPortTake d ready)) :=
  pcmd_next (decide_eq_true hd) hu _

theorem exec_memPortResponse {d : Nat} (hd : d < 4) : exec (.memPortResponse d) s = .next (after s ((begin s).memPortAnswer d)) :=
  pcmd_next (decide_eq_true hd) hu _

theorem exec_submitPortStrobe : exec .submitPortStrobe s = .next (after s (begin s).submitPort) := pcmd_next rfl hu _

end

/-! ### Streaming ports (R401) -/

section
variable {s : State} {sp g l : Nat}

theorem streamRx_noLane (h : s.spLane sp = none) (w : BitVec 64) : s.streamRx sp w = s := by
  simp only [State.streamRx, h]

theorem streamTx_noLane (h : s.spLane sp = none) : s.streamTx sp = s := by
  simp only [State.streamTx, h]

/-- The raw lane gives word clocks from CDR lock on. -/
def State.rxClocked (s : State) (g l : Nat) : Prop :=
  s.laneMode g l = 6 ∧ s.laneLive g l = true ∧ 4 ≤ (s.lane g l).own ∧ (s.lane g l).cdr = true

theorem rxClocked_iff :
    ¬(s.laneMode g l ≠ 6 || !s.laneLive g l || (s.lane g l).own < 4 || !(s.lane g l).cdr) = true ↔ s.rxClocked g l := by
  simp only [State.rxClocked, Bool.or_eq_true, Bool.not_eq_true', decide_eq_true_eq, not_or, not_not, ne_eq, Bool.not_eq_false, Nat.not_lt, and_assoc]

/-- The raw lane takes words once its PLL has locked, while its transmitter is awake. -/
def State.txClocked (s : State) (g l : Nat) : Prop :=
  s.laneMode g l = 6 ∧ s.laneLive g l = true ∧ 3 ≤ (s.lane g l).own ∧ s.rdB (Reg.laneCtrl g l) 0 = false

theorem txClocked_iff :
    ¬(s.laneMode g l ≠ 6 || !s.laneLive g l || (s.lane g l).own < 3 || s.rdB (Reg.laneCtrl g l) 0) = true ↔ s.txClocked g l := by
  simp only [State.txClocked, Bool.or_eq_true, Bool.not_eq_true', decide_eq_true_eq, not_or, not_not, ne_eq, Bool.not_eq_false, Nat.not_lt, and_assoc,
    Bool.not_eq_true]

section
variable (h : s.spLane sp = some (g, l))
include h

theorem streamRx_lane (w : BitVec 64) : s.streamRx sp w =
    if s.laneMode g l ≠ 6 || !s.laneLive g l || (s.lane g l).own < 4 || !(s.lane g l).cdr then s
    else if (s.lane g l).skip then s.setLane g l { s.lane g l with skip := false }
    else
      let u := s.wrF (Reg.laneRawctl g l) 31 31 0
      let x := if u.rdB (Reg.laneCtrl g l) 3 then ~~~w else w
      let rx := mget (fun _ => []) u.trl.rx sp
      if rx.length < 64 then { u with trl := { u.trl with rx := mput (fun _ => []) u.trl.rx sp (rx ++ [x]) } }
      else u.count (Reg.trlSpOvf sp) 1 := by
  simp only [State.streamRx, h]

theorem streamRx_unclocked (hc : ¬s.rxClocked g l) (w : BitVec 64) : s.streamRx sp w = s :=
  (streamRx_lane h w).trans (if_pos (not_not.mp (rxClocked_iff.not.mpr hc)))

theorem streamTx_lane : s.streamTx sp =
    if s.laneMode g l ≠ 6 || !s.laneLive g l || (s.lane g l).own < 3 || s.rdB (Reg.laneCtrl g l) 0 then s
    else
      let tx := mget (fun _ => []) s.trl.tx sp
      ({ s with trl := { s.trl with tx := mput (fun _ => []) s.trl.tx sp (tx.drop 1) } } : State).emit
        (.rawWord sp (if s.rdB (Reg.laneCtrl g l) 4 then ~~~(tx.headD 0) else tx.headD 0)) := by
  simp only [State.streamTx, h]

theorem streamTx_unclocked (hc : ¬s.txClocked g l) : s.streamTx sp = s :=
  (streamTx_lane h).trans (if_pos (not_not.mp (txClocked_iff.not.mpr hc)))

theorem streamTx_sends (hc : s.txClocked g l) {tx : List (BitVec 64)} (ht : mget (fun _ => []) s.trl.tx sp = tx) : s.streamTx sp =
    ({ s with trl := { s.trl with tx := mput (fun _ => []) s.trl.tx sp (tx.drop 1) } } : State).emit
      (.rawWord sp (if s.rdB (Reg.laneCtrl g l) 4 then ~~~(tx.headD 0) else tx.headD 0)) := by
  subst ht
  exact (streamTx_lane h).trans (if_neg (txClocked_iff.mpr hc))

section
variable (hc : s.rxClocked g l) (w : BitVec 64)
include hc

theorem streamRx_skips (hs : (s.lane g l).skip = true) : s.streamRx sp w = s.setLane g l { s.lane g l with skip := false } :=
  (streamRx_lane h w).trans ((if_neg (rxClocked_iff.mpr hc)).trans (if_pos hs))

/-- A word enters the FIFO, or is lost where that is full. -/
theorem streamRx_takes (hs : (s.lane g l).skip = false) {u : State} (hu : s.wrF (Reg.laneRawctl g l) 31 31 0 = u) {rx : List (BitVec 64)}
    (hr : mget (fun _ => []) u.trl.rx sp = rx) : s.streamRx sp w =
    if rx.length < 64 then
      { u with trl := { u.trl with rx := mput (fun _ => []) u.trl.rx sp (rx ++ [if u.rdB (Reg.laneCtrl g l) 3 then ~~~w else w]) } }
    else u.count (Reg.trlSpOvf sp) 1 := by
  subst hu hr
  exact (streamRx_lane h w).trans ((if_neg (rxClocked_iff.mpr hc)).trans (if_neg (ne_true_of_eq_false hs)))

end
end
end

/-! ### Event ports (R402) -/

section
variable {s u : State} {e : Nat} {ready : Bool}
  (hw : ({ s with trl := { s.trl with notReady := if ready then sdel s.trl.notReady e else sins s.trl.notReady e } } : State) = u)
include hw

theorem eventPort_eq : s.eventPort e ready =
    if !u.wesOpen e || u.cellQ (8 * e + 7) 128 % 2 = 0 then u
    else if !ready then u.count Reg.trlEvdrop 1
    else u.post (u.rdF (Reg.trlEvp e) 13 0) (u.cellQ (8 * e + 7) 129 + u.cellQ (8 * e + 7) 130 * 65536) := by
  subst hw
  rfl

theorem eventPort_quiet (h : ¬(u.wesOpen e = true ∧ u.cellQ (8 * e + 7) 128 % 2 ≠ 0)) : s.eventPort e ready = u := by
  refine (eventPort_eq hw).trans (if_pos ?_)
  rw [Bool.or_eq_true, Bool.not_eq_true', decide_eq_true_iff, ← Bool.not_eq_true]
  exact (Decidable.not_and_iff_or_not.mp h).imp_right not_not.mp

theorem eventPort_strobe (h : u.wesOpen e = true ∧ u.cellQ (8 * e + 7) 128 % 2 ≠ 0) : s.eventPort e ready =
    if !ready then u.count Reg.trlEvdrop 1
    else u.post (u.rdF (Reg.trlEvp e) 13 0) (u.cellQ (8 * e + 7) 129 + u.cellQ (8 * e + 7) 130 * 65536) := by
  obtain ⟨ho, hq⟩ := h
  exact (eventPort_eq hw).trans (if_neg (by simp only [ho, hq, Bool.not_true, decide_false, Bool.or_self, Bool.false_eq_true, not_false_iff]))

end

/-! ### Memory ports (R400, R403, R418) -/

/-- The port takes what its cells present. -/
def State.portTakes (s : State) (d : Nat) (ready : Bool) : Prop :=
  ready = true ∧ s.wesOpen (2 * d) = true ∧ s.cellQ (16 * d + 7) 192 % 2 ≠ 0 ∧ (s.portReqs d).length < 16

theorem portTakes_iff {s : State} {d : Nat} {ready : Bool} :
    ¬(!ready || !s.wesOpen (2 * d) || s.cellQ (16 * d + 7) 192 % 2 = 0 || decide (16 ≤ (s.portReqs d).length)) = true ↔ s.portTakes d ready := by
  simp only [State.portTakes, Bool.or_eq_true, Bool.not_eq_true', decide_eq_true_eq, not_or, ne_eq, Bool.not_eq_false, Nat.not_le, and_assoc]

section
variable {s u : State} {d : Nat} {ready : Bool}
  (hw : ({ s with trl := { s.trl with notReady := if ready then sdel s.trl.notReady (8 + d) else sins s.trl.notReady (8 + d) } } : State) = u)
include hw

theorem memPortTake_eq : s.memPortTake d ready =
    if !ready || !u.wesOpen (2 * d) || u.cellQ (16 * d + 7) 192 % 2 = 0 || decide (16 ≤ (u.portReqs d).length) then u
    else u.setPortReqs d (u.portReqs d ++ [u.portRequest d]) := by
  subst hw
  rfl

theorem memPortTake_takes (h : u.portTakes d ready) : s.memPortTake d ready = u.setPortReqs d (u.portReqs d ++ [u.portRequest d]) :=
  (memPortTake_eq hw).trans (if_neg (portTakes_iff.mpr h))

theorem memPortTake_stays (h : ¬u.portTakes d ready) : s.memPortTake d ready = u :=
  (memPortTake_eq hw).trans (if_pos (not_not.mp (portTakes_iff.not.mpr h)))

end

section
variable {s : State} {d : Nat}

theorem memPortAnswer_stays (h : s.portReqs d = [] ∨ s.dpResp d ≠ none) : s.memPortAnswer d = s := by
  unfold State.memPortAnswer
  split
  · next q qs hq hr => exact absurd h (not_or.mpr ⟨hq ▸ List.cons_ne_nil q qs, not_not_intro hr⟩)
  · rfl

section
variable {q : MemPortReq} {qs : List MemPortReq} (hq : s.portReqs d = q :: qs) (hr : s.dpResp d = none)
include hq hr

theorem memPortAnswer_waits (hw : s.dramWaits q.write q.addr q.size = true) : s.memPortAnswer d = s := by
  simp only [State.memPortAnswer, hq, hr, hw, if_true]

/-- The oldest request is performed, and its response is shown unless its region has been held. -/
theorem memPortAnswer_performs (hw : s.dramWaits q.write q.addr q.size = false) {r : Nat × Bool} {v : State}
    (hv : (s.setPortReqs d qs).memPortDo d q = (r, v)) : s.memPortAnswer d =
    if q.discard then v else { v with trl := { v.trl with resp := mput (fun _ => none) v.trl.resp d (some r) } } := by
  simp only [State.memPortAnswer, hq, hr, hw, hv, Bool.false_eq_true, if_false]

end
end

section
variable {s v : State} {q : MemPortReq} (d : Nat)

section
variable (h : q.write = false)
include h

theorem memPortDo_reads {bs : List Byte} (hr : s.devRead .trl q.addr q.size = (.ok bs, v)) : s.memPortDo d q = ((ofLe bs, false), v) := by
  simp only [State.memPortDo, h, hr, Bool.false_eq_true, if_false]

theorem memPortDo_readError {e : Nat} (hr : s.devRead .trl q.addr q.size = (.err e, v)) : s.memPortDo d q = ((0, true), v.portError d q.addr) := by
  simp only [State.memPortDo, h, hr, Bool.false_eq_true, if_false]

end

section
variable (h : q.write = true)
include h

theorem memPortDo_csr (hc : inCsr q.addr = true) : s.memPortDo d q =
    ((2 ^ 64, true), (s.aerr .trl (if q.size = 4 then 4 else 2) true false q.addr).portError d q.addr) := by
  simp only [State.memPortDo, h, hc, if_true]

section
variable (hc : inCsr q.addr = false)
include hc

theorem memPortDo_writes (hr : s.devWrite .trl q.addr q.data = (.ok, v)) : s.memPortDo d q = ((2 ^ 64, false), v) := by
  simp only [State.memPortDo, h, hc, hr, Bool.false_eq_true, if_true, if_false]

theorem memPortDo_writeError {e : Nat} (hr : s.devWrite .trl q.addr q.data = (.err e, v)) :
    s.memPortDo d q = ((2 ^ 64, true), v.portError d q.addr) := by
  simp only [State.memPortDo, h, hc, hr, Bool.false_eq_true, if_true, if_false]

end
end
end

/-! ### The submit port (R404) -/

section
variable {s : State}

/-- The fabric strobes a submit port that holds and acknowledges nothing. -/
def State.subStrobe (s : State) : Prop := s.wesOpen 7 = true ∧ s.cellQ 63 136 % 2 ≠ 0 ∧ s.trl.subHeld = false ∧ s.trl.subAck = none

theorem subStrobe_iff : ¬(!s.wesOpen 7 || s.cellQ 63 136 % 2 = 0 || s.trl.subHeld || s.trl.subAck.isSome) = true ↔ s.subStrobe := by
  simp only [State.subStrobe, Bool.or_eq_true, Bool.not_eq_true', decide_eq_true_eq, not_or, ne_eq, Bool.not_eq_false, Bool.not_eq_true,
    Option.isSome_eq_false_iff, Option.isNone_iff_eq_none, and_assoc]

section
variable {a : Nat} (ha : s.cellQ 63 137 + s.cellQ 63 138 * 65536 + s.cellQ 63 139 * 2 ^ 32 = a)
include ha

theorem submitPort_stays (h : ¬s.subStrobe ∨ s.dramWaits false a 32 = true) : s.submitPort = s := by
  subst ha
  unfold State.submitPort
  split
  · rfl
  · next hs =>
    rcases h with h | h
    · exact absurd (subStrobe_iff.mp hs) h
    · exact if_pos h

section
variable (h : s.subStrobe) (hw : s.dramWaits false a 32 = false) {u : State}
include h hw

theorem submitPort_holds {bs : List Byte} (hr : s.busRead .trl a 32 = (.ok bs, u)) :
    s.submitPort = ({ u with trl := { u.trl with subHeld := true } } : State).hold .trellis (wordsOf bs) false := by
  subst ha
  simp only [State.submitPort, if_neg (subStrobe_iff.mpr h), hw, hr, Bool.false_eq_true, if_false]

theorem submitPort_fails {r : RdRes} (hr : s.busRead .trl a 32 = (r, u)) (hn : ∀ bs, r ≠ .ok bs) : s.submitPort = u := by
  subst ha
  cases r with
  | ok bs => exact absurd rfl (hn bs)
  | err | ue => simp only [State.submitPort, if_neg (subStrobe_iff.mpr h), hw, hr, Bool.false_eq_true, if_false]

end
end
end

/-- Settles O55: each command is one operation of the fabric or of one of its ports, and each clause is one case of it. -/
theorem fabricData : Obligations.FabricData := by
  intro s hu b
  refine ⟨fun pins => ?_, fun w now c r => ?_, fun w => ?_, fun i addr size v hi => ?_, fun w i off bs => ?_, fun row trunk hr ht => ?_,
    fun g addr hg => ?_, fun v hv => ?_, fun sp w hsp => ?_, fun sp hsp => ?_, fun e ready he => ?_, fun d ready hd => ?_, fun d hd => ?_,
    fun w d q => ?_, ?_, fun i v hi => ?_⟩
  · intro gives now c m p t
    have edges : ∀ r, b.fabricEdge pins = r → gives r := by
      rintro _ rfl
      exact exec_fabricClockEdge hu pins
    refine ⟨fun h => edges _ (fabricEdge_stopped h pins), fun h => ?_⟩
    have hedge := fabricEdge_runs (now := now) (c := c) (m := m) (p := p) (t := t) h rfl rfl rfl rfl rfl
    exact gives_of_flag edges hedge
  · intro key e v x
    refine ⟨cellEdge_stands, fun h => ?_⟩
    obtain ⟨seq, hx⟩ := cellEdge_runs (s := w) h (e := e) (v := v) rfl rfl
    have hx : x = _ := hx
    rw [hx]
    exact ⟨fun h => if_pos h, fun h => if_neg (ne_true_of_eq_false h), fun h => if_pos h, fun h => if_neg (ne_true_of_eq_false h),
      fun h => if_pos h, fun h => if_neg (ne_true_of_eq_false h), rfl⟩
  · refine ⟨jobEdge_none, fun j h => ⟨jobEdge_waits h, jobEdge_loaded h, fun hc hl x hx => ?_⟩, fun g => ⟨fun h => ?_, fun h => ?_, releaseStep_writes,
      fun h => ?_, fun h => ?_⟩⟩
    · rw [jobEdge_steps h hc hl hx]
      exact ⟨fun h => if_pos h, fun h => if_neg (ne_true_of_eq_false h)⟩
    · exact ⟨releaseStep_held h, holdStep_stays (by omega)⟩
    · exact ⟨releaseStep_outputs h, holdStep_outputs h⟩
    · exact ⟨releaseStep_stays (by omega), holdStep_running h⟩
    · exact ⟨releaseStep_stays (by omega), holdStep_stays (by omega)⟩
  · intro gives
    refine ⟨exec_trellisConfigWrite_elsewhere hu hi size v, fun off h ok t hw => ?_⟩
    have hx := exec_trellisConfigWrite_window hu hi size v h hw
    exact ⟨fun hok => by rw [if_pos hok] at hx; exact hx, fun hok => by rw [if_neg (ne_true_of_eq_false hok)] at hx; exact hx⟩
  · intro fit
    rw [configWrite_eq]
    exact ⟨fun h => if_pos (configRefused_iff.mpr h), fun h => if_neg (configRefused_iff.not.mpr (not_not_intro h))⟩
  · intro gives n c
    have guards : ∀ r, b.contention n = r → gives r := by
      rintro _ rfl
      exact exec_trunkContention hu hr ht
    exact ⟨fun h => guards _ (contention_none h), fun h h2 => gives_of_flag guards (contention_acts h h2 rfl)⟩
  · intro gives off h u taken
    refine ⟨exec_configStoreUe_empty hu hg addr, fun hl => ?_⟩
    have hx := exec_configStoreUe_loaded hu hg addr hl (off := off) (u := u) rfl rfl rfl
    refine ⟨fun ht => ?_, fun ht => ?_⟩
    · rw [if_pos (Bool.or_eq_true_iff.mpr ht)] at hx
      exact hx
    · rw [if_neg (mt Bool.or_eq_true_iff.mp ht)] at hx
      exact hx
  · intro gives u
    have hx := exec_vioMismatch hu hv (u := u) rfl
    exact ⟨fun h => by rw [if_pos h] at hx; exact hx, fun h => by rw [if_neg (ne_true_of_eq_false h)] at hx; exact hx⟩
  · intro gives
    have words : ∀ r, b.streamRx sp w = r → gives r := by
      rintro _ rfl
      exact exec_streamWordRx hu hsp w
    refine ⟨fun h => words _ (streamRx_noLane h w), fun g l h => ?_⟩
    intro x clocked u rx
    exact ⟨fun hc => words _ (streamRx_unclocked h hc w), fun hc hs => words _ (streamRx_skips h hc w hs), fun hc hs =>
      ((gives_of_ite words (streamRx_takes h hc w hs rfl rfl)).imp id fun hf hn => hf (Nat.not_lt.mpr hn)).symm⟩
  · intro gives
    have words : ∀ r, b.streamTx sp = r → gives r := by
      rintro _ rfl
      exact exec_streamWordTx hu hsp
    exact ⟨fun h => words _ (streamTx_noLane h), fun g l h => ⟨fun hc => words _ (streamTx_unclocked h hc), fun hc =>
      words _ (streamTx_sends h hc rfl)⟩⟩
  · intro gives u strobe
    have events : ∀ r, b.eventPort e ready = r → gives r := by
      rintro _ rfl
      exact exec_eventPortStrobe hu he ready
    refine ⟨fun h => events _ (eventPort_quiet rfl h), fun h hr => ?_, fun h hr => ?_⟩
    · exact events _ ((eventPort_strobe rfl h).trans (if_pos (by rw [hr]; rfl)))
    · exact events _ ((eventPort_strobe rfl h).trans (if_neg (by rw [hr]; exact Bool.false_ne_true)))
  · intro gives u taken
    have requests : ∀ r, b.memPortTake d ready = r → gives r := by
      rintro _ rfl
      exact exec_memPortRequest hu hd ready
    exact ⟨fun h => requests _ (memPortTake_takes rfl h), fun h => requests _ (memPortTake_stays rfl h)⟩
  · intro gives
    have answers : ∀ r, b.memPortAnswer d = r → gives r := by
      rintro _ rfl
      exact exec_memPortResponse hu hd
    exact ⟨fun h => answers _ (memPortAnswer_stays h), fun q qs hq hr => ⟨fun hw => answers _ (memPortAnswer_waits hq hr hw), fun hw r v hv =>
      gives_of_flag answers (memPortAnswer_performs hq hr hw hv)⟩⟩
  · refine ⟨fun h r v hr => ⟨?_, ?_⟩, memPortDo_csr d, fun h hc r v hr => ⟨?_, ?_⟩⟩
    · rintro bs rfl
      exact memPortDo_reads d h hr
    · rintro e rfl
      exact memPortDo_readError d h hr
    · rintro rfl
      exact memPortDo_writes d h hc hr
    · rintro e rfl
      exact memPortDo_writeError d h hc hr
  · intro gives a strobe
    have submits : ∀ r, b.submitPort = r → gives r := by
      rintro _ rfl
      exact exec_submitPortStrobe hu
    refine ⟨fun h => submits _ (submitPort_stays rfl h), fun h hw r u hr => ⟨?_, fun hn => submits _ (submitPort_fails rfl h hw hr hn)⟩⟩
    rintro bs rfl
    exact submits _ (submitPort_holds rfl h hw hr)
  · intro gives u
    have rels : ∀ r, b.relWrite v.toNat = r → gives r := by
      rintro _ rfl
      exact exec_trlRelGo hu hi v
    exact ⟨fun h => rels _ (relWrite_stays rfl h), fun h hj mask hm => gives_of_ite rels (relWrite_go rfl h hj hm)⟩

end Sys2Proof.Machine
end

section
/-! The Headroom manager, case by case: modes (R419 to R422), EFF and the active set (R423, R424, R426), moves (R425), prestages
(R427, R428) and the voltage loop (R430, R431, R524, R532). -/

namespace Sys2Proof.Machine

/-! ### The commands of a powered payload -/

section
variable {s : State} (hu : s.pwr.up = true)
include hu

theorem exec_hctrlModeWrite {i : Nat} (hi : i < 4) (v : Word) :
    exec (.hctrlModeWrite i v) s = .next (after s ((begin s).hctrlWrite v.toNat)) :=
  pcmd_next (decide_eq_true hi) hu _

theorem exec_shieldReady : exec .shieldReady s = .next (after s (begin s).shieldReady) := pcmd_next rfl hu _

theorem exec_effEvaluate (busy : List Nat) : exec (.effEvaluate busy) s = .next (after s ((begin s).effEvaluate busy)) := pcmd_next rfl hu _

theorem exec_taskMove {sl d : Nat} (hs : sl < 131072) (hd : d < 12) : exec (.taskMove sl d) s = .next (after s ((begin s).taskMove sl d)) :=
  pcmd_next (Bool.and_eq_true_iff.mpr ⟨decide_eq_true hs, decide_eq_true hd⟩) hu _

theorem exec_prestageEnd {sl : Nat} (hs : sl < 131072) : exec (.prestageEnd sl) s = .next (after s ((begin s).prestageEnd sl)) :=
  pcmd_next (decide_eq_true hs) hu _

theorem exec_slackReport (slack : List Int) : exec (.slackReport slack) s = .next (after s ((begin s).slackReport slack)) := pcmd_next rfl hu _

theorem exec_voltageStep : exec .voltageStep s = .next (after s (begin s).voltageStep) := pcmd_next rfl hu _

theorem exec_choldClear {i c : Nat} (hi : i < 4) (hc : c < 12) (v : Word) : exec (.choldClear i c v) s =
    .next (after s ((begin s).wr (Reg.rsvChold c) (fld ((begin s).rd (Reg.rsvChold c) &&& (2 ^ 32 - 1 - v.toNat)) 7 0))) :=
  pcmd_next (Bool.and_eq_true_iff.mpr ⟨decide_eq_true hi, decide_eq_true hc⟩) hu _

end

/-! ### Modes (R419 to R422) -/

section
variable {s : State} {m : Nat}

theorem setMode_same (h : s.mode = m) : s.setMode m = s := if_pos h

section
variable (h : s.mode ≠ m)
include h

theorem setMode_shield (hm : m = 1) {u : State} (hw : (s.wrF Reg.rsvHctrl 0 0 1).wrF Reg.rsvHctrl 30 30 1 = u) :
    s.setMode m = u.clusters.foldl (fun s c => s.wakeCluster c) u := by
  subst hw
  exact (if_neg h).trans (if_pos hm)

theorem setMode_consolidate (hm : m ≠ 1) {u : State}
    (hw : ((s.wrF Reg.rsvHctrl 0 0 0).wrF Reg.rsvHctrl 30 30 0).wrF Reg.rsvHctrl 31 31 0 = u) : s.setMode m =
    { u with rsv := { u.rsv with active := 0 :: ((List.range 11).map (· + 1)).filter u.pinnedHome, lowSince := [] } } := by
  subst hw
  exact (if_neg h).trans (if_neg hm)

end

theorem hctrlWrite_eq {w : State} {v : Nat} (hw : s.setMode (v % 2) = w) :
    s.hctrlWrite v = if w.rsv.target = some 0 ∧ w.mode = 0 then w.endChange else w := by
  subst hw
  rfl

theorem shieldReady_stays (h : s.mode ≠ 1 ∨ s.rdB Reg.rsvHctrl 30 = false) : s.shieldReady = s :=
  if_neg fun ⟨hm, hb⟩ => h.elim (· hm) (ne_true_of_eq_false · hb)

theorem shieldReady_ends (hm : s.mode = 1) (hb : s.rdB Reg.rsvHctrl 30 = true) {u : State}
    (hw : (s.wrF Reg.rsvHctrl 30 30 0).wrF Reg.rsvHctrl 31 31 1 = u) :
    s.shieldReady = if u.rsv.target = some 1 then (u.wrF Reg.cmCtrl 8 8 1).endChange else u := by
  subst hw
  exact if_pos ⟨hm, hb⟩

end

/-! ### EFF and the active set (R423, R424, R426) -/

section
variable {s t : State} {c n eff : Nat}

section
variable (he : s.effOf c n = eff) (hs : s.showEff c n eff = t)
include he hs

theorem evalCluster_eq : s.evalCluster c n = if t.mode = 1 ∨ c = 0 ∨ !t.rsv.active.contains c then t else t.packCluster c eff := by
  subst he hs
  rfl

theorem evalCluster_shows (h : t.mode = 1 ∨ c = 0 ∨ t.rsv.active.contains c = false) : s.evalCluster c n = t :=
  (evalCluster_eq he hs).trans (if_pos (h.imp_right (Or.imp_right fun ha => by rw [ha]; rfl)))

theorem evalCluster_packs (hm : t.mode ≠ 1) (hc : c ≠ 0) (ha : t.rsv.active.contains c = true) : s.evalCluster c n = t.packCluster c eff :=
  (evalCluster_eq he hs).trans (if_neg (by simp only [hm, hc, ha, Bool.not_true, Bool.false_eq_true, or_self, not_false_iff]))

end

section
variable {idle low : Nat} (hi : s.rdF Reg.rsvPtime 31 16 = idle) (hl : s.lowCount c eff = low)
  (ht : ({ s with rsv := { s.rsv with lowSince := mput (fun _ => 0) s.rsv.lowSince c (min low (idle + 1)) } } : State) = t)
include hi hl ht

/-- The cluster has been below PACK_LO for at most IDLE_US. -/
theorem packCluster_counts (h : low ≤ idle) : s.packCluster c eff = t := by
  subst hi hl ht
  exact if_pos h

section
variable (h : idle < low)
include h

/-- A pin keeps the cluster: a conflict, the first time. -/
theorem packCluster_pinned (hp : t.pinnedHome c = true) :
    s.packCluster c eff = if mget (fun _ => 0) s.rsv.lowSince c ≤ idle then t.conflict 1 1 c else t := by
  subst hi hl ht
  exact (if_neg (Nat.not_le.mpr h)).trans (if_pos hp)

theorem packCluster_leaves (hp : t.pinnedHome c = false) : s.packCluster c eff =
    { t with rsv := { t.rsv with active := sdel t.rsv.active c, lowSince := mput (fun _ => 0) t.rsv.lowSince c 0 } } := by
  subst hi hl ht
  exact (if_neg (Nat.not_le.mpr h)).trans (if_neg (ne_true_of_eq_false hp))

end
end
end

/-! ### Moves (R425) -/

section
variable {s : State} {sl d : Nat}

theorem taskMove_none (h : s.task? sl = none) : s.taskMove sl d = s := by
  simp only [State.taskMove, h]

section
variable {t : Task} (h : s.task? sl = some t)
include h

theorem taskMove_moves (hm : s.mayMove t d = true) :
    s.taskMove sl d = ((s.setTask sl (some { t with cluster := d })).setHome (dFlow t.words) d).tally 1 d 4 1 := by
  simp only [State.taskMove, h, hm, Bool.not_true, Bool.false_eq_true, if_false]

theorem taskMove_stays (hm : s.mayMove t d = false) : s.taskMove sl d = s := by
  simp only [State.taskMove, h, hm, Bool.not_false, if_true]

end

/-- The conditions of a move, one by one. -/
theorem mayMove_iff {t : Task} : s.mayMove t d = true ↔
    t.st = .queued ∧ dClass t.words = 12 ∧ t.cluster ≠ d ∧ (s.flow (dFlow t.words)).pin = false ∧ (s.prestageEntry (dFlow t.words)).1 = none ∧
    t.since + s.rdF Reg.rsvPtime 15 0 * 1000 * 2 ^ 32 < s.cen.clock ∧ (s.mode = 0 → s.rsv.active.contains d = true) ∧ s.rdF (Reg.pwrCl d) 3 0 = 0 ∧
    (∃ k, k < 8 ∧ s.coreIn d k = true ∧ (s.core d k).st = .waiting) ∧
    ∀ e ∈ s.taskList, ¬(e.2.st = .queued ∧ dPrio e.2.words ≤ dPrio t.words ∧ (dClass e.2.words = d ∨ (dClass e.2.words = 12 ∧ e.2.cluster = d))) := by
  simp only [State.mayMove, Bool.and_eq_true, Bool.not_eq_true', Bool.if_true_right, Bool.or_eq_true, decide_eq_true_eq, beq_iff_eq,
    List.any_eq_true, List.any_eq_false, List.mem_range, and_assoc, decide_eq_false_iff_not, Decidable.imp_iff_not_or]

end

/-! ### Prestages (R427, R428) -/

section
variable {s : State} {p : Prestage}

section
variable {u : State} (hw : ({ s with rsv := { s.rsv with prestage := s.rsv.prestage.filter fun q => decide (q ≠ p) } } : State) = u)
include hw

theorem prestageOver_done (h : p.result = some true) : s.prestageOver p =
    if (u.flow p.flow).home = p.cluster then { u with rsv := { u.rsv with staged := u.rsv.staged ++ [(p.flow, p.cluster)] } } else u := by
  subst hw
  exact if_pos h

theorem prestageOver_failed (h : p.result ≠ some true) : s.prestageOver p = (u.setHome p.flow 15).tally 1 p.cluster 6 1 := by
  subst hw
  exact if_neg h

end

theorem prestageFor_iff {t : Task} : prestageFor p t = true ↔ t.prestage = true ∧ t.st = .held ∧ dFlow t.words = p.flow := by
  simp only [prestageFor, Bool.and_eq_true, beq_iff_eq, decide_eq_true_eq, and_assoc]

section
variable {sl : Nat}

theorem prestageEnd_none (h : (s.rsv.prestage.find? fun p => decide (p.slot = sl) && p.result.isSome) = none) : s.prestageEnd sl = s := by
  simp only [State.prestageEnd, h]

section
variable (h : (s.rsv.prestage.find? fun p => decide (p.slot = sl) && p.result.isSome) = some p) {u : State} (hw : s.prestageOver p = u)
include h hw

theorem prestageEnd_noTask (ht : u.task? sl = none) : s.prestageEnd sl = u := by
  simp only [State.prestageEnd, h, hw, ht]

section
variable {t : Task} (ht : u.task? sl = some t)
include ht

theorem prestageEnd_task : s.prestageEnd sl =
    if !prestageFor p t then u else if p.result = some true then u.enqueue sl t p.cluster else u.commit sl 1 0 0xFE := by
  simp only [State.prestageEnd, h, hw, ht]

theorem prestageEnd_other (hf : prestageFor p t = false) : s.prestageEnd sl = u :=
  (prestageEnd_task h hw ht).trans (if_pos (by rw [hf]; rfl))

/-- The task that waits for the prestage enters its FIFO, or commits FAULT. -/
theorem prestageEnd_ends (hf : prestageFor p t = true) :
    s.prestageEnd sl = if p.result = some true then u.enqueue sl t p.cluster else u.commit sl 1 0 0xFE :=
  (prestageEnd_task h hw ht).trans (if_neg (by rw [hf]; exact Bool.false_ne_true))

end
end
end
end

/-! ### The voltage loop (R430, R431) -/

section
variable {s v : State} {c : Nat}

section
variable {x : Int} (hv : s.wr (Reg.rsvVlSlack c) (min 255 x.toNat) = v)
include hv

theorem slackOne_stretched (h : v.rdB (Reg.rsvVlVstat c) 30 = true) :
    s.slackOne c x = if 40 ≤ x then v.wrF (Reg.rsvVlVstat c) 30 30 0 else v := by
  subst hv
  exact if_pos h

theorem slackOne_runs (h : v.rdB (Reg.rsvVlVstat c) 30 = false) {e : State}
    (he : ((v.wrF (Reg.rsvVlVstat c) 30 30 1).count (Reg.rsvVlEmerg c) 1).tally 1 c 7 1 = e) :
    s.slackOne c x = if x < 10 then e.setTarget c (min 880 (e.targetV c + 25)) else v := by
  subst hv he
  exact if_neg (ne_true_of_eq_false h)

end

theorem setTarget_eq {n f : Nat} (hf : s.fixedV c = f) {t : State} (ht : (s.wrF (Reg.rsvVlVstat c) 9 0 n).gauge 1 c 9 n = t) :
    s.setTarget c n = if f ≠ 0 ∧ f < n ∧ s.targetV c < n then t.conflict 0 2 c else t := by
  subst hf ht
  rfl

theorem mayRaise_iff : s.mayRaise c = true ↔ s.rdB Reg.sysTemp 31 = false ∧ s.pwr.cooling.contains c = false ∧ s.pwr.avsFail = false := by
  simp only [State.mayRaise, Bool.and_eq_true, Bool.not_eq_true', and_assoc]

section
variable {a : State} {fl t : Nat} (ha : s.ageCluster c = a) (hf : a.floorOf c = fl) (ht : a.targetV c = t)
  (hv : a.wrF (Reg.rsvVlVstat c) 25 16 fl = v)
include ha hf ht hv

section
variable (h : a.rdF (Reg.rsvVlSlack c) 7 0 < 40)
include h

theorem voltageOne_rises (hm : t < 880) : s.voltageOne c = v.setTarget c (max fl (min 880 (t + 5))) := by
  subst ha hf ht hv
  exact (if_pos h).trans (if_pos hm)

/-- No voltage above 880 mV: the frequency falls. -/
theorem voltageOne_slows (hm : 880 ≤ t) {z : State} (hz : v.slower c = z) :
    s.voltageOne c = if z.freqOf c < z.wantFreq c then z.conflict 0 3 c else z := by
  subst ha hf ht hv hz
  exact (if_pos h).trans (if_neg (Nat.not_lt.mpr hm))

end

section
variable (h : 40 ≤ a.rdF (Reg.rsvVlSlack c) 7 0)
include h

theorem voltageOne_toFloor (hm : t < fl) : s.voltageOne c = v.setTarget c fl := by
  subst ha hf ht hv
  exact (if_neg (Nat.not_lt.mpr h)).trans (if_pos hm)

section
variable (hm : fl ≤ t)
include hm

theorem voltageOne_keeps (h2 : a.rdF (Reg.rsvVlSlack c) 7 0 ≤ 70) : s.voltageOne c = v := by
  subst ha hf ht hv
  exact (if_neg (Nat.not_lt.mpr h)).trans ((if_neg (Nat.not_lt.mpr hm)).trans (if_neg (Nat.not_lt.mpr h2)))

/-- With slack to spare the frequency returns, and an adaptive target falls. -/
theorem voltageOne_relaxes (h2 : 70 < a.rdF (Reg.rsvVlSlack c) 7 0) {r : State}
    (hr : (if v.freqOf c < v.wantFreq c ∧ v.mayRaise c = true then v.setFreq c (min (v.wantFreq c) (v.freqOf c + 100)) else v) = r) :
    s.voltageOne c = if r.fixedV c = 0 ∧ fl < t then r.setTarget c (max fl (t - 5)) else r := by
  subst ha hf ht hv hr
  exact (if_neg (Nat.not_lt.mpr h)).trans ((if_neg (Nat.not_lt.mpr hm)).trans (if_pos h2))

end
end
end
end

end Sys2Proof.Machine
end

section
/-! The Reserve, case by case: the start of a retirement (R435, R438, R439, R441), DRAIN_TIMEOUT and the remap (R436), and the scheduler
store (R440); with the Headroom manager's part it settles O56. -/

namespace Sys2Proof.Machine

/-! ### The commands of a powered payload -/

section
variable {s : State} (hu : s.pwr.up = true)
include hu

theorem exec_retireWear {kind : Nat} (hk : kind < 14) (unit : Nat) :
    exec (.retireWear kind unit) s = .next (after s ((begin s).retireWear kind unit)) :=
  pcmd_next (decide_eq_true hk) hu _

theorem exec_drainTimeout {kind : Nat} (hk : kind < 14) (unit : Nat) :
    exec (.drainTimeout kind unit) s = .next (after s ((begin s).drainTimeout kind unit)) :=
  pcmd_next (decide_eq_true hk) hu _

theorem exec_remap {kind : Nat} (hk : kind < 14) (unit spare : Nat) :
    exec (.remap kind unit spare) s = .next (after s ((begin s).remap kind unit spare)) :=
  pcmd_next (decide_eq_true hk) hu _

theorem exec_schedStoreUe {sl : Nat} (hs : sl < 131072) (row : Nat) (both : Bool) :
    exec (.schedStoreUe sl row both) s = .next (after s ((begin s).schedStoreUe sl row both)) :=
  pcmd_next (decide_eq_true hs) hu _

end

/-! ### The start of a retirement (R435, R438, R439, R441) -/

section
variable {s : State} {kind unit : Nat}

/-- The row of a populated DRAM address that has worn and is not listed yet. -/
def State.rowWears (s : State) (a : Nat) : Prop := locate a = .dram ∧ a < dramBase + s.dramCap ∧ s.rowListed a = false ∧ s.worn 12 a = true

theorem rowWears_iff {a : Nat} :
    ¬(locate a != .dram || decide (dramBase + s.dramCap ≤ a) || s.rowListed a || !s.worn 12 a) = true ↔ s.rowWears a := by
  simp only [State.rowWears, Bool.or_eq_true, bne_iff_ne, ne_eq, decide_eq_true_eq, Bool.not_eq_true', not_or, not_not, Nat.not_le,
    Bool.not_eq_true, Bool.not_eq_false, and_assoc]

theorem retireWear_row (hk : kind = 12) (h : s.rowWears unit) : s.retireWear kind unit = s.retireRow unit 0 :=
  (if_pos hk).trans (if_neg (rowWears_iff.mpr h))

theorem retireWear_noRow (hk : kind = 12) (h : ¬s.rowWears unit) : s.retireWear kind unit = s :=
  (if_pos hk).trans (if_pos (not_not.mp (rowWears_iff.not.mpr h)))

theorem retireWear_shared (hk : kind = 0 ∧ 96 ≤ unit ∧ unit < 108) : s.retireWear kind unit = s.degrade 0 unit :=
  (if_neg (by omega)).trans (if_pos hk)

section
variable (hk : kind ≠ 12) (hs : ¬(kind = 0 ∧ 96 ≤ unit ∧ unit < 108))
include hk hs

theorem retireWear_gone (h : kindHas kind unit = false ∨ s.unitPending kind unit = true ∨ s.unitOut kind unit = true) :
    s.retireWear kind unit = s :=
  (if_neg hk).trans ((if_neg hs).trans (if_pos (by
    simpa only [Bool.or_eq_true, Bool.not_eq_true', or_assoc] using h)))

section
variable (hh : kindHas kind unit = true) (hp : s.unitPending kind unit = false) (ho : s.unitOut kind unit = false) {m : State}
  (hm : s.measureAge kind unit = m)
include hh hp ho hm

/-- A unit in service whose aging has been measured. -/
theorem retireWear_measured : s.retireWear kind unit =
    if !m.worn kind unit then m
    else if kind = 13 then m.markRow unit 0
    else match m.spareFor kind unit with
      | none => m.degrade kind unit
      | some sp => m.retireWith kind unit 0 sp false := by
  subst hm
  exact (if_neg hk).trans ((if_neg hs).trans (if_neg (by rw [hh, hp, ho]; exact Bool.false_ne_true)))

theorem retireWear_fit (h : m.worn kind unit = false) : s.retireWear kind unit = m :=
  (retireWear_measured hk hs hh hp ho hm).trans (if_pos (by rw [h]; rfl))

section
variable (h : m.worn kind unit = true)
include h

theorem retireWear_worn : s.retireWear kind unit =
    if kind = 13 then m.markRow unit 0
    else match m.spareFor kind unit with
      | none => m.degrade kind unit
      | some sp => m.retireWith kind unit 0 sp false :=
  (retireWear_measured hk hs hh hp ho hm).trans (if_neg (by rw [h]; exact Bool.false_ne_true))

theorem retireWear_storeRow (h13 : kind = 13) : s.retireWear kind unit = m.markRow unit 0 :=
  (retireWear_worn hk hs hh hp ho hm h).trans (if_pos h13)

section
variable (h13 : kind ≠ 13)
include h13

theorem retireWear_noSpare (hn : m.spareFor kind unit = none) : s.retireWear kind unit = m.degrade kind unit := by
  rw [retireWear_worn hk hs hh hp ho hm h, if_neg h13, hn]

/-- The unit quiesces; for a cellar bank its copy begins. -/
theorem retireWear_spare {sp : Nat} (hn : m.spareFor kind unit = some sp) {u : State}
    (hw : m.pend { kind := kind, unit := unit, reason := 0, degrade := false, redisp := 0 } = u) :
    s.retireWear kind unit = if kind = 2 then u.startCopy unit sp else u := by
  subst hw
  rw [retireWear_worn hk hs hh hp ho hm h, if_neg h13, hn]
  rfl

end
end
end
end

/-! ### What the path-delay monitors find (R435) -/

theorem measureAge_none (h : s.ageIndex kind unit = none) : s.measureAge kind unit = s := by
  simp only [State.measureAge, h]

section
variable {n : Nat} (h : s.ageIndex kind unit = some n)
include h

theorem measureAge_worn (hw : s.worn kind unit = true) : s.measureAge kind unit = s := by
  simp only [State.measureAge, h, hw, if_true]

theorem measureAge_aged (hw : s.worn kind unit = false) {th r : Nat} {v : State} (ht : s.rdF Reg.rsvThrAge 9 0 = th)
    (hf : s.free (1024 - th) = (r, v)) : s.measureAge kind unit = v.wr (Reg.rsvAge n) (th + r) := by
  subst ht
  simp only [State.measureAge, h, hw, hf, Bool.false_eq_true, if_false]

end

/-! ### DRAIN_TIMEOUT (R436) -/

theorem drainTimeout_stays (h : kindUnit kind unit = none ∨ kindHas kind unit = false ∨ s.unitPending kind unit = false) :
    s.drainTimeout kind unit = s := by
  unfold State.drainTimeout
  split
  · next u hk =>
    refine if_neg fun hp => ?_
    obtain ⟨hh, hp⟩ := Bool.and_eq_true_iff.mp hp
    rcases h with h | h | h
    · exact absurd (hk.symm.trans h) (Option.some_ne_none u)
    · exact absurd (hh.symm.trans h) Bool.true_eq_false.mp
    · exact absurd (hp.symm.trans h) Bool.true_eq_false.mp
  · rfl

theorem drainTimeout_faults {u : TUnit} (hk : kindUnit kind unit = some u) (hh : kindHas kind unit = true) (hp : s.unitPending kind unit = true) :
    s.drainTimeout kind unit = s.unitFault u 0x20 true := by
  simp only [State.drainTimeout, hk, hh, hp, Bool.and_self, if_true]

/-! ### The remap (R436, R440) -/

section
variable {spare : Nat}

theorem remap_none (h : (s.rsv.retiring.find? fun r => r.kind == kind && r.unit == unit) = none) : s.remap kind unit spare = s := by
  simp only [State.remap, h]

section
variable {r : Retire} (h : (s.rsv.retiring.find? fun r => r.kind == kind && r.unit == unit) = some r)
include h

theorem remap_storeRow (hk : kind = 13) : s.remap kind unit spare = s.swapRow unit := by
  simp only [State.remap, h, if_pos hk]

theorem remap_lane (hk : kind = 3) : s.remap kind unit spare = s.remapLane r := by
  simp only [State.remap, h, if_neg (show kind ≠ 13 by omega), if_pos hk]

section
variable (h13 : kind ≠ 13) (h3 : kind ≠ 3)
include h13 h3

theorem remap_noUnit (hk : kindUnit kind unit = none) : s.remap kind unit spare = s := by
  simp only [State.remap, h, if_neg h13, if_neg h3, hk]

section
variable {u : TUnit} (hk : kindUnit kind unit = some u)
include hk

theorem remap_busy (hh : s.holdsNone u = false) : s.remap kind unit spare = s := by
  simp only [State.remap, h, if_neg h13, if_neg h3, hk, hh, Bool.not_false, if_true]

section
variable (hh : s.holdsNone u = true)
include hh

/-- An idle unit goes to the spare proposed where that is free, else to the first that is. -/
theorem remap_onSpare {q : Nat}
    (hp : (if (sparesFor kind unit).contains spare && s.spareFree kind spare then some spare else s.spareFor kind unit) = some q) :
    s.remap kind unit spare = (s.onSpare u q).spareTaken kind r.reason unit (s.physOf kind unit) q r.redisp := by
  simp only [State.remap, h, if_neg h13, if_neg h3, hk, hh, hp, Bool.not_true, Bool.false_eq_true, if_false]

theorem remap_noSpare
    (hp : (if (sparesFor kind unit).contains spare && s.spareFree kind spare then some spare else s.spareFor kind unit) = none) :
    s.remap kind unit spare = if r.reason = 1 ∨ r.degrade = true then s.takeOut kind unit else s.degrade kind unit := by
  simp only [State.remap, h, if_neg h13, if_neg h3, hk, hh, hp, Bool.not_true, Bool.false_eq_true, if_false]

end
end
end
end
end

/-- The spare chosen, from what each case of the choice says. -/
theorem picked_spare {spare : Nat} {pick : Option Nat}
    (hf : (sparesFor kind unit).contains spare = true ∧ s.spareFree kind spare = true → pick = some spare)
    (hn : ¬((sparesFor kind unit).contains spare = true ∧ s.spareFree kind spare = true) → pick = s.spareFor kind unit) :
    (if (sparesFor kind unit).contains spare && s.spareFree kind spare then some spare else s.spareFor kind unit) = pick :=
  ite_eq_of_cases (hf ∘ Bool.and_eq_true_iff.mp) (hn ∘ mt Bool.and_eq_true_iff.mpr)

end

/-! ### The scheduler store (R440) -/

section
variable {s : State} {sl row : Nat}

theorem schedStoreUe_task : s.schedStoreUe sl row false = (s.storeFault sl).markRow (sl / 64) 1 := rfl

section
variable {lost : State} (hl : (s.ueRecord false 4 0 0).wrF Reg.cmCtrl 0 0 0 = lost)
include hl

theorem schedStoreUe_marks (hr : row < 2048) (ho : lost.unitOut 13 row = false) : s.schedStoreUe sl row true =
    { lost.markRow row 1 with rsv := { (lost.markRow row 1).rsv with storeOut := true } } := by
  subst hl
  have hn : ¬(((s.ueRecord false 4 0 0).wrF Reg.cmCtrl 0 0 0).unitOut 13 row || decide (2048 ≤ row)) = true := by
    rw [ho, decide_eq_false (Nat.not_le.mpr hr)]
    exact Bool.false_ne_true
  simp only [State.schedStoreUe, if_true, if_neg hn]

theorem schedStoreUe_noRow (h : 2048 ≤ row ∨ lost.unitOut 13 row = true) :
    s.schedStoreUe sl row true = { lost with rsv := { lost.rsv with storeOut := true } } := by
  subst hl
  have hy : (((s.ueRecord false 4 0 0).wrF Reg.cmCtrl 0 0 0).unitOut 13 row || decide (2048 ≤ row)) = true :=
    Bool.or_eq_true_iff.mpr (h.symm.imp_right decide_eq_true)
  simp only [State.schedStoreUe, if_true, if_pos hy]

end

theorem storeFault_none (h : s.task? sl = none) : s.storeFault sl = s := by
  simp only [State.storeFault, h]

section
variable {t : Task} (h : s.task? sl = some t)
include h

section
variable (hs : t.st = .running)
include hs

theorem storeFault_running {u : TUnit} (hu : t.unit = some u) : s.storeFault sl = (s.commitRunning sl 1 1 0xFD).stopUnit sl u := by
  simp only [State.storeFault, h, hs, hu]

theorem storeFault_noUnit (hu : t.unit = none) : s.storeFault sl = s.commit sl 1 1 0xFD := by
  simp only [State.storeFault, h, hs, hu]

end

theorem storeFault_ending (hs : t.st = .ending) : s.storeFault sl = s.commitRunning sl 1 1 0xFD := by
  simp only [State.storeFault, h, hs]

/-- A task that is being stopped, or has its record, keeps its end. -/
theorem storeFault_over (hs : t.st = .stopping ∨ t.st = .recorded) : s.storeFault sl = s := by
  rcases hs with hs | hs <;> simp only [State.storeFault, h, hs]

theorem storeFault_waiting (hs : t.st = .waiting ∨ t.st = .held ∨ t.st = .queued) : s.storeFault sl = s.commit sl 1 0 0xFD := by
  rcases hs with hs | hs | hs <;> simp only [State.storeFault, h, hs]

end
end

/-- Settles O56: each command is one operation of the Headroom manager or of the Reserve, and each clause is one case of it. -/
theorem headroomAndSpares : Obligations.HeadroomAndSpares := by
  intro s hu b
  refine ⟨fun i v hi => ?_, fun w m => ?_, ?_, exec_effEvaluate hu, fun w c n => ?_, fun w c eff => ?_, fun sl d hs hd => ?_, fun w t d => mayMove_iff,
    fun sl hs => ?_, fun w p => ?_, exec_slackReport hu, fun w c x => ?_, fun w c n => ?_, exec_voltageStep hu, fun w c => ?_,
    fun i c v hi hc => exec_choldClear hu hi hc v, fun kind unit hk => ?_, fun w kind unit => ?_, fun kind unit hk => ?_, fun kind unit sp hk => ?_,
    fun sl row hs => ?_, fun w sl => ?_⟩
  · intro gives w
    have writes : ∀ r, b.hctrlWrite v.toNat = r → gives r := by
      rintro _ rfl
      exact exec_hctrlModeWrite hu hi v
    exact gives_of_ite writes (hctrlWrite_eq rfl)
  · intro up dn
    exact ⟨setMode_same, fun h hm => setMode_shield h hm rfl, fun h hm => setMode_consolidate h hm rfl⟩
  · intro gives u
    have readies : ∀ r, b.shieldReady = r → gives r := by
      rintro _ rfl
      exact exec_shieldReady hu
    exact ⟨fun hm hb => gives_of_ite readies (shieldReady_ends hm hb rfl), fun h => readies _ (shieldReady_stays h)⟩
  · intro eff x
    exact ⟨fun h => if_pos h, fun h => if_neg h, evalCluster_shows rfl rfl, evalCluster_packs rfl rfl⟩
  · intro idle old low l
    refine ⟨fun h => if_pos h, fun h => if_neg (Nat.not_lt.mpr h), packCluster_counts rfl rfl rfl, fun h hp => ?_, packCluster_leaves rfl rfl rfl⟩
    have hx := packCluster_pinned (s := w) (t := l) rfl rfl rfl h hp
    exact ⟨fun ho => hx.trans (if_pos ho), fun ho => hx.trans (if_neg (Nat.not_le.mpr ho))⟩
  · intro gives
    have moves : ∀ r, b.taskMove sl d = r → gives r := by
      rintro _ rfl
      exact exec_taskMove hu hs hd
    exact ⟨fun h => moves _ (taskMove_none h), fun t h => ⟨fun hm => moves _ (taskMove_moves h hm), fun hm => moves _ (taskMove_stays h hm)⟩⟩
  · intro gives found
    have ends : ∀ r, b.prestageEnd sl = r → gives r := by
      rintro _ rfl
      exact exec_prestageEnd hu hs
    refine ⟨fun h => ends _ (prestageEnd_none h), fun p h => ⟨fun ht => ends _ (prestageEnd_noTask h rfl ht), fun t ht => ?_⟩⟩
    exact ⟨fun hf hr => ends _ ((prestageEnd_ends h rfl ht hf).trans (if_pos hr)), fun hf hr => ends _ ((prestageEnd_ends h rfl ht hf).trans (if_neg hr)),
      fun hf => ends _ (prestageEnd_other h rfl ht hf)⟩
  · intro u
    exact ⟨fun h hc => (prestageOver_done rfl h).trans (if_pos hc), fun h hc => (prestageOver_done rfl h).trans (if_neg hc), prestageOver_failed rfl,
      fun t => prestageFor_iff⟩
  · intro v e
    refine ⟨fun h => ?_, fun h => ?_⟩
    · have hx := slackOne_stretched (s := w) (v := v) (c := c) (x := x) rfl h
      exact ⟨fun hs => hx.trans (if_pos hs), fun hs => hx.trans (if_neg (Int.not_le.mpr hs))⟩
    · have hx := slackOne_runs (s := w) (v := v) (c := c) (x := x) rfl h (e := e) rfl
      exact ⟨fun hs => hx.trans (if_pos hs), fun hs => hx.trans (if_neg (Int.not_lt.mpr hs))⟩
  · intro f t
    have hx := setTarget_eq (s := w) (c := c) (n := n) (f := f) (t := t) rfl rfl
    exact ⟨fun h => hx.trans (if_pos h), fun h => hx.trans (if_neg h)⟩
  · intro a slack t fl v z r
    refine ⟨mayRaise_iff, rfl, voltageOne_rises rfl rfl rfl rfl, fun h hm => ?_, voltageOne_toFloor rfl rfl rfl rfl,
      fun h h2 hm => voltageOne_keeps rfl rfl rfl rfl h hm h2, fun h2 hm => ?_⟩
    · have hx := voltageOne_slows (s := w) (a := a) (v := v) rfl rfl rfl rfl h hm (z := z) rfl
      exact ⟨fun hs => hx.trans (if_pos hs), fun hs => hx.trans (if_neg (Nat.not_lt.mpr hs))⟩
    · have hx := voltageOne_relaxes (s := w) (a := a) (v := v) rfl rfl rfl rfl (by omega) hm h2 (r := r) rfl
      exact ⟨fun hs => hx.trans (if_pos hs), fun hs => hx.trans (if_neg hs)⟩
  · intro gives row m
    have wears : ∀ r, b.retireWear kind unit = r → gives r := by
      rintro _ rfl
      exact exec_retireWear hu hk unit
    refine ⟨fun h => ⟨fun hr => wears _ (retireWear_row h hr), fun hr => wears _ (retireWear_noRow h hr)⟩,
      fun h h1 h2 => wears _ (retireWear_shared ⟨h, h1, h2⟩), fun h12 hc => ⟨fun h => wears _ (retireWear_gone h12 hc h), fun hh hp ho => ?_⟩⟩
    refine ⟨fun h => wears _ (retireWear_fit h12 hc hh hp ho rfl h), fun h => ⟨fun h13 => wears _ (retireWear_storeRow h12 hc hh hp ho rfl h h13),
      fun h13 => ⟨fun hn => wears _ (retireWear_noSpare h12 hc hh hp ho rfl h h13 hn), fun sp hn => ?_⟩⟩⟩
    exact gives_of_ite wears (retireWear_spare h12 hc hh hp ho rfl h h13 hn rfl)
  · intro th
    exact ⟨measureAge_none, fun n h => ⟨measureAge_worn h, fun hw r v hf => measureAge_aged h hw rfl hf⟩⟩
  · intro gives
    have times : ∀ r, b.drainTimeout kind unit = r → gives r := by
      rintro _ rfl
      exact exec_drainTimeout hu hk unit
    exact ⟨fun h => times _ (drainTimeout_stays h), fun u h hh hp => times _ (drainTimeout_faults h hh hp)⟩
  · intro gives found
    have remaps : ∀ r, b.remap kind unit sp = r → gives r := by
      rintro _ rfl
      exact exec_remap hu hk unit sp
    refine ⟨fun h => remaps _ (remap_none h), fun r h => ⟨fun h13 => remaps _ (remap_storeRow h h13), fun h3 => remaps _ (remap_lane h h3), fun h13 h3 =>
      ⟨fun hn => remaps _ (remap_noUnit h h13 h3 hn), fun u hn => ⟨fun hh => remaps _ (remap_busy h h13 h3 hn hh), fun hh pick hf hq => ?_⟩⟩⟩⟩
    have hx := picked_spare hf hq
    exact ⟨fun q hp => remaps _ (remap_onSpare h h13 h3 hn hh (hx.trans hp)), fun hp => gives_of_ite remaps (remap_noSpare h h13 h3 hn hh (hx.trans hp))⟩
  · intro lost gives
    have errors : ∀ both r, b.schedStoreUe sl row both = r → exec (.schedStoreUe sl row both) s = .next (after s r) := by
      rintro both _ rfl
      exact exec_schedStoreUe hu hs row both
    exact ⟨errors _ _ schedStoreUe_task, fun hr ho => errors _ _ (schedStoreUe_marks rfl hr ho), fun h => errors _ _ (schedStoreUe_noRow rfl h)⟩
  · exact ⟨storeFault_none, fun t h => ⟨fun hs => ⟨fun u => storeFault_running h hs, storeFault_noUnit h hs⟩, storeFault_ending h, storeFault_over h,
      storeFault_waiting h⟩⟩

end Sys2Proof.Machine
end

section
/-! A command whose effect has been worked out (R465). -/

namespace Sys2Proof.Machine

section
variable {ok : Bool} (h : ok = true) {s t : State} {f : State → State}
include h

theorem cmd_does (ht : f (begin s) = t) : cmd ok s f = .next (after s t) := by
  subst ht
  exact cmd_next h s f

theorem pcmd_does (hu : s.pwr.up = true) (ht : f (begin s) = t) : pcmd ok s f = .next (after s t) := by
  subst ht
  exact pcmd_next h hu f

/-- A command after which the boot ROM may have run. -/
theorem otpCmd_does (hu : s.pwr.up = true) (ht : f (begin s) = t) : otpCmd ok s (fun s => live s f) = .next { t with pending := s.pending } := by
  subst ht
  exact otpCmd_live h hu f

end

end Sys2Proof.Machine
end

section
/-! The host's writes of cellar memory and the resets of its function, case by case (R25, R27, R29, R41, R93, R277). -/

namespace Sys2Proof.Machine

/-! ### A host write of cellar memory (R27, R29, R93) -/

/-- The link carries a host write of cellar memory to the device. -/
def State.carries (s : State) (off : Nat) (data : List Byte) : Prop :=
  s.pcie.link = true ∧ s.d3hot = false ∧ data ≠ [] ∧ data.length ≤ s.maxPayload ∧ off + data.length ≤ 0x04000000

/-- `HOST_CELLAR_WRITE` tests the negation of `carries`. -/
theorem not_carries_iff {s : State} {off : Nat} {data : List Byte} :
    ((!s.pcie.link) = true ∨ s.d3hot = true ∨ data.isEmpty = true ∨ s.maxPayload < data.length ∨ 0x04000000 < off + data.length) ↔
      ¬s.carries off data := by
  simp only [State.carries, Bool.not_eq_true', List.isEmpty_iff, ne_eq, Classical.not_and_iff_not_or_not, Bool.not_eq_true, Bool.not_eq_false,
    not_not, Nat.not_le]

section
variable {s u : State} {off : Nat} {data : List Byte}

theorem hostCellar_lands (hg : s.granted off data.length = true ∨ s.hostDebug = true) (hw : s.busWrite .host off data = (.ok, u)) :
    s.hostCellar off data = (.ok, u.ringsSee off data.length) := by
  unfold State.hostCellar
  rw [if_pos (Bool.or_eq_true_iff.mpr hg), hw]

theorem hostCellar_fails {r : WrRes} (hg : s.granted off data.length = true ∨ s.hostDebug = true) (hw : s.busWrite .host off data = (r, u))
    (hr : r ≠ .ok) : s.hostCellar off data = (r, u) := by
  unfold State.hostCellar
  rw [if_pos (Bool.or_eq_true_iff.mpr hg), hw]
  cases r with
  | ok => exact absurd rfl hr
  | _ => rfl

theorem hostCellar_refused (hg : s.granted off data.length = false) (hd : s.hostDebug = false) :
    s.hostCellar off data = (.err 4, s.aerr .host 4 true false off) := by
  unfold State.hostCellar
  rw [hg, hd]
  exact if_neg (by decide)

variable (hu : s.pwr.up = true)
include hu

theorem hostCellarWrite_carried (hc : s.carries off data) {r : WrRes} (h : (begin s).hostCellar off data = (r, u)) :
    exec (.hostCellarWrite off data) s = .next (after s u) := by
  exact pcmd_does rfl hu ((if_neg fun h => not_carries_iff.mp h hc).trans (congrArg Prod.snd h))

theorem hostCellarWrite_lost (hc : ¬s.carries off data) : exec (.hostCellarWrite off data) s = .next (after s (begin s)) :=
  pcmd_does rfl hu (if_pos (not_carries_iff.mpr hc))

end

/-- Settles O14: a write that the link carries is one `hostCellar`, which a grant or debug access lets through to the bus. -/
theorem hostCellarGranted : Obligations.HostCellarGranted := by
  intro off data s u hu b carried
  exact ⟨fun hc hg hw => hostCellarWrite_carried hu hc (hostCellar_lands hg hw),
    fun hc hg r hw hr => hostCellarWrite_carried hu hc (hostCellar_fails hg hw hr),
    fun hc hg hd => hostCellarWrite_carried hu hc (hostCellar_refused hg hd), hostCellarWrite_lost hu⟩

/-! ### The resets of the function (R25, R41, R277) -/

/-- An entry that no key of a filtered map gives is the default. -/
theorem mget_filter_map {α : Type} {P : α → Prop} {d : Nat → α} (hd : ∀ k, P (d k)) {f : α → α} (hf : ∀ x, P (f x)) (p : Nat × α → Bool)
    (m : List (Nat × α)) (k : Nat) : P (mget d ((m.map fun e => (e.1, f e.2)).filter p) k) := by
  induction m with
  | nil => exact hd k
  | cons e m ih =>
    rw [List.map_cons, List.filter_cons]
    split
    · unfold mget
      split
      · exact hf e.2
      · split
        · exact hd k
        · exact ih
    · exact ih

/-- What an event of a vector leaves alone, beside the pending bits and what it gives to the outside. -/
theorem vector_frame (s : State) (v : Nat) : ∃ out pba, s.vector v = { s with out := out, pcie := { s.pcie with pba := pba } } := by
  unfold State.vector
  split
  · exact ⟨_, _, rfl⟩
  · dsimp only
    split
    · exact ⟨_, _, rfl⟩
    · exact ⟨_, _, rfl⟩

/-- A device error changes `MBX.DEVERR` alone, beside vector 0. -/
theorem devErr_frame (s : State) (bit : Nat) :
    ∃ out pba csr, s.devErr bit = { s with out := out, csr := csr, pcie := { s.pcie with pba := pba } } := by
  unfold State.devErr
  split
  · exact ⟨_, _, _, rfl⟩
  · obtain ⟨out, pba, h⟩ := vector_frame (s.wrF Reg.mbxDeverr bit bit 1) 0
    exact ⟨out, pba, _, h⟩

theorem vector_csr (s : State) (v : Nat) : (s.vector v).csr = s.csr := by
  obtain ⟨out, pba, h⟩ := vector_frame s v
  rw [h]

section
variable {s : State} (hr : RegInv s)
include hr

theorem rdB_devErr_same {bit : Nat} (hb : bit < 32) : (s.devErr bit).rdB Reg.mbxDeverr bit = true := by
  unfold State.devErr
  split
  · assumption
  · have hrd : ((s.wrF Reg.mbxDeverr bit bit 1).vector 0).rd Reg.mbxDeverr = (s.wrF Reg.mbxDeverr bit bit 1).rd Reg.mbxDeverr :=
      congrArg (fun c => (mget regDefault c Reg.mbxDeverr).toNat) (vector_csr _ 0)
    show ((State.rd _ _).testBit bit) = true
    rw [hrd]
    show ((s.wr Reg.mbxDeverr _).rd Reg.mbxDeverr).testBit bit = true
    rw [rd_wr_same hr, Nat.testBit_mod_two_pow, testBit_setFld _ (Nat.le_refl bit), if_pos ⟨Nat.le_refl bit, Nat.le_refl bit⟩, Nat.sub_self,
      decide_eq_true hb]
    rfl

theorem rd_devErr_ne (bit : Nat) {o : Nat} (ho : o ≠ Reg.mbxDeverr) : (s.devErr bit).rd o = s.rd o := by
  unfold State.devErr
  split
  · rfl
  · exact (congrArg (fun c => (mget regDefault c o).toNat) (vector_csr _ 0)).trans (rd_wr_ne hr ho _)

end

/-- The registers that a reset of the function returns to their Reset values. -/
def functionReg (o : Nat) : Bool :=
  decide (0x100000 ≤ o ∧ o < 0x140000) || o == Reg.mbxLock || o == Reg.pcieHwbaseLo || o == Reg.pcieHwbaseHi

/-- What a reset of the function leaves of the sessions, the registers and configuration space, and what it leaves alone. -/
structure FunctionReset (s t : State) : Prop where
  reqs : ∀ m, (t.mbxAt m).reqs = [] ∧ (t.mbxAt m).notices = []
  flr : t.rdB Reg.mbxDeverr 4 = true
  regs : ∀ o, functionReg o = true → o ≠ Reg.mbxDeverr → t.rd o = (regDefault o).toNat
  msix : t.pcie.msix = []
  pmcsr : t.pcie.pmcsr = 0
  msixCtl : t.pcie.msixCtl = 0
  devCtl : t.pcie.devCtl = 0
  link : t.pcie.link = s.pcie.link
  cm : t.cm = s.cm
  cores : t.cores = s.cores
  engs : t.engs = s.engs
  fw : t.fw = { s.fw with loading := [] }
  mrd : t.mrd = s.mrd
  mem : t.mem = s.mem

theorem functionReset_spec {s : State} (hr : RegInv s) : FunctionReset s s.functionReset := by
  let cleared : State := { s with
    mbx := (s.mbx.map fun e => (e.1, { e.2.close with reqs := [] })).filter fun e => decide (e.2 ≠ MbxState.reset)
    fw := { s.fw with loading := [] }, pcie := { s.pcie with msix := [], pba := [], pmcsr := 0, msixCtl := 0, devCtl := 0 } }
  have hreset : s.functionReset = (cleared.resetRegs functionReg).devErr 4 := rfl
  have hinv : RegInv (cleared.resetRegs functionReg) := resetRegs_regInv (s := cleared) hr _
  obtain ⟨out, pba, csr, h⟩ := devErr_frame (cleared.resetRegs functionReg) 4
  rw [hreset]
  refine ⟨fun m => ?_, rdB_devErr_same hinv (by decide), fun o ho hne => ?_, ?_, ?_, ?_, ?_, ?_, ?_, ?_, ?_, ?_, ?_, ?_⟩
  · rw [h]
    exact mget_filter_map (P := fun x : MbxState => x.reqs = [] ∧ x.notices = []) (f := fun x : MbxState => { x.close with reqs := [] })
      (fun _ => ⟨rfl, rfl⟩) (fun _ => ⟨rfl, rfl⟩) _ s.mbx m
  · rw [rd_devErr_ne hinv 4 hne, rd_resetRegs (s := cleared) hr, if_pos ho]
  all_goals
    rw [h]
    rfl

theorem FunctionReset.mbxOff {s t : State} (h : FunctionReset s t) {m : Nat} (hm : m < 64) : t.mbxOn m = false := by
  have hreg : functionReg (Reg.mbxCtrl m) = true ∧ Reg.mbxCtrl m ≠ Reg.mbxDeverr ∧ tb (regDefault (Reg.mbxCtrl m)).toNat 31 = false := by
    revert m
    decide +kernel
  obtain ⟨hin, hne, hoff⟩ := hreg
  show tb (t.rd (Reg.mbxCtrl m)) 31 = false
  rw [h.regs _ hin hne, hoff]

/-- The facts of a reset of the function as its statement lists them. -/
theorem FunctionReset.listed {s t : State} (h : FunctionReset s t) :
    (∀ m, (t.mbxAt m).reqs = [] ∧ (t.mbxAt m).notices = []) ∧ t.rdB Reg.mbxDeverr 4 = true ∧ t.rd Reg.mbxLock = 0 ∧ t.rd Reg.pcieHwbaseLo = 0 ∧
      t.rd Reg.pcieHwbaseHi = 0 ∧ (∀ m, m < 64 → t.mbxOn m = false) ∧ t.pcie.msix = [] ∧ t.pcie.pmcsr = 0 ∧ t.pcie.msixCtl = 0 ∧
      t.pcie.devCtl = 0 ∧ t.cm = s.cm ∧ t.cores = s.cores ∧ t.engs = s.engs ∧ t.fw = { s.fw with loading := [] } ∧ t.mrd = s.mrd :=
  ⟨h.reqs, h.flr, h.regs Reg.mbxLock (by decide) (by decide), h.regs Reg.pcieHwbaseLo (by decide) (by decide),
    h.regs Reg.pcieHwbaseHi (by decide) (by decide), fun _ => h.mbxOff, h.msix, h.pmcsr, h.msixCtl, h.devCtl, h.cm, h.cores, h.engs, h.fw, h.mrd⟩

/-- Writes of host memory one after another change that memory alone. -/
theorem putHosts_frame (hw : List (Nat × List Byte)) (s : State) :
    ∃ host, hw.foldl (fun (s : State) w => s.putHost w.1 w.2) s = { s with mem := { s.mem with host := host } } := by
  induction hw generalizing s with
  | nil => exact ⟨_, rfl⟩
  | cons w hw ih =>
    obtain ⟨host, h⟩ := ih (s.putHost w.1 w.2)
    exact ⟨host, h⟩

theorem unpost_frame (s : State) (kept : Nat) :
    ∃ host, s.unpost kept = { s with mem := { s.mem with host := host }, pcie := { s.pcie with posted := [] } } := by
  obtain ⟨host, h⟩ := putHosts_frame (s.pcie.posted.take (s.pcie.posted.length - kept)) s
  exact ⟨host, congrArg (fun t : State => { t with pcie := { s.pcie with posted := [] } }) h⟩

/-- Settles O15: both resets are `functionReset`, and the loss of the link is one after the posted writes have been put back. -/
theorem functionResets : Obligations.FunctionResets := by
  intro s hu hr reset
  have hb : FunctionReset (begin s) (begin s).functionReset := functionReset_spec (s := begin s) hr
  refine ⟨⟨_, pcmd_next rfl hu _, hb.listed, hb.mem⟩, ⟨_, pcmd_next rfl hu _, hb.listed, hb.mem⟩, fun kept hl => ?_, fun kept hl => ?_,
    pcmd_next rfl hu _⟩
  · let posted : State := { begin s with pcie := { (begin s).pcie with posted := s.pcie.posted } }
    obtain ⟨host, hput⟩ := unpost_frame posted kept
    have hd : FunctionReset { posted.unpost kept with pcie := { (posted.unpost kept).pcie with link := false } } (posted.unpost kept).linkDown := by
      refine functionReset_spec ?_
      rw [hput]
      exact hr
    rw [hput] at hd
    refine ⟨after s (posted.unpost kept).linkDown, cmd_does rfl ((live_up (s := begin s) hu _).trans (if_pos hl)), ?_⟩
    rw [hput]
    exact ⟨hd.listed, hd.link, (congrArg MemState.dev hd.mem :), (congrArg MemState.host hd.mem :)⟩
  · exact cmd_does rfl ((live_up (s := begin s) hu _).trans (if_neg (ne_true_of_eq_false hl)))

end Sys2Proof.Machine
end

section
/-! A mailbox, case by case: its sessions and doorbells, the consumption of requests, and the responses and notices that it writes
(R32 to R40, R46, R48, R51, R55, R68). -/

namespace Sys2Proof.Machine

/-! ### Sessions (R32, R33, R40) -/

theorem testBit_or_bit31 (v : Nat) : tb (v ||| 2 ^ 31) 31 = true := by
  show (v ||| 2 ^ 31).testBit 31 = true
  rw [Nat.testBit_or, Nat.testBit_two_pow_self, Bool.or_true]

theorem tb_setFld_bit31 (v : Nat) : tb (setFld v 31 31 0) 31 = false := by
  show (setFld v 31 31 0).testBit 31 = false
  rw [testBit_setFld _ (Nat.le_refl 31), if_pos ⟨Nat.le_refl 31, Nat.le_refl 31⟩]
  rfl

section
variable {s : State} {m v : Nat}

theorem mbxCtrlWrite_stops (hon : s.mbxOn m = true) (hv : tb v 31 = false) : s.mbxCtrlWrite m v = (s.ctrlFields m v).mbxStop m := by
  unfold State.mbxCtrlWrite
  rw [hon, hv]
  exact if_pos rfl

section
variable (hon : s.mbxOn m = false) (hv : tb v 31 = true)
include hon hv

theorem mbxCtrlWrite_starts :
    s.mbxCtrlWrite m v =
      if (s.ctrlFields m v).mbxCfgOk m then
        let s := ((((s.ctrlFields m v).wr (Reg.mbxReqPi m) 0).wr (Reg.mbxReqCi m) 0).wr (Reg.mbxRspPi m) 0).wr (Reg.mbxRspCi m) 0
        ((((s.setMbx m (s.mbxAt m).close).wrF (Reg.mbxStat m) 31 31 0).wrF (Reg.mbxCtrl m) 31 31 1).shadow m).readyTo m
      else ((s.ctrlFields m v).wrF (Reg.mbxStat m) 2 2 1).devErr 1 := by
  unfold State.mbxCtrlWrite
  rw [hon, hv]
  exact (if_neg Bool.false_ne_true).trans (if_pos rfl)

theorem mbxCtrlWrite_opens (hc : (s.ctrlFields m v).mbxCfgOk m = true) :
    s.mbxCtrlWrite m v =
      let s := ((((s.ctrlFields m v).wr (Reg.mbxReqPi m) 0).wr (Reg.mbxReqCi m) 0).wr (Reg.mbxRspPi m) 0).wr (Reg.mbxRspCi m) 0
      ((((s.setMbx m (s.mbxAt m).close).wrF (Reg.mbxStat m) 31 31 0).wrF (Reg.mbxCtrl m) 31 31 1).shadow m).readyTo m :=
  (mbxCtrlWrite_starts hon hv).trans (if_pos hc)

theorem mbxCtrlWrite_invalid (hc : (s.ctrlFields m v).mbxCfgOk m = false) :
    s.mbxCtrlWrite m v = ((s.ctrlFields m v).wrF (Reg.mbxStat m) 2 2 1).devErr 1 :=
  (mbxCtrlWrite_starts hon hv).trans (if_neg (ne_true_of_eq_false hc))

end
end

section
variable {i : Init} {m : Nat} {s : State} (hi : i.hostOrCtl = true) (hm : m < 64) (hu : s.pwr.up = true) (v : Word)
include hi hm hu

/-- The operands of a mailbox register's write are what the device has. -/
theorem mbxWrite_does {f : State → State} {t : State} (ht : f (begin s) = t) : pcmd (i.hostOrCtl && decide (m < 64)) s f = .next (after s t) :=
  pcmd_does (Bool.and_eq_true_iff.mpr ⟨hi, decide_eq_true hm⟩) hu ht

theorem mbxEnable_on (hon : (begin s).mbxOn m = true) : exec (.mbxEnable i m v) s = .next (after s (begin s)) :=
  mbxWrite_does hi hm hu (if_pos hon)

theorem mbxEnable_off (hon : (begin s).mbxOn m = false) {t : State} (ht : (begin s).mbxCtrlWrite m (v.toNat ||| 2 ^ 31) = t) :
    exec (.mbxEnable i m v) s = .next (after s t) :=
  mbxWrite_does hi hm hu ((if_neg (ne_true_of_eq_false hon)).trans ht)

theorem mbxDisable_on (hon : (begin s).mbxOn m = true) {t : State} (ht : (begin s).mbxCtrlWrite m (setFld v.toNat 31 31 0) = t) :
    exec (.mbxDisable i m v) s = .next (after s t) :=
  mbxWrite_does hi hm hu ((if_pos hon).trans ht)

theorem mbxDisable_off (hon : (begin s).mbxOn m = false) : exec (.mbxDisable i m v) s = .next (after s (begin s)) :=
  mbxWrite_does hi hm hu (if_neg (ne_true_of_eq_false hon))

end

/-- Settles O16: an enable and a disable are one write of CTRL, whose course its bit 31 and the mailbox's own EN decide. -/
theorem mailboxSessions : Obligations.MailboxSessions := by
  intro i m v s hi hm hu b c d zeroed opened
  have hset := testBit_or_bit31 v.toNat
  have hm' : decide (m < 64) = true := decide_eq_true hm
  refine ⟨mbxEnable_on hi hm hu v, fun hon hc => ?_, fun hon hc => ?_, mbxDisable_off hi hm hu v, fun hon => ?_, fun hon => ?_, fun hon => ?_,
    fun hv => ?_, fun hv => ?_⟩
  · exact mbxEnable_off hi hm hu v hon (mbxCtrlWrite_opens hon hset hc)
  · exact mbxEnable_off hi hm hu v hon (mbxCtrlWrite_invalid hon hset hc)
  · exact mbxDisable_on hi hm hu v hon (mbxCtrlWrite_stops hon (tb_setFld_bit31 v.toNat))
  · exact pcmd_does hm' hu (if_neg (ne_true_of_eq_false hon))
  · exact pcmd_does hm' hu (if_pos hon)
  · exact pcmd_does hi hu (if_pos hv)
  · exact pcmd_does hi hu (if_neg (ne_true_of_eq_false hv))

/-! ### Doorbells (R33, R36, R39) -/

section
variable {s : State} {m v : Nat}

theorem reqPiWrite_off (hon : s.mbxOn m = false) : s.reqPiWrite m v = s := if_pos (by rw [hon]; rfl)

theorem reqPiWrite_fits (hon : s.mbxOn m = true) (h : (v % 65536 + 65536 - s.rd (Reg.mbxReqCi m)) % 65536 ≤ s.reqSize m) :
    s.reqPiWrite m v = s.wr (Reg.mbxReqPi m) (v % 65536) :=
  (if_neg (by rw [hon]; decide)).trans (if_neg (Nat.not_lt.mpr h))

theorem reqPiWrite_overrun (hon : s.mbxOn m = true) (h : s.reqSize m < (v % 65536 + 65536 - s.rd (Reg.mbxReqCi m)) % 65536) :
    s.reqPiWrite m v = s.mbxError m 1 :=
  (if_neg (by rw [hon]; decide)).trans (if_pos h)

theorem rspCiWrite_off (hon : s.mbxOn m = false) : s.rspCiWrite m v = s := if_pos (by rw [hon]; rfl)

theorem rspCiWrite_fits (hon : s.mbxOn m = true)
    (h : (v % 65536 + 65536 - s.rd (Reg.mbxRspCi m)) % 65536 ≤ (s.rd (Reg.mbxRspPi m) + 65536 - s.rd (Reg.mbxRspCi m)) % 65536) :
    s.rspCiWrite m v = s.wr (Reg.mbxRspCi m) (v % 65536) :=
  (if_neg (by rw [hon]; decide)).trans (if_neg (Nat.not_lt.mpr h))

theorem rspCiWrite_overrun (hon : s.mbxOn m = true)
    (h : (s.rd (Reg.mbxRspPi m) + 65536 - s.rd (Reg.mbxRspCi m)) % 65536 < (v % 65536 + 65536 - s.rd (Reg.mbxRspCi m)) % 65536) :
    s.rspCiWrite m v = s.mbxError m 1 :=
  (if_neg (by rw [hon]; decide)).trans (if_pos h)

end

/-- The doorbell acts once the host's writes before it stand in host memory. -/
theorem mbxReqPiWrite_does {i : Init} {m : Nat} {s t : State} (hi : i.hostOrCtl = true) (hm : m < 64) (hu : s.pwr.up = true) (v : Word)
    (hw : List (Nat × List Byte)) (ht : (hw.foldl (fun (s : State) w => s.putHost w.1 w.2) (begin s)).reqPiWrite m v.toNat = t) :
    exec (.mbxReqPiWrite i m v hw) s = .next (after s t) := by
  have hup : (hw.foldl (fun (s : State) w => s.putHost w.1 w.2) (begin s)).pwr.up = true := by
    obtain ⟨host, h⟩ := putHosts_frame hw (begin s)
    rw [h]
    exact hu
  exact cmd_does (f := fun s => live (hw.foldl (fun (s : State) w => s.putHost w.1 w.2) s) fun s => s.reqPiWrite m v.toNat)
    (Bool.and_eq_true_iff.mpr ⟨hi, decide_eq_true hm⟩) ((live_up hup _).trans ht)

/-- Settles O17: each doorbell is one write of its index, whose course EN and the rings decide. -/
theorem mailboxDoorbells : Obligations.MailboxDoorbells := by
  intro i m v hw s hi hm hu b u occ room step
  obtain ⟨host, hput⟩ : ∃ host, u = { b with mem := { b.mem with host := host } } := putHosts_frame hw b
  have hok : (i.hostOrCtl && decide (m < 64)) = true := Bool.and_eq_true_iff.mpr ⟨hi, decide_eq_true hm⟩
  have hreq : ∀ {t}, u.reqPiWrite m v.toNat = t → exec (.mbxReqPiWrite i m v hw) s = .next (after s t) := mbxReqPiWrite_does hi hm hu v hw
  rw [hput] at hreq
  refine ⟨fun hon h => ?_, fun hon h => ?_, fun hon => ?_, fun hon h => ?_, fun hon h => ?_, fun hon => ?_⟩
  · rw [hput]
    exact hreq (reqPiWrite_fits hon h)
  · rw [hput]
    exact hreq (reqPiWrite_overrun hon h)
  · rw [hput]
    exact hreq (reqPiWrite_off hon)
  · exact pcmd_does hok hu (rspCiWrite_fits hon h)
  · exact pcmd_does hok hu (rspCiWrite_overrun hon h)
  · exact pcmd_does hok hu (rspCiWrite_off hon)

end Sys2Proof.Machine
end

section
/-! A mailbox's rings, case by case: the consumption of requests, the responses and notices that it writes, and what follows them
(R35 to R39, R46, R48, R51, R55, R68). -/

namespace Sys2Proof.Machine

/-! ### Consumption (R34, R35, R37, R46, R48) -/

/-- Room and work for `REQUEST_CONSUME`: an enabled mailbox, a request in its ring, and space for the response (R37). -/
def State.consumes (s : State) (m : Nat) : Prop :=
  s.mbxOn m = true ∧ (s.rd (Reg.mbxReqPi m) + 65536 - s.rd (Reg.mbxReqCi m)) % 65536 ≠ 0 ∧
    (s.mbxAt m).open + (s.rd (Reg.mbxRspPi m) + 65536 - s.rd (Reg.mbxRspCi m)) % 65536 + 1 < s.rspSize m

/-- The LENGTH of the request at REQ_CI. -/
def State.nextLen (s : State) (m : Nat) : Nat :=
  leAt (s.ringBytes (s.rdPair (Reg.mbxReqBaseLo m) (Reg.mbxReqBaseHi m)) (s.reqSize m) (s.rd (Reg.mbxReqCi m)) 1) 8 2

section
variable {s : State} {m : Nat}

/-- `REQUEST_CONSUME` tests the negation of `consumes`. -/
theorem not_consumes_iff :
    (!s.mbxOn m || (s.rd (Reg.mbxReqPi m) + 65536 - s.rd (Reg.mbxReqCi m)) % 65536 == 0 ||
      decide (s.rspSize m ≤ (s.mbxAt m).open + (s.rd (Reg.mbxRspPi m) + 65536 - s.rd (Reg.mbxRspCi m)) % 65536 + 1)) = true ↔ ¬s.consumes m := by
  simp only [State.consumes, Bool.or_eq_true, Bool.not_eq_true', beq_iff_eq, decide_eq_true_eq, Classical.not_and_iff_not_or_not, Bool.not_eq_true,
    ne_eq, not_not, Nat.not_lt, or_assoc]

theorem requestConsume_idle (h : ¬s.consumes m) (ok : Bool) : s.requestConsume m ok = s := if_pos (not_consumes_iff.mpr h)

section
variable (h : s.consumes m)
include h

theorem requestConsume_fails {ok : Bool} (hl : ok = false ∨ s.pcie.link = false) : s.requestConsume m ok = s.mbxError m 3 := by
  unfold State.requestConsume
  dsimp only
  rw [if_neg fun hn => not_consumes_iff.mp hn h]
  exact if_pos (by rcases hl with rfl | hl <;> simp [*])

section
variable (hl : s.pcie.link = true)
include hl

theorem requestConsume_reads :
    s.requestConsume m true =
      if 224 < s.nextLen m then s.mbxError m 4
      else if (s.rd (Reg.mbxReqPi m) + 65536 - s.rd (Reg.mbxReqCi m)) % 65536 < slotsFor (s.nextLen m) then s
      else (((s.wr (Reg.mbxReqCi m) ((s.rd (Reg.mbxReqCi m) + slotsFor (s.nextLen m)) % 65536)).setMbx m
        { s.mbxAt m with reqs := (s.mbxAt m).reqs ++ [{
            bytes := (s.ringBytes (s.rdPair (Reg.mbxReqBaseLo m) (Reg.mbxReqBaseHi m)) (s.reqSize m) (s.rd (Reg.mbxReqCi m))
              (slotsFor (s.nextLen m))).take (16 + s.nextLen m)
            time := s.mrd.time, tmo := s.rdF (Reg.mbxTmo m) 15 0, ans := hwAnswer s.fwSt m, gone := false }] }).shadow m) := by
  unfold State.requestConsume
  dsimp only
  rw [if_neg fun hn => not_consumes_iff.mp hn h, if_neg (by rw [hl]; decide)]
  rfl

theorem requestConsume_tooLong (hlen : 224 < s.nextLen m) : s.requestConsume m true = s.mbxError m 4 :=
  (requestConsume_reads h hl).trans (if_pos hlen)

theorem requestConsume_partial (hlen : s.nextLen m ≤ 224)
    (hn : (s.rd (Reg.mbxReqPi m) + 65536 - s.rd (Reg.mbxReqCi m)) % 65536 < slotsFor (s.nextLen m)) : s.requestConsume m true = s :=
  ((requestConsume_reads h hl).trans (if_neg (Nat.not_lt.mpr hlen))).trans (if_pos hn)

theorem requestConsume_takes (hlen : s.nextLen m ≤ 224)
    (hn : slotsFor (s.nextLen m) ≤ (s.rd (Reg.mbxReqPi m) + 65536 - s.rd (Reg.mbxReqCi m)) % 65536) :
    s.requestConsume m true =
      (((s.wr (Reg.mbxReqCi m) ((s.rd (Reg.mbxReqCi m) + slotsFor (s.nextLen m)) % 65536)).setMbx m
        { s.mbxAt m with reqs := (s.mbxAt m).reqs ++ [{
            bytes := (s.ringBytes (s.rdPair (Reg.mbxReqBaseLo m) (Reg.mbxReqBaseHi m)) (s.reqSize m) (s.rd (Reg.mbxReqCi m))
              (slotsFor (s.nextLen m))).take (16 + s.nextLen m)
            time := s.mrd.time, tmo := s.rdF (Reg.mbxTmo m) 15 0, ans := hwAnswer s.fwSt m, gone := false }] }).shadow m) :=
  ((requestConsume_reads h hl).trans (if_neg (Nat.not_lt.mpr hlen))).trans (if_neg (Nat.not_lt.mpr hn))

end
end
end

/-- Settles O18: `REQUEST_CONSUME` is one `requestConsume`, which reads the ring where there is room and work. -/
theorem requestConsumed : Obligations.RequestConsumed := by
  intro m s hm hu b x ci occ used base len n
  have consume : ∀ {ok t}, b.requestConsume m ok = t → exec (.requestConsume m ok) s = .next (after s t) :=
    fun h => pcmd_does (f := fun s => s.requestConsume m _) (decide_eq_true hm) hu h
  refine ⟨fun hidle ok => consume (requestConsume_idle ?_ ok), fun hon hocc hroom => ?_⟩
  · rintro ⟨hon, hocc, hroom⟩
    rcases hidle with h | h | h
    · rw [hon] at h
      exact absurd h (by decide)
    · exact hocc h
    · exact absurd hroom (Nat.not_lt.mpr h)
  · have h : b.consumes m := ⟨hon, hocc, hroom⟩
    exact ⟨fun hl hlen hn => consume (requestConsume_takes h hl hlen hn), fun hl hlen hn => consume (requestConsume_partial h hl hlen hn),
      fun ok hl => consume (requestConsume_fails h hl), fun hl hlen => consume (requestConsume_tooLong h hl hlen)⟩

/-! ### Responses (R38, R39, R46, R55, R68) -/

/-- A write to the response ring fails: PCIe reports it, or the link is down. -/
theorem lost_iff {s : State} {ok : Bool} : (!ok || !s.pcie.link) = true ↔ ok = false ∨ s.pcie.link = false := by
  simp only [Bool.or_eq_true, Bool.not_eq_true']

section
variable {s : State} {m k : Nat} {ok : Bool}

theorem responseCommit_none (h : (s.mbxAt m).reqs[k]? = none) : s.responseCommit m k ok = s := by
  unfold State.responseCommit
  rw [h]

section
variable {q : MbxReq}

theorem respondThen_restart (r : Resp) : s.respondThen m k q r .restart ok = (s.respond m k r ok).enterRestarting := by
  unfold State.respondThen
  rfl

theorem respondThen_blend (r : Resp) (id : Nat) : s.respondThen m k q r (.blend id) ok = (s.respond m k r ok).blendInForce id := by
  unfold State.respondThen
  rfl

theorem respondThen_power {r : Resp} {deep : Bool} (hp : s.nw.pstate = .run) :
    s.respondThen m k q r (.power deep) ok = (s.respond m k r ok).entryBegins deep (s.wakeAtOf q.bytes (q.time / 2 ^ 32)) :=
  if_neg (by rw [hp]; decide)

theorem respondThen_unpowered {r : Resp} {deep : Bool} (hp : s.nw.pstate ≠ .run) :
    s.respondThen m k q r (.power deep) ok = s.respond m k (.st stBadState) ok :=
  if_pos (bne_iff_ne.mpr hp)

variable (h : (s.mbxAt m).reqs[k]? = some q)
include h

theorem respond_some (r : Resp) :
    s.respond m k r ok =
      if q.gone then s.setMbx m { s.mbxAt m with reqs := (s.mbxAt m).reqs.eraseIdx k }
      else (s.setMbx m { s.mbxAt m with reqs := (s.mbxAt m).reqs.eraseIdx k }).writeResponse m q r ok := by
  unfold State.respond
  dsimp only
  rw [h]

theorem responseCommit_ready {r : Resp} (ha : q.ans = .ready r) : s.responseCommit m k ok = s.respond m k r ok := by
  unfold State.responseCommit
  rw [h]
  dsimp only
  rw [ha]

theorem responseCommit_then {r : Resp} {w : Wait} (ha : q.ans = .thenDo r w) : s.responseCommit m k ok = s.respondThen m k q r w ok := by
  unfold State.responseCommit
  rw [h]
  dsimp only
  rw [ha]

section
variable {w : Wait} {t : State} (ha : q.ans = .wait w)
include ha

theorem responseCommit_over {r : Resp} (hw : s.waitOver q w = (some r, t)) : s.responseCommit m k ok = t.respond m k r ok := by
  unfold State.responseCommit
  rw [h]
  dsimp only
  rw [ha]
  dsimp only
  rw [hw]

theorem responseCommit_waits (hw : s.waitOver q w = (none, t)) : s.responseCommit m k ok = t := by
  unfold State.responseCommit
  rw [h]
  dsimp only
  rw [ha]
  dsimp only
  rw [hw]

end

section
variable (ha : q.ans = .none)
include ha

theorem responseCommit_stray {r : Resp} (hn : s.nextReq m = some (k, q.bytes)) (hr : s.strayAnswer m q.bytes = some r) :
    s.responseCommit m k ok = s.respond m k r ok := by
  unfold State.responseCommit
  rw [h]
  dsimp only
  rw [ha]
  dsimp only
  rw [if_neg (not_not_intro hn), hr]

theorem responseCommit_left (hn : s.nextReq m ≠ some (k, q.bytes) ∨ s.strayAnswer m q.bytes = none) : s.responseCommit m k ok = s := by
  unfold State.responseCommit
  rw [h]
  dsimp only
  rw [ha]
  dsimp only
  rcases hn with hn | hn
  · exact if_pos hn
  · rw [hn]
    exact ite_self _

end
end
end

theorem writeResponse_eq (s : State) (m : Nat) (q : MbxReq) (r : Resp) (ok : Bool) :
    s.writeResponse m q r ok =
      if ok = false ∨ s.pcie.link = false then s.mbxError m 3
      else
        (((s.post1 (s.rdPair (Reg.mbxRspBaseLo m) (Reg.mbxRspBaseHi m) + s.rd (Reg.mbxRspPi m) % s.rspSize m * 64)
          (slotBytes (mOp q.bytes) r.flags (leAt q.bytes 4 4) r.status r.payload)).wr (Reg.mbxRspPi m)
            ((s.rd (Reg.mbxRspPi m) + 1) % 65536)).shadow m).mbxVector m := by
  unfold State.writeResponse
  by_cases hl : ok = false ∨ s.pcie.link = false
  · rw [if_pos (lost_iff.mpr hl), if_pos hl]
  · rw [if_neg fun h => hl (lost_iff.mp h), if_neg hl]

section
variable {s : State} {m k : Nat} (hm : m < 64) (hu : s.pwr.up = true) (ok : Bool)
include hm hu

theorem responseTimeout_none (h : ((begin s).mbxAt m).reqs[k]? = none) : exec (.responseTimeout m k ok) s = .next (after s (begin s)) := by
  refine pcmd_does (decide_eq_true hm) hu ?_
  rw [h]

section
variable {q : MbxReq} (h : ((begin s).mbxAt m).reqs[k]? = some q)
include h

theorem responseTimeout_over (hq : q.tmo = 0 ∨ q.gone = true) : exec (.responseTimeout m k ok) s = .next (after s (begin s)) := by
  refine pcmd_does (decide_eq_true hm) hu ?_
  rw [h]
  refine if_pos ?_
  rcases hq with hq | hq <;> simp [hq]

theorem responseTimeout_writes (ht : q.tmo ≠ 0) (hg : q.gone = false) :
    exec (.responseTimeout m k ok) s = .next (after s
      (let u := (begin s).until (q.time + q.tmo * 1000000 * 2 ^ 32)
       let v := u.setMbx m { u.mbxAt m with reqs := (u.mbxAt m).reqs.set k { q with gone := true } }
       v.writeResponse m q { status := stBusy, flags := 2, payload := [] } ok)) := by
  refine pcmd_does (decide_eq_true hm) hu ?_
  rw [h]
  exact if_neg (by simp [ht, hg])

end
end

/-! ### Notices (R51) -/

section
variable {s : State} {m : Nat} {ok : Bool}

theorem noticeDeliver_none (h : (s.mbxAt m).notices = []) : s.noticeDeliver m ok = s := by
  unfold State.noticeDeliver
  dsimp only
  rw [h]

section
variable {n : List Byte} {rest : List (List Byte)} (h : (s.mbxAt m).notices = n :: rest)
include h

theorem noticeDeliver_cons :
    s.noticeDeliver m ok =
      if !s.mbxOn m || s.rspSize m ≤ (s.mbxAt m).open + (s.rd (Reg.mbxRspPi m) + 65536 - s.rd (Reg.mbxRspCi m)) % 65536 + 1 then s
      else if !ok || !s.pcie.link then s.mbxError m 3
      else
        (((((s.post1 (s.rdPair (Reg.mbxRspBaseLo m) (Reg.mbxRspBaseHi m) + s.rd (Reg.mbxRspPi m) % s.rspSize m * 64)
          (if (s.mbxAt m).lost then patch n 2 (leBytes 2 (leAt n 2 2 ||| 8)) else n)).wr (Reg.mbxRspPi m)
            ((s.rd (Reg.mbxRspPi m) + 1) % 65536)).setMbx m { s.mbxAt m with notices := rest, lost := false }).shadow m).mbxVector m) := by
  unfold State.noticeDeliver
  dsimp only
  rw [h]

theorem noticeDeliver_waits
    (hw : s.mbxOn m = false ∨ s.rspSize m ≤ (s.mbxAt m).open + (s.rd (Reg.mbxRspPi m) + 65536 - s.rd (Reg.mbxRspCi m)) % 65536 + 1) :
    s.noticeDeliver m ok = s :=
  (noticeDeliver_cons h).trans (if_pos (by simpa using hw))

section
variable (hon : s.mbxOn m = true)
  (hroom : (s.mbxAt m).open + (s.rd (Reg.mbxRspPi m) + 65536 - s.rd (Reg.mbxRspCi m)) % 65536 + 1 < s.rspSize m)
include hon hroom

theorem noticeDeliver_room :
    s.noticeDeliver m ok =
      if !ok || !s.pcie.link then s.mbxError m 3
      else
        (((((s.post1 (s.rdPair (Reg.mbxRspBaseLo m) (Reg.mbxRspBaseHi m) + s.rd (Reg.mbxRspPi m) % s.rspSize m * 64)
          (if (s.mbxAt m).lost then patch n 2 (leBytes 2 (leAt n 2 2 ||| 8)) else n)).wr (Reg.mbxRspPi m)
            ((s.rd (Reg.mbxRspPi m) + 1) % 65536)).setMbx m { s.mbxAt m with notices := rest, lost := false }).shadow m).mbxVector m) :=
  (noticeDeliver_cons h).trans (if_neg (by simp [hon, hroom]))

theorem noticeDeliver_fails (hl : ok = false ∨ s.pcie.link = false) : s.noticeDeliver m ok = s.mbxError m 3 :=
  (noticeDeliver_room h hon hroom).trans (if_pos (lost_iff.mpr hl))

theorem noticeDeliver_writes (hl : ¬(ok = false ∨ s.pcie.link = false)) :
    s.noticeDeliver m ok =
      (((((s.post1 (s.rdPair (Reg.mbxRspBaseLo m) (Reg.mbxRspBaseHi m) + s.rd (Reg.mbxRspPi m) % s.rspSize m * 64)
        (if (s.mbxAt m).lost then patch n 2 (leBytes 2 (leAt n 2 2 ||| 8)) else n)).wr (Reg.mbxRspPi m)
          ((s.rd (Reg.mbxRspPi m) + 1) % 65536)).setMbx m { s.mbxAt m with notices := rest, lost := false }).shadow m).mbxVector m) :=
  (noticeDeliver_room h hon hroom).trans (if_neg fun h => hl (lost_iff.mp h))

end
end
end

/-- Settles O19: a response is committed by its answer's form, a deadline writes BUSY, and a notice waits for room. -/
theorem responsesAndNotices : Obligations.ResponsesAndNotices := by
  intro m k ok s hm hu b x lost slot next commits
  have hm' := decide_eq_true hm
  have commit : ∀ {t}, b.responseCommit m k ok = t → commits t := fun h => pcmd_does (f := fun s => s.responseCommit m k ok) hm' hu h
  have deliver : ∀ {t}, b.noticeDeliver m ok = t → exec (.noticeDeliver m ok) s = .next (after s t) :=
    fun h => pcmd_does (f := fun s => s.noticeDeliver m ok) hm' hu h
  refine ⟨fun h => ⟨commit (responseCommit_none h), responseTimeout_none hm hu ok h⟩, fun q h => ?_, fun h => ?_, fun n rest h hon hroom => ?_⟩
  · intro done
    refine ⟨fun r => ?_, fun r ha => commit (responseCommit_ready h ha),
      fun r ha => commit ((responseCommit_then h ha).trans (respondThen_restart r)),
      fun r id ha => commit ((responseCommit_then h ha).trans (respondThen_blend r id)), fun r deep ha hp => ?_, fun r deep ha hp => ?_,
      fun w r t ha hw => commit (responseCommit_over h ha hw), fun w t ha hw => commit (responseCommit_waits h ha hw),
      fun r ha hn hr => commit (responseCommit_stray h ha hn hr), fun ha hn => commit (responseCommit_left h ha hn),
      fun ht hg => responseTimeout_writes hm hu ok h ht hg, responseTimeout_over hm hu ok h⟩
    · rw [respond_some h r, writeResponse_eq]
      rfl
    · exact commit ((responseCommit_then h ha).trans (respondThen_power hp))
    · exact commit ((responseCommit_then h ha).trans (respondThen_unpowered hp))
  · refine deliver ?_
    by_cases hn : x.notices = []
    · exact noticeDeliver_none hn
    · obtain ⟨n, rest, hn'⟩ := List.exists_cons_of_ne_nil hn
      exact noticeDeliver_waits hn' (h.resolve_left hn)
  · exact ⟨fun hl => deliver (noticeDeliver_fails h hon hroom hl), fun hl => deliver (noticeDeliver_writes h hon hroom hl)⟩

end Sys2Proof.Machine
end

section
/-! The control firmware's restarts and its start, and the refusals that every message meets first (R38, R42, R44, R45, R48 to R50, R53 to R56,
R501, R502). -/

namespace Sys2Proof.Machine

/-! ### Restarts (R49, R501) -/

section
variable {s : State}

theorem fwUp_iff : s.fwUp = true ↔ s.fwSt = 2 ∨ s.fwSt = 3 := decide_eq_true_iff

theorem fwRestart_idle (h4 : s.fwSt ≠ 4) (hup : ¬s.fwUp = true) : s.fwRestart = s := (if_neg h4).trans (if_neg hup)

theorem fwRestart_restarting (h : s.fwSt = 4) : s.fwRestart = s.fwReload := by
  unfold State.fwRestart
  rw [if_pos h]

theorem fwRestart_up (h : s.fwSt = 2 ∨ s.fwSt = 3) : s.fwRestart = s.enterRestarting.fwReload :=
  (if_neg (by omega)).trans (if_pos (fwUp_iff.mpr h))

theorem fwReload_limit (h : s.fw.limit ≤ s.recentRestarts) : s.fwReload = s.fwFailed := if_pos h

theorem fwReload_boots {u : State} (h : s.recentRestarts < s.fw.limit) (hb : s.romBoot true = (true, u)) : s.fwReload = u := by
  unfold State.fwReload
  rw [if_neg (Nat.not_le.mpr h), hb]

theorem fwReload_imageless {u : State} (h : s.recentRestarts < s.fw.limit) (hb : s.romBoot true = (false, u)) :
    s.fwReload =
      let v : State := { u with fw := { u.fw with restarts := u.ns :: u.fw.restarts } }
      if v.fw.limit ≤ v.recentRestarts then v.fwFailed else v := by
  unfold State.fwReload
  rw [if_neg (Nat.not_le.mpr h), hb]

theorem fwctrlReload_idle (h : s.fwSt ≠ 5) : s.fwctrlReload = s := if_pos h

section
variable {u : State} (h : s.fwSt = 5)
include h

theorem fwctrlReload_starts (hl : (s.setFwSt 1).romRemap.romLoad = (true, u)) :
    s.fwctrlReload = { u with fw := { u.fw with restarted := true } } := by
  unfold State.fwctrlReload
  rw [if_neg (not_not_intro h), hl]

theorem fwctrlReload_holds (hl : (s.setFwSt 1).romRemap.romLoad = (false, u)) :
    s.fwctrlReload = { u with sec := { u.sec with hold := true } } := by
  unfold State.fwctrlReload
  rw [if_neg (not_not_intro h), hl]

end

theorem exec_mbxFwctrlReload {i : Init} (hi : i.hostOrCtl = true) (hu : s.pwr.up = true) (v : Word) {t : State}
    (ht : (if tb v.toNat 0 then (begin s).fwctrlReload else begin s) = t) :
    exec (.mbxFwctrlReload i v) s = .next { t with pending := s.pending } :=
  otpCmd_does (f := fun s => if tb v.toNat 0 then s.fwctrlReload else s) hi hu ht

end

/-! ### The start (R50, R56) -/

theorem fwRunning_idle {s : State} (h : s.fwSt ≠ 2) : s.fwRunning = s := if_pos h

/-- What a start of the firmware does, step by step. -/
theorem fwRunning_starts {s : State} (h : s.fwSt = 2) :
    s.fwRunning =
      let c := if s.coldBoot then s.recordBoot else s
      let d := if c.fw.restarted then c.freshInstance else c
      let e := if d.nw.pstate == .waking then d.mapColumns (fun _ => true) else d
      let u := (List.range 64).foldl (fun (s : State) m => s.readyTo m) ((e.setFwSt 3).setAlive true 0).started
      (if u.mrdState = 4 ∧ !u.fw.restarted then u.timeNotice 0 5 else u).controlUsed.evalMode := by
  unfold State.fwRunning
  rw [if_neg (not_not_intro h)]

/-- Settles O20: the restarts come down to `fwRestart` and `fwctrlReload`, the start to `fwRunning`, each by STATE. -/
theorem firmwareRestarts : Obligations.FirmwareRestarts := by
  intro s hu b restart
  have restarts : ∀ {t}, b.fwRestart = t → restart t := otpCmd_does rfl hu
  refine ⟨fun h => ⟨?_, fun i hi => ?_⟩, fun h2 h3 => ⟨?_, fun i hi => ?_, fun h4 => ?_⟩, fun h => restarts (fwRestart_up h),
    fun h => restarts (fwRestart_restarting h), fun r h => fwReload_limit h, fun r u h hb => fwReload_boots h hb,
    fun r u h hb => fwReload_imageless h hb, fun i v u hi hv h5 => ⟨fun hl => ?_, fun hl => ?_⟩, fun i v hi h => ?_, fun h => ?_, fun h => ?_⟩
  · exact pcmd_does rfl hu (if_pos (fwUp_iff.mpr h))
  · exact pcmd_does (decide_eq_true hi) hu (if_pos (fwUp_iff.mpr h))
  · exact pcmd_does rfl hu (if_neg fun h => (fwUp_iff.mp h).elim h2 h3)
  · exact pcmd_does (decide_eq_true hi) hu (if_neg fun h => (fwUp_iff.mp h).elim h2 h3)
  · exact restarts (fwRestart_idle h4 fun h => (fwUp_iff.mp h).elim h2 h3)
  · exact exec_mbxFwctrlReload hi hu v ((if_pos hv).trans (fwctrlReload_starts h5 hl))
  · exact exec_mbxFwctrlReload hi hu v ((if_pos hv).trans (fwctrlReload_holds h5 hl))
  · refine exec_mbxFwctrlReload hi hu v ?_
    rcases h with h | h
    · rw [fwctrlReload_idle h, ite_self]
    · exact if_neg (ne_true_of_eq_false h)
  · exact pcmd_does rfl hu (fwRunning_idle h)
  · exact pcmd_does rfl hu (fwRunning_starts h)

/-! ### Refusals (R38, R42, R44, R45, R53) -/

section
variable {s : State} {m k op : Nat} {bs : List Byte} {form : List Byte → Bool} {f : List Byte → State → Ans × State}

theorem handleIf_unserved : s.handleIf false m op form f = s := rfl

theorem handleIf_idle (ok : Bool) (hn : s.nextReq m = none) : s.handleIf ok m op form f = s := by
  unfold State.handleIf
  rw [hn]
  exact ite_self _

theorem handleIf_other (ok : Bool) (hn : s.nextReq m = some (k, bs)) (h : mOp bs ≠ op) : s.handleIf ok m op form f = s := by
  unfold State.handleIf
  rw [hn]
  cases ok
  · rfl
  · exact (if_neg (by decide)).trans (if_pos (Bool.or_eq_true_iff.mpr (.inl (decide_eq_true h))))

section
variable (hn : s.nextReq m = some (k, bs)) (hop : mOp bs = op) (hf : form bs = true)
include hn hop hf

theorem handleIf_refuses {r : Resp} (hr : s.refuse m bs = some r) : s.handleIf true m op form f = s.setAns m k (.ready r) := by
  unfold State.handleIf
  simp only [hn, hop, hf, hr, Bool.not_true, Bool.or_false, ne_eq, not_true_eq_false, decide_false, Bool.false_eq_true, if_false]

theorem handleIf_answers (hr : s.refuse m bs = none) : s.handleIf true m op form f = (f bs s).2.setAns m k (f bs s).1 := by
  unfold State.handleIf
  simp only [hn, hop, hf, hr, Bool.not_true, Bool.or_false, ne_eq, not_true_eq_false, decide_false, Bool.false_eq_true, if_false]

end
end

/-- A message of the control firmware is handled as `State.handle` says, whichever it is. -/
theorem exec_message {i : Instr} {m op : Nat} {form : List Byte → Bool} (h : msgOf i = some (m, op, form)) (hwf : i.wf = true) {s : State}
    (hu : s.pwr.up = true) : ∃ f, exec i s = .next (after s ((begin s).handle m op form f)) := by
  cases i <;> cases h <;> exact ⟨_, pcmd_next hwf hu _⟩

theorem setAns_sec (s : State) (m k : Nat) (a : Ans) : (s.setAns m k a).sec = s.sec := by
  unfold State.setAns
  dsimp only
  split <;> rfl

/-- Putting back the OTP does nothing to a state that holds it. -/
theorem after_of_sec {s t : State} (h : t.sec = s.sec) : after s t = { t with pending := s.pending } := by
  unfold after keepOtp
  rw [h, ← h]

section
variable {i : Instr} {m op : Nat} {v : Bool} {s : State} (hu : s.pwr.up = true) (hm : m < 64)
  (hi : i = .sysPing m ∧ op = 0x0101 ∨ i = .sysInfo m ∧ op = 0x0102 ∨ i = .sysBootrun m ∧ op = 0x0180 ∨ i = .sysFlashwr m v ∧ op = 0x0181)
include hu hm hi

/-- The messages that the boot ROM serves, where nobody serves the mailbox or the request is refused or another's. -/
theorem exec_romMessage {t : State} (ht : t.sec = s.sec)
    (h : ∀ ok f, (ok = true ↔ (begin s).romServes m = true ∨ op < 0x0180 ∧ s.fwSt = 3) → (begin s).handleIf ok m op (fun _ => true) f = t) :
    exec i s = .next (after s t) := by
  have hm' := decide_eq_true hm
  have hserves : ∀ {n : Nat}, n < 0x0180 → ((decide (s.fwSt = 3) || (begin s).romServes m) = true ↔ (begin s).romServes m = true ∨ n < 0x0180 ∧ s.fwSt = 3) := by
    intro n hn
    rw [Bool.or_eq_true, decide_eq_true_eq, or_comm, and_iff_right hn]
  have hrom : ∀ {n : Nat}, ¬n < 0x0180 → ((begin s).romServes m = true ↔ (begin s).romServes m = true ∨ n < 0x0180 ∧ s.fwSt = 3) :=
    fun hn => ⟨.inl, fun h => h.elim id fun h => absurd h.1 hn⟩
  rcases hi with ⟨rfl, rfl⟩ | ⟨rfl, rfl⟩ | ⟨rfl, rfl⟩ | ⟨rfl, rfl⟩
  · exact pcmd_does hm' hu (h _ _ (hserves (by decide)))
  · exact pcmd_does hm' hu (h _ _ (hserves (by decide)))
  · rw [after_of_sec ht]
    exact otpCmd_does hm' hu (h _ _ (hrom (by decide)))
  · exact pcmd_does hm' hu (h _ _ (hrom (by decide)))

end

/-- Settles O21: a message is one `handle`, and one that the ROM serves too is one `handleIf`; both refuse and pass over alike. -/
theorem messagesRefused : Obligations.MessagesRefused := by
  refine ⟨fun i m op form s hi hwf hu hst => ?_, ?_⟩
  · obtain ⟨f, he⟩ := exec_message hi hwf hu
    refine ⟨fun k bs r hn hop hf hr => ?_, fun k bs hn h => ?_, fun hn => ?_⟩
    · exact he.trans (congrArg (fun t => Host.Outcome.next (after s t)) (handle_refuses (s := begin s) hst hn hop hr hf f))
    · exact he.trans (congrArg (fun t => Host.Outcome.next (after s t)) (handle_other (s := begin s) hn h f))
    · exact he.trans (congrArg (fun t => Host.Outcome.next (after s t)) (handle_idle (s := begin s) hn op form f))
  · intro i m op v s hu hm rom hi
    refine ⟨fun k bs r hserve hn hop hr => ?_, fun k bs hn hop => ?_, fun h => ?_⟩
    · refine exec_romMessage hu hm hi (setAns_sec _ _ _ _) fun ok f hok => ?_
      rw [hok.mpr hserve]
      exact handleIf_refuses (s := begin s) hn hop rfl hr
    · exact exec_romMessage hu hm hi rfl fun ok f _ => handleIf_other (s := begin s) ok hn hop
    · refine exec_romMessage hu hm hi rfl fun ok f hok => ?_
      rcases h with hn | ⟨hrom, hop⟩
      · exact handleIf_idle (s := begin s) ok hn
      · have hno : ok = false := Bool.eq_false_iff.mpr fun h => (hok.mp h).elim hrom fun hs => by omega
        rw [hno]
        exact handleIf_unserved

/-- The opcodes of the control firmware's messages: those of one form, and those of several. -/
theorem msgOf_op {i : Instr} {m op : Nat} {form : List Byte → Bool} (h : msgOf i = some (m, op, form)) :
    op ∈ plainOps ++ [0x0104, 0x0201, 0x0801, 0x0803, 0x0901, 0x0B02, 0x0E01] := by
  cases i <;> cases h <;> decide

/-- The messages that R45 names are the privileged ones of the model. -/
theorem privOps_of_named : ∀ op ∈ plainOps ++ [0x0104, 0x0201, 0x0801, 0x0803, 0x0901, 0x0B02, 0x0E01],
    (op = 0x0103 ∨ op = 0x0104 ∨ op / 256 = 0x02 ∨ op = 0x0703 ∨ op = 0x0B01 ∨ op = 0x0501 ∨ op = 0x0502 ∨ op / 256 = 0x0E) →
      privOps.contains op = true := by decide

/-- Settles O22: a message that R45 names is refused with DENIED, and what is refused is left so by O21. -/
theorem privilegedDenied : Obligations.PrivilegedDenied := by
  intro i m k op form bs s hi hwf hu hst hn hop hf hh hp hpriv
  have hr : s.refuse m bs = some (.st stDenied) := by
    unfold State.refuse
    rw [hh, hop, privOps_of_named op (msgOf_op hi) hpriv, hp]
    rfl
  exact (messagesRefused.1 i m op form s hi hwf hu hst).1 k bs _ hn hop hf hr

end Sys2Proof.Machine
end

section
/-! The queries, case by case: what each reads, and that nothing but the answer changes (R54, R60, R63, R65, R67, R357, R389, R417, R444, R456). -/

namespace Sys2Proof.Machine

/-! ### SYS.PING and SYS.INFO (R54) -/

section
variable {s : State} {m k op : Nat} {bs : List Byte}

/-- Whoever serves the mailbox finds request `k` next: the message `op` with the bytes `bs`, which neither R42 nor R45 refuses. -/
def State.servedTo (s : State) (m k op : Nat) (bs : List Byte) : Prop :=
  s.pwr.up = true ∧ m < 64 ∧ (s.fwSt = 3 ∨ (begin s).romServes m = true) ∧ s.nextReq m = some (k, bs) ∧ mOp bs = op ∧ s.refuse m bs = none

theorem served_answers {i : Instr} (h : s.servedTo m k op bs) {f : List Byte → State → Ans × State}
    (he : exec i s = pcmd (decide (m < 64)) s fun s => s.handleIf (decide (s.fwSt = 3) || s.romServes m) m op (fun _ => true) f)
    {a : Ans} {t : State} (hd : f bs (begin s) = (a, t)) : Answers i s m k a t := by
  obtain ⟨hu, hm, hserve, hn, hop, hr⟩ := h
  have hok : (decide ((begin s).fwSt = 3) || (begin s).romServes m) = true := by
    rw [Bool.or_eq_true, decide_eq_true_eq]
    exact hserve
  unfold Answers
  rw [he]
  refine pcmd_does (decide_eq_true hm) hu ?_
  rw [hok, handleIf_answers (s := begin s) hn hop rfl hr, hd]

/-- The part of SYS.INFO that the boot ROM gives too. -/
def State.identity (s : State) : List Byte := leBytes 4 s.sysId ++ leBytes 4 s.secStat ++ leBytes 8 Config.uid.toNat

theorem sysInfo_rom (h : s.fwSt ≠ 3) : s.sysInfo = s.identity ++ List.replicate 32 0 := if_pos h

theorem sysInfo_running (h : s.fwSt = 3) :
    s.sysInfo = s.identity ++ leBytes 4 s.fw.keyId ++ leBytes 1 s.fw.svn ++ leBytes 1 (s.rdF Reg.mbxFwstate 15 8) ++
      leBytes 1 (s.mode + 128 * bn s.rsv.forced.isSome) ++ leBytes 1 (s.rdF Reg.mrdState 3 0) ++ leBytes 2 s.rsv.rated ++
      leBytes 2 s.rsv.fskCh ++ leBytes 4 s.rsv.taskSlots ++ (s.fw.digest ++ List.replicate 8 0).take 8 ++ List.replicate 8 0 :=
  if_neg (not_not_intro h)

end

/-! ### Carriers, plans, blends and flows (R60, R63, R65, R67) -/

section
variable {s : State} {bs : List Byte}

theorem carrierQuery_refused (h : 383 < leAt bs 16 2) : State.carrierQuery bs s = (said stBadParam, s) := if_pos h

section
variable (hid : leAt bs 16 2 < 384)
include hid

theorem carrierQuery_none (hc : s.carrier? (leAt bs 16 2) = none) : State.carrierQuery bs s = (saidOk (List.replicate 32 0), s) := by
  unfold State.carrierQuery
  dsimp only
  rw [if_neg (by omega), hc]

/-- The STATE of R60 by the carrier's own and its timeline's. -/
theorem carrierQuery_some {c : Carrier} {st : Nat} (hc : s.carrier? (leAt bs 16 2) = some c)
    (hst : c.st = .stopped ∧ st = 1 ∨ c.st = .started ∧ s.armed (leAt bs 16 2) = true ∧ st = 2 ∨
      c.st = .started ∧ s.armed (leAt bs 16 2) = false ∧ st = 3 ∨ c.st = .draining ∧ st = 4) :
    State.carrierQuery bs s = (saidOk (leBytes 1 st ++ leBytes 1 (cRat c) ++ leBytes 1 (cMu c) ++ leBytes 1 (cBand c) ++ leBytes 2 (cPrb c) ++
      leBytes 2 (cAnt c) ++ leBytes 4 c.flowBase ++ leBytes 2 c.flowCount ++ leBytes 2 (carrierLoad c * 16 / 546) ++ leBytes 4 c.plans ++
      leBytes 4 c.late ++ leBytes 4 c.expired ++ leBytes 4 (mget (fun _ => 0) s.front.missing (leAt bs 16 2))), s) := by
  unfold State.carrierQuery
  dsimp only
  rw [if_neg (by omega), hc]
  rcases hst with ⟨h, rfl⟩ | ⟨h, ha, rfl⟩ | ⟨h, ha, rfl⟩ | ⟨h, rfl⟩
  · simp only [h]
  · simp only [h, ha, if_true]
  · simp only [h, ha, Bool.false_eq_true, if_false]
  · simp only [h]

end

theorem slotQuery_unknown (h : s.knownPlan (leAt bs 16 4) = none) : State.slotQuery bs s = (said stBadParam, s) := by
  unfold State.slotQuery
  rw [h]

/-- The STATE of R63 by whether the plan has ended, and how. -/
theorem slotQuery_known {p : Plan} {st : Nat} (h : s.knownPlan (leAt bs 16 4) = some p)
    (hst : p.ended = none ∧ s.planStarted p = false ∧ st = 1 ∨ p.ended = none ∧ s.planStarted p = true ∧ st = 2 ∨
      p.ended ≠ none ∧ p.killed = false ∧ st = 3 ∨ p.ended ≠ none ∧ p.killed = true ∧ st = 4) :
    State.slotQuery bs s = (saidOk (leBytes 1 st ++ leBytes 1 (bn p.doneWritten) ++ leBytes 2 p.carrier ++ leBytes 4 p.total ++
      leBytes 4 (p.done + p.fault + p.expired + p.cancelled) ++ leBytes 4 p.done ++ leBytes 4 p.fault ++ leBytes 4 p.expired ++
      leBytes 4 p.cancelled), s) := by
  unfold State.slotQuery
  rw [h]
  rcases hst with ⟨he, hp, rfl⟩ | ⟨he, hp, rfl⟩ | ⟨he, hp, rfl⟩ | ⟨he, hp, rfl⟩
  · simp only [he, hp, planCommitted, Option.isSome_none, Bool.false_eq_true, if_false]
  · simp only [he, hp, planCommitted, Option.isSome_none, Bool.false_eq_true, if_false, if_true]
  · simp only [Option.isSome_iff_ne_none.mpr he, hp, planCommitted, Bool.false_eq_true, if_false, if_true]
  · simp only [Option.isSome_iff_ne_none.mpr he, hp, planCommitted, if_true]

theorem blendQuery_none (h : s.blend? (leAt bs 16 2) = none) : State.blendQuery bs s = (saidOk (List.replicate 24 0), s) := by
  unfold State.blendQuery
  dsimp only
  rw [h]

theorem blendQuery_some {d : Blend} (h : s.blend? (leAt bs 16 2) = some d) :
    State.blendQuery bs s = (saidOk ([1, 0] ++ leBytes 2 d.templates ++ leBytes 2 d.idem ++ [0, 0] ++ leBytes 4 d.planLen ++ leBytes 4 d.keyId ++
      leBytes 1 d.svn ++ [0, 0, 0] ++ leBytes 4 (s.blendUse (leAt bs 16 2))), s) := by
  unfold State.blendQuery
  dsimp only
  rw [h]

theorem flowQuery_refused (h : 65535 < leAt bs 16 4) : State.flowQuery bs s = (said stBadParam, s) := if_pos h

theorem flowQuery_flow (h : leAt bs 16 4 < 65536) :
    State.flowQuery bs s =
      let f := s.flow (leAt bs 16 4)
      let ts := s.flowTasks (leAt bs 16 4)
      (saidOk (leBytes 1 (bn f.opened) ++ leBytes 1 (bn (ts.any fun e => Sys2Proof.Machine.inService e.2)) ++ leBytes 1 f.home ++
        leBytes 1 (bn f.pin) ++ leBytes 1 (bn f.dlpol) ++ leBytes 1 f.recp ++ leBytes 1 f.cq ++ [0] ++ leBytes 4 ts.length), s) :=
  if_neg (by omega)

/-! ### Lanes (R357) -/

theorem laneStatus_refused (h : s.laneNamed (leAt bs 16 1) (leAt bs 17 1) = false) : State.laneStatus bs s = (said stBadParam, s) :=
  if_pos (by rw [h]; rfl)

/-- The lane's counts are given and cleared. -/
theorem laneStatus_lane (h : s.laneNamed (leAt bs 16 1) (leAt bs 17 1) = true) :
    State.laneStatus bs s =
      let g := leAt bs 16 1
      let l := leAt bs 17 1
      let r := s.regNow (.ctl 0) 0xC00004 [g, l] (Reg.laneStat g l)
      let x := r.2.lane g l
      let eye := r.2.rd (Reg.laneEye g l)
      (saidOk (leBytes 1 (fld r.1 31 28) ++ leBytes 1 (r.1 % 256) ++ leBytes 1 (r.2.laneMode g l) ++ leBytes 1 (fld r.1 27 24) ++
        leBytes 4 x.retry ++ leBytes 4 x.errs ++ leBytes 4 x.fecC ++ leBytes 4 x.fecU ++ leBytes 2 (fld eye 7 0) ++ leBytes 2 (fld eye 27 16)),
        r.2.setLane g l { x with retry := 0, errs := 0, fecC := 0, fecU := 0 }) :=
  if_neg (by rw [h]; decide)

end

/-! ### Spares (R444) -/

theorem spareQuery_ratings (s : State) :
    s.spareQuery 0xFF = (leBytes 2 s.ratedNow.1 ++ leBytes 2 s.ratedNow.2 ++ leBytes 2 s.fskNow ++ [0, 0] ++ leBytes 4 s.slotsNow ++
      leBytes 2 ((List.range 14).map fun k => bn (s.rsv.degraded.any fun e => e.1 == k) * 2 ^ k).sum, s) := if_pos rfl

theorem spareQuery_kind (s : State) {kind : Nat} (h : kind < 14) :
    s.spareQuery kind =
      let r := s.freeBytes 8
      let four := if kind = 12 then r.1 else leBytes 2 (r.2.inService kind) ++ leBytes 2 (nth 0 kindNominal kind) ++
        leBytes 2 (nth 0 kindSpares kind) ++ leBytes 2 (r.2.sparesLeft kind)
      (four ++ leBytes 2 (s.rsv.retiring.filter fun r => r.kind == kind).length ++
        leBytes 2 (if kind = 13 then s.rsv.rowsOut.length else (s.rsv.out.filter fun e => e.1 == kind).length) ++ leBytes 2 (r.2.worst kind), r.2) :=
  if_neg (by omega)

/-! ### The queries as commands -/

section
variable {s : State} {m k op : Nat} {bs : List Byte}

/-- A message of one form, of an operand that names its mailbox alone. -/
theorem plain_answers {i : Instr} {f : List Byte → State → Ans × State} {a : Ans} {t : State} (h : Asked s m k op bs)
    (he : exec i s = pcmd (decide (m < 64)) s fun s => s.handle m op (fun _ => true) f) (hd : f bs (begin s) = (a, t)) : Answers i s m k a t := by
  have ⟨_, hm, _⟩ := h
  exact message_does h (decide_eq_true hm) rfl he hd

section
variable (h : Asked s m k 0x0C02 bs)
include h

theorem spareQuery_refused (h13 : 13 < leAt bs 16 1) (hff : leAt bs 16 1 ≠ 0xFF) : Answers (.spareQuery m) s m k (said stBadParam) (begin s) :=
  plain_answers h rfl (if_pos ⟨h13, hff⟩)

theorem spareQuery_answers (hk : leAt bs 16 1 < 14 ∨ leAt bs 16 1 = 0xFF) {p : List Byte} {t : State}
    (hq : (begin s).spareQuery (leAt bs 16 1) = (p, t)) : Answers (.spareQuery m) s m k (saidOk p) t := by
  refine plain_answers h rfl ?_
  dsimp only
  rw [if_neg (by omega), hq]

end
end

/-- Settles O23: each query is one function of the state, whose cases the lemmas above are. -/
theorem queriesAnswer : Obligations.QueriesAnswer := by
  intro m k bs s b served
  refine ⟨fun h => served_answers h rfl rfl, fun h => ⟨fun hst => ?_, fun hst => ?_⟩, fun h => plain_answers h rfl rfl,
    fun h => plain_answers h rfl rfl, fun h => plain_answers h rfl rfl, fun h => ⟨fun hk => ?_, fun hk => ?_, spareQuery_refused h⟩,
    fun h => ?_, fun h => ?_, fun h => ?_, fun h => ?_, fun h => ?_⟩
  · exact served_answers h rfl (congrArg (fun p => (saidOk p, b)) (sysInfo_running (s := b) hst))
  · exact served_answers h rfl (congrArg (fun p => (saidOk p, b)) (sysInfo_rom (s := b) hst))
  · exact spareQuery_answers h (.inr hk) ((congrArg b.spareQuery hk).trans (spareQuery_ratings b))
  · exact spareQuery_answers h (.inl hk) (spareQuery_kind b hk)
  · exact ⟨fun hid => plain_answers h rfl (carrierQuery_refused hid), fun hid hc => plain_answers h rfl (carrierQuery_none hid hc),
      fun c st hid hc hst => plain_answers h rfl (carrierQuery_some hid hc hst)⟩
  · exact ⟨fun hp => plain_answers h rfl (slotQuery_unknown hp), fun p st hp hst => plain_answers h rfl (slotQuery_known hp hst)⟩
  · exact ⟨fun hd => plain_answers h rfl (blendQuery_none hd), fun d hd => plain_answers h rfl (blendQuery_some hd)⟩
  · exact ⟨fun hn => plain_answers h rfl (flowQuery_refused hn), fun hn => plain_answers h rfl (flowQuery_flow hn)⟩
  · exact ⟨fun hl => plain_answers h rfl (laneStatus_refused hl), fun hl => plain_answers h rfl (laneStatus_lane hl)⟩

end Sys2Proof.Machine
end

section
/-! The SYS messages, case by case: restart, headroom, errors, and the messages of ROM hold (R55, R57, R443, R495, R502). -/

namespace Sys2Proof.Machine

/-! ### SYS.HEADROOM (R443) -/

section
variable {s : State} {bs : List Byte}

theorem headroomMode_query (h : leAt bs 17 1 = 0xFF) : State.headroomMode bs s = (saidOk s.headroomPayload, s) := if_pos h

theorem headroomMode_refused (h2 : 2 < leAt bs 17 1) (hff : leAt bs 17 1 ≠ 0xFF) : State.headroomMode bs s = (said stBadParam, s) :=
  (if_neg hff).trans (if_pos h2)

/-- The answer of a change of mode: at once, or once the changes begun have ended. -/
def State.headroomReply (u : State) : Ans × State := (if u.changes = 0 then saidOk u.headroomPayload else .wait (.headroom u.changes), u)

/-- The mode forced, or left to the evaluation. -/
def State.forcing (s : State) (f : Option Nat) : State := { s with rsv := { s.rsv with forced := f } }

theorem headroomMode_sets (h : leAt bs 17 1 ≤ 2) :
    State.headroomMode bs s =
      (if leAt bs 17 1 = 0 then (s.forcing (if leAt bs 17 1 = 0 then none else some (leAt bs 17 1 - 1))).evalMode
        else (s.forcing (if leAt bs 17 1 = 0 then none else some (leAt bs 17 1 - 1))).wantMode (leAt bs 17 1 - 1)).headroomReply :=
  (if_neg (by omega)).trans (if_neg (by omega))

theorem headroomMode_forces (h1 : 1 ≤ leAt bs 17 1) (h2 : leAt bs 17 1 ≤ 2) :
    State.headroomMode bs s = ((s.forcing (some (leAt bs 17 1 - 1))).wantMode (leAt bs 17 1 - 1)).headroomReply := by
  have h0 : leAt bs 17 1 ≠ 0 := by omega
  rw [headroomMode_sets h2, if_neg h0, if_neg h0]

theorem headroomMode_evaluates (h : leAt bs 17 1 = 0) : State.headroomMode bs s = (s.forcing none).evalMode.headroomReply := by
  rw [headroomMode_sets (by omega), if_pos h, if_pos h]

end

/-- CLUSTER, VOLTAGE and FREQ of SYS.HEADROOM KIND 1 are in range (R443). -/
def askInRange (c v f : Nat) : Prop :=
  (c < 12 ∨ c = 0xFF) ∧ (v = 0 ∨ 620 ≤ v ∧ v ≤ 880) ∧ (f = 0 ∨ 400 ≤ f ∧ f ≤ 1600 ∧ f % 100 = 0)

/-- `SYS.HEADROOM` tests the negation of `askInRange`. -/
theorem not_askInRange_iff {c v f : Nat} :
    (!(decide (c < 12) || c == 0xFF) || !(v == 0 || decide (620 ≤ v ∧ v ≤ 880)) || !(f == 0 || decide (400 ≤ f ∧ f ≤ 1600 ∧ f % 100 = 0))) = true ↔
      ¬askInRange c v f := by
  simp only [askInRange, ← Bool.not_and, Bool.not_eq_true', Bool.eq_false_iff, ne_eq, Bool.and_eq_true, Bool.or_eq_true, decide_eq_true_eq,
    beq_iff_eq, and_assoc]

/-- The voltage and frequency asked for of the named clusters: whether one was clamped, and what it leaves. -/
def State.askAll (s : State) (v f : Nat) (named : List Nat) : Bool × State :=
  named.foldl (fun (r : Bool × State) d => (r.1 || (r.2.askVoltage d v f).1, (r.2.askVoltage d v f).2)) (false, s)

/-- The answer of SYS.HEADROOM KIND 1: the figures of cluster `low`. -/
def State.askedReply (r : Bool × State) (low : Nat) : Ans × State :=
  (.ready { status := if r.1 then stClamped else stOk, flags := 0,
            payload := r.2.headroomPayload ++ leBytes 2 (r.2.targetV low) ++ leBytes 2 (r.2.freqOf low) }, r.2)

section
variable {s : State} {bs : List Byte}

theorem headroomVoltage_refused (h : ¬askInRange (leAt bs 18 1) (leAt bs 20 2) (leAt bs 22 2)) :
    State.headroomVoltage bs s = (said stBadParam, s) := if_pos (not_askInRange_iff.mpr h)

section
variable (h : askInRange (leAt bs 18 1) (leAt bs 20 2) (leAt bs 22 2))
include h

theorem headroomVoltage_asks :
    State.headroomVoltage bs s =
      State.askedReply (s.askAll (leAt bs 20 2) (leAt bs 22 2) (if leAt bs 18 1 = 0xFF then List.range 12 else [leAt bs 18 1]))
        (if leAt bs 18 1 = 0xFF then 0 else leAt bs 18 1) := by
  unfold State.headroomVoltage
  dsimp only
  rw [if_neg fun hn => not_askInRange_iff.mp hn h]
  unfold State.askedReply State.askAll
  with_reducible rfl

omit h in
theorem askAll_one (c v f : Nat) : s.askAll v f [c] = s.askVoltage c v f := by
  unfold State.askAll
  rw [List.foldl_cons, List.foldl_nil, Bool.false_or]

theorem headroomVoltage_one (hc : leAt bs 18 1 ≠ 0xFF) :
    State.headroomVoltage bs s = State.askedReply (s.askVoltage (leAt bs 18 1) (leAt bs 20 2) (leAt bs 22 2)) (leAt bs 18 1) := by
  rw [headroomVoltage_asks h, if_neg hc, if_neg hc, askAll_one]

theorem headroomVoltage_all (hc : leAt bs 18 1 = 0xFF) :
    State.headroomVoltage bs s = State.askedReply (s.askAll (leAt bs 20 2) (leAt bs 22 2) (List.range 12)) 0 := by
  rw [headroomVoltage_asks h, if_pos hc, if_pos hc]

end
end

/-! ### SYS.ERROR (R57) -/

section
variable {s : State} {src unit : Nat}

theorem sysError_nothing (h : s.fwSt ≠ 3 ∨ s.errorRecord src unit = none) : s.sysError src unit = s := by
  unfold State.sysError
  rcases h with h | h
  · exact if_pos h
  · rw [h]
    exact ite_self _

section
variable {n rec a : Nat} (hst : s.fwSt = 3) (h : s.errorRecord src unit = some (n, rec, a))
include hst h

theorem sysError_shown :
    s.sysError src unit =
      if mget (fun _ => 0) s.fw.errTime src ≠ 0 ∧ s.ns + 1 < mget (fun _ => 0) s.fw.errTime src + 1000000 then
        { s with fw := { s.fw with errMore := sins s.fw.errMore src } }
      else
        ({ s with fw := { s.fw with
            errTime := mput (fun _ => 0) s.fw.errTime src (s.ns + 1), errMore := sdel s.fw.errMore src } } : State).notice 0x0106 0
          (leBytes 1 src ++ leBytes 1 (bn (s.fw.errMore.contains src)) ++ leBytes 2 n ++ leBytes 4 rec ++ leBytes 8 a ++ taiBytes s.ns) := by
  unfold State.sysError
  rw [if_neg (not_not_intro hst), h]
  rfl

theorem sysError_soon (hs : mget (fun _ => 0) s.fw.errTime src ≠ 0 ∧ s.ns + 1 < mget (fun _ => 0) s.fw.errTime src + 1000000) :
    s.sysError src unit = { s with fw := { s.fw with errMore := sins s.fw.errMore src } } :=
  (sysError_shown hst h).trans (if_pos hs)

theorem sysError_notice (hs : ¬(mget (fun _ => 0) s.fw.errTime src ≠ 0 ∧ s.ns + 1 < mget (fun _ => 0) s.fw.errTime src + 1000000)) :
    s.sysError src unit =
      ({ s with fw := { s.fw with
          errTime := mput (fun _ => 0) s.fw.errTime src (s.ns + 1), errMore := sdel s.fw.errMore src } } : State).notice 0x0106 0
        (leBytes 1 src ++ leBytes 1 (bn (s.fw.errMore.contains src)) ++ leBytes 2 n ++ leBytes 4 rec ++ leBytes 8 a ++ taiBytes s.ns) :=
  (sysError_shown hst h).trans (if_neg hs)

end
end

/-! ### The messages of ROM hold (R495, R502) -/

theorem validate_fw {a : Nat} (h : a < 0x04000000) (s : State) (n : Nat) : (s.validate a n).fw = s.fw := by
  unfold State.validate
  rw [locate_cellar h]
  rfl

theorem placeResident_fw (s : State) (p : List Byte) : (s.placeResident p).fw = s.fw := by
  unfold State.placeResident
  have h : residentBase < 0x04000000 := by decide
  generalize residentBase = a at h
  exact validate_fw h _ _

section
variable {s : State} {bs : List Byte}

theorem bootrun_unread (h : s.hostImage (leAt bs 24 8) (leAt bs 32 4) = none) : s.bootrun bs = (said stBadParam, s) := by
  unfold State.bootrun
  rw [h]

section
variable {img : List Byte} (h : s.hostImage (leAt bs 24 8) (leAt bs 32 4) = some img)
include h

theorem bootrun_starts (hc : s.checkImage 1 img = 0) :
    s.bootrun bs =
      let u := s.placeResident (krvPayload img)
      (said stOk, ({ u with fw := { u.fw with restarted := true } } : State).startImage (img.take 512) (krvPayload img)) := by
  unfold State.bootrun
  rw [h]
  dsimp only
  rw [hc, placeResident_fw]
  rfl

theorem bootrun_bad {c : Nat} (hc : s.checkImage 1 img = c + 1) : s.bootrun bs = (.ready (badImage (c + 1)), s.lastCheck (c + 1)) := by
  unfold State.bootrun
  rw [h]
  dsimp only
  rw [hc]
  rfl

end

theorem flashwr_refused {v : Bool} (h : leAt bs 36 4 % 4096 ≠ 0 ∨ s.hostImage (leAt bs 24 8) (leAt bs 32 4) = none) :
    s.flashwr v bs = (said stBadParam, s) := by
  unfold State.flashwr
  rcases h with h | h
  · exact if_pos h
  · rw [h]
    exact ite_self _

section
variable {img : List Byte} (hoff : leAt bs 36 4 % 4096 = 0) (h : s.hostImage (leAt bs 24 8) (leAt bs 32 4) = some img)
include hoff h

theorem flashwr_writes (v : Bool) (hc : s.checkImage (if leAt img 6 1 = 4 then 4 else 1) img = 0) :
    s.flashwr v bs =
      let erased := s.eraseFlash (leAt bs 36 4) (alignUp img.length 4096)
      if v then (said stOk, erased.programFlash (leAt bs 36 4) img)
      else (said stFault, (erased.freeBytes img.length).2.programFlash (leAt bs 36 4) (erased.freeBytes img.length).1) := by
  unfold State.flashwr
  dsimp only
  rw [if_neg (not_not_intro hoff), h]
  dsimp only
  rw [hc]
  rfl

theorem flashwr_bad (v : Bool) {c : Nat} (hc : s.checkImage (if leAt img 6 1 = 4 then 4 else 1) img = c + 1) :
    s.flashwr v bs = (.ready (badImage (c + 1)), s.lastCheck (c + 1)) := by
  unfold State.flashwr
  dsimp only
  rw [if_neg (not_not_intro hoff), h]
  dsimp only
  rw [hc]
  rfl

end
end

section
variable {s : State} {m k op : Nat} {bs : List Byte} (hu : s.pwr.up = true) (hm : m < 64) (hrom : (begin s).romServes m = true)
  (hn : (begin s).nextReq m = some (k, bs)) (hr : (begin s).refuse m bs = none)
include hu hm hrom hn hr

theorem sysBootrun_answers (hop : mOp bs = 0x0180) {a : Ans} {t : State} (hd : (begin s).bootrun bs = (a, t)) :
    exec (.sysBootrun m) s = .next { t.setAns m k a with pending := s.pending } := by
  refine otpCmd_does (f := fun s => s.handleIf (s.romServes m) m 0x0180 (fun _ => true) fun bs s => s.bootrun bs) (decide_eq_true hm) hu ?_
  rw [hrom, handleIf_answers hn hop rfl hr, hd]

theorem sysFlashwr_answers (hop : mOp bs = 0x0181) {v : Bool} {a : Ans} {t : State} (hd : (begin s).flashwr v bs = (a, t)) :
    Answers (.sysFlashwr m v) s m k a t := by
  refine pcmd_does (f := fun s => s.handleIf (s.romServes m) m 0x0181 (fun _ => true) fun bs s => s.flashwr v bs) (decide_eq_true hm) hu ?_
  rw [hrom, handleIf_answers hn hop rfl hr, hd]

end

/-! ### The messages as commands -/

section
variable {s t : State} {m k : Nat} {bs : List Byte} {a : Ans} (h : Asked s m k 0x0104 bs)
include h

theorem sysHeadroomMode_answers (hk : leAt bs 16 1 = 0) (hd : State.headroomMode bs (begin s) = (a, t)) :
    Answers (.sysHeadroomMode m) s m k a t := by
  have ⟨_, hm, _⟩ := h
  exact message_does (form := fun bs => leAt bs 16 1 == 0) h (decide_eq_true hm) (beq_iff_eq.mpr hk) rfl hd

theorem sysHeadroomVoltage_answers (hk : leAt bs 16 1 = 1) (hd : State.headroomVoltage bs (begin s) = (a, t)) :
    Answers (.sysHeadroomVoltage m) s m k a t := by
  have ⟨_, hm, _⟩ := h
  exact message_does (form := fun bs => leAt bs 16 1 == 1) h (decide_eq_true hm) (beq_iff_eq.mpr hk) rfl hd

end

/-- Settles O24: each message is one operation of the firmware or of the boot ROM, and each clause is one case of it. -/
theorem systemMessages : Obligations.SystemMessages := by
  intro m k bs s b headroom
  refine ⟨fun h => plain_answers h rfl rfl, fun h hk => ?_, fun h hk => ?_, fun src unit hsrc hu => ?_, fun hu hm hrom hn hr => ⟨fun hop => ?_, fun hop v => ?_⟩⟩
  · exact ⟨fun hq => sysHeadroomMode_answers h hk (headroomMode_query hq), fun h2 hff => sysHeadroomMode_answers h hk (headroomMode_refused h2 hff),
      fun h1 h2 => sysHeadroomMode_answers h hk (headroomMode_forces h1 h2), fun h0 => sysHeadroomMode_answers h hk (headroomMode_evaluates h0)⟩
  · intro c v f ok gives
    have asked : ∀ (r : Bool × State) low, State.headroomVoltage bs b = State.askedReply r low → gives r.1 low r.2 :=
      fun _ _ hd => sysHeadroomVoltage_answers h hk hd
    exact ⟨fun hok hc => asked _ _ (headroomVoltage_one hok hc), fun hok hc => asked _ _ (headroomVoltage_all hok hc),
      fun hno => sysHeadroomVoltage_answers h hk (headroomVoltage_refused hno)⟩
  · have error : ∀ {t}, b.sysError src unit = t → exec (.sysError src unit) s = .next (after s t) :=
      fun h => pcmd_does (f := fun s => s.sysError src unit) (decide_eq_true hsrc) hu h
    exact ⟨fun h => error (sysError_nothing h),
      fun n rec a hst h => ⟨fun hs => error (sysError_soon (s := b) hst h hs), fun hs => error (sysError_notice (s := b) hst h hs)⟩⟩
  · have runs := fun {a t} => sysBootrun_answers hu hm hrom hn hr hop (a := a) (t := t)
    exact ⟨fun h => runs (bootrun_unread h), fun img h hc => runs (bootrun_starts h hc), fun img c h hc => runs (bootrun_bad h hc)⟩
  · have writes := fun {v a t} => sysFlashwr_answers hu hm hrom hn hr hop (v := v) (a := a) (t := t)
    exact ⟨fun h => writes (flashwr_refused h), fun img hoff h =>
      ⟨fun hc => writes (flashwr_writes hoff h true hc), fun hc => writes (flashwr_writes hoff h false hc), fun c hc => writes (flashwr_bad hoff h v hc)⟩⟩

end Sys2Proof.Machine
end

section
/-! PWR.SET, case by case: the device, clusters and engines (R68, R255, R450, R453, R454, R456). -/

namespace Sys2Proof.Machine

/-! ### A PWR.SET whose STATE takes no WAKE_AT (R453) -/

section
variable {s : State} {bs : List Byte} {f : Nat → State → Nat × State} {unitOk : Nat → Bool}

theorem pwrUntimed_refused (h : unitOk (leAt bs 18 2) = false ∨ leAt bs 24 8 ≠ 0) : s.pwrUntimed bs f unitOk = (said stBadParam, s) := by
  refine if_pos ?_
  rcases h with h | h
  · rw [h]
    rfl
  · rw [decide_eq_true h, Bool.or_true]

theorem pwrUntimed_does (hu : unitOk (leAt bs 18 2) = true) (hw : leAt bs 24 8 = 0) {st : Nat} {t : State} (hf : f (leAt bs 18 2) s = (st, t)) :
    s.pwrUntimed bs f unitOk = (said st, t) := by
  have hno : (!unitOk (leAt bs 18 2) || decide (leAt bs 24 8 ≠ 0)) = false := by
    rw [hu, decide_eq_false (not_not_intro hw)]
    rfl
  unfold State.pwrUntimed
  dsimp only
  rw [hno, hf]
  exact if_neg Bool.false_ne_true

end

/-- The commands of PWR.SET for the pair SCOPE and STATE of a request. -/
theorem pwrSet_answers {i : Instr} {s t : State} {m k scope st : Nat} {bs : List Byte} {unitOk : Nat → Bool} {f : Nat → State → Nat × State} {a : Ans}
    (h : Asked s m k 0x0201 bs) (hp : pwrPair bs = (scope, st)) (he : exec i s = pcmd (decide (m < 64)) s fun s => s.pwrSet m scope st unitOk f)
    (hd : (begin s).pwrUntimed bs f unitOk = (a, t)) : Answers i s m k a t := by
  have ⟨_, hm, _⟩ := h
  exact message_does (form := fun bs => pwrPair bs == (scope, st)) h (decide_eq_true hm) (beq_iff_eq.mpr hp) he hd

/-! ### The device (R454) -/

section
variable {s : State} {m k : Nat} {bs : List Byte} {i : Instr} {deep : Bool} (h : Asked s m k 0x0201 bs)
  (hi : i = .pwrSetDeviceDeep m ∧ pwrPair bs = (0, 3) ∧ deep = true ∨ i = .pwrSetDeviceOff m ∧ pwrPair bs = (0, 4) ∧ deep = false)
include h hi

theorem pwrDevice_answers {a : Ans}
    (hd : (if leAt bs 18 2 ≠ 0 ∨ (begin s).wakeAtOf bs ((begin s).consumed m) = none then said stBadParam
      else if (begin s).entryRefused || (begin s).nw.pstate != .run || (begin s).entryDue then said stBadState
      else .thenDo (.st stOk) (.power deep)) = a) : Answers i s m k a (begin s) := by
  have ⟨hu, hm, _⟩ := h
  have hform : (pwrPair bs == (0, if deep then 3 else 4)) = true := by
    rcases hi with ⟨_, hp, rfl⟩ | ⟨_, hp, rfl⟩ <;> exact beq_iff_eq.mpr hp
  have he : exec i s = .next (after s ((begin s).pwrDevice m deep)) := by
    rcases hi with ⟨rfl, _, rfl⟩ | ⟨rfl, _, rfl⟩
    · exact pcmd_next (decide_eq_true hm) hu _
    · exact pcmd_next (decide_eq_true hm) hu _
  unfold Answers
  rw [he]
  unfold State.pwrDevice
  dsimp only
  rw [handle_answers (s := begin s) h hform, ← hd]
  split
  · rfl
  · split <;> rfl

end

/-! ### Clusters (R450, R453, R456) -/

section
variable {s : State} {c : Nat}

theorem clusterRun_out (h : s.clusterIn c = false) : s.clusterRun c = (stBadState, s) := if_pos (by rw [h]; rfl)

theorem clusterRun_wakes (h : s.clusterIn c = true) :
    s.clusterRun c =
      (stOk, (((s.wrF (Reg.pwrCl c) 31 31 1).wakeCluster c).unaskSleep c).pwrNotice 1 c (s.rdF (Reg.pwrCl c) 3 0) 0) :=
  if_neg (by rw [h]; decide)

theorem clusterSleep_shield (h : s.mode = 1) : s.clusterSleep c = (stBadState, s) := if_pos h

section
variable (h : s.mode ≠ 1)
include h

theorem clusterSleep_asleep (hold : s.rdF (Reg.pwrCl c) 3 0 = 2) :
    s.clusterSleep c = (stOk, (s.wrF (Reg.pwrCl c) 31 31 0).pwrNotice 1 c (s.rdF (Reg.pwrCl c) 3 0) 2) :=
  (if_neg h).trans (congrArg (Prod.mk stOk) (if_pos hold))

theorem clusterSleep_now (hold : s.rdF (Reg.pwrCl c) 3 0 ≠ 2) (hs : (s.wrF (Reg.pwrCl c) 31 31 0).clusterMaySleep c = true) :
    s.clusterSleep c =
      (stOk, (((s.wrF (Reg.pwrCl c) 31 31 0).clusterDown c).unaskSleep c).pwrNotice 1 c (s.rdF (Reg.pwrCl c) 3 0) 2) :=
  (if_neg h).trans (congrArg (Prod.mk stOk) ((if_neg hold).trans (if_pos hs)))

theorem clusterSleep_asked (hold : s.rdF (Reg.pwrCl c) 3 0 ≠ 2) (hs : (s.wrF (Reg.pwrCl c) 31 31 0).clusterMaySleep c = false) :
    s.clusterSleep c = (stOk, (s.wrF (Reg.pwrCl c) 31 31 0).askSleep c) :=
  (if_neg h).trans (congrArg (Prod.mk stOk) ((if_neg hold).trans (if_neg (ne_true_of_eq_false hs))))

end

theorem clusterOff_in (h : s.clusterIn c = true) : s.clusterOff c = (stBadState, s) := if_pos h

theorem clusterOff_out (h : s.clusterIn c = false) :
    s.clusterOff c =
      let u := (s.forget (0x10000000 + c * 0x01000000) (0x10000000 + c * 0x01000000 + 0x01000000)).wrF (Reg.pwrCl c) 3 0 4
      (stOk, (((u.wrF (Reg.rsvLoad c) 31 31 0).wrF (Reg.rsvLoad c) 7 0 0).unaskSleep c).pwrNotice 1 c (s.rdF (Reg.pwrCl c) 3 0) 4) :=
  if_neg (ne_true_of_eq_false h)

end

/-! ### Engines (R255, R450, R453) -/

section
variable {s : State} {e : Nat}

theorem engineRun_out (h : s.engIn e = false) : s.engineRun e = (stBadState, s) := if_pos (by rw [h]; rfl)

theorem engineRun_wakes (h : s.engIn e = true) :
    s.engineRun e = (stOk, (((s.wrF (Reg.pwrEng e) 31 31 1).engineWake e).unaskSleep (12 + e)).pwrNotice 2 e (s.engPower e) 0) :=
  if_neg (by rw [h]; decide)

/-- RX_EN of an NFE holds its sleep back (R255). -/
def State.rxHolds (s : State) (e : Nat) : Prop := 76 ≤ e ∧ s.rdB (Reg.nfeCtrl (e - 76)) 0 = true

theorem rxHolds_iff : (decide (76 ≤ e) && s.rdB (Reg.nfeCtrl (e - 76)) 0) = true ↔ s.rxHolds e := by
  rw [State.rxHolds, Bool.and_eq_true, decide_eq_true_eq]

theorem engineSleepAsk_held (h : s.rxHolds e) : s.engineSleepAsk e = (stBadState, s) := if_pos (rxHolds_iff.mpr h)

section
variable (h : ¬s.rxHolds e)
include h

theorem engineSleepAsk_asleep (hold : s.engPower e = 2) : s.engineSleepAsk e = (stOk, (s.wrF (Reg.pwrEng e) 31 31 0).pwrNotice 2 e 2 2) := by
  refine (if_neg fun hx => h (rxHolds_iff.mp hx)).trans (congrArg (Prod.mk stOk) ((if_pos hold).trans ?_))
  rw [hold]

theorem engineSleepAsk_asked (hold : s.engPower e ≠ 2) : s.engineSleepAsk e = (stOk, (s.wrF (Reg.pwrEng e) 31 31 0).askSleep (12 + e)) :=
  (if_neg fun hx => h (rxHolds_iff.mp hx)).trans (congrArg (Prod.mk stOk) (if_neg hold))

end
end

/-- Settles O25: the pairs without a WAKE_AT are `pwrUntimed` with their own operation, the entries `pwrDevice`; each clause is one case of them. -/
theorem powerMessages : Obligations.PowerMessages := by
  intro m k bs s b unit free cl en h
  refine ⟨fun i n hi hbad => ?_, fun hp hu hw => pwrSet_answers h hp rfl (pwrUntimed_does (unitOk := fun u => u == 0) (f := fun _ s => (stOk, s)) (beq_iff_eq.mpr hu) hw rfl), fun i deep hi => ?_,
    fun hw hu => ⟨fun hp => ?_, fun hp => ?_, fun hp => ?_⟩, fun hw hu => ⟨fun hp => ?_, fun hp => ?_⟩⟩
  · have bad : ∀ {n}, n ≤ unit ∨ leAt bs 24 8 ≠ 0 → decide (unit < n) = false ∨ leAt bs 24 8 ≠ 0 :=
      fun h => h.imp_left fun h => decide_eq_false (Nat.not_lt.mpr h)
    rcases hi with ⟨rfl, hp, rfl⟩ | hi
    · exact pwrSet_answers h hp rfl (pwrUntimed_refused (hbad.imp_left fun h => beq_false_of_ne (Nat.one_le_iff_ne_zero.mp h)))
    · rcases hi with ⟨rfl, hp, rfl⟩ | ⟨rfl, hp, rfl⟩ | ⟨rfl, hp, rfl⟩ | ⟨rfl, hp, rfl⟩ | ⟨rfl, hp, rfl⟩ <;>
        exact pwrSet_answers h hp rfl (pwrUntimed_refused (bad hbad))
  · have refused : (b.entryRefused || b.nw.pstate != .run || b.entryDue) = true ↔ ¬free := by
      simp only [free, Bool.or_eq_true, bne_iff_ne, ne_eq, Classical.not_and_iff_not_or_not, Bool.not_eq_false, or_assoc]
    refine ⟨fun hbad => pwrDevice_answers h hi (if_pos hbad), fun hu hw hf => ?_, fun hu hw hf => ?_⟩
    · exact pwrDevice_answers h hi ((if_neg (not_or.mpr ⟨not_not_intro hu, hw⟩)).trans (if_neg fun hx => refused.mp hx hf))
    · exact pwrDevice_answers h hi ((if_neg (not_or.mpr ⟨not_not_intro hu, hw⟩)).trans (if_pos (refused.mpr hf)))
  · have run : ∀ {st t}, b.clusterRun unit = (st, t) → Answers (.pwrSetClusterRun m) s m k (said st) t :=
      fun hf => pwrSet_answers h hp rfl (pwrUntimed_does (decide_eq_true hu) hw hf)
    exact ⟨fun hc => run (clusterRun_out hc), fun hc => run (clusterRun_wakes hc)⟩
  · have sleep : ∀ {st t}, b.clusterSleep unit = (st, t) → Answers (.pwrSetClusterSleep m) s m k (said st) t :=
      fun hf => pwrSet_answers h hp rfl (pwrUntimed_does (decide_eq_true hu) hw hf)
    exact ⟨fun hm => sleep (clusterSleep_shield hm), fun hm ho => sleep (clusterSleep_asleep hm ho),
      fun hm ho hs => sleep (clusterSleep_now hm ho hs), fun hm ho hs => sleep (clusterSleep_asked hm ho hs)⟩
  · have off : ∀ {st t}, b.clusterOff unit = (st, t) → Answers (.pwrSetClusterOff m) s m k (said st) t :=
      fun hf => pwrSet_answers h hp rfl (pwrUntimed_does (decide_eq_true hu) hw hf)
    exact ⟨fun hc => off (clusterOff_in hc), fun hc => off (clusterOff_out hc)⟩
  · have run : ∀ {st t}, b.engineRun unit = (st, t) → Answers (.pwrSetEngineRun m) s m k (said st) t :=
      fun hf => pwrSet_answers h hp rfl (pwrUntimed_does (decide_eq_true hu) hw hf)
    exact ⟨fun hc => run (engineRun_out hc), fun hc => run (engineRun_wakes hc)⟩
  · have sleep : ∀ {st t}, b.engineSleepAsk unit = (st, t) → Answers (.pwrSetEngineSleep m) s m k (said st) t :=
      fun hf => pwrSet_answers h hp rfl (pwrUntimed_does (decide_eq_true hu) hw hf)
    exact ⟨fun hh => sleep (engineSleepAsk_held hh), fun hh ho => sleep (engineSleepAsk_asleep hh ho), fun hh ho => sleep (engineSleepAsk_asked hh ho)⟩

end Sys2Proof.Machine
end

section
/-! The CARRIER messages, case by case: configuration, start and stop (R58, R59, R80, R381). -/

namespace Sys2Proof.Machine

/-! ### CARRIER.CONFIG (R58, R80) -/

/-- The carrier that a CARRIER.CONFIG describes, with the flows that the firmware chose for it. -/
def carrierOf (bs : List Byte) (base n : Nat) : Carrier :=
  { cfg := (List.range 28).map (fun i => bs.getD (16 + i) 0), flowBase := base, flowCount := n, st := .stopped, plans := 0, late := 0, expired := 0
    cancelled := 0, completed := 0 }

/-- The flows from `base` on exist and are closed. -/
def State.flowsFree (s : State) (base n : Nat) : Prop :=
  n < 65536 ∧ base + n ≤ 65536 ∧ ∀ i, i < n → (s.flow (base + i)).opened = false

/-- `CARRIER.CONFIG` tests the negation of `flowsFree`. -/
theorem not_flowsFree_iff {s : State} {base n : Nat} :
    (decide (65535 < n) || decide (65536 < base + n) || (List.range n).any fun i => (s.flow (base + i)).opened) = true ↔ ¬s.flowsFree base n := by
  simp only [State.flowsFree, Bool.or_eq_true, decide_eq_true_eq, List.any_eq_true, List.mem_range, Classical.not_and_iff_not_or_not,
    Nat.not_lt, Nat.not_le, Nat.succ_le_iff, not_forall, Bool.not_eq_false, exists_prop, or_assoc]

theorem started_eq_true {c : Carrier} (h : c.st ≠ .stopped) : started c = true := bne_iff_ne.mpr h

theorem started_eq_false {c : Carrier} (h : c.st = .stopped) : started c = false := by
  rw [started, h]
  rfl

/-- The carrier is started. -/
def State.carrierRuns (s : State) (id : Nat) : Bool := ((s.carrier? id).map Sys2Proof.Machine.started).getD false

section
variable {s u : State} {bs : List Byte} {base n : Nat}

theorem carrierConfig_range (h : cfgInRange (leAt bs 16 2) (carrierOf bs base n) = false) :
    State.carrierConfig base n bs s = (said stBadParam, s) :=
  if_pos ((Bool.not_eq_true' _).mpr h)

section
variable (h : cfgInRange (leAt bs 16 2) (carrierOf bs base n) = true)
include h

theorem carrierConfig_running (hr : s.carrierRuns (leAt bs 16 2) = true) : State.carrierConfig base n bs s = (said stBadState, s) := by
  unfold State.carrierConfig
  unfold carrierOf at h
  unfold State.carrierRuns at hr
  simp only [h, hr, Bool.not_true, Bool.false_eq_true, if_false, if_true]

section
variable (hr : s.carrierRuns (leAt bs 16 2) = false)
include hr

theorem carrierConfig_unfit (hf : s.carrierFits (leAt bs 16 2) (carrierOf bs base n) = (false, u)) :
    State.carrierConfig base n bs s = (said stNoResource, u) := by
  unfold State.carrierConfig
  unfold carrierOf at h hf
  unfold State.carrierRuns at hr
  simp only [h, hr, hf, Bool.not_true, Bool.false_eq_true, if_false]

section
variable (hf : s.carrierFits (leAt bs 16 2) (carrierOf bs base n) = (true, u))
include hf

theorem carrierConfig_first (hc : u.carrier? (leAt bs 16 2) = none) :
    State.carrierConfig base n bs s =
      if decide (65535 < n) || decide (65536 < base + n) || (List.range n).any fun i => (u.flow (base + i)).opened then (.none, u)
      else
        (saidOk (leBytes 4 base ++ leBytes 2 n),
          ((({ u with front := { u.front with missing := mput (fun _ => 0) u.front.missing (leAt bs 16 2) 0 } } : State).openFlows base n).setCarrier
            (leAt bs 16 2) (some (carrierOf bs base n)))) := by
  unfold State.carrierConfig
  unfold carrierOf at h hf ⊢
  unfold State.carrierRuns at hr
  simp only [h, hr, hf, hc, Bool.not_true, Bool.false_eq_true, if_false, Option.isNone_none, if_true]

theorem carrierConfig_again {o : Carrier} (hc : u.carrier? (leAt bs 16 2) = some o) :
    State.carrierConfig base n bs s =
      if decide (65535 < n) || decide (65536 < base + n) || (List.range n).any fun i => ((u.closeFlows o).flow (base + i)).opened then (.none, u)
      else
        (saidOk (leBytes 4 base ++ leBytes 2 n),
          ((u.closeFlows o).openFlows base n).setCarrier (leAt bs 16 2)
            (some { carrierOf bs base n with plans := o.plans, late := o.late, expired := o.expired })) := by
  unfold State.carrierConfig
  unfold carrierOf at h hf ⊢
  unfold State.carrierRuns at hr
  simp only [h, hr, hf, hc, Bool.not_true, Bool.false_eq_true, if_false, Option.isNone_some]

end
end
end
end

/-! ### CARRIER.START (R58, R60, R381) -/

section
variable {s : State} {bs : List Byte}

theorem carrierStart_range (h : 383 < leAt bs 16 2) : State.carrierStart bs s = (said stBadParam, s) := if_pos h

section
variable (h : leAt bs 16 2 < 384)
include h

theorem carrierStart_none (hc : s.carrier? (leAt bs 16 2) = none) : State.carrierStart bs s = (said stBadState, s) := by
  unfold State.carrierStart
  dsimp only
  rw [if_neg (by omega), hc]

section
variable {c : Carrier} (hc : s.carrier? (leAt bs 16 2) = some c)
include hc

theorem carrierStart_refused (hno : c.st ≠ .stopped ∨ s.antennasBound (leAt bs 16 2) c = false) : State.carrierStart bs s = (said stBadState, s) := by
  unfold State.carrierStart
  dsimp only
  rw [if_neg (by omega), hc]
  refine if_pos ?_
  rcases hno with hno | hno
  · rw [started_eq_true hno]
    rfl
  · rw [hno]
    exact Bool.or_true _

/-- The timeline programmed and the counts begun. -/
def State.begins (s : State) (id : Nat) (c : Carrier) : State :=
  let u := (s.programTimeline id c).setCarrier id (some c.begun)
  { u with front := { u.front with missing := mput (fun _ => 0) u.front.missing id 0 } }

section
variable (hst : c.st = .stopped) (hb : s.antennasBound (leAt bs 16 2) c = true)
include hst hb

theorem carrierStart_starts :
    State.carrierStart bs s =
      let v := s.begins (leAt bs 16 2) c
      let now := v.mrdState == 2
      let w := if now && !v.armed (leAt bs 16 2) then v.armTl (leAt bs 16 2) else v
      (saidOk (leBytes 1 (bn now) ++ [0] ++ leBytes 2 (if now then (w.tl (leAt bs 16 2)).fromFrame % 1024 else 65535)), w.evalMode) := by
  unfold State.carrierStart
  dsimp only
  rw [if_neg (by omega), hc]
  dsimp only
  rw [if_neg (by rw [started_eq_false hst, hb]; decide)]
  rfl

omit h hc hst hb in
theorem ite_true_and_not {α : Type} (x : Bool) (a b : α) : (if (true && !x) = true then a else b) = if x = true then b else a := by
  cases x <;> rfl

theorem carrierStart_locked (hl : (s.begins (leAt bs 16 2) c).mrdState = 2) :
    State.carrierStart bs s =
      let v := s.begins (leAt bs 16 2) c
      let w := if v.armed (leAt bs 16 2) then v else v.armTl (leAt bs 16 2)
      (saidOk ([1, 0] ++ leBytes 2 ((w.tl (leAt bs 16 2)).fromFrame % 1024)), w.evalMode) := by
  rw [carrierStart_starts h hc hst hb]
  dsimp only
  have hyes : leBytes 1 (bn (2 == 2)) ++ [0] = [1, 0] := rfl
  rw [hl, hyes, if_pos (beq_self_eq_true 2), beq_self_eq_true, ite_true_and_not]

theorem carrierStart_unlocked (hl : (s.begins (leAt bs 16 2) c).mrdState ≠ 2) :
    State.carrierStart bs s = (saidOk ([0, 0] ++ leBytes 2 65535), (s.begins (leAt bs 16 2) c).evalMode) := by
  rw [carrierStart_starts h hc hst hb]
  dsimp only
  have hno : leBytes 1 (bn false) ++ [0] = [0, 0] := rfl
  rw [beq_false_of_ne hl, hno, if_neg Bool.false_ne_true]
  rfl

end
end
end

/-! ### CARRIER.STOP (R59) -/

variable {drain : Bool}

theorem carrierStop_range (h : 383 < leAt bs 16 2) : State.carrierStop drain bs s = (said stBadParam, s) := if_pos h

section
variable (h : leAt bs 16 2 < 384)
include h

theorem carrierStop_none (hc : s.carrier? (leAt bs 16 2) = none) : State.carrierStop drain bs s = (said stBadState, s) := by
  unfold State.carrierStop
  dsimp only
  rw [if_neg (by omega), hc]

/-- The counts of the plans that have uncommitted tasks, kept for the response (R59). -/
def State.counted (s : State) (id : Nat) (c : Carrier) : State :=
  s.setCarrier id (some { c with cancelled := (s.stopCounts id).1, completed := (s.stopCounts id).2 })

section
variable {c : Carrier} (hc : s.carrier? (leAt bs 16 2) = some c)
include hc

theorem carrierStop_idle (hst : c.st = .stopped) (hr : tb (leAt bs 18 1) 1 = false) : State.carrierStop drain bs s = (said stBadState, s) := by
  unfold State.carrierStop
  dsimp only
  rw [if_neg (by omega), hc]
  exact if_pos (by rw [started_eq_false hst, hr]; rfl)

theorem carrierStop_removes (hst : c.st = .stopped) (hr : tb (leAt bs 18 1) 1 = true) :
    State.carrierStop drain bs s = (.wait (.stop (leAt bs 16 2) true), s.counted (leAt bs 16 2) c) := by
  unfold State.carrierStop
  dsimp only
  rw [if_neg (by omega), hc]
  dsimp only
  rw [started_eq_false hst, hr]
  rfl

theorem carrierStop_running (hst : c.st ≠ .stopped) :
    State.carrierStop drain bs s =
      let v := (s.counted (leAt bs 16 2) c).onCarrier (leAt bs 16 2) fun c => { c with st := if drain then .draining else .stopped }
      let w := if drain then v else ((v.plansOf (leAt bs 16 2)).map (·.handle)).foldl (fun s h => s.killPlan h) (v.disarm (leAt bs 16 2))
      (.wait (.stop (leAt bs 16 2) (tb (leAt bs 18 1) 1)), if drain then w else w.evalMode) := by
  unfold State.carrierStop
  dsimp only
  rw [if_neg (by omega), hc]
  dsimp only
  rw [started_eq_true hst]
  rfl

end
end
end

/-! ### The messages as commands -/

theorem carrierStop_answers {s t : State} {m k : Nat} {bs : List Byte} {a : Ans} (h : Asked s m k 0x0303 bs) {i : Instr}
    (hi : i = if tb (leAt bs 18 1) 0 then .carrierStopDrain m else .carrierStop m)
    (hd : State.carrierStop (tb (leAt bs 18 1) 0) bs (begin s) = (a, t)) : Answers i s m k a t := by
  have ⟨_, hm, _⟩ := h
  cases hb : tb (leAt bs 18 1) 0 with
  | true =>
    rw [hb] at hi hd
    subst hi
    exact message_does (form := fun bs => tb (leAt bs 18 1) 0) h (decide_eq_true hm) hb rfl hd
  | false =>
    rw [hb] at hi hd
    subst hi
    exact message_does (form := fun bs => !tb (leAt bs 18 1) 0) h (decide_eq_true hm) (by rw [hb]; rfl) rfl hd

/-- Settles O26: each message is `carrierConfig`, `carrierStart` or `carrierStop`, and each clause is one case of it. -/
theorem carrierMessages : Obligations.CarrierMessages := by
  intro m k base n bs s b id
  refine ⟨fun h => ?_, fun h => ?_, fun h i hi => ?_⟩
  · intro new running r u free gives
    have config : ∀ {a v}, State.carrierConfig base n bs b = (a, v) → gives a v := fun hd => plain_answers h rfl hd
    refine ⟨fun hc => config (carrierConfig_range hc), fun hc hr => config (carrierConfig_running hc hr), fun hc hr hf => ?_, fun hc hr hf => ⟨fun hn => ?_, fun o ho => ?_⟩⟩
    · exact config (carrierConfig_unfit hc hr (Prod.ext hf rfl))
    · have first := carrierConfig_first hc hr (Prod.ext hf rfl) hn
      exact ⟨fun hfree => config (first.trans (if_neg fun hx => not_flowsFree_iff.mp hx hfree)),
        fun hfree => config (first.trans (if_pos (not_flowsFree_iff.mpr hfree)))⟩
    · have again := carrierConfig_again hc hr (Prod.ext hf rfl) ho
      exact ⟨fun hfree => config (again.trans (if_neg fun hx => not_flowsFree_iff.mp hx hfree)),
        fun hfree => config (again.trans (if_pos (not_flowsFree_iff.mpr hfree)))⟩
  · intro gives
    have start : ∀ {a v}, State.carrierStart bs b = (a, v) → gives a v := fun hd => plain_answers h rfl hd
    exact ⟨fun hid => start (carrierStart_range hid), fun hid hc => start (carrierStart_none hid hc),
      fun c hid hc hno => start (carrierStart_refused hid hc hno), fun c hid hc hst hb =>
        ⟨fun hl => start (carrierStart_locked hid hc hst hb hl), fun hl => start (carrierStart_unlocked hid hc hst hb hl)⟩⟩
  · intro remove gives
    have stop : ∀ {a v}, State.carrierStop (tb (leAt bs 18 1) 0) bs b = (a, v) → gives a v := fun hd => carrierStop_answers h hi hd
    refine ⟨fun hid => stop (carrierStop_range hid), fun hid hc => stop (carrierStop_none hid hc), fun c hid hc => ⟨fun hst hr => ?_, fun hst hr => ?_, fun hst hd => ?_, fun hst hd => ?_⟩⟩
    · exact stop (carrierStop_idle hid hc hst hr)
    · exact stop (carrierStop_removes hid hc hst hr)
    · rw [hd] at stop
      exact stop (carrierStop_running hid hc hst)
    · rw [hd] at stop
      exact stop (carrierStop_running hid hc hst)

end Sys2Proof.Machine
end

section
/-! The SLOT messages, case by case: a plan's checks, its submission, its lateness and its cancel (R61 to R63, R503). -/

namespace Sys2Proof.Machine

/-! ### SLOT.PLAN (R61, R503) -/

/-- The blend that a SLOT.PLAN names: BLEND, or the carrier's default for DIR. -/
def planBlend (bs : List Byte) (c : Carrier) : Nat := if leAt bs 22 2 = 0 then cBlend c (leAt bs 21 1) else leAt bs 22 2

/-- The blend's image, where it is loaded. -/
def State.planImage (s : State) (bs : List Byte) (c : Carrier) : Option Blend := s.fw.blends.find? fun x => x.id == planBlend bs c

/-- The frame of a SLOT.PLAN consumed at `t` ns. -/
def planFrame (bs : List Byte) (c : Carrier) (t : Nat) : Nat := frameOf (cAirOfs c) (leAt bs 18 2) t

/-- When its slot starts. -/
def planStart (bs : List Byte) (c : Carrier) (t : Nat) : Nat := slotStart c (planFrame bs c t) (leAt bs 20 1)

/-- The record of a plan as SLOT.PLAN makes it. -/
def State.newPlan (s : State) (t : Nat) (tasks : List (List Word)) (grp flag : Nat) (bs : List Byte) (c : Carrier) : Plan :=
  { handle := s.fw.nextPlan, carrier := leAt bs 16 2, blend := planBlend bs c, blendVer := ((s.planImage bs c).map (·.ver)).getD 0
    start := planStart bs c t, slotNs := 1000000 / 2 ^ cMu c, todo := tasks.map (withRelease grp flag), tasks := [], total := tasks.length
    relGrps := releaseGroups (tasks.map (withRelease grp flag)), relFlag := flag, released := false, done := 0, fault := 0, expired := 0, cancelled := 0
    started := false, killed := false, doneAddr := leAt bs 40 8, doneValue := leAt bs 48 4, doneWritten := false, ended := none }

/-- The plan recorded under the next handle, old records forgotten. -/
def State.records (s : State) (p : Plan) : State :=
  { s with fw := { s.fw with nextPlan := s.fw.nextPlan % (2 ^ 32 - 1) + 1, plans := (s.fw.plans.filter fun x => !s.oldPlan x) ++ [p] } }

section
variable {s : State} {bs : List Byte} {t grp flag : Nat} {tasks : List (List Word)}

theorem slotPlan_carrierless (h : 383 < leAt bs 16 2) : State.slotPlan t tasks grp flag bs s = (said stBadParam, s) := if_pos h

section
variable (h : leAt bs 16 2 < 384)
include h

theorem slotPlan_unconfigured (hc : s.carrier? (leAt bs 16 2) = none) : State.slotPlan t tasks grp flag bs s = (said stBadState, s) := by
  unfold State.slotPlan
  dsimp only
  rw [if_neg (by omega), hc]

section
variable {c : Carrier} (hc : s.carrier? (leAt bs 16 2) = some c)
include hc

/-- The checks of a plan in their order. -/
theorem slotPlan_checks :
    State.slotPlan t tasks grp flag bs s =
      if !s.planInRange bs c (s.planImage bs c) then (said stBadParam, s)
      else if planStart bs c t < t + cLead c * 1000 then (said stLate, s.setCarrier (leAt bs 16 2) (some { c with late := (c.late + 1) % 2 ^ 32 }))
      else if s.mrdState ≠ 2 ∨ c.st ≠ .started ∨ planFrame bs c t < (s.tl (leAt bs 16 2)).fromFrame then (said stBadState, s)
      else if cMaxTasks c < tasks.length then (said stNoResource, s)
      else if !s.releaseOk flag (tasks.map (withRelease grp flag)) then (.none, s)
      else (s.records (s.newPlan t tasks grp flag bs c)).planOn s.fw.nextPlan := by
  unfold State.slotPlan
  dsimp only
  rw [if_neg (by omega), hc]
  rfl

theorem slotPlan_range (hr : s.planInRange bs c (s.planImage bs c) = false) : State.slotPlan t tasks grp flag bs s = (said stBadParam, s) :=
  (slotPlan_checks h hc).trans (if_pos (by rw [hr]; rfl))

section
variable (hr : s.planInRange bs c (s.planImage bs c) = true)
include hr

theorem slotPlan_late (hl : planStart bs c t < t + cLead c * 1000) :
    State.slotPlan t tasks grp flag bs s = (said stLate, s.setCarrier (leAt bs 16 2) (some { c with late := (c.late + 1) % 2 ^ 32 })) :=
  ((slotPlan_checks h hc).trans (if_neg (by rw [hr]; decide))).trans (if_pos hl)

section
variable (hl : t + cLead c * 1000 ≤ planStart bs c t)
include hl

theorem slotPlan_inTime :
    State.slotPlan t tasks grp flag bs s =
      if s.mrdState ≠ 2 ∨ c.st ≠ .started ∨ planFrame bs c t < (s.tl (leAt bs 16 2)).fromFrame then (said stBadState, s)
      else if cMaxTasks c < tasks.length then (said stNoResource, s)
      else if !s.releaseOk flag (tasks.map (withRelease grp flag)) then (.none, s)
      else (s.records (s.newPlan t tasks grp flag bs c)).planOn s.fw.nextPlan :=
  ((slotPlan_checks h hc).trans (if_neg (by rw [hr]; decide))).trans (if_neg (Nat.not_lt.mpr hl))

theorem slotPlan_unarmed (hs : s.mrdState ≠ 2 ∨ c.st ≠ .started ∨ planFrame bs c t < (s.tl (leAt bs 16 2)).fromFrame) :
    State.slotPlan t tasks grp flag bs s = (said stBadState, s) :=
  (slotPlan_inTime h hc hr hl).trans (if_pos hs)

section
variable (hm : s.mrdState = 2) (hst : c.st = .started) (hf : (s.tl (leAt bs 16 2)).fromFrame ≤ planFrame bs c t)
include hm hst hf

theorem slotPlan_armed :
    State.slotPlan t tasks grp flag bs s =
      if cMaxTasks c < tasks.length then (said stNoResource, s)
      else if !s.releaseOk flag (tasks.map (withRelease grp flag)) then (.none, s)
      else (s.records (s.newPlan t tasks grp flag bs c)).planOn s.fw.nextPlan :=
  (slotPlan_inTime h hc hr hl).trans (if_neg (not_or.mpr ⟨not_not_intro hm, not_or.mpr ⟨not_not_intro hst, Nat.not_lt.mpr hf⟩⟩))

theorem slotPlan_tooMany (hn : cMaxTasks c < tasks.length) : State.slotPlan t tasks grp flag bs s = (said stNoResource, s) :=
  (slotPlan_armed h hc hr hl hm hst hf).trans (if_pos hn)

section
variable (hn : tasks.length ≤ cMaxTasks c)
include hn

theorem slotPlan_unserved (hs : s.releaseOk flag (tasks.map (withRelease grp flag)) = false) : State.slotPlan t tasks grp flag bs s = (.none, s) :=
  ((slotPlan_armed h hc hr hl hm hst hf).trans (if_neg (Nat.not_lt.mpr hn))).trans (if_pos (by rw [hs]; rfl))

theorem slotPlan_submits (hs : s.releaseOk flag (tasks.map (withRelease grp flag)) = true) :
    State.slotPlan t tasks grp flag bs s = (s.records (s.newPlan t tasks grp flag bs c)).planOn s.fw.nextPlan :=
  ((slotPlan_armed h hc hr hl hm hst hf).trans (if_neg (Nat.not_lt.mpr hn))).trans (if_neg (by rw [hs]; decide))

end
end
end
end
end
end
end

/-! ### A plan's submission (R61) -/

section
variable {u v : State} {h : Nat} {p : Plan} (hp : u.plan? h = some p)
include hp

theorem planOn_result {r : Nat} (hs : u.submitTodo h p.todo = (r, v)) : u.planOn h = v.planResult h r := by
  unfold State.planOn
  rw [hp]
  dsimp only
  rw [hs]

theorem planOn_accepted {q : Plan} (hs : u.submitTodo h p.todo = (1, v)) (hq : v.plan? h = some q) :
    u.planOn h =
      let w := (v.onPlan h fun p => { p with released := true }).onCarrier q.carrier fun c => { c with plans := (c.plans + 1) % 2 ^ 32 }
      (.ready { status := stAccepted, flags := 0, payload := leBytes 4 q.total ++ leBytes 4 h },
        (q.relGrps.foldl (fun s g => s.post g (2 ^ q.relFlag)) w).endPlan h) := by
  rw [planOn_result hp hs]
  unfold State.planResult
  rw [hq]
  rfl

theorem planOn_held {q : Plan} (hs : u.submitTodo h p.todo = (0, v)) (hq : v.plan? h = some q) : u.planOn h = (.wait (.plan h), v) := by
  rw [planOn_result hp hs]
  unfold State.planResult
  rw [hq]
  rfl

theorem planOn_rejected {n : Nat} (hs : u.submitTodo h p.todo = (n + 2, v)) : u.planOn h = (said stFault, v.dropPlan h) := by
  rw [planOn_result hp hs]
  rfl

end

/-! ### PLAN_SUBMIT_LATE (R61) -/

section
variable {s : State} {h : Nat}

theorem planLate_none (hp : s.plan? h = none) : s.planLate h = s := by
  unfold State.planLate
  rw [hp]

section
variable {p : Plan} (hp : s.plan? h = some p)
include hp

theorem planLate_released (hr : p.released = true) : s.planLate h = s := by
  unfold State.planLate
  rw [hp]
  exact if_pos hr

theorem planLate_drops (hr : p.released = false) :
    s.planLate h =
      let u := (s.until (p.start * 2 ^ 32)).onCarrier p.carrier fun c => { c with late := (c.late + 1) % 2 ^ 32 }
      (u.dropPlan h).answerPlan h (.st stLate) := by
  unfold State.planLate
  rw [hp]
  exact if_neg (ne_true_of_eq_false hr)

end
end

/-! ### SLOT.CANCEL (R62) -/

section
variable {s : State} {bs : List Byte}

theorem slotCancel_unknown (h : s.knownPlan (leAt bs 16 4) = none) : State.slotCancel bs s = (said stBadParam, s) := by
  unfold State.slotCancel
  dsimp only
  rw [h]

section
variable {p : Plan} (h : s.knownPlan (leAt bs 16 4) = some p)
include h

theorem slotCancel_ended (he : p.ended ≠ none) : State.slotCancel bs s = (said stAlreadyDone, s) := by
  unfold State.slotCancel
  dsimp only
  rw [h]
  exact if_pos (Option.isSome_iff_ne_none.mpr he)

theorem slotCancel_cancels (he : p.ended = none) :
    State.slotCancel bs s =
      let r := p.tasks.foldl (fun (r : Nat × State) t => (r.1 + bn (r.2.cancelHandle t).1, (r.2.cancelHandle t).2))
        (p.cancelled, s.onPlan (leAt bs 16 4) fun p => { p with killed := true })
      (saidOk (leBytes 4 r.1 ++ leBytes 4 (p.total - r.1)), r.2.endPlan (leAt bs 16 4)) := by
  unfold State.slotCancel
  dsimp only
  rw [h]
  dsimp only
  rw [if_neg (by rw [he]; decide)]

end
end

/-! ### The messages as commands -/

theorem slotPlan_answers {s t : State} {m k grp flag : Nat} {tasks : List (List Word)} {bs : List Byte} {a : Ans} (h : Asked s m k 0x0401 bs)
    (hg : grp < 16384) (hf : flag < 32) (hd : State.slotPlan ((begin s).consumed m) tasks grp flag bs (begin s) = (a, t)) :
    Answers (.slotPlan m tasks grp flag) s m k a t := by
  obtain ⟨hu, hm, hst, hn, hop, hr⟩ := h
  have hok : (decide (m < 64) && decide (grp < 16384) && decide (flag < 32)) = true := by
    rw [decide_eq_true hm, decide_eq_true hg, decide_eq_true hf]
    rfl
  refine pcmd_does hok hu ?_
  rw [handle_answers (s := begin s) ⟨hu, hm, hst, hn, hop, hr⟩ rfl, hd]

/-- Settles O27: the messages are `slotPlan` and `slotCancel`, a plan's submission is `planOn`; each clause is one case of them. -/
theorem slotMessages : Obligations.SlotMessages := by
  intro m k grp flag tasks bs s b id gives
  refine ⟨fun h hg hf => ?_, fun u v h p hp => ?_, fun h hu => ?_, fun h => ?_⟩
  · have plan : ∀ {a v}, State.slotPlan (b.consumed m) tasks grp flag bs b = (a, v) → gives a v := fun hd => slotPlan_answers h hg hf hd
    refine ⟨fun hid => plan (slotPlan_carrierless hid), fun hid hc => plan (slotPlan_unconfigured hid hc), fun c hid hc => ?_⟩
    intro blend t frame start todo
    refine ⟨fun hr => plan (slotPlan_range hid hc hr), fun hr hl => plan (slotPlan_late hid hc hr hl), fun hr hl => ⟨fun hs => plan (slotPlan_unarmed hid hc hr hl hs), fun hm hst hfr => ⟨fun hn => ?_, fun hn hs => ?_, fun hn hs => ?_⟩⟩⟩
    · exact plan (slotPlan_tooMany hid hc hr hl hm hst hfr hn)
    · exact plan (slotPlan_unserved hid hc hr hl hm hst hfr hn hs)
    · exact plan (slotPlan_submits hid hc hr hl hm hst hfr hn hs)
  · exact ⟨fun q hs hq => planOn_accepted hp hs hq, fun q hs hq => planOn_held hp hs hq, fun n hs => planOn_rejected hp hs⟩
  · have late : ∀ {t}, b.planLate h = t → exec (.planSubmitLate h) s = .next (after s t) := fun ht => pcmd_does (f := fun s => s.planLate h) rfl hu ht
    exact ⟨fun hp => late (planLate_none hp), fun p hp hr => late (planLate_released hp hr), fun p hp hr => late (planLate_drops hp hr)⟩
  · exact ⟨fun hp => plain_answers h rfl (slotCancel_unknown hp), fun p hp he => plain_answers h rfl (slotCancel_ended hp he),
      fun p hp he => plain_answers h rfl (slotCancel_cancels hp he)⟩

end Sys2Proof.Machine
end

section
/-! The BLEND and FLOW messages, case by case: a blend's load, its coming into force and its unload, and the pinning and the bindings of flows
(R64 to R67, R80, R495). -/

namespace Sys2Proof.Machine

/-! ### BLEND.LOAD (R64, R495) -/

/-- The store holds the blend beside those that stay and those being loaded. -/
def State.blendFits (s : State) (id : Nat) (p : List Byte) : Prop :=
  p.length + (((s.fw.blends.filter fun x => x.id != id) ++ s.fw.loading).map (·.len)).sum ≤ 16777216 + Config.blendStore

/-- The blend is loaded and the message does not replace it. -/
def State.blendTaken (s : State) (id : Nat) (bs : List Byte) : Prop := s.blend? id ≠ none ∧ tb (leAt bs 18 2) 0 = false

theorem blendTaken_iff {s : State} {id : Nat} {bs : List Byte} :
    ((s.blend? id).isSome && !tb (leAt bs 18 2) 0) = true ↔ s.blendTaken id bs := by
  rw [State.blendTaken, Bool.and_eq_true, Option.isSome_iff_ne_none, Bool.not_eq_true']

/-- A load of the blend is in progress. -/
theorem blendLoading_iff {s : State} {id : Nat} : (s.fw.loading.any fun b => b.id == id) = true ↔ ∃ x ∈ s.fw.loading, x.id = id := by
  simp only [List.any_eq_true, beq_iff_eq]

/-- The templates of a blend payload. -/
def templates (p : List Byte) : Nat := (((blendSections p (p.length + 1) 0).getD []).filter fun x => x.1 == 1).length

/-- The load of a blend of `n` templates from an image: its IDEM and the length of its PLANDESC are free values. -/
def State.loadsBlend (s : State) (id : Nat) (img : List Byte) : Ans × State :=
  let n := templates (krvPayload img)
  let idem := (s.free (n + 1)).1
  let u := (s.free (n + 1)).2
  let plen := (u.free 65537).1
  let v := (u.free 65537).2
  let d : Blend := { id := id, ver := s.fw.blendVer + 1, templates := n, idem := idem, planLen := plen, len := (krvPayload img).length
                     keyId := leAt img 8 4, svn := leAt img 12 1 }
  (.thenDo (.ok (leBytes 2 n ++ leBytes 2 idem)) (.blend id), { v with fw := { v.fw with loading := v.fw.loading ++ [d], blendVer := v.fw.blendVer + 1 } })

section
variable {s : State} {bs : List Byte}

theorem blendLoad_refused (h : leAt bs 16 2 = 0 ∨ 4095 < leAt bs 16 2 ∨ s.hostImage (leAt bs 24 8) (leAt bs 32 4) = none) :
    State.blendLoad bs s = (said stBadParam, s) := by
  unfold State.blendLoad
  dsimp only
  rcases h with h | h | h
  · exact if_pos (.inl h)
  · exact if_pos (.inr h)
  · rw [h]
    exact ite_self _

section
variable {img : List Byte} (h1 : 1 ≤ leAt bs 16 2) (h2 : leAt bs 16 2 ≤ 4095) (hf : s.hostImage (leAt bs 24 8) (leAt bs 32 4) = some img)
include h1 h2 hf

theorem blendLoad_image :
    State.blendLoad bs s =
      if s.checkImage 2 img ≠ 0 then (.ready (badImage (s.checkImage 2 img)), s)
      else if (s.blend? (leAt bs 16 2)).isSome && !tb (leAt bs 18 2) 0 then (said stBadState, s)
      else if s.fw.loading.any fun b => b.id == leAt bs 16 2 then (said stBusy, s)
      else if 16777216 + Config.blendStore <
          (krvPayload img).length + (((s.fw.blends.filter fun x => x.id != leAt bs 16 2) ++ s.fw.loading).map (·.len)).sum then
        (said stNoResource, s)
      else s.loadsBlend (leAt bs 16 2) img := by
  unfold State.blendLoad
  dsimp only
  rw [if_neg (by omega), hf]
  rfl

theorem blendLoad_bad {c : Nat} (hc : s.checkImage 2 img = c + 1) : State.blendLoad bs s = (.ready (badImage (c + 1)), s) := by
  rw [blendLoad_image h1 h2 hf, if_pos (by omega), hc]

section
variable (hc : s.checkImage 2 img = 0)
include hc

theorem blendLoad_taken (ht : s.blendTaken (leAt bs 16 2) bs) : State.blendLoad bs s = (said stBadState, s) := by
  rw [blendLoad_image h1 h2 hf, if_neg (not_not_intro hc), if_pos (blendTaken_iff.mpr ht)]

section
variable (ht : ¬s.blendTaken (leAt bs 16 2) bs)
include ht

theorem blendLoad_busy (hl : ∃ x ∈ s.fw.loading, x.id = leAt bs 16 2) : State.blendLoad bs s = (said stBusy, s) := by
  rw [blendLoad_image h1 h2 hf, if_neg (not_not_intro hc), if_neg fun h => ht (blendTaken_iff.mp h), if_pos (blendLoading_iff.mpr hl)]

section
variable (hl : ∀ x ∈ s.fw.loading, x.id ≠ leAt bs 16 2)
include hl

theorem blendLoad_idle :
    State.blendLoad bs s =
      if 16777216 + Config.blendStore <
          (krvPayload img).length + (((s.fw.blends.filter fun x => x.id != leAt bs 16 2) ++ s.fw.loading).map (·.len)).sum then
        (said stNoResource, s)
      else s.loadsBlend (leAt bs 16 2) img := by
  have hno : ¬∃ x ∈ s.fw.loading, x.id = leAt bs 16 2 := fun ⟨x, hx, he⟩ => hl x hx he
  rw [blendLoad_image h1 h2 hf, if_neg (not_not_intro hc), if_neg fun h => ht (blendTaken_iff.mp h), if_neg fun h => hno (blendLoading_iff.mp h)]

theorem blendLoad_full (hx : ¬s.blendFits (leAt bs 16 2) (krvPayload img)) : State.blendLoad bs s = (said stNoResource, s) :=
  (blendLoad_idle h1 h2 hf hc ht hl).trans (if_pos (Nat.not_le.mp hx))

theorem blendLoad_loads (hx : s.blendFits (leAt bs 16 2) (krvPayload img)) : State.blendLoad bs s = s.loadsBlend (leAt bs 16 2) img :=
  (blendLoad_idle h1 h2 hf hc ht hl).trans (if_neg (Nat.not_lt.mpr hx))

end
end
end
end

theorem blendInForce_loaded {id : Nat} {d : Blend} (h : s.fw.loading.find? (fun x => x.id == id) = some d) :
    s.blendInForce id =
      { s with fw := { s.fw with
          loading := s.fw.loading.filter fun x => x.id != id, blends := (s.fw.blends.filter fun x => x.id != id) ++ [d] } } := by
  unfold State.blendInForce
  rw [h]

/-! ### BLEND.UNLOAD (R65) -/

/-- A carrier has the blend as its default. -/
def State.defaultBlend (s : State) (id : Nat) : Prop := ∃ e ∈ s.fw.carriers, ∃ c, e.2 = some c ∧ (cBlend c 0 = id ∨ cBlend c 1 = id)

theorem blendUnload_missing (h : s.blend? (leAt bs 16 2) = none) : State.blendUnload bs s = (said stBadParam, s) := if_pos (by rw [h]; rfl)

section
variable (h : s.blend? (leAt bs 16 2) ≠ none)
include h

theorem blendUnload_default (hd : s.defaultBlend (leAt bs 16 2)) : State.blendUnload bs s = (said stBadState, s) := by
  obtain ⟨e, he, c, hc, hid⟩ := hd
  refine (if_neg fun hn => h (Option.isNone_iff_eq_none.mp hn)).trans (if_pos (List.any_eq_true.mpr ⟨e, he, ?_⟩))
  rw [hc]
  simpa only [Bool.or_eq_true, beq_iff_eq] using hid

section
variable (hd : ¬s.defaultBlend (leAt bs 16 2))
include hd

theorem blendUnload_free :
    State.blendUnload bs s =
      if s.blendUse (leAt bs 16 2) ≠ 0 then (said stBusy, s)
      else (said stOk, { s with fw := { s.fw with blends := s.fw.blends.filter fun x => x.id != leAt bs 16 2 } }) := by
  refine (if_neg fun hn => h (Option.isNone_iff_eq_none.mp hn)).trans (if_neg fun hany => hd ?_)
  obtain ⟨e, he, hb⟩ := List.any_eq_true.mp hany
  cases hc : e.2 with
  | none =>
    rw [hc] at hb
    exact absurd hb Bool.false_ne_true
  | some c =>
    rw [hc] at hb
    exact ⟨e, he, c, hc, by simpa only [Bool.or_eq_true, beq_iff_eq] using hb⟩

theorem blendUnload_busy (hu : s.blendUse (leAt bs 16 2) ≠ 0) : State.blendUnload bs s = (said stBusy, s) :=
  (blendUnload_free h hd).trans (if_pos hu)

theorem blendUnload_removes (hu : s.blendUse (leAt bs 16 2) = 0) :
    State.blendUnload bs s = (said stOk, { s with fw := { s.fw with blends := s.fw.blends.filter fun x => x.id != leAt bs 16 2 } }) :=
  (blendUnload_free h hd).trans (if_neg (not_not_intro hu))

end
end

/-! ### FLOW.PIN (R66) -/

theorem flowPin_range (h : 65535 < leAt bs 16 4 ∨ 12 ≤ leAt bs 20 1 ∧ leAt bs 20 1 ≠ 0xFF) : State.flowPin bs s = (said stBadParam, s) := if_pos h

section
variable (h : ¬(65535 < leAt bs 16 4 ∨ 12 ≤ leAt bs 20 1 ∧ leAt bs 20 1 ≠ 0xFF))
include h

theorem flowPin_closed (ho : (s.flow (leAt bs 16 4)).opened = false) : State.flowPin bs s = (said stBadState, s) :=
  (if_neg h).trans (if_pos (by rw [ho]; rfl))

section
variable (ho : (s.flow (leAt bs 16 4)).opened = true)
include ho

theorem flowPin_open :
    State.flowPin bs s =
      if leAt bs 20 1 = 0xFF then (said stOk, (s.setFlow (leAt bs 16 4) { s.flow (leAt bs 16 4) with pin := false }).advanceFlow (leAt bs 16 4))
      else if !s.clusterIn (leAt bs 20 1) then (said stNoResource, s)
      else
        (said stOk,
          ((if (s.flow (leAt bs 16 4)).home = leAt bs 20 1 then s else s.setHome (leAt bs 16 4) (leAt bs 20 1)).setFlow (leAt bs 16 4)
            { s.flow (leAt bs 16 4) with pin := true, home := leAt bs 20 1 }).advanceFlow (leAt bs 16 4)) :=
  (if_neg h).trans (if_neg (by rw [ho]; decide))

theorem flowPin_clears (hc : leAt bs 20 1 = 0xFF) :
    State.flowPin bs s = (said stOk, (s.setFlow (leAt bs 16 4) { s.flow (leAt bs 16 4) with pin := false }).advanceFlow (leAt bs 16 4)) :=
  (flowPin_open h ho).trans (if_pos hc)

section
variable (hc : leAt bs 20 1 < 12)
include hc

theorem flowPin_coreless (hi : s.clusterIn (leAt bs 20 1) = false) : State.flowPin bs s = (said stNoResource, s) :=
  ((flowPin_open h ho).trans (if_neg (by omega))).trans (if_pos (by rw [hi]; rfl))

section
variable (hi : s.clusterIn (leAt bs 20 1) = true)
include hi

theorem flowPin_pins :
    State.flowPin bs s =
      (said stOk,
        ((if (s.flow (leAt bs 16 4)).home = leAt bs 20 1 then s else s.setHome (leAt bs 16 4) (leAt bs 20 1)).setFlow (leAt bs 16 4)
          { s.flow (leAt bs 16 4) with pin := true, home := leAt bs 20 1 }).advanceFlow (leAt bs 16 4)) :=
  ((flowPin_open h ho).trans (if_neg (by omega))).trans (if_neg (by rw [hi]; decide))

theorem flowPin_home (hh : (s.flow (leAt bs 16 4)).home = leAt bs 20 1) :
    State.flowPin bs s =
      (said stOk, (s.setFlow (leAt bs 16 4) { s.flow (leAt bs 16 4) with pin := true, home := leAt bs 20 1 }).advanceFlow (leAt bs 16 4)) := by
  rw [flowPin_pins h ho hc hi, if_pos hh]

theorem flowPin_moves (hh : (s.flow (leAt bs 16 4)).home ≠ leAt bs 20 1) :
    State.flowPin bs s =
      (said stOk,
        ((s.setHome (leAt bs 16 4) (leAt bs 20 1)).setFlow (leAt bs 16 4)
          { s.flow (leAt bs 16 4) with pin := true, home := leAt bs 20 1 }).advanceFlow (leAt bs 16 4)) := by
  rw [flowPin_pins h ho hc hi, if_neg hh]

end
end
end
end

/-! ### FLOW.NOTIFY (R66) -/

/-- The vector is bound. -/
theorem bound_iff {v : Nat} : (s.fw.binds.any fun x => x.vector == v) = true ↔ ∃ x ∈ s.fw.binds, x.vector = v := by
  simp only [List.any_eq_true, beq_iff_eq]

theorem bindInRange_iff : bindInRange bs = true ↔ 130 ≤ leAt bs 16 2 ∧ leAt bs 16 2 ≤ 2047 ∧ leAt bs 20 2 < 16384 := decide_eq_true_iff

/-- The binding that a FLOW.NOTIFY describes. -/
def bindOf (bs : List Byte) : Bind :=
  { vector := leAt bs 16 2, any := tb (leAt bs 18 2) 1, rep := tb (leAt bs 18 2) 2, grp := leAt bs 20 2, mask := leAt bs 24 4 }

theorem notifyBind_range (h : bindInRange bs = false ∨ leAt bs 24 4 = 0) : State.notifyBind bs s = (said stBadParam, s) := by
  refine if_pos ?_
  rcases h with h | h
  · rw [h]
    rfl
  · rw [Bool.or_eq_true]
    exact .inr (beq_iff_eq.mpr h)

section
variable (h : bindInRange bs = true) (hm : leAt bs 24 4 ≠ 0)
include h hm

theorem notifyBind_inRange :
    State.notifyBind bs s =
      if s.fw.binds.any fun x => x.vector == leAt bs 16 2 then (said stBadState, s)
      else (said stOk, ({ s with fw := { s.fw with binds := s.fw.binds ++ [bindOf bs] } } : State).testBind (bindOf bs)) := by
  unfold State.notifyBind
  dsimp only
  rw [h, beq_false_of_ne hm]
  rfl

theorem notifyBind_bound (hb : ∃ x ∈ s.fw.binds, x.vector = leAt bs 16 2) : State.notifyBind bs s = (said stBadState, s) :=
  (notifyBind_inRange h hm).trans (if_pos (bound_iff.mpr hb))

theorem notifyBind_binds (hb : ¬∃ x ∈ s.fw.binds, x.vector = leAt bs 16 2) :
    State.notifyBind bs s = (said stOk, ({ s with fw := { s.fw with binds := s.fw.binds ++ [bindOf bs] } } : State).testBind (bindOf bs)) :=
  (notifyBind_inRange h hm).trans (if_neg fun hx => hb (bound_iff.mp hx))

end

theorem notifyUnbind_range (h : bindInRange bs = false) : State.notifyUnbind bs s = (said stBadParam, s) := if_pos (by rw [h]; rfl)

section
variable (h : bindInRange bs = true)
include h

theorem notifyUnbind_unbound (hb : ¬∃ x ∈ s.fw.binds, x.vector = leAt bs 16 2) : State.notifyUnbind bs s = (said stBadState, s) := by
  refine (if_neg (by rw [h]; decide)).trans (if_pos ?_)
  rw [Bool.eq_false_iff.mpr fun hx => hb (bound_iff.mp hx)]
  rfl

theorem notifyUnbind_removes (hb : ∃ x ∈ s.fw.binds, x.vector = leAt bs 16 2) :
    State.notifyUnbind bs s = (said stOk, { s with fw := { s.fw with binds := s.fw.binds.filter fun x => x.vector != leAt bs 16 2 } }) := by
  refine (if_neg (by rw [h]; decide)).trans (if_neg ?_)
  rw [bound_iff.mpr hb]
  decide

end
end

/-! ### The messages as commands -/

section
variable {s t : State} {m k : Nat} {bs : List Byte} {a : Ans} (h : Asked s m k 0x0602 bs)
include h

theorem flowNotifyBind_answers (hf : tb (leAt bs 18 2) 0 = false) (hd : State.notifyBind bs (begin s) = (a, t)) :
    Answers (.flowNotifyBind m) s m k a t := by
  have ⟨_, hm, _⟩ := h
  exact message_does (form := fun bs => !tb (leAt bs 18 2) 0) h (decide_eq_true hm) (by rw [hf]; rfl) rfl hd

theorem flowNotifyUnbind_answers (hf : tb (leAt bs 18 2) 0 = true) (hd : State.notifyUnbind bs (begin s) = (a, t)) :
    Answers (.flowNotifyUnbind m) s m k a t := by
  have ⟨_, hm, _⟩ := h
  exact message_does (form := fun bs => tb (leAt bs 18 2) 0) h (decide_eq_true hm) hf rfl hd

end

/-- Settles O28: each message is one operation on the blends, a flow or the bindings, and each clause is one case of it. -/
theorem blendFlowMessages : Obligations.BlendFlowMessages := by
  intro m k bs s b id f
  refine ⟨fun h => ?_, fun u d h => blendInForce_loaded h, fun h => ?_, fun h => ?_, fun h => ?_⟩
  · intro gives found
    have load : ∀ {a v}, State.blendLoad bs b = (a, v) → gives a v := fun hd => plain_answers h rfl hd
    refine ⟨fun hbad => load (blendLoad_refused hbad), fun img h1 h2 hf => ⟨fun c hc => load (blendLoad_bad h1 h2 hf hc), fun hc => ?_⟩⟩
    exact ⟨fun ht => load (blendLoad_taken h1 h2 hf hc ht), fun ht hl => load (blendLoad_busy h1 h2 hf hc ht hl),
      fun ht hl hx => load (blendLoad_full h1 h2 hf hc ht hl hx), fun ht hl hx => load (blendLoad_loads h1 h2 hf hc ht hl hx)⟩
  · intro gives default
    have unload : ∀ {a v}, State.blendUnload bs b = (a, v) → gives a v := fun hd => plain_answers h rfl hd
    exact ⟨fun hn => unload (blendUnload_missing hn), fun hn hd => unload (blendUnload_default hn hd),
      fun hn hd hu => unload (blendUnload_busy hn hd hu), fun hn hd hu => unload (blendUnload_removes hn hd hu)⟩
  · intro gives c bad
    have pin : ∀ {a v}, State.flowPin bs b = (a, v) → gives a v := fun hd => plain_answers h rfl hd
    exact ⟨fun hbad => pin (flowPin_range hbad), fun hbad ho => pin (flowPin_closed hbad ho), fun hbad ho =>
      ⟨fun hc => pin (flowPin_clears hbad ho hc), fun hc hi => pin (flowPin_coreless hbad ho hc hi),
        fun hc hi hh => pin (flowPin_home hbad ho hc hi hh), fun hc hi hh => pin (flowPin_moves hbad ho hc hi hh)⟩⟩
  · intro inRange bound
    have range : ∀ {x : Prop}, ¬inRange ∨ x → bindInRange bs = false ∨ x := fun hx => hx.imp_left fun hr => Bool.eq_false_iff.mpr fun hx => hr (bindInRange_iff.mp hx)
    refine ⟨fun hf => ⟨fun hr => ?_, fun hr hm hb => ?_, fun hr hm hb => ?_⟩, fun hf => ⟨fun hr => ?_, fun hr hb => ?_, fun hr hb => ?_⟩⟩
    · exact flowNotifyBind_answers h hf (notifyBind_range (range hr))
    · exact flowNotifyBind_answers h hf (notifyBind_bound (bindInRange_iff.mpr hr) hm hb)
    · exact flowNotifyBind_answers h hf (notifyBind_binds (bindInRange_iff.mpr hr) hm hb)
    · exact flowNotifyUnbind_answers h hf (notifyUnbind_range (Bool.eq_false_iff.mpr fun hx => hr (bindInRange_iff.mp hx)))
    · exact flowNotifyUnbind_answers h hf (notifyUnbind_unbound (bindInRange_iff.mpr hr) hb)
    · exact flowNotifyUnbind_answers h hf (notifyUnbind_removes (bindInRange_iff.mpr hr) hb)

end Sys2Proof.Machine
end

section
/-! The host rings, case by case: the doorbell, the entries and the completion records (R92 to R98). -/

namespace Sys2Proof.Machine

/-! ### The doorbell (R92, R93) -/

section
variable {s u : State} {h v : Nat}

/-- The host reaches the control block of an enabled ring. -/
theorem sqPiWrite_reaches (he : s.rdB (Reg.cmHringCfg h) 31 = true) (hl : s.pcie.link = true) (hd : s.d3hot = false) :
    s.sqPiWrite h v = (s.hostCellar (s.rdF (Reg.cmHringSqbase h) 25 6 * 64) (leBytes 2 v)).2 := by
  unfold State.sqPiWrite
  rw [he, hl, hd]
  exact if_neg (by decide)

theorem sqPiWrite_lost (hs : s.rdB (Reg.cmHringCfg h) 31 = false ∨ s.pcie.link = false ∨ s.d3hot = true) : s.sqPiWrite h v = s := by
  refine if_pos ?_
  simp only [Bool.or_eq_true, Bool.not_eq_true', or_assoc]
  exact hs

/-- The control block of a ring, whose first field SQ_PI is. -/
def State.ringBlock (s : State) (h : Nat) : Nat := s.rdF (Reg.cmHringSqbase h) 25 6 * 64

theorem leBytes_two_length (v : Nat) : (leBytes 2 v).length = 2 := rfl

section
variable (he : s.rdB (Reg.cmHringCfg h) 31 = true) (hl : s.pcie.link = true) (hd : s.d3hot = false)
include he hl hd

theorem sqPiWrite_refused (hg : s.granted (s.ringBlock h) 2 = false) (hdbg : s.hostDebug = false) :
    s.sqPiWrite h v = s.aerr .host 4 true false (s.ringBlock h) :=
  (sqPiWrite_reaches he hl hd).trans (congrArg Prod.snd (hostCellar_refused (by rw [leBytes_two_length]; exact hg) hdbg))

variable (hg : s.granted (s.ringBlock h) 2 = true ∨ s.hostDebug = true)
include hg

theorem sqPiWrite_lands (hw : s.busWrite .host (s.ringBlock h) (leBytes 2 v) = (.ok, u)) : s.sqPiWrite h v = u.ringsSee (s.ringBlock h) 2 := by
  rw [← leBytes_two_length v] at hg ⊢
  exact (sqPiWrite_reaches he hl hd).trans (congrArg Prod.snd (hostCellar_lands hg hw))

theorem sqPiWrite_fails {r : WrRes} (hw : s.busWrite .host (s.ringBlock h) (leBytes 2 v) = (r, u)) (hr : r ≠ .ok) : s.sqPiWrite h v = u := by
  rw [← leBytes_two_length v] at hg
  exact (sqPiWrite_reaches he hl hd).trans (congrArg Prod.snd (hostCellar_fails hg hw hr))

end

theorem sqPiSeen_known {w : State} (hi : w.ringIndex h 0 = (some v, u)) (hf : (v + 65536 - (u.ringAt h).sqCi) % 65536 ≤ u.hringSize h) :
    w.sqPiSeen h = u.setRing h { u.ringAt h with sqPi := v } := by
  unfold State.sqPiSeen
  rw [hi]
  exact if_neg (Nat.not_lt.mpr hf)

theorem sqPiSeen_overrun {w : State} (hi : w.ringIndex h 0 = (some v, u)) (hf : u.hringSize h < (v + 65536 - (u.ringAt h).sqCi) % 65536) :
    w.sqPiSeen h = u.ringStop h 1 := by
  unfold State.sqPiSeen
  rw [hi]
  exact if_pos hf

end

/-! ### The entry next in ring order (R93, R294) -/

/-- The ring has no entry that the device may take: it is disabled, empty, or an entry of it is held. -/
def State.ringStands (s : State) (h : Nat) : Prop :=
  s.rdB (Reg.cmHringCfg h) 31 = false ∨ (s.ringAt h).sqPi = (s.ringAt h).sqCi ∨ s.held? (.ring h) ≠ none

/-- The address of the entry next in ring order. -/
def State.ringEntryAt (s : State) (h : Nat) : Nat :=
  s.rdF (Reg.cmHringSqbase h) 25 6 * 64 + 64 + (s.ringAt h).sqCi % s.hringSize h * 32

/-- `ringEntry` tests `ringStands`. -/
theorem ringStands_iff {s : State} {h : Nat} :
    (!s.rdB (Reg.cmHringCfg h) 31 || (s.ringAt h).sqPi == (s.ringAt h).sqCi || (s.held? (.ring h)).isSome) = true ↔ s.ringStands h := by
  simp only [State.ringStands, Bool.or_eq_true, Bool.not_eq_true', beq_iff_eq, or_assoc, ne_eq, Option.isSome_iff_ne_none]

section
variable {s u : State} {h sl n : Nat} {ok : Bool} {bs : List Byte} {ws : List Word}

theorem ringEntry_stands (hs : s.ringStands h) : s.ringEntry h ok = (none, s) := if_pos (ringStands_iff.mpr hs)

theorem ringEntry_read (hs : ¬s.ringStands h) (hr : s.busRead .cm (s.ringEntryAt h) 32 = (.ok bs, u)) :
    s.ringEntry h true = (some (wordsOf bs), u) := by
  unfold State.ringEntryAt at hr
  unfold State.ringEntry
  rw [if_neg fun hx => hs (ringStands_iff.mp hx)]
  dsimp only
  rw [hr]
  rfl

theorem ringEntry_uncorrectable (hs : ¬s.ringStands h) (hr : s.busRead .cm (s.ringEntryAt h) 32 = (.ok bs, u)) :
    s.ringEntry h false = (none, (u.ueAt false (s.ringEntryAt h)).ringStop h 0) := by
  unfold State.ringEntryAt at hr
  unfold State.ringEntry
  rw [if_neg fun hx => hs (ringStands_iff.mp hx)]
  dsimp only
  rw [hr]
  rfl

theorem ringEntry_unread {r : RdRes} (hs : ¬s.ringStands h) (hr : s.busRead .cm (s.ringEntryAt h) 32 = (r, u)) (hn : ∀ d, r ≠ .ok d) :
    s.ringEntry h ok = (none, u.ringStop h 0) := by
  unfold State.ringEntryAt at hr
  unfold State.ringEntry
  rw [if_neg fun hx => hs (ringStands_iff.mp hx)]
  dsimp only
  rw [hr]
  cases r with
  | ok d => exact absurd rfl (hn d)
  | _ => rfl

/-! ### The two rows that take it (R94, R98) -/

theorem hostRingEntry_none (he : s.ringEntry h ok = (none, u)) : s.hostRingEntry h ok sl = u := by
  unfold State.hostRingEntry
  rw [he]

theorem hostRingEntry_post (he : s.ringEntry h ok = (some ws, u)) (hc : dClass ws = 63) : s.hostRingEntry h ok sl = u := by
  unfold State.hostRingEntry
  rw [he]
  exact if_pos hc

theorem hostRingEntry_takes (he : s.ringEntry h ok = (some ws, u)) (hc : dClass ws ≠ 63) :
    s.hostRingEntry h ok sl = ((u.takeEntry h).hold (.ring h) (withPrio ws (u.rdF (Reg.cmHringCfg h) 3 0)) false).taskAdmit (.ring h) sl := by
  unfold State.hostRingEntry
  rw [he]
  exact if_neg hc

theorem hostRingPost_none (he : s.ringEntry h true = (none, u)) : s.hostRingPost h = u := by
  unfold State.hostRingPost
  rw [he]

theorem hostRingPost_other (he : s.ringEntry h true = (some ws, u)) (hc : dClass ws ≠ 63) : s.hostRingPost h = u := by
  unfold State.hostRingPost
  rw [he]
  exact if_pos hc

/-- A POST entry that Cellarmaster does not perform. -/
def State.postRefused (s : State) (h : Nat) (ws : List Word) (n : Nat) : State :=
  ((s.count (Reg.cmCnt 5) 1).tally 3 0 7 1).ringReject h ws n

theorem hostRingPost_disabled (he : s.ringEntry h true = (some ws, u)) (hc : dClass ws = 63) (hb : (u.takeEntry h).rdB Reg.cmCtrl 0 = false) :
    s.hostRingPost h = (u.takeEntry h).postRefused h ws 6 := by
  unfold State.hostRingPost
  rw [he]
  dsimp only
  rw [if_neg (not_not.mpr hc), hb]
  rfl

theorem hostRingPost_reserved (he : s.ringEntry h true = (some ws, u)) (hc : dClass ws = 63) (hb : (u.takeEntry h).rdB Reg.cmCtrl 0 = true)
    (hp : postReserved ws = true) : s.hostRingPost h = (u.takeEntry h).postRefused h ws 4 := by
  unfold State.hostRingPost
  rw [he]
  dsimp only
  rw [if_neg (not_not.mpr hc), hb, if_neg (by decide), if_pos hp]
  rfl

theorem hostRingPost_posts (he : s.ringEntry h true = (some ws, u)) (hc : dClass ws = 63) (hb : (u.takeEntry h).rdB Reg.cmCtrl 0 = true)
    (hp : postReserved ws = false) : s.hostRingPost h = (u.takeEntry h).post (dWaitGrp ws) (dMask ws) := by
  unfold State.hostRingPost
  rw [he]
  dsimp only
  rw [if_neg (not_not.mpr hc), hb, if_neg (by decide), if_neg (by rw [hp]; decide)]

end

/-! ### The oldest record of a queue (R95, R97) -/

/-- A grant's revocation still lets host ring `n` have its records. -/
def State.ringRevoking (s : State) (n : Nat) : Prop :=
  ∃ e ∈ s.fw.grants, ∃ g, e.2 = some g ∧ g.revoking = true ∧ g.ring = some n

section
variable {s u : State} {q : Nat} {ok : Bool} {r : CRec}

theorem recordWrite_none (hf : s.cm.records.find? (fun r => decide (r.q = q)) = none) : s.recordWrite q ok = s := by
  unfold State.recordWrite
  rw [hf]

/-- A firmware completion queue is full by its two indices. -/
theorem fcqFull_iff (hq : q < 8) : s.cqFull q = true ↔
    2 ^ max 4 (min 12 (s.rdF (Reg.cmFcqLog2 q) 3 0)) ≤ (s.rd (Reg.cmFcqPi q) + 65536 - s.rd (Reg.cmFcqCi q)) % 65536 := by
  unfold State.cqFull
  rw [if_pos hq]
  exact decide_eq_true_iff

/-- The test of `recordWrite` for a ring that may still have its records. -/
theorem ringOpen_test {n : Nat} {p : Nat × Option Grant → Bool} (hsome : ∀ k g, p (k, some g) = (g.revoking && decide (g.ring = some n)))
    (hnone : ∀ k, p (k, none) = false) :
    (!s.rdB (Reg.cmHringCfg n) 31 && !s.fw.grants.any p) = true ↔ ¬(s.rdB (Reg.cmHringCfg n) 31 = true ∨ s.ringRevoking n) := by
  have hany : s.fw.grants.any p = true ↔ s.ringRevoking n := by
    rw [List.any_eq_true]
    refine exists_congr fun ⟨k, o⟩ => and_congr_right fun _ => ?_
    cases o with
    | none => simp [hnone]
    | some g => simp [hsome]
  rw [← hany]
  simp only [Bool.and_eq_true, Bool.not_eq_true', not_or, Bool.not_eq_true]

variable (hf : s.cm.records.find? (fun r => decide (r.q = q)) = some r)
include hf

section
variable (hq : q < 8)
include hq

theorem recordWrite_fcq_full (hc : s.cqFull q = true) : s.recordWrite q ok = s.heldRecords q := by
  unfold State.recordWrite
  rw [hf]
  dsimp only
  rw [if_pos hq, if_pos hc]

variable (hc : s.cqFull q = false) {a : WrRes}
  (hw : s.busWrite .cm (s.rdF (Reg.cmFcqBase q) 25 4 * 16 + s.rd (Reg.cmFcqPi q) % ringSize (s.rdF (Reg.cmFcqLog2 q) 3 0) * 16) r.bytes = (a, u))
include hc hw

theorem recordWrite_fcq_writes (ha : a = .ok) :
    s.recordWrite q ok = (u.wr (Reg.cmFcqPi q) ((s.rd (Reg.cmFcqPi q) + 1) % 65536)).dropRecord r := by
  unfold State.recordWrite
  rw [hf]
  dsimp only
  rw [if_pos hq, if_neg (by rw [hc]; decide), hw, ha]

theorem recordWrite_fcq_fails (ha : a ≠ .ok) : s.recordWrite q ok = (u.count (Reg.cmCnt 8) 1).dropRecord r := by
  unfold State.recordWrite
  rw [hf]
  dsimp only
  rw [if_pos hq, if_neg (by rw [hc]; decide), hw]
  cases a with
  | ok => exact absurd rfl ha
  | _ => rfl

end

section
variable (hq : 8 ≤ q)
include hq

/-- A record of a ring that is neither enabled nor being revoked. -/
theorem recordWrite_closed (ho : ¬(s.rdB (Reg.cmHringCfg (q - 8)) 31 = true ∨ s.ringRevoking (q - 8))) :
    s.recordWrite q ok = (s.count (Reg.cmCnt 8) 1).dropRecord r := by
  unfold State.recordWrite
  rw [hf]
  dsimp only
  rw [if_neg (Nat.not_lt.mpr hq)]
  exact if_pos ((ringOpen_test (fun _ _ => rfl) fun _ => rfl).mpr ho)

variable (ho : s.rdB (Reg.cmHringCfg (q - 8)) 31 = true ∨ s.ringRevoking (q - 8)) {a : Option Nat} (hi : s.ringIndex (q - 8) 4 = (a, u))
include ho hi

theorem recordWrite_unread (ha : a = none) : s.recordWrite q ok = (u.count (Reg.cmCnt 8) 1).dropRecord r := by
  unfold State.recordWrite
  rw [hf]
  dsimp only
  rw [if_neg (Nat.not_lt.mpr hq)]
  refine (if_neg fun hx => (ringOpen_test (fun _ _ => rfl) fun _ => rfl).mp hx ho).trans ?_
  rw [hi, ha]

variable (ha : a ≠ none)
include ha

theorem recordWrite_full (hc : u.cqFull q = true) : s.recordWrite q ok = u.heldRecords q := by
  obtain ⟨ci, rfl⟩ := Option.ne_none_iff_exists'.mp ha
  unfold State.recordWrite
  rw [hf]
  dsimp only
  rw [if_neg (Nat.not_lt.mpr hq)]
  refine (if_neg fun hx => (ringOpen_test (fun _ _ => rfl) fun _ => rfl).mp hx ho).trans ?_
  rw [hi]
  exact if_pos hc

variable (hc : u.cqFull q = false)
include hc

theorem recordWrite_lost (hl : ¬(ok = true ∧ u.pcie.link = true)) :
    s.recordWrite q ok = ((u.ringStop (q - 8) 0).count (Reg.cmCnt 8) 1).dropRecord r := by
  have hl : (!ok || !u.pcie.link) = true := by
    rw [← Bool.not_and, Bool.not_eq_true', Bool.eq_false_iff, ne_eq, Bool.and_eq_true]
    exact hl
  obtain ⟨ci, rfl⟩ := Option.ne_none_iff_exists'.mp ha
  unfold State.recordWrite
  rw [hf]
  dsimp only
  rw [if_neg (Nat.not_lt.mpr hq)]
  refine (if_neg fun hx => (ringOpen_test (fun _ _ => rfl) fun _ => rfl).mp hx ho).trans ?_
  rw [hi]
  dsimp only
  rw [if_neg (by rw [hc]; decide)]
  exact if_pos hl

/-- The slot of a host ring's completion queue that CQ_PI names. -/
def State.cqSlot (s u : State) (n : Nat) : Nat :=
  u.rdPair (Reg.cmHringCqbaseLo n) (Reg.cmHringCqbaseHi n) + (s.ringAt n).cqPi % ringSize (s.rdF (Reg.cmHringCfg n) 19 16) * 16

theorem recordWrite_writes (hok : ok = true) (hl : u.pcie.link = true) :
    s.recordWrite q ok = (((((u.post1 (s.cqSlot u (q - 8)) r.bytes).setRing (q - 8)
      { s.ringAt (q - 8) with cqPi := ((s.ringAt (q - 8)).cqPi + 1) % 65536 }).ringShadow (q - 8)).vector (66 + (q - 8))).dropRecord r) := by
  obtain ⟨ci, rfl⟩ := Option.ne_none_iff_exists'.mp ha
  unfold State.recordWrite
  rw [hf]
  dsimp only
  rw [if_neg (Nat.not_lt.mpr hq)]
  refine (if_neg fun hx => (ringOpen_test (fun _ _ => rfl) fun _ => rfl).mp hx ho).trans ?_
  rw [hi]
  dsimp only
  rw [if_neg (by rw [hc]; decide), if_neg (by rw [hok, hl]; decide)]
  rfl

end
end

/-! ### The rows as commands -/

section
variable {s t : State} {h sl q v : Nat} {ok : Bool} (hu : s.pwr.up = true)
include hu

theorem hostRingSqPiWrite_does (hh : h < 64) (hv : v < 65536) (ht : (begin s).sqPiWrite h v = t) :
    exec (.hostRingSqPiWrite h v) s = .next (after s t) :=
  pcmd_does (f := fun s => s.sqPiWrite h v) (Bool.and_eq_true_iff.mpr ⟨decide_eq_true hh, decide_eq_true hv⟩) hu ht

theorem hostRingEntry_does (hh : h < 64) (hsl : sl < 131072) (ht : (begin s).hostRingEntry h ok sl = t) :
    exec (.hostRingEntry h ok sl) s = .next (after s t) :=
  pcmd_does (f := fun s => s.hostRingEntry h ok sl) (Bool.and_eq_true_iff.mpr ⟨decide_eq_true hh, decide_eq_true hsl⟩) hu ht

theorem hostRingPost_does (hh : h < 64) (ht : (begin s).hostRingPost h = t) : exec (.hostRingPost h) s = .next (after s t) :=
  pcmd_does (f := fun s => s.hostRingPost h) (decide_eq_true hh) hu ht

theorem completionRecordWrite_does (hq : q < 72) (ht : (begin s).recordWrite q ok = t) : exec (.completionRecordWrite q ok) s = .next (after s t) :=
  pcmd_does (f := fun s => s.recordWrite q ok) (decide_eq_true hq) hu ht

end

/-- Settles O40: a doorbell is one host write of cellar memory; an entry is read once and then taken or not; a record is written,
held or discarded by the room of its queue. -/
theorem hostRings : Obligations.HostRings := by
  intro h sl s hh hsl hu b x sq at_ stands
  refine ⟨fun v hv => ?_, fun w v u hi => ⟨sqPiSeen_known hi, sqPiSeen_overrun hi⟩, fun hs => ?_, fun hs r u hr => ?_, fun q ok hq => ?_⟩
  · have row : ∀ {t}, b.sqPiWrite h v = t → exec (.hostRingSqPiWrite h v) s = .next (after s t) := hostRingSqPiWrite_does hu hh hv
    refine ⟨fun hs => row (sqPiWrite_lost hs), fun he hl hd => ⟨fun hg hdbg => ?_, fun hg r u hw => ⟨fun hr => ?_, fun hr => ?_⟩⟩⟩
    · exact row (sqPiWrite_refused he hl hd hg hdbg)
    · exact row (sqPiWrite_lands he hl hd hg (hr ▸ hw))
    · exact row (sqPiWrite_fails he hl hd hg hw hr)
  · exact ⟨fun ok => hostRingEntry_does hu hh hsl (hostRingEntry_none (ringEntry_stands hs)),
      hostRingPost_does hu hh (hostRingPost_none (ringEntry_stands hs))⟩
  · have entry : ∀ {ok t}, b.hostRingEntry h ok sl = t → exec (.hostRingEntry h ok sl) s = .next (after s t) := hostRingEntry_does hu hh hsl
    have post : ∀ {t}, b.hostRingPost h = t → exec (.hostRingPost h) s = .next (after s t) := hostRingPost_does hu hh
    refine ⟨fun hn => ⟨fun ok => entry (hostRingEntry_none (ringEntry_unread hs hr hn)), post (hostRingPost_none (ringEntry_unread hs hr hn))⟩,
      fun bs hbs => ?_⟩
    subst hbs
    have he := ringEntry_read hs hr
    exact ⟨entry (hostRingEntry_none (ringEntry_uncorrectable hs hr)), fun hc => post (hostRingPost_other he hc),
      fun hc => entry (hostRingEntry_takes he hc), fun hc => entry (hostRingEntry_post he hc),
      fun hc hb hp => post (hostRingPost_posts he hc hb hp), fun hc hb hp => post (hostRingPost_reserved he hc hb hp),
      fun hc hb => post (hostRingPost_disabled he hc hb)⟩
  · intro gives found n open_
    have row : ∀ {t}, b.recordWrite q ok = t → gives t := completionRecordWrite_does hu hq
    refine ⟨fun hf => row (recordWrite_none hf), fun r hf hlt => ?_, fun r hf hle ho => row (recordWrite_closed hf hle ho),
      fun r a u hf hle ho hi => ?_⟩
    · intro pi size full
      refine ⟨fun hc => row (recordWrite_fcq_full hf hlt ((fcqFull_iff hlt).mpr hc)), fun hc a u hw => ?_⟩
      have hc : b.cqFull q = false := Bool.eq_false_iff.mpr fun hx => hc ((fcqFull_iff hlt).mp hx)
      exact ⟨fun ha => row (recordWrite_fcq_writes hf hlt hc hw ha), fun ha => row (recordWrite_fcq_fails hf hlt hc hw ha)⟩
    · exact ⟨fun ha => row (recordWrite_unread hf hle ho hi ha), fun ha hc => row (recordWrite_full hf hle ho hi ha hc),
        fun ha hc hl => row (recordWrite_lost hf hle ho hi ha hc hl), fun ha hc hok hl => row (recordWrite_writes hf hle ho hi ha hc hok hl)⟩

end Sys2Proof.Machine
end

section
/-! The acknowledgement of a core's write buffer, case by case (R12, R142, R143). -/

namespace Sys2Proof.Machine

/-! ### The writes of an entry -/

section
variable {w u : State} {c k a p n : Nat} {bs : List Byte} {more : List (Nat × List Byte)} {bad : Option (Nat × Nat)}

theorem wbWrites_ok (h : w.devWrite (.dsp c k) a bs = (.ok, u)) : w.wbWrites c k ((a, bs) :: more) bad = u.wbWrites c k more bad := by
  rw [State.wbWrites, h]

theorem wbWrites_err (h : w.devWrite (.dsp c k) a bs = (.err n, u)) :
    w.wbWrites c k ((a, bs) :: more) bad = u.wbWrites c k more (bad <|> some (a, bs.length)) := by
  rw [State.wbWrites, h]

theorem wbWrites_ue (h : w.devWrite (.dsp c k) a bs = (.ue p, u)) :
    w.wbWrites c k ((a, bs) :: more) bad = u.wbWrites c k more (bad <|> some (p, unitBytes p)) := by
  rw [State.wbWrites, h]

end

/-! ### A buffered store that failed (R142) -/

section
variable {w : State} {c k : Nat} {st : Nat × Nat}

/-- A core whose DEFERRED fault comes at the next boundary: it runs, its task's DONE not draining, or is halted. -/
def CoreState.defers (y : CoreState) : Prop := (y.st = .running ∧ ∀ us, y.freeze ≠ .drainDone us) ∨ y.st = .halted

/-- Beside a task whose DONE drains, the first failed store of a core that runs or is halted is kept. -/
theorem wbFailed_of_defers (h : (w.core c k).defers) :
    w.wbFailed c k st = if (w.core c k).wbPend.isSome then w else w.setCore c k { w.core c k with wbPend := some st } := by
  unfold State.wbFailed
  dsimp only
  rcases h with ⟨hr, hd⟩ | hh
  · rw [hr]
    generalize hf : (w.core c k).freeze = fr at hd
    cases fr with
    | drainDone us => exact absurd rfl (hd us)
    | _ => rfl
  · rw [hh]

theorem wbFailed_first (h : (w.core c k).defers) (hp : (w.core c k).wbPend = none) :
    w.wbFailed c k st = w.setCore c k { w.core c k with wbPend := some st } := by
  rw [wbFailed_of_defers h, hp]
  rfl

theorem wbFailed_later (h : (w.core c k).defers) (hp : (w.core c k).wbPend ≠ none) : w.wbFailed c k st = w :=
  (wbFailed_of_defers h).trans (if_pos (Option.isSome_iff_ne_none.mpr hp))

theorem wbFailed_stopped (hr : (w.core c k).st ≠ .running) (hh : (w.core c k).st ≠ .halted) : w.wbFailed c k st = w := by
  unfold State.wbFailed
  dsimp only
  generalize (w.core c k).st = y at hr hh
  cases y with
  | running => exact absurd rfl hr
  | halted => exact absurd rfl hh
  | _ => rfl

/-- The fault of a failed store in its record, where DONE drains. -/
def State.drainFault (w : State) (c k : Nat) (st : Nat × Nat) : State :=
  (w.free 6).2.fltRecord c k { kind := 6, slot := (w.free 6).1, addr := st.1, esz := st.2, write := true, deferred := true }

/-- The task that a fault ends while its DONE drains has its commit now. -/
def State.drainCommit (u : State) (slot : Nat) : State :=
  if ((u.task? slot).any fun t => t.st == TaskSt.ending) = true then u.commitRunning slot 1 2 6 else u

theorem wbFailed_draining {us : Nat} (hr : (w.core c k).st = .running) (hf : (w.core c k).freeze = .drainDone us) :
    w.wbFailed c k st = (((w.drainFault c k st).drainCommit (w.core c k).slot).setCore c k
      { ((w.drainFault c k st).drainCommit (w.core c k).slot).core c k with st := .stopping, freeze := .none }) := by
  unfold State.wbFailed
  dsimp only
  rw [hr, hf]
  rfl

end

/-! ### The acknowledgement -/

section
variable {s u : State} {c k : Nat} {ok : Bool}

theorem wbAck_empty (h : (s.core c k).wb = []) : s.wbAck c k ok = s := by
  unfold State.wbAck
  dsimp only
  rw [h]

variable {e : WbEntry} {rest : List WbEntry} (h : (s.core c k).wb = e :: rest)
include h

theorem wbAck_waits (hw : ∃ r ∈ byteRuns e.bytes, s.dramWaits true r.1 r.2.length = true) : s.wbAck c k ok = s := by
  unfold State.wbAck
  dsimp only
  rw [h]
  exact if_pos (List.any_eq_true.mpr hw)

variable (hw : ¬∃ r ∈ byteRuns e.bytes, s.dramWaits true r.1 r.2.length = true)
include hw

theorem wbAck_writes (hs : (s.setCore c k { s.core c k with wb := rest }).wbWrites c k (byteRuns e.bytes) none = (none, u)) :
    s.wbAck c k true = u.wbEased c k := by
  unfold State.wbAck
  dsimp only
  rw [h]
  refine (if_neg fun hx => hw (List.any_eq_true.mp hx)).trans ?_
  rw [if_pos rfl, hs]

theorem wbAck_fails {q : Nat × Nat} (hs : (s.setCore c k { s.core c k with wb := rest }).wbWrites c k (byteRuns e.bytes) none = (some q, u)) :
    s.wbAck c k true = (u.wbFailed c k (e.failedStore q)).wbEased c k := by
  unfold State.wbAck
  dsimp only
  rw [h]
  refine (if_neg fun hx => hw (List.any_eq_true.mp hx)).trans ?_
  rw [if_pos rfl, hs]

theorem wbAck_refused : s.wbAck c k false =
    (((s.setCore c k { s.core c k with wb := rest }).wbFailed c k (e.failedStore (e.block * 128, 128))).wbEased c k) := by
  unfold State.wbAck
  dsimp only
  rw [h]
  refine (if_neg fun hx => hw (List.any_eq_true.mp hx)).trans ?_
  rw [if_neg (by decide)]

end

theorem writeBufferAck_does {s t : State} {c k : Nat} {ok : Bool} (hc : c < 12) (hk : k < 8) (hu : s.pwr.up = true)
    (ht : (begin s).wbAck c k ok = t) : exec (.writeBufferAck c k ok) s = .next { t with pending := s.pending } :=
  otpCmd_does (f := fun s => s.wbAck c k ok) (Bool.and_eq_true_iff.mpr ⟨decide_eq_true hc, decide_eq_true hk⟩) hu ht

/-- Settles O43: an acknowledgement performs the oldest entry's writes unless one of them waits, and a failed write becomes the
core's DEFERRED fault. -/
theorem pozelStores : Obligations.PozelStores := by
  intro c k ok s hc hk hu b x gives
  have row : ∀ {t}, b.wbAck c k ok = t → gives t := writeBufferAck_does hc hk hu
  refine ⟨fun he => row (wbAck_empty he), fun e rest he => ?_, fun w u a bs more bad => ?_, fun w st => ?_⟩
  · intro waits r
    refine ⟨fun hw => row (wbAck_waits he hw), fun hw hok u hs => row ?_, fun q hw hok u hs => row ?_, fun hw hok => row ?_⟩
    · rw [hok]
      exact wbAck_writes he hw hs
    · rw [hok]
      exact wbAck_fails he hw hs
    · rw [hok]
      exact wbAck_refused he hw
  · exact ⟨rfl, wbWrites_ok, fun _ => wbWrites_err, fun _ => wbWrites_ue⟩
  · intro y live
    exact ⟨wbFailed_first, wbFailed_later, fun us hr hf => wbFailed_draining hr hf, wbFailed_stopped⟩

end Sys2Proof.Machine
end

section
/-! Automatic SLEEP, the resets of units, clusters and the payload, and the events of its clock, supply and temperature, case by
case (R14, R450, R451, R465 to R468, R524, R525, R532). -/

namespace Sys2Proof.Machine

/-! ### SLEEP of clusters and engines (R423, R450, R451) -/

section
variable {s : State} {c e : Nat}

/-- The conditions of `clusterMaySleep`. -/
theorem clusterMaySleep_iff : s.clusterMaySleep c = true ↔
    s.rdB Reg.rsvHctrl 0 = false ∧ s.rsv.active.contains c = false ∧ s.fifosEmpty c = true ∧ s.rdB (Reg.pwrCl c) 31 = false ∧
      s.rdF (Reg.pwrCl c) 3 0 = 0 ∧ ∀ k, k < 8 → s.coreIn c k = true → (s.core c k).st = .waiting := by
  have hcores : ((List.range 8).all fun k => !s.coreIn c k || (s.core c k).st == .waiting) = true ↔
      ∀ k, k < 8 → s.coreIn c k = true → (s.core c k).st = .waiting := by
    rw [List.all_eq_true]
    refine forall_congr' fun k => imp_congr List.mem_range ?_
    cases s.coreIn c k <;> simp
  unfold State.clusterMaySleep
  rw [Bool.and_eq_true, hcores]
  simp only [Bool.and_eq_true, Bool.not_eq_true', decide_eq_true_eq, and_assoc]

theorem wakeCluster_wakes (h : s.rdF (Reg.pwrCl c) 3 0 = 2) :
    s.wakeCluster c = ((s.wrF (Reg.pwrCl c) 3 0 0).wrF (Reg.rsvLoad c) 31 31 1).tally 1 c 3 1 := if_pos h

theorem wakeCluster_awake (h : s.rdF (Reg.pwrCl c) 3 0 ≠ 2) : s.wakeCluster c = s := if_neg h

/-- Nothing of an NFE is running: the condition under which it enters SLEEP. -/
def State.nfeRests (s : State) (n : Nat) : Prop :=
  ((s.nfeAt n).st = .idle ∨ (s.nfeAt n).st = .running) ∧ s.rdB (Reg.nfeCtrl n) 0 = false ∧ (s.nfeAt n).ctx.all (fun c => c.2.isNone) = true

theorem engineSleep_held (h : s.rdF Reg.pwrEsleep 15 0 = 0 ∨ s.rdB (Reg.pwrEng e) 31 = true) : s.engineSleep e = s :=
  if_pos (Bool.or_eq_true_iff.mpr (h.imp_left decide_eq_true))

section
variable (h : ¬(s.rdF Reg.pwrEsleep 15 0 = 0 ∨ s.rdB (Reg.pwrEng e) 31 = true))
include h

/-- Where neither ESLEEP nor HOLD keeps an engine awake, its own state decides. -/
theorem not_sleepHeld : ¬(decide (s.rdF Reg.pwrEsleep 15 0 = 0) || s.rdB (Reg.pwrEng e) 31) = true :=
  fun hx => h ((Bool.or_eq_true_iff.mp hx).imp_left of_decide_eq_true)

theorem engineSleep_idle (he : e < 76) (hi : (s.engAt e).st = .idle) :
    s.engineSleep e = ((s.setEng e { s.engAt e with st := .sleep }).wrF (Reg.pwrEng e) 3 0 2).sleepTaken (12 + e) 2 e 1 :=
  (if_neg (not_sleepHeld h)).trans ((if_pos he).trans (if_pos hi))

theorem engineSleep_busy (he : e < 76) (hi : (s.engAt e).st ≠ .idle) : s.engineSleep e = s :=
  (if_neg (not_sleepHeld h)).trans ((if_pos he).trans (if_neg hi))

variable (he : 76 ≤ e)
include he

theorem engineSleep_nfe (hi : s.nfeRests (e - 76)) :
    s.engineSleep e = ((s.setNfe (e - 76) { s.nfeAt (e - 76) with st := .sleep }).wrF (Reg.pwrEng e) 3 0 2).sleepTaken (12 + e) 2 e 1 := by
  obtain ⟨hst, hrx, hctx⟩ := hi
  exact (if_neg (not_sleepHeld h)).trans ((if_neg (Nat.not_lt.mpr he)).trans (if_pos ⟨hst, by rw [hrx]; rfl, hctx⟩))

theorem engineSleep_nfeBusy (hi : ¬s.nfeRests (e - 76)) : s.engineSleep e = s :=
  (if_neg (not_sleepHeld h)).trans ((if_neg (Nat.not_lt.mpr he)).trans
    (if_neg fun ⟨hst, hrx, hctx⟩ => hi ⟨hst, by simpa using hrx, hctx⟩))

end

theorem engineWake_wakes (he : e < 76) (h : (s.engAt e).st = .sleep) :
    s.engineWake e = (s.setEng e { s.engAt e with st := .idle }).wrF (Reg.pwrEng e) 3 0 1 := (if_pos he).trans (if_pos h)

theorem engineWake_awake (he : e < 76) (h : (s.engAt e).st ≠ .sleep) : s.engineWake e = s := (if_pos he).trans (if_neg h)

theorem engineWake_nfeWakes (he : 76 ≤ e) (h : (s.nfeAt (e - 76)).st = .sleep) : s.engineWake e =
    (s.setNfe (e - 76) { s.nfeAt (e - 76) with st := if (s.nfeAt (e - 76)).plan.isEmpty then .idle else .running }).wrF (Reg.pwrEng e) 3 0 1 :=
  (if_neg (Nat.not_lt.mpr he)).trans (if_pos h)

theorem engineWake_nfeAwake (he : 76 ≤ e) (h : (s.nfeAt (e - 76)).st ≠ .sleep) : s.engineWake e = s :=
  (if_neg (Nat.not_lt.mpr he)).trans (if_neg h)

theorem sleepTaken_asked {key scope unit old : Nat} (h : s.pwr.asked.contains key = true) :
    s.sleepTaken key scope unit old = (s.unaskSleep key).pwrNotice scope unit old 2 := if_pos h

theorem sleepTaken_unasked {key scope unit old : Nat} (h : s.pwr.asked.contains key = false) : s.sleepTaken key scope unit old = s :=
  if_neg (by rw [h]; decide)

end

/-! ### The resets of units and clusters (R467, R468) -/

section
variable {w : State} {c k e : Nat}

/-- `PWR.RST` as a write with GO leaves it: KIND, UNIT and BUSY as it was. -/
def State.rstShown (s : State) (kind unit : Nat) : State :=
  s.wr Reg.pwrRst (bn (s.rdB Reg.pwrRst 30) * 2 ^ 30 + kind * 2 ^ 24 + unit)

theorem rstGo_busy {kind unit : Nat} {act : State → State} (h : w.rdB Reg.pwrRst 30 = true) :
    w.rstGo kind unit act = w.rstShown kind unit := if_pos h

theorem rstGo_free {kind unit : Nat} {act : State → State} (h : w.rdB Reg.pwrRst 30 = false) :
    w.rstGo kind unit act = (act (w.rstShown kind unit)).emit (.reset kind unit) := if_neg (by rw [h]; decide)

theorem dropCoreTask_idle (h : (w.withdraw (.core c k)).taskOn (.core c k) = none) : w.dropCoreTask c k = w.withdraw (.core c k) := by
  unfold State.dropCoreTask
  dsimp only
  rw [h]

theorem dropCoreTask_running {sl : Nat} (h : (w.withdraw (.core c k)).taskOn (.core c k) = some sl) : w.dropCoreTask c k =
    (((w.withdraw (.core c k)).setCore c k { (w.withdraw (.core c k)).core c k with st := .clearing }).faultTask (.core c k) sl 0x20).2 := by
  unfold State.dropCoreTask
  dsimp only
  rw [h]

theorem resetCore_out (h : w.coreIn c k = false) : w.resetCore c k = w := if_pos (by rw [h]; rfl)

theorem resetCore_in (h : w.coreIn c k = true) : w.resetCore c k =
    (((w.dropCoreTask c k).clearCore c k).setCore c k { ((w.dropCoreTask c k).clearCore c k).core c k with pm := [] }).wrF Reg.pwrRst 30 30 1 :=
  if_neg (by rw [h]; decide)

theorem resetEngine_out (h : w.engIn e = false) : w.resetEngine e = w := if_pos (by rw [h]; rfl)

section
variable (h : w.engIn e = true)
include h

theorem not_engOut : ¬(!w.engIn e) = true := by
  rw [h]
  decide

section
variable (he : e < 76)
include he

theorem resetEngine_isolated (hs : (w.engAt e).st = .isolated ∨ (w.engAt e).st = .off) : w.resetEngine e = w :=
  (if_neg (not_engOut h)).trans ((if_pos he).trans (if_pos hs))

variable (hi : (w.engAt e).st ≠ .isolated) (ho : (w.engAt e).st ≠ .off)
include hi ho

theorem resetEngine_idle (ht : ((w.withdraw (.engine e)).setEng e .reset).taskOn (.engine e) = none) :
    w.resetEngine e = (w.withdraw (.engine e)).setEng e .reset := by
  unfold State.resetEngine
  dsimp only
  rw [if_neg (not_engOut h), if_pos he, if_neg (not_or_intro hi ho), ht]

theorem resetEngine_running {sl : Nat} (ht : ((w.withdraw (.engine e)).setEng e .reset).taskOn (.engine e) = some sl) :
    w.resetEngine e = (((w.withdraw (.engine e)).setEng e .reset).faultTask (.engine e) sl 0x20).2 := by
  unfold State.resetEngine
  dsimp only
  rw [if_neg (not_engOut h), if_pos he, if_neg (not_or_intro hi ho), ht]

end

section
variable (he : 76 ≤ e)
include he

theorem resetEngine_nfeIsolated (hs : (w.nfeAt (e - 76)).st = .isolated ∨ (w.nfeAt (e - 76)).st = .off) : w.resetEngine e = w :=
  (if_neg (not_engOut h)).trans ((if_neg (Nat.not_lt.mpr he)).trans (if_pos hs))

/-- The contexts of an NFE in use, with the slots of the tasks that use them. -/
def NfeState.slots (f : NfeState) : List (Nat × Nat) := f.ctx.filterMap fun c => c.2.map fun b => (c.1, b.slot)

theorem resetEngine_nfe (hi : (w.nfeAt (e - 76)).st ≠ .isolated) (ho : (w.nfeAt (e - 76)).st ≠ .off) :
    ∀ v, v = (w.nfeAt (e - 76)).slots.foldl (fun s c => s.withdraw (.burst (e - 76) c.1)) w →
    w.resetEngine e = (w.nfeAt (e - 76)).slots.foldl (fun s c => (s.faultTask (.burst (e - 76) c.1) c.2 0x20).2)
      (v.setNfe (e - 76) { w.nfeAt (e - 76) with st := .idle, plan := [], ctx := [], chans := [], done := [], rxdRes := v.rd (Reg.nfeRxdPi (e - 76)) }) := by
  rintro v rfl
  exact (if_neg (not_engOut h)).trans ((if_neg (Nat.not_lt.mpr he)).trans (if_neg (not_or_intro hi ho)))

end
end
end

/-! ### The payload's resets and events (R465, R466, R524, R525, R532) -/

section
variable {w : State}

theorem resetPayload_warm : w.resetPayload .warm =
    let y := w.lastFrame.saveMap
    let x : State := { y with nw := { y.nw with flops := y.fw.resident, flopCrc := crc32 y.fw.resident, vretLow := false } }
    let d := x.payloadDown.wr Reg.nwbCtrl 0
    ({ d with nw := { d.nw with kind := .warm, stage := 3, rstReq := true, wsrc := 0, offReq := false } } : State).toPstate .waking := by
  unfold State.resetPayload
  rw [if_pos rfl]

theorem resetPayload_other {kind : WakeKind} (h : kind ≠ .warm) : w.resetPayload kind =
    let x : State := { w with pwr := { w.pwr with accounted := false } }
    let d := x.payloadDown.wr Reg.nwbCtrl 0
    ({ d with nw := { d.nw with kind := kind, stage := 3, rstReq := true, wsrc := 0, offReq := false } } : State).toPstate .waking := by
  unfold State.resetPayload
  rw [if_neg h]

theorem setAlive_falls {v : Bool} {cause : Nat} (hw : w.rdB Reg.nwbCtrl 0 = true) (hv : v = false) (hr : w.nw.pstate = .run) :
    w.setAlive v cause = (w.wrF Reg.nwbCtrl 0 0 (bn v)).nwFault 6 cause := by
  refine if_pos ?_
  rw [hw, hv, Bool.true_and, Bool.not_false, Bool.true_and]
  exact beq_iff_eq.mpr hr

theorem setAlive_else {v : Bool} {cause : Nat} (h : w.rdB Reg.nwbCtrl 0 = false ∨ v = true ∨ w.nw.pstate ≠ .run) :
    w.setAlive v cause = w.wrF Reg.nwbCtrl 0 0 (bn v) := by
  refine if_neg fun hx => ?_
  rw [Bool.and_eq_true, Bool.and_eq_true, Bool.not_eq_true'] at hx
  obtain ⟨⟨hw, hv⟩, hr⟩ := hx
  rcases h with h | h | h
  · exact Bool.noConfusion (hw.symm.trans h)
  · exact Bool.noConfusion (hv.symm.trans h)
  · exact h (beq_iff_eq.mp hr)

theorem throttles_iff {t : Int} : w.throttles t = true ↔ 216 ≤ t ∨ (w.rdB Reg.sysTemp 31 = true ∧ 210 < t) := by
  unfold State.throttles
  simp only [Bool.or_eq_true, Bool.and_eq_true, decide_eq_true_eq]

section
variable {temps : List Int} {i : Nat} {t : Int} (h : hottest (temps.take 24) = (i, t))
include h

theorem tempSample_hot (hh : w.throttles t = true) :
    w.tempSample temps = (w.showTemps (temps.take 24) i t).awake.foldl (fun s c => s.throttle c) (w.showTemps (temps.take 24) i t) := by
  unfold State.tempSample
  rw [h]
  exact if_pos hh

variable (hh : ¬w.throttles t = true)
include hh

theorem tempSample_cool (ht : t ≤ 200) :
    w.tempSample temps = { w.showTemps (temps.take 24) i t with pwr := { (w.showTemps (temps.take 24) i t).pwr with cooling := [] } } := by
  unfold State.tempSample
  rw [h]
  exact (if_neg hh).trans (if_pos ht)

theorem tempSample_warm (ht : 200 < t) : w.tempSample temps = w.showTemps (temps.take 24) i t := by
  unfold State.tempSample
  rw [h]
  exact (if_neg hh).trans (if_neg (Int.not_le.mpr ht))

end
end

/-! ### The rows as commands -/

/-- REFCLK_A gone: the main PLL, where it runs, takes REFCLK_B. -/
def State.refALost (s : State) : State := { s with pwr := { s.pwr with refA := false, refb := s.pwr.refb || s.pllRuns } }

theorem refclkALoss_does (s : State) : exec .refclkALoss s = .next (after s (begin s).refALost) := cmd_next rfl s State.refALost

section
variable {s : State} (hu : s.pwr.up = true)
include hu

/-- A write of `PWR.RST` with GO as a command. -/
theorem rstGo_does {ok : Bool} (hok : ok = true) (kind unit : Nat) (act : State → State) :
    ((begin s).rdB Reg.pwrRst 30 = true → pcmd ok s (fun s => s.rstGo kind unit act) = .next (after s ((begin s).rstShown kind unit))) ∧
    ((begin s).rdB Reg.pwrRst 30 = false →
      pcmd ok s (fun s => s.rstGo kind unit act) = .next (after s ((act ((begin s).rstShown kind unit)).emit (.reset kind unit)))) :=
  ⟨fun h => pcmd_does (f := fun s => s.rstGo kind unit act) hok hu (rstGo_busy h),
    fun h => pcmd_does (f := fun s => s.rstGo kind unit act) hok hu (rstGo_free h)⟩

theorem pwrRstCold_elsewhere {i : Nat} (hi : i < 4) (h : (begin s).nw.pstate ≠ .run) : exec (.pwrRstCold i) s = .next (after s (begin s)) :=
  pcmd_does (f := fun s => if s.nw.pstate ≠ .run then s else s.rstGo 1 0 fun s => s.resetPayload .cold) (decide_eq_true hi) hu (if_pos h)

theorem pwrRstWarm_elsewhere {i : Nat} (hi : i < 4) (h : (begin s).nw.pstate ≠ .run) : exec (.pwrRstWarm i) s = .next (after s (begin s)) :=
  pcmd_does (f := fun s => if s.nw.pstate ≠ .run then s else s.rstGo 2 0 fun s => s.resetPayload .warm) (decide_eq_true hi) hu (if_pos h)

variable {t : State}

theorem pwrRstCold_does {i : Nat} (hi : i < 4) (h : (begin s).nw.pstate = .run) (ht : ((begin s).rstGo 1 0 fun s => s.resetPayload .cold) = t) :
    exec (.pwrRstCold i) s = .next (after s t) :=
  pcmd_does (f := fun s => if s.nw.pstate ≠ .run then s else s.rstGo 1 0 fun s => s.resetPayload .cold) (decide_eq_true hi) hu
    ((if_neg (not_not.mpr h)).trans ht)

theorem pwrRstWarm_does {i : Nat} (hi : i < 4) (h : (begin s).nw.pstate = .run) (ht : ((begin s).rstGo 2 0 fun s => s.resetPayload .warm) = t) :
    exec (.pwrRstWarm i) s = .next (after s t) :=
  pcmd_does (f := fun s => if s.nw.pstate ≠ .run then s else s.rstGo 2 0 fun s => s.resetPayload .warm) (decide_eq_true hi) hu
    ((if_neg (not_not.mpr h)).trans ht)

theorem clusterSleepEnter_does {c : Nat} (hc : c < 12) :
    ((begin s).clusterMaySleep c = true → exec (.clusterSleepEnter c) s = .next (after s (((begin s).clusterDown c).sleepTaken c 1 c 0))) ∧
    (¬(begin s).clusterMaySleep c = true → exec (.clusterSleepEnter c) s = .next (after s (begin s))) :=
  have row : ∀ {t}, (if (begin s).clusterMaySleep c then ((begin s).clusterDown c).sleepTaken c 1 c 0 else begin s) = t →
      exec (.clusterSleepEnter c) s = .next (after s t) :=
    fun ht => pcmd_does (f := fun s => if s.clusterMaySleep c then (s.clusterDown c).sleepTaken c 1 c 0 else s) (decide_eq_true hc) hu ht
  ⟨fun h => row (if_pos h), fun h => row (if_neg h)⟩

theorem clusterWake_does {c : Nat} (hc : c < 12) (ht : (begin s).wakeCluster c = t) : exec (.clusterWake c) s = .next (after s t) :=
  pcmd_does (f := fun s => s.wakeCluster c) (decide_eq_true hc) hu ht

theorem engineSleepEnter_does {e : Nat} (he : e < 80) (ht : (begin s).engineSleep e = t) : exec (.engineSleepEnter e) s = .next (after s t) :=
  pcmd_does (f := fun s => s.engineSleep e) (decide_eq_true he) hu ht

theorem engineWake_does {e : Nat} (he : e < 80) (ht : (begin s).engineWake e = t) : exec (.engineWake e) s = .next (after s t) :=
  pcmd_does (f := fun s => s.engineWake e) (decide_eq_true he) hu ht

theorem avsNoAck_does (second : Bool) (ht : (begin s).avsNoAck second = t) : exec (.avsNoAck second) s = .next (after s t) :=
  pcmd_does (f := fun s => s.avsNoAck second) rfl hu ht

theorem tempSample_does (temps : List Int) (ht : (begin s).tempSample temps = t) : exec (.tempSample temps) s = .next (after s t) :=
  pcmd_does (f := fun s => s.tempSample temps) rfl hu ht

end

/-- Settles O57: each row is one operation on the state, whose cases the lemmas above give. -/
theorem sleepAndResets : Obligations.SleepAndResets := by
  intro s b
  refine ⟨refclkALoss_does s, fun hu => ⟨fun c hc => ?_, fun e he => ?_, ?_, ?_, ?_, ?_, ?_, ?_⟩, fun w c => rfl, fun w c k x => ?_, fun w c x y => ?_,
    fun w e => ?_, fun w kind x => ?_, fun w v cause => ⟨setAlive_falls, setAlive_else⟩, fun w key scope unit old => ⟨sleepTaken_asked, sleepTaken_unasked⟩⟩
  · have ⟨henter, hstay⟩ := clusterSleepEnter_does hu hc
    exact ⟨fun h => henter (clusterMaySleep_iff.mpr h), fun h => hstay fun hx => h (clusterMaySleep_iff.mp hx),
      fun h => clusterWake_does hu hc (wakeCluster_wakes h), fun h => clusterWake_does hu hc (wakeCluster_awake h)⟩
  · have enter : ∀ {t}, b.engineSleep e = t → exec (.engineSleepEnter e) s = .next (after s t) := engineSleepEnter_does hu he
    have wake : ∀ {t}, b.engineWake e = t → exec (.engineWake e) s = .next (after s t) := engineWake_does hu he
    exact ⟨fun h => enter (engineSleep_held h),
      fun h hlt => ⟨fun hi => enter (engineSleep_idle h hlt hi), fun hi => enter (engineSleep_busy h hlt hi)⟩,
      fun h hle => ⟨fun hi => enter (engineSleep_nfe h hle hi), fun hi => enter (engineSleep_nfeBusy h hle hi)⟩,
      fun hlt => ⟨fun hi => wake (engineWake_wakes hlt hi), fun hi => wake (engineWake_awake hlt hi)⟩,
      fun hle => ⟨fun hi => wake (engineWake_nfeWakes hle hi), fun hi => wake (engineWake_nfeAwake hle hi)⟩⟩
  · refine ⟨fun i c hi hc => rstGo_does hu ?_ 3 c _, fun i c k hi hc hk => rstGo_does hu ?_ 4 (c * 8 + k) _, fun i e hi he => rstGo_does hu ?_ 5 e _,
      fun i hi hr => ⟨⟨fun h => pwrRstCold_does hu hi hr (rstGo_busy h), fun h => pwrRstCold_does hu hi hr (rstGo_free h)⟩,
        fun h => pwrRstWarm_does hu hi hr (rstGo_busy h), fun h => pwrRstWarm_does hu hi hr (rstGo_free h)⟩,
      fun i hi hr => ⟨pwrRstCold_elsewhere hu hi hr, pwrRstWarm_elsewhere hu hi hr⟩⟩
    · simp [hi, hc]
    · simp [hi, hc, hk]
    · simp [hi, he]
  · exact avsNoAck_does hu false rfl
  · exact avsNoAck_does hu true rfl
  · exact pcmd_does (f := fun s => s.selfReset 2) rfl hu rfl
  · exact pcmd_does (f := fun s => s.selfReset 3) rfl hu rfl
  · intro temps i t ht
    have row : ∀ {x}, b.tempSample temps = x → exec (.tempSample temps) s = .next (after s x) := tempSample_does hu temps
    exact ⟨throttles_iff, fun hh => row (tempSample_hot ht (throttles_iff.mpr hh)),
      fun hh hc => row (tempSample_cool ht (fun hx => hh (throttles_iff.mp hx)) hc),
      fun hh hc => row (tempSample_warm ht (fun hx => hh (throttles_iff.mp hx)) hc)⟩
  · rintro base rfl
    refine ⟨resetCore_out, resetCore_in, rfl, ?_⟩
    rintro u rfl
    exact ⟨dropCoreTask_idle, fun _ => dropCoreTask_running⟩
  · rintro rfl rfl busy
    exact ⟨fun h => if_pos h, fun h => if_neg (Bool.eq_false_iff.mp h)⟩
  · exact ⟨resetEngine_out, fun h he hs => resetEngine_isolated h he hs,
      fun h he hi ho => ⟨resetEngine_idle h he hi ho, fun _ => resetEngine_running h he hi ho⟩,
      fun h he hs => resetEngine_nfeIsolated h he hs, fun h he hi ho => resetEngine_nfe h he hi ho _ rfl⟩
  · intro y d hwarm hother
    by_cases hk : kind = .warm
    · subst hk
      obtain rfl := hwarm rfl
      exact resetPayload_warm
    · obtain rfl := hother hk
      exact resetPayload_other hk

end Sys2Proof.Machine
end

section
/-! Wake sources and stages, entry, the supplies and the barrier, case by case (R14, R454 to R463, R470, R473, R481, R485, R487,
R488). -/

namespace Sys2Proof.Machine

/-! ### A wake begins (R455, R457, R460) -/

section
variable {w : State} {n m : Nat}

/-- A wake source that starts a wake: a request of the shelf always, another source where it is enabled and armed. -/
def State.mayWake (w : State) (n : Nat) : Prop := n = 2 ∨ (w.nw.disarmed = false ∧ tb (w.nw.wakecfg.getD 0 0).toNat n = true)

/-- `source` tests the negation of `mayWake`. -/
theorem not_mayWake_iff : (n ≠ 2 ∧ (w.nw.disarmed = true ∨ (!tb (w.nw.wakecfg.getD 0 0).toNat n) = true)) ↔ ¬w.mayWake n := by
  simp only [State.mayWake, Bool.not_eq_true', not_or, Classical.not_and_iff_not_or_not, Bool.not_eq_true, Bool.not_eq_false, ne_eq]

theorem source_ignored (h : ¬w.mayWake n) : w.source n = w := if_pos (not_mayWake_iff.mpr h)

section
variable (h : w.mayWake n)
include h

theorem source_latched (he : w.nw.pstate = .entering) : w.source n = { w with nw := { w.nw with latched := w.nw.latched ||| 2 ^ n } } := by
  refine (if_neg fun hx => not_mayWake_iff.mp hx h).trans ?_
  rw [he]

theorem source_wakes (he : w.nw.pstate ≠ .entering) : w.source n = w.startWake (2 ^ n) := by
  refine (if_neg fun hx => not_mayWake_iff.mp hx h).trans ?_
  generalize w.nw.pstate = p at he
  cases p with
  | entering => exact absurd rfl he
  | _ => rfl

end

/-- The regulator stage of a wake of kind `k`, begun by the sources `m`. -/
def State.wakeStage1 (w : State) (m : Nat) (k : WakeKind) : State :=
  { w with nw := { w.nw with pstate := .waking, stage := 1, kind := k, tries := 1, wait := false, offReq := false, wsrc := m, latched := 0 } }

theorem startWake_off (h : w.nw.pstate = .off) : w.startWake m = (w.wakeStage1 m .fromOff).railsOn 0xFF := by
  unfold State.startWake
  rw [h]
  rfl

theorem startWake_deep (h : w.nw.pstate = .deep) : w.startWake m = (w.wakeStage1 m .fromDeep).railsOn 0x0F := by
  unfold State.startWake
  rw [h]
  rfl

theorem startWake_else (ho : w.nw.pstate ≠ .off) (hd : w.nw.pstate ≠ .deep) : w.startWake m = w :=
  if_pos (by rw [beq_false_of_ne ho, beq_false_of_ne hd]; rfl)

end

/-! ### The comparator and the timer (R457) -/

section
variable {w : State} {code : Nat} {past back : Bool}

/-- Byte `i` of the wake configuration. -/
def State.wakeByte (w : State) (i : Nat) : Nat := (w.nw.wakecfg.getD i 0).toNat

/-- The input is past the threshold, on the side that the configuration selects. -/
def State.wsPast (w : State) (code : Nat) : Bool :=
  if tb (w.wakeByte 2) 0 then decide (code < w.wakeByte 1) else decide (w.wakeByte 1 ≤ code)

/-- The input has returned past the threshold by the hysteresis. -/
def State.wsBack (w : State) (code : Nat) : Bool :=
  if tb (w.wakeByte 2) 0 then decide (w.wakeByte 1 + fld (w.wakeByte 2) 6 4 ≤ code) else decide (code + fld (w.wakeByte 2) 6 4 < w.wakeByte 1)

/-- The comparator's input and whether it is armed. -/
def State.wsSeen (w : State) (code : Nat) (a : Bool) : State := { w with nw := { w.nw with wsense := code, wsArmed := a } }

/-- What the two sides of the threshold mean, by the side that the configuration selects. -/
theorem wsPast_wsBack_eq
    (hb : tb (w.wakeByte 2) 0 = true → (past = true ↔ code < w.wakeByte 1) ∧ (back = true ↔ w.wakeByte 1 + fld (w.wakeByte 2) 6 4 ≤ code))
    (ha : tb (w.wakeByte 2) 0 = false → (past = true ↔ w.wakeByte 1 ≤ code) ∧ (back = true ↔ code + fld (w.wakeByte 2) 6 4 < w.wakeByte 1)) :
    w.wsPast code = past ∧ w.wsBack code = back := by
  unfold State.wsPast State.wsBack
  cases hside : tb (w.wakeByte 2) 0 with
  | true =>
    have ⟨hp, hk⟩ := hb hside
    exact ⟨Bool.eq_iff_iff.mpr (decide_eq_true_iff.trans hp.symm), Bool.eq_iff_iff.mpr (decide_eq_true_iff.trans hk.symm)⟩
  | false =>
    have ⟨hp, hk⟩ := ha hside
    exact ⟨Bool.eq_iff_iff.mpr (decide_eq_true_iff.trans hp.symm), Bool.eq_iff_iff.mpr (decide_eq_true_iff.trans hk.symm)⟩

/-- `wsenseTrip` by the two sides of the threshold. -/
theorem wsenseTrip_eq (hp : w.wsPast code = past) (hb : w.wsBack code = back) : w.wsenseTrip code =
    if w.nw.wsArmed && past then (w.wsSeen code ((w.nw.wsArmed && !past) || (!w.nw.wsArmed && back))).source 1
    else w.wsSeen code ((w.nw.wsArmed && !past) || (!w.nw.wsArmed && back)) := by
  subst hp hb
  rfl

section
variable (hp : w.wsPast code = past) (hb : w.wsBack code = back)
include hp hb

theorem wsenseTrip_fires (ha : w.nw.wsArmed = true) (h : past = true) : w.wsenseTrip code = (w.wsSeen code false).source 1 := by
  rw [wsenseTrip_eq hp hb, ha, h]
  rfl

theorem wsenseTrip_armed (ha : w.nw.wsArmed = true) (h : past = false) : w.wsenseTrip code = w.wsSeen code true := by
  rw [wsenseTrip_eq hp hb, ha, h]
  rfl

theorem wsenseTrip_rearms (ha : w.nw.wsArmed = false) : w.wsenseTrip code = w.wsSeen code back := by
  rw [wsenseTrip_eq hp hb, ha]
  rfl

end

theorem wakeTimer_fires {t : Nat} (h : w.nw.wakeTick = some t) :
    w.wakeTimer = ({ w with nw := { w.nw with wakeTick := none, ticks := max w.nw.ticks t } } : State).source 3 := by
  unfold State.wakeTimer
  rw [h]

theorem wakeTimer_unset (h : w.nw.wakeTick = none) : w.wakeTimer = w := by
  unfold State.wakeTimer
  rw [h]

end

/-! ### The stages of a wake (R460 to R462) -/

section
variable {w : State} {us d : Nat}

theorem boundary_off {f : State → State} (h : w.nw.offReq = true) : w.boundary f = (w.railsOff 0xFF).endOff false := if_pos h

theorem boundary_on {f : State → State} (h : w.nw.offReq = false) : w.boundary f = f w := if_neg (by rw [h]; decide)

theorem wakeReady_none (h : w.nw.stage = 0 ∨ 4 < w.nw.stage) : w.wakeReady us = w := by
  unfold State.wakeReady
  dsimp only
  split
  case h_5 => rfl
  all_goals omega

theorem stageTimeout_none (h : w.nw.stage = 0 ∨ 4 < w.nw.stage) : w.stageTimeout d = w := by
  unfold State.stageTimeout
  dsimp only
  split
  case h_5 => rfl
  all_goals omega

/-! The regulator stage. -/

section
variable (hs : w.nw.stage = 1)
include hs

theorem wakeReady_regulators_wait (h : w.nw.wait = true ∨ w.nw.link = false) : w.wakeReady us = w := by
  unfold State.wakeReady
  dsimp only
  rw [hs]
  exact if_pos (by rw [Bool.or_eq_true, Bool.not_eq_true']; exact h)

theorem wakeReady_regulators (hw : w.nw.wait = false) (hl : w.nw.link = true) : w.wakeReady us =
    ({ w with nw := { w.nw with pg := w.nw.en } } : State).boundary fun s =>
      { s with nw := { s.nw with stage := 2 }, pwr := { s.pwr with refb := false } } := by
  unfold State.wakeReady
  dsimp only
  rw [hs]
  exact if_neg (by rw [hw, hl]; decide)

theorem stageTimeout_regulators_wait (h : w.nw.wait = true) : w.stageTimeout d = w := by
  unfold State.stageTimeout
  dsimp only
  rw [hs]
  exact if_pos h

variable (hw : w.nw.wait = false)
include hw

theorem stageTimeout_regulators_fail (h : 3 ≤ w.nw.tries) : w.stageTimeout d = w.wakeFail 1 (d % 256) := by
  unfold State.stageTimeout
  dsimp only
  rw [hs]
  exact (if_neg (by rw [hw]; decide)).trans (if_pos h)

theorem stageTimeout_regulators_retry (h : w.nw.tries < 3) {off : Nat} (hd : w.nw.kind = .fromDeep → off = 0x0F)
    (hn : w.nw.kind ≠ .fromDeep → off = 0xFF) :
    w.stageTimeout d = { w with nw := { w.nw with wait := true, en := w.nw.en &&& (0xFF - off) } } := by
  have hoff : (if w.nw.kind = .fromDeep then deepRails else allRails) = off := by
    split
    · exact (hd ‹_›).symm
    · exact (hn ‹_›).symm
  unfold State.stageTimeout
  dsimp only
  rw [← hoff, hs]
  exact (if_neg (by rw [hw]; decide)).trans (if_neg (Nat.not_le.mpr h))

end

/-! The oscillator stage. -/

section
variable (hs : w.nw.stage = 2)
include hs

theorem wakeReady_oscillator : w.wakeReady us =
    w.boundary fun s => { s with nw := { s.nw with stage := 3 }, pwr := { s.pwr with refA := s.pwr.refA || !s.pwr.refb } } := by
  unfold State.wakeReady
  dsimp only
  rw [hs]
  rfl

theorem stageTimeout_oscillator_falls (h : w.pwr.refb = false) : w.stageTimeout d = { w with pwr := { w.pwr with refb := true } } := by
  unfold State.stageTimeout
  dsimp only
  rw [hs]
  exact if_neg (by rw [h]; decide)

theorem stageTimeout_oscillator_fail (h : w.pwr.refb = true) : w.stageTimeout d = w.wakeFail 2 1 := by
  unfold State.stageTimeout
  dsimp only
  rw [hs]
  exact if_pos h

end

/-! The memory stage. -/

section
variable (hs : w.nw.stage = 3)
include hs

/-- The memory stage's checks are those of a wake or reset that keeps memory. -/
theorem wakeReady_memory : w.wakeReady us =
    if keepsIt w.nw.kind && !w.retentionOk then w.wakeFail 3 2
    else if keepsIt w.nw.kind && !w.savedOk then w.wakeFail 3 4
    else w.boundary State.logicStage := by
  unfold State.wakeReady
  dsimp only
  rw [hs]
  rfl

theorem wakeReady_memory_lost (hk : keepsIt w.nw.kind = true) (hr : w.retentionOk = false) : w.wakeReady us = w.wakeFail 3 2 := by
  rw [wakeReady_memory hs, hk, hr]
  rfl

theorem wakeReady_memory_unsaved (hk : keepsIt w.nw.kind = true) (hr : w.retentionOk = true) (hv : w.savedOk = false) :
    w.wakeReady us = w.wakeFail 3 4 := by
  rw [wakeReady_memory hs, hk, hr, hv]
  rfl

theorem wakeReady_memory_ok (h : keepsIt w.nw.kind = false ∨ (w.retentionOk = true ∧ w.savedOk = true)) :
    w.wakeReady us = w.boundary State.logicStage := by
  rw [wakeReady_memory hs]
  rcases h with hk | ⟨hr, hv⟩
  · rw [hk]
    rfl
  · rw [hr, hv, Bool.not_true, Bool.and_false]
    rfl

theorem stageTimeout_memory_named (h : d = 3 ∨ d = 4) : w.stageTimeout d = w.wakeFail 3 d := by
  unfold State.stageTimeout
  dsimp only
  rw [hs]
  exact congrArg (w.wakeFail 3) (if_pos h)

theorem stageTimeout_memory_else (h3 : d ≠ 3) (h4 : d ≠ 4) : w.stageTimeout d = w.wakeFail 3 1 := by
  unfold State.stageTimeout
  dsimp only
  rw [hs]
  exact congrArg (w.wakeFail 3) (if_neg (not_or_intro h3 h4))

end

/-! The logic stage. -/

section
variable (hs : w.nw.stage = 4)
include hs

theorem wakeReady_logic (h : w.rdB Reg.nwbCtrl 0 = true) : w.wakeReady us = w.boundary fun s => s.wakeDone us := by
  unfold State.wakeReady
  dsimp only
  rw [hs]
  exact if_pos h

theorem wakeReady_logic_waits (h : w.rdB Reg.nwbCtrl 0 = false) : w.wakeReady us = w := by
  unfold State.wakeReady
  dsimp only
  rw [hs]
  exact if_neg (by rw [h]; decide)

theorem stageTimeout_logic : w.stageTimeout d = w.wakeFail 4 1 := by
  unfold State.stageTimeout
  dsimp only
  rw [hs]
  rfl

end

/-- The state as the logic stage's end leaves it, before the notice. -/
def State.woken (w : State) (us : Nat) : State :=
  let r := w.wrF Reg.pwrWakeStat 15 0 (min 65535 (us / 10))
  let v := ({ r with nw := { r.nw with stage := 0 } } : State).toPstate .run
  v.nwEvent 4 (v.rdF Reg.pwrWakeStat 23 20 + bn v.pwr.refb * 256 + v.rdF Reg.pwrWakeStat 18 18 * 512)

theorem wakeDone_fromOff (h : (w.woken us).nw.kind = .fromOff) : w.wakeDone us = (w.woken us).pwrNotice 0 0 4 0 := by
  unfold State.woken at h
  unfold State.wakeDone
  dsimp only at h ⊢
  rw [h]
  rfl

theorem wakeDone_fromDeep (h : (w.woken us).nw.kind = .fromDeep) : w.wakeDone us = (w.woken us).pwrNotice 0 0 3 0 := by
  unfold State.woken at h
  unfold State.wakeDone
  dsimp only at h ⊢
  rw [h]
  rfl

theorem wakeDone_reset (h : (w.woken us).nw.kind = .warm ∨ (w.woken us).nw.kind = .cold) : w.wakeDone us = w.woken us := by
  unfold State.woken at h
  unfold State.wakeDone
  dsimp only at h ⊢
  rcases h with h | h
  · rw [h]
    rfl
  · rw [h]
    rfl

/-- The next attempt of the regulator stage is due. -/
def State.retryDue (w : State) : Prop := w.nw.pstate = .waking ∧ w.nw.stage = 1 ∧ w.nw.wait = true

/-- The next attempt begun. -/
def State.nextAttempt (w : State) : State := { w with nw := { w.nw with wait := false, tries := w.nw.tries + 1 } }

theorem regulatorRetry_deep (h : w.retryDue) (hk : w.nw.kind = .fromDeep) : w.regulatorRetry = w.nextAttempt.railsOn 0x0F :=
  (if_pos h).trans (congrArg w.nextAttempt.railsOn (if_pos hk))

theorem regulatorRetry_all (h : w.retryDue) (hk : w.nw.kind ≠ .fromDeep) : w.regulatorRetry = w.nextAttempt.railsOn 0xFF :=
  (if_pos h).trans (congrArg w.nextAttempt.railsOn (if_neg hk))

theorem regulatorRetry_none (h : ¬w.retryDue) : w.regulatorRetry = w := if_neg h

end

end Sys2Proof.Machine
end

section
/-! The end of an entry and the supply, barrier and insertion events, case by case (R454, R455, R463, R470, R473, R481, R485, R487,
R488). -/

namespace Sys2Proof.Machine

/-! ### The end of an entry (R454, R455, R481) -/

section
variable {w : State} {deep forced : Bool}

/-- The state that `railsDown` leaves of the supplies, before Nightwatch shows it. -/
def State.railsDropped (w : State) (deep forced : Bool) : State :=
  let d := (w.railsOff (if deep then 0x0F else 0xFF)).dropAll
  { d with nw := { d.nw with en := if deep then 0xF0 else 0, pg := if deep then 0xF0 else 0 }, pwr := { d.pwr with accounted := w.pwr.accounted && !forced } }

/-- `railsDown` by the state it reaches and the code that its event carries. -/
theorem railsDown_eq {y : State} {code : Nat} (hd : deep = true → y = (w.railsDropped deep forced).toPstate .deep)
    (ho : deep = false → y = (w.railsDropped deep forced).toPstate .off) (hc3 : deep = true → code = 3) (hc0 : deep = false → code = 0) :
    w.railsDown deep forced =
      if w.nw.latched = 0 then y.nwEvent 6 (code + bn forced * 256) else (y.nwEvent 6 (code + bn forced * 256)).startWake w.nw.latched := by
  cases deep with
  | true =>
    obtain rfl := hd rfl
    obtain rfl := hc3 rfl
    rfl
  | false =>
    obtain rfl := ho rfl
    obtain rfl := hc0 rfl
    rfl

theorem entryRailsDown_elsewhere (h : w.nw.pstate ≠ .entering) : w.entryRailsDown = w := if_pos h

section
variable (h : w.nw.pstate = .entering)
include h

theorem entryRailsDown_rails (he : w.pwr.entry = .rails deep forced) : w.entryRailsDown = w.railsDown deep forced := by
  unfold State.entryRailsDown
  rw [if_neg (not_not.mpr h), he]

/-- What the entry's first steps wait for. -/
def State.entryDone (w : State) (deep : Bool) : Prop := w.isQuiet = true ∧ (deep = false ∨ w.dramAsleep = true)

theorem entryRailsDown_done (he : w.pwr.entry = .prep deep) (hd : w.entryDone deep) :
    w.entryRailsDown = (w.entrySteps deep).railsDown deep false := by
  unfold State.entryRailsDown
  rw [if_neg (not_not.mpr h), he]
  refine if_pos ?_
  rw [Bool.and_eq_true, Bool.or_eq_true, Bool.not_eq_true']
  exact hd

theorem entryRailsDown_waits (he : w.pwr.entry = .prep deep) (hd : ¬w.entryDone deep) : w.entryRailsDown = w := by
  unfold State.entryRailsDown
  rw [if_neg (not_not.mpr h), he]
  refine if_neg fun hx => hd ?_
  rw [Bool.and_eq_true, Bool.or_eq_true, Bool.not_eq_true'] at hx
  exact hx

theorem entryRailsDown_none (he : w.pwr.entry = .none ∨ ∃ deep, w.pwr.entry = .ack deep) : w.entryRailsDown = w := by
  unfold State.entryRailsDown
  rw [if_neg (not_not.mpr h)]
  rcases he with he | ⟨deep, he⟩
  · rw [he]
  · rw [he]

end

theorem nwbCtrlWrite_acks {v : Nat} (h : tb v 1 = true) : w.nwbCtrlWrite v = ((w.setAlive (tb v 0) 1).wrF Reg.nwbCtrl 1 1 1).offAck := if_pos h

theorem nwbCtrlWrite_alive {v : Nat} (h : tb v 1 = false) : w.nwbCtrlWrite v = w.setAlive (tb v 0) 1 := if_neg (by rw [h]; decide)

theorem offAck_unasked (h : w.rdB Reg.nwbStat 29 = false) : w.offAck = w := if_pos (by rw [h]; rfl)

/-- Step 5 of an orderly OFF done: the rails are next. -/
def State.offSteps (w : State) : State :=
  let d := (w.entrySteps false).payloadDown
  { d with pwr := { d.pwr with entry := .rails false false } }

theorem offAck_asked (h : w.rdB Reg.nwbStat 29 = true) : w.offAck = (w.offSteps.wrF Reg.nwbStat 29 29 0).wrF Reg.nwbStat 15 0 0 :=
  if_neg (by rw [h]; decide)

end

/-! ### Power-good, the supplies and the straps (R463, R470, R488) -/

section
variable {w : State} {n mv a : Nat}

/-- A power-good seen to fall. -/
def State.pgFallen (w : State) (n : Nat) : State := { w with nw := { w.nw with pg := setFld w.nw.pg n n 0 } }

theorem pgFall_disabled (h : tb w.nw.en n = false) : w.pgFall n = w := if_pos (by rw [h]; rfl)

section
variable (h : tb w.nw.en n = true)
include h

theorem pgFall_drops (hp : w.nw.pstate = .run ∨ w.nw.pstate = .deep) : w.pgFall n =
    ((w.pgFallen n).dropAll.toPstate .off).nwFault 5 ((w.pgFallen n).nw.en &&& (0xFF - (w.pgFallen n).nw.pg % 256)) := by
  refine (if_neg (by rw [h]; decide)).trans ?_
  unfold State.pgFallen
  dsimp only
  rcases hp with hp | hp
  · rw [hp]
  · rw [hp]

theorem pgFall_shown (hr : w.nw.pstate ≠ .run) (hd : w.nw.pstate ≠ .deep) : w.pgFall n = w.pgFallen n := by
  refine (if_neg (by rw [h]; decide)).trans ?_
  unfold State.pgFallen
  dsimp only
  generalize w.nw.pstate = p at hr hd
  cases p with
  | run => exact absurd rfl hr
  | deep => exact absurd rfl hd
  | _ => rfl

end

/-- SB_VIN as Nightwatch measures it. -/
def State.sbSeen (w : State) (mv : Nat) : State := { w with nw := { w.nw with sbVin := mv } }

theorem sbVinRise_seen (h : w.nw.on = true ∨ mv ≤ 4300) : w.sbVinRise mv = w.sbSeen mv := if_pos h

theorem sbVinRise_starts (ho : w.nw.on = false) (hm : 4300 < mv) : w.sbVinRise mv =
    { w.payloadDown.resetRegs (fun o => shelfReg o || o == Reg.nwbCtrl) with nw := { NwState.reset with on := true, sbVin := mv } } :=
  if_neg (not_or_intro (by rw [ho]; decide) (Nat.not_le.mpr hm))

theorem sbVinFall_seen (h : w.nw.on = false ∨ 4100 ≤ mv) : w.sbVinFall mv = w.sbSeen mv := if_pos (h.imp_left fun ho => by rw [ho]; rfl)

theorem sbVinFall_stops (ho : w.nw.on = true) (hm : mv < 4100) :
    w.sbVinFall mv = { w.dropAll with nw := { NwState.reset with sbVin := mv } } :=
  if_neg (not_or_intro (by rw [ho]; decide) (Nat.not_le.mpr hm))

/-- The payload depends on the retention supply. -/
def State.retains (w : State) : Prop := w.nw.pstate = .deep ∨ w.nw.pstate = .entering ∨ w.nw.pstate = .waking

/-- The test of `vretSeen`. -/
theorem vretLow_iff : (decide (mv < 550) && (w.nw.pstate == .deep || w.nw.pstate == .entering || w.nw.pstate == .waking)) = true ↔
    mv < 550 ∧ w.retains := by
  simp only [State.retains, Bool.and_eq_true, Bool.or_eq_true, decide_eq_true_eq, beq_iff_eq, or_assoc]

theorem vretSeen_low (h : mv < 550 ∧ w.retains) : w.vretSeen mv = { w with nw := { w.nw with vret := mv, vretLow := true } } := by
  unfold State.vretSeen
  dsimp only
  rw [vretLow_iff.mpr h, Bool.or_true]

theorem vretSeen_else (h : ¬(mv < 550 ∧ w.retains)) : w.vretSeen mv = { w with nw := { w.nw with vret := mv } } := by
  unfold State.vretSeen
  dsimp only
  rw [Bool.eq_false_iff.mpr fun hx => h (vretLow_iff.mp hx), Bool.or_false]

theorem strapSampled_first (ho : w.nw.on = true) (hs : w.nw.sampled = false) :
    w.strapSampled a = ({ w with nw := { w.nw with strapA := a, sampled := true } } : State).nwEvent 1 a :=
  if_neg (not_or_intro (by rw [ho]; decide) (by rw [hs]; decide))

theorem strapSampled_else (h : w.nw.on = false ∨ w.nw.sampled = true) : w.strapSampled a = w := if_pos (h.imp_left fun ho => by rw [ho]; rfl)

end

/-! ### The barrier, the watchdog, EJECT and VAUX_P (R473, R474, R487) -/

section
variable {w : State} {first : Bool}

/-- The end of a keepalive's exchange: the link is up where it was, or where the payload's standby supply answers. -/
def State.keepaliveDone (w : State) : State :=
  (({ w with nw := { w.nw with keepalives := w.nw.keepalives + 1, link := w.nw.link || w.nw.vauxp } } : State).wrF Reg.nwbStat 31 31
    (bn (w.nw.link || w.nw.vauxp))).emit .keepalive

theorem keepaliveSent_on (h : w.nw.on = true) : w.keepaliveSent = w.keepaliveDone := if_neg (by rw [h]; decide)

theorem keepaliveSent_off (h : w.nw.on = false) : w.keepaliveSent = w := if_pos (by rw [h]; rfl)

/-- The barrier's link seen to be down. -/
def State.linkLost (w : State) : State := (({ w with nw := { w.nw with link := false } } : State).wrF Reg.nwbStat 31 31 0).wrF Reg.nwbIrq 3 3 1

theorem keepaliveLost_down (h : w.nw.link = false) : w.keepaliveLost = w := if_pos (by rw [h]; rfl)

section
variable (h : w.nw.link = true)
include h

theorem keepaliveLost_off (hp : w.nw.pstate = .off ∨ w.nw.pstate = .absent) : w.keepaliveLost = w.linkLost :=
  (if_neg (by rw [h]; decide)).trans (if_pos hp)

theorem keepaliveLost_drops (ho : w.nw.pstate ≠ .off) (ha : w.nw.pstate ≠ .absent) :
    w.keepaliveLost = (w.linkLost.dropAll.toPstate .off).nwFault 7 0 :=
  (if_neg (by rw [h]; decide)).trans (if_neg (not_or_intro ho ha))

end

/-- The shelf ports as a restart of the controller leaves them. -/
def State.portsRestarted (w : State) : List (Nat × ShelfPort) :=
  (w.nw.ports.map fun e => (e.1, { ShelfPort.reset with bad := e.2.bad })).filter fun e => decide (e.2 ≠ ShelfPort.reset)

theorem nwRestart_on (h : w.nw.on = true) :
    w.nwRestart = ({ w with nw := { w.nw with ports := w.portsRestarted, order := [] } } : State).nwEvent 0xB 0 := if_neg (by rw [h]; decide)

theorem nwRestart_off (h : w.nw.on = false) : w.nwRestart = w := if_pos (by rw [h]; rfl)

theorem ejectAssert_ignored (h : w.nw.on = false ∨ w.nw.eject = true) : w.ejectAssert = w := if_pos (h.imp_left fun ho => by rw [ho]; rfl)

section
variable (ho : w.nw.on = true) (he : w.nw.eject = false)
include ho he

/-- EJECT is new to a Nightwatch that runs. -/
theorem ejectNew : ¬((!w.nw.on) = true ∨ w.nw.eject = true) := not_or_intro (by rw [ho]; decide) (by rw [he]; decide)

theorem ejectAssert_offs (h : tb w.policy 1 = true ∧ (w.nw.pstate = .run ∨ w.nw.pstate = .waking)) :
    w.ejectAssert = (w.ejectSeen.nwPower 1 1000).2 := (if_neg (ejectNew ho he)).trans (if_pos h)

theorem ejectAssert_seen (h : ¬(tb w.policy 1 = true ∧ (w.nw.pstate = .run ∨ w.nw.pstate = .waking))) : w.ejectAssert = w.ejectSeen :=
  (if_neg (ejectNew ho he)).trans (if_neg h)

end

/-- EJECT shown to both sides. -/
def State.ejectShown (w : State) : State :=
  ((({ w with nw := { w.nw with eject := true } } : State).wrF Reg.nwbStat 30 30 1).wrF Reg.nwbIrq 0 0 1).nwEvent 7 0

theorem ejectSeen_off (h : w.nw.pstate = .off ∨ w.nw.pstate = .absent) : w.ejectSeen = w.ejectShown.nwEvent 9 0 := if_pos h

theorem ejectSeen_on (ho : w.nw.pstate ≠ .off) (ha : w.nw.pstate ≠ .absent) : w.ejectSeen = w.ejectShown := if_neg (not_or_intro ho ha)

theorem ejectReleased_held (h : w.nw.eject = true) : w.ejectReleased =
    ((({ w with nw := { w.nw with eject := false } } : State).wrF Reg.nwbStat 30 30 0).wrF Reg.nwbIrq 0 0 1).nwEvent 8 0 :=
  if_neg (by rw [h]; decide)

theorem ejectReleased_free (h : w.nw.eject = false) : w.ejectReleased = w := if_pos (by rw [h]; rfl)

/-- VAUX_P stable with the link up: the payload is there, and off. -/
def State.vauxCome (w : State) : State :=
  ((({ w with nw := { w.nw with vauxp := true, link := true, en := 0 } } : State).wrF Reg.nwbStat 31 31 1).toPstate .off).nwEvent 2 0

theorem vauxArrive_ignored (h : w.nw.on = false ∨ w.nw.pstate ≠ .absent) : w.vauxArrive = w := if_pos (h.imp_left fun ho => by rw [ho]; rfl)

section
variable (ho : w.nw.on = true) (ha : w.nw.pstate = .absent)
include ho ha

/-- `vauxArrive` of an absent payload. -/
theorem vauxArrive_absent : w.vauxArrive = if tb w.vauxCome.policy 0 && !w.vauxCome.nw.eject then w.vauxCome.source 2 else w.vauxCome :=
  if_neg (not_or_intro (by rw [ho]; decide) (not_not.mpr ha))

theorem vauxArrive_wakes (h : tb w.vauxCome.policy 0 = true ∧ w.vauxCome.nw.eject = false) : w.vauxArrive = w.vauxCome.source 2 := by
  rw [vauxArrive_absent ho ha]
  exact if_pos (by rw [Bool.and_eq_true, Bool.not_eq_true']; exact h)

theorem vauxArrive_rests (h : ¬(tb w.vauxCome.policy 0 = true ∧ w.vauxCome.nw.eject = false)) : w.vauxArrive = w.vauxCome := by
  rw [vauxArrive_absent ho ha]
  exact if_neg (by rw [Bool.and_eq_true, Bool.not_eq_true']; exact h)

end

theorem vauxPLoss_absent (h : w.nw.pstate = .absent) : w.vauxPLoss first = w := if_pos h

theorem vauxPLoss_present (h : w.nw.pstate ≠ .absent) :
    w.vauxPLoss first = ((w.vauxGone first).toPstate .absent).nwEvent 3 (pcode w.nw.pstate) := if_neg h

/-- VAUX_P gone, and the link with it. -/
def State.vauxLost (w : State) : State := ({ w with nw := { w.nw with vauxp := false, link := false } } : State).wrF Reg.nwbStat 31 31 0

theorem vauxGone_off (h : w.nw.pstate = .off) : w.vauxGone first = w.vauxLost := if_pos h

section
variable (h : w.nw.pstate ≠ .off)
include h

theorem vauxGone_supply (hf : first = true) :
    w.vauxGone first = (w.vauxLost.dropAll.toPstate .off).nwFault 5 (w.nw.en &&& (0xFF - w.nw.pg % 256)) := by
  subst hf
  exact if_neg h

theorem vauxGone_barrier (hf : first = false) : w.vauxGone first = (w.vauxLost.dropAll.toPstate .off).nwFault 7 0 := by
  subst hf
  exact if_neg h

end
end

/-! ### The rows as commands -/

section
variable {s t : State}

/-- A row that acts under a condition, where the condition holds or not. -/
theorem cmdIf_does {ok : Bool} (hok : ok = true) {P : State → Prop} [DecidablePred P] {f : State → State} :
    (P (begin s) → cmd ok s (fun s => if P s then f s else s) = .next (after s (f (begin s)))) ∧
    (¬P (begin s) → cmd ok s (fun s => if P s then f s else s) = .next (after s (begin s))) :=
  ⟨fun h => cmd_does (f := fun s => if P s then f s else s) hok (if_pos h), fun h => cmd_does (f := fun s => if P s then f s else s) hok (if_neg h)⟩

theorem wakeStageReady_does {us : Nat} (h : (begin s).nw.pstate = .waking) (ht : (begin s).wakeReady us = t) :
    exec (.wakeStageReady us) s = .next { t with pending := s.pending } := by
  subst ht
  refine (otpCmd_next rfl s fun s => if s.nw.pstate = .waking then s.wakeReady us else s).trans ?_
  rw [if_pos h]

theorem wakeStageReady_elsewhere {us : Nat} (h : (begin s).nw.pstate ≠ .waking) :
    exec (.wakeStageReady us) s = .next { begin s with pending := s.pending } := by
  refine (otpCmd_next rfl s fun s => if s.nw.pstate = .waking then s.wakeReady us else s).trans ?_
  rw [if_neg h]

theorem wakeStageTimeout_does {d : Nat} (h : (begin s).nw.pstate = .waking) (ht : (begin s).stageTimeout d = t) :
    exec (.wakeStageTimeout d) s = .next (after s t) :=
  cmd_does (f := fun s => if s.nw.pstate = .waking then s.stageTimeout d else s) rfl ((if_pos h).trans ht)

theorem wakeStageTimeout_elsewhere {d : Nat} (h : (begin s).nw.pstate ≠ .waking) : exec (.wakeStageTimeout d) s = .next (after s (begin s)) :=
  cmd_does (f := fun s => if s.nw.pstate = .waking then s.stageTimeout d else s) rfl (if_neg h)

theorem wsenseTrip_does {code : Nat} (hc : code < 256) (ho : (begin s).nw.on = true) (he : tb ((begin s).wakeByte 0) 1 = true)
    (ht : (begin s).wsenseTrip code = t) : exec (.wsenseTrip code) s = .next (after s t) :=
  cmd_does (f := fun s => if s.nw.on && tb (s.nw.wakecfg.getD 0 0).toNat 1 then s.wsenseTrip code else { s with nw := { s.nw with wsense := code } })
    (decide_eq_true hc) ((if_pos (Bool.and_eq_true_iff.mpr ⟨ho, he⟩)).trans ht)

theorem wsenseTrip_disabled {code : Nat} (hc : code < 256) (h : (begin s).nw.on = false ∨ tb ((begin s).wakeByte 0) 1 = false) :
    exec (.wsenseTrip code) s = .next (after s { begin s with nw := { (begin s).nw with wsense := code } }) :=
  cmd_does (f := fun s => if s.nw.on && tb (s.nw.wakecfg.getD 0 0).toNat 1 then s.wsenseTrip code else { s with nw := { s.nw with wsense := code } })
    (decide_eq_true hc) (if_neg (Bool.eq_false_iff.mp (Bool.and_eq_false_iff.mpr h)))

theorem wakeTimer_does (ho : (begin s).nw.on = true) (hx : (begin s).nw.xtal = true) (ht : (begin s).wakeTimer = t) :
    exec .wakeTimer s = .next (after s t) :=
  cmd_does (f := fun s => if s.nw.on && s.nw.xtal then s.wakeTimer else s) rfl ((if_pos (Bool.and_eq_true_iff.mpr ⟨ho, hx⟩)).trans ht)

theorem wakeTimer_stands (h : (begin s).nw.on = false ∨ (begin s).nw.xtal = false ∨ (begin s).nw.wakeTick = none) :
    exec .wakeTimer s = .next (after s (begin s)) := by
  refine cmd_does (f := fun s => if s.nw.on && s.nw.xtal then s.wakeTimer else s) rfl ?_
  split
  case isTrue hx =>
    obtain ⟨ho, hx⟩ := Bool.and_eq_true_iff.mp hx
    rw [ho, hx] at h
    exact wakeTimer_unset (h.resolve_left (by decide) |>.resolve_left (by decide))
  case isFalse => rfl

theorem regulatorRetry_does (ht : (begin s).regulatorRetry = t) : exec .regulatorRetry s = .next (after s t) :=
  cmd_does (f := fun s => s.regulatorRetry) rfl ht

theorem powerGoodFall_does {n : Nat} (hn : n < 8) (ht : (begin s).pgFall n = t) : exec (.powerGoodFall n) s = .next (after s t) :=
  cmd_does (f := fun s => s.pgFall n) (decide_eq_true hn) ht

theorem sbVinRise_does {mv : Nat} (ht : (begin s).sbVinRise mv = t) : exec (.sbVinRise mv) s = .next (after s t) :=
  cmd_does (f := fun s => s.sbVinRise mv) rfl ht

theorem sbVinFall_does {mv : Nat} (ht : (begin s).sbVinFall mv = t) : exec (.sbVinFall mv) s = .next (after s t) :=
  cmd_does (f := fun s => s.sbVinFall mv) rfl ht

theorem sbVinLow_does {mv : Nat} (ht : (begin s).sbVinLow mv = t) : exec (.sbVinLow mv) s = .next (after s t) :=
  cmd_does (f := fun s => s.sbVinLow mv) rfl ht

theorem vretLow_does {mv : Nat} (ht : (begin s).vretSeen mv = t) : exec (.vretLow mv) s = .next (after s t) :=
  cmd_does (f := fun s => s.vretSeen mv) rfl ht

theorem strapSample_does {a : Nat} (ha : a < 8) (ht : (begin s).strapSampled a = t) : exec (.strapSample a) s = .next (after s t) :=
  cmd_does (f := fun s => s.strapSampled a) (decide_eq_true ha) ht

theorem keepaliveSend_does (ht : (begin s).keepaliveSent = t) : exec .keepaliveSend s = .next (after s t) :=
  cmd_does (f := fun s => s.keepaliveSent) rfl ht

theorem keepaliveLoss_does (ht : (begin s).keepaliveLost = t) : exec .keepaliveLoss s = .next (after s t) :=
  cmd_does (f := fun s => s.keepaliveLost) rfl ht

theorem nwWatchdogExpire_does (ht : (begin s).nwRestart = t) : exec .nwWatchdogExpire s = .next (after s t) :=
  cmd_does (f := fun s => s.nwRestart) rfl ht

theorem ejectAssert_does (ht : (begin s).ejectAssert = t) : exec .ejectAssert s = .next (after s t) :=
  cmd_does (f := State.ejectAssert) rfl ht

theorem ejectRelease_does (ht : (begin s).ejectReleased = t) : exec .ejectRelease s = .next (after s t) :=
  cmd_does (f := fun s => s.ejectReleased) rfl ht

theorem vauxPArrive_does (ht : (begin s).vauxArrive = t) : exec .vauxPArrive s = .next (after s t) :=
  cmd_does (f := fun s => s.vauxArrive) rfl ht

theorem vauxPLoss_does {first : Bool} (ht : (begin s).vauxPLoss first = t) : exec (.vauxPLoss first) s = .next (after s t) :=
  cmd_does (f := fun s => s.vauxPLoss first) rfl ht

theorem entryRailsDown_does (ht : (begin s).entryRailsDown = t) : exec .entryRailsDown s = .next (after s t) :=
  cmd_does (f := State.entryRailsDown) rfl ht

end

end Sys2Proof.Machine
end

section
/-! What Nightwatch does with the payload's supplies, as a whole. -/

namespace Sys2Proof.Machine

/-- Settles O58: each event of Nightwatch and of the supplies is one operation, whose cases the lemmas above give. -/
theorem wakeAndSupply : Obligations.WakeAndSupply := by
  intro s b
  refine ⟨cmdIf_does rfl (P := fun s => s.nw.on = true) (f := fun s => s.source 0) |>.imp id fun h hf => h (ne_true_of_eq_false hf),
    fun w n => ⟨source_ignored, source_latched, source_wakes⟩, fun w m => ⟨startWake_off, startWake_deep, startWake_else, rfl, rfl⟩,
    fun code hc => ?_, ⟨wakeTimer_stands, fun t ho hx h => wakeTimer_does ho hx (wakeTimer_fires h)⟩, fun us => ⟨?_, fun hw => ?_⟩,
    fun w => ⟨fun f => rfl, fun stage detail => rfl, fun us => ⟨wakeDone_fromOff, wakeDone_fromDeep, wakeDone_reset⟩⟩, fun d => ⟨?_, fun hw => ?_⟩,
    ?_, fun n hn => ?_, fun mv => ?_, fun a ha => ?_, ?_, ?_, ?_, ?_, ?_, ?_, ?_, ?_, fun first => ?_, ?_, fun w deep forced x y code => ?_,
    fun i v hi hu => ?_, fun w v => ⟨nwbCtrlWrite_acks, nwbCtrlWrite_alive, offAck_unasked, offAck_asked⟩⟩
  · intro gives cfg
    refine ⟨wsenseTrip_disabled hc, fun ho he past back hbelow habove => ?_⟩
    have ⟨hp, hb⟩ := wsPast_wsBack_eq hbelow habove
    have row : ∀ {t}, b.wsenseTrip code = t → gives t := wsenseTrip_does hc ho he
    exact ⟨fun ha => ⟨fun h => row (wsenseTrip_fires hp hb ha h), fun h => row (wsenseTrip_armed hp hb ha h)⟩, fun ha => row (wsenseTrip_rearms hp hb ha)⟩
  · intro h
    by_cases hw : b.nw.pstate = .waking
    · exact wakeStageReady_does hw (wakeReady_none (h.resolve_left (not_not.mpr hw)))
    · exact wakeStageReady_elsewhere hw
  · have row : ∀ {t}, b.wakeReady us = t → exec (.wakeStageReady us) s = .next { t with pending := s.pending } := wakeStageReady_does hw
    refine ⟨fun h1 h => row (wakeReady_regulators_wait h1 h), fun h1 ht hl => ?_, fun h2 => ?_, fun h3 hk hr => row (wakeReady_memory_lost h3 hk hr),
      fun h3 hk hr hv => row (wakeReady_memory_unsaved h3 hk hr hv), fun h3 h => ?_, fun h4 h => ?_, fun h4 h => row (wakeReady_logic_waits h4 h)⟩
    · exact ⟨fun ho => row ((wakeReady_regulators h1 ht hl).trans (boundary_off ho)), fun ho => row ((wakeReady_regulators h1 ht hl).trans (boundary_on ho))⟩
    · exact ⟨fun ho => row ((wakeReady_oscillator h2).trans (boundary_off ho)), fun ho => row ((wakeReady_oscillator h2).trans (boundary_on ho))⟩
    · exact ⟨fun ho => row ((wakeReady_memory_ok h3 h).trans (boundary_off ho)), fun ho => row ((wakeReady_memory_ok h3 h).trans (boundary_on ho))⟩
    · exact ⟨fun ho => row ((wakeReady_logic h4 h).trans (boundary_off ho)), fun ho => row ((wakeReady_logic h4 h).trans (boundary_on ho))⟩
  · intro h
    by_cases hw : b.nw.pstate = .waking
    · exact wakeStageTimeout_does hw (stageTimeout_none (h.resolve_left (not_not.mpr hw)))
    · exact wakeStageTimeout_elsewhere hw
  · have row : ∀ {t}, b.stageTimeout d = t → exec (.wakeStageTimeout d) s = .next (after s t) := wakeStageTimeout_does hw
    exact ⟨fun h1 h => row (stageTimeout_regulators_wait h1 h),
      fun h1 ht => ⟨fun h => row (stageTimeout_regulators_fail h1 ht h), fun h off hd hn => row (stageTimeout_regulators_retry h1 ht h hd hn)⟩,
      fun h2 => ⟨fun h => row (stageTimeout_oscillator_falls h2 h), fun h => row (stageTimeout_oscillator_fail h2 h)⟩,
      fun h3 => ⟨fun h => row (stageTimeout_memory_named h3 h), fun hn hm => row (stageTimeout_memory_else h3 hn hm)⟩,
      fun h4 => row (stageTimeout_logic h4)⟩
  · exact ⟨fun h hk => regulatorRetry_does (regulatorRetry_deep h hk), fun h hk => regulatorRetry_does (regulatorRetry_all h hk),
      fun h => regulatorRetry_does (regulatorRetry_none h)⟩
  · exact ⟨fun h => powerGoodFall_does hn (pgFall_disabled h), fun h => ⟨fun hp => powerGoodFall_does hn (pgFall_drops h hp),
      fun hr hd => powerGoodFall_does hn (pgFall_shown h hr hd)⟩⟩
  · exact ⟨fun h => sbVinRise_does (sbVinRise_seen h), fun ho hm => sbVinRise_does (sbVinRise_starts ho hm), fun h => sbVinFall_does (sbVinFall_seen h),
      fun ho hm => sbVinFall_does (sbVinFall_stops ho hm), fun h => sbVinLow_does (if_pos h), fun h => sbVinLow_does (if_neg h),
      fun h => vretLow_does (vretSeen_low h), fun h => vretLow_does (vretSeen_else h)⟩
  · exact ⟨fun ho hs => strapSample_does ha (strapSampled_first ho hs), fun h => strapSample_does ha (strapSampled_else h)⟩
  · exact cmdIf_does rfl (P := fun s => s.nw.on = true) (f := fun s => { s with nw := { s.nw with xtal := true } }) |>.imp id
      fun h hf => h (ne_true_of_eq_false hf)
  · exact ⟨fun h => keepaliveSend_does (keepaliveSent_on h), fun h => keepaliveSend_does (keepaliveSent_off h)⟩
  · exact ⟨fun h => keepaliveLoss_does (keepaliveLost_down h), fun h => ⟨fun hp => keepaliveLoss_does (keepaliveLost_off h hp),
      fun ho ha => keepaliveLoss_does (keepaliveLost_drops h ho ha)⟩⟩
  · exact ⟨fun h => nwWatchdogExpire_does (nwRestart_on h), fun h => nwWatchdogExpire_does (nwRestart_off h)⟩
  · exact cmdIf_does rfl (P := fun s => s.nw.pstate = .entering ∧ s.rdB Reg.nwbStat 29 = true) (f := fun s => s.forcedPath)
  · exact ⟨fun h => ejectAssert_does (ejectAssert_ignored h), fun ho he => ⟨fun h => ejectAssert_does (ejectAssert_offs ho he h),
      fun h => ejectAssert_does (ejectAssert_seen ho he h)⟩, ejectSeen_off, ejectSeen_on⟩
  · exact ⟨fun h => ejectRelease_does (ejectReleased_held h), fun h => ejectRelease_does (ejectReleased_free h)⟩
  · exact ⟨fun ho ha => ⟨fun h => vauxPArrive_does (vauxArrive_wakes ho ha h), fun h => vauxPArrive_does (vauxArrive_rests ho ha h)⟩,
      fun h => vauxPArrive_does (vauxArrive_ignored h)⟩
  · exact ⟨fun h => vauxPLoss_does (vauxPLoss_absent h), fun h => vauxPLoss_does (vauxPLoss_present h), vauxGone_off,
      fun h => ⟨vauxGone_supply h, vauxGone_barrier h⟩⟩
  · exact ⟨fun h => entryRailsDown_does (entryRailsDown_elsewhere h), fun h => ⟨fun deep forced he => entryRailsDown_does (entryRailsDown_rails h he),
      fun deep he => ⟨fun hd => entryRailsDown_does (entryRailsDown_done h he hd), fun hd => entryRailsDown_does (entryRailsDown_waits h he hd)⟩,
      fun he => entryRailsDown_does (entryRailsDown_none h he)⟩⟩
  · rintro rails en d rfl hd ho hc3 hc0 z
    exact ⟨fun h => (railsDown_eq hd ho hc3 hc0).trans (if_pos h), fun h => (railsDown_eq hd ho hc3 hc0).trans (if_neg h)⟩
  · exact ⟨pcmd_next (decide_eq_true hi) hu _, pcmd_next (decide_eq_true hi) hu _⟩

end Sys2Proof.Machine
end
